-- ==== Sys2Proof/Word.lean ====
section
/-!
DEFINITION. The word types of the node and their plainest arithmetic: bytes, 32-bit registers, and the
named bit fields that every register map of the manual is written in.
-/

namespace Sys2Proof

/-- A byte of storage or of a frame. -/
abbrev Byte := BitVec 8

/-- A register: every register is 32 bits wide (R452). -/
abbrev Word := BitVec 32

/-- Field `[lo + w - 1 : lo]` of a value, as a number. -/
def getF {n : Nat} (v : BitVec n) (lo w : Nat) : Nat := (v.toNat >>> lo) % 2 ^ w

/-- The mask that covers field `[lo + w - 1 : lo]`. -/
def maskF (n lo w : Nat) : BitVec n := BitVec.ofNat n (2 ^ w - 1) <<< lo

/-- A value with field `[lo + w - 1 : lo]` replaced by the low `w` bits of `x`. -/
def setF {n : Nat} (v : BitVec n) (lo w x : Nat) : BitVec n :=
  (v &&& ~~~(maskF n lo w)) ||| ((BitVec.ofNat n x <<< lo) &&& maskF n lo w)

/-- Bit `i` of a value. -/
def getB {n : Nat} (v : BitVec n) (i : Nat) : Bool := v.getLsbD i

/-- A value with bit `i` set to `b`. -/
def setB {n : Nat} (v : BitVec n) (i : Nat) (b : Bool) : BitVec n :=
  if b then v ||| BitVec.twoPow n i else v &&& ~~~(BitVec.twoPow n i)

/-- Ceiling division. -/
def ceilDiv (a b : Nat) : Nat := (a + b - 1) / b

/-- The signed value as a 32-bit two's-complement word. -/
def wordOfInt (i : Int) : Word := BitVec.ofInt 32 i

/-- Clamp an integer between two bounds. -/
def clampInt (lo hi x : Int) : Int := max lo (min hi x)

/-- `x` divided by `2 ^ k`, rounded to the nearest integer with ties away from zero (R14, R17). -/
def roundAway (x : Int) (d : Nat) : Int :=
  if 0 ≤ x then ((2 * x + d) / (2 * d)) else -((2 * (-x) + d) / (2 * d))

/-- The little-endian number of a byte list (R4). -/
def leNat : List Byte → Nat
  | [] => 0
  | b :: bs => b.toNat + 256 * leNat bs

/-- The big-endian number of a byte list (ORT headers, R4). -/
def beNat (bs : List Byte) : Nat := bs.foldl (fun a b => 256 * a + b.toNat) 0

/-- The `n` little-endian bytes of a number. -/
def leBytes : Nat → Nat → List Byte
  | 0, _ => []
  | n + 1, x => BitVec.ofNat 8 x :: leBytes n (x / 256)

/-- The `n` big-endian bytes of a number. -/
def beBytes (n x : Nat) : List Byte := (leBytes n x).reverse

/-- The bytes `[i, i + n)` of a byte list; bytes past its end read as zero. -/
def sliceB (bs : List Byte) (i n : Nat) : List Byte :=
  let t := (bs.drop i).take n
  t ++ List.replicate (n - t.length) 0

/-- The little-endian number in bytes `[i, i + n)`. -/
def leAt (bs : List Byte) (i n : Nat) : Nat := leNat ((bs.drop i).take n)

/-- The big-endian number in bytes `[i, i + n)`. -/
def beAt (bs : List Byte) (i n : Nat) : Nat := beNat (sliceB bs i n)

/-- Every byte of `[i, i + n)` is zero. -/
def zerosAt (bs : List Byte) (i n : Nat) : Bool := ((bs.drop i).take n).all (· == 0)

/-- The largest value of a saturating 32-bit counter. -/
def maxCount : Nat := 0xFFFFFFFF

end Sys2Proof
end

