-- ==== Sys2Proof/Syntax.lean ====
section
/-!
DEFINITION. The commands of the block: one constructor of `Instr` for each row of spec/opcode_table.json, with
the operands that the outside world (or the moment of a step of the node's own) brings along. What the outside
world does to the node, and each indivisible step the node itself takes, is a command; spec/95 lists what comes
about inside each.
-/

namespace Sys2Proof

/-- A queue that feeds an engine (R248): a host submission ring of a partition, or an inbound queue of a
connection. -/
inductive Queue where
  | host (part engine : Nat)
  | inbound (conn engine : Nat)
  deriving DecidableEq, Repr

/-- A unit that clock gating acts on (R36). -/
inductive GateUnit where
  | column (c : Nat)
  | slice (h : Nat)
  | port (l : Nat)
  deriving DecidableEq, Repr

/-- How a host access of the node over PCIe fails (R51, R257). -/
inductive HostErr where
  | unsupported
  | completerAbort
  | timeout
  | poisoned
  deriving DecidableEq, Repr

/-- An error at the far end of a far window (R51). -/
inductive FarErr where
  | host (e : HostErr)
  | violation
  | revoked
  deriving DecidableEq, Repr

/-- The check of a span-job that ends (R152, R153). -/
inductive CheckStage where
  | score
  | value
  | weight
  deriving DecidableEq, Repr

/-- A complement-paired record: those of R66 (a waiting ember by its EMBER_ID); the other records that the node keeps
twice in the hot tier (R364): an entry of the partition table record, the fence list, an entry of the spare-row map; and
the states that the Custody firmware acts on (R367): a partition's state, the step of a release, the result that a
waiting probe run carries, and the progress of a scrub. -/
inductive RecRef where
  | dir (part seq layer : Nat)
  | lease (part seq layer : Nat)
  | waymark (part wm : Nat)
  | waykey (i : Nat)
  | shaper (part lport : Nat)
  | entry (part : Nat)
  | far (k : Nat)
  | ember (id : Nat)
  | lock (k : Nat)
  | fenceList
  | spare (k : Nat)
  | partState (part : Nat)
  | release (part : Nat)
  | probeRun (k : Nat)
  | scrub (k : Nat)
  deriving DecidableEq, Repr

/-- A disturbance of storage by the environment: a unit of coded storage that now reads with a correctable or an
uncorrectable error (R126, R361), at an address or in the scratch of a column, which has none (R115); or one bit of a
stored pair that flips (R63), where `copies` counts the copies hit of a record kept twice (R364). -/
inductive Upset where
  | sector (addr : Nat) (uncorrectable : Bool)
  | scratch (col word : Nat) (uncorrectable : Bool)
  | pair (r : RecRef) (copies : Nat)
  deriving DecidableEq, Repr

/-- What the environment brings to a milestone: the highest sensors, in tenths of a degree (R432), and the
storage upsets of the milestone that ends. -/
structure Env where
  tmaxLogic : Nat
  tmaxDram : Nat
  upsets : List Upset
  deriving DecidableEq, Repr

/-- A page slot: one KV head and one page of a sequence-layer (R68, R69). -/
structure PageRef where
  part : Nat
  seq : Nat
  layer : Nat
  kv : Nat
  firstPos : Nat
  deriving DecidableEq, Repr

/-- The key of a directory entry (R82). -/
structure DirKey where
  part : Nat
  seq : Nat
  layer : Nat
  deriving DecidableEq, Repr

/-- One head record of a partial: m, l and o as FP32 bits (R148, R162). -/
structure Head where
  m : Word
  l : Word
  o : List Word
  deriving DecidableEq, Repr

/-- A rebuild image (R385). START brings the connection that it came over, the owner's EPOCH (R383), and each layer with
its PUBLISHED and the owner's extent; UNIT brings layer, KV head and slot bytes of each page. -/
inductive RbImage where
  | start (conn epoch seq : Nat) (layers : List (Nat × Nat × Nat × Nat))
  | unit (seq span : Nat) (pages : List (Nat × Nat × List Byte))
  | fin (seq : Nat)
  deriving DecidableEq, Repr

/-- A file that the recovery loaders write (R411, R412). -/
inductive RcvFile where
  | firmware
  | charter
  deriving DecidableEq, Repr

/-- What triggers a Lodge reset (R394). -/
inductive LodgeCause where
  | perst
  | hotReset
  | linkDown
  deriving DecidableEq, Repr

/-- What boot meets on the board and on the dies: the strap balls (R405, R420), whether the PUF reconstructs its seed (R336), the training of
links and stacks with the HELD cause of a failure (R408 step 4), and the partitions whose scrub fails (R342). -/
structure BootEnv where
  strapBoot : Nat
  strapPcie : Nat
  strapSlot : Nat
  pufOk : Bool
  trainFail : Option Nat
  scrubFails : List Nat
  deriving DecidableEq, Repr

/-- The commands. Each constructor is the row of the same name, in the order of the table. -/
inductive Instr where
  -- fabric time (spec/01)
  | beacon (port : Nat) (ns : Nat) (tc : Nat) (gateOk : Bool) (body : List Byte)
  | stallEnd
  | adriftEnter
  | refLoss
  | refReturn
  | slew
  | milestoneBoundary (env : Env)
  | sealDeadline (ember : Nat)
  | revocationDrainLimit (key : Nat)
  | ftSetGo (v : Word)
  | ftSrcIdWrite (v : Word)
  | ftNowRead
  | unitGate (u : GateUnit)
  | spanJobOverrun (cmd span : Nat)
  -- host access and memory tiers (spec/02, spec/16)
  | hostRead (fn off len : Nat) (atomicOp : Bool)
  | hostWrite (fn off : Nat) (data : List Byte) (atomicOp : Bool)
  | farWrite
  | farRead
  | objectWindowWrite (fn off : Nat) (data : List Byte)
  | reencodeBurst (col : Nat)
  | haul (cmd : Nat) (hostData : List Byte)
  | haulTile (cmd : Nat) (hostData : List Byte)
  | haulFarError (cmd : Nat) (e : FarErr)
  -- pages and sequences (spec/03)
  | append (cmd : Nat)
  | openSeq (cmd : Nat)
  | closeSeq (cmd : Nat)
  | closeFree (key : DirKey)
  | appendRelease (cmd : Nat)
  | appendHoldTimeout (cmd : Nat)
  | pageCode (page : PageRef)
  | codedOldSlotFree (page : PageRef)
  | dirLookup
  | dirLookupDone
  -- Flue columns (spec/04)
  | row (cmd : Nat)
  | flueBurstEnd (col waitNs : Nat)
  | refreshDue (col : Nat)
  | wearWindowStart
  | writeBackBurst (col : Nat)
  | scrubBurst (col : Nat)
  | relocateBurst (col : Nat)
  -- ATTEND (spec/05)
  | attend (cmd : Nat)
  | spanJob (cmd span : Nat)
  | spanJobEnd (cmd span : Nat)
  | tallyCheckEnd (cmd span : Nat) (stage : CheckStage) (disturbed : Bool)
  | emberEmit (cmd block : Nat) (mergeFails : Nat)
  | sealEmber (ember : Nat)
  | attendComplete (cmd : Nat)
  -- embers and MERGE (spec/06)
  | emberReceived (conn : Option Nat) (tenant : Nat) (hdr cmp : BitVec 256) (body : List Byte) (mergeFails : Nat)
  | verdictReceived (conn : Option Nat) (tenant : Nat) (hdr cmp : BitVec 256)
  | verdictTimeout (ember : Nat)
  | merge (cmd : Nat)
  | orphanExpire (ember : Nat)
  | mergeResultSend (cmd : Nat) (mergeFails : Nat)
  | mergeWaitTimeout (cmd : Nat)
  -- KINDLE (spec/07)
  | kindle (cmd : Nat)
  | bind (cmd : Nat)
  | unbind (cmd : Nat)
  | unbindClear (part slot : Nat)
  | arrayOperation (part rows : Nat)
  | internalRequestDone (cmd tag : Nat) (status : Nat)
  | kindleCollectTimeout (cmd : Nat)
  | kindlePublish (cmd : Nat)
  -- pressure (spec/08)
  | backgroundDropping (part : Nat)
  | unitFree (part seq span : Nat)
  -- rings, fences and waymarks (spec/09)
  | doorbellSub (fn engine : Nat) (v : Word)
  | doorbellCpl (fn engine : Nat) (v : Word)
  | descriptorTake (q : Queue) (desc : BitVec 512)
  | descriptorReadFail (part engine : Nat) (e : HostErr)
  | waitSatisfied (cmd : Nat)
  | waitTimeout (cmd : Nat)
  | nop (cmd : Nat)
  | descriptorComplete (cmd : Nat)
  | cplWriteFail (cmd : Nat) (e : HostErr)
  | ringEnable (fn engine : Nat)
  | ringDisable (fn engine : Nat)
  | wmZero (fn wm : Nat)
  | wmClearPoison (fn wm : Nat)
  | wmAdd (fn wm : Nat) (v : BitVec 64)
  | wmValueRead (fn wm : Nat) (wide : Bool)
  | watchArm (fn : Nat) (v : Word)
  -- road ports and ORT (spec/10)
  | arpSolicit (lport : Nat) (frame : List Byte)
  | ortPacket (lport : Nat) (frame : List Byte) (fcsOk : Bool)
  | packetPlace (conn psn : Nat)
  | readResp (conn msg off : Nat) (data : List Byte)
  | cpl (conn : Nat) (record : List Byte)
  | ack (conn : Nat) (ext : List Byte)
  | ackDelayExpire (conn : Nat)
  | report (conn : Nat) (ext : List Byte)
  | connect (tenant : Nat) (ext : List Byte)
  | accept (conn : Nat) (ext : List Byte)
  | reject (conn : Nat) (ext : List Byte)
  | ctrlClose (conn : Nat)
  | closeAck (conn : Nat)
  | probe (conn path : Nat)
  | probeAck (conn path : Nat)
  | packetTransmit (conn tc : Nat)
  | rtoExpire (conn psn : Nat)
  | probeTimer (conn path : Nat)
  | keepaliveExpire (conn path : Nat)
  | deadTimeExpire (conn : Nat)
  | connOpen (fn : Nat)
  | connClose (fn : Nat)
  | connectRetry (conn : Nat)
  | connectTimeout (conn : Nat)
  | closingTimeout (conn : Nat)
  | connWindowWrite (fn off : Nat) (data : List Byte)
  | portTableWrite (off : Nat) (data : List Byte)
  | portCfgWrite (n : Nat) (v : Word)
  | portReset (n : Nat)
  | linkDown (lport : Nat)
  | linkUp (lport : Nat)
  | waykeyCreate (fn : Nat)
  | waykeyRevoke (fn : Nat) (v : Word)
  | waykeyRead (fn : Nat)
  | revocationComplete (key : Nat)
  -- shaping (spec/11)
  | shaperWrite
  | shaperRead
  -- partitions and security (spec/12)
  | attestGo (fn : Nat) (v : Word)
  | attestDone (fn : Nat)
  | release (part : Nat)
  | releaseScrub (part : Nat)
  | scrubVerify (part : Nat) (failed : Bool)
  | activate (part : Nat)
  -- faults and resilience (spec/13)
  | partitionReset (addr : Nat)
  | complementReread (r : RecRef)
  | flitCrcFail (link : Nat)
  | wdogService (v : Word)
  | wdogWarn
  | wdogExpire
  | probeArm
  | probeSession
  | probeStop
  | probeResult (output : List Byte)
  | leaseGrant (fn : Nat)
  | leaseTwin (fn : Nat)
  | leaseTake (fn : Nat)
  | leaseRead (fn : Nat)
  | grant (msg : List Byte)
  | renew (msg : List Byte)
  | final (msg : List Byte)
  | deny (msg : List Byte)
  | grantResend (key : DirKey)
  | renewTimer (key : DirKey)
  | leaseExpire (key : DirKey)
  | leaseReclaim (key : DirKey)
  | rebuildStart (fn : Nat)
  | rebuildAbort (fn : Nat)
  | rebuildImage (fn : Nat) (img : RbImage)
  -- reset, power states and start-up (spec/14)
  | service
  | drain
  | standby
  | standbyEnter
  | hold
  | reboot (rcv : Bool)
  | preset (part : Nat)
  | engineReset (fn : Nat) (v : Word)
  | functionLevelReset (fn : Nat)
  | lodgeReset (cause : LodgeCause)
  | perstRelease
  | vfEnable (numVfs : Nat) (enable : Bool)
  | powerTarget (v : Word)
  | dStateChange (d3hot : Bool)
  | powerStateChange
  | powerOnReset (env : BootEnv)
  | pwrGoodLow (ns : Nat)
  | recoveryCommit (v : Word)
  | recoveryWriteDone (ok : Bool)
  | tftpWrite (file : RcvFile) (data : List Byte)
  | tftpReboot
  | tftpRead
  | dhcpTimeout (port : Nat)
  | stagingWrite (recovery : Bool) (off : Nat) (data : List Byte)
  -- pins and physical limits (spec/15)
  | i3cSetdasa (addr : Nat)
  | i3cEnecDisec (enable : Bool)
  | i3cPrivateWrite (index : Nat)
  | i3cPrivateRead (len : Nat)
  | trayResetCommand (b : Byte)
  | trayResetWindowExpire
  | alertClear (b : Byte)
  | thermalDecision
  | pmbusScan (readings : List (Option (Nat × Nat)))
  | vrAlert (low : Bool)
  | avsNack (resendOk : Bool)
  | thermtrip
  | jtagInstruction (code : Nat)
  | pwThermWrite (v : Word)
  -- registers (spec/16) and the ends of resets
  | counterRead (fn bar off : Nat)
  | registerWrite (fn off : Nat) (v : Word)
  | lodgeLinkUp
  | partitionResetEnd (part : Nat)
  | engineResetEnd (part : Nat)
  | fireboxSaveDone
  | repairRecordWrite (ok : Bool)
  | dhcpReply (port : Nat) (ip : Word)
  deriving DecidableEq, Repr

end Sys2Proof
end

