-- ==== Sys2Proof/Machine/Table.lean ====
section
/-!
DEFINITION. Sparse tables in one canonical form: addresses strictly rising, and no entry equal to what an
unlisted address holds. The memory, the register file, the waymarks and every other numbered store of the node
are such tables, so equal contents are equal data.
-/

namespace Sys2Proof.Machine

variable {α : Type}

/-- What a table holds at `k`; an unlisted address holds `d k`. -/
def tget (d : Nat → α) : List (Nat × α) → Nat → α
  | [], k => d k
  | (k', v) :: t, k => if k' = k then v else tget d t k

/-- A table with every entry of address `k` taken out. -/
def terase (t : List (Nat × α)) (k : Nat) : List (Nat × α) := t.filter (fun e => e.1 != k)

/-- A table with `(k, v)` put before the first greater address. -/
def tinsert (k : Nat) (v : α) : List (Nat × α) → List (Nat × α)
  | [] => [(k, v)]
  | e :: t => if k < e.1 then (k, v) :: e :: t else e :: tinsert k v t

/-- Store `v` at `k`, keeping the canonical form: what an unlisted address holds is not listed. -/
def tput [DecidableEq α] (d : Nat → α) (t : List (Nat × α)) (k : Nat) (v : α) : List (Nat × α) :=
  if v = d k then terase t k else tinsert k v (terase t k)

/-- The addresses of a table rise strictly. -/
def tsorted : List (Nat × α) → Bool
  | [] => true
  | e :: t => (t.all fun e' => decide (e.1 < e'.1)) && tsorted t

/-- The canonical form of a table. -/
def twf [DecidableEq α] (d : Nat → α) (t : List (Nat × α)) : Bool :=
  tsorted t && t.all fun e => decide (e.2 ≠ d e.1)

/-- Keep the entries that satisfy `p`; the others fall back to what an unlisted address holds. -/
def tkeep (p : Nat → Bool) (t : List (Nat × α)) : List (Nat × α) := t.filter fun e => p e.1

end Sys2Proof.Machine
end

