-- ==== Sys2Proof/Machine/Fp.lean ====
section
/-!
DEFINITION. The number formats of the node and its arithmetic: exact dyadic sums, FP32 rounded to nearest with
ties to even and subnormals kept (R110, R148, R206, R209), the small element formats (R71, R205), and the fixed
base-2 exponential of the draught lanes (R150).
-/

namespace Sys2Proof.Machine

/-- An exact dyadic number `m * 2 ^ e`. -/
structure Dy where
  m : Int
  e : Int
  deriving DecidableEq, Repr

/-- The mantissa of a dyadic at a smaller exponent. -/
def Dy.at (a : Dy) (e : Int) : Int := a.m * 2 ^ (a.e - e).toNat

/-- Exact zero. -/
def Dy.zero : Dy := ⟨0, 0⟩

/-- Exact sum. -/
def Dy.add (a b : Dy) : Dy := let e := min a.e b.e; ⟨a.at e + b.at e, e⟩

/-- Exact product. -/
def Dy.mul (a b : Dy) : Dy := ⟨a.m * b.m, a.e + b.e⟩

/-- Exact negation. -/
def Dy.neg (a : Dy) : Dy := ⟨-a.m, a.e⟩

/-- Exact magnitude. -/
def Dy.abs (a : Dy) : Dy := ⟨a.m.natAbs, a.e⟩

/-- Exact comparison. -/
def Dy.le (a b : Dy) : Bool := let e := min a.e b.e; decide (a.at e ≤ b.at e)

/-- Exact sum of a list. -/
def Dy.sum (xs : List Dy) : Dy := xs.foldl Dy.add Dy.zero

/-- `2 ^ k`. -/
def Dy.pow2 (k : Int) : Dy := ⟨1, k⟩

/-- `m / 2 ^ sh` rounded to nearest, ties to even. -/
def rneShift (m sh : Nat) : Nat :=
  let q := m >>> sh
  let r := m % 2 ^ sh
  let h := 2 ^ sh / 2
  if sh = 0 then m
  else if r > h then q + 1
  else if r < h then q
  else if q % 2 = 0 then q else q + 1

/-- The magnitude code of `m * 2 ^ e` in a format of `mb` fraction bits whose smallest subnormal is `2 ^ emin`,
rounded to nearest with ties to even; the exponent field is not bounded above. -/
def roundMag (mb : Nat) (emin : Int) (m : Nat) (e : Int) : Nat :=
  if m = 0 then 0
  else
    let top : Int := e + (Nat.log2 m : Int)
    let qe := max (top - mb) emin
    let q := if qe ≤ e then m * 2 ^ (e - qe).toNat else rneShift m (qe - e).toNat
    (qe - emin).toNat * 2 ^ mb + q

/-- The exact value of a magnitude code. -/
def magValue (mb : Nat) (emin : Int) (code : Nat) : Nat × Int :=
  let ex := code >>> mb
  let fr := code % 2 ^ mb
  if ex = 0 then (fr, emin) else (2 ^ mb + fr, emin + ex - 1)

/-- A decoded FP32 value. -/
inductive Fx where
  | nan
  | inf (neg : Bool)
  | fin (neg : Bool) (m : Nat) (e : Int)
  deriving DecidableEq, Repr

/-- Decode FP32 bits. -/
def fx (w : Word) : Fx :=
  let neg := getB w 31
  let code := getF w 0 31
  if code > 0x7F800000 then .nan
  else if code = 0x7F800000 then .inf neg
  else let v := magValue 23 (-149) code; .fin neg v.1 v.2

/-- The FP32 bits of a sign and a magnitude code; a code past the largest finite value is infinity. -/
def fpack (neg : Bool) (code : Nat) : Word :=
  BitVec.ofNat 32 ((if neg then 0x80000000 else 0) + min code 0x7F800000)

/-- A quiet NaN; only its not being finite is ever used (R154, R176, R224). -/
def fnan : Word := 0x7FC00000#32

/-- `±(m * 2 ^ e)` rounded once to FP32. -/
def fround (neg : Bool) (m : Nat) (e : Int) : Word := fpack neg (roundMag 23 (-149) m e)

/-- An exact dyadic rounded once to FP32; zero is +0. -/
def froundDy (a : Dy) : Word := fround (decide (a.m < 0)) a.m.natAbs a.e

/-- The exact value of a finite FP32 word (0 for one that is not finite). -/
def fdy (w : Word) : Dy :=
  match fx w with
  | .fin neg m e => ⟨if neg then -(m : Int) else m, e⟩
  | _ => Dy.zero

/-- FP32 word is finite. -/
def ffinite (w : Word) : Bool := decide (getF w 0 31 < 0x7F800000)

/-- FP32 word is a finite, positive, normal value (R80, R140). -/
def fposNormal (w : Word) : Bool :=
  !getB w 31 && decide (0x800000 ≤ getF w 0 31) && ffinite w

/-- FP32 negation. -/
def fneg (w : Word) : Word := w ^^^ 0x80000000#32

/-- FP32 product. -/
def fmul (a b : Word) : Word :=
  match fx a, fx b with
  | .nan, _ | _, .nan => fnan
  | .inf s, .inf t => fpack (xor s t) 0x7F800000
  | .inf s, .fin t m _ | .fin t m _, .inf s => if m = 0 then fnan else fpack (xor s t) 0x7F800000
  | .fin s m e, .fin t n f => fround (xor s t) (m * n) (e + f)

/-- FP32 sum. -/
def fadd (a b : Word) : Word :=
  match fx a, fx b with
  | .nan, _ | _, .nan => fnan
  | .inf s, .inf t => if s = t then a else fnan
  | .inf _, .fin .. => a
  | .fin .., .inf _ => b
  | .fin s m _, .fin t n _ =>
    if m = 0 ∧ n = 0 then fpack (s && t) 0 else froundDy (Dy.add (fdy a) (fdy b))

/-- FP32 difference. -/
def fsub (a b : Word) : Word := fadd a (fneg b)

/-- FP32 quotient, correctly rounded (R209). -/
def fdiv (a b : Word) : Word :=
  match fx a, fx b with
  | .nan, _ | _, .nan => fnan
  | .inf _, .inf _ => fnan
  | .inf s, .fin t _ _ => fpack (xor s t) 0x7F800000
  | .fin s _ _, .inf t => fpack (xor s t) 0
  | .fin s m e, .fin t n f =>
    if n = 0 then (if m = 0 then fnan else fpack (xor s t) 0x7F800000)
    else
      let k := 32 + Nat.log2 n
      let q := (m * 2 ^ k) / n
      let st := if (m * 2 ^ k) % n = 0 then 0 else 1
      fround (xor s t) (2 * q + st) (e - f - k - 1)

/-- Integer square root by bits from `2 ^ (k - 1)` down. -/
def sqrtBits (n : Nat) : Nat → Nat → Nat
  | 0, r => r
  | k + 1, r => let r' := r + 2 ^ k; if r' * r' ≤ n then sqrtBits n k r' else sqrtBits n k r

/-- FP32 square root, correctly rounded (R209). -/
def fsqrt (a : Word) : Word :=
  match fx a with
  | .nan => fnan
  | .inf s => if s then fnan else a
  | .fin s m e =>
    if m = 0 then a
    else if s then fnan
    else
      let odd := decide (e % 2 ≠ 0)
      let m' := (if odd then 2 * m else m) * 2 ^ 60
      let e' := (if odd then e - 1 else e) - 60
      let r := sqrtBits m' 44 0
      let st := if r * r = m' then 0 else 1
      fround false (2 * r + st) (e' / 2 - 1)

/-- Order key of an FP32 value: +0 counts as greater than −0 (R148, R172). -/
def fkey (w : Word) : Int :=
  if getB w 31 then -(getF w 0 31 : Int) - 1 else getF w 0 31

/-- The greater of two FP32 values, the first on equality. -/
def fmax (a b : Word) : Word := if fkey b ≤ fkey a then a else b

/-- Pairwise reduction of R110 in `k` halvings. -/
def pairUp (f : Word → Word → Word) : List Word → List Word
  | a :: b :: t => f a b :: pairUp f t
  | l => l

/-- Pairwise FP32 reduction of `2 ^ k` values, `s[i] = s[2i] + s[2i+1]` (R110). -/
def treeSum : Nat → List Word → Word
  | 0, l => l.headD 0
  | k + 1, l => treeSum k (pairUp fadd l)

/-- The 64 constants of R150: `2 ^ (30 + i/64)` to the nearest integer. -/
def exp2Table : List Nat :=
  [1073741824, 1085434106, 1097253708, 1109202018, 1121280436, 1133490379, 1145833280, 1158310587] ++
  [1170923762, 1183674286, 1196563654, 1209593378, 1222764986, 1236080024, 1249540052, 1263146652] ++
  [1276901417, 1290805962, 1304861917, 1319070932, 1333434672, 1347954824, 1362633090, 1377471191] ++
  [1392470869, 1407633882, 1422962010, 1438457051, 1454120821, 1469955159, 1485961921, 1502142985] ++
  [1518500250, 1535035634, 1551751076, 1568648537, 1585730000, 1602997467, 1620452965, 1638098541] ++
  [1655936265, 1673968228, 1692196547, 1710623359, 1729250827, 1748081133, 1767116489, 1786359126] ++
  [1805811301, 1825475297, 1845353420, 1865448001, 1885761398, 1906295993, 1927054196, 1948038440] ++
  [1969251188, 1990694927, 2012372174, 2034285470, 2056437387, 2078830522, 2101467502, 2124350982]

/-- `exp2_fixed` of R150, for an FP32 argument at or below zero. -/
def exp2Fixed (y : Word) : Word :=
  match fx y with
  | .nan => fnan
  | .inf _ => 0
  | .fin neg m e =>
    if neg && !(Dy.le ⟨m, e⟩ ⟨24, 0⟩) then 0
    else
      let a := if 0 ≤ e + 24 then m * 2 ^ (e + 24).toNat else rneShift m (-(e + 24)).toNat
      let yy : Int := if neg then -(a : Int) else a
      let n := yy / 16777216
      let f := (yy - n * 16777216).toNat
      let i := f >>> 18
      let r := f % 0x40000
      let q := 2 ^ 30 + ((r * 744261118) >>> 24) + ((r * r * 257941248) >>> 48)
      let p := (exp2Table.getD i 0 * q) >>> 30
      fround false p (n - 30)

/-- FP8 E4M3 code of a non-negative FP32 value at most 256, to nearest with ties to even (R148). -/
def e4m3OfFp32 (w : Word) : Byte :=
  match fx w with
  | .fin _ m e => BitVec.ofNat 8 (min (roundMag 3 (-9) m e) 0x7E)
  | _ => 0

/-- A scaled element format: sign bit above `bits - 1` magnitude bits, `mb` of them fraction (R71, R205). -/
structure EFmt where
  bits : Nat
  mb : Nat
  emin : Int
  maxCode : Nat
  emax : Nat
  deriving DecidableEq, Repr

def fmtE2M1 : EFmt := ⟨4, 1, -1, 7, 2⟩
def fmtE2M3 : EFmt := ⟨6, 3, -3, 31, 2⟩
def fmtE3M2 : EFmt := ⟨6, 2, -4, 31, 4⟩
def fmtE4M3 : EFmt := ⟨8, 3, -9, 0x7E, 8⟩
def fmtE5M2 : EFmt := ⟨8, 2, -16, 0x7B, 15⟩
def fmtBF16 : EFmt := ⟨16, 7, -133, 0x7F7F, 127⟩

/-- The element code is finite: no code above the format's largest finite magnitude (R73). -/
def EFmt.finite (f : EFmt) (code : Nat) : Bool := decide (code % 2 ^ (f.bits - 1) ≤ f.maxCode)

/-- A signed value that keeps the sign of zero. -/
structure Sv where
  neg : Bool
  m : Nat
  e : Int
  deriving DecidableEq, Repr

/-- The exact number of a signed value. -/
def Sv.dy (a : Sv) : Dy := ⟨if a.neg then -(a.m : Int) else a.m, a.e⟩

/-- A signed value scaled by `2 ^ k`. -/
def Sv.scale (a : Sv) (k : Int) : Sv := { a with e := a.e + k }

/-- The product of two signed values, formed exactly and rounded once to FP32 (R110). -/
def Sv.prod (a b : Sv) : Word := fround (xor a.neg b.neg) (a.m * b.m) (a.e + b.e)

/-- A signed value rounded to FP32 (exact for every element without block scale). -/
def Sv.word (a : Sv) : Word := fround a.neg a.m a.e

/-- The value of an element code (R72). -/
def EFmt.value (f : EFmt) (code : Nat) : Sv :=
  let v := magValue f.mb f.emin (code % 2 ^ (f.bits - 1))
  ⟨decide (code / 2 ^ (f.bits - 1) % 2 = 1), v.1, v.2⟩

/-- Round an exact value to an element, to nearest with ties to even, saturating at the largest finite
value (R209). -/
def EFmt.encode (f : EFmt) (neg : Bool) (m : Nat) (e : Int) : Nat :=
  (if neg then 2 ^ (f.bits - 1) else 0) + min (roundMag f.mb f.emin m e) f.maxCode

/-- A BF16 sum of R79: exact, rounded once, never −0, saturated at the largest finite value. -/
def tallyBf16 (a : Dy) : Nat :=
  let c := min (roundMag 7 (-133) a.m.natAbs a.e) 0x7F7F
  if c = 0 then 0 else (if a.m < 0 then 0x8000 else 0) + c

/-- A stored tally is saturated (R79). -/
def tallySaturated (t : Nat) : Bool := t % 0x8000 == 0x7F7F

end Sys2Proof.Machine
end

