-- ==== Sys2Proof/Machine/Crc.lean ====
section
/-!
DEFINITION. The CRC-64 of R117: ECMA-182 polynomial, reflected, initial value and final xor all ones. It digests
embers (R179), kindling records (R239), ROW results (R117), lease messages (R377) and probe outputs (R371).
-/

namespace Sys2Proof.Machine

/-- The ECMA-182 polynomial 0x42F0_E1EB_A9EA_3693 with its bits reflected. -/
def crcPoly : Nat := 0xC96C5795D7870F42

/-- One reflected shift of the CRC register. -/
def crcBit (c : Nat) : Nat := if c % 2 = 1 then (c / 2) ^^^ crcPoly else c / 2

/-- One byte through the CRC register. -/
def crcByte (c : Nat) (b : Byte) : Nat :=
  let c0 := c ^^^ b.toNat
  crcBit (crcBit (crcBit (crcBit (crcBit (crcBit (crcBit (crcBit c0)))))))

/-- The CRC-64 of a byte string (R117). -/
def crc64 (bs : List Byte) : Nat := (bs.foldl crcByte 0xFFFFFFFFFFFFFFFF) ^^^ 0xFFFFFFFFFFFFFFFF

end Sys2Proof.Machine
end

