-- ==== Sys2Proof/Machine/Elem.lean ====
section
/-!
DEFINITION. Element formats and rows of pages and queries (R71, R72, R73, R109), the sizes of page slots (R75),
tallies (R77, R79) and the trailer (R76).
-/

namespace Sys2Proof.Machine

/-- The element format of a KV FORMAT code (R71). -/
def kvFmt (f : Nat) : EFmt :=
  if f = 0 then fmtE4M3 else if f = 1 then fmtE5M2 else if f = 2 then fmtE2M1 else fmtBF16

/-- The FORMAT code of the query vectors that go with a page FORMAT (R109). -/
def queryFmt (f : Nat) : Nat := if f = 1 then 0 else f

/-- Head dimension of a HEAD_DIM code (R71). -/
def headDim (h : Nat) : Nat := 64 * 2 ^ h

/-- Bytes of one row of head dimension `d` (R71). -/
def rowBytes (f d : Nat) : Nat := if f = 2 then d / 2 + d / 32 else if f = 3 then 2 * d else d

/-- Byte `i` of a row, zero past its end. -/
def byteAt (row : List Byte) (i : Nat) : Nat := (row.getD i 0).toNat

/-- Element code `j` of a row (R72). -/
def elemCode (f : Nat) (row : List Byte) (j : Nat) : Nat :=
  if f = 2 then (byteAt row (j / 2) / (if j % 2 = 0 then 1 else 16)) % 16
  else if f = 3 then byteAt row (2 * j) + 256 * byteAt row (2 * j + 1)
  else byteAt row j

/-- Element `j` of a row by R72, with its FP4 block scale, without page scale. -/
def elemValue (f d : Nat) (row : List Byte) (j : Nat) : Sv :=
  let v := (kvFmt f).value (elemCode f row j)
  if f = 2 then v.scale ((byteAt row (d / 2 + j / 32) : Int) - 127) else v

/-- The elements of a row. -/
def rowValues (f d : Nat) (row : List Byte) : List Sv := (List.range d).map (elemValue f d row)

/-- No element of a row is refused by R73. -/
def rowFinite (f d : Nat) (row : List Byte) : Bool :=
  (List.range d).all (fun j => (kvFmt f).finite (elemCode f row j)) &&
  (f != 2 || (List.range (d / 32)).all fun b => byteAt row (d / 2 + b) != 0xFF)

/-- Cut a byte string into `n` rows of `w` bytes. -/
def cutRows (w : Nat) : Nat → List Byte → List (List Byte)
  | 0, _ => []
  | n + 1, bs => bs.take w :: cutRows w n (bs.drop w)

/-- Tokens in a page of a class code (R69). -/
def classTokens (c : Nat) : Nat := 16 * 2 ^ c

/-- Data bytes of a raw page, padded to granules (R75). -/
def dataRaw (n w : Nat) : Nat := 256 * ceilDiv (2 * n * w) 256

/-- Tally bytes of a page (R75). -/
def tallyBytes (n d : Nat) : Nat := 2 * d + 2 * n

/-- Tally band of a page (R75). -/
def bandBytes (n d : Nat) : Nat := 256 * ceilDiv (tallyBytes n d - 480) 256

/-- Slot size of a raw page (R75). -/
def slotRaw (n d w : Nat) : Nat := dataRaw n w + bandBytes n d + 512

/-- K column sum `C_j` over the given K rows, as a BF16 code (R79). -/
def colSum (f d : Nat) (krows : List (List Byte)) (j : Nat) : Nat :=
  tallyBf16 (Dy.sum (krows.map fun r => (elemValue f d r j).dy))

/-- V row sum `S_t` of a V row, as a BF16 code (R79). -/
def rowSum (f d : Nat) (row : List Byte) : Nat := tallyBf16 (Dy.sum ((rowValues f d row).map Sv.dy))

/-- The tally string T of a page with the given VALID K and V rows (R77, R79): V rows at or above VALID
have sum +0. -/
def tallyString (f d n : Nat) (krows vrows : List (List Byte)) : List Byte :=
  ((List.range d).map (colSum f d krows) ++ vrows.map (rowSum f d) ++
    List.replicate (n - vrows.length) 0).flatMap (leBytes 2)

/-- What a trailer says of its page (R76). -/
structure Trailer where
  coded : Bool
  fmt : Nat
  dimCode : Nat
  cls : Nat
  kv : Nat
  layer : Nat
  gen : Nat
  seq : Nat
  firstPos : Nat
  valid : Nat
  dataGran : Nat
  kScale : Word
  vScale : Word
  deriving DecidableEq, Repr

/-- The first 32 bytes of a trailer (R76). -/
def Trailer.bytes (t : Trailer) : List Byte :=
  leBytes 1 0xC5 ++ leBytes 1 (if t.coded then 1 else 0) ++ leBytes 1 (t.fmt + 8 * t.dimCode) ++
  leBytes 1 t.cls ++ leBytes 1 t.kv ++ leBytes 1 t.layer ++ leBytes 2 t.gen ++ leBytes 8 t.seq ++
  leBytes 4 t.firstPos ++ leBytes 2 t.valid ++ leBytes 2 t.dataGran ++ leBytes 4 t.kScale.toNat ++
  leBytes 4 t.vScale.toNat

/-- Read a trailer's first 32 bytes; none when MAGIC is not 0xC5 (R76, R78). -/
def Trailer.parse (bs : List Byte) : Option Trailer :=
  if leAt bs 0 1 = 0xC5 then
    some { coded := leAt bs 1 1 % 2 == 1, fmt := leAt bs 2 1 % 8, dimCode := leAt bs 2 1 / 8 % 4,
           cls := leAt bs 3 1, kv := leAt bs 4 1, layer := leAt bs 5 1, gen := leAt bs 6 2,
           seq := leAt bs 8 8, firstPos := leAt bs 16 4, valid := leAt bs 20 2, dataGran := leAt bs 22 2,
           kScale := BitVec.ofNat 32 (leAt bs 24 4), vScale := BitVec.ofNat 32 (leAt bs 28 4) }
  else none

/-- The band and trailer bytes of a page: bytes 0 to 479 of T in the trailer, the rest in the band (R77). -/
def bandAndTrailer (t : Trailer) (n d : Nat) (ts : List Byte) : List Byte :=
  sliceB (ts.drop 480) 0 (bandBytes n d) ++ t.bytes ++ sliceB (ts.take 480) 0 480

/-- The data region of a raw page: K rows, then V rows, padded with zero (R74). -/
def dataRegion (n w : Nat) (krows vrows : List (List Byte)) : List Byte :=
  let pad (rs : List (List Byte)) := sliceB (rs.flatMap fun r => sliceB r 0 w) 0 (n * w)
  sliceB (pad krows ++ pad vrows) 0 (dataRaw n w)

end Sys2Proof.Machine
end

