-- ==== Sys2Proof/Machine/Cinder.lean ====
section
/-!
DEFINITION. The Cinder codec: canonical prefix codes (R99), built and fixed tables (R100, R101), the stream layout
(R98), coding and the decoder's rejections (R102).
-/

namespace Sys2Proof.Machine

/-- Occurrences of each byte value. -/
def byteCounts (bs : List Byte) : List Nat :=
  (List.range 256).map fun s => bs.countP fun b => b.toNat == s

/-- The first code length of a symbol: the smallest L of 1 to 15 with `count << L >= total`, or 15 (R100). -/
def firstLen (count total : Nat) : Nat :=
  if count = 0 then 0
  else ((List.range 15).map (· + 1)).find? (fun l => decide (total ≤ count * 2 ^ l)) |>.getD 15

/-- The Kraft sum of R100, in units of `2 ^ -15`. -/
def kraft (lens : List Nat) : Nat := (lens.map fun l => if l = 0 then 0 else 2 ^ (15 - l)).sum

/-- The symbol that R100 lengthens next: present, below length 15, smallest count, lowest number on ties. -/
def lengthenAt (counts lens : List Nat) : Option Nat :=
  (List.range 256).foldl (fun best s =>
    if lens.getD s 0 = 0 ∨ 15 ≤ lens.getD s 0 then best
    else match best with
      | none => some s
      | some b => if counts.getD s 0 < counts.getD b 0 then some s else best) none

/-- The loop of R100, until the Kraft sum fits. -/
def fitLens (counts : List Nat) : Nat → List Nat → List Nat
  | 0, lens => lens
  | k + 1, lens =>
    if kraft lens ≤ 32768 then lens
    else match lengthenAt counts lens with
      | none => lens
      | some s => fitLens counts k (lens.set s (lens.getD s 0 + 1))

/-- Code lengths of a built table (R100). -/
def builtLens (bs : List Byte) : List Nat :=
  let counts := byteCounts bs
  fitLens counts 4096 (counts.map fun c => firstLen c bs.length)

/-- FIXED_Z (R101). -/
def fixedZ : List Nat := [2] ++ List.replicate 0x81 8 ++ List.replicate 126 9

/-- The canonical codewords of a table as (symbol, length, code), by R99. -/
def codewords (lens : List Nat) : List (Nat × Nat × Nat) :=
  ((List.range 15).foldl (fun (acc : Nat × List (Nat × Nat × Nat)) l0 =>
    let l := l0 + 1
    let syms := (List.range 256).filter fun s => lens.getD s 0 = l
    let r := syms.foldl (fun (a : Nat × List (Nat × Nat × Nat)) s => (a.1 + 1, a.2 ++ [(s, l, a.1)])) acc
    (2 * r.1, r.2)) (0, [])).2

/-- The bits of a codeword, most significant first (R99). -/
def codeBits (len code : Nat) : List Bool := (List.range len).map fun i => code.testBit (len - 1 - i)

/-- Bits into bytes from bit 0 upward, the last byte padded with zero bits (R99). -/
def packBits : Nat → List Bool → List Byte
  | 0, _ => []
  | k + 1, bits =>
    if bits.isEmpty then []
    else BitVec.ofNat 8 (((bits.take 8).mapIdx fun i b => if b then 2 ^ i else 0).sum) :: packBits k (bits.drop 8)

/-- The bits of a byte string, bit 0 of each byte first. -/
def unpackBits (bs : List Byte) : List Bool := bs.flatMap fun b => (List.range 8).map fun i => b.getLsbD i

/-- One coded block, raw when coding does not shorten it (R102): its index entry and its bytes. -/
def codeBlock (cw : List (Nat × Nat × Nat)) (blk : List Byte) : Nat × List Byte :=
  let bits := blk.flatMap fun b =>
    match cw.find? (fun c => c.1 == b.toNat) with
    | some c => codeBits c.2.1 c.2.2
    | none => []
  let out := packBits blk.length bits
  if bits.length < 8 * blk.length ∧ ceilDiv bits.length 8 < blk.length then (out.length, out) else (0, blk)

/-- The 128 table bytes of a stream (R98). -/
def tableBytes (lens : List Nat) : List Byte :=
  (List.range 128).map fun i => BitVec.ofNat 8 (lens.getD (2 * i) 0 + 16 * lens.getD (2 * i + 1) 0)

/-- Code a byte string with given lengths into the body of a stream: index and blocks (R98). -/
def codeBody (lens : List Nat) (bs : List Byte) : List Byte :=
  let cw := codewords lens
  let blks := (cutRows 4096 (ceilDiv bs.length 4096) bs).map (codeBlock cw)
  let idx := blks.flatMap fun b => leBytes 2 b.1
  idx ++ List.replicate (8 * ceilDiv idx.length 8 - idx.length) 0 ++ blks.flatMap (·.2)

/-- A stream with a built table (R97, R98, R100). -/
def cinderBuilt (channel : Nat) (bs : List Byte) : List Byte :=
  let lens := builtLens bs
  leBytes 1 0xC1 ++ leBytes 1 channel ++ leBytes 1 0 ++ leBytes 1 0 ++ leBytes 4 (ceilDiv bs.length 4096) ++
  leBytes 8 bs.length ++ tableBytes lens ++ codeBody lens bs

/-- A stream with the table FIXED_Z (R101). -/
def cinderFixed (channel : Nat) (bs : List Byte) : List Byte :=
  leBytes 1 0xC1 ++ leBytes 1 channel ++ leBytes 1 1 ++ leBytes 1 0 ++ leBytes 4 (ceilDiv bs.length 4096) ++
  leBytes 8 bs.length ++ codeBody fixedZ bs

/-- Read one codeword, of at most `k` further bits; none when it is absent from the table. -/
def readCode (cw : List (Nat × Nat × Nat)) : Nat → Nat → Nat → List Bool → Option (Nat × List Bool)
  | 0, _, _, _ => none
  | _ + 1, _, _, [] => none
  | k + 1, len, code, b :: bits =>
    let code' := 2 * code + (if b then 1 else 0)
    match cw.find? (fun c => c.2.1 == len + 1 && c.2.2 == code') with
    | some c => some (c.1, bits)
    | none => readCode cw k (len + 1) code' bits

/-- Decode `n` symbols of a coded block. -/
def readCodes (cw : List (Nat × Nat × Nat)) : Nat → List Bool → Option (List Byte × List Bool)
  | 0, bits => some ([], bits)
  | n + 1, bits =>
    match readCode cw 15 0 0 bits with
    | none => none
    | some (s, rest) =>
      match readCodes cw n rest with
      | none => none
      | some (out, r) => some (BitVec.ofNat 8 s :: out, r)

/-- Decode a coded block to `n` bytes; rejected by R102 when a codeword is absent, the block is overrun, ends
before its last byte, or a padding bit is set. -/
def decodeBlock (cw : List (Nat × Nat × Nat)) (n : Nat) (blk : List Byte) : Option (List Byte) :=
  match readCodes cw n (unpackBits blk) with
  | some (out, rest) => if rest.length < 8 ∧ rest.all (! ·) then some out else none
  | none => none

/-- Decode the blocks of a stream in order. -/
def decodeBlocks (cw : List (Nat × Nat × Nat)) (noTable : Bool) :
    List Nat → Nat → List Byte → Option (List Byte)
  | [], len, _ => if len = 0 then some [] else none
  | e :: idx, len, bs =>
    let n := min 4096 len
    if noTable && e != 0 then none
    else
      let sz := if e = 0 then n else e
      if bs.length < sz ∨ 4096 ≤ e then none
      else
        match (if e = 0 then some (bs.take n) else decodeBlock cw n (bs.take sz)),
              decodeBlocks cw noTable idx (len - n) (bs.drop sz) with
        | some a, some b => some (a ++ b)
        | _, _ => none

/-- The TABLE codes a channel allows (R102). -/
def tableAllowed (channel table : Nat) : Bool :=
  if channel ≤ 1 then table == 0 || table == 3
  else if channel = 2 then table == 2 || table == 3
  else channel ≤ 4 && (table == 1 || table == 3)

/-- Decode a stream (R98, R102). `hdr` is the table an image header carries (channel 2). -/
def cinderDecode (hdr : List Nat) (bs : List Byte) : Option (List Byte) :=
  let channel := leAt bs 1 1
  let table := leAt bs 2 1
  let blocks := leAt bs 4 4
  let len := leAt bs 8 8
  if leAt bs 0 1 ≠ 0xC1 ∨ leAt bs 3 1 ≠ 0 ∨ channel > 4 ∨ !tableAllowed channel table ∨ bs.length < 16 ∨
      blocks ≠ ceilDiv len 4096 then none
  else
    let rest := bs.drop 16
    let lens :=
      if table = 0 then (rest.take 128).flatMap fun b => [b.toNat % 16, b.toNat / 16]
      else if table = 1 then fixedZ else if table = 2 then hdr else []
    let rest := if table = 0 then rest.drop 128 else rest
    let ilen := 8 * ceilDiv (2 * blocks) 8
    let idx := (List.range blocks).map fun i => leAt rest (2 * i) 2
    if rest.length < ilen then none
    else decodeBlocks (codewords lens) (table == 3) idx len (rest.drop ilen)

end Sys2Proof.Machine
end

