-- ==== Sys2Proof/Config.lean ====
section
/-!
DEFINITION. What the manual leaves open or names without defining: the free values, and the cryptographic
functions of the standards the manual cites. All are opaque, so a claim holds whatever they are. This file also
holds the fixed numbers of the node (R3).
-/

namespace Sys2Proof

/-- A fresh value that nothing constrains, of `w` bits; `State.draws` says which one a step reads (log entry 1). -/
opaque Config.freeValue (w : Nat) : Nat → BitVec w

/-- The merge order that the node chooses with REPRO at 0 (R159): a sort key of a span, for a draw (log entry 1). -/
opaque Config.mergeKey : Nat → Nat → Nat

/-- The 32 bytes that the Custody die reconstructs from the PUF of this device, the same at every boot (R336; log entry 9). -/
opaque Config.pufSeed : BitVec 256

/-- SHA-512, by NIST FIPS 180-4, which the manual cites (log entry 9). -/
opaque Config.sha512 : List Byte → List Byte

/-- Ed25519 verification of RFC 8032: public key, message, signature (log entry 9). -/
opaque Config.edVerify : List Byte → List Byte → List Byte → Bool

/-- Ed25519 signature of RFC 8032: private seed, message (log entry 9). -/
opaque Config.edSign : List Byte → List Byte → List Byte

/-- The Ed25519 public key of a private seed (log entry 9). -/
opaque Config.edPublic : List Byte → List Byte

/-- X25519 of RFC 7748: private key, public key (log entry 9). -/
opaque Config.x25519 : List Byte → List Byte → List Byte

/-- The X25519 public key of a private key (log entry 9). -/
opaque Config.x25519Public : List Byte → List Byte

/-- AES-256-GCM decryption of NIST SP 800-38D: key, IV, associated data, ciphertext, tag; none when the tag
fails (log entry 9). -/
opaque Config.gcmOpen : List Byte → List Byte → List Byte → List Byte → List Byte → Option (List Byte)

/-- The Ed25519 public key of the Tvedvan firmware key, in the Custody ROM (R407; log entry 9). -/
opaque Config.firmwareKey : List Byte

/-- Bytes of firebox, native hot tier and warm tier are addressed below this bound (R41). -/
def Config.addrLimit : Nat := 2 ^ 48

end Sys2Proof
end

