-- ==== Sys2Proof/Machine/Types1.lean ====
section
/-!
DEFINITION. State of the fabric-time unit, the memory tiers, pages and sequences, the command rings and the
waymarks (spec/01, 02, 03, 08, 09).
-/

namespace Sys2Proof.Machine

/-- A complement-paired record (R63). -/
structure Pair (n : Nat) where
  val : BitVec n
  cmp : BitVec n
  deriving DecidableEq, Repr

/-- A complement pair that the node keeps in two copies (R364). -/
structure Twin (n : Nat) where
  a : Pair n
  b : Pair n
  deriving DecidableEq, Repr

/-- One row of the candidate table (R12). -/
structure Cand where
  src : Nat
  prio : Nat
  ms : Nat
  deriving DecidableEq, Repr

/-- The fabric-time unit beyond its registers (R7 to R31). -/
structure Ft where
  /-- Fabric time (R7). -/
  now : BitVec 64
  /-- Bits [63:32] latched by a read of FT_NOW_LO (R39). -/
  latch : Word
  /-- The trim that acts on the pilot, in ppb; FT_TRIM holds the one computed last (R15, R17). -/
  actTrim : Int
  /-- pending_slew in force in this milestone (R18). -/
  slew : Int
  /-- pending_slew that takes effect at the next boundary (R17). -/
  nextSlew : Option Int
  /-- The selected source (R13). -/
  selected : Option Nat
  /-- Last accepted SEQ of the selected source (R11). -/
  lastSeq : Option Nat
  /-- The candidate table (R12). -/
  cands : List Cand
  /-- Consecutive accepted beacons with an offset of at most 50 ns, for LOCKED (R19). -/
  goodRun : Nat
  /-- Such beacons since the node became Adrift (R23). -/
  driftRun : Nat
  /-- A stall holds the count (R26). -/
  stalled : Bool
  /-- The selected reference holds the pilot (R15, R16). -/
  refHeld : Bool
  /-- Milestone in which the count was last omitted or repeated (R18). -/
  slewedAt : Option Nat
  deriving DecidableEq, Repr

/-- A 64-byte image that a host read may still return for a granule, until a FLUSH covers the write that
replaced it (R136, R268). -/
structure Stale where
  addr : Nat
  /-- Written by a HAUL, whose 256-byte granule is one image (R62). -/
  wide : Bool
  image : List Byte
  part : Nat
  /-- The command that wrote. -/
  cmd : Nat
  /-- Order of its completion among postings, once posted. -/
  posted : Option Nat
  deriving DecidableEq, Repr

/-- Latent state of a unit of coded storage: a 32-byte sector, or a 64-bit word of SRAM (R126, R128, R361). -/
inductive Ecc where
  | clean
  | correctable
  | awaiting
  | uncorrectable
  deriving DecidableEq, Repr

/-- What a page slot is to its owner (R228). -/
inductive SlotUse where
  /-- The page's placement record points here. -/
  | live
  /-- Old slot of a recoded page, not yet freed (R103). -/
  | old
  /-- Written by the executing KINDLE of that command, unpublished (R222). -/
  | kindle (cmd : Nat)
  /-- Of a condemned unit, not yet freed (R232). -/
  | condemned
  deriving DecidableEq, Repr

/-- An allocated page slot (R74, R228). `addr` is the slot's first byte in the layout of its arena. -/
structure Slot where
  part : Nat
  seq : Nat
  layer : Nat
  kv : Nat
  firstPos : Nat
  addr : Nat
  size : Nat
  obj : Nat
  use : SlotUse
  /-- Milestone at which a live page became full, while it may still be coded, or at which the slot was replaced or
  condemned (R103, R232). -/
  full : Option Nat
  deriving DecidableEq, Repr

/-- A directory entry with its ownership record, both pairs in two copies (R81, R364, R376), the spans it records
as dropped (R459) and the milestones of its lease traffic (R378, R379). -/
structure Dir where
  key : DirKey
  a : Pair 256
  b : Pair 256
  oa : Pair 128
  ob : Pair 128
  dropped : List Nat
  /-- The CLOSE that waits for the entry to be freed (R84). -/
  closer : Option Nat
  /-- Milestone of the last GRANT or RENEW sent (R378, R379). -/
  sentAt : Nat
  /-- FINAL has been received: no more RENEW (R379). -/
  final : Bool
  /-- The twin named for the key, with its connection (R383). -/
  twin : Option Nat
  deriving DecidableEq, Repr

/-- A relocation of a page slot under way on a column (R229): it moves from `src` to `dst`, and its first `done` bytes
stand at `dst`, each burst moving at most 8 rows (R107). -/
structure Move where
  col : Nat
  src : Nat
  dst : Nat
  done : Nat
  deriving DecidableEq, Repr

/-- Heat of a drop unit (R234) and the milestone of its last publication by R244 (R245). -/
structure Heat where
  part : Nat
  seq : Nat
  span : Nat
  h : Nat
  l : Nat
  published : Option Nat
  deriving DecidableEq, Repr

/-- A directory lookup in progress (R104). -/
structure Lookup where
  key : DirKey
  deriving DecidableEq, Repr

/-- Phase of a taken descriptor in R252. -/
inductive Phase where
  /-- Step 1: waits for the descriptor before it, whose LINK is set. -/
  | linked (pred : Nat)
  /-- Step 2: waits on its waymark. -/
  | waiting
  /-- Left step 2; the engine has not begun its body. -/
  | ready
  /-- Step 3. -/
  | running
  /-- The body has ended; steps 4 to 7 remain. -/
  | ended
  deriving DecidableEq, Repr

/-- A taken command (R252) with what its completion record will hold (R262). -/
structure Cmd where
  id : Nat
  q : Queue
  index : BitVec 32
  /-- Message number of a remote command, and the generation of its connection. -/
  msg : Nat
  gen : Nat
  part : Nat
  eng : Nat
  desc : BitVec 512
  payload : List Byte
  phase : Phase
  status : Nat
  result : Word
  detail : BitVec 64
  linkAbort : Bool
  poisoned : Bool
  waited : Bool
  /-- Performs its FLUSH and SIGNAL; false for a header that fails R251. -/
  fences : Bool
  /-- The life or power state asked for when it was taken refuses it (R392). -/
  refused : Bool
  /-- Its completion record is discarded (R396, R397). -/
  discard : Bool
  /-- Milestone at which its WAIT began (R266). -/
  waitFrom : Nat
  /-- Records posted before it started, in the order of `State.posted` (R268). -/
  started : Nat
  deriving DecidableEq, Repr

/-- State of a ring pair (R256). -/
inductive RingState where
  | disabled
  | active
  | draining
  | stopped
  deriving DecidableEq, Repr

/-- A ring pair and its four indexes (R254, R256). -/
structure Ring where
  st : RingState
  subHead : BitVec 32
  subTail : BitVec 32
  cplHead : BitVec 32
  cplTail : BitVec 32
  deriving DecidableEq, Repr

/-- The LINK that the last descriptor of a queue carries (R269): the descriptor, and how it ended. -/
structure Link where
  pred : Nat
  /-- `some true` when it ended without success. -/
  failed : Option Bool
  deriving DecidableEq, Repr

/-- A descriptor that waits in an inbound queue (R260). -/
structure InDesc where
  conn : Nat
  eng : Nat
  msg : Nat
  pos : Nat
  part : Nat
  /-- The last descriptor of its message (R251). -/
  last : Bool
  desc : BitVec 512
  payload : List Byte
  deriving DecidableEq, Repr

/-- An APPEND between its taking and step 1 of R91 that waits (R90). -/
structure Hold where
  cmd : Nat
  key : DirKey
  pos : Nat
  /-- Milestone of its arrival at the engine. -/
  arrived : Nat
  /-- Waits in the hold queue; otherwise for slots of condemned units (R236). -/
  queued : Bool
  /-- The units condemned for it, by sequence and span (R236). -/
  units : List (Nat × Nat)
  /-- Positions were compared with the stored rows and found equal (REPLAY of R95). -/
  replay : Bool
  /-- Waited in the hold queue at some time (HELD of R95). -/
  held : Bool
  /-- Its checks have not begun: it waits behind an earlier APPEND of the key (R90). -/
  behind : Bool
  deriving DecidableEq, Repr

/-- A READ_REQ or WRITE message of a HAUL that is in flight (R314): where its bytes lie in the HAUL, and what has come of
the answer, by offset. -/
structure HaulMsg where
  conn : Nat
  msg : Nat
  off : Nat
  len : Nat
  parts : List (Nat × List Byte)
  deriving DecidableEq, Repr

/-- A running HAUL (R57 to R62): the object descriptors, the far entries (by window) and base_free that it read at
dispatch, and how far it has come. -/
structure Haul where
  cmd : Nat
  src : BitVec 256
  dst : BitVec 256
  srcFar : List (Nat × BitVec 128)
  dstFar : List (Nat × BitVec 128)
  tile : Bool
  tileBytes : Nat
  /-- Bytes whose copy has started, and bytes written. -/
  started : Nat
  moved : Nat
  tiles : Nat
  baseFree : Nat
  reads : List HaulMsg
  writes : List HaulMsg
  deriving DecidableEq, Repr

/-- A ROW on the columns (R117, R119): the rows still to write, ascending. -/
structure RowJob where
  cmd : Nat
  left : List Nat
  written : Nat
  chimney : Bool
  /-- A source row met an uncorrectable error. -/
  failed : Bool
  deriving DecidableEq, Repr

end Sys2Proof.Machine
end

