-- ==== Sys2Proof/Machine/Types2.lean ====
section
/-!
DEFINITION. State of the engines: ATTEND requests and their span-jobs, embers sent and received, MERGEs, model
images and KINDLEs, row operations, scrubbing (spec/04, 05, 06, 07).
-/

namespace Sys2Proof.Machine

/-- What ends one execution of a span-job before its checks have all passed (R154, R155, R156). -/
inductive JobEvent where
  | checkFails
  | saturated
  | nonfinite
  | uncorrectable
  deriving DecidableEq, Repr

/-- The outcome of the arithmetic of one execution (R148): the span partial, and the first event met with the
pass in which it is met. -/
structure JobRes where
  heads : List Head
  event : Option (JobEvent × CheckStage)
  deriving DecidableEq, Repr

/-- Phase of a span-job. -/
inductive JobPhase where
  | planned
  | running
  /-- Ended; its partial stands. -/
  | done
  /-- Its re-run failed (R155). -/
  | damaged
  /-- Ended the request without a partial. -/
  | dead
  deriving DecidableEq, Repr

/-- One span-job (R114, R143). -/
structure Job where
  span : Nat
  col : Nat
  /-- The page slots that it reads, as placed when it was dispatched (R147, R232). -/
  pages : List Slot
  /-- Planned end, in FCLK from nanosecond 0 of the stride's milestone (R145). -/
  planEnd : Nat
  phase : JobPhase
  res : JobRes
  scoreOk : Bool
  valueOk : Bool
  weightOk : Bool
  rerun : Bool
  /-- Executions wait until this milestone after an overrun (R146). -/
  notBefore : Nat
  /-- It ran past its planned end (R146). -/
  overrun : Bool
  deriving DecidableEq, Repr

/-- One ember that a request owes (R158, R159, R163): its block, its spans, its number and its reservation. -/
structure Blk where
  level : Nat
  first : Nat
  spans : List Nat
  num : Nat
  slot : Nat
  units : Nat
  sent : Bool
  deriving DecidableEq, Repr

/-- An ATTEND in flight (R141). -/
structure Req where
  /-- Number of its command, or a number of its own for an internal request of a KINDLE. -/
  id : Nat
  /-- The KINDLE that issued it (R221). -/
  kindle : Option Nat
  part : Nat
  seq : Nat
  layer : Nat
  kv : Nat
  g : Nat
  fmt : Nat
  posFirst : Nat
  posLast : Nat
  scale : Word
  queries : List (List Byte)
  tag : BitVec 64
  repro : Bool
  isSealed : Bool
  /-- A local request of a KINDLE (R221): its partials are taken without embers. -/
  bare : Bool
  /-- Connection over which embers leave; none for embers into the node's own buffer. -/
  conn : Option Nat
  /-- The destination cannot be reached (no OPEN connection). -/
  unreachable : Bool
  /-- Milestone of its stride, once dispatched. -/
  stride : Option Nat
  accepted : Nat
  deferred : Bool
  retried : Bool
  tailExcluded : Bool
  missingAny : Bool
  snapshot : Nat
  extFirst : Nat
  extLast : Nat
  jobs : List Job
  missing : List Nat
  blks : List Blk
  emitted : Nat
  /-- Order number of R166 of the outcome so far; 8 = OK. -/
  outcome : Nat
  deriving DecidableEq, Repr

/-- An ember sent, until its verdict is sent (R187). -/
structure Sent where
  id : Nat
  req : Nat
  part : Nat
  conn : Option Nat
  hdr : Pair 256
  spans : List Nat
  early : Bool
  /-- Number of its message on the connection. -/
  msg : Nat
  /-- Milestone in which its last byte left (R31). -/
  left : Nat
  verdict : Option Nat
  deriving DecidableEq, Repr

/-- A reservation of the ember buffer in use: an ember, its verdict, or both (R180 to R191). -/
structure Recv where
  /-- EMBER_ID. -/
  id : Nat
  conn : Option Nat
  tenant : Nat
  slot : Nat
  units : Nat
  hdr : Option (Pair 256)
  body : List Byte
  arrived : Nat
  /-- Verdict kept: 1 SEAL, 2 RECALL, with its DIGEST (R189). -/
  verdict : Option (Nat × Nat)
  /-- Treated as recalled (R185, R189, R190). -/
  recalled : Bool
  /-- The MERGE that took it. -/
  merge : Option Nat
  /-- Discarded; an early ember's reservation waits for its verdict (R182). -/
  discarded : Bool
  deriving DecidableEq, Repr

/-- A value present at a node of the canonical tree (R157, R200). -/
structure TreeVal where
  level : Nat
  first : Nat
  heads : List Head
  deriving DecidableEq, Repr

/-- A MERGE in flight (R195 to R202). -/
structure Merge where
  id : Nat
  kindle : Option Nat
  part : Nat
  repro : Bool
  g : Nat
  fmt : Nat
  sources : Nat
  wait : Nat
  posFirst : Nat
  posLast : Nat
  conn : Option Nat
  unreachable : Bool
  resAddr : Nat
  /-- The result goes to RES_ADDR in the node's own memory (R194). -/
  toHost : Bool
  tag : BitVec 64
  /-- Milestone of acceptance; none while deferred by check 8 of R195. -/
  accepted : Option Nat
  num : Nat
  slot : Nat
  units : Nat
  /-- Accepted embers, in order of arrival (EMBER_IDs). -/
  inputs : List Nat
  values : List TreeVal
  missing : List (Nat × Nat)
  dedup : Bool
  retried : Bool
  /-- Order number of R201 decided before the inputs were complete; 8 = none. -/
  outcome : Nat
  deriving DecidableEq, Repr

/-- A bound model image (R214): its slot, its object and the header kept in the reserved firebox. -/
structure Image where
  part : Nat
  slot : Nat
  obj : Nat
  /-- The UNBINDs that wait for it. -/
  unbinders : List Nat
  hdr : List Byte
  deriving DecidableEq, Repr

/-- Where a KINDLE stands in R220. -/
inductive KStage where
  | k | v | q | attention | o | g | u | d
  /-- Every page of every layer is written. -/
  | written
  deriving DecidableEq, Repr

/-- An internal request of a KINDLE in flight or to be issued (R221). -/
structure Internal where
  /-- Count of R221: bits [19:0] of its REQ_TAG. -/
  count : Nat
  /-- Identity of its `Req` (local) or `Merge` (remote). -/
  req : Nat
  remote : Bool
  kv : Nat
  /-- First row and number of rows of the token group. -/
  row : Nat
  rows : Nat
  resent : Bool
  first : Nat
  /-- The command messages that carry it: connection and message number (R312). -/
  msgs : List (Nat × Nat)
  deriving DecidableEq, Repr

/-- A KINDLE that executes, or waits for one before it (R218 to R226). -/
structure Kindle where
  cmd : Nat
  part : Nat
  seq : Nat
  slot : Nat
  first : Nat
  count : Nat
  /-- B: the spans it rekindles. -/
  spans : List Nat
  /-- Layers in which each span of B is dropped. -/
  layersOf : List (Nat × List Nat)
  ctx : List (Nat × Nat × Nat)
  tokens : List Nat
  /-- The descriptor of its work object, as read at dispatch (R56). -/
  work : BitVec 256
  tagBase : Nat
  /-- The KINDLE it joins (R218). -/
  joins : Option Nat
  executing : Bool
  layer : Nat
  stage : KStage
  /-- Operation number within the current array() call, and rows of X already streamed. -/
  tile : Nat
  rowDone : Nat
  x : List (List Word)
  a : List (List Word)
  kOut : List (List Word)
  qOut : List (List Word)
  gOut : List (List Word)
  /-- Accumulated output rows of the current array() call. -/
  y : List (List Word)
  /-- Attention groups still to issue: (KV head, first row, rows). -/
  todo : List (Nat × Nat × Nat)
  internals : List Internal
  counter : Nat
  /-- Partials gathered, by (KV head, row): tree values. -/
  gathered : List (Nat × Nat × List TreeVal)
  /-- Waits for slots of condemned units, those of the units named (R236). -/
  waitsSlots : Bool
  waitUnits : List (Nat × Nat)
  resent : Bool
  published : Nat
  deriving DecidableEq, Repr

/-- What a job context of column scratch holds (R114): the span-job loaded there, and its regions. -/
structure JobCtx where
  job : Option (Nat × Nat)
  vectors : List (List Byte)
  scores : List (List Word)
  probs : List (List Byte)
  accs : List (List Word)
  vSums : List Int
  decoded : List Byte
  deriving DecidableEq, Repr

/-- The scratch of a column (R114): two job contexts, ROW staging and the check region. -/
structure Scratch where
  ctx0 : JobCtx
  ctx1 : JobCtx
  staging : List Byte
  check : List Int
  deriving DecidableEq, Repr

/-- Turns of the bursts of a column (R133): host requests served since its last burst, and ATTEND bursts run since its
last ROW burst while ROW work waited. -/
structure Arb where
  host : Nat
  run : Nat
  deriving DecidableEq, Repr

/-- Progress of scrubbing in a column (R369): the next row, a pair of R367, and bursts left in the open slot. -/
structure Scrub where
  row : Pair 64
  left : Nat
  deriving DecidableEq, Repr

end Sys2Proof.Machine
end

