-- ==== Sys2Proof/Machine/Types3.lean ====
section
/-!
DEFINITION. State of partitions and the charter, of faults and resilience, and of life, power and start-up
(spec/12, 13, 14).
-/

namespace Sys2Proof.Machine

/-- Life state (R391), in the order of the LIFE code of R347. -/
inductive Life where
  | boot
  | recovery
  | standby
  | service
  | drain
  | held
  deriving DecidableEq, Repr

/-- Power state (R401). -/
inductive Power where
  | lit
  | damped
  | banked
  | off
  deriving DecidableEq, Repr

/-- Partition state (R349). -/
inductive PartState where
  | unused
  | active
  | releasing
  | released
  | faulted
  deriving DecidableEq, Repr

/-- An attestation in progress (R347): whether GO was accepted, its scope and partition. -/
structure Attest where
  fn : Nat
  scope : Nat
  part : Nat
  deriving DecidableEq, Repr

/-- Usage of a partition since it last became ACTIVE (`array` in HCLK), and its last snapshot (R353). -/
structure Meter where
  spanJobs : Nat
  array : Nat
  txBytes : Nat
  snap : List Byte
  deriving DecidableEq, Repr

/-- Steps of a release (R350). -/
inductive ReleaseStep where
  /-- RELEASE was written during a partition reset. -/
  | delayed
  /-- Steps 1 and 2 done. -/
  | draining
  /-- Steps 3 and 4 done. -/
  | scrubbed
  deriving DecidableEq, Repr

/-- A probe record on one unit (R371): the record, the kind of unit and its number; `second` marks the second run of
R374, a pair of R367. -/
structure ProbeRun where
  record : Nat
  unit : Nat
  index : Nat
  second : Pair 8
  deriving DecidableEq, Repr

/-- The armed probe pack (R371 to R375): the next record to start, the runs that wait for a slot that can take them, and
those that run. -/
structure Probe where
  pack : List Byte
  session : Bool
  next : Nat
  due : List ProbeRun
  running : List ProbeRun
  deriving DecidableEq, Repr

/-- State of a rebuild, of one partition (R385 to R388): `mode` 0 idle, 1 sending, 2 receiving, 3 ended. -/
structure Rebuild where
  mode : Nat
  done : Bool
  unitFail : Bool
  units : Nat
  seq : Nat
  /-- Units still to be sent, or still awaiting copy. -/
  left : List Nat
  /-- Units requested once more (R387); of a sender, the unit that is being sent. -/
  again : List Nat
  /-- P_l of each layer (R385). -/
  limits : List (Nat × Nat)
  conn : Option Nat
  deriving DecidableEq, Repr

/-- An APPEND forwarded to a twin, whose completion waits for the twin's (R384). -/
structure Forward where
  cmd : Nat
  key : DirKey
  conn : Nat
  msg : Nat
  deriving DecidableEq, Repr

/-- A complement fault awaiting its re-read (R366). -/
structure Suspect where
  what : RecRef
  /-- Fabric time of the fault, ns. -/
  at_ : Nat
  deriving DecidableEq, Repr

/-- A valid copy of the repair record (R406): its sequence number, the row remaps and the fence list. -/
structure RepairCopy where
  number : Nat
  remaps : List Nat
  fences : List Nat
  deriving DecidableEq, Repr

/-- SPI NOR contents (R406): the firmware and charter files, and the repair record copies. -/
structure Flash where
  firmware : List Byte
  charter : Option (List Byte)
  /-- Copies A and B of the repair record; none for one that is not valid. -/
  copyA : Option RepairCopy
  copyB : Option RepairCopy
  deriving DecidableEq, Repr

/-- The Lodge die and the functions (R396, R402, R439). -/
structure Lodge where
  linkUp : Bool
  perst : Bool
  numVfs : Nat
  vfEnable : Bool
  d3hot : Bool
  deriving DecidableEq, Repr

/-- Addresses and the DHCP state of a management port (R410). -/
structure Mgmt where
  ip : Option Word
  dhcpWait : Bool
  deriving DecidableEq, Repr

/-- The tray interface (R422, R423). -/
structure I3c where
  addr : Option Nat
  ibi : Bool
  index : Nat
  /-- 0xA5 was written to index 0x10 (R423). -/
  armed : Bool
  deriving DecidableEq, Repr

/-- Thermal and power control (R432): the maxima of the window, in tenths of a degree, the index each input asks
for, and the operating point chosen for the next change. -/
structure Therm where
  maxLogic : Nat
  maxDram : Nat
  idxLogic : Nat
  idxDram : Nat
  idxPower : Nat
  chosen : Nat
  /-- Milestone of the last decision. -/
  decidedAt : Option Nat
  /-- The DRAM is refreshed at twice the nominal rate (R431). -/
  refresh2 : Bool
  deriving DecidableEq, Repr

/-- Voltage control of the VID rails (R428): the operating point whose voltages are commanded, the AVSBus failure
that holds operating point 3, and the level of VR_ALERT_N. -/
structure Volt where
  point : Nat
  hold3 : Bool
  /-- VR_ALERT_N is low. -/
  vrLow : Bool
  deriving DecidableEq, Repr

/-- A partition or engine reset in progress (R365, R398): its milestone and the engines. -/
structure Reset where
  part : Nat
  engines : List Nat
  from_ : Nat
  deriving DecidableEq, Repr

end Sys2Proof.Machine
end

