-- ==== Sys2Proof/Machine/Types4.lean ====
section
/-!
DEFINITION. State of the road ports and of ORT (spec/10), of the shapers (spec/11), and the log of what the node
emits.
-/

namespace Sys2Proof.Machine

/-- State of a connection entry (R292). -/
inductive ConnSt where
  | idle
  | listen
  | connecting
  | opened
  | closing
  | failed
  deriving DecidableEq, Repr

/-- Live state of one path (R298, R299, R306). -/
structure PathSt where
  up : Bool
  /-- W_p, in bytes. -/
  win : Nat
  inflight : Nat
  /-- Losses by timeout since the last acknowledgement of the path's packets. -/
  timeouts : Nat
  /-- PROBEs unanswered. -/
  probes : Nat
  /-- Milestone of the last numbered packet. -/
  usedAt : Nat
  probedAt : Nat
  /-- Milestone of the last decrease (R298). -/
  cutAt : Option Nat
  deriving DecidableEq, Repr

/-- What a message or packet that the node sends belongs to. -/
inductive Owner where
  | nobody
  | haul (cmd : Nat)
  | ember (id : Nat)
  | record (cmd : Nat)
  | forward (cmd : Nat)
  | rebuild (part : Nat)
  | kindle (cmd : Nat)
  deriving DecidableEq, Repr

/-- A message that the node sends (R297): its bytes and how far they have been cut into packets. TC1 and TC3
messages share one numbering, TC2 messages have their own. -/
structure TxMsg where
  num : Nat
  op : Nat
  tc : Nat
  waykey : Nat
  /-- Offset of byte 0 at the target. -/
  base : Nat
  /-- MSG_LEN; READ_LEN for a READ_REQ stands in `ext`. -/
  len : Nat
  ext : List Byte
  data : List Byte
  cut : Nat
  owner : Owner
  failed : Bool
  /-- Its staging units and descriptors are charged. -/
  charged : Bool
  /-- The path that it must take: PROBE, PROBE_ACK and CONNECT. -/
  via : Option Nat
  /-- Fabric time at which its next packet became ready (R332). -/
  ready : Nat
  deriving DecidableEq, Repr

/-- A numbered packet that is not yet acknowledged (R305). -/
structure TxPkt where
  psn : Nat
  op : Nat
  tc : Nat
  msg : Nat
  msgLen : Nat
  waykey : Nat
  offset : Nat
  ext : List Byte
  data : List Byte
  path : Nat
  /-- Fabric time of this transmission, ns. -/
  sentAt : Nat
  /-- Order of this transmission among those of the connection. -/
  order : Nat
  retx : Nat
  /-- Milestones from `sentAt` after which it is lost. -/
  rto : Nat
  /-- Declared lost and waiting to be resent. -/
  lost : Bool
  /-- Packets sent after it on its path and acknowledged before it (R305). -/
  passed : Nat
  ready : Nat
  deriving DecidableEq, Repr

/-- A message that arrives (R302). -/
structure RxMsg where
  num : Nat
  op : Nat
  tc : Nat
  len : Nat
  waykey : Nat
  ext : List Byte
  /-- Bytes placed so far, by packet: offset and bytes. -/
  parts : List (Nat × List Byte)
  failed : Bool
  /-- Number under which its writes count for FLUSH (R302). -/
  cmd : Nat
  /-- PSN of the packet of it with the lowest offset placed so far. -/
  psn : Nat
  deriving DecidableEq, Repr

/-- A packet past the tollgate that is not yet placed (R301). -/
structure Placing where
  psn : Nat
  op : Nat
  msg : Nat
  msgLen : Nat
  waykey : Nat
  offset : Nat
  ext : List Byte
  data : List Byte
  deriving DecidableEq, Repr

/-- A connection entry with its paths and its live state (R290 to R306). -/
structure Conn where
  owner : Option Nat
  entry : List Byte
  paths : List (List Byte)
  gen : Nat
  st : ConnSt
  reason : Nat
  /-- Milestone of entry to the state. -/
  since : Nat
  attempts : Nat
  /-- The other end: its connection ID, its node, and what it grants. -/
  peerConn : Nat
  peerNode : Nat
  pcode : Nat
  peerEmberBase : Nat
  peerEmberUnits : Nat
  peerTc1 : Nat
  peerTc3 : Nat
  peerInq : Nat
  /-- First unit of the ember buffer granted to the peer. -/
  emberBase : Nat
  live : List PathSt
  -- receiving
  cumPsn : Nat
  got : List Nat
  unacked : Nat
  ce : List Nat
  rxAt : Nat
  frontier : Nat
  rx : List RxMsg
  rx2 : List RxMsg
  placing : List Placing
  /-- Free-running totals of the credits returned, TC0 to TC3 (R289). -/
  ret : List Nat
  /-- Credits of the peer in use now at this end: TC0 packets, staging units, ingress units. -/
  inUse : List Nat
  /-- Messages in CMD whose descriptors are not all complete: number, units, descriptors left. -/
  cmdLeft : List (Nat × Nat × Nat)
  /-- The totals of `ret` that the last ACK sent carried. -/
  told : List Nat
  /-- Messages failed by a refusal, each reported once, by `failKey` (R300, R311). -/
  reported : List Nat
  -- sending
  nextPsn : Nat
  nextMsg : Nat
  nextMsg2 : Nat
  peerFrontier : Nat
  tx : List TxMsg
  pkts : List TxPkt
  sends : Nat
  /-- Totals used and totals the peer has returned, TC0 to TC3. -/
  used : List Nat
  peerRet : List Nat
  /-- Descriptors charged at the peer, by engine (R289), and those without a record of each command message sent:
  number, engine, descriptors. -/
  descs : List Nat
  cmdSent : List (Nat × Nat × Nat)
  /-- Next unit of the peer's allotment (R181), and reservations in use, oldest first: units that lie unused before each,
  its slot, and its units. -/
  emberNext : Nat
  emberRes : List (Nat × Nat × Nat)
  closeSent : Bool
  closeGot : Bool
  ackSent : Bool
  ackGot : Bool
  /-- Packets that have been counted as held for tokens, and as waiting for a slot, by `NextPkt.key` (R332). -/
  waitTok : List (List Nat)
  waitSlot : List (List Nat)
  deriving DecidableEq, Repr

/-- The milestone at which the revocation of a waykey completed, and the waymark that it signals (R310). -/
structure WkLive where
  index : Nat
  completed : Option Nat
  wm : Option Nat
  deriving DecidableEq, Repr

/-- A change of a shaper that waits for the next boundary (R323). -/
structure ShChange where
  part : Nat
  lport : Nat
  value : BitVec 128
  deriving DecidableEq, Repr

/-- What the node emits at its links, pins and buses. -/
inductive Out where
  /-- A PCIe memory write to host memory. -/
  | hostWrite (fn : Nat) (addr : Nat) (data : List Byte)
  /-- A PCIe memory read of host memory: a descriptor of a submission ring (R253), or bytes of a far window (R49). -/
  | hostRead (fn : Nat) (addr : Nat) (len : Nat)
  /-- The first write of a completion record: bytes 0 to 5 and 7 to 31 (R263). -/
  | record (fn : Nat) (addr : Nat) (data : List Byte)
  /-- The answer to a host read, with its poisoned mark. -/
  | hostData (data : List Byte) (poisoned : Bool)
  /-- A request completed as an Unsupported Request. -/
  | unsupported
  /-- An MSI-X message. -/
  | msix (fn vector : Nat)
  /-- A frame on a road port. -/
  | frame (lport : Nat) (data : List Byte)
  /-- The ORT packet that answers a CONNECT matched by no entry, on the way that it came, before its encapsulation. -/
  | answer (ort : List Byte)
  /-- A lease datagram on a management port, to an IPv4 address (R377). -/
  | lease (port : Nat) (ip : Word) (data : List Byte)
  /-- A TFTP answer on a management port (R412). -/
  | tftp (data : List Byte)
  /-- ALERT_N driven low. -/
  | alert
  /-- An I3C in-band interrupt, with its mandatory byte. -/
  | ibi (b : Byte)
  /-- Bytes returned on I3C. -/
  | i3c (data : List Byte)
  /-- THERMTRIP_N driven low. -/
  | thermtrip
  /-- AVSBus commands for the voltages of an operating point. -/
  | avs (point : Nat)
  /-- A PMBus read of STATUS_WORD of the regulator output at an address. -/
  | statusWord (addr : Nat)
  /-- The JTAG instruction that acts, and the identity that IDCODE selects. -/
  | jtag (acts : Nat) (id : Option Word)
  /-- The value read from a register. -/
  | regData (v : Word)
  /-- The 64-bit value read. -/
  | regData64 (v : BitVec 64)
  deriving DecidableEq, Repr

/-- Deficit round-robin (R288, R325): the queue whose turn it is, and the deficits of the queues. -/
structure Drr where
  turn : Nat
  left : List (Nat × Nat)
  deriving DecidableEq, Repr

/-- A frame that belongs to no connection and waits for its port (R294, R326): the partition it is charged to, if any, its
port, its bytes, the fabric time at which it became ready, and what leaves. -/
structure Reply where
  part : Option Nat
  lport : Nat
  bytes : Nat
  ready : Nat
  out : Out
  deriving DecidableEq, Repr

end Sys2Proof.Machine
end

