-- ==== Sys2Proof/Machine/State.lean ====
section
/-!
DEFINITION. The state of the node as plain data, and the state right after reset. The node is a block: it takes
commands, which wait in `pending`, first in first out.
-/

namespace Sys2Proof.Machine

/-- The node. -/
structure State where
  /-- The commands that wait, first in first out. -/
  pending : List Instr
  /-- What the node has emitted, newest first. -/
  out : List Out
  /-- Index of the next free value (log entry 1). -/
  draws : Nat
  /-- Number of the next command, request or MERGE. -/
  nextId : Nat
  /-- Completion records posted (orders FLUSH, R268). -/
  posted : Nat
  /-- The register file: function and BAR0 offset (R441) to word. -/
  regs : List (Nat × Word)
  /-- Bytes of firebox, native hot tier and warm tier (R41). -/
  mem : List Host.Cell
  stale : List Stale
  /-- Latent errors of coded storage, by the number of the first 8-byte word of the unit (R126, R361). -/
  ecc : List (Nat × Ecc)
  /-- Scratch of the columns (R114), and its latent errors, by `32768 * column + word` (R361). -/
  scratch : List (Nat × Scratch)
  scratchEcc : List (Nat × Ecc)
  /-- Turns of the bursts of the columns (R133). -/
  arbs : List (Nat × Arb)
  /-- Rows awaiting re-encoding, by row number (R123). -/
  recode : List Nat
  /-- Activations of rows in the refresh window, and rows due a targeted refresh (R370). -/
  acts : List (Nat × Nat)
  trr : List Nat
  /-- Corrected errors of rows, by scrub pass (R363). -/
  corrected : List (Nat × Nat)
  /-- The spare-row map: the rows remapped, a record kept twice (R364), and rows whose remap waits for a scrub burst. -/
  spares : List (Twin 32)
  remapDue : List Nat
  ft : Ft
  gated : List GateUnit
  life : Life
  /-- The life state asked for by STANDBY while commands are incomplete (R393). -/
  standbyWanted : Bool
  power : Power
  powerWant : Power
  /-- A power change in progress: the state it leads to, while the firebox is saved or restored. -/
  powerNext : Option Power
  /-- The firebox is being saved before Banked (R403). -/
  saving : Bool
  pwrGood : Bool
  thermTripped : Bool
  straps : Word
  cause : Nat
  charter : Option (List Byte)
  identity : Option (List Byte)
  entries : List (Nat × Pair 512)
  /-- State of each partition (R349), a pair of R367. -/
  partState : List (Nat × Pair 8)
  /-- The partition table record of the last lock (R342), kept twice (R364). -/
  lastLock : Option (List (Twin 512))
  /-- Steps of releases (R350), pairs of R367. -/
  releasing : List (Nat × Pair 8)
  /-- Object tables, by partition and number (R53). -/
  objs : List (Nat × BitVec 256)
  /-- Staging copies of the object window, by function: entry and value (R447). -/
  objStage : List (Nat × (Nat × BitVec 256))
  far : List (Nat × Pair 128)
  dir : List Dir
  dirGen : BitVec 32
  lookup : Option Lookup
  slots : List Slot
  /-- Relocations of page slots under way (R229). -/
  moves : List Move
  heat : List Heat
  /-- Background drops made in this milestone, by partition, and whether dropping is under way (R237). -/
  bg : List (Nat × (Nat × Bool))
  cmds : List Cmd
  rings : List (Nat × Ring)
  links : List (Nat × Link)
  inq : List InDesc
  /-- The ready queues in the order in which they became ready (R249), as queue keys. -/
  turns : List Nat
  wms : List (Nat × Pair 64)
  wmLatch : List (Nat × Word)
  holds : List Hold
  hauls : List Haul
  rows : List RowJob
  reqs : List Req
  /-- Planned end of each column, in FCLK from nanosecond 0 of milestone `planBase` (R145). -/
  plan : List (Nat × Nat)
  planBase : Nat
  sent : List Sent
  /-- Next number of EMBER_ID of each partition in each milestone, by `64 * milestone + partition` (R178). -/
  emberNums : List (Nat × Nat)
  recv : List Recv
  merges : List Merge
  /-- Tenant and tag of the MERGEs that have completed (R196). -/
  mergesDone : List (Nat × Nat)
  images : List Image
  kindles : List Kindle
  /-- HCLK of dense-array occupancy not yet counted in KN_ARRAY_BUSY, and whether an operation streamed in the
  current slot (R208, R227). -/
  arrayHclk : Nat
  arrayUsed : Bool
  scrub : List (Nat × Scrub)
  conns : List (Nat × Conn)
  ports : List (Nat × Byte)
  up : List Nat
  waykeys : List (Nat × Pair 256)
  wkLive : List WkLive
  vioLog : List (Nat × List Byte)
  shapers : List (Nat × Pair 128)
  shChanges : List ShChange
  acctPackets : Bool
  /-- Deficit round-robin of the ports over partitions, and of partitions over TC1 and TC3 on a port, by
  `65 * port + partition`, 64 standing for the port itself (R288, R325). -/
  drrs : List (Nat × Drr)
  /-- Frames of no connection that wait for their port (R294, R326). -/
  replies : List Reply
  attest : List Attest
  meters : List (Nat × Meter)
  staging : List (Nat × Byte)
  probe : Option Probe
  /-- The fence list (R374), one bit per column, kept twice (R364). -/
  fenceRec : Twin 512
  suspects : List Suspect
  /-- Faults of shared resources to be reported at the next boundary (R355). -/
  sharedFaults : Nat
  /-- Failed flits in succession, by link (R362). -/
  flits : List (Nat × Nat)
  wdogValue : Word
  wdogAt : Nat
  rebuilds : List (Nat × Rebuild)
  forwards : List Forward
  lodge : Lodge
  resets : List Reset
  engResets : List Reset
  flash : Flash
  repairDirty : Option Nat
  /-- Entries of the management peer table (R377): node and address registers. -/
  mpeers : List (Nat × (Word × Word))
  mgmt : List (Nat × Mgmt)
  /-- A recovery commit whose SPI write is running, with the checked file (R411). -/
  rcvWriting : Option (RcvFile × List Byte)
  i3c : I3c
  therm : Therm
  volt : Volt
  /-- The JTAG instruction loaded (R424). -/
  jtag : Nat
  deriving DecidableEq, Repr

/-- Why a step stops the node: nothing in the manual stops it, so no meaning raises this (log entry 10). Safe. -/
inductive Fault where
  /-- Never raised: an access outside the 48-bit address space (R41) is refused by status instead. Safe. -/
  | outsideSpace
  deriving DecidableEq, Repr

/-- Why a command has no meaning. -/
inductive Refusal where
  /-- Raised by the dispatcher alone, for a row of the table that has no meaning yet. Safe. -/
  | notModelled (mnemonic : String)
  deriving DecidableEq, Repr

/-- The fabric-time unit at reset (R7, R12, R13). -/
def Ft.reset : Ft :=
  { now := 0, latch := 0, actTrim := 0, slew := 0, nextSlew := none, selected := none, lastSeq := none,
    cands := [], goodRun := 0, driftRun := 0, stalled := false, refHeld := false, slewedAt := none }

/-- The node held in power-on reset, before PWR_GOOD rises (R421; log entries 4, 6 and 7). -/
def State.reset : State :=
  { pending := [], out := [], draws := 0, nextId := 1, posted := 0, regs := [], mem := [], stale := [], ecc := [],
    scratch := [], scratchEcc := [], arbs := [], recode := [], acts := [], trr := [], corrected := [], spares := [], remapDue := [], ft := Ft.reset,
    gated := [], life := .boot, standbyWanted := false, power := .lit, powerWant := .lit, powerNext := none, saving := false,
    pwrGood := false, thermTripped := false, straps := 0, cause := 0, charter := none, identity := none,
    entries := [], partState := [], lastLock := none, releasing := [], objs := [], objStage := [], far := [],
    dir := [], dirGen := 0, lookup := none, slots := [], moves := [], heat := [], bg := [], cmds := [],
    rings := [], links := [], inq := [], turns := [], wms := [], wmLatch := [], holds := [], hauls := [], rows := [],
    reqs := [], plan := [], planBase := 0, sent := [], emberNums := [], recv := [], merges := [], mergesDone := [],
    images := [], kindles := [], arrayHclk := 0, arrayUsed := false, scrub := [], conns := [], ports := [], up := [], waykeys := [], wkLive := [],
    vioLog := [], shapers := [], shChanges := [], acctPackets := true, drrs := [], replies := [], attest := [], meters := [], staging := [],
    probe := none, fenceRec := ⟨⟨0, BitVec.allOnes 512⟩, ⟨0, BitVec.allOnes 512⟩⟩, suspects := [], sharedFaults := 0, flits := [], wdogValue := 0, wdogAt := 0, rebuilds := [],
    forwards := [], lodge := { linkUp := false, perst := true, numVfs := 0, vfEnable := false, d3hot := false },
    resets := [], engResets := [],
    flash := { firmware := [], charter := none, copyA := none, copyB := none }, repairDirty := none, mpeers := [],
    mgmt := [], rcvWriting := none, i3c := { addr := none, ibi := false, index := 0, armed := false },
    therm := { maxLogic := 0, maxDram := 0, idxLogic := 0, idxDram := 0, idxPower := 0, chosen := 0, decidedAt := none, refresh2 := false },
    volt := { point := 0, hold3 := false, vrLow := false }, jtag := 2 }

end Sys2Proof.Machine
end

