-- ==== Sys2Proof/Machine/RegMap.lean ====
section
/-!
DEFINITION. The register map: the offset of each register in BAR0 (R441) and, block by block, its reset value and
its writable, write-1-to-clear and read-to-clear bits, as the field maps of the chapters state them (R38, R67, R104,
R137, R171, R203, R227, R246, R277, R315, R333, R357, R390, R416, R437, R443).
-/

namespace Sys2Proof.Machine

/-- A run of registers, `step` bytes apart. `dom` 0: in PF0 only; 1: in each VF only; 2: in both (R441). -/
structure RegDef where
  first : Nat
  last : Nat
  step : Nat
  dom : Nat
  reset : Word
  rw : Word
  w1c : Word
  rc : Bool
  deriving DecidableEq, Repr

/-- FT_NOW_LO (R38). -/
abbrev Reg.FT_NOW_LO : Nat := 0x00000
/-- FT_NOW_HI (R38). -/
abbrev Reg.FT_NOW_HI : Nat := 0x00004
/-- FT_CFG (R38). -/
abbrev Reg.FT_CFG : Nat := 0x00008
/-- FT_SRC_ID (R38). -/
abbrev Reg.FT_SRC_ID : Nat := 0x0000C
/-- FT_STAT (R38). -/
abbrev Reg.FT_STAT : Nat := 0x00010
/-- FT_OFFSET (R38). -/
abbrev Reg.FT_OFFSET : Nat := 0x00014
/-- FT_HOLD (R38). -/
abbrev Reg.FT_HOLD : Nat := 0x00018
/-- FT_TRIM (R38). -/
abbrev Reg.FT_TRIM : Nat := 0x0001C
/-- FT_STEP_THRESH (R38). -/
abbrev Reg.FT_STEP_THRESH : Nat := 0x00020
/-- FT_PORT_DELAY0–7 (R38). -/
abbrev Reg.FT_PORT_DELAY : Nat := 0x00040
/-- FT_SET_LO (R38). -/
abbrev Reg.FT_SET_LO : Nat := 0x00060
/-- FT_SET_HI (R38). -/
abbrev Reg.FT_SET_HI : Nat := 0x00064
/-- FT_SET_CTL (R38). -/
abbrev Reg.FT_SET_CTL : Nat := 0x00068
/-- FT_OPP0–3 (R38). -/
abbrev Reg.FT_OPP : Nat := 0x00080
/-- FT_OPP_CUR (R38). -/
abbrev Reg.FT_OPP_CUR : Nat := 0x00090
/-- FT_GATE_CFG (R38). -/
abbrev Reg.FT_GATE_CFG : Nat := 0x00094
/-- FT_BCN_ACC (R38). -/
abbrev Reg.FT_BCN_ACC : Nat := 0x000A0
/-- FT_BCN_DISC (R38). -/
abbrev Reg.FT_BCN_DISC : Nat := 0x000A4
/-- FT_OVERRUN_CNT (R38). -/
abbrev Reg.FT_OVERRUN_CNT : Nat := 0x000A8
/-- MT_COMPAT_EN (R67). -/
abbrev Reg.MT_COMPAT_EN : Nat := 0x01000
/-- MT_ERR_STAT (R67). -/
abbrev Reg.MT_ERR_STAT : Nat := 0x01004
/-- MT_FAR_SEL (R67). -/
abbrev Reg.MT_FAR_SEL : Nat := 0x01010
/-- MT_FAR_CTL (R67). -/
abbrev Reg.MT_FAR_CTL : Nat := 0x01014
/-- MT_FAR_STAT (R67). -/
abbrev Reg.MT_FAR_STAT : Nat := 0x01018
/-- MT_FAR_W0–3 (R67). -/
abbrev Reg.MT_FAR_W : Nat := 0x01020
/-- MT_UNMAPPED_CNT (R67). -/
abbrev Reg.MT_UNMAPPED_CNT : Nat := 0x01040
/-- MT_CPL_FAULT_CNT (R67). -/
abbrev Reg.MT_CPL_FAULT_CNT : Nat := 0x01044
/-- MT_HAUL_FALLBACK_CNT (R67). -/
abbrev Reg.MT_HAUL_FALLBACK_CNT : Nat := 0x01048
/-- PG_CINDER_CFG (R104). -/
abbrev Reg.PG_CINDER_CFG : Nat := 0x02000
/-- PG_ERR_STAT (R104). -/
abbrev Reg.PG_ERR_STAT : Nat := 0x02004
/-- PG_APPEND_CNT (R104). -/
abbrev Reg.PG_APPEND_CNT : Nat := 0x02010
/-- PG_REPLAY_CNT (R104). -/
abbrev Reg.PG_REPLAY_CNT : Nat := 0x02014
/-- PG_MISMATCH_CNT (R104). -/
abbrev Reg.PG_MISMATCH_CNT : Nat := 0x02018
/-- PG_HOLD_TIMEOUT_CNT (R104). -/
abbrev Reg.PG_HOLD_TIMEOUT_CNT : Nat := 0x0201C
/-- PG_CODED_CNT (R104). -/
abbrev Reg.PG_CODED_CNT : Nat := 0x02020
/-- PG_DIR_SEQ_LO (R104). -/
abbrev Reg.PG_DIR_SEQ_LO : Nat := 0x02040
/-- PG_DIR_SEQ_HI (R104). -/
abbrev Reg.PG_DIR_SEQ_HI : Nat := 0x02044
/-- PG_DIR_SEL (R104). -/
abbrev Reg.PG_DIR_SEL : Nat := 0x02048
/-- PG_DIR_CTL (R104). -/
abbrev Reg.PG_DIR_CTL : Nat := 0x0204C
/-- PG_DIR_STAT (R104). -/
abbrev Reg.PG_DIR_STAT : Nat := 0x02050
/-- PG_DIR_W0–7 (R104). -/
abbrev Reg.PG_DIR_W : Nat := 0x02060
/-- PG_CLASS_P00–P63 (R104). -/
abbrev Reg.PG_CLASS : Nat := 0x02100
/-- FL_ARB (R137). -/
abbrev Reg.FL_ARB : Nat := 0x03000
/-- FL_ERR_STAT (R137). -/
abbrev Reg.FL_ERR_STAT : Nat := 0x03004
/-- FL_RECODE_LEFT (R137). -/
abbrev Reg.FL_RECODE_LEFT : Nat := 0x03008
/-- FL_CHIMNEY_MODE (R137). -/
abbrev Reg.FL_CHIMNEY_MODE : Nat := 0x0300C
/-- FL_CE_CNT (R137). -/
abbrev Reg.FL_CE_CNT : Nat := 0x03010
/-- FL_UE_CNT (R137). -/
abbrev Reg.FL_UE_CNT : Nat := 0x03014
/-- FL_ROW_CNT (R137). -/
abbrev Reg.FL_ROW_CNT : Nat := 0x03018
/-- FL_HOST_WAIT_HWM (R137). -/
abbrev Reg.FL_HOST_WAIT_HWM : Nat := 0x0301C
/-- FL_CHIMNEY_CNT0–15 (R137). -/
abbrev Reg.FL_CHIMNEY_CNT : Nat := 0x03100
/-- AT_CFG (R171). -/
abbrev Reg.AT_CFG : Nat := 0x04000
/-- AT_ERR_STAT (R171). -/
abbrev Reg.AT_ERR_STAT : Nat := 0x04004
/-- AT_INFLIGHT (R171). -/
abbrev Reg.AT_INFLIGHT : Nat := 0x04008
/-- AT_INFLIGHT_HWM (R171). -/
abbrev Reg.AT_INFLIGHT_HWM : Nat := 0x0400C
/-- AT_REQ_CNT (R171). -/
abbrev Reg.AT_REQ_CNT : Nat := 0x04010
/-- AT_SPANJOB_CNT (R171). -/
abbrev Reg.AT_SPANJOB_CNT : Nat := 0x04014
/-- AT_TALLY_FAIL_CNT (R171). -/
abbrev Reg.AT_TALLY_FAIL_CNT : Nat := 0x04018
/-- AT_RETRY_PASS_CNT (R171). -/
abbrev Reg.AT_RETRY_PASS_CNT : Nat := 0x0401C
/-- AT_DAMAGED_CNT (R171). -/
abbrev Reg.AT_DAMAGED_CNT : Nat := 0x04020
/-- AT_DEFER_CNT (R171). -/
abbrev Reg.AT_DEFER_CNT : Nat := 0x04024
/-- AT_MODE_P00–P63 (R171). -/
abbrev Reg.AT_MODE : Nat := 0x04100
/-- MG_CFG (R203). -/
abbrev Reg.MG_CFG : Nat := 0x05000
/-- MG_ERR_STAT (R203). -/
abbrev Reg.MG_ERR_STAT : Nat := 0x05004
/-- MG_UNITS_FREE (R203). -/
abbrev Reg.MG_UNITS_FREE : Nat := 0x05008
/-- MG_UNITS_HWM (R203). -/
abbrev Reg.MG_UNITS_HWM : Nat := 0x0500C
/-- MG_INFLIGHT (R203). -/
abbrev Reg.MG_INFLIGHT : Nat := 0x05010
/-- MG_SEAL_CNT (R203). -/
abbrev Reg.MG_SEAL_CNT : Nat := 0x05014
/-- MG_RECALL_CNT (R203). -/
abbrev Reg.MG_RECALL_CNT : Nat := 0x05018
/-- MG_LATE_SEAL_CNT (R203). -/
abbrev Reg.MG_LATE_SEAL_CNT : Nat := 0x0501C
/-- MG_VERDICT_LATE_CNT (R203). -/
abbrev Reg.MG_VERDICT_LATE_CNT : Nat := 0x05020
/-- MG_DIGEST_FAIL_CNT (R203). -/
abbrev Reg.MG_DIGEST_FAIL_CNT : Nat := 0x05024
/-- MG_RESIDUE_FAIL_CNT (R203). -/
abbrev Reg.MG_RESIDUE_FAIL_CNT : Nat := 0x05028
/-- MG_DEDUP_CNT (R203). -/
abbrev Reg.MG_DEDUP_CNT : Nat := 0x0502C
/-- MG_ORPHAN_CNT (R203). -/
abbrev Reg.MG_ORPHAN_CNT : Nat := 0x05030
/-- MG_MERGE_CNT (R203). -/
abbrev Reg.MG_MERGE_CNT : Nat := 0x05034
/-- KN_CFG (R227). -/
abbrev Reg.KN_CFG : Nat := 0x06000
/-- KN_ERR_STAT (R227). -/
abbrev Reg.KN_ERR_STAT : Nat := 0x06004
/-- KN_ACTIVE (R227). -/
abbrev Reg.KN_ACTIVE : Nat := 0x06008
/-- KN_SPAN_CNT (R227). -/
abbrev Reg.KN_SPAN_CNT : Nat := 0x06010
/-- KN_FAIL_CNT (R227). -/
abbrev Reg.KN_FAIL_CNT : Nat := 0x06014
/-- KN_BIND_CNT (R227). -/
abbrev Reg.KN_BIND_CNT : Nat := 0x06018
/-- KN_BIND_FAIL_CNT (R227). -/
abbrev Reg.KN_BIND_FAIL_CNT : Nat := 0x0601C
/-- KN_ARRAY_BUSY (R227). -/
abbrev Reg.KN_ARRAY_BUSY : Nat := 0x06020
/-- KN_SLOT_IDLE_CNT (R227). -/
abbrev Reg.KN_SLOT_IDLE_CNT : Nat := 0x06024
/-- KN_IMG_P00–P63 (R227). -/
abbrev Reg.KN_IMG : Nat := 0x06100
/-- PR_CFG (R246). -/
abbrev Reg.PR_CFG : Nat := 0x07000
/-- PR_COST (R246). -/
abbrev Reg.PR_COST : Nat := 0x07004
/-- PR_HEAT (R246). -/
abbrev Reg.PR_HEAT : Nat := 0x07008
/-- PR_ERR_STAT (R246). -/
abbrev Reg.PR_ERR_STAT : Nat := 0x0700C
/-- PR_DROP_CNT (R246). -/
abbrev Reg.PR_DROP_CNT : Nat := 0x07010
/-- PR_FG_DROP_CNT (R246). -/
abbrev Reg.PR_FG_DROP_CNT : Nat := 0x07014
/-- PR_NOCAP_CNT (R246). -/
abbrev Reg.PR_NOCAP_CNT : Nat := 0x07018
/-- PR_KINDLING_CNT (R246). -/
abbrev Reg.PR_KINDLING_CNT : Nat := 0x0701C
/-- PR_REKINDLE_CNT (R246). -/
abbrev Reg.PR_REKINDLE_CNT : Nat := 0x07020
/-- PR_LAST_SEQ_LO (R246). -/
abbrev Reg.PR_LAST_SEQ_LO : Nat := 0x07030
/-- PR_LAST_SEQ_HI (R246). -/
abbrev Reg.PR_LAST_SEQ_HI : Nat := 0x07034
/-- PR_LAST_SPAN (R246). -/
abbrev Reg.PR_LAST_SPAN : Nat := 0x07038
/-- PR_QUOTA_P00–P63 (R246). -/
abbrev Reg.PR_QUOTA : Nat := 0x07100
/-- PR_USED_P00–P63 (R246). -/
abbrev Reg.PR_USED : Nat := 0x07200
/-- PR_USED_HWM_P00–P63 (R246). -/
abbrev Reg.PR_USED_HWM : Nat := 0x07300
/-- PR_DROPPED_P00–P63 (R246). -/
abbrev Reg.PR_DROPPED : Nat := 0x07400
/-- PR_KLG_P00–P63 (R246). -/
abbrev Reg.PR_KLG : Nat := 0x07500
/-- CQ_CFG (R277). -/
abbrev Reg.CQ_CFG : Nat := 0x08000
/-- CQ_ERR_STAT (R277). -/
abbrev Reg.CQ_ERR_STAT : Nat := 0x08004
/-- CQ_WM_CTL (R277). -/
abbrev Reg.CQ_WM_CTL : Nat := 0x08008
/-- CQ_WATCH_CTL (R277). -/
abbrev Reg.CQ_WATCH_CTL : Nat := 0x08010
/-- CQ_WATCH_LO (R277). -/
abbrev Reg.CQ_WATCH_LO : Nat := 0x08014
/-- CQ_WATCH_HI (R277). -/
abbrev Reg.CQ_WATCH_HI : Nat := 0x08018
/-- CQ_TIMEOUT_CNT (R277). -/
abbrev Reg.CQ_TIMEOUT_CNT : Nat := 0x08020
/-- CQ_ABORT_CNT (R277). -/
abbrev Reg.CQ_ABORT_CNT : Nat := 0x08024
/-- CQ_INBOUND_OVF_CNT (R277). -/
abbrev Reg.CQ_INBOUND_OVF_CNT : Nat := 0x08028
/-- CQ_SUB_BASE_LOe (R277). -/
abbrev Reg.CQ_SUB_BASE_LO : Nat := 0x08100
/-- CQ_SUB_BASE_HIe (R277). -/
abbrev Reg.CQ_SUB_BASE_HI : Nat := 0x08104
/-- CQ_CPL_BASE_LOe (R277). -/
abbrev Reg.CQ_CPL_BASE_LO : Nat := 0x08108
/-- CQ_CPL_BASE_HIe (R277). -/
abbrev Reg.CQ_CPL_BASE_HI : Nat := 0x0810C
/-- CQ_RING_CFGe (R277). -/
abbrev Reg.CQ_RING_CFG : Nat := 0x08110
/-- CQ_RING_CTLe (R277). -/
abbrev Reg.CQ_RING_CTL : Nat := 0x08114
/-- CQ_RING_STATe (R277). -/
abbrev Reg.CQ_RING_STAT : Nat := 0x08118
/-- CQ_SUB_HEADe (R277). -/
abbrev Reg.CQ_SUB_HEAD : Nat := 0x0811C
/-- CQ_CPL_TAILe (R277). -/
abbrev Reg.CQ_CPL_TAIL : Nat := 0x08120
/-- CQ_OUTSTANDINGe (R277). -/
abbrev Reg.CQ_OUTSTANDING : Nat := 0x08124
/-- RT_CFG (R315). -/
abbrev Reg.RT_CFG : Nat := 0x09000
/-- RT_NODE_ID (R315). -/
abbrev Reg.RT_NODE_ID : Nat := 0x09004
/-- RT_TIMER (R315). -/
abbrev Reg.RT_TIMER : Nat := 0x09008
/-- RT_LIVE (R315). -/
abbrev Reg.RT_LIVE : Nat := 0x0900C
/-- RT_CC (R315). -/
abbrev Reg.RT_CC : Nat := 0x09010
/-- RT_DSCP (R315). -/
abbrev Reg.RT_DSCP : Nat := 0x09014
/-- RT_ERR_STAT (R315). -/
abbrev Reg.RT_ERR_STAT : Nat := 0x09018
/-- RT_PORT_CFG0–7 (R315). -/
abbrev Reg.RT_PORT_CFG : Nat := 0x09020
/-- RT_PORT_STAT0–7 (R315). -/
abbrev Reg.RT_PORT_STAT : Nat := 0x09040
/-- RT_RX_DISC_CNT (R315). -/
abbrev Reg.RT_RX_DISC_CNT : Nat := 0x09060
/-- RT_DUP_CNT (R315). -/
abbrev Reg.RT_DUP_CNT : Nat := 0x09064
/-- RT_RETX_CNT (R315). -/
abbrev Reg.RT_RETX_CNT : Nat := 0x09068
/-- RT_CONN_FAIL_CNT (R315). -/
abbrev Reg.RT_CONN_FAIL_CNT : Nat := 0x0906C
/-- RT_CPL_DROP_CNT (R315). -/
abbrev Reg.RT_CPL_DROP_CNT : Nat := 0x09070
/-- RT_CONN_SEL (R315). -/
abbrev Reg.RT_CONN_SEL : Nat := 0x09100
/-- RT_CONN_CTL (R315). -/
abbrev Reg.RT_CONN_CTL : Nat := 0x09104
/-- RT_CONN_STAT (R315). -/
abbrev Reg.RT_CONN_STAT : Nat := 0x09108
/-- RT_WK_SEL (R315). -/
abbrev Reg.RT_WK_SEL : Nat := 0x09110
/-- RT_WK_CTL (R315). -/
abbrev Reg.RT_WK_CTL : Nat := 0x09114
/-- RT_WK_STAT (R315). -/
abbrev Reg.RT_WK_STAT : Nat := 0x09118
/-- RT_WK_W0–7 (R315). -/
abbrev Reg.RT_WK_W : Nat := 0x09120
/-- RT_VIO_HEAD (R315). -/
abbrev Reg.RT_VIO_HEAD : Nat := 0x09140
/-- RT_VIO_SEL (R315). -/
abbrev Reg.RT_VIO_SEL : Nat := 0x09144
/-- RT_VIO_W0–7 (R315). -/
abbrev Reg.RT_VIO_W : Nat := 0x09160
/-- SHP_PORT_MODE (R333). -/
abbrev Reg.SHP_PORT_MODE : Nat := 0x0A000
/-- SHP_SLOT_FRAME (R333). -/
abbrev Reg.SHP_SLOT_FRAME : Nat := 0x0A004
/-- SHP_STAT (R333). -/
abbrev Reg.SHP_STAT : Nat := 0x0A008
/-- SHP_ERR_STAT (R333). -/
abbrev Reg.SHP_ERR_STAT : Nat := 0x0A00C
/-- SHP_SEL (R333). -/
abbrev Reg.SHP_SEL : Nat := 0x0A020
/-- SHP_CTL (R333). -/
abbrev Reg.SHP_CTL : Nat := 0x0A024
/-- SHP_W0–3 (R333). -/
abbrev Reg.SHP_W : Nat := 0x0A030
/-- SHP_QDEPTH_HWM_TC0–3 (R333). -/
abbrev Reg.SHP_QDEPTH_HWM_TC : Nat := 0x0A100
/-- SHP_QAGE_HWM_TC0–3 (R333). -/
abbrev Reg.SHP_QAGE_HWM_TC : Nat := 0x0A110
/-- SHP_HELD_CNT (R333). -/
abbrev Reg.SHP_HELD_CNT : Nat := 0x0A120
/-- SHP_SLOT_WAIT_CNT (R333). -/
abbrev Reg.SHP_SLOT_WAIT_CNT : Nat := 0x0A124
/-- SHP_SLOT_ARRAY0–15 (R333). -/
abbrev Reg.SHP_SLOT_ARRAY : Nat := 0x0A400
/-- SHP_SLOT_PORTl_0–15 (R333). -/
abbrev Reg.SHP_SLOT_PORT : Nat := 0x0A800
/-- PT_LOCK (R357). -/
abbrev Reg.PT_LOCK : Nat := 0x0B000
/-- PT_STAT (R357). -/
abbrev Reg.PT_STAT : Nat := 0x0B004
/-- PT_ERR_STAT (R357). -/
abbrev Reg.PT_ERR_STAT : Nat := 0x0B008
/-- PT_CTL (R357). -/
abbrev Reg.PT_CTL : Nat := 0x0B00C
/-- PT_SERIAL_LO (R357). -/
abbrev Reg.PT_SERIAL_LO : Nat := 0x0B010
/-- PT_SERIAL_HI (R357). -/
abbrev Reg.PT_SERIAL_HI : Nat := 0x0B014
/-- PT_ID_ED0–7 (R357). -/
abbrev Reg.PT_ID_ED : Nat := 0x0B020
/-- PT_ID_X0–7 (R357). -/
abbrev Reg.PT_ID_X : Nat := 0x0B040
/-- PT_FW_HASH0–15 (R357). -/
abbrev Reg.PT_FW_HASH : Nat := 0x0B060
/-- PT_CHARTER_HASH0–15 (R357). -/
abbrev Reg.PT_CHARTER_HASH : Nat := 0x0B0A0
/-- PT_STATE_P00–P63 (R357). -/
abbrev Reg.PT_STATE : Nat := 0x0B100
/-- PT_ENTRY_SEL (R357). -/
abbrev Reg.PT_ENTRY_SEL : Nat := 0x0B200
/-- PT_ENTRY_W0–15 (R357). -/
abbrev Reg.PT_ENTRY_W : Nat := 0x0B220
/-- PT_ATT_CTL (R357). -/
abbrev Reg.PT_ATT_CTL : Nat := 0x0B300
/-- PT_ATT_STAT (R357). -/
abbrev Reg.PT_ATT_STAT : Nat := 0x0B304
/-- PT_ATT_NONCE0–7 (R357). -/
abbrev Reg.PT_ATT_NONCE : Nat := 0x0B320
/-- PT_ATT_OUT0–111 (R357). -/
abbrev Reg.PT_ATT_OUT : Nat := 0x0B400
/-- PT_METER_SEL (R357). -/
abbrev Reg.PT_METER_SEL : Nat := 0x0B600
/-- PT_METER_W0–7 (R357). -/
abbrev Reg.PT_METER_W : Nat := 0x0B620
/-- PT_SHARED_FAULT_CNT (R357). -/
abbrev Reg.PT_SHARED_FAULT_CNT : Nat := 0x0B700
/-- FX_CFG (R390). -/
abbrev Reg.FX_CFG : Nat := 0x0C000
/-- FX_STAT (R390). -/
abbrev Reg.FX_STAT : Nat := 0x0C004
/-- FX_ERR_STAT (R390). -/
abbrev Reg.FX_ERR_STAT : Nat := 0x0C008
/-- FX_WEAR (R390). -/
abbrev Reg.FX_WEAR : Nat := 0x0C00C
/-- FX_PROBE_CTL (R390). -/
abbrev Reg.FX_PROBE_CTL : Nat := 0x0C010
/-- FX_PROBE_STAT (R390). -/
abbrev Reg.FX_PROBE_STAT : Nat := 0x0C014
/-- FX_PROBE_ID_LO (R390). -/
abbrev Reg.FX_PROBE_ID_LO : Nat := 0x0C018
/-- FX_PROBE_ID_HI (R390). -/
abbrev Reg.FX_PROBE_ID_HI : Nat := 0x0C01C
/-- FX_MPEER_SEL (R390). -/
abbrev Reg.FX_MPEER_SEL : Nat := 0x0C020
/-- FX_MPEER_NODE (R390). -/
abbrev Reg.FX_MPEER_NODE : Nat := 0x0C024
/-- FX_MPEER_IP (R390). -/
abbrev Reg.FX_MPEER_IP : Nat := 0x0C028
/-- FX_PRESET_CNT (R390). -/
abbrev Reg.FX_PRESET_CNT : Nat := 0x0C030
/-- FX_REMAP_CNT (R390). -/
abbrev Reg.FX_REMAP_CNT : Nat := 0x0C034
/-- FX_TRR_CNT (R390). -/
abbrev Reg.FX_TRR_CNT : Nat := 0x0C038
/-- FX_PROBE_FAIL_CNT (R390). -/
abbrev Reg.FX_PROBE_FAIL_CNT : Nat := 0x0C03C
/-- FX_SCRUB_PASS_CNT (R390). -/
abbrev Reg.FX_SCRUB_PASS_CNT : Nat := 0x0C040
/-- FX_RECLAIM_CNT (R390). -/
abbrev Reg.FX_RECLAIM_CNT : Nat := 0x0C044
/-- FX_LEASE_DISC_CNT (R390). -/
abbrev Reg.FX_LEASE_DISC_CNT : Nat := 0x0C048
/-- FX_WARM_CE_CNT (R390). -/
abbrev Reg.FX_WARM_CE_CNT : Nat := 0x0C04C
/-- FX_WARM_UE_CNT (R390). -/
abbrev Reg.FX_WARM_UE_CNT : Nat := 0x0C050
/-- FX_SRAM_CE_CNT (R390). -/
abbrev Reg.FX_SRAM_CE_CNT : Nat := 0x0C054
/-- FX_SRAM_UE_CNT (R390). -/
abbrev Reg.FX_SRAM_UE_CNT : Nat := 0x0C058
/-- FX_LINK_REPLAY_CNT (R390). -/
abbrev Reg.FX_LINK_REPLAY_CNT : Nat := 0x0C05C
/-- FX_FENCE0–15 (R390). -/
abbrev Reg.FX_FENCE : Nat := 0x0C080
/-- FX_LEASE_SEQ_LO (R390). -/
abbrev Reg.FX_LEASE_SEQ_LO : Nat := 0x0C100
/-- FX_LEASE_SEQ_HI (R390). -/
abbrev Reg.FX_LEASE_SEQ_HI : Nat := 0x0C104
/-- FX_LEASE_SEL (R390). -/
abbrev Reg.FX_LEASE_SEL : Nat := 0x0C108
/-- FX_LEASE_CTL (R390). -/
abbrev Reg.FX_LEASE_CTL : Nat := 0x0C10C
/-- FX_LEASE_STAT (R390). -/
abbrev Reg.FX_LEASE_STAT : Nat := 0x0C110
/-- FX_LEASE_W0–3 (R390). -/
abbrev Reg.FX_LEASE_W : Nat := 0x0C120
/-- FX_RB_CFG (R390). -/
abbrev Reg.FX_RB_CFG : Nat := 0x0C140
/-- FX_RB_KEY (R390). -/
abbrev Reg.FX_RB_KEY : Nat := 0x0C144
/-- FX_RB_STAGE (R390). -/
abbrev Reg.FX_RB_STAGE : Nat := 0x0C148
/-- FX_RB_CTL (R390). -/
abbrev Reg.FX_RB_CTL : Nat := 0x0C14C
/-- FX_RB_STAT (R390). -/
abbrev Reg.FX_RB_STAT : Nat := 0x0C150
/-- LS_STATE (R416). -/
abbrev Reg.LS_STATE : Nat := 0x0D000
/-- LS_CTL (R416). -/
abbrev Reg.LS_CTL : Nat := 0x0D004
/-- LS_PWR_CTL (R416). -/
abbrev Reg.LS_PWR_CTL : Nat := 0x0D008
/-- LS_ERR_STAT (R416). -/
abbrev Reg.LS_ERR_STAT : Nat := 0x0D00C
/-- LS_STRAP (R416). -/
abbrev Reg.LS_STRAP : Nat := 0x0D010
/-- LS_CAUSE (R416). -/
abbrev Reg.LS_CAUSE : Nat := 0x0D014
/-- LS_FW_VER_LO (R416). -/
abbrev Reg.LS_FW_VER_LO : Nat := 0x0D018
/-- LS_FW_VER_HI (R416). -/
abbrev Reg.LS_FW_VER_HI : Nat := 0x0D01C
/-- LS_OWNED (R416). -/
abbrev Reg.LS_OWNED : Nat := 0x0D020
/-- LS_RCV_LEN (R416). -/
abbrev Reg.LS_RCV_LEN : Nat := 0x0D040
/-- LS_RCV_CTL (R416). -/
abbrev Reg.LS_RCV_CTL : Nat := 0x0D044
/-- LS_RCV_STAT (R416). -/
abbrev Reg.LS_RCV_STAT : Nat := 0x0D048
/-- LS_LODGE_RST_CNT (R416). -/
abbrev Reg.LS_LODGE_RST_CNT : Nat := 0x0D060
/-- LS_CPL_DISCARD_CNT (R416). -/
abbrev Reg.LS_CPL_DISCARD_CNT : Nat := 0x0D064
/-- LS_FLR_CNT (R416). -/
abbrev Reg.LS_FLR_CNT : Nat := 0x0D068
/-- LS_ENG_RESET (R416). -/
abbrev Reg.LS_ENG_RESET : Nat := 0x0D100
/-- LS_ENG_STAT (R416). -/
abbrev Reg.LS_ENG_STAT : Nat := 0x0D104
/-- PW_CFG (R437). -/
abbrev Reg.PW_CFG : Nat := 0x0E000
/-- PW_THERM (R437). -/
abbrev Reg.PW_THERM : Nat := 0x0E004
/-- PW_STAT (R437). -/
abbrev Reg.PW_STAT : Nat := 0x0E008
/-- PW_ALERT_STAT (R437). -/
abbrev Reg.PW_ALERT_STAT : Nat := 0x0E00C
/-- PW_ALERT_MASK (R437). -/
abbrev Reg.PW_ALERT_MASK : Nat := 0x0E010
/-- PW_POWER (R437). -/
abbrev Reg.PW_POWER : Nat := 0x0E014
/-- PW_OPP_CHG_CNT (R437). -/
abbrev Reg.PW_OPP_CHG_CNT : Nat := 0x0E018
/-- PW_RAIL0–14 (R437). -/
abbrev Reg.PW_RAIL : Nat := 0x0E040
/-- BW_AP0–15 (R443). -/
abbrev Reg.BW_AP : Nat := 0x0F000
/-- BW_STAT (R443). -/
abbrev Reg.BW_STAT : Nat := 0x0F040
/-- BW_UR_CNT (R443). -/
abbrev Reg.BW_UR_CNT : Nat := 0x0F044

/-- The registers of the FT block (R38). -/
def regsFT : List RegDef :=
  [⟨0x00000, 0x00000, 4, 0, 0x0, 0x0, 0x0, false⟩,
   ⟨0x00004, 0x00004, 4, 0, 0x0, 0x0, 0x0, false⟩,
   ⟨0x00008, 0x00008, 4, 0, 0x20000, 0xFF0F0303, 0x0, false⟩,
   ⟨0x0000C, 0x0000C, 4, 0, 0xFFFF, 0xFFFF, 0x0, false⟩,
   ⟨0x00010, 0x00010, 4, 0, 0x100, 0x0, 0xC0, false⟩,
   ⟨0x00014, 0x00014, 4, 0, 0x0, 0x0, 0x0, false⟩,
   ⟨0x00018, 0x00018, 4, 0, 0x0, 0x0, 0x0, false⟩,
   ⟨0x0001C, 0x0001C, 4, 0, 0x0, 0x0, 0x0, false⟩,
   ⟨0x00020, 0x00020, 4, 0, 0x3E8, 0x7FFF, 0x0, false⟩,
   ⟨0x00040, 0x0005C, 4, 0, 0x0, 0xFFFFF, 0x0, false⟩,
   ⟨0x00060, 0x00060, 4, 0, 0x0, 0x0, 0x0, false⟩,
   ⟨0x00064, 0x00064, 4, 0, 0x0, 0x0, 0x0, false⟩] ++
  [⟨0x00068, 0x00068, 4, 0, 0x0, 0x0, 0x0, false⟩,
   ⟨0x00080, 0x00080, 4, 0, 0x420084, 0xFF00FF, 0x0, false⟩,
   ⟨0x00084, 0x00084, 4, 0, 0x3C0078, 0xFF00FF, 0x0, false⟩,
   ⟨0x00088, 0x00088, 4, 0, 0x340068, 0xFF00FF, 0x0, false⟩,
   ⟨0x0008C, 0x0008C, 4, 0, 0x280050, 0xFF00FF, 0x0, false⟩,
   ⟨0x00090, 0x00090, 4, 0, 0x0, 0x0, 0x0, false⟩,
   ⟨0x00094, 0x00094, 4, 0, 0x7, 0x7, 0x0, false⟩,
   ⟨0x000A0, 0x000A0, 4, 0, 0x0, 0x0, 0x0, true⟩,
   ⟨0x000A4, 0x000A4, 4, 0, 0x0, 0x0, 0x0, true⟩,
   ⟨0x000A8, 0x000A8, 4, 0, 0x0, 0x0, 0x0, true⟩]

/-- The registers of the MT block (R67). -/
def regsMT : List RegDef :=
  [⟨0x01000, 0x01000, 4, 0, 0x0, 0xFFFF, 0x0, false⟩,
   ⟨0x01004, 0x01004, 4, 0, 0x0, 0x0, 0x7, false⟩,
   ⟨0x01010, 0x01010, 4, 0, 0x0, 0xFF, 0x0, false⟩,
   ⟨0x01014, 0x01014, 4, 0, 0x0, 0x0, 0x0, false⟩,
   ⟨0x01018, 0x01018, 4, 0, 0x0, 0x0, 0x1, false⟩,
   ⟨0x01020, 0x0102C, 4, 0, 0x0, 0xFFFFFFFF, 0x0, false⟩,
   ⟨0x01040, 0x01040, 4, 0, 0x0, 0x0, 0x0, true⟩,
   ⟨0x01044, 0x01044, 4, 0, 0x0, 0x0, 0x0, true⟩,
   ⟨0x01048, 0x01048, 4, 0, 0x0, 0x0, 0x0, true⟩]

/-- The registers of the PG block (R104). -/
def regsPG : List RegDef :=
  [⟨0x02000, 0x02000, 4, 0, 0x103, 0xFF03, 0x0, false⟩,
   ⟨0x02004, 0x02004, 4, 0, 0x0, 0x0, 0xF, false⟩,
   ⟨0x02010, 0x02010, 4, 0, 0x0, 0x0, 0x0, true⟩,
   ⟨0x02014, 0x02014, 4, 0, 0x0, 0x0, 0x0, true⟩,
   ⟨0x02018, 0x02018, 4, 0, 0x0, 0x0, 0x0, true⟩,
   ⟨0x0201C, 0x0201C, 4, 0, 0x0, 0x0, 0x0, true⟩,
   ⟨0x02020, 0x02020, 4, 0, 0x0, 0x0, 0x0, true⟩,
   ⟨0x02040, 0x02040, 4, 0, 0x0, 0xFFFFFFFF, 0x0, false⟩,
   ⟨0x02044, 0x02044, 4, 0, 0x0, 0xFFFFFFFF, 0x0, false⟩,
   ⟨0x02048, 0x02048, 4, 0, 0x0, 0x3FFF, 0x0, false⟩,
   ⟨0x0204C, 0x0204C, 4, 0, 0x0, 0x0, 0x0, false⟩,
   ⟨0x02050, 0x02050, 4, 0, 0x0, 0x0, 0x0, false⟩] ++
  [⟨0x02060, 0x0207C, 4, 0, 0x0, 0x0, 0x0, false⟩,
   ⟨0x02100, 0x021FC, 4, 0, 0x7F, 0x77F, 0x0, false⟩]

/-- The registers of the FL block (R137). -/
def regsFL : List RegDef :=
  [⟨0x03000, 0x03000, 4, 0, 0x420, 0xFFFF, 0x0, false⟩,
   ⟨0x03004, 0x03004, 4, 0, 0x0, 0x0, 0x7, false⟩,
   ⟨0x03008, 0x03008, 4, 0, 0x0, 0x0, 0x0, false⟩,
   ⟨0x0300C, 0x0300C, 4, 0, 0x0, 0x0, 0x0, false⟩,
   ⟨0x03010, 0x03010, 4, 0, 0x0, 0x0, 0x0, true⟩,
   ⟨0x03014, 0x03014, 4, 0, 0x0, 0x0, 0x0, true⟩,
   ⟨0x03018, 0x03018, 4, 0, 0x0, 0x0, 0x0, true⟩,
   ⟨0x0301C, 0x0301C, 4, 0, 0x0, 0x0, 0x0, true⟩,
   ⟨0x03100, 0x0313C, 4, 0, 0x0, 0x0, 0x0, true⟩]

/-- The registers of the AT block (R171). -/
def regsAT : List RegDef :=
  [⟨0x04000, 0x04000, 4, 0, 0x20, 0xFF, 0x0, false⟩,
   ⟨0x04004, 0x04004, 4, 0, 0x0, 0x0, 0xF, false⟩,
   ⟨0x04008, 0x04008, 4, 0, 0x0, 0x0, 0x0, false⟩,
   ⟨0x0400C, 0x0400C, 4, 0, 0x0, 0x0, 0x0, true⟩,
   ⟨0x04010, 0x04010, 4, 0, 0x0, 0x0, 0x0, true⟩,
   ⟨0x04014, 0x04014, 4, 0, 0x0, 0x0, 0x0, true⟩,
   ⟨0x04018, 0x04018, 4, 0, 0x0, 0x0, 0x0, true⟩,
   ⟨0x0401C, 0x0401C, 4, 0, 0x0, 0x0, 0x0, true⟩,
   ⟨0x04020, 0x04020, 4, 0, 0x0, 0x0, 0x0, true⟩,
   ⟨0x04024, 0x04024, 4, 0, 0x0, 0x0, 0x0, true⟩,
   ⟨0x04100, 0x041FC, 4, 0, 0x3, 0x3, 0x0, false⟩]

/-- The registers of the MG block (R203). -/
def regsMG : List RegDef :=
  [⟨0x05000, 0x05000, 4, 0, 0x1004, 0xFFFF, 0x0, false⟩,
   ⟨0x05004, 0x05004, 4, 0, 0x0, 0x0, 0x7F, false⟩,
   ⟨0x05008, 0x05008, 4, 0, 0x0, 0x0, 0x0, false⟩,
   ⟨0x0500C, 0x0500C, 4, 0, 0x0, 0x0, 0x0, true⟩,
   ⟨0x05010, 0x05010, 4, 0, 0x0, 0x0, 0x0, false⟩,
   ⟨0x05014, 0x05014, 4, 0, 0x0, 0x0, 0x0, true⟩,
   ⟨0x05018, 0x05018, 4, 0, 0x0, 0x0, 0x0, true⟩,
   ⟨0x0501C, 0x0501C, 4, 0, 0x0, 0x0, 0x0, true⟩,
   ⟨0x05020, 0x05020, 4, 0, 0x0, 0x0, 0x0, true⟩,
   ⟨0x05024, 0x05024, 4, 0, 0x0, 0x0, 0x0, true⟩,
   ⟨0x05028, 0x05028, 4, 0, 0x0, 0x0, 0x0, true⟩,
   ⟨0x0502C, 0x0502C, 4, 0, 0x0, 0x0, 0x0, true⟩] ++
  [⟨0x05030, 0x05030, 4, 0, 0x0, 0x0, 0x0, true⟩,
   ⟨0x05034, 0x05034, 4, 0, 0x0, 0x0, 0x0, true⟩]

/-- The registers of the KN block (R227). -/
def regsKN : List RegDef :=
  [⟨0x06000, 0x06000, 4, 0, 0x400020, 0xFF1FFF, 0x0, false⟩,
   ⟨0x06004, 0x06004, 4, 0, 0x0, 0x0, 0xF, false⟩,
   ⟨0x06008, 0x06008, 4, 0, 0x0, 0x0, 0x0, false⟩,
   ⟨0x06010, 0x06010, 4, 0, 0x0, 0x0, 0x0, true⟩,
   ⟨0x06014, 0x06014, 4, 0, 0x0, 0x0, 0x0, true⟩,
   ⟨0x06018, 0x06018, 4, 0, 0x0, 0x0, 0x0, true⟩,
   ⟨0x0601C, 0x0601C, 4, 0, 0x0, 0x0, 0x0, true⟩,
   ⟨0x06020, 0x06020, 4, 0, 0x0, 0x0, 0x0, true⟩,
   ⟨0x06024, 0x06024, 4, 0, 0x0, 0x0, 0x0, true⟩,
   ⟨0x06100, 0x061FC, 4, 0, 0x0, 0x0, 0x0, false⟩]

/-- The registers of the PR block (R246). -/
def regsPR : List RegDef :=
  [⟨0x07000, 0x07000, 4, 0, 0xF0E0080E, 0xFFFFFF1F, 0x0, false⟩,
   ⟨0x07004, 0x07004, 4, 0, 0x100010, 0xFFFFFFFF, 0x0, false⟩,
   ⟨0x07008, 0x07008, 4, 0, 0x40000004, 0xFFFF00FF, 0x0, false⟩,
   ⟨0x0700C, 0x0700C, 4, 0, 0x0, 0x0, 0x3, false⟩,
   ⟨0x07010, 0x07010, 4, 0, 0x0, 0x0, 0x0, true⟩,
   ⟨0x07014, 0x07014, 4, 0, 0x0, 0x0, 0x0, true⟩,
   ⟨0x07018, 0x07018, 4, 0, 0x0, 0x0, 0x0, true⟩,
   ⟨0x0701C, 0x0701C, 4, 0, 0x0, 0x0, 0x0, true⟩,
   ⟨0x07020, 0x07020, 4, 0, 0x0, 0x0, 0x0, true⟩,
   ⟨0x07030, 0x07030, 4, 0, 0x0, 0x0, 0x0, false⟩,
   ⟨0x07034, 0x07034, 4, 0, 0x0, 0x0, 0x0, false⟩,
   ⟨0x07038, 0x07038, 4, 0, 0x0, 0x0, 0x0, false⟩] ++
  [⟨0x07100, 0x071FC, 4, 0, 0x0, 0x0, 0x0, false⟩,
   ⟨0x07200, 0x072FC, 4, 0, 0x0, 0x0, 0x0, false⟩,
   ⟨0x07300, 0x073FC, 4, 0, 0x0, 0x0, 0x0, true⟩,
   ⟨0x07400, 0x074FC, 4, 0, 0x0, 0x0, 0x0, false⟩,
   ⟨0x07500, 0x075FC, 4, 0, 0x0, 0x800003FF, 0x0, false⟩]

/-- The registers of the CQ block (R277). -/
def regsCQ : List RegDef :=
  [⟨0x08000, 0x08000, 4, 1, 0x1000, 0xFFFF, 0x0, false⟩,
   ⟨0x08004, 0x08004, 4, 1, 0x0, 0x0, 0x7F, false⟩,
   ⟨0x08008, 0x08008, 4, 1, 0x0, 0x0, 0x0, false⟩,
   ⟨0x08010, 0x08010, 4, 1, 0x0, 0x80000FFF, 0x0, false⟩,
   ⟨0x08014, 0x08014, 4, 1, 0x0, 0xFFFFFFFF, 0x0, false⟩,
   ⟨0x08018, 0x08018, 4, 1, 0x0, 0x7FFFFFFF, 0x0, false⟩,
   ⟨0x08020, 0x08020, 4, 1, 0x0, 0x0, 0x0, true⟩,
   ⟨0x08024, 0x08024, 4, 1, 0x0, 0x0, 0x0, true⟩,
   ⟨0x08028, 0x08028, 4, 1, 0x0, 0x0, 0x0, true⟩,
   ⟨0x08100, 0x08240, 64, 1, 0x0, 0xFFFFF000, 0x0, false⟩,
   ⟨0x08104, 0x08244, 64, 1, 0x0, 0xFFFFFFFF, 0x0, false⟩,
   ⟨0x08108, 0x08248, 64, 1, 0x0, 0xFFFFF000, 0x0, false⟩] ++
  [⟨0x0810C, 0x0824C, 64, 1, 0x0, 0xFFFFFFFF, 0x0, false⟩,
   ⟨0x08110, 0x08250, 64, 1, 0x808, 0x1F1F, 0x0, false⟩,
   ⟨0x08114, 0x08254, 64, 1, 0x0, 0x1, 0x0, false⟩,
   ⟨0x08118, 0x08258, 64, 1, 0x0, 0x0, 0x0, false⟩,
   ⟨0x0811C, 0x0825C, 64, 1, 0x0, 0x0, 0x0, false⟩,
   ⟨0x08120, 0x08260, 64, 1, 0x0, 0x0, 0x0, false⟩,
   ⟨0x08124, 0x08264, 64, 1, 0x0, 0x0, 0x0, false⟩]

/-- The registers of the RT block (R315). -/
def regsRT : List RegDef :=
  [⟨0x09000, 0x09000, 4, 0, 0xB806, 0xFFFF, 0x0, false⟩,
   ⟨0x09004, 0x09004, 4, 0, 0x0, 0x0, 0x0, false⟩,
   ⟨0x09008, 0x09008, 4, 0, 0x7020503, 0xFFFFFFFF, 0x0, false⟩,
   ⟨0x0900C, 0x0900C, 4, 0, 0x8000100, 0xFFFFFFFF, 0x0, false⟩,
   ⟨0x09010, 0x09010, 4, 0, 0x10001002, 0xFFFFFF0F, 0x0, false⟩,
   ⟨0x09014, 0x09014, 4, 0, 0xA221A30, 0x3F3F3F3F, 0x0, false⟩,
   ⟨0x09018, 0x09018, 4, 0, 0x0, 0x0, 0x1, false⟩,
   ⟨0x09020, 0x0903C, 4, 0, 0x10000000, 0xF0030000, 0x0, false⟩,
   ⟨0x09040, 0x0905C, 4, 0, 0x0, 0x0, 0x0, false⟩,
   ⟨0x09060, 0x09060, 4, 0, 0x0, 0x0, 0x0, true⟩,
   ⟨0x09064, 0x09064, 4, 0, 0x0, 0x0, 0x0, true⟩,
   ⟨0x09068, 0x09068, 4, 0, 0x0, 0x0, 0x0, true⟩] ++
  [⟨0x0906C, 0x0906C, 4, 0, 0x0, 0x0, 0x0, true⟩,
   ⟨0x09070, 0x09070, 4, 0, 0x0, 0x0, 0x0, true⟩,
   ⟨0x09100, 0x09100, 4, 1, 0x0, 0x1FFF, 0x0, false⟩,
   ⟨0x09104, 0x09104, 4, 1, 0x0, 0x0, 0x0, false⟩,
   ⟨0x09108, 0x09108, 4, 1, 0x0, 0x0, 0x10000000, false⟩,
   ⟨0x09110, 0x09110, 4, 1, 0x0, 0xFFFF, 0x0, false⟩,
   ⟨0x09114, 0x09114, 4, 1, 0x0, 0x0, 0x0, false⟩,
   ⟨0x09118, 0x09118, 4, 1, 0x0, 0x0, 0xE, false⟩,
   ⟨0x09120, 0x0913C, 4, 1, 0x0, 0xFFFFFFFF, 0x0, false⟩,
   ⟨0x09140, 0x09140, 4, 1, 0x0, 0x0, 0x0, false⟩,
   ⟨0x09144, 0x09144, 4, 1, 0x0, 0x3F, 0x0, false⟩,
   ⟨0x09160, 0x0917C, 4, 1, 0x0, 0x0, 0x0, false⟩]

/-- The registers of the SHP block (R333). -/
def regsSHP : List RegDef :=
  [⟨0x0A000, 0x0A000, 4, 0, 0x0, 0x0, 0x0, false⟩,
   ⟨0x0A004, 0x0A004, 4, 0, 0x101, 0x0, 0x0, false⟩,
   ⟨0x0A008, 0x0A008, 4, 0, 0x1, 0x0, 0x0, false⟩,
   ⟨0x0A00C, 0x0A00C, 4, 0, 0x0, 0x0, 0x7, false⟩,
   ⟨0x0A020, 0x0A020, 4, 0, 0x0, 0x3F0F, 0x0, false⟩,
   ⟨0x0A024, 0x0A024, 4, 0, 0x0, 0x0, 0x0, false⟩,
   ⟨0x0A030, 0x0A03C, 4, 0, 0x0, 0xFFFFFFFF, 0x0, false⟩,
   ⟨0x0A100, 0x0A10C, 4, 1, 0x0, 0x0, 0x0, true⟩,
   ⟨0x0A110, 0x0A11C, 4, 1, 0x0, 0x0, 0x0, true⟩,
   ⟨0x0A120, 0x0A120, 4, 1, 0x0, 0x0, 0x0, true⟩,
   ⟨0x0A124, 0x0A124, 4, 1, 0x0, 0x0, 0x0, true⟩,
   ⟨0x0A400, 0x0A43C, 4, 0, 0x7F7F7F7F, 0x0, 0x0, false⟩] ++
  [⟨0x0A800, 0x0ABFC, 4, 0, 0x7F7F7F7F, 0x0, 0x0, false⟩]

/-- The registers of the PT block (R357). -/
def regsPT : List RegDef :=
  [⟨0x0B000, 0x0B000, 4, 0, 0x0, 0x0, 0x0, false⟩,
   ⟨0x0B004, 0x0B004, 4, 0, 0x100, 0x0, 0x0, false⟩,
   ⟨0x0B008, 0x0B008, 4, 0, 0x0, 0x0, 0x3, false⟩,
   ⟨0x0B00C, 0x0B00C, 4, 0, 0x0, 0x0, 0x0, false⟩,
   ⟨0x0B010, 0x0B010, 4, 0, 0x0, 0x0, 0x0, false⟩,
   ⟨0x0B014, 0x0B014, 4, 0, 0x0, 0x0, 0x0, false⟩,
   ⟨0x0B020, 0x0B03C, 4, 0, 0x0, 0x0, 0x0, false⟩,
   ⟨0x0B040, 0x0B05C, 4, 0, 0x0, 0x0, 0x0, false⟩,
   ⟨0x0B060, 0x0B09C, 4, 0, 0x0, 0x0, 0x0, false⟩,
   ⟨0x0B0A0, 0x0B0DC, 4, 0, 0x0, 0x0, 0x0, false⟩,
   ⟨0x0B100, 0x0B1FC, 4, 0, 0x0, 0x0, 0x0, false⟩,
   ⟨0x0B200, 0x0B200, 4, 0, 0x0, 0x3F, 0x0, false⟩] ++
  [⟨0x0B220, 0x0B25C, 4, 0, 0x0, 0x0, 0x0, false⟩,
   ⟨0x0B300, 0x0B300, 4, 2, 0x0, 0x0, 0x0, false⟩,
   ⟨0x0B304, 0x0B304, 4, 2, 0x0, 0x0, 0x0, false⟩,
   ⟨0x0B320, 0x0B33C, 4, 2, 0x0, 0xFFFFFFFF, 0x0, false⟩,
   ⟨0x0B400, 0x0B5BC, 4, 2, 0x0, 0x0, 0x0, false⟩,
   ⟨0x0B600, 0x0B600, 4, 2, 0x0, 0x3F, 0x0, false⟩,
   ⟨0x0B620, 0x0B63C, 4, 2, 0x0, 0x0, 0x0, false⟩,
   ⟨0x0B700, 0x0B700, 4, 2, 0x0, 0x0, 0x0, true⟩]

/-- The registers of the FX block (R390). -/
def regsFX : List RegDef :=
  [⟨0x0C000, 0x0C000, 4, 0, 0x11000, 0x1FFFF, 0x0, false⟩,
   ⟨0x0C004, 0x0C004, 4, 0, 0x0, 0x0, 0x0, false⟩,
   ⟨0x0C008, 0x0C008, 4, 0, 0x0, 0x0, 0x1F, false⟩,
   ⟨0x0C00C, 0x0C00C, 4, 0, 0x1000, 0xFFFF, 0x0, false⟩,
   ⟨0x0C010, 0x0C010, 4, 0, 0x0, 0x0, 0x0, false⟩,
   ⟨0x0C014, 0x0C014, 4, 0, 0x0, 0x0, 0xC, false⟩,
   ⟨0x0C018, 0x0C018, 4, 0, 0x0, 0x0, 0x0, false⟩,
   ⟨0x0C01C, 0x0C01C, 4, 0, 0x0, 0x0, 0x0, false⟩,
   ⟨0x0C020, 0x0C020, 4, 0, 0x0, 0xFF, 0x0, false⟩,
   ⟨0x0C024, 0x0C024, 4, 0, 0x0, 0x1FFFF, 0x0, false⟩,
   ⟨0x0C028, 0x0C028, 4, 0, 0x0, 0xFFFFFFFF, 0x0, false⟩,
   ⟨0x0C030, 0x0C030, 4, 0, 0x0, 0x0, 0x0, true⟩] ++
  [⟨0x0C034, 0x0C034, 4, 0, 0x0, 0x0, 0x0, true⟩,
   ⟨0x0C038, 0x0C038, 4, 0, 0x0, 0x0, 0x0, true⟩,
   ⟨0x0C03C, 0x0C03C, 4, 0, 0x0, 0x0, 0x0, true⟩,
   ⟨0x0C040, 0x0C040, 4, 0, 0x0, 0x0, 0x0, true⟩,
   ⟨0x0C044, 0x0C044, 4, 0, 0x0, 0x0, 0x0, true⟩,
   ⟨0x0C048, 0x0C048, 4, 0, 0x0, 0x0, 0x0, true⟩,
   ⟨0x0C04C, 0x0C04C, 4, 0, 0x0, 0x0, 0x0, true⟩,
   ⟨0x0C050, 0x0C050, 4, 0, 0x0, 0x0, 0x0, true⟩,
   ⟨0x0C054, 0x0C054, 4, 0, 0x0, 0x0, 0x0, true⟩,
   ⟨0x0C058, 0x0C058, 4, 0, 0x0, 0x0, 0x0, true⟩,
   ⟨0x0C05C, 0x0C05C, 4, 0, 0x0, 0x0, 0x0, true⟩,
   ⟨0x0C080, 0x0C0BC, 4, 0, 0x0, 0x0, 0x0, false⟩] ++
  [⟨0x0C100, 0x0C100, 4, 1, 0x0, 0xFFFFFFFF, 0x0, false⟩,
   ⟨0x0C104, 0x0C104, 4, 1, 0x0, 0xFFFFFFFF, 0x0, false⟩,
   ⟨0x0C108, 0x0C108, 4, 1, 0x0, 0xFFFFFF, 0x0, false⟩,
   ⟨0x0C10C, 0x0C10C, 4, 1, 0x0, 0x0, 0x0, false⟩,
   ⟨0x0C110, 0x0C110, 4, 1, 0x0, 0x0, 0x3, false⟩,
   ⟨0x0C120, 0x0C12C, 4, 1, 0x0, 0x0, 0x0, false⟩,
   ⟨0x0C140, 0x0C140, 4, 1, 0x0, 0xFFFF, 0x0, false⟩,
   ⟨0x0C144, 0x0C144, 4, 1, 0x0, 0xFFFFFFFF, 0x0, false⟩,
   ⟨0x0C148, 0x0C148, 4, 1, 0x0, 0x800003FF, 0x0, false⟩,
   ⟨0x0C14C, 0x0C14C, 4, 1, 0x0, 0x0, 0x0, false⟩,
   ⟨0x0C150, 0x0C150, 4, 1, 0x0, 0x0, 0x0, false⟩]

/-- The registers of the LS block (R416). -/
def regsLS : List RegDef :=
  [⟨0x0D000, 0x0D000, 4, 0, 0x0, 0x0, 0x0, false⟩,
   ⟨0x0D004, 0x0D004, 4, 0, 0x0, 0x0, 0x0, false⟩,
   ⟨0x0D008, 0x0D008, 4, 0, 0x0, 0x3, 0x0, false⟩,
   ⟨0x0D00C, 0x0D00C, 4, 0, 0x0, 0x0, 0x1, false⟩,
   ⟨0x0D010, 0x0D010, 4, 0, 0x0, 0x0, 0x0, false⟩,
   ⟨0x0D014, 0x0D014, 4, 0, 0x0, 0x0, 0x0, false⟩,
   ⟨0x0D018, 0x0D018, 4, 0, 0x0, 0x0, 0x0, false⟩,
   ⟨0x0D01C, 0x0D01C, 4, 0, 0x0, 0x0, 0x0, false⟩,
   ⟨0x0D020, 0x0D020, 4, 0, 0x0, 0x0, 0x0, false⟩,
   ⟨0x0D040, 0x0D040, 4, 0, 0x0, 0x1FFFFFF, 0x0, false⟩,
   ⟨0x0D044, 0x0D044, 4, 0, 0x0, 0x0, 0x0, false⟩,
   ⟨0x0D048, 0x0D048, 4, 0, 0x0, 0x0, 0x0, false⟩] ++
  [⟨0x0D060, 0x0D060, 4, 0, 0x0, 0x0, 0x0, true⟩,
   ⟨0x0D064, 0x0D064, 4, 0, 0x0, 0x0, 0x0, true⟩,
   ⟨0x0D068, 0x0D068, 4, 0, 0x0, 0x0, 0x0, true⟩,
   ⟨0x0D100, 0x0D100, 4, 2, 0x0, 0x0, 0x0, false⟩,
   ⟨0x0D104, 0x0D104, 4, 2, 0x0, 0x0, 0x0, false⟩]

/-- The registers of the PW block (R437). -/
def regsPW : List RegDef :=
  [⟨0x0E000, 0x0E000, 4, 0, 0x7080004, 0xFFFF0007, 0x0, false⟩,
   ⟨0x0E004, 0x0E004, 4, 0, 0x364605C, 0xFFFFFFF, 0x0, false⟩,
   ⟨0x0E008, 0x0E008, 4, 0, 0x0, 0x0, 0x100, false⟩,
   ⟨0x0E00C, 0x0E00C, 4, 0, 0x0, 0x0, 0xFF, false⟩,
   ⟨0x0E010, 0x0E010, 4, 0, 0xFF, 0xFF, 0x0, false⟩,
   ⟨0x0E014, 0x0E014, 4, 0, 0x0, 0x0, 0x0, false⟩,
   ⟨0x0E018, 0x0E018, 4, 0, 0x0, 0x0, 0x0, true⟩,
   ⟨0x0E040, 0x0E078, 4, 0, 0x0, 0x0, 0x0, false⟩]

/-- The registers of the BW block (R443). -/
def regsBW : List RegDef :=
  [⟨0x0F000, 0x0F03C, 4, 1, 0x0, 0x8FFFFFFF, 0x0, false⟩,
   ⟨0x0F040, 0x0F040, 4, 1, 0x0, 0x0, 0x1, false⟩,
   ⟨0x0F044, 0x0F044, 4, 1, 0x0, 0x0, 0x0, true⟩]

/-- The MSI-X table and PBA (R441): the layout and the reset values of the PCI Express Base Specification, for the four
vectors that every function has and the four more of a VF (log entry 49). -/
def regsMSIX : List RegDef :=
  [⟨0x10000, 0x10030, 16, 2, 0, 0xFFFFFFFC, 0, false⟩,
   ⟨0x10004, 0x10034, 16, 2, 0, 0xFFFFFFFF, 0, false⟩,
   ⟨0x10008, 0x10038, 16, 2, 0, 0xFFFFFFFF, 0, false⟩,
   ⟨0x1000C, 0x1003C, 16, 2, 1, 1, 0, false⟩,
   ⟨0x10040, 0x10070, 16, 1, 0, 0xFFFFFFFC, 0, false⟩,
   ⟨0x10044, 0x10074, 16, 1, 0, 0xFFFFFFFF, 0, false⟩,
   ⟨0x10048, 0x10078, 16, 1, 0, 0xFFFFFFFF, 0, false⟩,
   ⟨0x1004C, 0x1007C, 16, 1, 1, 1, 0, false⟩]

/-- The registers of the block that holds an offset. -/
def regBlock (off : Nat) : List RegDef :=
  match off / 4096 with
  | 0 => regsFT
  | 1 => regsMT
  | 2 => regsPG
  | 3 => regsFL
  | 4 => regsAT
  | 5 => regsMG
  | 6 => regsKN
  | 7 => regsPR
  | 8 => regsCQ
  | 9 => regsRT
  | 10 => regsSHP
  | 11 => regsPT
  | 12 => regsFX
  | 13 => regsLS
  | 14 => regsPW
  | 15 => regsBW
  | 16 => regsMSIX
  | _ => []

/-- The register at an offset, if its block lists one. -/
def regDef (off : Nat) : Option RegDef :=
  (regBlock off).find? fun d => decide (d.first ≤ off ∧ off ≤ d.last) && (off - d.first) % d.step == 0

/-- The function `fn` (0 = PF0, k = VFk) has the register (R441, R442). -/
def RegDef.inFn (d : RegDef) (fn : Nat) : Bool := if fn = 0 then d.dom != 1 else d.dom != 0

/-- Place of a register in the register file: function and BAR0 offset. -/
def regKey (fn off : Nat) : Nat := fn * 0x20000 + off

/-- Reset value of a place of the register file. -/
def regReset (k : Nat) : Word :=
  match regDef (k % 0x20000) with
  | some d => if d.inFn (k / 0x20000) then d.reset else 0
  | none => 0

end Sys2Proof.Machine
end

