-- ==== Sys2Proof/Machine/Ops.lean ====
section
/-!
DEFINITION. The named operations over the state: registers, counters, what is emitted, free values, bytes of memory,
complement pairs, fabric time, and the lookups that every engine uses.
-/

namespace Sys2Proof.Machine

/-- What an unlisted byte of memory reads as (log entry 3). -/
def memDefault : Nat → Byte := fun _ => 0

/-- The stored value of a register. -/
def State.reg (s : State) (fn off : Nat) : Word := tget regReset s.regs (regKey fn off)

/-- Store a register. -/
def State.setReg (s : State) (fn off : Nat) (v : Word) : State :=
  { s with regs := tput regReset s.regs (regKey fn off) v }

/-- A field of a register. -/
def State.regF (s : State) (fn off lo w : Nat) : Nat := getF (s.reg fn off) lo w

/-- A bit of a register. -/
def State.regB (s : State) (fn off i : Nat) : Bool := getB (s.reg fn off) i

/-- Set a bit of a register. -/
def State.setRegB (s : State) (fn off i : Nat) (b : Bool) : State := s.setReg fn off (setB (s.reg fn off) i b)

/-- Set a field of a register. -/
def State.setRegF (s : State) (fn off lo w x : Nat) : State := s.setReg fn off (setF (s.reg fn off) lo w x)

/-- Add to a saturating counter. -/
def State.count (s : State) (fn off n : Nat) : State :=
  s.setReg fn off (BitVec.ofNat 32 (min maxCount ((s.reg fn off).toNat + n)))

/-- Raise a high-water mark. -/
def State.hwm (s : State) (fn off v : Nat) : State :=
  s.setReg fn off (BitVec.ofNat 32 (max (min maxCount v) (s.reg fn off).toNat))

/-- Emit something. -/
def State.emit (s : State) (o : Out) : State := { s with out := o :: s.out }

/-- The next free value of `w` bits. -/
def State.fresh (s : State) (w : Nat) : BitVec w := Config.freeValue w s.draws

/-- The state after a free value was drawn. -/
def State.drawn (s : State) : State := { s with draws := s.draws + 1 }

/-- Milestone number (R7). -/
def State.ms (s : State) : Nat := s.ft.now.toNat / 2048

/-- Nanosecond within the milestone (R7). -/
def State.ns (s : State) : Nat := s.ft.now.toNat % 2048

/-- A valid pair of a value (R63). -/
def pairOf {n : Nat} (v : BitVec n) : Pair n := ⟨v, ~~~v⟩

/-- A pair is valid if and only if every bit of value xor complement is 1 (R63). -/
def Pair.ok {n : Nat} (p : Pair n) : Bool := p.val ^^^ p.cmp == BitVec.allOnes n

/-- The value of a valid pair. -/
def Pair.get? {n : Nat} (p : Pair n) : Option (BitVec n) := if p.ok then some p.val else none

/-- A pair with one bit of its value flipped. -/
def Pair.upset {n : Nat} (p : Pair n) : Pair n := ⟨p.val ^^^ 1, p.cmp⟩

/-- A complement fault is counted and flagged (R65), and its pair awaits the re-read of R366. -/
def State.cplFault (s : State) (r : RecRef) : State :=
  let s := (s.count 0 Reg.MT_CPL_FAULT_CNT 1).setRegB 0 Reg.MT_ERR_STAT 1 true
  if s.suspects.any (·.what = r) then s else { s with suspects := ⟨r, s.ft.now.toNat⟩ :: s.suspects }

/-! Bytes of memory. -/

/-- The native address of a byte: compatibility addresses decode by R46, all others stand for themselves. -/
def native (a : Nat) : Nat :=
  if 0x030000000000 ≤ a ∧ a < 0x050000000000 then
    let o := a - 0x030000000000
    let stack := o / 2 ^ 37
    let w := o % 2 ^ 37
    let g := w / 256
    let pc := (g % 32) ^^^ ((g / 32) % 32)
    let pcaddr := (g / 32) * 256 + w % 256
    0x010000000000 + (stack * 32 + pc) * 2 ^ 32 + pcaddr
  else a

/-- The compatibility address of a native hot-tier byte (R46). -/
def compatOf (a : Nat) : Nat :=
  if 0x010000000000 ≤ a ∧ a < 0x030000000000 then
    let off := a - 0x010000000000
    let col := off / 2 ^ 32
    let pcaddr := off % 2 ^ 32
    let hi := pcaddr / 256
    let lo := (col % 32) ^^^ (hi % 32)
    0x030000000000 + (col / 32) * 2 ^ 37 + (hi * 32 + lo) * 256 + pcaddr % 256
  else a

/-- A byte of memory at a node address. -/
def State.byte (s : State) (a : Nat) : Byte := tget memDefault s.mem (native a)

/-- Bytes `[a, a + n)`. -/
def State.bytes (s : State) (a n : Nat) : List Byte := (List.range n).map fun i => s.byte (a + i)

/-- Store bytes from address `a` on, into a memory. -/
def storeMem (m : List Host.Cell) (a : Nat) : List Byte → List Host.Cell
  | [] => m
  | b :: bs => storeMem (tput memDefault m (native a) b) (a + 1) bs

/-- Store bytes from address `a` on. -/
def State.store (s : State) (a : Nat) (bs : List Byte) : State := { s with mem := storeMem s.mem a bs }

/-- Hot tier, by native address. -/
def isHot (a : Nat) : Bool := decide (0x010000000000 ≤ a ∧ a < 0x030000000000)

/-- Flue column of a native hot-tier address (R45). -/
def columnOf (a : Nat) : Nat := (a - 0x010000000000) / 2 ^ 32

/-- Row number, over all columns, of a native hot-tier address (R107). -/
def rowOf (a : Nat) : Nat := (a - 0x010000000000) / 1024

/-- First native address of a row. -/
def rowAddr (r : Nat) : Nat := 0x010000000000 + r * 1024

/-- Column of a row number. -/
def rowColumn (r : Nat) : Nat := r / 4194304

/-- Byte ranges meet. -/
def meets (a n b m : Nat) : Bool := decide (a < b + m ∧ b < a + n)

/-- A unit of coded storage is a 64-bit word of SRAM, or a 32-byte sector (R361); its number is that of its first
8-byte word, by native address. -/
def unitOf (a : Nat) : Nat := if a < 0x60000000 then a / 8 else a / 32 * 4

/-- First address of a unit. -/
def unitAddr (k : Nat) : Nat := 8 * k

/-- Bytes of a unit. -/
def unitBytes (k : Nat) : Nat := if unitAddr k < 0x60000000 then 8 else 32

/-- The unit `k` holds a byte of the range `[a, a + n)`, in either decoding (R46). -/
def sectorIn (a n k : Nat) : Bool :=
  meets a n (unitAddr k) (unitBytes k) || (isHot (unitAddr k) && meets a n (compatOf (unitAddr k)) 32)

/-- The range `[a, a + n)` covers the unit `k` whole, in either decoding (R46). -/
def sectorWhole (a n k : Nat) : Bool :=
  decide (a ≤ unitAddr k ∧ unitAddr k + unitBytes k ≤ a + n) ||
  (isHot (unitAddr k) && decide (a ≤ compatOf (unitAddr k) ∧ compatOf (unitAddr k) + 32 ≤ a + n))

/-- The native row `r` holds a byte of the range. A row is four granules of 256 bytes. -/
def rowIn (a n r : Nat) : Bool :=
  meets a n (rowAddr r) 1024 ||
  ((List.range 4).any fun i => meets a n (compatOf (rowAddr r + 256 * i)) 256)

/-- The native pieces of a node-address range, cut at 256-byte granules. -/
def pieces (a n : Nat) : List (Nat × Nat) :=
  if n = 0 then [] else
  (List.range ((a + n - 1) / 256 - a / 256 + 1)).map fun i =>
    let x := max a ((a / 256 + i) * 256)
    (native x, min (a + n) ((a / 256 + i + 1) * 256) - x)

/-- Two node-address ranges share storage, after decoding by R46 (R61, R118). -/
def sharesStorage (a n b m : Nat) : Bool :=
  let compat (x : Nat) : Bool := decide (0x030000000000 ≤ x ∧ x < 0x050000000000)
  if !compat a && !compat b then meets a n b m
  else (pieces a n).any fun x => (pieces b m).any fun y => meets x.1 x.2 y.1 y.2

/-- Latent error state of a sector. -/
def State.eccAt (s : State) (k : Nat) : Ecc := tget (fun _ => Ecc.clean) s.ecc k

/-- Set the latent error state of a sector. -/
def State.setEcc (s : State) (k : Nat) (e : Ecc) : State :=
  { s with ecc := tput (fun _ => Ecc.clean) s.ecc k e }

/-- Count and flag a correctable or uncorrectable error found in the store of a native address (R128, R458). -/
def State.countEcc (s : State) (a : Nat) (ue : Bool) : State :=
  if isHot a then
    if ue then (s.count 0 Reg.FL_UE_CNT 1).setRegB 0 Reg.FL_ERR_STAT 1 true
    else (s.count 0 Reg.FL_CE_CNT 1).setRegB 0 Reg.FL_ERR_STAT 0 true
  else if 0x050000000000 ≤ a then
    if ue then (s.count 0 Reg.FX_WARM_UE_CNT 1).setRegB 0 Reg.FX_ERR_STAT 4 true
    else (s.count 0 Reg.FX_WARM_CE_CNT 1).setRegB 0 Reg.FX_ERR_STAT 3 true
  else
    if ue then (s.count 0 Reg.FX_SRAM_UE_CNT 1).setRegB 0 Reg.FX_ERR_STAT 4 true
    else (s.count 0 Reg.FX_SRAM_CE_CNT 1).setRegB 0 Reg.FX_ERR_STAT 3 true

/-- The next row of a scrub, while its pair is valid (R367). -/
def Scrub.next (x : Scrub) : Nat := match x.row.get? with | some v => v.toNat | none => 0

/-- The next row that a column scrubs; 512 and 513 stand for the warm tier and the firebox (R369). -/
def State.scrubRowOf (s : State) (c : Nat) : Nat := ((s.scrub.find? fun x => x.1 == c).map fun x => x.2.next).getD 0

/-- A row is to be remapped in the next scrub burst of its pseudo-channel (R363). -/
def State.wantRemap (s : State) (r : Nat) : State :=
  if s.remapDue.contains r then s else { s with remapDue := s.remapDue ++ [r] }

/-- A corrected error of a row is noted under the pass that its column is in; the second within three passes has the row
remapped (R363). -/
def State.noteCorrected (s : State) (r : Nat) : State :=
  let pass := s.scrubRowOf (rowColumn r) / 4194304
  let s : State := { s with corrected := s.corrected ++ [(r, pass)] }
  if 2 ≤ (s.corrected.filter fun c => c.1 == r && decide (pass < c.2 + 3)).length then s.wantRemap r else s

/-- A reader meets the latent error of one unit. A corrected hot-tier sector awaits write-back (R128); a corrected unit of
another store is written back at once (R458). Errors of a hot-tier row count for its remapping (R363). -/
def State.meetSector (s : State) (k : Nat) : State :=
  match s.eccAt k with
  | .correctable =>
    let s := s.countEcc (unitAddr k) false
    if isHot (unitAddr k) then (s.setEcc k .awaiting).noteCorrected (rowOf (unitAddr k)) else s.setEcc k .clean
  | .uncorrectable =>
    let s := s.countEcc (unitAddr k) true
    if isHot (unitAddr k) then s.wantRemap (rowOf (unitAddr k)) else s
  | _ => s

/-- Sectors of a range whose latent error a reader meets. -/
def State.hitSectors (s : State) (a n : Nat) : List Nat :=
  (s.ecc.map (·.1)).filter fun k => sectorIn a n k

/-- The state after a reader of a range has met its latent errors (R128, R458). -/
def State.scanned (s : State) (a n : Nat) : State := (s.hitSectors a n).foldl State.meetSector s

/-- A range holds an uncorrectable error. -/
def State.hasUE (s : State) (a n : Nat) : Bool :=
  (s.hitSectors a n).any fun k => s.eccAt k == .uncorrectable

/-- First byte of the lowest sector of a range with an uncorrectable error. -/
def State.firstUE (s : State) (a n : Nat) : Option Nat :=
  ((s.hitSectors a n).filter fun k => s.eccAt k == .uncorrectable).head?.map unitAddr

/-- A write to a range ends the waits and errors of the sectors that it covers whole (R127, R128). -/
def State.clearEcc (s : State) (a n : Nat) : State :=
  { s with ecc := s.ecc.filter fun e => !(sectorIn a n e.1 && e.2 != .uncorrectable) && !sectorWhole a n e.1 }

/-- Rows of hot storage that a node-address range touches. -/
def rowsOf (a n : Nat) : List Nat :=
  (((pieces a n).filter fun p => isHot p.1).map fun p => rowOf p.1).dedup

/-- An activation of a row (R370). -/
def State.activate (s : State) (r : Nat) : State :=
  let n := tget (fun _ => 0) s.acts r + 1
  let s : State := { s with acts := tput (fun _ => 0) s.acts r n }
  if n = s.regF 0 Reg.FX_WEAR 0 16 then { s with trr := s.trr ++ [r] }.count 0 Reg.FX_TRR_CNT 1 else s

/-- An access opens the rows of a range, each once (R370; log entry 55). -/
def State.opens (s : State) (a n : Nat) : State := (rowsOf a n).foldl State.activate s

/-- 64-byte granules, by native address, of a range of node addresses. -/
def granules64 (a n : Nat) : List Nat :=
  if n = 0 then [] else
  (List.range ((a + n - 1) / 64 - a / 64 + 1)).map fun i => native ((a / 64 + i) * 64)

/-- A write of a command: the bytes, and the earlier images that a host read may still return until a FLUSH covers the
write (R136, R268); `wide` marks those of a HAUL (R62). -/
def State.putEngine (s : State) (wide : Bool) (part cmd a : Nat) (bs : List Byte) : State :=
  let old := (granules64 a bs.length).map fun g => (⟨g, wide, s.bytes g 64, part, cmd, none⟩ : Stale)
  { (s.clearEcc a bs.length).store a bs with stale := old ++ s.stale }

/-- An engine write of a command. -/
def State.engineWrite (s : State) (part cmd a : Nat) (bs : List Byte) : State := s.putEngine false part cmd a bs

/-! Column scratch (R114, R115), which has no address. -/

/-- A job context that holds nothing. -/
def JobCtx.clear : JobCtx := ⟨none, [], [], [], [], [], []⟩

/-- Cleared scratch. -/
def Scratch.clear : Scratch := ⟨JobCtx.clear, JobCtx.clear, [], []⟩

/-- The scratch of a column. -/
def State.scratchOf (s : State) (c : Nat) : Scratch := tget (fun _ => Scratch.clear) s.scratch c

/-- Store the scratch of a column. -/
def State.setScratch (s : State) (c : Nat) (x : Scratch) : State :=
  { s with scratch := tput (fun _ => Scratch.clear) s.scratch c x }

/-- Latent error of a word of scratch. -/
def State.scratchEccAt (s : State) (c w : Nat) : Ecc := tget (fun _ => Ecc.clean) s.scratchEcc (32768 * c + w)

/-- Set the latent error of a word of scratch. -/
def State.setScratchEcc (s : State) (c w : Nat) (e : Ecc) : State :=
  { s with scratchEcc := tput (fun _ => Ecc.clean) s.scratchEcc (32768 * c + w) e }

/-- Clear the scratch of the columns that satisfy a test, with its errors. -/
def State.clearScratch (s : State) (p : Nat → Bool) : State :=
  { s with scratch := tkeep (fun c => !p c) s.scratch, scratchEcc := tkeep (fun k => !p (k / 32768)) s.scratchEcc }

/-- A region of the scratch of a column holds a word with an uncorrectable error: words `[lo, hi)`. -/
def State.scratchUE (s : State) (c lo hi : Nat) : Bool :=
  s.scratchEcc.any fun e => e.1 / 32768 == c && decide (lo ≤ e.1 % 32768 ∧ e.1 % 32768 < hi) && e.2 == .uncorrectable

/-- The column reads words `[lo, hi)` of its scratch: their latent errors are counted, and a correctable one is corrected
in place (R458). -/
def State.scratchRead (s : State) (c lo hi : Nat) : State :=
  (s.scratchEcc.filter fun e => e.1 / 32768 == c && decide (lo ≤ e.1 % 32768 ∧ e.1 % 32768 < hi)).foldl
    (fun (s : State) (e : Nat × Ecc) =>
      if e.2 == .uncorrectable then (s.count 0 Reg.FX_SRAM_UE_CNT 1).setRegB 0 Reg.FX_ERR_STAT 4 true
      else ((s.count 0 Reg.FX_SRAM_CE_CNT 1).setRegB 0 Reg.FX_ERR_STAT 3 true).setScratchEcc c (e.1 % 32768) .clean) s

/-- The column writes words `[lo, hi)` of its scratch: their latent errors end. -/
def State.scratchWrite (s : State) (c lo hi : Nat) : State :=
  { s with scratchEcc := tkeep (fun k => !(k / 32768 == c && decide (lo ≤ k % 32768 ∧ k % 32768 < hi))) s.scratchEcc }

/-- First word of each region of scratch, in the order of R114: the job contexts, ROW staging and the check region. -/
def scratchCtx (i : Nat) : Nat := i * 14336
def scratchRow : Nat := 28672
def scratchCheck : Nat := 30720

/-! The turns of the bursts of a column (R133). -/

/-- The turns of a column. -/
def State.arb (s : State) (c : Nat) : Arb := tget (fun _ => ⟨0, 0⟩) s.arbs c

/-- Set the turns of a column. -/
def State.setArb (s : State) (c : Nat) (x : Arb) : State := { s with arbs := tput (fun _ => ⟨0, 0⟩) s.arbs c x }

/-! Lookups and updates of the lists of the state. -/

/-- Update the entry of a numbered table. -/
def State.ring (s : State) (part eng : Nat) : Ring :=
  tget (fun _ => ⟨.disabled, 0, 0, 0, 0⟩) s.rings (part * 8 + eng)

/-- Store a ring pair. -/
def State.setRing (s : State) (part eng : Nat) (r : Ring) : State :=
  { s with rings := tput (fun _ => ⟨.disabled, 0, 0, 0, 0⟩) s.rings (part * 8 + eng) r }

/-- The taken command of a number. -/
def State.cmd? (s : State) (id : Nat) : Option Cmd := s.cmds.find? fun c => c.id == id

/-- Change the taken command of a number. -/
def State.setCmd (s : State) (id : Nat) (f : Cmd → Cmd) : State :=
  { s with cmds := s.cmds.map fun c => if c.id = id then f c else c }

/-- The key of a queue. -/
def queueKey : Queue → Nat
  | .host p e => p * 8 + e
  | .inbound c e => 0x1000 + 8 * c + e

/-- A queue becomes ready, and takes its place behind the ready queues (R249; log entry 84). -/
def State.queueReady (s : State) (k : Nat) : State := { s with turns := s.turns.filter (· != k) ++ [k] }

/-- A command starts: the turn of its queue is over, and a queue with another ready command goes to the end (R249). -/
def State.served (s : State) (id : Nat) : State :=
  match s.cmd? id with
  | some c =>
    if c.phase ≠ .ready then s
    else if s.cmds.any fun x => x.id != id && x.phase == .ready && queueKey x.q == queueKey c.q then
      s.queueReady (queueKey c.q)
    else { s with turns := s.turns.filter (· != queueKey c.q) }
  | none => s

/-- End the body of a command with a status and a result (R252 step 3). A body that has ended keeps its outcome. -/
def State.endCmd (s : State) (id status : Nat) (result : Word) : State :=
  (s.served id).setCmd id fun c => if c.phase = .ended then c else { c with phase := .ended, status := status, result := result }

/-- A command enters step 3 of R252. -/
def State.runCmd (s : State) (id : Nat) : State := (s.served id).setCmd id fun c => { c with phase := .running }

/-- The request of a number. -/
def State.req? (s : State) (id : Nat) : Option Req := s.reqs.find? fun r => r.id == id

/-- Change the request of a number. -/
def State.setReq (s : State) (id : Nat) (f : Req → Req) : State :=
  { s with reqs := s.reqs.map fun r => if r.id = id then f r else r }

/-- The MERGE of a number. -/
def State.merge? (s : State) (id : Nat) : Option Merge := s.merges.find? fun m => m.id == id

/-- Change the MERGE of a number. -/
def State.setMerge (s : State) (id : Nat) (f : Merge → Merge) : State :=
  { s with merges := s.merges.map fun m => if m.id = id then f m else m }

/-- The KINDLE of a command. -/
def State.kindle? (s : State) (id : Nat) : Option Kindle := s.kindles.find? fun k => k.cmd == id

/-- Change the KINDLE of a command. -/
def State.setKindle (s : State) (id : Nat) (f : Kindle → Kindle) : State :=
  { s with kindles := s.kindles.map fun k => if k.cmd = id then f k else k }

/-- The HAUL of a command. -/
def State.haul? (s : State) (id : Nat) : Option Haul := s.hauls.find? fun h => h.cmd == id

/-- Change the HAUL of a command. -/
def State.setHaul (s : State) (id : Nat) (f : Haul → Haul) : State :=
  { s with hauls := s.hauls.map fun h => if h.cmd = id then f h else h }

/-- The directory entry of a key (R82). -/
def State.dir? (s : State) (k : DirKey) : Option Dir := s.dir.find? fun d => d.key == k

/-- Change the directory entry of a key. -/
def State.setDir (s : State) (k : DirKey) (f : Dir → Dir) : State :=
  { s with dir := s.dir.map fun d => if d.key = k then f d else d }

/-- A connection entry never written: IDLE and unclaimed, all zero (R448; log entry 4). -/
def connNone : Conn :=
  { owner := none, entry := List.replicate 64 0, paths := [], gen := 0, st := .idle, reason := 0, since := 0,
    attempts := 0, peerConn := 0, peerNode := 0, pcode := 0, peerEmberBase := 0, peerEmberUnits := 0, peerTc1 := 0,
    peerTc3 := 0, peerInq := 0, emberBase := 0, live := [], cumPsn := 0, got := [], unacked := 0, ce := [],
    rxAt := 0, frontier := 0, rx := [], rx2 := [], placing := [], ret := [0, 0, 0, 0], inUse := [0, 0, 0, 0],
    cmdLeft := [], told := [0, 0, 0, 0], reported := [], nextPsn := 0, nextMsg := 0, nextMsg2 := 0, peerFrontier := 0, tx := [],
    pkts := [], sends := 0, used := [0, 0, 0, 0], peerRet := [0, 0, 0, 0], descs := [0, 0, 0, 0, 0, 0], cmdSent := [],
    emberNext := 0, emberRes := [], closeSent := false, closeGot := false,
    ackSent := false, ackGot := false, waitTok := [], waitSlot := [] }

/-- A connection entry. -/
def State.conn (s : State) (i : Nat) : Conn := tget (fun _ => connNone) s.conns i

/-- Store a connection entry. -/
def State.setConn (s : State) (i : Nat) (c : Conn) : State :=
  { s with conns := tput (fun _ => connNone) s.conns i c }

/-- Remove the first element that satisfies a test. -/
def eraseFirst {α : Type} (p : α → Bool) : List α → List α
  | [] => []
  | a :: t => if p a then t else a :: eraseFirst p t

/-- The node's fabric node ID. -/
def State.nodeId (s : State) : Nat := s.regF 0 Reg.RT_NODE_ID 0 16

/-- The node is Adrift (R20). -/
def State.adrift (s : State) : Bool := s.regB 0 Reg.FT_STAT 2

/-- SERVICE or DRAIN. -/
def State.serving (s : State) : Bool := s.life == .service || s.life == .drain

/-- The code of a partition state (R355). -/
def PartState.code : PartState → Nat
  | .unused => 0
  | .active => 1
  | .releasing => 2
  | .released => 3
  | .faulted => 4

/-- The partition state of a code. -/
def PartState.ofCode (n : Nat) : PartState :=
  if n = 1 then .active else if n = 2 then .releasing else if n = 3 then .released else if n = 4 then .faulted else .unused

/-- The pair that holds the state of a partition (R367). -/
def State.partPair (s : State) (p : Nat) : Pair 8 := tget (fun _ => pairOf 0) s.partState p

/-- State of a partition (R349). While its pair is not valid the node acts on no state of it (R367), as for a partition
that the charter does not list. -/
def State.part (s : State) (p : Nat) : PartState :=
  match (s.partPair p).get? with
  | some v => PartState.ofCode v.toNat
  | none => .unused

/-- Set the state of a partition. -/
def State.setPart (s : State) (p : Nat) (x : PartState) : State :=
  { s with partState := tput (fun _ => pairOf 0) s.partState p (pairOf (BitVec.ofNat 8 x.code)) }

/-- The code of a step of a release. -/
def ReleaseStep.code : ReleaseStep → Nat
  | .delayed => 1
  | .draining => 2
  | .scrubbed => 3

/-- The step that the release of a partition has come to, while its pair is valid (R350, R367). -/
def State.releaseStep (s : State) (p : Nat) : Option ReleaseStep :=
  match s.releasing.find? fun r => r.1 == p with
  | some (_, x) => match x.get? with
    | some v => if v = 1 then some .delayed else if v = 2 then some .draining else some .scrubbed
    | none => none
  | none => none

/-- Set the step of a release. -/
def State.setRelease (s : State) (p : Nat) (x : ReleaseStep) : State :=
  { s with releasing := (s.releasing.filter fun r => r.1 != p) ++ [(p, pairOf (BitVec.ofNat 8 x.code))] }

/-! Records kept twice (R364). -/

/-- Two valid copies of a value. -/
def twinOf {n : Nat} (v : BitVec n) : Twin n := ⟨pairOf v, pairOf v⟩

/-- The value, from either copy. -/
def Twin.get? {n : Nat} (t : Twin n) : Option (BitVec n) := if t.a.ok then some t.a.val else t.b.get?

/-- A copy is not valid, while the other gives the value. -/
def Twin.halved {n : Nat} (t : Twin n) : Bool := !(t.a.ok && t.b.ok) && t.get?.isSome

/-- The damaged copy rewritten from the other. -/
def Twin.mended {n : Nat} (t : Twin n) : Twin n := match t.get? with | some v => twinOf v | none => t

/-- A damaged copy of a record kept twice is counted and flagged (R65). -/
def State.halfFault (s : State) : State := (s.count 0 Reg.MT_CPL_FAULT_CNT 1).setRegB 0 Reg.MT_ERR_STAT 1 true

/-- A column is fenced (R374); while no copy of the fence list is valid, every column is held to be (R367; log
entry 81). -/
def State.fenced (s : State) (c : Nat) : Bool := match s.fenceRec.get? with | some v => getB v c | none => true

/-- The fenced columns. -/
def State.fences (s : State) : List Nat := (List.range 512).filter s.fenced

/-- Write the fence list. -/
def State.setFences (s : State) (l : List Nat) : State :=
  { s with fenceRec := twinOf (l.foldl (fun v c => setB v c true) (0 : BitVec 512)) }

/-- The rows remapped to spares, by the entries of the spare-row map that a valid copy gives (R363). -/
def State.remaps (s : State) : List Nat := s.spares.filterMap fun t => t.get?.map BitVec.toNat

/-- Write the spare-row map. -/
def State.setRemaps (s : State) (l : List Nat) : State := { s with spares := l.map fun r => twinOf (BitVec.ofNat 32 r) }

/-- The partition entry pair of a partition, if the charter lists it (R338). -/
def State.entry? (s : State) (p : Nat) : Option (Pair 512) :=
  (s.entries.find? fun e => e.1 == p).map (·.2)

/-- The stored partition entry of a listed partition is not valid (R65). -/
def State.entryBad (s : State) (p : Nat) : Bool := match s.entry? p with | some e => !e.ok | none => false

/-- The partition entry value. While the pair is not valid the node acts on neither half (R65): it reads as an entry that
gives the partition nothing. -/
def State.entryVal (s : State) (p : Nat) : BitVec 512 :=
  match s.entry? p with
  | some e => if e.ok then e.val else 0
  | none => 0

/-- A field of `n` bytes at byte `i` of a little-endian record. -/
def recField {w : Nat} (v : BitVec w) (i n : Nat) : Nat := getF v (8 * i) (8 * n)

/-- TENANT of a partition (R338). -/
def State.tenant (s : State) (p : Nat) : Nat := recField (s.entryVal p) 2 2

/-- The listed partitions, in ascending order. -/
def State.listed (s : State) : List Nat := s.entries.map (·.1)

/-- First owned column and number of columns of a partition (R338). -/
def State.cols (s : State) (p : Nat) : Nat × Nat := (recField (s.entryVal p) 8 2, recField (s.entryVal p) 10 2)

/-- A partition owns a column. -/
def State.ownsCol (s : State) (p c : Nat) : Bool :=
  decide ((s.cols p).1 ≤ c ∧ c < (s.cols p).1 + (s.cols p).2)

/-- The partition that owns a column. -/
def State.colOwner (s : State) (c : Nat) : Option Nat := s.listed.find? fun p => s.ownsCol p c

/-- Firebox share of a partition on Hearth die `h`: first address and bytes (R339). It is none while an entry of a lower
partition, which its place follows from, is not valid (R65). -/
def State.fbShare (s : State) (p h : Nat) : Nat × Nat :=
  let lower := s.listed.filter (· < p)
  let below := lower.map fun q => recField (s.entryVal q) (16 + 2 * h) 2
  (h * 0x18000000 + below.sum * 0x100000,
    if lower.any s.entryBad then 0 else recField (s.entryVal p) (16 + 2 * h) 2 * 0x100000)

/-- The partition whose entry, not valid, the ownership check of a range meets (R43, R65): the partition's own, or, for
a firebox address, that of a lower one (R339). -/
def State.ownFault (s : State) (p a : Nat) : Option Nat :=
  if 0x100000000000 ≤ a then none
  else if s.entryBad p then some p
  else if a < 0x60000000 then (s.listed.filter (· < p)).find? s.entryBad else none

/-- The run of a numbered pool that a partition's share makes up: the sum of the shares below, and its own, a field of `n`
bytes at byte `i` of the entries (R338, R354; log entry 21). It is none while an entry of a lower partition is not valid. -/
def State.shareRun (s : State) (p i n : Nat) : Nat × Nat :=
  let lower := s.listed.filter (· < p)
  ((lower.map fun q => recField (s.entryVal q) i n).sum, if lower.any s.entryBad then 0 else recField (s.entryVal p) i n)

/-- Warm range of a partition: first address and bytes (R339). -/
def State.warmRange (s : State) (p : Nat) : Nat × Nat :=
  (0x050000000000 + recField (s.entryVal p) 12 2 * 2 ^ 30, recField (s.entryVal p) 14 2 * 2 ^ 30)

/-- Function that serves a partition (R334). -/
def vfOf (p : Nat) : Nat := p + 1

/-- The object descriptor of a partition (R53); an entry never written is free. -/
def objFree : BitVec 256 := 0xF#256 <<< 48

/-- Object `i` of partition `p`. -/
def State.obj (s : State) (p i : Nat) : BitVec 256 := tget (fun _ => objFree) s.objs (p * 1024 + i)

/-- Store an object descriptor. -/
def State.setObj (s : State) (p i : Nat) (v : BitVec 256) : State :=
  { s with objs := tput (fun _ => objFree) s.objs (p * 1024 + i) v }

/-- Waymark `w` of partition `p` (R265). -/
def State.wm (s : State) (p w : Nat) : Pair 64 := tget (fun _ => pairOf 0) s.wms (p * 4096 + w)

/-- Store a waymark. -/
def State.setWm (s : State) (p w : Nat) (v : Pair 64) : State :=
  { s with wms := tput (fun _ => pairOf 0) s.wms (p * 4096 + w) v }

/-- Far window entry `k` (R49). -/
def State.farEntry (s : State) (k : Nat) : Pair 128 := tget (fun _ => pairOf 0) s.far k

/-- Store a far window entry. -/
def State.setFar (s : State) (k : Nat) (v : Pair 128) : State :=
  { s with far := tput (fun _ => pairOf 0) s.far k v }

/-- Usage meter of a partition. -/
def State.meter (s : State) (p : Nat) : Meter := tget (fun _ => ⟨0, 0, 0, List.replicate 32 0⟩) s.meters p

/-- Store a usage meter. -/
def State.setMeter (s : State) (p : Nat) (m : Meter) : State :=
  { s with meters := tput (fun _ => ⟨0, 0, 0, List.replicate 32 0⟩) s.meters p m }

/-- A gated unit wakes (R36). -/
def State.wake (s : State) (u : GateUnit) : State := { s with gated := s.gated.filter (· != u) }

/-- The power state is above Banked: the columns run (R401). -/
def State.awake (s : State) : Bool := s.power == .lit || s.power == .damped

/-! Fields of a directory entry (R81). -/

def deSeq (v : BitVec 256) : Nat := getF v 192 64
def deLayer (v : BitVec 256) : Nat := getF v 184 8
def deKvFirst (v : BitVec 256) : Nat := getF v 176 8
def deKvCount (v : BitVec 256) : Nat := getF v 168 8
def dePart (v : BitVec 256) : Nat := getF v 162 6
def deState (v : BitVec 256) : Nat := getF v 160 2
def deClass (v : BitVec 256) : Nat := getF v 156 4
def deFmt (v : BitVec 256) : Nat := getF v 153 3
def deDim (v : BitVec 256) : Nat := getF v 151 2
def dePub (v : BitVec 256) : Nat := getF v 120 24
def deExt0 (v : BitVec 256) : Nat := getF v 108 12
def deExt1 (v : BitVec 256) : Nat := getF v 96 12
def deGen (v : BitVec 256) : Nat := getF v 64 32

/-- A directory entry value (R81). -/
def deMake (seq layer kvFirst kvCount part state cls fmt dim pub ext0 ext1 gen map : Nat) : BitVec 256 :=
  let v := setF (0 : BitVec 256) 192 64 seq
  let v := setF (setF (setF (setF v 184 8 layer) 176 8 kvFirst) 168 8 kvCount) 162 6 part
  let v := setF (setF (setF (setF v 160 2 state) 156 4 cls) 153 3 fmt) 151 2 dim
  setF (setF (setF (setF (setF v 120 24 pub) 108 12 ext0) 96 12 ext1) 64 32 gen) 0 64 map

/-! Fields of an ownership record (R376). -/

def owEpoch (v : BitVec 128) : Nat := getF v 96 32
def owHolder (v : BitVec 128) : Nat := getF v 80 16
def owGrantor (v : BitVec 128) : Nat := getF v 64 16
def owTwin (v : BitVec 128) : Nat := getF v 48 16
def owEnd (v : BitVec 128) : Nat := getF v 8 40
def owState (v : BitVec 128) : Nat := getF v 0 3

/-- The LEASE_END that stands for no end. -/
def noEnd : Nat := 2 ^ 40 - 1

/-- An ownership record value (R376): states 0 NONE, 1 OWNER, 2 GRANTING, 3 REMOTE, 4 TWIN. -/
def owMake (epoch holder grantor twin endMs state : Nat) : BitVec 128 :=
  let v := setF (setF (setF (0 : BitVec 128) 96 32 epoch) 80 16 holder) 64 16 grantor
  setF (setF (setF v 48 16 twin) 8 40 endMs) 0 3 state

/-- The entry value, from either copy (R364). -/
def Dir.val? (d : Dir) : Option (BitVec 256) := if d.a.ok then some d.a.val else d.b.get?

/-- The ownership record, from either copy (R364). -/
def Dir.own? (d : Dir) : Option (BitVec 128) := if d.oa.ok then some d.oa.val else d.ob.get?

/-- Write both copies of an entry. -/
def Dir.write (d : Dir) (v : BitVec 256) : Dir := { d with a := pairOf v, b := pairOf v }

/-- Write both copies of an ownership record. -/
def Dir.writeOwn (d : Dir) (v : BitVec 128) : Dir := { d with oa := pairOf v, ob := pairOf v }

/-- PUBLISHED of a key's entry, zero when it has none (R95; log entry 15). -/
def State.pubOf (s : State) (k : DirKey) : Nat :=
  match s.dir? k with
  | some d => match d.val? with | some v => dePub v | none => 0
  | none => 0

end Sys2Proof.Machine
end

