-- ==== Sys2Proof/Machine/Flags.lean ====
section
/-!
DEFINITION. Error flags, interrupts and the management alert: which bit an event sets, and what it raises (R258,
R422, R451, R454).
-/

namespace Sys2Proof.Machine

/-- Raise an MSI-X vector of a function (R258, R451). In RECOVERY, PF0 raises none. -/
def State.msix (s : State) (fn v : Nat) : State :=
  if fn = 0 ∧ s.life = .recovery then s else s.emit (.msix fn v)

/-- Set bits of the CQ_ERR_STAT of a partition; one event raises vector 6 once (R258). -/
def State.cqError (s : State) (part : Nat) (bits : List Nat) : State :=
  let v := s.reg (vfOf part) Reg.CQ_ERR_STAT
  let v' := bits.foldl (fun v i => setB v i true) v
  let s' := s.setReg (vfOf part) Reg.CQ_ERR_STAT v'
  if v' = v then s' else s'.msix (vfOf part) 6

/-- ALERT_N is low (R422): an unmasked bit of PW_ALERT_STAT is 1. In RECOVERY bit 7 alone drives it. -/
def State.alertLow (s : State) : Bool :=
  if s.life = .recovery then s.regB 0 Reg.PW_ALERT_STAT 7
  else s.reg 0 Reg.PW_ALERT_STAT &&& s.reg 0 Reg.PW_ALERT_MASK != 0

/-- ALERT_N becomes asserted, unless it was before: an in-band interrupt is raised if enabled, with PW_ALERT_STAT as its
mandatory byte (R423). -/
def State.alertFrom (s : State) (before : Bool) : State :=
  if !before && s.alertLow then
    let s := s.emit .alert
    if s.i3c.ibi then s.emit (.ibi (BitVec.ofNat 8 (s.regF 0 Reg.PW_ALERT_STAT 0 8))) else s
  else s

/-- An alert cause bit of PW_ALERT_STAT becomes 1 (R422): with its mask bit 1, vector 0 of PF0 is raised (R451). -/
def State.alert (s : State) (cause : Nat) : State :=
  if s.regB 0 Reg.PW_ALERT_STAT cause then s
  else
    let t := s.setRegB 0 Reg.PW_ALERT_STAT cause true
    (if t.regB 0 Reg.PW_ALERT_MASK cause then t.msix 0 0 else t).alertFrom s.alertLow

/-- Set the life state; vector 2 of PF0 is raised when it changes (R451). -/
def State.setLife (s : State) (l : Life) : State :=
  if s.life = l then s
  else ({ s with life := l, standbyWanted := false }).msix 0 2

/-- An unaccepted access for ownership (R43). -/
def State.ownerError (s : State) : State := s.setRegB 0 Reg.MT_ERR_STAT 0 true

/-- An unmapped-address refusal (R42). -/
def State.unmappedError (s : State) : State := s.count 0 Reg.MT_UNMAPPED_CNT 1

/-- The function exists on PCI Express: PF0, or a VF below NumVFs while VF Enable is set (R439). -/
def State.fnExists (s : State) (fn : Nat) : Bool :=
  fn == 0 || (s.lodge.vfEnable && decide (1 ≤ fn ∧ fn ≤ s.lodge.numVfs))

/-- The functions answer host accesses: the link is up, PERST# is high, and boot has passed its step 2 (R409,
R456). -/
def State.lodgeAnswers (s : State) : Bool := s.lodge.linkUp && s.pwrGood && s.life != .boot

/-- The BARs of a function are served (R334, R349, R409, R439). -/
def State.fnServed (s : State) (fn : Nat) : Bool :=
  s.lodgeAnswers && s.fnExists fn && (fn == 0 || s.part (fn - 1) == .active)

/-- The function answers, with its BARs served or, for a VF whose partition is not ACTIVE, with Unsupported Requests
(R439). -/
def State.barAnswers (s : State) (fn : Nat) : Bool := s.lodgeAnswers && s.fnExists fn

/-- An access to a BAR of a function that is not served: one that exists answers it as an Unsupported Request (R334,
R439). -/
def State.unserved (s : State) (fn : Nat) : State :=
  if !s.fnServed fn && s.barAnswers fn then s.emit .unsupported else s

/-- A register of PF0 acts: its BARs are served, outside RECOVERY. -/
def State.pf0 (s : State) : Bool := s.fnServed 0 && s.life != .recovery

end Sys2Proof.Machine
end

