-- ==== Sys2Proof/Machine/Operands.lean ====
section
/-!
DEFINITION. Operand forms: node-address ranges with their mapping and ownership (R40 to R48), objects (R54, R55),
raw rows (R123), page arenas and bound images, and the fields of a descriptor (R250).
-/

namespace Sys2Proof.Machine

/-- The ranges of the node address space (R41). -/
inductive Tier where
  | firebox
  | hot
  | compat
  | warm
  | far
  deriving DecidableEq, Repr

/-- First address and size of each range (R41). -/
def Tier.range : Tier → Nat × Nat
  | .firebox => (0, 0x60000000)
  | .hot => (0x010000000000, 0x020000000000)
  | .compat => (0x030000000000, 0x020000000000)
  | .warm => (0x050000000000, 0x010000000000)
  | .far => (0x100000000000, 0x100000000000)

/-- The ranges in ascending order. -/
def tiers : List Tier := [.firebox, .hot, .compat, .warm, .far]

/-- The range of an address. -/
def tierOf (a : Nat) : Option Tier := tiers.find? fun t => decide (t.range.1 ≤ a ∧ a < t.range.1 + t.range.2)

/-- The part of `[a, a + n)` that lies in a range: first address and bytes. -/
def cut (t : Tier) (a n : Nat) : Nat × Nat :=
  let x := max a t.range.1
  let y := min (a + n) (t.range.1 + t.range.2)
  (x, y - x)

/-- The whole of `[a, a + n)` lies in one range. -/
def inTier (t : Tier) (a n : Nat) : Bool :=
  decide (t.range.1 ≤ a ∧ a + n ≤ t.range.1 + t.range.2)

/-- Stacks that a piece of the compatibility range meets. -/
def compatStacks (x n : Nat) : List Nat :=
  (List.range 16).filter fun k => meets x n (0x030000000000 + k * 2 ^ 37) (2 ^ 37)

/-- Far windows that a piece of the far tier meets. -/
def farWindows (x n : Nat) : List Nat :=
  (List.range 256).filter fun k => meets x n (0x100000000000 + k * 2 ^ 36) (2 ^ 36)

/-- KIND of a far window entry (R49). -/
def farKind (e : BitVec 128) : Nat := getF e 8 2

/-- PART of a far window entry (R49). -/
def farPart (e : BitVec 128) : Nat := getF e 0 6

/-- A piece of a range is mapped (R42, R47, R50). -/
def State.pieceMapped (s : State) (t : Tier) (x n : Nat) : Bool :=
  match t with
  | .compat => (compatStacks x n).all fun k => s.regB 0 Reg.MT_COMPAT_EN k
  | .far => (farWindows x n).all fun k => !(s.farEntry k).ok || farKind (s.farEntry k).val != 0
  | _ => true

/-- Every byte of `[a, a + n)` is mapped (R42). -/
def State.mapped (s : State) (a n : Nat) : Bool :=
  decide (a + n ≤ 2 ^ 48) &&
  decide ((tiers.map fun t => (cut t a n).2).sum = n) &&
  tiers.all fun t => (cut t a n).2 == 0 || s.pieceMapped t (cut t a n).1 (cut t a n).2

/-- A piece lies in the firebox share of a partition (R44, R339). -/
def State.ownsFirebox (s : State) (p x n : Nat) : Bool :=
  (List.range 4).all fun h =>
    let lo := max x (h * 0x18000000)
    let hi := min (x + n) ((h + 1) * 0x18000000)
    decide (hi ≤ lo) || decide ((s.fbShare p h).1 ≤ lo ∧ hi ≤ (s.fbShare p h).1 + (s.fbShare p h).2)

/-- A piece of a range is owned by a partition (R43, R47). -/
def State.pieceOwned (s : State) (p : Nat) (t : Tier) (x n : Nat) : Bool :=
  match t with
  | .firebox => s.ownsFirebox p x n
  | .hot =>
    let c := s.cols p
    decide (0x010000000000 + c.1 * 2 ^ 32 ≤ x ∧ x + n ≤ 0x010000000000 + (c.1 + c.2) * 2 ^ 32)
  | .compat => (compatStacks x n).all fun k => (List.range 32).all fun i => s.ownsCol p (32 * k + i)
  | .warm => decide ((s.warmRange p).1 ≤ x ∧ x + n ≤ (s.warmRange p).1 + (s.warmRange p).2)
  | .far => (farWindows x n).all fun k => (s.farEntry k).ok && farPart (s.farEntry k).val == p

/-- Every byte of `[a, a + n)` is owned by the partition (R43). -/
def State.owned (s : State) (p a n : Nat) : Bool :=
  tiers.all fun t => (cut t a n).2 == 0 || s.pieceOwned p t (cut t a n).1 (cut t a n).2

/-- A far window met by the range has an entry whose pair is not valid (R65). -/
def State.farFault (s : State) (a n : Nat) : Option Nat :=
  (farWindows (cut .far a n).1 (cut .far a n).2).find? fun k => (cut .far a n).2 != 0 && !(s.farEntry k).ok

/-- The ownership check of a command's range (R43): the state after it, and the status: COMPLEMENT_FAULT where a far entry or
a partition entry that it needs is not valid (R65), VIOLATION where the range is not owned, 0 where it is. -/
def State.ownCheck (s : State) (p a n : Nat) : State × Nat :=
  match s.farFault a n with
  | some k => (s.cplFault (.far k), 0x0E)
  | none => match s.ownFault p a with
    | some q => (s.cplFault (.entry q), 0x0E)
    | none => if s.owned p a n then (s, 0) else (s.ownerError, 0x04)

/-- LPDDR6 stack and address within it of a warm-tier address: 4 KiB blocks rotate over W0 to W7 (R48). -/
def warmDecode (a : Nat) : Nat × Nat :=
  let offset := a - 0x050000000000
  (offset / 2 ^ 12 % 8, offset / 2 ^ 15 * 2 ^ 12 + offset % 2 ^ 12)

/-- Owner of a native storage byte (R365): the granule is charged by its address alone. -/
def State.ownerOf (s : State) (a : Nat) : Option Nat := s.listed.find? fun p => s.owned p a 1

/-! Objects (R54, R55). -/

def objKind (o : BitVec 256) : Nat := getF o 48 4
def objBase (o : BitVec 256) : Nat := getF o 0 48
def objSize (o : BitVec 256) : Nat := getF o 64 48
def objLayout (o : BitVec 256) : Nat := getF o 56 2
def objRaw (o : BitVec 256) : Bool := getB o 136
def objPinned (o : BitVec 256) : Bool := getB o 137
def objRows (o : BitVec 256) : Nat := getF o 160 32
def objRowBytes (o : BitVec 256) : Nat := getF o 192 32
def objTileRows (o : BitVec 256) : Nat := getF o 224 16

/-- The reserved fields of an object descriptor are zero (R54). -/
def objZeros (o : BitVec 256) : Bool :=
  getF o 240 16 == 0 && getF o 144 16 == 0 && getF o 138 6 == 0 && getF o 128 8 == 0 && getF o 112 16 == 0 &&
  getF o 58 6 == 0 && getF o 52 4 == 0

/-- The tier rule of R55 for a KIND. -/
def kindTier (kind : Nat) (t : Tier) : Bool :=
  match kind, t with
  | 0, .hot | 0, .compat => true
  | 1, .far => false
  | 1, _ => true
  | 2, .firebox => false
  | 2, _ => true
  | 3, .far => false
  | 3, _ => true
  | _, _ => false

/-- The object descriptor keeps R54, R55 and R122. -/
def objOk (o : BitVec 256) : Bool :=
  objZeros o && decide (objBase o % 256 = 0 ∧ objSize o ≠ 0 ∧ objSize o % 256 = 0 ∧ objRowBytes o % 256 = 0) &&
  (objRowBytes o == 0 || objSize o == objRows o * objRowBytes o) &&
  (match tierOf (objBase o) with
   | some t => inTier t (objBase o) (objSize o) && kindTier (objKind o) t &&
       (objLayout o == if t = .compat then 1 else 0) &&
       (!objRaw o || (objKind o == 3 &&
         ((t == .hot && objBase o % 1024 == 0 && objSize o % 1024 == 0) ||
          (t == .compat && objBase o % 32768 == 0 && objSize o % 32768 == 0))))
   | none => false)

/-- A valid raw object entry of a partition covers the native row (R123). -/
def State.rawByObject (s : State) (r : Nat) : Bool :=
  s.objs.any fun e => objRaw e.2 && objOk e.2 && objKind e.2 != 0xF && s.part (e.1 / 1024) == .active &&
    s.ownsCol (e.1 / 1024) (rowColumn r) && rowIn (objBase e.2) (objSize e.2) r

/-- The row is raw: covered by a raw object, or still to be re-encoded (R123). -/
def State.rawRow (s : State) (r : Nat) : Bool := s.recode.contains r || s.rawByObject r

/-- Sectors of coded rows with a latent error that a write of `[a, a + n)` covers in part: they are read first. -/
def State.edgeSectors (s : State) (a n : Nat) : List Nat :=
  (s.hitSectors a n).filter fun k => !sectorWhole a n k &&
    !(isHot (unitAddr k) && s.rawRow (rowOf (unitAddr k)))

/-- The bytes that a write of `bs` leaves from address `a` on: a unit with an uncorrectable error that the write covers
in part keeps what it holds (R127). -/
def State.merged (s : State) (a : Nat) (bs : List Byte) : List Byte :=
  let bad := (s.edgeSectors a bs.length).filter fun k => s.eccAt k == .uncorrectable
  if bad.isEmpty then bs
  else bs.mapIdx fun i b => if bad.contains (unitOf (native (a + i))) then s.byte (a + i) else b

/-- A write of any alignment through the encoder (R127): a unit covered in part is read and corrected first, and a write
into one that holds an uncorrectable error is not done. -/
def State.codedWrite (s : State) (part cmd a : Nat) (bs : List Byte) : State :=
  let s := (s.edgeSectors a bs.length).foldl State.meetSector (s.opens a bs.length)
  s.engineWrite part cmd a (s.merged a bs)

/-- Columns that a range touches. -/
def colsOf (a n : Nat) : List Nat := (((pieces a n).filter fun x => isHot x.1).map fun x => columnOf x.1).dedup

/-- Columns of a range wake (R36). -/
def State.wakeRange (s : State) (a n : Nat) : State :=
  (colsOf a n).foldl (fun (s : State) (c : Nat) => s.wake (.column c)) s

/-- The range touches a raw row (R125). -/
def State.touchesRaw (s : State) (a n : Nat) : Bool := (rowsOf a n).any s.rawRow

/-- The range meets a page arena of the partition that owns it (R43, R94). -/
def State.inArena (s : State) (a n : Nat) : Bool :=
  s.objs.any fun e => objKind e.2 == 0 && objOk e.2 && sharesStorage a n (objBase e.2) (objSize e.2) &&
    s.owned (e.1 / 1024) a n

/-- The range meets a bound weight image (R215). -/
def State.inImage (s : State) (a n : Nat) : Bool :=
  s.images.any fun i => sharesStorage a n (objBase (s.obj i.part i.obj)) (objSize (s.obj i.part i.obj))

/-- The object is a bound weight image (R215). -/
def State.boundObj (s : State) (p i : Nat) : Bool := s.images.any fun m => m.part == p && m.obj == i

/-- The range meets the node-reserved firebox (R44). -/
def inReserved (a n : Nat) : Bool :=
  (List.range 4).any fun h => meets a n (h * 0x18000000 + 0x14000000) 0x04000000

/-! Fields of a descriptor, by byte (R250). -/

/-- The `n`-byte little-endian field at byte `i` of a descriptor. -/
def dF (d : BitVec 512) (i n : Nat) : Nat := recField d i n

/-- ENGINE. -/
def dEngine (d : BitVec 512) : Nat := getF d 0 3
def dWait (d : BitVec 512) : Bool := getB d 8
def dSignal (d : BitVec 512) : Bool := getB d 9
def dFlush (d : BitVec 512) : Bool := getB d 10
def dLink (d : BitVec 512) : Bool := getB d 11
def dNop (d : BitVec 512) : Bool := getB d 12
def dIrq (d : BitVec 512) : Bool := getB d 13
def dPoison (d : BitVec 512) : Bool := getB d 14
def dWaitWm (d : BitVec 512) : Nat := getF d 16 12
def dSignalWm (d : BitVec 512) : Nat := getF d 32 12
def dUserTag (d : BitVec 512) : Nat := dF d 6 2
def dWaitValue (d : BitVec 512) : Nat := getF d 64 63

/-- The header keeps R251; `lastOfMessage` marks the last descriptor of a command message. -/
def headerOk (eng : Nat) (lastOfMessage : Bool) (d : BitVec 512) : Bool :=
  dEngine d == eng && getF d 3 5 == 0 && !getB d 15 && getF d 28 4 == 0 && getF d 44 4 == 0 && !getB d 127 &&
  (dWait d || (dWaitWm d == 0 && dWaitValue d == 0)) && (dSignal d || dSignalWm d == 0) &&
  (!dNop d || dF d 16 48 == 0) && (!dPoison d || dSignal d) && !(dLink d && lastOfMessage)

/-- An address field keeps R40. -/
def addrOk (x : Nat) : Bool := decide (x < 2 ^ 48)

/-- Source bytes of a descriptor: in memory, or in the payload that came with it. -/
def Cmd.inline? (c : Cmd) : Bool := match c.q with | .inbound _ _ => true | .host _ _ => false

/-- Connection that a remote command came from. -/
def Cmd.conn? (c : Cmd) : Option Nat := match c.q with | .inbound k _ => some k | .host _ _ => none

end Sys2Proof.Machine
end

