-- ==== Sys2Proof/Machine/Queue.lean ====
section
/-!
DEFINITION. The transmit queues (R286 to R289, R297 to R299, R303 to R305): paths and ports, what each class of a
connection sends next, whether credits and windows allow it, on which path it goes, and the connection after it has gone.
-/

namespace Sys2Proof.Machine

/-- The traffic class of an opcode (R286). -/
def opTc (op : Nat) : Nat := if op ≤ 3 then 3 else if op = 4 then 1 else if op ≤ 6 then 2 else 0

/-! Path entries (R290), ports (R279) and the sizes of packets (R287). -/

def ptPort (p : List Byte) : Nat := leAt p 0 1 % 16
def ptOn (p : List Byte) : Bool := decide (128 ≤ leAt p 0 1)
def ptIpv (p : List Byte) : Nat := leAt p 1 1
def ptUdp (p : List Byte) : Nat := leAt p 2 2
def ptVlan (p : List Byte) : Nat := leAt p 4 2
def ptHop (p : List Byte) : List Byte := sliceB p 6 6
def ptIp (p : List Byte) : List Byte := sliceB p 16 (if ptIpv p = 6 then 16 else 4)

/-- MODE of a port (R279). -/
def State.portMode (s : State) (n : Nat) : Nat := s.regF 0 (Reg.RT_PORT_CFG + 4 * n) 29 2

/-- The logical port exists in its port's MODE (R279). -/
def State.lportExists (s : State) (l : Nat) : Bool := decide (l < 16) && (l % 2 == 0 || s.portMode (l / 2) == 1)

/-- The link of a logical port is up. -/
def State.portUp (s : State) (l : Nat) : Bool := s.lportExists l && s.up.contains l

/-- Bytes of the extension of an opcode (R286). -/
def extLen (op : Nat) : Nat := [0, 0, 8, 0, 0, 0, 0, 160, 64, 32, 32].getD op 0

/-- SUBTYPE of a CTRL extension (R293). -/
def ctSub (x : List Byte) : Nat := leAt x 0 1

/-- Numbered packets (R286): all but ACK, BEACON, PROBE and PROBE_ACK. -/
def numbered (op : Nat) (ext : List Byte) : Bool :=
  op != 7 && op != 10 && (op != 8 || (ctSub ext != 6 && ctSub ext != 7))

/-- A CONNECT: it is repeated by R292 and not by R305, and no peer yet returns a credit for it (log entry 20). -/
def isConnect (op : Nat) (ext : List Byte) : Bool := op == 8 && ctSub ext == 1

/-- Frame bytes around a payload on a path, without preamble, FCS and gap (R287). -/
def pathOver (p : List Byte) : Nat := 14 + (if 0x8000 ≤ ptVlan p then 4 else 0) + (if ptIpv p = 6 then 40 else 20) + 8 + 30

/-- Bytes of an ORT packet, as windows count them (R299). -/
def ortLen (op : Nat) (payload : List Byte) : Nat := 30 + extLen op + payload.length

/-- Payload size P of a connection (R287). -/
def Conn.P (c : Conn) : Nat := 1024 * 2 ^ c.pcode

/-! What a class has to send. -/

/-- A packet that a class would start next: a lost packet, or the next cut of a message. -/
structure NextPkt where
  lost : Option TxPkt
  msg : Option TxMsg
  op : Nat
  payload : List Byte
  ext : List Byte
  ready : Nat
  deriving DecidableEq, Repr

/-- Every packet of the message has been sent once. -/
def TxMsg.isCut (m : TxMsg) : Bool := if m.data.isEmpty then m.cut != 0 else decide (m.data.length ≤ m.cut)

/-- The message starts whatever TOKENS holds (R318): ACK, PROBE, PROBE_ACK, and a verdict, whose message is 64 bytes. -/
def TxMsg.exempt (m : TxMsg) : Bool :=
  m.op == 7 || (m.op == 8 && (ctSub m.ext == 6 || ctSub m.ext == 7)) || (m.op == 5 && m.len == 64)

/-- A lost packet that is exempt: of a verdict. -/
def TxPkt.exempt (k : TxPkt) : Bool := k.op == 5 && k.msgLen == 64

/-- A verdict follows the packets of its own ember. -/
def Conn.behind (c : Conn) (m : TxMsg) : Bool :=
  m.op == 5 && m.len == 64 &&
  c.tx.any fun x => x.op == 5 && x.len != 64 && x.owner == m.owner && !x.failed && !x.isCut

/-- The packets of a class, exempt ones or held ones, that may go next: lost packets by PSN, then messages in order (R297,
R305). A packet of TC0 does not wait for another of TC0, whose path may be down. -/
def Conn.nexts (c : Conn) (tc : Nat) (ex : Bool) : List NextPkt :=
  let lost := (c.pkts.filter fun k => k.tc == tc && k.lost && k.exempt == ex).map fun k =>
    (⟨some k, none, k.op, k.data, k.ext, k.ready⟩ : NextPkt)
  let msgs := (c.tx.filter fun m => m.tc == tc && !m.failed && !m.isCut && m.exempt == ex && !c.behind m).map fun m =>
    (⟨none, some m, m.op, (m.data.drop m.cut).take c.P, m.ext, m.ready⟩ : NextPkt)
  if tc = 0 then lost ++ msgs else (lost ++ msgs).take 1

/-- The packet is numbered (R286). -/
def NextPkt.numbered (k : NextPkt) : Bool := Machine.numbered k.op k.ext

/-- The packet is numbered, credited and retransmitted. -/
def NextPkt.tracked (k : NextPkt) : Bool := k.numbered && !isConnect k.op k.ext

/-- The packet starts regardless of TOKENS (R318). -/
def NextPkt.exempt (k : NextPkt) : Bool :=
  match k.lost, k.msg with
  | some l, _ => l.exempt
  | none, some m => m.exempt
  | none, none => false

/-- What tells a waiting packet from every other of its connection. -/
def NextPkt.key (k : NextPkt) : List Nat :=
  match k.lost, k.msg with
  | some l, _ => [0, l.psn, l.retx]
  | none, some m => [1, m.op, m.num, m.cut, m.ready]
  | none, none => []

/-! Credits and windows (R289, R297). -/

/-- Credits of a class in use at the peer (R289). -/
def Conn.owed (c : Conn) (tc : Nat) : Nat :=
  (c.used.getD tc 0 % 2 ^ 32 + 2 ^ 32 - c.peerRet.getD tc 0 % 2 ^ 32) % 2 ^ 32

/-- Ingress units of a WRITE or READ_REQ packet (R289). -/
def units3 (payload : List Byte) : Nat := max 1 (ceilDiv payload.length 256)

/-- COUNT and ENGINE of a command message (R259). -/
def cmdCount (bs : List Byte) : Nat := leAt bs 0 1
def cmdEngine (bs : List Byte) : Nat := leAt bs 1 1 % 8

/-- Depth of the peer's inbound queue of an engine (R290). -/
def Conn.peerDepth (c : Conn) (e : Nat) : Nat := 2 ^ (c.peerInq / 16 ^ e % 16)

/-- The lowest PSN not acknowledged. -/
def Conn.lowPsn (c : Conn) : Nat := c.pkts.foldl (fun a (p : TxPkt) => min a p.psn) c.nextPsn

/-- Credits, and the windows of PSNs and messages, allow a packet's first transmission (R289, R297). -/
def Conn.allowed (c : Conn) (k : NextPkt) : Bool :=
  match k.msg with
  | none => true
  | some m =>
    (!k.tracked || decide (c.nextPsn < c.lowPsn + 1025)) &&
    (match m.op with
     | 1 | 2 => decide (m.num < c.peerFrontier + 256 ∧ c.owed 3 + units3 k.payload ≤ c.peerTc3)
     | 4 => decide (m.num < c.peerFrontier + 256) && (m.charged ||
         decide (c.owed 1 + ceilDiv m.len 256 ≤ c.peerTc1 ∧
           c.descs.getD (cmdEngine m.data) 0 + cmdCount m.data ≤ c.peerDepth (cmdEngine m.data)))
     | 8 | 9 => !k.tracked || decide (c.owed 0 < 32)
     | _ => true)

/-! Paths (R298, R299). -/

/-- The live state of a path. -/
def Conn.path (c : Conn) (p : Nat) : PathSt := c.live.getD p ⟨false, 0, 0, 0, 0, 0, 0, none⟩

/-- Change the live state of a path. -/
def Conn.setPath (c : Conn) (p : Nat) (f : PathSt → PathSt) : Conn :=
  { c with live := c.live.mapIdx fun k x => if k = p then f x else x }

/-- The path entry. -/
def Conn.entryOf (c : Conn) (p : Nat) : List Byte := c.paths.getD p []

/-- Logical port of a path. -/
def Conn.port (c : Conn) (p : Nat) : Nat := ptPort (c.entryOf p)

/-- The path can carry a packet of `n` bytes. -/
def Conn.windowOk (c : Conn) (p n : Nat) : Bool :=
  let x := c.path p
  decide (x.inflight = 0 ∨ x.inflight + n ≤ x.win)

/-- The eligible path of least in_flight / W, the lowest on ties. -/
def Conn.bestPath (c : Conn) : List Nat → Option Nat
  | [] => none
  | p :: t => match c.bestPath t with
    | none => some p
    | some q => if (c.path q).inflight * (c.path p).win < (c.path p).inflight * (c.path q).win then some q else some p

/-- UP paths whose port has a link. -/
def State.upPaths (s : State) (i : Nat) : List Nat :=
  let c := s.conn i
  (List.range c.live.length).filter fun p => (c.path p).up && s.portUp (c.port p)

/-- The path on which a packet goes (R292, R299, R304, R306). -/
def State.pathFor (s : State) (i : Nat) (k : NextPkt) : Option Nat :=
  let c := s.conn i
  let ups := s.upPaths i
  match k.msg.bind TxMsg.via with
  | some p => if p < c.live.length ∧ ptOn (c.entryOf p) ∧ s.portUp (c.port p) then some p else none
  | none =>
    if k.op = 7 then (if ups.isEmpty then none else ups[c.sends % ups.length]?)
    else if !k.numbered then c.bestPath ups
    else
      let ok := ups.filter fun p => c.windowOk p (ortLen k.op k.payload)
      match k.lost with
      | none => c.bestPath ok
      | some l => match c.bestPath (ok.filter fun p => p != l.path) with
        | some p => some p
        | none => c.bestPath ok

/-- The connection transmits. -/
def Conn.sending (c : Conn) : Bool := c.st == .connecting || c.st == .opened || c.st == .closing

/-- The next packet of a class that credits and windows let go, and its path, whatever its tokens and slot. -/
def State.headPath (s : State) (i tc : Nat) (ex : Bool) : Option (NextPkt × Nat) :=
  let c := s.conn i
  (c.nexts tc ex).findSome? fun k =>
    if c.sending && c.allowed k then (s.pathFor i k).map fun p => (k, p) else none

/-- Bytes of the frame of a packet on a path (R287, R320): from the destination MAC to before the FCS. -/
def Conn.frameLen (c : Conn) (p : Nat) (k : NextPkt) : Nat :=
  max 60 (pathOver (c.entryOf p) + extLen k.op + k.payload.length)

/-! The connection after a packet has gone. -/

/-- Replace bytes `[off, off + |bs|)` of a byte string. -/
def patch (w : List Byte) (off : Nat) (bs : List Byte) : List Byte := w.take off ++ bs ++ w.drop (off + bs.length)

/-- Replace an element of a list of totals. -/
def listSet (l : List Nat) (i x : Nat) : List Nat := l.set i x

/-- The SACK bytes (R303). -/
def Conn.sack (c : Conn) : List Byte :=
  (List.range 128).map fun b => BitVec.ofNat 8 (((List.range 8).map fun j =>
    if c.got.contains (c.cumPsn + 1 + 8 * b + j) then 2 ^ (7 - j) else 0).sum)

/-- The ACK extension (R303). -/
def Conn.ackExt (c : Conn) : List Byte :=
  beBytes 4 c.cumPsn ++ c.sack ++ beBytes 4 c.frontier ++ beBytes 8 ((c.ce.map fun p => 2 ^ p).sum) ++
  (List.range 4).flatMap fun t => beBytes 4 (c.ret.getD t 0)

/-- The extension as it leaves: an ACK reports the state of now, and a CTRL carries its TIME (R293). -/
def State.extNow (s : State) (i : Nat) (k : NextPkt) : List Byte :=
  if k.op = 7 then (s.conn i).ackExt
  else if k.op = 8 ∧ k.lost.isNone then patch k.ext 28 (beBytes 8 s.ft.now.toNat) else k.ext

/-- Charge credits at a first transmission (R289). -/
def Conn.charge (c : Conn) (k : NextPkt) : Conn :=
  match k.msg with
  | none => c
  | some m =>
    let add (t n : Nat) : List Nat := listSet c.used t (c.used.getD t 0 + n)
    match m.op with
    | 1 | 2 => { c with used := add 3 (units3 k.payload) }
    | 4 =>
      if m.charged then c
      else { c with
        used := add 1 (ceilDiv m.len 256)
        descs := listSet c.descs (cmdEngine m.data) (c.descs.getD (cmdEngine m.data) 0 + cmdCount m.data)
        cmdSent := c.cmdSent ++ [(m.num, cmdEngine m.data, cmdCount m.data)] }
    | 8 | 9 => { c with used := add 0 1 }
    | _ => c

/-- The messages after one packet of `m` has left: those of TC0 leave the queue. -/
def Conn.advance (c : Conn) (m : TxMsg) (n : Nat) : List TxMsg :=
  if m.tc = 0 then eraseFirst (fun x => x == m) c.tx
  else c.tx.map fun x => if x.tc = m.tc ∧ x.op = m.op ∧ x.num = m.num then
    { x with cut := x.cut + max 1 n, charged := true } else x

/-- The connection after the packet started on path `p`. -/
def State.started (s : State) (i p : Nat) (k : NextPkt) : Conn :=
  let c := s.conn i
  let now := s.ft.now.toNat
  let n := ortLen k.op k.payload
  match k.lost, k.msg with
  | some l, _ =>
    { c.setPath p (fun x => { x with inflight := x.inflight + n, usedAt := s.ms }) with
      sends := c.sends + 1
      pkts := c.pkts.map fun x => if x.psn = l.psn then
        { x with path := p, sentAt := now, order := c.sends, retx := x.retx + 1, rto := min 64 (2 * x.rto),
                 lost := false, passed := 0 } else x }
  | none, some m =>
    if k.tracked then
      let c' := c.charge k
      { c'.setPath p (fun x => { x with inflight := x.inflight + n, usedAt := s.ms }) with
        sends := c.sends + 1
        nextPsn := c.nextPsn + 1
        tx := c.advance m k.payload.length
        pkts := c.pkts ++ [{ psn := c.nextPsn, op := m.op, tc := m.tc, msg := m.num, msgLen := m.len, waykey := m.waykey,
                             offset := m.base + m.cut, ext := s.extNow i k, data := k.payload, path := p, sentAt := now,
                             order := c.sends, retx := 0, rto := max 1 (s.regF 0 Reg.RT_TIMER 16 8), lost := false,
                             passed := 0, ready := k.ready }] }
    else
      { c with
        sends := c.sends + 1
        nextPsn := if k.numbered then c.nextPsn + 1 else c.nextPsn
        tx := c.advance m 0
        ce := if k.op = 7 then [] else c.ce
        told := if k.op = 7 then c.ret else c.told
        unacked := if k.op = 7 then 0 else c.unacked }
  | none, none => c

/-! Queue depth (R332). -/

/-- Frame bytes of a class that wait for tokens, a slot or the port: those that credits and windows let go, one after
another, at most `n` packets. -/
def State.readyBytes (s : State) (i tc : Nat) : Nat → Nat
  | 0 => 0
  | n + 1 =>
    match (match s.headPath i tc true with | some x => some x | none => s.headPath i tc false) with
    | some (k, p) => (s.conn i).frameLen p k + (s.setConn i (s.started i p k)).readyBytes i tc n
    | none => 0

/-- Packets that a connection still has to send, at most. -/
def Conn.toSend (c : Conn) : Nat := (c.tx.map fun m => 1 + m.data.length / 1024).sum + c.pkts.length

/-- Frame bytes of a class that a partition has queued for transmission. -/
def State.queueBytes (s : State) (p tc : Nat) : Nat :=
  ((s.conns.filter fun e => e.2.owner == some p).map fun e => s.readyBytes e.1 tc e.2.toSend).sum

/-- The mark of queue depth, at an enqueue (R332). -/
def State.depthMark (s : State) (p tc : Nat) : State :=
  s.hwm (vfOf p) (Reg.SHP_QDEPTH_HWM_TC + 4 * tc) (s.queueBytes p tc)

/-- Packets of a class of a connection are queued: the depth is marked, and the port on which the next of them goes wakes
(R36). -/
def State.enqueued (s : State) (i tc : Nat) : State :=
  let s := s.depthMark ((s.conn i).owner.getD 0) tc
  [true, false].foldl (fun (s : State) (ex : Bool) => match s.headPath i tc ex with
    | some (_, p) => s.wake (.port ((s.conn i).port p))
    | none => s) s

end Sys2Proof.Machine
end

