-- ==== Sys2Proof/Machine/Send.lean ====
section
/-!
DEFINITION. Queueing messages on a connection (R297), finding the connection to a node (R296), and the return of
TC1 staging units when a message's last descriptor completes (R289).
-/

namespace Sys2Proof.Machine

/-- Queue a message on a connection (R297): TC1 and TC3 messages share one numbering, TC2 messages have their own,
and a READ_RESP carries the number of its READ_REQ. -/
def State.sendMsg (s : State) (i op waykey base len : Nat) (ext data : List Byte) (owner : Owner)
    (num : Option Nat) : State :=
  let c := s.conn i
  let tc := opTc op
  let n := match num with
    | some n => n
    | none => if tc = 2 then c.nextMsg2 else if tc = 0 then 0 else c.nextMsg
  let m : TxMsg := { num := n, op := op, tc := tc, waykey := waykey, base := base, len := len, ext := ext,
                     data := data, cut := 0, owner := owner, failed := false, charged := false, via := none,
                     ready := s.ft.now.toNat }
  let c := { c with tx := c.tx ++ [m] }
  let c := match num with
    | some _ => c
    | none =>
      if tc = 2 then { c with nextMsg2 := c.nextMsg2 + 1 }
      else if tc = 0 then c else { c with nextMsg := c.nextMsg + 1 }
  (s.setConn i c).enqueued i tc

/-- The lowest-numbered OPEN connection of a partition to a node (R296). -/
def State.connTo (s : State) (p node : Nat) : Option Nat :=
  (s.conns.find? fun e => e.2.st == .opened && e.2.owner == some p && e.2.peerNode == node).map (·.1)

/-- Put a part of a message among those that have come, in ascending offset. -/
def insertPart (x : Nat × List Byte) : List (Nat × List Byte) → List (Nat × List Byte)
  | [] => [x]
  | y :: t => if x.1 ≤ y.1 then x :: y :: t else y :: insertPart x t

/-- The bytes from `cur` on that parts in ascending offset give without a gap; bytes that several parts bring count
once. -/
def joinParts : Nat → List (Nat × List Byte) → List Byte
  | _, [] => []
  | cur, (o, bs) :: t => if cur < o then [] else bs.drop (cur - o) ++ joinParts (max cur (o + bs.length)) t

/-- Distinct bytes that parts in ascending offset bring from `cur` on (R302). -/
def partBytes : Nat → List (Nat × List Byte) → Nat
  | _, [] => 0
  | cur, (o, bs) :: t => (o + bs.length - max cur o) + partBytes (max cur (o + bs.length)) t

/-- Return credits of a class to the peer (R289). -/
def Conn.giveBack (c : Conn) (tc n : Nat) : Conn :=
  { c with ret := listSet c.ret tc ((c.ret.getD tc 0 + n) % 2 ^ 32),
           inUse := listSet c.inUse tc (c.inUse.getD tc 0 - n) }

/-- One descriptor of an inbound command message has completed; after the last, its staging units return (R289). -/
def Conn.descDone (c : Conn) (msg : Nat) : Conn :=
  match c.cmdLeft.find? fun x => x.1 == msg with
  | some (_, units, left) =>
    if left ≤ 1 then { (c.giveBack 1 units) with cmdLeft := c.cmdLeft.filter fun x => x.1 != msg }
    else { c with cmdLeft := c.cmdLeft.map fun x => if x.1 = msg then (msg, units, left - 1) else x }
  | none => c

/-- The bytes of a completion record (R262). -/
def recordBytes (index status eng cflags part result tag detail time : Nat) : List Byte :=
  leBytes 4 index ++ leBytes 1 status ++ leBytes 1 eng ++ leBytes 1 cflags ++ leBytes 1 part ++
  leBytes 4 result ++ leBytes 2 tag ++ leBytes 2 0 ++ leBytes 8 detail ++ leBytes 8 time

/-- Return a record of a remote descriptor on TC2 (R261), or count it where the connection cannot carry it
(R296). PHASE belongs to a completion ring; in a remote record it is a free value (log entry 1). -/
def State.remoteRecord (s : State) (i gen msg pos status eng flags part result tag detail : Nat) (cmd : Nat) :
    State :=
  let c := s.conn i
  if c.gen = gen ∧ (c.st = .opened ∨ c.st = .closing) then
    let s := s.setConn i (c.descDone msg)
    let phase := (s.fresh 1).toNat
    s.drawn.sendMsg i 6 0 0 32 []
      (recordBytes ((msg % 2 ^ 28) * 16 + pos) status eng (flags + phase) part result tag detail s.ft.now.toNat)
      (.record cmd) none
  else s.count 0 Reg.RT_CPL_DROP_CNT 1

end Sys2Proof.Machine
end

