-- ==== Sys2Proof/Machine/Commands.lean ====
section
/-!
DEFINITION. Rings, doorbells, waymarks, fences and the life of a command (spec/09): taking, waiting, completing.
-/

namespace Sys2Proof.Machine

/-! Waymarks (R265 to R270). -/

/-- COUNT of a waymark value. -/
def wmCount (v : BitVec 64) : Nat := v.toNat % 2 ^ 63

/-- POISON of a waymark value. -/
def wmPoison (v : BitVec 64) : Bool := getB v 63

/-- A waymark value. -/
def wmMake (count : Nat) (poison : Bool) : BitVec 64 := BitVec.ofNat 64 (count + if poison then 2 ^ 63 else 0)

/-- The watch of a partition fires (R270). -/
def State.watchFire (s : State) (p : Nat) : State :=
  let fn := vfOf p
  let v := (s.wm p (s.regF fn Reg.CQ_WATCH_CTL 0 12))
  let want := s.regF fn Reg.CQ_WATCH_HI 0 31 * 2 ^ 32 + (s.reg fn Reg.CQ_WATCH_LO).toNat
  if s.regB fn Reg.CQ_WATCH_CTL 31 && v.ok && decide (want ≤ wmCount v.val) then
    (s.setRegB fn Reg.CQ_WATCH_CTL 31 false).msix fn 7
  else s

/-- Add to the COUNT of a waymark whose pair is valid (R265). -/
def State.wmIncrease (s : State) (p w n : Nat) (poison : Bool) : State :=
  let v := (s.wm p w).val
  let sum := wmCount v + n
  let s := s.setWm p w (pairOf (wmMake (min sum (2 ^ 63 - 1)) (wmPoison v || poison)))
  let s := if 2 ^ 63 - 1 < sum then s.cqError p [5] else s
  s.watchFire p

/-- SIGNAL (R267). -/
def State.signal (s : State) (p w : Nat) (poison : Bool) : State :=
  if (s.wm p w).ok then s.wmIncrease p w 1 poison
  else (s.cplFault (.waymark p w)).cqError p [4]

/-! Rings (R254 to R256). -/

/-- Offset of a per-engine register of the CQ block. -/
def cqReg (off e : Nat) : Nat := off + 0x40 * e

/-- Commands taken from a host ring and not yet completed (R255). -/
def State.takenFrom (s : State) (p e : Nat) : Nat :=
  (s.cmds.filter fun c => c.q == .host p e && !c.discard).length

/-- log2 of the submission ring size. -/
def State.subLog (s : State) (p e : Nat) : Nat := s.regF (vfOf p) (cqReg Reg.CQ_RING_CFG e) 0 5

/-- log2 of the completion ring size. -/
def State.cplLog (s : State) (p e : Nat) : Nat := s.regF (vfOf p) (cqReg Reg.CQ_RING_CFG e) 8 5

/-- A 64-bit address held in a LO and a HI register. -/
def State.reg64 (s : State) (fn lo hi : Nat) : Nat := (s.reg fn hi).toNat * 2 ^ 32 + (s.reg fn lo).toNat

/-- Stop an ACTIVE ring; rings in other states keep their state (R256). -/
def State.stopRing (s : State) (p e : Nat) : State :=
  let r := s.ring p e
  if r.st = .active then s.setRing p e { r with st := .stopped } else s

/-- Rings that an event stops, with the bits that it sets: vector 6 is raised once for the event (R256, R258). -/
def State.ringFault (s : State) (p : Nat) (es bits : List Nat) : State :=
  let stopped := es.any fun e => (s.ring p e).st == .active
  let v := s.reg (vfOf p) Reg.CQ_ERR_STAT
  let v' := bits.foldl (fun v i => setB v i true) v
  let s' := (es.foldl (fun (s : State) e => s.stopRing p e) s).setReg (vfOf p) Reg.CQ_ERR_STAT v'
  if stopped ∨ v' ≠ v then s'.msix (vfOf p) 6 else s'

/-- A DRAINING ring with no taken descriptor left becomes DISABLED (R256). -/
def State.drainRing (s : State) (p e : Nat) : State :=
  let r := s.ring p e
  if r.st = .draining ∧ s.takenFrom p e = 0 then
    { (s.setRing p e { r with st := .disabled }) with links := terase s.links (p * 8 + e) }
  else s

/-! The steps of a command (R252). -/

/-- OP of an APPEND, KINDLE or ROW descriptor. -/
def dOp (d : BitVec 512) : Nat := dF d 16 1

/-- The status of success (R267). -/
def succeeded (status : Nat) : Bool := status == 0 || status == 1

/-- A life or power state, as it is asked for, refuses a descriptor (R391, R392, R404; log entry 12). -/
def State.refuses (s : State) (eng op : Nat) (nop : Bool) : Bool :=
  let life := if s.standbyWanted then Life.standby else s.life
  (match life with
   | .standby => !(nop || eng == 4 || eng == 5 || (eng == 3 && (op == 1 || op == 2)))
   | .service => false
   | .drain => eng == 1 && op == 1 && !nop
   | _ => true) ||
  s.power == .banked || s.powerWant == .banked ||
  (eng == 3 && op == 0 && !nop && (s.power == .damped || s.powerWant == .damped))

/-- RESULT of a descriptor that ends before its body: PUBLISHED of the key for an APPEND, OPEN or CLOSE (R95), else 0. -/
def State.unbegun (s : State) (eng part : Nat) (d : BitVec 512) : Word :=
  if eng = 1 ∧ !dNop d then BitVec.ofNat 32 (s.pubOf ⟨part, dF d 24 8, dF d 18 1⟩) else 0

/-- The engine's own check list decides a refusal by R392: ATTEND, MERGE and KINDLE OP 0 (R140, R195, R218). -/
def ownRefusal (eng op : Nat) : Bool := eng == 0 || eng == 2 || (eng == 3 && op == 0)

/-- A command leaves step 2 of R252 and may start: a refused one ends at once, ADRIFT first (R392). -/
def State.enterBody (s : State) (id : Nat) : State :=
  let s := match s.cmd? id with
    | some c => if s.cmds.any fun (x : Cmd) => x.phase == Phase.ready && queueKey x.q == queueKey c.q then s
                else s.queueReady (queueKey c.q)
    | none => s
  s.setCmd id fun c =>
    let c := { c with started := s.posted, waited := c.waited || (dWait c.desc && decide (c.waitFrom < s.ms)) }
    if c.refused && (dNop c.desc || !ownRefusal c.eng (dOp c.desc)) then
      { c with phase := .ended, result := s.unbegun c.eng c.part c.desc, status := if s.adrift && decide (c.eng < 4) && !dNop c.desc then 0x10 else 0x0F }
    else { c with phase := .ready }

/-- A command passes step 1 of R252. -/
def State.enterWait (s : State) (id : Nat) : State :=
  match s.cmd? id with
  | some c =>
    if dWait c.desc then s.setCmd id fun c => { c with phase := .waiting, waitFrom := s.ms }
    else s.enterBody id
  | none => s

/-- A command is aborted by the LINK of the one before it (R269). -/
def State.abortLinked (s : State) (id : Nat) : State :=
  match s.cmd? id with
  | some c =>
    (s.setCmd id fun c => { c with phase := .ended, status := 0x0A, result := s.unbegun c.eng c.part c.desc,
                                    linkAbort := true, started := s.posted }).count
      (vfOf c.part) Reg.CQ_ABORT_CNT 1
  | none => s

/-- The commands that wait for the LINK of a command that completed (R269). -/
def State.releaseLinks (s : State) (id : Nat) (failed : Bool) : State :=
  let s : State := { s with links := s.links.map fun (l : Nat × Link) =>
    if l.2.pred = id ∧ l.2.failed = none then (l.1, { l.2 with failed := some failed }) else l }
  (s.cmds.filter fun (c : Cmd) => c.phase == .linked id).foldl
    (fun (s : State) (c : Cmd) => if failed then s.abortLinked c.id else s.enterWait c.id) s

/-- DETAIL that a descriptor brings: REQ_TAG of an ATTEND or a MERGE (R262). -/
def dTag (eng : Nat) (d : BitVec 512) : BitVec 64 :=
  if eng = 0 then BitVec.ofNat 64 (dF d 56 8) else if eng = 2 then BitVec.ofNat 64 (dF d 48 8) else 0

/-- Take a descriptor into a command (R251, R252). -/
def State.take (s : State) (q : Queue) (eng part msg gen : Nat) (index : BitVec 32) (last : Bool) (d : BitVec 512)
    (payload : List Byte) : State :=
  let id := s.nextId
  let good := headerOk eng last d
  let lnk : Option Link := (s.links.find? fun (l : Nat × Link) => l.1 == queueKey q).map (·.2)
  let c : Cmd := { id := id, q := q, index := index, msg := msg, gen := gen, part := part, eng := eng, desc := d,
                   payload := payload, phase := .ended, status := 0x0C, result := s.unbegun eng part d, detail := dTag eng d, linkAbort := false,
                   poisoned := false, waited := false, fences := good,
                   refused := s.refuses eng (dOp d) (dNop d), discard := false, waitFrom := s.ms,
                   started := s.posted }
  let carries := dLink d && !last
  let s : State := { s with
    nextId := id + 1, cmds := s.cmds ++ [c],
    links := if carries then
        tput (fun _ => ⟨0, some false⟩) s.links (queueKey q) ⟨id, if good then none else some true⟩
      else terase s.links (queueKey q) }
  if good then
    match lnk with
    | some ⟨_, some true⟩ => s.abortLinked id
    | some ⟨p, none⟩ => s.setCmd id fun c => { c with phase := .linked p }
    | _ => s.enterWait id
  else s

/-- A command of a host ring, or of the present generation of its connection: one of an earlier generation stands in no
queue any more (R260, R292). -/
def State.ofNow (s : State) (c : Cmd) : Bool :=
  match c.q with
  | .host _ _ => true
  | .inbound i _ => c.gen == (s.conn i).gen

/-- A queue holds a taken command that has not left step 2, so the next is not taken (R249, R266; log entry 13). -/
def State.queueBusy (s : State) (q : Queue) : Bool :=
  s.cmds.any fun c => c.q == q && s.ofNow c && (c.phase == .waiting || match c.phase with | .linked _ => true | _ => false)

/-- ATTENDs in flight, from acceptance until their completions are posted, with the local requests of KINDLEs (R141,
R221). -/
def State.inFlight (s : State) : Nat := s.reqs.length

/-- An engine is at one of its limits, of the node or of a partition: it takes nothing and starts nothing (R141, R195, R249,
R338). The limit of R219 holds executing KINDLEs, not started ones (log entry 85). -/
def State.engineFull (s : State) (p e : Nat) : Bool :=
  match e with
  | 0 => decide (16384 ≤ s.inFlight ∨ recField (s.entryVal p) 58 2 ≤ (s.reqs.filter fun r => r.part == p).length)
  | 2 => decide (4096 ≤ s.merges.length ∨ recField (s.entryVal p) 60 2 ≤ (s.merges.filter fun m => m.part == p).length)
  | _ => false

/-- A partition takes descriptors: it is ACTIVE, no reset of it or of the engine runs, and the node is not HELD
(R349, R359, R365, R398). -/
def State.taking (s : State) (p e : Nat) : Bool :=
  s.part p == .active && s.life != .held && !s.resets.any (fun r => r.part == p) &&
  !s.engResets.any (fun r => r.part == p && r.engines.contains e)

/-- I/O virtual address of an entry of a submission ring (R253, R254). -/
def State.subAddr (s : State) (p e i : Nat) : Nat :=
  s.reg64 (vfOf p) (cqReg Reg.CQ_SUB_BASE_LO e) (cqReg Reg.CQ_SUB_BASE_HI e) + 64 * (i % 2 ^ s.subLog p e)

/-- Taking from a host ring: the read of the entry at the head, and the descriptor that it returned (R253, R255). -/
def State.takeHost (s : State) (p e : Nat) (d : BitVec 512) : State :=
  let r := s.ring p e
  if r.st = .active ∧ r.subHead ≠ r.subTail ∧
      s.takenFrom p e + (r.cplTail - r.cplHead).toNat < 2 ^ s.cplLog p e ∧
      s.taking p e ∧ !s.queueBusy (.host p e) ∧ !s.engineFull p e then
    ((s.emit (.hostRead (vfOf p) (s.subAddr p e r.subHead.toNat) 64)).setRing p e { r with subHead := r.subHead + 1 }).take
      (.host p e) e p 0 0 r.subHead false d []
  else s

/-- Taking from an inbound queue of a connection (R260); the descriptor is the one that waits there. -/
def State.takeInbound (s : State) (i e : Nat) : State :=
  match s.inq.find? fun d => d.conn == i && d.eng == e with
  | some d =>
    if s.taking d.part e ∧ !s.queueBusy (.inbound i e) ∧ !s.engineFull d.part e then
      { s with inq := eraseFirst (fun d => d.conn == i && d.eng == e) s.inq }.take (.inbound i e) e d.part d.msg
        (s.conn i).gen (BitVec.ofNat 32 (d.msg % 2 ^ 28 * 16 + d.pos)) d.last d.desc d.payload
    else s
  | none => s

/-- DESCRIPTOR_TAKE. -/
def execDescriptorTake (q : Queue) (desc : BitVec 512) (s : State) : Host.Outcome State Fault Refusal :=
  .next (match q with
    | .host p e => s.takeHost p e desc
    | .inbound i e => s.takeInbound i e)

/-- DESCRIPTOR_READ_FAIL (R257): the read was made while the ring was ACTIVE with a descriptor to take; the ring may have
left that state since (R256). -/
def execDescriptorReadFail (part engine : Nat) (_e : HostErr) (s : State) : Host.Outcome State Fault Refusal :=
  let r := s.ring part engine
  .next (if 6 ≤ engine ∨ (r.st = .active ∧ r.subHead = r.subTail) then s
    else
      let s := if r.st = .active then s.emit (.hostRead (vfOf part) (s.subAddr part engine r.subHead.toNat) 64) else s
      s.ringFault part [engine] [2])

/-- WAIT_SATISFIED (R266): the COUNT has reached WAIT_VALUE, or the pair is not valid. -/
def execWaitSatisfied (cmd : Nat) (s : State) : Host.Outcome State Fault Refusal :=
  .next (match s.cmd? cmd with
    | some c =>
      let v := s.wm c.part (dWaitWm c.desc)
      let waited := decide (c.waitFrom < s.ms)
      if c.phase ≠ .waiting then s
      else if !v.ok then
        (s.cplFault (.waymark c.part (dWaitWm c.desc))).setCmd cmd fun c =>
          { c with phase := .ended, status := 0x0E, result := s.unbegun c.eng c.part c.desc, waited := waited, started := s.posted }
      else if wmCount v.val < dWaitValue c.desc then s
      else if wmPoison v.val then
        (s.setCmd cmd fun c => { c with phase := .ended, status := 0x0A, result := s.unbegun c.eng c.part c.desc,
                                        poisoned := true, waited := waited,
                                        started := s.posted }).count (vfOf c.part) Reg.CQ_ABORT_CNT 1
      else s.enterBody cmd
    | none => s)

/-- WAIT_TIMEOUT (R266). -/
def execWaitTimeout (cmd : Nat) (s : State) : Host.Outcome State Fault Refusal :=
  .next (match s.cmd? cmd with
    | some c =>
      let v := s.wm c.part (dWaitWm c.desc)
      let limit := s.regF (vfOf c.part) Reg.CQ_CFG 0 16
      if c.phase = .waiting ∧ limit ≠ 0 ∧ c.waitFrom + limit ≤ s.ms ∧ v.ok ∧ wmCount v.val < dWaitValue c.desc then
        (s.setCmd cmd fun c => { c with phase := .ended, status := 0x0B, result := s.unbegun c.eng c.part c.desc,
                                        waited := decide (c.waitFrom < s.ms),
                                        started := s.posted }).count (vfOf c.part) Reg.CQ_TIMEOUT_CNT 1
      else s
    | none => s)

/-- The queue of a command has its turn (R249; log entry 84): of the ready queues of its engine whose partition is at no
limit, it has been ready the longest. -/
def State.inTurn (s : State) (c : Cmd) : Bool :=
  match s.turns.find? fun k => s.cmds.any fun x =>
    x.phase == .ready && x.eng == c.eng && queueKey x.q == k && !s.engineFull x.part x.eng with
  | some k => k == queueKey c.q
  | none => true

/-- The body of a command may begin: it is ready, no earlier command of its queue is still to begin (R271), its engine is at
no limit, and its queue has its turn (R249). -/
def State.bodyReady (s : State) (c : Cmd) : Bool :=
  c.phase == .ready && !(s.cmds.any fun x => x.q == c.q && x.gen == c.gen && decide (x.id < c.id) && x.phase == .ready) &&
  !s.engineFull c.part c.eng && s.inTurn c

/-- The command whose body may begin, of an engine, without NOP. -/
def State.starting? (s : State) (id eng : Nat) : Option Cmd :=
  match s.cmd? id with
  | some c => if s.bodyReady c && c.eng == eng && !dNop c.desc then some c else none
  | none => none

/-- NOP (R269): the body does nothing. -/
def execNop (cmd : Nat) (s : State) : Host.Outcome State Fault Refusal :=
  .next (match s.cmd? cmd with
    | some c => if s.bodyReady c && dNop c.desc then s.endCmd cmd 0 0 else s
    | none => s)

/-! Completion (R252 steps 4 to 7, R262, R263). -/

/-- FLUSH (R268): earlier images of the covered writes are gone. -/
def State.flush (s : State) (c : Cmd) : State :=
  { s with stale := s.stale.filter fun x =>
      !(x.cmd == c.id || (x.part == c.part && x.posted.any fun k => decide (k < c.started))) }

/-- CFLAGS without PHASE (R262). -/
def Cmd.flags (c : Cmd) : Nat :=
  (if c.linkAbort then 2 else 0) + (if c.poisoned then 4 else 0) + (if c.waited then 8 else 0)

/-- Steps 4 and 5: FLUSH and SIGNAL (R252, R267). -/
def State.fence (s : State) (c : Cmd) : State :=
  if c.fences then
    let s := if dFlush c.desc then s.flush c else s
    if dSignal c.desc && c.status != 9 then
      s.signal c.part (dSignalWm c.desc) (dPoison c.desc && !succeeded c.status)
    else s
  else s

/-- The counters of completed commands (R104, R137, R171, R203, R227, R246). A NOP completes no command of its engine; R137
counts ROW descriptors and does not say whether it counts one (log entry 86). -/
def State.countDone (s : State) (c : Cmd) : State :=
  if dNop c.desc then s
  else
    let s := match c.eng with
      | 0 => s.count 0 Reg.AT_REQ_CNT 1
      | 1 => if dOp c.desc = 0 ∧ c.status = 0 then s.count 0 Reg.PG_APPEND_CNT 1 else s
      | 2 => s.count 0 Reg.MG_MERGE_CNT 1
      | 3 => if dOp c.desc = 0 ∧ c.status ≠ 0 then s.count 0 Reg.KN_FAIL_CNT 1 else s
      | 5 => s.count 0 Reg.FL_ROW_CNT 1
      | _ => s
    if c.status = 2 then s.count 0 Reg.PR_KINDLING_CNT 1 else s

/-- The engine state of a command is dropped with it. -/
def State.dropCmd (s : State) (id : Nat) : State :=
  { s with cmds := s.cmds.filter (·.id != id), reqs := s.reqs.filter (·.id != id),
           merges := s.merges.filter (·.id != id), kindles := s.kindles.filter (·.cmd != id),
           hauls := s.hauls.filter (·.cmd != id), rows := s.rows.filter (·.cmd != id),
           holds := s.holds.filter (·.cmd != id) }

/-- Number the posted record among all postings, and mark the writes of the command (R268). -/
def State.postedNow (s : State) (id : Nat) : State :=
  { s with stale := s.stale.map (fun x => if x.cmd = id then { x with posted := some s.posted } else x),
           posted := s.posted + 1 }

/-- Post a record in a host completion ring: two writes, PHASE last (R263). -/
def State.postHost (s : State) (c : Cmd) (p e : Nat) : State :=
  let r := s.ring p e
  let lg := s.cplLog p e
  let phase := if r.cplTail.toNat / 2 ^ lg % 2 = 0 then 1 else 0
  let addr := s.reg64 (vfOf p) (cqReg Reg.CQ_CPL_BASE_LO e) (cqReg Reg.CQ_CPL_BASE_HI e) +
    32 * (r.cplTail.toNat % 2 ^ lg)
  let rec32 := recordBytes c.index.toNat c.status c.eng (c.flags + phase) c.part c.result.toNat (dUserTag c.desc)
    c.detail.toNat s.ft.now.toNat
  ((s.emit (.record (vfOf p) addr rec32)).emit (.hostWrite (vfOf p) (addr + 6) [BitVec.ofNat 8 (c.flags + phase)])).setRing
    p e { r with cplTail := r.cplTail + 1 }

/-- Step 6 and 7 of R252 for a command: the record, then the interrupt. `lost` tells that the write of the record
failed (R257). -/
def State.post (s : State) (c : Cmd) (lost : Bool) : State :=
  match c.q with
  | .host p e =>
    if c.discard then s.count 0 Reg.LS_CPL_DISCARD_CNT 1
    else if lost then
      let r := s.ring p e
      (s.setRing p e { r with cplTail := r.cplTail + 1 }).ringFault p [e] [3]
    else
      let s := s.postHost c p e
      if dIrq c.desc then s.msix (vfOf p) e else s
  | .inbound i _ =>
    s.remoteRecord i c.gen c.msg (c.index.toNat % 16) c.status c.eng c.flags c.part c.result.toNat (dUserTag c.desc)
      c.detail.toNat c.id

/-- Complete a command whose body has ended. -/
def State.complete (s : State) (c : Cmd) (lost : Bool) : State :=
  let s := (s.fence c).post c lost
  let s := ((s.postedNow c.id).countDone c).dropCmd c.id
  let s := s.releaseLinks c.id (!succeeded c.status)
  match c.q with
  | .host p e => s.drainRing p e
  | .inbound _ _ => s

/-- The body of a command has ended, and no forwarded APPEND of it is outstanding (R384). -/
def State.done? (s : State) (id : Nat) : Option Cmd :=
  match s.cmd? id with
  | some c => if c.phase = .ended ∧ !s.forwards.any (fun f => f.cmd == id) then some c else none
  | none => none

/-- DESCRIPTOR_COMPLETE (R252). -/
def execDescriptorComplete (cmd : Nat) (s : State) : Host.Outcome State Fault Refusal :=
  .next (match s.done? cmd with
    | some c => s.complete c false
    | none => s)

/-- CPL_WRITE_FAIL (R257): the command's effects and its signal stand, and its record is lost. -/
def execCplWriteFail (cmd : Nat) (_e : HostErr) (s : State) : Host.Outcome State Fault Refusal :=
  .next (match s.done? cmd with
    | some c => match c.q with
      | .host _ _ => s.complete c true
      | .inbound _ _ => s
    | none => s)

/-! Doorbells and ring control (R254, R256, R278). -/

/-- A doorbell write that is not valid (R254). -/
def State.badDoorbell (s : State) (p e : Nat) : State := s.ringFault p [e] [0]

/-- DOORBELL_SUB. -/
def execDoorbellSub (fn engine : Nat) (v : Word) (s : State) : Host.Outcome State Fault Refusal :=
  let p := fn - 1
  let r := s.ring p engine
  .next (
    if fn = 0 ∨ 6 ≤ engine ∨ !s.fnServed fn ∨ r.st = .disabled then s.unserved fn
    else if (v - r.subHead).toNat ≤ 2 ^ s.subLog p engine then s.setRing p engine { r with subTail := v }
    else s.badDoorbell p engine)

/-- DOORBELL_CPL. -/
def execDoorbellCpl (fn engine : Nat) (v : Word) (s : State) : Host.Outcome State Fault Refusal :=
  let p := fn - 1
  let r := s.ring p engine
  .next (
    if fn = 0 ∨ 6 ≤ engine ∨ !s.fnServed fn ∨ r.st = .disabled then s.unserved fn
    else if (v - r.cplHead).toNat ≤ (r.cplTail - r.cplHead).toNat then s.setRing p engine { r with cplHead := v }
    else s.badDoorbell p engine)

/-- RING_ENABLE: ENABLE written 1 acts in DISABLED alone (R256). -/
def State.ringEnable (s : State) (fn e : Nat) : State :=
  if fn = 0 ∨ !s.fnServed fn then s.unserved fn
  else
    let s := s.setReg fn (cqReg Reg.CQ_RING_CTL e) 1
    if (s.ring (fn - 1) e).st = .disabled then
      { (s.setRing (fn - 1) e ⟨.active, 0, 0, 0, 0⟩) with links := terase s.links ((fn - 1) * 8 + e) }
    else s

/-- RING_DISABLE: ENABLE written 0 acts in ACTIVE and STOPPED (R256). -/
def State.ringDisable (s : State) (fn e : Nat) : State :=
  let r := s.ring (fn - 1) e
  if fn = 0 ∨ !s.fnServed fn then s.unserved fn
  else
    let s := s.setReg fn (cqReg Reg.CQ_RING_CTL e) 0
    if r.st = .active ∨ r.st = .stopped then
      (s.setRing (fn - 1) e { r with st := .draining }).drainRing (fn - 1) e
    else s

/-- RING_ENABLE. -/
def execRingEnable (fn engine : Nat) (s : State) : Host.Outcome State Fault Refusal :=
  .next (if engine < 6 then s.ringEnable fn engine else s)

/-- RING_DISABLE. -/
def execRingDisable (fn engine : Nat) (s : State) : Host.Outcome State Fault Refusal :=
  .next (if engine < 6 then s.ringDisable fn engine else s)

/-! Waymarks from the host (R270, R278). -/

/-- ZERO: a valid pair with value 0 (R270). -/
def State.wmZero (s : State) (fn w : Nat) : State :=
  if fn = 0 ∨ !s.fnServed fn then s.unserved fn
  else
    let s : State := { s with suspects := s.suspects.filter fun (x : Suspect) => x.what != RecRef.waymark (fn - 1) w }
    (s.setWm (fn - 1) w (pairOf 0)).watchFire (fn - 1)

/-- CLEAR_POISON clears bit 63 of a waymark (R270). On a pair that is not valid the node acts on nothing it read
(R65). -/
def State.wmClearPoison (s : State) (fn w : Nat) : State :=
  let v := s.wm (fn - 1) w
  if fn = 0 ∨ !s.fnServed fn then s.unserved fn
  else if v.ok then (s.setWm (fn - 1) w (pairOf (wmMake (wmCount v.val) false))).watchFire (fn - 1)
  else s.cplFault (.waymark (fn - 1) w)

/-- WM_ADD (R278): the whole 64-bit value is added to the COUNT. -/
def State.wmAdd (s : State) (fn w : Nat) (v : BitVec 64) : State :=
  if fn = 0 ∨ !s.fnServed fn then s.unserved fn
  else if (s.wm (fn - 1) w).ok then s.wmIncrease (fn - 1) w v.toNat false
  else (s.cplFault (.waymark (fn - 1) w)).cqError (fn - 1) [4]

/-- The value that a window read of a waymark returns: all ones for a pair that is not valid (R270). -/
def State.wmRead (s : State) (fn w : Nat) : BitVec 64 :=
  let v := s.wm (fn - 1) w
  if v.ok then v.val else BitVec.allOnes 64

/-- The state after a read of a waymark: a complement fault counts (R65). -/
def State.wmSeen (s : State) (fn w : Nat) : State :=
  if (s.wm (fn - 1) w).ok then s else s.cplFault (.waymark (fn - 1) w)

/-- WM_ZERO. -/
def execWmZero (fn wm : Nat) (s : State) : Host.Outcome State Fault Refusal :=
  .next (if wm < 4096 then s.wmZero fn wm else s)

/-- WM_CLEAR_POISON. -/
def execWmClearPoison (fn wm : Nat) (s : State) : Host.Outcome State Fault Refusal :=
  .next (if wm < 4096 then s.wmClearPoison fn wm else s)

/-- WM_ADD. -/
def execWmAdd (fn wm : Nat) (v : BitVec 64) (s : State) : Host.Outcome State Fault Refusal :=
  .next (if wm < 4096 then s.wmAdd fn wm v else s)

/-- WM_VALUE_READ: a 64-bit read of the window is single-copy; a 32-bit read of the low word latches the high word
(R278). -/
def execWmValueRead (fn wm : Nat) (wide : Bool) (s : State) : Host.Outcome State Fault Refusal :=
  let v := s.wmRead fn wm
  let t := s.wmSeen fn wm
  .next (if fn = 0 ∨ 4096 ≤ wm ∨ !s.fnServed fn then s.unserved fn
    else if wide then t.emit (.regData64 v)
    else { t with wmLatch := tput (fun _ => 0) t.wmLatch ((fn - 1) * 4096 + wm) (BitVec.ofNat 32 (v.toNat / 2 ^ 32)) }.emit
      (.regData (BitVec.ofNat 32 v.toNat)))

/-- A write of CQ_WATCH_CTL; the watch fires at once when its COUNT is reached (R270). -/
def State.watchArm (s : State) (fn : Nat) (v : Word) : State :=
  if fn = 0 ∨ !s.fnServed fn then s.unserved fn
  else (s.setReg fn Reg.CQ_WATCH_CTL (v &&& 0x80000FFF#32)).watchFire (fn - 1)

/-- WATCH_ARM. -/
def execWatchArm (fn : Nat) (v : Word) (s : State) : Host.Outcome State Fault Refusal := .next (s.watchArm fn v)

end Sys2Proof.Machine
end

