-- ==== Sys2Proof/Machine/Pages.lean ====
section
/-!
DEFINITION. The sequence directory and its ownership records (R81 to R84, R376), page slots and their placement
(R74, R228, R229), what a drop is and which unit it takes (R231 to R240).
-/

namespace Sys2Proof.Machine

/-- A read of a directory entry: a damaged copy is counted and rewritten from the other, and an entry with no valid
copy is a complement fault (R65, R364). -/
def State.dirSeen (s : State) (k : DirKey) : State :=
  match s.dir? k with
  | some d =>
    if d.a.ok && d.b.ok then s
    else match d.val? with
      | some v => ((s.count 0 Reg.MT_CPL_FAULT_CNT 1).setRegB 0 Reg.MT_ERR_STAT 1 true).setDir k fun d => d.write v
      | none => s.cplFault (.dir k.part k.seq k.layer)
  | none => s

/-- A read of an ownership record, in the same way. -/
def State.ownSeen (s : State) (k : DirKey) : State :=
  match s.dir? k with
  | some d =>
    if d.oa.ok && d.ob.ok then s
    else match d.own? with
      | some v => ((s.count 0 Reg.MT_CPL_FAULT_CNT 1).setRegB 0 Reg.MT_ERR_STAT 1 true).setDir k fun d => d.writeOwn v
      | none => s.cplFault (.lease k.part k.seq k.layer)
  | none => s

/-- LEASE_END of a record as a full milestone number: the one nearest to now with these low 40 bits (R376, R377). -/
def State.endMs (s : State) (v : BitVec 128) : Nat :=
  let d := (owEnd v + 2 ^ 40 - s.ms % 2 ^ 40) % 2 ^ 40
  if d < 2 ^ 39 then s.ms + d else s.ms + d - 2 ^ 40

/-- The lease of a record is held by this node (R376). -/
def State.holdsOwn (s : State) (v : BitVec 128) : Bool :=
  owState v == 1 && (owEnd v == noEnd || decide (s.ms < s.endMs v))

/-- The node holds the lease of an entry. -/
def State.holdsLease (s : State) (d : Dir) : Bool := match d.own? with | some v => s.holdsOwn v | none => false

/-- The entries of a sequence of a partition. -/
def State.layersOf (s : State) (p seq : Nat) : List Dir := s.dir.filter fun d => d.key.part == p && d.key.seq == seq

/-- The entry in STATE 1 of a key (R82). -/
def State.openEntry (s : State) (k : DirKey) : Option (BitVec 256) :=
  match s.dir? k with
  | some d => match d.val? with
    | some v => if deState v = 1 then some v else none
    | none => none
  | none => none

/-- The span is recorded as dropped in the layer (R459). -/
def State.droppedIn (s : State) (k : DirKey) (span : Nat) : Bool :=
  match s.dir? k with | some d => d.dropped.contains span | none => false

/-- A span of a layer awaits copy on a spare (R386). -/
def State.awaiting (s : State) (k : DirKey) (span : Nat) : Bool :=
  s.rebuilds.any fun (r : Nat × Rebuild) => r.1 == k.part && r.2.mode != 1 && r.2.seq == k.seq &&
    r.2.limits.any (fun l => l.1 == k.layer) && r.2.left.contains span

/-- A span of a layer is missing to a request: dropped, or awaiting copy (R242, R386). -/
def State.missingIn (s : State) (k : DirKey) (span : Nat) : Bool := s.droppedIn k span || s.awaiting k span

/-! Page arenas and slots (R74, R228, R229). -/

/-- A run of arena space in one area: a Flue column, or, for arenas of the compatibility layout, a stack (numbered
from 512; log entry 14). -/
structure Region where
  obj : Nat
  area : Nat
  start : Nat
  size : Nat
  pinned : Bool
  deriving DecidableEq, Repr

/-- Column of the first byte of a slot: its home column for a compatibility arena (R143). -/
def homeColumn (addr : Nat) : Nat := columnOf (native addr)

/-- Area of an arena address. -/
def areaOf (addr : Nat) : Nat :=
  if 0x030000000000 ≤ addr then 512 + (addr - 0x030000000000) / 2 ^ 37 else columnOf addr

/-- First address and bytes of an area. -/
def areaRange (area : Nat) : Nat × Nat :=
  if area < 512 then (0x010000000000 + area * 2 ^ 32, 2 ^ 32)
  else (0x030000000000 + (area - 512) * 2 ^ 37, 2 ^ 37)

/-- A partition may place pages in an area: it owns the columns, none of them is fenced, and a compatibility window
is enabled (R47, R374). -/
def State.areaUsable (s : State) (p area : Nat) : Bool :=
  if area < 512 then s.ownsCol p area && !s.fenced area
  else s.regB 0 Reg.MT_COMPAT_EN (area - 512) &&
    (List.range 32).all fun i => s.ownsCol p (32 * (area - 512) + i) && !s.fenced (32 * (area - 512) + i)

/-- The runs of arena space of a partition, by object number. -/
def State.regions (s : State) (p : Nat) : List Region :=
  (s.objs.filter fun e => e.1 / 1024 == p && objKind e.2 == 0 && objOk e.2).flatMap fun e =>
    let base := objBase e.2
    let last := base + objSize e.2 - 1
    ((List.range (areaOf last - areaOf base + 1)).map fun i =>
      let area := areaOf base + i
      let lo := max base (areaRange area).1
      let hi := min (last + 1) ((areaRange area).1 + (areaRange area).2)
      (⟨e.1 % 1024, area, lo, hi - lo, objPinned e.2⟩ : Region)).filter fun r => s.areaUsable p r.area

/-- The slots that lie in a run. -/
def State.slotsIn (s : State) (p : Nat) (r : Region) : List Slot :=
  s.slots.filter fun x => x.part == p && x.obj == r.obj && decide (r.start ≤ x.addr ∧ x.addr < r.start + r.size)

/-- Free bytes of a run. -/
def State.regionFree (s : State) (p : Nat) (r : Region) : Nat := r.size - ((s.slotsIn p r).map Slot.size).sum

/-- Free arena bytes of a partition in an area. -/
def State.areaFree (s : State) (p area : Nat) : Nat :=
  (((s.regions p).filter fun r => r.area == area).map (s.regionFree p)).sum

/-- Bytes of all allocated page slots of a partition (R228). -/
def State.usage (s : State) (p : Nat) : Nat := ((s.slots.filter fun x => x.part == p).map Slot.size).sum

/-- Hot-tier quota of a partition, in bytes (R228). -/
def State.quota (s : State) (p : Nat) : Nat := (s.reg 0 (Reg.PR_QUOTA + 4 * p)).toNat * 65536

/-- Slots in ascending address. -/
def sortSlots : List Slot → List Slot
  | [] => []
  | x :: t => ins x (sortSlots t)
where
  ins (x : Slot) : List Slot → List Slot
    | [] => [x]
    | y :: t => if x.addr ≤ y.addr then x :: y :: t else y :: ins x t

/-- The first gap of `need` bytes, from `cur` on, among slots in ascending address. -/
def firstGap (need : Nat) (stop : Nat) : Nat → List Slot → Option Nat
  | cur, [] => if cur + need ≤ stop then some cur else none
  | cur, x :: t => if cur + need ≤ x.addr then some cur else firstGap need stop (max cur (x.addr + x.size)) t

/-- A dispatched span-job is still to read its pages, or reads them, or may read them once more since checks of it are
open (R147, R155). -/
def Job.active (j : Job) : Bool :=
  j.phase == .planned || j.phase == .running || (j.phase == .done && !(j.scoreOk && j.valueOk && j.weightOk))

/-- A dispatched span-job reads the slot: it is not freed, moved, recoded or replaced (R147). -/
def State.slotBusy (s : State) (x : Slot) : Bool :=
  s.reqs.any fun r => r.jobs.any fun j => j.active && j.pages.any fun y => y.addr == x.addr

/-- Move bytes within the hot tier. Latent errors are met; a sector that cannot be corrected stays so where it goes
(R128). -/
def State.moveBytes (s : State) (src dst n : Nat) : State :=
  let place (k : Nat) : Nat := if 0x030000000000 ≤ src then compatOf (unitAddr k) else unitAddr k
  let bad := ((s.hitSectors src n).filter fun k => s.eccAt k == .uncorrectable).map fun k =>
    unitOf (native (dst + (place k - src)))
  let t := ((((s.opens src n).opens dst n).scanned src n).clearEcc dst n).store dst (s.bytes src n)
  bad.foldl (fun (s : State) (k : Nat) => s.setEcc k .uncorrectable) t

/-- The placement record of the slot at an address is redirected to another, in arena `obj` (R229). -/
def State.redirect (s : State) (src dst obj : Nat) : State :=
  { s with slots := s.slots.map fun y => if y.addr = src then { y with addr := dst, obj := obj } else y }

/-- Move a slot to an address, with its bytes (R229). -/
def State.moveSlot (s : State) (x : Slot) (dst : Nat) : State :=
  if x.addr = dst then s else (s.moveBytes x.addr dst x.size).redirect x.addr dst x.obj

/-- The slot of a relocation under way. -/
def State.moveOf (s : State) (m : Move) : Option Slot := s.slots.find? fun x => x.addr == m.src

/-- A relocation moves its next bytes, at most `n`, and ends with the redirected record (R229). -/
def State.moveOn (s : State) (m : Move) (n : Nat) : State :=
  match s.moveOf m with
  | none => { s with moves := s.moves.filter (· != m) }
  | some x =>
    let k := min n (x.size - m.done)
    let s := s.moveBytes (m.src + m.done) (m.dst + m.done) k
    if m.done + k = x.size then { s with moves := s.moves.filter (· != m) }.redirect m.src m.dst x.obj
    else { s with moves := s.moves.map fun y => if y = m then { m with done := m.done + k } else y }

/-- Work that needs the slots of a partition runs after the relocations under way. -/
def State.endMoves (s : State) : State := s.moves.foldl (fun (s : State) (m : Move) => s.moveOn m (2 ^ 30)) s

/-- Close the gaps of a run, in ascending address; slots that a dispatched span-job reads stay (R147, R229). -/
def State.compact (s : State) (p : Nat) (r : Region) : State :=
  ((sortSlots (s.slotsIn p r)).foldl (fun (acc : State × Nat) x =>
    if acc.1.slotBusy x then (acc.1, x.addr + x.size) else (acc.1.moveSlot x acc.2, acc.2 + x.size)) (s, r.start)).1

/-- The first gap of a run with `need` bytes. -/
def State.gapIn (s : State) (p need : Nat) (r : Region) : Option Nat :=
  firstGap need (r.start + r.size) r.start (sortSlots (s.slotsIn p r))

/-- Take `need` bytes in a run: the first gap, after closing gaps when no gap is large enough. -/
def State.takeIn (s : State) (p need : Nat) (r : Region) : Option (State × Nat) :=
  match s.gapIn p need r with
  | some a => some (s, a)
  | none =>
    if r.pinned ∨ s.regionFree p r < need then none
    else ((s.compact p r).gapIn p need r).map fun a => (s.compact p r, a)

/-- Take `need` bytes in the first run of a list that has them. -/
def State.takeFirst (s : State) (p need : Nat) : List Region → Option (State × Nat × Nat)
  | [] => none
  | r :: t => match s.takeIn p need r with
    | some (s', a) => some (s', a, r.obj)
    | none => s.takeFirst p need t

/-- Free a run for `need` bytes by moving slots of it to other runs of its area, so that free space in an area is usable
as one run (R229). -/
def State.makeRoom (s : State) (p need : Nat) (r : Region) (others : List Region) : State :=
  if r.pinned then s
  else (sortSlots (s.slotsIn p r)).foldl (fun (s : State) (x : Slot) =>
    if need ≤ s.regionFree p r ∨ s.slotBusy x then s
    else match s.takeFirst p x.size others with
      | some (t, a, o) => (t.moveBytes x.addr a x.size).redirect x.addr a o
      | none => s) s

/-- Take `need` bytes in an area of a partition: in a run that has them, else in one that slots can be moved out of (log
entry 83). -/
def State.takeArea (s : State) (p need area : Nat) : Option (State × Nat × Nat) :=
  let rs := (s.regions p).filter fun r => r.area == area
  match s.takeFirst p need rs with
  | some x => some x
  | none =>
    if s.areaFree p area < need then none
    else (rs.filterMap fun r =>
      let t := s.makeRoom p need r (rs.filter fun o => o != r && !o.pinned)
      (t.takeIn p need r).map fun x => (x.1, x.2, r.obj)).head?

/-- A page that a step needs a slot for. -/
structure Need where
  seq : Nat
  layer : Nat
  kv : Nat
  firstPos : Nat
  size : Nat
  deriving DecidableEq, Repr

/-- Area of the pages that a placement of a span already has (R68, R229). -/
def State.spanArea (s : State) (p : Nat) (n : Need) : Option Nat :=
  (s.slots.find? fun x => x.part == p && x.seq == n.seq && x.layer == n.layer && x.kv == n.kv &&
    x.firstPos / 1024 == n.firstPos / 1024 && (x.use == .live || match x.use with | .kindle _ => true | _ => false)).map
    fun x => areaOf x.addr

/-- The area with the most free space, lowest number on ties (R229). -/
def bestArea (free : List (Nat × Nat)) : Option Nat :=
  (free.foldl (fun (best : Option (Nat × Nat)) e => match best with
    | none => some e
    | some b => if b.2 < e.2 ∨ (b.2 = e.2 ∧ e.1 < b.1) then some e else best) none).map (·.1)

/-- Free space of each area of a partition. -/
def State.freeMap (s : State) (p : Nat) : List (Nat × Nat) :=
  (((s.regions p).map Region.area).dedup).map fun a => (a, s.areaFree p a)

/-- The required area of each page of a step, chosen one after another, each choice seeing the space that earlier
ones take (R229). -/
def planAreas (s : State) (p : Nat) :
    List Need → List (Nat × Nat) → List (Need × Nat) → List (Need × Option Nat)
  | [], _, _ => []
  | n :: t, free, chosen =>
    let same := chosen.find? fun c => c.1.layer == n.layer && c.1.kv == n.kv && c.1.firstPos / 1024 == n.firstPos / 1024
    let area := match same with
      | some c => some c.2
      | none => match s.spanArea p n with
        | some a => some a
        | none => bestArea free
    match area with
    | some a => (n, some a) :: planAreas s p t (free.map fun f => if f.1 = a then (a, f.2 - n.size) else f)
        ((n, a) :: chosen)
    | none => (n, none) :: planAreas s p t free chosen

/-! Dropping (R231 to R240). -/

/-- The kindling record bytes are well formed and hold the span (R239, R240), whatever the copies. -/
def krecOk (bs : List Byte) (seq span : Nat) : Bool :=
  let ts := leAt bs 6 2
  leAt bs 0 1 == 0xCB && leAt bs 1 1 == 1 && decide (leAt bs 2 1 < 2) && leAt bs 3 1 == 0 && leAt bs 4 2 == span &&
  decide (span < 4096 ∧ 1 ≤ ts ∧ ts ≤ 1024) && leAt bs 8 8 == seq && leAt bs 22 2 == 0 && zerosAt bs 32 224 &&
  leAt bs 24 8 == crc64 (sliceB bs 256 (4 * ts)) &&
  ((List.range 1024).all fun t => byteAt bs (256 + 4 * t + 3) == 0) && zerosAt bs (256 + 4 * ts) (4 * (1024 - ts))

/-- The three-copy rule of R240 by its holders. -/
def krecCopies (bs : List Byte) (node : Nat) : Bool :=
  let a := leAt bs 16 2
  let b := leAt bs 18 2
  let c := leAt bs 20 2
  a != 0 && b != 0 && c != 0 && a != b && a != c && b != c && (a == node || b == node || c == node)

/-- Where the local store of a partition would hold the record of a unit: none when it names no store (R240). -/
def State.recordAddr (s : State) (p seq span : Nat) : Option Nat :=
  let klg := s.reg 0 (Reg.PR_KLG + 4 * p)
  let o := s.obj p (getF klg 0 10)
  let n := objSize o / 4352
  if !getB klg 31 || !objOk o || objKind o != 2 || !s.mapped (objBase o) (objSize o) ||
      !s.owned p (objBase o) (objSize o) || n == 0 then none
  else some (objBase o + 4352 * ((crc64 (leBytes 8 seq) + span) % n))

/-- The bytes of a record that the node reads at an address. What a far store holds lies with the host or another node,
so its bytes are free values, those of the `k`-th record from the state's next (log entry 1). -/
def State.recordBytes (s : State) (a k : Nat) : List Byte :=
  if tierOf a = some .far then (List.range 4352).map fun i => Config.freeValue 8 (s.draws + 4352 * k + i) else s.bytes a 4352

/-- The local kindling record of a unit, when it is valid: its fields, its key, its CRC, and the three-copy rule, which a
far store meets by FLAGS.FAR too (R240). -/
def State.localRecord (s : State) (p seq span k : Nat) : Option (List Byte) :=
  match s.recordAddr p seq span with
  | none => none
  | some a =>
    let bs := s.recordBytes a k
    let far := tierOf a == some .far
    if !(!far && s.hasUE a 4352) && krecOk bs seq span && (krecCopies bs s.nodeId || (far && leAt bs 2 1 % 2 == 1)) then
      some bs
    else none

/-- A unit has a valid local record with the number of tokens that `full` asks for. -/
def State.recordValid (s : State) (p seq span k : Nat) (full : Bool) : Bool :=
  match s.localRecord p seq span k with
  | some bs => !full || leAt bs 6 2 == 1024
  | none => false

/-- A record is read at its address: its latent errors are met, and through a host window the read goes out to the host
(R49, R240). -/
def State.recordRead (s : State) (p seq span : Nat) : State :=
  match s.recordAddr p seq span with
  | none => s
  | some a =>
    if tierOf a = some .far then
      let k := (a - 0x100000000000) / 2 ^ 36
      let e := (s.farEntry k).val
      let s : State := { s with draws := s.draws + 4352 }
      if farKind e = 1 then s.emit (.hostRead (vfOf p) (getF e 64 64 + (a - 0x100000000000) % 2 ^ 36) 4352) else s
    else (s.opens a 4352).scanned a 4352

/-- The live slots of a unit (R231). -/
def State.unitSlots (s : State) (p seq span : Nat) : List Slot :=
  s.slots.filter fun x => x.part == p && x.seq == seq && x.firstPos / 1024 == span &&
    (x.use == .live || x.use == .old)

/-- Heat record of a unit. -/
def State.heatOf (s : State) (p seq span : Nat) : Heat :=
  (s.heat.find? fun h => h.part == p && h.seq == seq && h.span == span).getD ⟨p, seq, span, 0, 0, none⟩

/-- Effective heat (R234). -/
def State.effHeat (s : State) (h : Heat) : Nat :=
  let k := (s.ms - h.l) / 2 ^ s.regF 0 Reg.PR_CFG 0 5
  if 8 ≤ k then 0 else h.h / 2 ^ k

/-- Conditions 1 to 7 of R233 but the local record. -/
def State.droppable (s : State) (p seq span : Nat) : Bool :=
  let ls := s.layersOf p seq
  let h := s.heatOf p seq span
  ls.all (fun d => s.holdsLease d && match d.val? with
    | some v => deState v == 1 && decide (1024 * (span + 1) ≤ dePub v)
    | none => false) &&
  ls.all (fun d => !d.dropped.contains span) &&
  !(s.unitSlots p seq span).any (fun x => objPinned (s.obj p x.obj)) &&
  (match h.published with
   | some m => decide (m + s.regF 0 Reg.PR_HEAT 16 16 ≤ s.ms)
   | none => true) &&
  !s.kindles.any (fun k => k.part == p && k.seq == seq && k.executing && decide (span ≤ k.first + k.count - 1))

/-- A drop unit with what R235 ranks it by: key, bytes, and bytes by area. -/
structure Unit' where
  seq : Nat
  span : Nat
  key : List Nat
  bytes : Nat
  areas : List (Nat × Nat)
  deriving DecidableEq, Repr

/-- Lexicographic order of ranks. -/
def lexLt : List Nat → List Nat → Bool
  | a :: t, b :: u => decide (a < b) || (a == b && lexLt t u)
  | _, _ => false

/-- Insert a unit by rank. -/
def insertUnit (u : Unit') : List Unit' → List Unit'
  | [] => [u]
  | v :: t => if lexLt u.key v.key then u :: v :: t else v :: insertUnit u t

/-- A unit with its rank (R235). -/
def State.rank (s : State) (p seq span : Nat) : Unit' :=
  let xs := s.unitSlots p seq span
  let f := (xs.map Slot.size).sum
  let h := s.heatOf p seq span
  let eff := s.effHeat h
  let cost := (s.regF 0 Reg.PR_COST 0 16 + s.regF 0 Reg.PR_COST 16 16 * span) * (16 + s.regF 0 Reg.PR_HEAT 0 8 * eff)
  { seq := seq, span := span, bytes := f,
    key := [cost * 2 ^ 20 / max 1 (ceilDiv f 4096), eff, h.l, seq, 4096 - span],
    areas := ((xs.map fun x => areaOf x.addr).dedup).map fun a =>
      (a, ((xs.filter fun x => areaOf x.addr == a).map Slot.size).sum) }

/-- The units of a partition that are present. -/
def State.unitsOf (s : State) (p : Nat) : List (Nat × Nat) :=
  ((s.slots.filter fun x => x.part == p && x.use == .live).map fun x => (x.seq, x.firstPos / 1024)).dedup

/-- The candidates of a partition in the order of R235. -/
def State.candidates (s : State) (p : Nat) : List Unit' :=
  (((s.unitsOf p).mapIdx fun i u => (i, u)).filter fun x =>
      s.droppable p x.2.1 x.2.2 && s.recordValid p x.2.1 x.2.2 x.1 true).foldr
    (fun x l => insertUnit (s.rank p x.2.1 x.2.2) l) []

/-- The state after candidates were ranked: their records have been read. -/
def State.ranked (s : State) (p : Nat) : State :=
  (s.unitsOf p).foldl (fun (s : State) (u : Nat × Nat) => s.recordRead p u.1 u.2) s

/-- A shortage (R236): bytes needed beyond the quota, and beyond the free space of each area. -/
def shortBy (quota : Nat) (areas : List (Nat × Nat)) : Bool := decide (0 < quota) || areas.any fun a => decide (0 < a.2)

/-- Candidates that foreground dropping takes (R236), or none when they do not suffice. -/
def takeUnits : List Unit' → Nat → List (Nat × Nat) → Option (List Unit')
  | [], q, as => if shortBy q as then none else some []
  | u :: t, q, as =>
    if !shortBy q as then some []
    else if 0 < q ∨ as.any (fun a => decide (0 < a.2) && u.areas.any fun b => b.1 == a.1) then
      (takeUnits t (q - u.bytes) (as.map fun a => (a.1, a.2 - ((u.areas.filter fun b => b.1 == a.1).map (·.2)).sum))).map
        (u :: ·)
    else takeUnits t q as

/-- Condemn a unit (R232, R459). -/
def State.condemn (s : State) (p seq span : Nat) (fg damaged : Bool) : State :=
  let held := fun (d : Dir) => d.key.part == p && d.key.seq == seq &&
    s.slots.any fun x => x.part == p && x.seq == seq && x.layer == d.key.layer && x.firstPos / 1024 == span && x.use == .live
  let s : State := { s with
    dir := s.dir.map fun d => if held d ∧ !d.dropped.contains span then { d with dropped := d.dropped ++ [span] } else d
    slots := s.slots.map fun (x : Slot) =>
      if x.part = p ∧ x.seq = seq ∧ x.firstPos / 1024 = span ∧ (x.use = .live ∨ x.use = .old) then
        { x with use := .condemned, full := some s.ms }
      else x
    heat := s.heat.filter fun (h : Heat) => !(h.part == p && h.seq == seq && h.span == span) }
  let s := s.count 0 Reg.PR_DROP_CNT 1
  let s := if fg then s.count 0 Reg.PR_FG_DROP_CNT 1 else s
  ((s.setReg 0 Reg.PR_LAST_SEQ_LO (BitVec.ofNat 32 seq)).setReg 0 Reg.PR_LAST_SEQ_HI (BitVec.ofNat 32 (seq / 2 ^ 32))).setReg
    0 Reg.PR_LAST_SPAN (BitVec.ofNat 32 (2 ^ 31 + (if damaged then 2 ^ 30 else 0) + p * 2 ^ 24 + span))

/-- Drop a damaged unit (R238). -/
def State.dropDamaged (s : State) (p seq span : Nat) : State :=
  if (s.unitsOf p).contains (seq, span) then
    let ok := s.recordValid p seq span 0 false
    let s := s.recordRead p seq span
    let s := if ok then s else s.setRegB 0 Reg.PR_ERR_STAT 1 true
    s.condemn p seq span false true
  else s

/-- The outcome of an allocation for one step (R236). -/
inductive Alloc where
  /-- Every slot is allocated. -/
  | got (s : State) (slots : List Slot)
  /-- The step waits until the slots of the units condemned for it are freed, or, with none, until span-jobs that read
  slots in the way have ended. -/
  | waits (s : State) (units : List (Nat × Nat))
  /-- NO_CAPACITY. -/
  | fails (s : State)

/-- Allocate the pages of a step in their areas, or name the area in which one finds no run. -/
def State.allocAll (s : State) (p : Nat) (use : SlotUse) :
    List (Need × Option Nat) → List Slot → Except Nat (State × List Slot)
  | [], got => .ok (s, got)
  | (n, area) :: t, got =>
    match area with
    | none => .error 0
    | some a => match s.takeArea p n.size a with
      | none => .error a
      | some (s', addr, o) =>
        let x : Slot := { part := p, seq := n.seq, layer := n.layer, kv := n.kv, firstPos := n.firstPos, addr := addr,
                          size := n.size, obj := o, use := use, full := none }
        { s' with slots := s'.slots ++ [x] }.allocAll p use t (got ++ [x])

/-- Foreground dropping condemns candidates for a step, or fails (R236). -/
def State.dropFor (s : State) (p q : Nat) (areas : List (Nat × Nat)) : Alloc :=
  match takeUnits (s.candidates p) q areas with
  | some us => .waits (us.foldl (fun s u => s.condemn p u.seq u.span true false) (s.ranked p))
      (us.map fun u => (u.seq, u.span))
  | none => .fails (((s.ranked p).setRegB 0 Reg.PR_ERR_STAT 0 true).count 0 Reg.PR_NOCAP_CNT 1)

/-- Allocate the slots of a step, by foreground dropping when it is short (R229, R230, R236). Where the free space of an
area cannot be made one run, the step waits for the span-jobs that read slots there, and with none it is short in that
area (log entry 83). -/
def State.allocate (s : State) (p : Nat) (use : SlotUse) (needs : List Need) : Alloc :=
  let s := s.endMoves
  let plan := planAreas s p needs (s.freeMap p) []
  let total := (needs.map Need.size).sum
  let q := if needs.isEmpty then 0 else s.usage p + total - s.quota p
  let areas := (((plan.filterMap (·.2)).dedup).map fun a =>
    (a, ((plan.filter fun x => x.2 == some a).map fun x => x.1.size).sum - s.areaFree p a))
  let noCap (s : State) := Alloc.fails ((s.setRegB 0 Reg.PR_ERR_STAT 0 true).count 0 Reg.PR_NOCAP_CNT 1)
  if plan.any (fun x => x.2 == none) then noCap s
  else if !shortBy q areas then
    match s.allocAll p use plan [] with
    | .ok (s', got) =>
      .got (s'.hwm 0 (Reg.PR_USED_HWM + 4 * p) (ceilDiv (s'.usage p) 65536)) got
    | .error a =>
      if s.slots.any fun x => x.part == p && areaOf x.addr == a && s.slotBusy x then .waits s []
      else s.dropFor p 0 [(a, 1)]
  else s.dropFor p q areas

/-- UNIT_FREE (R232): the slots of a condemned unit are freed once the span-jobs dispatched before its condemnation
have ended. -/
def execUnitFree (part seq span : Nat) (s : State) : Host.Outcome State Fault Refusal :=
  let mine := fun (x : Slot) => x.part == part && x.seq == seq && x.firstPos / 1024 == span && x.use == .condemned
  .next (if s.slots.any (fun x => mine x && s.slotBusy x) then s
    else { s with slots := s.slots.filter fun x => !mine x })

/-- Usage of a partition with condemned slots counted as freed (R237). -/
def State.usageKept (s : State) (p : Nat) : Nat :=
  ((s.slots.filter fun x => x.part == p && x.use != .condemned).map Slot.size).sum

/-- The units that background dropping condemns now (R237): at most `k`, until usage meets LOW_WM. -/
def bgUnits (low : Nat) : Nat → Nat → List Unit' → List Unit'
  | 0, _, _ => []
  | _ + 1, _, [] => []
  | k + 1, used, u :: t => if used * 256 ≤ low then [] else u :: bgUnits low k (used - u.bytes) t

/-- BACKGROUND_DROPPING (R237): starts when usage exceeds quota × HIGH_WM / 256, goes on over the milestones, and
stops at quota × LOW_WM / 256 or when no candidate is left. -/
def execBackgroundDropping (part : Nat) (s : State) : Host.Outcome State Fault Refusal :=
  let cfg := s.reg 0 Reg.PR_CFG
  let most := getF cfg 8 8
  let low := s.quota part * getF cfg 16 8
  let made := ((s.bg.find? fun b => b.1 == part).map (·.2.1)).getD 0
  let active := ((s.bg.find? fun b => b.1 == part).map (·.2.2)).getD false
  .next (
    if most = 0 then s
    else if !active && decide (s.usage part * 256 ≤ s.quota part * getF cfg 24 8) then s
    else
      let cands := s.candidates part
      let us := bgUnits low (most - made) (s.usageKept part) cands
      let s' := us.foldl (fun s u => s.condemn part u.seq u.span false false) (s.ranked part)
      let rest := s.bg.filter (·.1 != part)
      { s' with bg := (part, (made + us.length, !(decide (s'.usageKept part * 256 ≤ low) || us.length == cands.length))) ::
          rest })

/-! Pages as stored (R74, R76). -/

/-- The live slot of a page. -/
def State.liveSlot (s : State) (p seq layer kv first : Nat) : Option Slot :=
  s.slots.find? fun x => x.part == p && x.seq == seq && x.layer == layer && x.kv == kv && x.firstPos == first &&
    x.use == .live

/-- The trailer of a slot. -/
def State.trailer (s : State) (x : Slot) : Option Trailer := Trailer.parse (s.bytes (x.addr + x.size - 512) 512)

/-- The data region of a slot, whose page has `n` rows of head dimension `d`. -/
def State.pageData (s : State) (x : Slot) (n d : Nat) : List Byte := s.bytes x.addr (x.size - bandBytes n d - 512)

/-- The K and V rows of a stored page, decoded when it is coded; none when the stream is rejected (R102). -/
def State.pageRows (s : State) (x : Slot) (coded : Bool) (n d w : Nat) :
    Option (List (List Byte) × List (List Byte)) :=
  let data := s.pageData x n d
  let raw := if coded then
      match cinderDecode [] data with
      | some bs => if bs.length = 2 * n * w then some bs else none
      | none => none
    else some data
  raw.map fun bs => (cutRows w n bs, cutRows w n (bs.drop (n * w)))

/-- The tally string of a stored page: 480 bytes of the trailer, then the band (R77). -/
def State.pageTally (s : State) (x : Slot) (n d : Nat) : List Byte :=
  (s.bytes (x.addr + x.size - 512) 512).drop 32 ++ s.bytes (x.addr + x.size - 512 - bandBytes n d) (bandBytes n d)

/-- Write rows `[valid - k, valid)` of a page, then its trailer and band with VALID = `valid` and tallies over all
rows (R91, R222). `ks`, `vs` are the K and V rows 0 to `valid - 1`. -/
def State.writePage (s : State) (cmd : Nat) (x : Slot) (v : BitVec 256) (kScale vScale : Word) (k : Nat)
    (ks vs : List (List Byte)) : State :=
  let n := classTokens (deClass v)
  let d := headDim (deDim v)
  let w := rowBytes (deFmt v) d
  let valid := ks.length
  let lo := valid - k
  let t : Trailer := { coded := false, fmt := deFmt v, dimCode := deDim v, cls := deClass v, kv := x.kv, layer := x.layer,
                       gen := deGen v % 65536, seq := x.seq, firstPos := x.firstPos, valid := valid,
                       dataGran := dataRaw n w / 256, kScale := kScale, vScale := vScale }
  let s := if lo = 0 then s.codedWrite x.part cmd (x.addr + 2 * n * w) (List.replicate (dataRaw n w - 2 * n * w) 0)
    else s
  let s := s.codedWrite x.part cmd (x.addr + lo * w) ((ks.drop lo).flatMap fun r => sliceB r 0 w)
  let s := s.codedWrite x.part cmd (x.addr + (n + lo) * w) ((vs.drop lo).flatMap fun r => sliceB r 0 w)
  let s := s.codedWrite x.part cmd (x.addr + x.size - 512 - bandBytes n d)
    (bandAndTrailer t n d (tallyString (deFmt v) d n ks vs))
  if valid = n then { s with slots := s.slots.map fun y => if y = x then { y with full := some s.ms } else y } else s

end Sys2Proof.Machine
end

