-- ==== Sys2Proof/Machine/Append.lean ====
section
/-!
DEFINITION. The APPEND engine: OPEN, APPEND with its hold queue, page coding and the directory lookup (R83 to R96,
R103, R104, R384).
-/

namespace Sys2Proof.Machine

/-! The descriptor body (R85). -/

def apFlags (d : BitVec 512) : Nat := dF d 17 1
def apLayer (d : BitVec 512) : Nat := dF d 18 1
def apKvFirst (d : BitVec 512) : Nat := dF d 19 1
def apKvCount (d : BitVec 512) : Nat := dF d 20 1
def apClass (d : BitVec 512) : Nat := dF d 21 1
def apFmt (d : BitVec 512) : Nat := dF d 22 1
def apSeq (d : BitVec 512) : Nat := dF d 24 8
def apPos (d : BitVec 512) : Nat := dF d 32 4
def apCount (d : BitVec 512) : Nat := dF d 36 2
def apSrc (d : BitVec 512) : Nat := dF d 40 8
def apKScale (d : BitVec 512) : Word := BitVec.ofNat 32 (dF d 48 4)
def apVScale (d : BitVec 512) : Word := BitVec.ofNat 32 (dF d 52 4)

/-- Key that an APPEND, OPEN or CLOSE names (R82). -/
def Cmd.key (c : Cmd) : DirKey := ⟨c.part, apSeq c.desc, apLayer c.desc⟩

/-- The reserved fields of every OP are zero. -/
def apZeros (d : BitVec 512) : Bool := dF d 23 1 == 0 && dF d 38 2 == 0 && dF d 56 8 == 0 && decide (apFmt d < 32)

/-- Row bytes that the descriptor's FMT gives (R71). -/
def apRow (d : BitVec 512) : Nat := rowBytes (apFmt d % 8) (headDim (apFmt d / 8))

/-- Source length of an APPEND (R86). -/
def apLen (d : BitVec 512) : Nat := apKvCount d * 2 * apCount d * apRow d

/-- Check 1 of R87 but R42. -/
def apOk (c : Cmd) : Bool :=
  let d := c.desc
  apZeros d && dOp d == 0 && decide (apFlags d < 2) && apClass d == 0 && decide (apFmt d % 8 < 4 ∧ apFmt d / 8 < 3) &&
  (if apFlags d = 1 then c.inline? && decide (apSrc d + apLen d ≤ c.payload.length) else addrOk (apSrc d))

/-- Check 1 of R88 for OPEN. -/
def openOk (d : BitVec 512) : Bool :=
  apZeros d && (apFlags d == 0 || apFlags d == 2) && decide (apFmt d % 8 < 4 ∧ apFmt d / 8 < 3) &&
  (decide (apClass d < 7) || apClass d == 15) && apKvCount d != 0 && decide (apKvFirst d + apKvCount d ≤ 256) &&
  apPos d % 1024 == 0 && apSrc d == 0 && dF d 48 8 == 0

/-- Check 1 of R88 for CLOSE. -/
def closeOk (d : BitVec 512) : Bool :=
  apFlags d == 0 && dF d 19 5 == 0 && dF d 32 32 == 0

/-- Read bytes for an engine: memory with its latent errors met, or free bytes where they come from the far tier, whose
contents lie outside the node (log entry 1). -/
def State.readFor (s : State) (a n : Nat) : List Byte × State :=
  if tierOf a = some .far then
    ((List.range n).map fun i => Config.freeValue 8 (s.draws + i), { s with draws := s.draws + n })
  else (s.bytes a n, (s.opens a n).scanned a n)

/-- End an APPEND, OPEN or CLOSE (R95): `replay` tells that rows were compared and found equal (R89). -/
def State.endAppend (s : State) (c : Cmd) (status : Nat) (replay held : Bool) : State :=
  let s := if replay then s.count 0 Reg.PG_REPLAY_CNT 1 else s
  s.endCmd c.id status (BitVec.ofNat 32 ((if replay then 2 ^ 31 else 0) + (if held then 2 ^ 30 else 0) + s.pubOf c.key))

/-- A TWIN record lets a forwarded APPEND through when it comes from its HOLDER (R384). -/
def State.twinPasses (s : State) (c : Cmd) (o : BitVec 128) : Bool :=
  owState o == 4 && match c.conn? with
    | some i => (s.conn i).peerNode == owHolder o
    | none => false

/-- Checks 1 to 8 of R87: the state, the status of the first that fails (0 when all pass), and the entry. -/
def State.appendHead (s : State) (c : Cmd) : State × Nat × BitVec 256 :=
  let d := c.desc
  let inline := apFlags d = 1
  if !apOk c then (s, 0x0C, 0)
  else if !inline ∧ !s.mapped (apSrc d) (apLen d) then (s.unmappedError, 0x0C, 0)
  else if s.adrift then (s, 0x10, 0)
  else match s.dir? c.key with
    | none => (s, 0x0C, 0)
    | some e =>
      let s := s.dirSeen c.key
      match e.val? with
      | none => (s, 0x0E, 0)
      | some v =>
        if deState v ≠ 1 then (s, 0x0C, v)
        else
          let s := s.ownSeen c.key
          match e.own? with
          | none => (s, 0x0E, v)
          | some o =>
            if !(s.holdsOwn o || s.twinPasses c o) then (s, 0x06, v)
            else if apKvFirst d ≠ deKvFirst v ∨ apKvCount d ≠ deKvCount v ∨ apFmt d ≠ deFmt v + 8 * deDim v ∨
                apCount d = 0 ∨ 4096 < apCount d then (s, 0x0C, v)
            else if apPos d < 1024 * deExt0 v ∨ 1024 * (deExt1 v + 1) < apPos d + apCount d then (s, 0x03, v)
            else if inline then (s, 0, v)
            else
              let r := s.ownCheck c.part (apSrc d) (apLen d)
              (r.1, r.2, v)

/-- The K and V rows of each KV head in the source of an APPEND (R86). -/
def apRows (d : BitVec 512) (src : List Byte) : List (List (List Byte) × List (List Byte)) :=
  let cnt := apCount d
  let w := apRow d
  (List.range (apKvCount d)).map fun h =>
    let blk := src.drop (h * 2 * cnt * w)
    (cutRows w cnt blk, cutRows w cnt (blk.drop (cnt * w)))

/-- First positions of the pages that `[lo, hi)` touches. -/
def pagesOf (n lo hi : Nat) : List Nat :=
  if hi ≤ lo then [] else (List.range ((hi - 1) / n - lo / n + 1)).map fun i => (lo / n + i) * n

/-- The stored pages with rows that an APPEND touches (R80). -/
def State.touched (s : State) (k : DirKey) (v : BitVec 256) (lo hi : Nat) : List Slot :=
  (List.range (deKvCount v)).flatMap fun h =>
    (pagesOf (classTokens (deClass v)) lo hi).filterMap fun f => s.liveSlot k.part k.seq k.layer (deKvFirst v + h) f

/-- Byte ranges of a stored page that a comparison of rows `[lo, hi)` reads (R89): its trailer and the rows, or the
whole region when it is coded. -/
def State.compareRanges (s : State) (x : Slot) (n d w lo hi : Nat) : List (Nat × Nat) :=
  (x.addr + x.size - 512, 512) ::
  (match s.trailer x with
   | some t =>
     if t.coded then [(x.addr, x.size - bandBytes n d - 512)]
     else
       let a := max lo x.firstPos - x.firstPos
       let b := min hi (x.firstPos + n) - x.firstPos
       if b ≤ a then [] else [(x.addr + a * w, (b - a) * w), (x.addr + (n + a) * w, (b - a) * w)]
   | none => [])

/-- The rows of `[lo, hi)` that a page stores equal the source rows (R89); `pos` is the position of source row 0. -/
def State.rowsEqual (s : State) (x : Slot) (n d w pos lo hi : Nat) (src : List (List Byte) × List (List Byte)) : Bool :=
  match s.trailer x with
  | none => false
  | some t =>
    match s.pageRows x t.coded n d w with
    | none => false
    | some (ks, vs) =>
      (List.range (min hi (x.firstPos + n) - max lo x.firstPos)).all fun i =>
        let q := max lo x.firstPos + i
        ks.getD (q - x.firstPos) [] == src.1.getD (q - pos) [] && vs.getD (q - x.firstPos) [] == src.2.getD (q - pos) []

/-- The pages of `[lo, hi)` that have no slot yet, in KV-head order (R229). -/
def State.appendNeeds (s : State) (k : DirKey) (v : BitVec 256) (lo hi : Nat) : List Need :=
  let n := classTokens (deClass v)
  let d := headDim (deDim v)
  (List.range (deKvCount v)).flatMap fun h =>
    ((pagesOf n lo hi).filter fun f => (s.liveSlot k.part k.seq k.layer (deKvFirst v + h) f).isNone).map fun f =>
      ⟨k.seq, k.layer, deKvFirst v + h, f, slotRaw n d (rowBytes (deFmt v) d)⟩

/-- Write the rows of `[lo, hi)` of one KV head into their pages (R91 steps 1 and 2). -/
def State.writeHead (s : State) (c : Cmd) (v : BitVec 256) (kv lo hi : Nat)
    (src : List (List Byte) × List (List Byte)) : State :=
  let n := classTokens (deClass v)
  let d := headDim (deDim v)
  let w := rowBytes (deFmt v) d
  let pos := apPos c.desc
  (pagesOf n lo hi).foldl (fun s f =>
    match s.liveSlot c.part c.key.seq c.key.layer kv f with
    | none => s
    | some x =>
      let a := max lo f
      let b := min hi (f + n)
      let old := match s.pageRows x false n d w with
        | some (ks, vs) => (ks.take (a - f), vs.take (a - f))
        | none => ([], [])
      s.writePage c.id x v (apKScale c.desc) (apVScale c.desc) (b - a) (old.1 ++ (src.1.drop (a - pos)).take (b - a))
        (old.2 ++ (src.2.drop (a - pos)).take (b - a))) s

/-- Start heat records of the units whose first position `[lo, hi)` publishes (R234). -/
def State.heatBuilt (s : State) (p seq lo hi : Nat) : State :=
  (pagesOf 1024 lo hi).foldl (fun s f =>
    if lo ≤ f ∧ !s.heat.any (fun h => h.part == p && h.seq == seq && h.span == f / 1024) then
      { s with heat := ⟨p, seq, f / 1024, 0, s.ms, none⟩ :: s.heat }
    else s) s

/-- The command message that carries one descriptor and its payload (R259). -/
def cmdMessage (eng : Nat) (d : BitVec 512) (payload : List Byte) : List Byte :=
  leBytes 1 1 ++ leBytes 1 eng ++ leBytes 2 0 ++ leBytes 4 payload.length ++ leBytes 8 0 ++ leBytes 64 d.toNat ++ payload

/-- The descriptor that an owner forwards to its twin (R384): the same body with INLINE_SRC, and no fence of the
owner's own (log entry 16). -/
def forwardDesc (d : BitVec 512) : BitVec 512 :=
  let d := setF (setF (setF d 8 8 0) 16 32 0) 64 64 0
  setF (setF d 136 8 1) 320 64 0

/-- Forward a published APPEND to the twin (R384); with no OPEN connection to it, the twin is lost. -/
def State.forwardAppend (s : State) (c : Cmd) (src : List Byte) : State :=
  match s.dir? c.key with
  | none => s
  | some d => match d.own? with
    | none => s
    | some o =>
      if owState o ≠ 1 ∨ owTwin o = 0 ∨ d.twin.isNone then s
      else match s.connTo c.part (owTwin o) with
        | some i =>
          let msg := (s.conn i).nextMsg
          let body := cmdMessage 1 (forwardDesc c.desc) src
          { s.sendMsg i 4 0 0 body.length [] body (.forward c.id) none with
            forwards := s.forwards ++ [⟨c.id, c.key, i, msg⟩] }
        | none =>
          (s.setDir c.key fun d => { d.writeOwn (setF o 48 16 0) with twin := none }).setRegB 0 Reg.FX_ERR_STAT 2 true

/-- Checks 10 to 13 of R87, and R91. A scale that is not finite, positive and normal fails check 11, where R80 puts the other
check of the scales (log entry 87). -/
def State.appendBody (s : State) (c : Cmd) (v : BitVec 256) (held : Bool) : State :=
  let d := c.desc
  let k := c.key
  let pos := apPos d
  let hi := pos + apCount d
  let pub := dePub v
  let n := classTokens (deClass v)
  let dim := headDim (deDim v)
  let w := rowBytes (deFmt v) dim
  let replay := decide (pos < pub)
  let rhi := min hi pub
  let s := s.endMoves
  if (pagesOf 1024 pos hi).any (fun f => s.droppedIn k (f / 1024)) then s.endAppend c 2 false held
  else
    let inline := apFlags d = 1
    let srcUE := !inline && s.hasUE (apSrc d) (apLen d)
    let (src, s) := if inline then (sliceB c.payload (apSrc d) (apLen d), s) else s.readFor (apSrc d) (apLen d)
    let pages := s.touched k v pos hi
    let ranges := pages.flatMap fun x => s.compareRanges x n dim w pos rhi
    let s := ranges.foldl (fun s r => s.scanned r.1 r.2) s
    let rows := apRows d src
    if srcUE ∨ ranges.any (fun r => s.hasUE r.1 r.2) then s.endAppend c 8 false held
    else if !(fposNormal (apKScale d) && fposNormal (apVScale d)) then s.endAppend c 0x0C false held
    else if !rows.all (fun h => (h.1 ++ h.2).all (rowFinite (deFmt v) dim)) then
      (s.setRegB 0 Reg.PG_ERR_STAT 2 true).endAppend c 0x0C false held
    else if pages.any (fun x => match s.trailer x with
        | some t => t.kScale != apKScale d || t.vScale != apVScale d
        | none => true) then
      (s.setRegB 0 Reg.PG_ERR_STAT 3 true).endAppend c 0x0C false held
    else if !pages.all (fun x => s.rowsEqual x n dim w pos pos rhi (rows.getD (x.kv - deKvFirst v) ([], []))) then
      ((s.setRegB 0 Reg.PG_ERR_STAT 0 true).count 0 Reg.PG_MISMATCH_CNT 1).endAppend c 0x0C false held
    else if hi ≤ pub then s.endAppend c 0 replay held
    else
      let lo := max pos pub
      match s.allocate c.part .live (s.appendNeeds k v lo hi) with
      | .fails s => s.endAppend c 0x0D replay held
      | .waits s units =>
        { s with holds := ⟨c.id, k, pos, s.ms, false, units, replay, held, false⟩ :: s.holds }
      | .got s _ =>
        let s := (rows.mapIdx fun i r => (i, r)).foldl (fun s r => s.writeHead c v (deKvFirst v + r.1) lo hi r.2) s
        let s := s.setDir k fun e => e.write (setF v 120 24 hi)
        let s := (s.heatBuilt c.part k.seq lo hi).forwardAppend c src
        s.endAppend c 0 replay held

/-- The checks of R87 from the first, and then the body, or the hold queue (R90). -/
def State.appendStart (s : State) (c : Cmd) (arrived : Nat) : State :=
  let (s, status, v) := s.appendHead c
  let pos := apPos c.desc
  if status ≠ 0 then s.endAppend c status false false
  else if dePub v < pos then
    if 16 ≤ (s.holds.filter fun h => h.key == c.key && h.queued).length then s.endAppend c 0x0D false false
    else { s with holds := s.holds ++ [⟨c.id, c.key, pos, arrived, true, [], false, true, false⟩] }
  else s.appendBody c v false

/-- A held APPEND whose turn has come: PUBLISHED has reached its POSITION (R90). -/
def State.holdDue (s : State) (h : Hold) : Bool := h.queued && decide (h.pos ≤ s.pubOf h.key)

/-- APPEND (R87): the engine takes it; behind an APPEND of its key that waits for slots, or a held one whose turn has
come, it waits its turn (R90). -/
def execAppend (cmd : Nat) (s : State) : Host.Outcome State Fault Refusal :=
  .next (match s.starting? cmd 1 with
    | none => s
    | some c =>
      if dOp c.desc = 1 ∨ dOp c.desc = 2 ∨ !s.awake then s
      else
        let s := s.runCmd cmd
        if s.holds.any fun h => h.key == c.key && (!h.queued || s.holdDue h) then
          { s with holds := s.holds ++ [⟨cmd, c.key, apPos c.desc, s.ms, false, [], false, false, true⟩] }
        else s.appendStart c s.ms)

/-- A pending APPEND may go on: PUBLISHED has reached it and it came first of those so reached, or the slots it waits for
are freed, or the APPENDs before it are done (R90, R236). -/
def State.mayRelease (s : State) (h : Hold) : Bool :=
  let before := s.holds.takeWhile fun x => x.cmd != h.cmd
  let slots := s.holds.any fun x => x.key == h.key && !x.queued && !x.behind
  if h.queued then s.holdDue h && !slots && !before.any fun x => x.key == h.key && s.holdDue x
  else if h.behind then
    !slots && !before.any (fun x => x.key == h.key && x.behind) && !s.holds.any fun x => x.key == h.key && s.holdDue x
  else !s.slots.any fun x => x.part == h.key.part && x.use == .condemned && h.units.contains (x.seq, x.firstPos / 1024)

/-- APPEND_RELEASE (R90): from check 10, or from check 1 for one whose checks have not begun. One that waited for slots
(R236) goes through checks 10 to 13 once more (log entry 88). -/
def execAppendRelease (cmd : Nat) (s : State) : Host.Outcome State Fault Refusal :=
  .next (match s.holds.find? (fun h => h.cmd == cmd), s.cmd? cmd with
    | some h, some c =>
      if s.mayRelease h && s.awake then
        let s : State := { s with holds := s.holds.filter (·.cmd != cmd) }
        if h.behind then s.appendStart c h.arrived
        else
          let s := s.dirSeen h.key
          match s.openEntry h.key with
          | some v => s.appendBody c v h.held
          | none => s.endAppend c 0x0E false h.held
      else s
    | _, _ => s)

/-- APPEND_HOLD_TIMEOUT (R90): 64 milestones from its arrival at the engine. -/
def execAppendHoldTimeout (cmd : Nat) (s : State) : Host.Outcome State Fault Refusal :=
  .next (match s.holds.find? (fun h => h.cmd == cmd), s.cmd? cmd with
    | some h, some c =>
      if h.queued ∧ h.arrived + 64 ≤ s.ms then
        let s : State := { s with holds := s.holds.filter (·.cmd != cmd) }
        ((s.setRegB 0 Reg.PG_ERR_STAT 1 true).count 0 Reg.PG_HOLD_TIMEOUT_CNT 1).endAppend c 0x0B false true
      else s
    | _, _ => s)

/-- Every pending APPEND of a key ends with a status (R84, R90, R378, R379, R381). -/
def State.endPending (s : State) (k : DirKey) (status : Nat) : State :=
  (s.holds.filter fun h => h.key == k).foldl (fun s h =>
    match s.cmd? h.cmd with
    | some c => s.endAppend c status h.replay h.held
    | none => s) { s with holds := s.holds.filter fun h => h.key != k }

/-- PG_CLASS of a partition: the class that a code names, once 15 is resolved (R69, R70). -/
def State.classFor (s : State) (p code : Nat) : Nat :=
  if code = 15 then s.regF 0 (Reg.PG_CLASS + 4 * p) 8 3 else code

/-- The class is allowed (R70). -/
def State.classAllowed (s : State) (p cls : Nat) : Bool := decide (cls < 7) && s.regB 0 (Reg.PG_CLASS + 4 * p) cls

/-- Resident sequences: of a partition, and of the node (R83, R343). -/
def State.resident (s : State) (p : Option Nat) : Nat :=
  (((s.dir.filter fun d => p.all (· == d.key.part)).map fun d => (d.key.part, d.key.seq)).dedup).length

/-- OPEN in the order of R88. -/
def State.openBody (s : State) (c : Cmd) : State :=
  let d := c.desc
  let k := c.key
  let ext0 := apPos d / 1024
  let ext1 := if apCount d = 0 then 4095 else ext0 + apCount d - 1
  let cls := s.classFor c.part (apClass d)
  if !openOk d then s.endAppend c 0x0C false false
  else if s.adrift then s.endAppend c 0x10 false false
  else if 4194304 ≤ apPos d ∨ 4096 < ext0 + apCount d then s.endAppend c 3 false false
  else match s.dir? k with
    | some e =>
      let s := s.dirSeen k
      match e.val? with
      | none => s.endAppend c 0x0E false false
      | some v =>
        if deState v = 1 ∧ deClass v = cls ∧ deFmt v + 8 * deDim v = apFmt d ∧ deKvFirst v = apKvFirst d ∧
            deKvCount v = apKvCount d ∧ deExt0 v = ext0 ∧ deExt1 v = ext1 then s.endAppend c 0 false false
        else s.endAppend c 0x0C false false
    | none =>
      if !s.classAllowed c.part cls then s.endAppend c 0x0F false false
      else if (s.layersOf c.part k.seq).isEmpty ∧ (16 * recField (s.entryVal c.part) 56 2 ≤ s.resident (some c.part) ∨
          65536 ≤ s.resident none) then s.endAppend c 0x0D false false
      else
        let map := (s.fresh 64).toNat
        let v := deMake k.seq k.layer (apKvFirst d) (apKvCount d) c.part 1 cls (apFmt d % 8) (apFmt d / 8)
          (1024 * ext0) ext0 ext1 s.dirGen.toNat map
        let o := if apFlags d = 2 then owMake 0 0 0 0 noEnd 0 else owMake 1 s.nodeId s.nodeId 0 noEnd 1
        let e : Dir := { key := k, a := pairOf v, b := pairOf v, oa := pairOf o, ob := pairOf o, dropped := [],
                         closer := none, sentAt := 0, final := false, twin := none }
        { s.drawn with dir := s.dir ++ [e] }.endAppend c 0 false false

/-- OPEN (R83, R88). -/
def execOpenSeq (cmd : Nat) (s : State) : Host.Outcome State Fault Refusal :=
  .next (match s.starting? cmd 1 with
    | none => s
    | some c => if dOp c.desc = 1 ∧ s.awake then (s.runCmd cmd).openBody c else s)

/-- Dispatched ATTEND work on a key that has not finished (R84). -/
def State.keyBusy (s : State) (k : DirKey) : Bool :=
  s.reqs.any fun r => r.part == k.part && r.seq == k.seq && r.layer == k.layer && r.stride.isSome &&
    r.jobs.any fun j => j.phase == .planned || j.phase == .running

/-- Free an entry: every slot of the layer is freed, the generation counter rises, and the entry goes (R84). -/
def State.freeEntry (s : State) (key : DirKey) : State :=
  let slots := s.slots.filter fun x => !(x.part == key.part && x.seq == key.seq && x.layer == key.layer)
  { s with
    dir := s.dir.filter fun d => d.key != key
    dirGen := s.dirGen + 1
    slots := slots
    suspects := s.suspects.filter fun x =>
      x.what != .dir key.part key.seq key.layer && x.what != .lease key.part key.seq key.layer
    rebuilds := s.rebuilds.map fun r =>
      if r.1 = key.part ∧ r.2.seq = key.seq then (r.1, { r.2 with limits := r.2.limits.filter fun l => l.1 != key.layer })
      else r
    heat := s.heat.filter fun h => !(h.part == key.part && h.seq == key.seq) ||
      slots.any fun x => x.part == h.part && x.seq == h.seq && x.firstPos / 1024 == h.span }

/-- CLOSE_FREE (R84): the dispatched work of a closing entry has finished; every slot of the layer is freed, the
generation counter rises, and the entry goes. -/
def execCloseFree (key : DirKey) (s : State) : Host.Outcome State Fault Refusal :=
  .next (match s.dir? key with
    | none => s
    | some d =>
      let closing := match d.val? with | some v => deState v == 2 | none => d.closer.isSome
      if !closing ∨ s.keyBusy key then s
      else
        let s := s.freeEntry key
        match d.closer with
        | some id => match s.cmd? id with
          | some c => s.endAppend c 0 false false
          | none => s
        | none => s)

/-! Coding full pages (R103). -/

/-- PAGE_CODE: a full page is coded into a new slot of its area, when the coded stream saves enough and the slot needs
no dropping; otherwise the page stays raw. While a dispatched span-job reads the page, the coding waits (R147). -/
def execPageCode (page : PageRef) (s : State) : Host.Outcome State Fault Refusal :=
  .next (match s.liveSlot page.part page.seq page.layer page.kv page.firstPos,
      s.openEntry ⟨page.part, page.seq, page.layer⟩ with
    | some x, some v =>
      let n := classTokens (deClass v)
      let d := headDim (deDim v)
      let w := rowBytes (deFmt v) d
      match x.full, s.trailer x with
      | some _, some t =>
        let raw (s : State) : State := { s with slots := s.slots.map fun y => if y = x then { y with full := none } else y }
        let stream := cinderBuilt 0 (s.bytes x.addr (2 * n * w))
        let gran := ceilDiv stream.length 256
        let size := 256 * gran + bandBytes n d + 512
        if !s.awake ∨ t.coded then s
        else if !s.regB 0 Reg.PG_CINDER_CFG 0 then raw s
        else
        let s := s.endMoves
        if s.slotBusy x then s
        else
        let s := (s.opens x.addr x.size).scanned x.addr x.size
        if s.hasUE x.addr x.size ∨ dataRaw n w / 256 < gran + s.regF 0 Reg.PG_CINDER_CFG 8 8 ∨
            s.quota page.part < s.usage page.part + size then raw s
        else match s.takeArea page.part size (areaOf x.addr) with
          | none => raw s
          | some (s, addr, o) =>
            match s.liveSlot page.part page.seq page.layer page.kv page.firstPos with
            | none => s
            | some x =>
              let band := s.bytes (x.addr + x.size - 512 - bandBytes n d) (bandBytes n d)
              let tail := (s.bytes (x.addr + x.size - 512) 512).drop 32
              let t' := { t with coded := true, dataGran := gran }
              let img := sliceB stream 0 (256 * gran) ++ band ++ t'.bytes ++ tail
              let s := ((s.opens addr size).clearEcc addr size).store addr img
              let s : State := { s with slots := (s.slots.map fun y =>
                if y = x then { y with use := .old, full := some s.ms } else y) ++
                [{ x with addr := addr, size := size, obj := o, full := none }] }
              (s.hwm 0 (Reg.PR_USED_HWM + 4 * page.part) (ceilDiv (s.usage page.part) 65536)).count 0 Reg.PG_CODED_CNT 1
      | _, _ => s
    | _, _ => s)

/-- CODED_OLD_SLOT_FREE (R103): the old slot of a recoded page is freed once the work dispatched on it has finished. -/
def execCodedOldSlotFree (page : PageRef) (s : State) : Host.Outcome State Fault Refusal :=
  let mine := fun (x : Slot) => x.part == page.part && x.seq == page.seq && x.layer == page.layer &&
    x.kv == page.kv && x.firstPos == page.firstPos && x.use == .old
  .next (if s.slots.any (fun x => mine x && s.slotBusy x) then s
    else { s with slots := s.slots.filter fun x => !mine x })

/-! Directory lookup (R104). -/

/-- A write of 1 to PG_DIR_CTL.LOOKUP. One written while BUSY is 1 starts the lookup anew, with the key now in the registers
(log entry 89). -/
def State.dirLookup (s : State) : State :=
  let seq := s.reg64 0 Reg.PG_DIR_SEQ_LO Reg.PG_DIR_SEQ_HI
  let sel := s.reg 0 Reg.PG_DIR_SEL
  { s with lookup := some ⟨⟨getF sel 8 6, seq, getF sel 0 8⟩⟩ }.setReg 0 Reg.PG_DIR_STAT 4

/-- DIR_LOOKUP. -/
def execDirLookup (s : State) : Host.Outcome State Fault Refusal := .next (if s.pf0 then s.dirLookup else s)

/-- Load the words of a value into registers `off`, `off + 4`, ... of a function. -/
def State.setWords (s : State) (fn off n : Nat) (v : Nat) : State :=
  (List.range n).foldl (fun s i => s.setReg fn (off + 4 * i) (BitVec.ofNat 32 (v / 2 ^ (32 * i)))) s

/-- DIR_LOOKUP_DONE. -/
def execDirLookupDone (s : State) : Host.Outcome State Fault Refusal :=
  .next (match s.lookup with
    | none => s
    | some l =>
      let s : State := { s with lookup := none }
      match s.dir? l.key with
      | none => (s.setWords 0 Reg.PG_DIR_W 8 0).setReg 0 Reg.PG_DIR_STAT 0
      | some d =>
        let s := s.dirSeen l.key
        match d.val? with
        | some v => (s.setWords 0 Reg.PG_DIR_W 8 v.toNat).setReg 0 Reg.PG_DIR_STAT 1
        | none => (s.setWords 0 Reg.PG_DIR_W 8 (2 ^ 256 - 1)).setReg 0 Reg.PG_DIR_STAT 3)

end Sys2Proof.Machine
end

