-- ==== Sys2Proof/Machine/Haul.lean ====
section
/-!
DEFINITION. HAUL: moving bytes between objects (R57 to R62, R264, R314).
-/

namespace Sys2Proof.Machine

def haSrcObj (d : BitVec 512) : Nat := dF d 16 2
def haDstObj (d : BitVec 512) : Nat := dF d 18 2
def haMode (d : BitVec 512) : Nat := dF d 20 1
def haBufs (d : BitVec 512) : Nat := dF d 21 1
def haSrcOff (d : BitVec 512) : Nat := dF d 24 8
def haDstOff (d : BitVec 512) : Nat := dF d 32 8
def haLen (d : BitVec 512) : Nat := dF d 40 8
def haFill (d : BitVec 512) : Nat := dF d 48 2
def haFree (d : BitVec 512) : Nat := dF d 50 2

/-- The body keeps R57, in the fields that every mode uses. -/
def haulOk (d : BitVec 512) : Bool :=
  decide (haSrcObj d < 1024 ∧ haDstObj d < 1024 ∧ haMode d ≤ 2) && dF d 22 2 == 0 && dF d 52 12 == 0 &&
  decide (haSrcOff d % 256 = 0 ∧ haDstOff d % 256 = 0 ∧ haLen d ≠ 0 ∧ haLen d % 256 = 0)

/-- The tile fields keep R57; whole mode ignores them, whether it is named or chosen by R58 for the room at hand. -/
def haulTileOk (d : BitVec 512) (room : Nat) : Bool :=
  haMode d == 1 || (haMode d == 0 && decide (haLen d ≤ room)) ||
  decide (2 ≤ haBufs d ∧ haBufs d ≤ 16 ∧ haFill d < 4096 ∧ haFree d < 4096)

/-- Bytes of a tile (R58). -/
def tileSize (src : BitVec 256) : Nat :=
  if objTileRows src = 0 ∨ objRowBytes src = 0 then 65536 else objTileRows src * objRowBytes src

/-- Mode by R58: 1 whole, 2 tile, 0 no capacity. A room of at least LENGTH, and below TILE_BUFS tiles, stands in the first
and in the third column of the table; the first is taken (log entry 90). -/
def haulMode (mode bufs tile room len : Nat) : Nat :=
  if len ≤ room then (if mode = 2 then 2 else 1)
  else if mode ≠ 1 ∧ bufs * tile ≤ room then 2 else 0

/-- Far windows, with their entries, that a range meets (R52). -/
def State.farOf (s : State) (a n : Nat) : List (Nat × BitVec 128) :=
  if (cut .far a n).2 = 0 then []
  else (farWindows (cut .far a n).1 (cut .far a n).2).map fun k => (k, (s.farEntry k).val)

/-- Far window of a far address. -/
def farWindowOf (a : Nat) : Nat := (a - 0x100000000000) / 2 ^ 36

/-- The far entry that a far address goes through. -/
def farAt (ws : List (Nat × BitVec 128)) (a : Nat) : Option (BitVec 128) :=
  (ws.find? fun w => w.1 == farWindowOf a).map (·.2)

/-- Address at the target of a far byte (R50). -/
def farTarget (e : BitVec 128) (a : Nat) : Nat := getF e 64 64 + a % 2 ^ 36

/-- Bytes from a far address to the end of its window. -/
def farLeft (a : Nat) : Nat := 2 ^ 36 - a % 2 ^ 36

/-- The checks of a HAUL in the order of log entry 17: the state and the status of the first that fails (0 when all
pass), with the length of the destination range. -/
def State.haulCheck (s : State) (c : Cmd) : State × Nat :=
  let d := c.desc
  let so := s.obj c.part (haSrcObj d)
  let dO := s.obj c.part (haDstObj d)
  let tile := tileSize so
  let room := objSize dO - haDstOff d
  let mode := haulMode (haMode d) (haBufs d) tile room (haLen d)
  let sa := objBase so + haSrcOff d
  let da := objBase dO + haDstOff d
  let dn := if mode = 2 then min room (haBufs d * tile) else min room (haLen d)
  if !haulOk d ∨ !haulTileOk d room ∨ !objOk so ∨ !objOk dO ∨ objSize so < haSrcOff d + haLen d then (s, 0x0C)
  else if !s.mapped sa (haLen d) ∨ (dn ≠ 0 ∧ !s.mapped da dn) then (s.unmappedError, 0x0C)
  else
    let r := s.ownCheck c.part sa (haLen d)
    let r := if r.2 = 0 ∧ dn ≠ 0 then s.ownCheck c.part da dn else r
    if r.2 ≠ 0 then r
    else if s.inArena sa (haLen d) ∨ s.inArena da dn ∨ objKind so = 0 ∨ objKind dO = 0 ∨
        s.boundObj c.part (haSrcObj d) ∨ s.boundObj c.part (haDstObj d) ∨
        s.touchesRaw sa (haLen d) ∨ s.touchesRaw da dn then (s, 0x0F)
    else if sharesStorage sa (haLen d) da dn then (s, 0x0C)
    else if mode = 0 then (s, 0x0D)
    else if mode = 2 ∧ !(s.wm c.part (haFree d)).ok then (s.cplFault (.waymark c.part (haFree d)), 0x0E)
    else (s, 0)

/-- End a HAUL with its result (R262, R264). -/
def State.endHaul (s : State) (h : Haul) (status : Nat) : State :=
  let mode := if h.moved = 0 then 0 else if h.tile then 2 else 1
  let s : State := { s with hauls := s.hauls.filter (·.cmd != h.cmd) }
  (s.setCmd h.cmd fun c => { c with detail := BitVec.ofNat 64 h.moved }).endCmd h.cmd status
    (BitVec.ofNat 32 (mode * 2 ^ 30 + if h.tile then min h.tiles 0x3FFFFFFF else 0))

/-- Where byte `off` of the HAUL goes in the destination object (R59). -/
def haulDst (d : BitVec 512) (h : Haul) (off : Nat) : Nat :=
  objBase h.dst + haDstOff d +
    if h.tile then off / h.tileBytes % haBufs d * h.tileBytes + off % h.tileBytes else off

/-! Kindling records over ORT (R97, R241). -/

/-- The bytes are one kindling record (R239). -/
def isRecord (bs : List Byte) : Bool := bs.length == 4352 && krecOk bs (leAt bs 8 8) (leAt bs 4 2)

/-- What a message carries for bytes of a HAUL: a kindling record goes as a stream on channel 3 with FIXED_Z. -/
def wireForm (bs : List Byte) : List Byte := if isRecord bs then cinderFixed 3 bs else bs

/-- What the far end of a message stores or uses: a stream on channel 3 that holds a kindling record is decoded (log
entry 57). -/
def storedForm (bs : List Byte) : List Byte :=
  if leAt bs 0 1 = 0xC1 ∧ leAt bs 1 1 = 3 then
    match cinderDecode [] bs with
    | some x => if isRecord x then x else bs
    | none => bs
  else bs

/-- Bytes of a HAUL up to the next record, from its next byte on; a record that stands first is taken by itself. -/
def recordPiece (bs : List Byte) : Nat :=
  if isRecord (bs.take 4352) then 4352
  else ((List.range (bs.length / 256)).find? fun i => i != 0 && isRecord ((bs.drop (256 * i)).take 4352)).elim bs.length
    (256 * ·)

/-- Write bytes of a HAUL at its destination: local memory, host memory, or a remote region, whose WRITE message is
then in flight. The second part is false when the remote node has no OPEN connection. -/
def State.haulWrite (s : State) (c : Cmd) (h : Haul) (off : Nat) (bs : List Byte) : State × Haul × Bool :=
  let a := haulDst c.desc h off
  if bs.isEmpty then (s, h, true)
  else match farAt h.dstFar a with
  | none => ((s.opens a bs.length).putEngine true c.part c.id a bs, { h with moved := h.moved + bs.length }, true)
  | some e =>
    if farKind e = 1 then
      (s.emit (.hostWrite (vfOf c.part) (farTarget e a) bs), { h with moved := h.moved + bs.length }, true)
    else match s.connTo c.part (getF e 16 16) with
      | some i =>
        let m := (s.conn i).nextMsg
        (s.sendMsg i 1 (getF e 32 32) (farTarget e a) (wireForm bs).length [] (wireForm bs) (.haul c.id) none,
         { h with writes := h.writes ++ [⟨i, m, off, bs.length, []⟩] }, true)
      | none => (s, h, false)

/-- Bytes, at most `n`, that a HAUL moves next: within one window of each far side, one message of a remote one at a time
(R314), so that no granule goes before one that fails (R51), and one record slot of a remote source (R240). -/
def haulSpan (d : BitVec 512) (h : Haul) (n : Nat) : Nat :=
  let o := haSrcOff d + h.started
  let a := objBase h.src + o
  let b := haulDst d h h.started
  let n := match farAt h.srcFar a with
    | none => n
    | some e => if farKind e = 1 then min n (farLeft a) else min (min n (farLeft a)) (4352 - o % 4352)
  match farAt h.dstFar b with
  | none => n
  | some _ => min (min n (farLeft b)) 33554432

/-- Bytes of a local source before its first granule with an uncorrectable error. -/
def State.goodBytes (s : State) (a n : Nat) : Nat :=
  match (List.range (ceilDiv n 256)).find? fun i => s.hasUE (a + 256 * i) 256 with
  | some i => 256 * i
  | none => n

/-- Where the destination of the next byte is a remote region, the bytes that one message takes. -/
def haulPiece (d : BitVec 512) (h : Haul) (bs : List Byte) : List Byte :=
  match farAt h.dstFar (haulDst d h h.started) with
  | some e => if farKind e = 1 then bs else bs.take (recordPiece bs)
  | none => bs

/-- Move the next bytes of a HAUL, at most `n`; `hostData` is what the host returned, for a source in host memory. The
number answers how the move ended: 0 goes on, 8 met an uncorrectable error, 10 lost its far node. -/
def State.haulMove (s : State) (c : Cmd) (h : Haul) (n : Nat) (hostData : List Byte) : State × Haul × Nat :=
  let off := h.started
  let a := objBase h.src + haSrcOff c.desc + off
  let n := haulSpan c.desc h n
  match farAt h.srcFar a with
  | none =>
    let good := s.goodBytes a n
    let bs := haulPiece c.desc h (s.bytes a good)
    let bad := decide (bs.length = good ∧ good < n)
    let s := (s.opens a n).scanned a (if bad then good + 256 else bs.length)
    let (s, h, ok) := s.haulWrite c { h with started := off + if bad then n else bs.length } off bs
    (s, h, if !ok then 10 else if bad then 8 else 0)
  | some e =>
    if farKind e = 1 then
      let bs := haulPiece c.desc h (hostData.take (min n (hostData.length / 256 * 256)))
      let (s, h, ok) := (s.emit (.hostRead (vfOf c.part) (farTarget e a) n)).haulWrite c
        { h with started := off + bs.length } off bs
      (s, h, if ok then 0 else 10)
    else match s.connTo c.part (getF e 16 16) with
      | none => (s, h, 10)
      | some i =>
        let num := (s.conn i).nextMsg
        (s.sendMsg i 2 (getF e 32 32) (farTarget e a) 0 (beBytes 4 n ++ beBytes 4 0) [] (.haul c.id) none,
         { h with started := off + n, reads := h.reads ++ [⟨i, num, off, n, []⟩] }, 0)

/-- Put a HAUL back, or end it when it is done or failed. A tile that is written whole is flushed and signalled
(R59). -/
def State.haulStep (s : State) (c : Cmd) (h : Haul) (ended : Nat) : State :=
  let len := haLen c.desc
  if ended ≠ 0 then s.endHaul h (if ended = 8 then 8 else 0x0A)
  else
    let full := h.moved == h.started && decide (h.moved = len ∨ h.moved % h.tileBytes = 0)
    let filled := h.tile && full && decide (h.tiles < ceilDiv h.moved h.tileBytes)
    let h := if filled then { h with tiles := h.tiles + 1 } else h
    let s := if filled then
        { s with stale := s.stale.filter (·.cmd != c.id) }.signal c.part (haFill c.desc) false
      else s
    if h.moved = len then s.endHaul h 0
    else { s with hauls := s.hauls.filter (·.cmd != h.cmd) ++ [h] }

/-- HAUL: checked, its mode chosen, and the copy started (R57, R58). -/
def execHaul (cmd : Nat) (hostData : List Byte) (s : State) : Host.Outcome State Fault Refusal :=
  .next (match s.starting? cmd 4 with
    | none => s
    | some c =>
      if !s.awake then s
      else
        let s := s.runCmd cmd
        let (s, status) := s.haulCheck c
        if status ≠ 0 then s.endCmd cmd status 0
        else
          let d := c.desc
          let so := s.obj c.part (haSrcObj d)
          let dO := s.obj c.part (haDstObj d)
          let tile := tileSize so
          let room := objSize dO - haDstOff d
          let mode := haulMode (haMode d) (haBufs d) tile room (haLen d)
          let s := if mode = 2 ∧ haMode d = 0 then s.count 0 Reg.MT_HAUL_FALLBACK_CNT 1 else s
          let h : Haul := {
            cmd := cmd, src := so, dst := dO, srcFar := s.farOf (objBase so + haSrcOff d) (haLen d),
            dstFar := s.farOf (objBase dO + haDstOff d) (min room (haLen d)), tile := mode == 2, tileBytes := tile,
            started := 0, moved := 0, tiles := 0, baseFree := wmCount (s.wm c.part (haFree d)).val, reads := [],
            writes := [] }
          if mode = 2 then { s with hauls := s.hauls ++ [h] }
          else
            let (s, h, e) := s.haulMove c h (haLen d) hostData
            s.haulStep c h e)

/-- HAUL_TILE: once FREE_WM allows it, the next tile is written (R59). In whole mode it moves the next bytes of a range
whose far side takes more than one window or message, or which the host has not returned whole. -/
def execHaulTile (cmd : Nat) (hostData : List Byte) (s : State) : Host.Outcome State Fault Refusal :=
  .next (match s.haul? cmd, s.cmd? cmd with
    | some h, some c =>
      let d := c.desc
      let rest := haLen d - h.started
      let v := s.wm c.part (haFree d)
      if rest = 0 ∨ !h.reads.isEmpty ∨ !h.writes.isEmpty then s
      else if !h.tile then
        let (s, h, e) := s.haulMove c h rest hostData
        s.haulStep c h e
      else if !v.ok then (s.cplFault (.waymark c.part (haFree d))).endHaul h 0x0E
      else
        let i := h.started / h.tileBytes
        if h.started % h.tileBytes = 0 ∧ wmCount v.val + haBufs d < h.baseFree + i + 1 then s
        else
          let (s, h, e) := s.haulMove c h (min rest (h.tileBytes - h.started % h.tileBytes)) hostData
          s.haulStep c h e
    | _, _ => s)

/-- HAUL_FAR_ERROR (R51). -/
def execHaulFarError (cmd : Nat) (e : FarErr) (s : State) : Host.Outcome State Fault Refusal :=
  .next (match s.haul? cmd with
    | some h =>
      if h.srcFar.isEmpty ∧ h.dstFar.isEmpty then s
      else s.endHaul h (match e with
        | .host _ => 0x0A
        | .violation => 0x04
        | .revoked => 0x05)
    | none => s)

/-- Bytes of a READ_RESP reach the HAUL that asked for them (R314). Once all have come they are written. -/
def State.haulArrive (s : State) (i msg off : Nat) (bs : List Byte) : State :=
  match s.hauls.find? fun h => h.reads.any fun r => r.conn == i && r.msg == msg with
  | none => s
  | some h =>
    match s.cmd? h.cmd, h.reads.find? fun r => r.conn == i && r.msg == msg with
    | some c, some r =>
      let parts := insertPart (off, bs) r.parts
      let body := storedForm (joinParts 0 parts)
      if body.length < r.len then
        s.setHaul h.cmd fun h => { h with reads := h.reads.map fun x =>
          if x.conn = i ∧ x.msg = msg then { x with parts := parts } else x }
      else
        let (s, h, ok) := s.haulWrite c { h with reads := h.reads.filter fun x => !(x.conn == i && x.msg == msg) } r.off
          (body.take r.len)
        s.haulStep c h (if ok then 0 else 10)
    | _, _ => s

/-- A WRITE message of a HAUL is done (R302). -/
def State.haulWritten (s : State) (cmd i msg : Nat) : State :=
  match s.haul? cmd, s.cmd? cmd with
  | some h, some c =>
    match h.writes.find? fun w => w.conn == i && w.msg == msg with
    | some w =>
      s.haulStep c { h with moved := h.moved + w.len,
                            writes := h.writes.filter fun x => !(x.conn == i && x.msg == msg) } 0
    | none => s
  | _, _ => s

end Sys2Proof.Machine
end

