-- ==== Sys2Proof/Machine/Flue.lean ====
section
/-!
DEFINITION. The ROW engine and the bursts of the Flue columns: row operations, re-encoding, refresh, wear, write-back,
scrubbing, relocation and row sparing (R107, R116 to R124, R128, R133, R229, R363, R369, R370).
-/

namespace Sys2Proof.Machine

def roRaw (d : BitVec 512) : Bool := getB d 136
def roCrc (d : BitVec 512) : Bool := getB d 137
def roCount (d : BitVec 512) : Nat := dF d 20 4
def roDst (d : BitVec 512) : Nat := dF d 24 8
def roA (d : BitVec 512) : Nat := dF d 32 8
def roB (d : BitVec 512) : Nat := dF d 40 8
def roPattern (d : BitVec 512) : Nat := dF d 48 8
def roCrcAddr (d : BitVec 512) : Nat := dF d 56 8

/-- The OP takes two sources. -/
def roTwo (op : Nat) : Bool := op == 2 || op == 3 || op == 4

/-- Source base addresses of a ROW. -/
def roSources (d : BitVec 512) : List Nat :=
  if dOp d = 1 then [] else if roTwo (dOp d) then [roA d, roB d] else [roA d]

/-- Check 1 of R118. -/
def rowOk (d : BitVec 512) : Bool :=
  let op := dOp d
  decide (op ≤ 5 ∧ dF d 17 1 < 4 ∧ 1 ≤ roCount d ∧ roCount d ≤ 1048576) && dF d 18 2 == 0 &&
  [roDst d, roA d, roB d].all (fun x => addrOk x && x % 1024 == 0) && addrOk (roCrcAddr d) &&
  (op != 1 || roA d == 0) && (roTwo op || roB d == 0) && (op == 1 || roPattern d == 0) &&
  (roCrc d || roCrcAddr d == 0)

/-- A row-operand range lies in the hot tier, within one column or, in the compatibility window, one stack (R118). -/
def rowRangeOk (a n : Nat) : Bool :=
  (inTier .hot a n && columnOf a == columnOf (a + n - 1)) ||
  (inTier .compat a n && areaOf a == areaOf (a + n - 1))

/-- Stack of a hot-tier address in either decoding. -/
def stackOf (a : Nat) : Nat := columnOf (native a) / 32

/-- The conditions of R124 on a raw operation. -/
def rawAllowed (d : BitVec 512) : Bool :=
  let srcs := roSources d
  if inTier .hot (roDst d) 1 then srcs.all fun a => inTier .hot a 1 && columnOf a == columnOf (roDst d)
  else
    roDst d % 32768 == 0 && roCount d % 32 == 0 &&
    srcs.all fun a => inTier .compat a 1 && a % 32768 == 0 && (a + 2 ^ 48 - roDst d) % 262144 == 0

/-- Rows that the operand ranges of a ROW touch. -/
def rowsTouched (d : BitVec 512) : List Nat :=
  let n := roCount d * 1024
  (roDst d :: roSources d).flatMap fun a => rowsOf a n

/-- The RAW flag disagrees with the state of a row touched (check 7): a raw operation needs every row covered by a raw
object and none awaiting re-encoding; a coded one needs no row covered by a raw object. -/
def State.rawDisagrees (s : State) (d : BitVec 512) : Bool :=
  let rs := rowsTouched d
  let crc := if roCrc d then rowsOf (roCrcAddr d) (8 * roCount d) else []
  if roRaw d then
    rs.any (fun r => !s.rawByObject r || s.recode.contains r) || crc.any s.rawRow || !rawAllowed d
  else (rs ++ crc).any s.rawByObject

/-- A coded ROW waits while a row it touches awaits re-encoding (R123). -/
def State.rowWaits (s : State) (d : BitVec 512) : Bool :=
  !roRaw d && ((rowsTouched d ++ if roCrc d then rowsOf (roCrcAddr d) (8 * roCount d) else []).any s.recode.contains)

/-- The checks of R118, in order: status 0 when all pass. -/
def State.rowCheck (s : State) (c : Cmd) : State × Nat :=
  let d := c.desc
  let n := roCount d * 1024
  let ops := roDst d :: roSources d
  let crcN := if roCrc d then 8 * roCount d else 0
  let crcA := roCrcAddr d
  if !rowOk d then (s, 0x0C)
  else if !ops.all (fun a => s.mapped a n) ∨ !s.mapped crcA crcN then (s.unmappedError, 0x0C)
  else if !ops.all (fun a => rowRangeOk a n) ∨
      (roCrc d ∧ !(inTier .firebox crcA crcN || inTier .hot crcA crcN || inTier .compat crcA crcN ||
        inTier .warm crcA crcN)) then (s, 0x0C)
  else
    let r := ops.foldl (fun (r : State × Nat) (a : Nat) => if r.2 = 0 then r.1.ownCheck c.part a n else r) (s, 0)
    let r := if r.2 = 0 ∧ crcN ≠ 0 then r.1.ownCheck c.part crcA crcN else r
    if r.2 ≠ 0 then r
  else if s.inArena (roDst d) n ∨ (crcN ≠ 0 ∧ s.inArena crcA crcN) then (s, 0x0F)
  else if (roSources d).any (fun a => stackOf a != stackOf (roDst d)) then (s, 0x0F)
  else if (roSources d).any (fun a => a != roDst d && sharesStorage a n (roDst d) n) ∨
      (roCrc d ∧ ops.any fun a => sharesStorage a n crcA crcN) then (s, 0x0C)
  else if s.rawDisagrees d then (s.setRegB 0 Reg.FL_ERR_STAT 2 true, 0x0F)
  else (s, 0)

/-- ROW: checked, and its row operations queued on the columns, which wake (R36, R118). -/
def execRow (cmd : Nat) (s : State) : Host.Outcome State Fault Refusal :=
  .next (match s.starting? cmd 5 with
    | none => s
    | some c =>
      if !s.awake then s
      else
        let (t, status) := s.rowCheck c
        if status ≠ 0 then (t.runCmd cmd).endCmd cmd status 0
        else if s.rowWaits c.desc then s
        else { (s.runCmd cmd).wakeRange (roDst c.desc) (1024 * roCount c.desc) with
          rows := s.rows ++ [⟨cmd, List.range (roCount c.desc), 0, false, false⟩] })

/-- The result bytes of row `i` (R117). -/
def State.rowResult (s : State) (d : BitVec 512) (i : Nat) : List Byte :=
  let a := s.bytes (roA d + 1024 * i) 1024
  let b := s.bytes (roB d + 1024 * i) 1024
  match dOp d with
  | 0 => a
  | 1 => (List.range 1024).map fun k => BitVec.ofNat 8 (roPattern d / 256 ^ (k % 8))
  | 2 => List.zipWith (· &&& ·) a b
  | 3 => List.zipWith (· ||| ·) a b
  | 4 => List.zipWith (· ^^^ ·) a b
  | _ => a.map fun x => ~~~x

/-- 64-byte units that row `i` moves over the Chimney bus (R130, R132): every granule whose source lies in another
column than its destination. -/
def chimneyUnits (d : BitVec 512) (i : Nat) : Nat :=
  ((roSources d).flatMap fun a => (List.range 4).map fun g =>
    if homeColumn (a + 1024 * i + 256 * g) = homeColumn (roDst d + 1024 * i + 256 * g) then 0 else 4).sum

/-- A row is worn for this window: its raw bursts wait (R370). -/
def State.worn (s : State) (r : Nat) : Bool :=
  decide (4 * s.regF 0 Reg.FX_WEAR 0 16 ≤ tget (fun _ => 0) s.acts r)

/-- Rows of one burst (R107, R120). -/
def burstRows (d : BitVec 512) : Nat :=
  if roRaw d && !roCrc d then 32 else if roTwo (dOp d) then 5 else 8

/-- Write row `i` of a ROW on its column, which is that of the row's first byte (log entry 91); on a source row with an uncorrectable error, the failing row and every later
row of that column are not written (R119). -/
def State.rowOne (s : State) (c : Cmd) (j : RowJob) (col i : Nat) : State × RowJob :=
  let d := c.desc
  let srcs := (roSources d).map (· + 1024 * i)
  let dst := roDst d + 1024 * i
  let s := (((srcs ++ [dst]).flatMap fun a => rowsOf a 1024).dedup).foldl State.activate s
  if !roRaw d && srcs.any (fun a => s.hasUE a 1024) then
    (srcs.foldl (fun s a => s.scanned a 1024) s,
     { j with failed := true, left := j.left.filter fun k => homeColumn (roDst d + 1024 * k) != col })
  else
    let s := if roRaw d then s else srcs.foldl (fun s a => s.scanned a 1024) s
    let out := s.rowResult d i
    let units := if roRaw d then 0 else chimneyUnits d i
    let s := s.engineWrite c.part c.id dst out
    let s := if roCrc d then s.codedWrite c.part c.id (roCrcAddr d + 8 * i) (leBytes 8 (crc64 out)) else s
    let s := if units = 0 then s else s.count 0 (Reg.FL_CHIMNEY_CNT + 4 * stackOf dst) units
    (s, { j with written := j.written + 1, left := j.left.filter (· != i), chimney := j.chimney || units != 0 })

/-- The source rows of a coded burst stand in the ROW staging of the column's scratch (R114). -/
def State.stageRows (s : State) (d : BitVec 512) (col : Nat) (rows : List Nat) : State :=
  if roRaw d || (roSources d).isEmpty then s
  else
    let bs := rows.flatMap fun i => (roSources d).flatMap fun a => s.bytes (a + 1024 * i) 1024
    (s.setScratch col { s.scratchOf col with staging := bs }).scratchWrite col scratchRow scratchCheck

/-- Run a burst of a ROW on a column. A row of the compatibility window spans four columns: the whole of it, its order and its
failure (R119) go with the column of its first byte (log entry 91). -/
def State.rowBurst (s : State) (c : Cmd) (j : RowJob) (col : Nat) : State :=
  let d := c.desc
  let s := s.wake (.column col)
  let mine := (j.left.filter fun i => homeColumn (roDst d + 1024 * i) == col).take (burstRows d)
  let held := roRaw d && mine.any fun i =>
    ((roDst d :: roSources d).flatMap fun a => rowsOf (a + 1024 * i) 1024).any s.worn
  if held then s.setRegB 0 Reg.FX_ERR_STAT 1 true
  else
    let (s, j) := mine.foldl (fun (acc : State × RowJob) i =>
      if acc.2.left.contains i then acc.1.rowOne c acc.2 col i else acc) (s.stageRows d col mine, j)
    if j.left.isEmpty then
      { s with rows := s.rows.filter (·.cmd != c.id) }.endCmd c.id (if j.failed then 8 else 0)
        (BitVec.ofNat 32 ((if j.chimney then 2 ^ 31 else 0) + (if roRaw d then 2 ^ 30 else 0) + j.written))
    else { s with rows := s.rows.map fun x => if x.cmd = c.id then j else x }

/-! The arbitration of a pseudo-channel (R128, R133). -/

/-- A sector of the column awaits write-back (R128). -/
def State.awaitingOn (s : State) (col : Nat) : Option Nat :=
  (s.ecc.find? fun e => e.2 == .awaiting && isHot (unitAddr e.1) && columnOf (unitAddr e.1) == col).map (·.1)

/-- The first ROW with rows left on the column. -/
def State.rowOn (s : State) (col : Nat) : Option RowJob :=
  s.rows.find? fun j => match s.cmd? j.cmd with
    | some c => c.phase == .running && j.left.any fun i => homeColumn (roDst c.desc + 1024 * i) == col
    | none => false

/-- A span-job executes on the column: ATTEND bursts are waiting. -/
def State.attendOn (s : State) (col : Nat) : Bool :=
  s.reqs.any fun r => r.jobs.any fun j => j.col == col && j.phase == .running

/-- Flue work is waiting on the column. -/
def State.burstWaits (s : State) (col : Nat) : Bool :=
  (s.awaitingOn col).isSome || (s.rowOn col).isSome || s.attendOn col

/-- A ROW burst, or a maintenance burst in its place, is the column's next: no sector awaits write-back, and the ATTEND bursts
between two ROW bursts have run (R106, R128, R133; log entry 93). -/
def State.rowTurn (s : State) (col : Nat) : Bool :=
  (s.awaitingOn col).isNone && (!s.attendOn col || decide (s.regF 0 Reg.FL_ARB 8 8 ≤ (s.arb col).run))

/-- A ROW burst, or one in its place, has run. -/
def State.rowRan (s : State) (col : Nat) : State := s.setArb col ⟨0, 0⟩

/-- A sector that awaits write-back is written back (R128). -/
def State.writeBack (s : State) (col k : Nat) : State :=
  ((s.opens (unitAddr k) 32).setEcc k .clean).setArb col ⟨0, (s.arb col).run⟩

/-- The next burst of a column: a write-back, else an ATTEND burst or a burst of the first ROW, by turns (R128, R133). The
arithmetic of a span-job stands in SPAN_JOB; its bursts here only take their turns. -/
def State.nextBurst (s : State) (col : Nat) : State :=
  match s.awaitingOn col with
  | some k => s.writeBack col k
  | none =>
    match s.rowOn col with
    | none => if s.attendOn col then s.setArb col ⟨0, (s.arb col).run⟩ else s
    | some j =>
      if !s.rowTurn col then s.setArb col ⟨0, (s.arb col).run + 1⟩
      else match s.cmd? j.cmd with
        | some c => (s.rowBurst c j col).rowRan col
        | none => s

/-- FLUE_BURST_END (R133): the column's next burst has run; `waitNs` is the wait it added to a host access. -/
def execFlueBurstEnd (col waitNs : Nat) (s : State) : Host.Outcome State Fault Refusal :=
  let s := s.hwm 0 Reg.FL_HOST_WAIT_HWM waitNs
  .next (if s.awake then s.nextBurst col else s)

/-- A host request reaches a column: once HOST_MAX of them were served since its last burst, its next burst runs first if Flue
work is waiting (R133). -/
def State.hostTurn (s : State) (col : Nat) : State :=
  let s := s.wake (.column col)
  if s.burstWaits col && decide (s.regF 0 Reg.FL_ARB 0 8 ≤ (s.arb col).host) then
    let t := s.nextBurst col
    t.setArb col ⟨1, (t.arb col).run⟩
  else s.setArb col ⟨(s.arb col).host + 1, (s.arb col).run⟩

/-- A host request takes its turn on every column of its range. -/
def State.hostTurns (s : State) (a n : Nat) : State := (colsOf a n).foldl State.hostTurn s

/-- A column's plan is empty (R106): no span-job is planned or running on it. -/
def State.planEmpty (s : State) (col : Nat) : Bool :=
  !s.reqs.any fun r => r.jobs.any fun j => j.col == col && (j.phase == .planned || j.phase == .running)

/-- The column has Flue work: a burst that waits, a span-job to come, or maintenance of its own (R36, R106). -/
def State.flueWork (s : State) (col : Nat) : Bool :=
  s.burstWaits col || !s.planEmpty col || s.recode.any (fun r => rowColumn r == col) ||
  s.remapDue.any (fun r => rowColumn r == col) || s.moves.any (fun m => m.col == col)

/-- Show the rows that wait for re-encoding (R137). -/
def State.showRecode (s : State) : State := s.setReg 0 Reg.FL_RECODE_LEFT (BitVec.ofNat 32 s.recode.length)

/-- Note the rows of a range that must be re-encoded: rows of the partition no longer covered by a raw object of it (R123). -/
def State.recodeRows (s : State) (p a n : Nat) : State :=
  let rs := (rowsOf a n).filter fun r => s.ownsCol p (rowColumn r) && !s.rawByObject r && !s.recode.contains r
  { s with recode := s.recode ++ rs }.showRecode

/-- A unit of a row that becomes raw stands as it is stored (R123, R125): a correctable error is one wrong symbol of the 35, an
uncorrectable one leaves every byte open (log entries 1 and 94). -/
def State.unitRaw (s : State) (k : Nat) : State :=
  match s.eccAt k with
  | .clean => s
  | .uncorrectable =>
    ({ s with draws := s.draws + 32 }.store (unitAddr k) ((List.range 32).map fun i => Config.freeValue 8 (s.draws + i))).setEcc
      k .clean
  | _ =>
    let i := (s.fresh 32).toNat % 35
    let t : State := { s with draws := s.draws + 2 }
    (if i < 32 then t.store (unitAddr k + i) [Config.freeValue 8 (s.draws + 1)] else t).setEcc k .clean

/-- The units of the raw rows among those given stand as stored. -/
def State.rowsRaw (s : State) (rs : List Nat) : State :=
  ((s.ecc.map (·.1)).filter fun k => isHot (unitAddr k) && rs.contains (rowOf (unitAddr k)) && s.rawRow (rowOf (unitAddr k))).foldl
    State.unitRaw s

/-- A list of rows in ascending order, without repeats. -/
def sortNat : List Nat → List Nat
  | [] => []
  | x :: t => ins x (sortNat t)
where
  ins (x : Nat) : List Nat → List Nat
    | [] => [x]
    | y :: t => if x < y then x :: y :: t else if x = y then y :: t else y :: ins x t

/-- REENCODE_BURST (R123): 8 rows of the column, in ascending order; the stored bits stay, with fresh check bytes. -/
def execReencodeBurst (col : Nat) (s : State) : Host.Outcome State Fault Refusal :=
  .next (if !s.awake || !s.planEmpty col || !s.rowTurn col then s
    else
      let rs := (sortNat (s.recode.filter fun r => rowColumn r == col)).take 8
      let s := (rs.foldl State.activate s).rowRan col
      { s with recode := s.recode.filter fun r => !rs.contains r,
               ecc := s.ecc.filter fun e => !(isHot (unitAddr e.1) && rs.contains (rowOf (unitAddr e.1))) }.showRecode)

/-- REFRESH_DUE (R133, R370): the refresh runs; neighbours of the column's worn rows are refreshed with it. -/
def execRefreshDue (col : Nat) (s : State) : Host.Outcome State Fault Refusal :=
  .next { s with trr := s.trr.filter fun r => rowColumn r != col }

/-- WEAR_WINDOW_START (R370): the counts of the 32 ms window restart, and raw bursts held for wear are released. -/
def execWearWindowStart (s : State) : Host.Outcome State Fault Refusal := .next { s with acts := [] }

/-! Row sparing (R363). -/

/-- Spare rows in use on a column (pseudo-channel). -/
def State.sparesUsed (s : State) (col : Nat) : Nat := (s.remaps.filter fun r => rowColumn r == col).length

/-- Show the fenced columns (R374). -/
def State.showFences (s : State) : State :=
  (List.range 16).foldl (fun s k =>
    s.setReg 0 (Reg.FX_FENCE + 4 * k) (BitVec.ofNat 32 (((List.range 32).filter fun i =>
      s.fences.contains (32 * k + i)).map (2 ^ ·)).sum)) s

/-- Fence a column as a unit fault (R358, R374): every present unit with a placement in it is damaged and dropped. -/
def State.fenceColumn (s : State) (col : Nat) : State :=
  if s.fenced col then s
  else
    let hit := ((s.slots.filter fun x => x.use == .live && (areaOf x.addr == col ||
      (decide (512 ≤ areaOf x.addr) && decide ((areaOf x.addr - 512) * 32 ≤ col ∧ col < (areaOf x.addr - 512) * 32 + 32)))).map
        fun x => (x.part, x.seq, x.firstPos / 1024)).dedup
    let s := { s.setFences (col :: s.fences) with repairDirty := some (s.repairDirty.getD s.ms) }.showFences
    hit.foldl (fun s u => s.dropDamaged u.1 u.2.1 u.2.2) s

/-- Remap a row to a spare of its pseudo-channel: its bytes are copied, invisibly at every address (R363). With no spare, or the
repair record full (R406), the column is fenced. -/
def State.remapRow (s : State) (r : Nat) : State :=
  let col := rowColumn r
  let s : State := { s with remapDue := s.remapDue.filter (· != r) }
  if 2048 ≤ s.sparesUsed col ∨ 131056 ≤ s.remaps.length then s.fenceColumn col
  else
    let s : State := { s.activate r with
      spares := s.spares ++ [twinOf (BitVec.ofNat 32 r)]
      corrected := s.corrected.filter fun c => c.1 != r
      repairDirty := some (s.repairDirty.getD s.ms) }
    let s := s.count 0 Reg.FX_REMAP_CNT 1
    if 1920 ≤ s.sparesUsed col then (s.setRegB 0 Reg.FX_ERR_STAT 0 true).alert 6 else s

/-- WRITE_BACK_BURST (R128): a sector of the column that awaits write-back is written back. -/
def execWriteBackBurst (col : Nat) (s : State) : Host.Outcome State Fault Refusal :=
  .next (if !s.awake then s
    else match s.awaitingOn col with
      | some k => s.writeBack col k
      | none => s)

/-- Scrub one row: it is opened, read and checked (R363, R369). Raw rows hold no check bytes. -/
def State.scrubRow (s : State) (r : Nat) : State :=
  if s.rawRow r then s else (s.activate r).scanned (rowAddr r) 1024

/-- SCRUB_BURST (R369): in an open scrub slot, the column reads and checks its next 8 rows, and rows that wait for a
spare are copied. The progress is a pair; while it is not valid the burst does nothing (R367). -/
def execScrubBurst (col : Nat) (s : State) : Host.Outcome State Fault Refusal :=
  .next (match s.scrub.find? fun x => x.1 == col with
    | none => s
    | some (_, b) =>
      if b.left = 0 ∨ !s.awake ∨ s.fenced col ∨ !s.rowTurn col then s
      else if !b.row.ok then s.cplFault (.scrub col)
      else
        let due := s.remapDue.filter fun r => rowColumn r == col
        let s := due.foldl State.remapRow (s.rowRan col)
        let base := col * 4194304 + b.next % 4194304
        let s := (List.range 8).foldl (fun s i => s.scrubRow (base + i)) s
        let next : Scrub := ⟨pairOf (BitVec.ofNat 64 (b.next + 8)), b.left - 1⟩
        let s : State := { s with scrub := s.scrub.map fun x => if x.1 = col then (col, next) else x }
        if next.next % 4194304 = 0 then s.count 0 Reg.FX_SCRUB_PASS_CNT 1 else s)

/-! Relocation (R229). -/

/-- The first slot of a run, in ascending address from `cur` on, with a gap before it, as a relocation of column `col`. Slots
that a dispatched span-job reads stay (R147). -/
def firstMove (busy : Slot → Bool) (col : Nat) : Nat → List Slot → Option Move
  | _, [] => none
  | cur, x :: t =>
    if cur < x.addr ∧ !busy x then some ⟨col, x.addr, cur, 0⟩ else firstMove busy col (x.addr + x.size) t

/-- The relocation that a column starts next: in the runs of its own, or of its stack for a compatibility arena, that are not
PINNED. -/
def State.nextMove (s : State) (col : Nat) : Option Move :=
  (s.listed.flatMap fun p => (((s.regions p).filter fun r => (r.area == col || r.area == 512 + col / 32) && !r.pinned).filterMap
    fun r => firstMove s.slotBusy col r.start (sortSlots (s.slotsIn p r)))).head?

/-- Bytes of one relocation burst from an address on: at most 8 rows (R107), of a compatibility arena 8 granules. -/
def moveLimit (a : Nat) : Nat := if 0x030000000000 ≤ a then 2048 - a % 256 else 8192 - a % 1024

/-- RELOCATE_BURST (R107, R229): the relocation under way on the column goes on by one burst, or the next one starts. -/
def execRelocateBurst (col : Nat) (s : State) : Host.Outcome State Fault Refusal :=
  .next (if !s.awake || !s.rowTurn col then s
    else match s.moves.find? fun m => m.col == col with
      | some m => (s.moveOn m (moveLimit (m.src + m.done))).rowRan col
      | none => match s.nextMove col with
        | some m => ({ s with moves := s.moves ++ [m] }.moveOn m (moveLimit m.src)).rowRan col
        | none => s)

end Sys2Proof.Machine
end

