-- ==== Sys2Proof/Machine/Report.lean ====
section
/-!
DEFINITION. Violation logs and REPORTs (R311, R313), and the sender's side of an ember allotment (R180, R181, R296).
-/

namespace Sys2Proof.Machine

/-- Connection ID of an entry: generation above index (R290). -/
def connId (i gen : Nat) : Nat := gen * 8192 + i

/-- A violation record (R313). -/
def vioRecord (time reason side opTc peer tenant conn waykey msg off : Nat) : List Byte :=
  leBytes 8 time ++ leBytes 1 reason ++ leBytes 1 side ++ leBytes 1 opTc ++ leBytes 1 0 ++ leBytes 2 peer ++
  leBytes 2 tenant ++ leBytes 3 conn ++ leBytes 1 0 ++ leBytes 4 waykey ++ leBytes 4 msg ++ leBytes 4 off

/-- Write a record into the violation log of a partition (R313). -/
def State.logViolation (s : State) (p : Nat) (r : List Byte) : State :=
  let h := s.reg (vfOf p) Reg.RT_VIO_HEAD
  { s with vioLog := tput (fun _ => List.replicate 32 0) s.vioLog (p * 64 + h.toNat % 64) r }.setReg (vfOf p)
    Reg.RT_VIO_HEAD (h + 1)

/-- The REPORT extension (R311). -/
def reportExt (reason opTc tenant psn msg waykey off : Nat) : List Byte :=
  beBytes 1 reason ++ beBytes 1 opTc ++ beBytes 2 0 ++ beBytes 2 tenant ++ beBytes 2 0 ++ beBytes 4 psn ++
  beBytes 4 msg ++ beBytes 4 waykey ++ beBytes 6 off ++ beBytes 6 0

/-- Key of a message among those that a refusal failed: TC1 and TC3 messages of the peer, TC2 messages, answers to this
end's reads, and the packets of TC0, each by itself. -/
def failKey (op msg psn : Nat) : Nat :=
  4 * (if opTc op = 0 then psn else msg) + if opTc op = 0 then 3 else if op = 3 then 2 else if opTc op = 2 then 1 else 0

/-- Refuse a packet of a connection: the refusal is logged and reported once per failed message (R300, R311). -/
def State.refuse (s : State) (i op tenant psn msg waykey off reason : Nat) : State :=
  let c := s.conn i
  let p := c.owner.getD 0
  let opTc := op * 16 + opTc op
  let key := failKey op msg psn
  let s := s.logViolation p (vioRecord s.ft.now.toNat reason 0 opTc c.peerNode tenant (connId i c.gen) waykey msg off)
  if c.reported.contains key then s
  else (s.setConn i { c with reported := c.reported ++ [key] }).sendMsg i 9 0 0 0
    (reportExt reason opTc tenant psn msg waykey off) [] .nobody none

/-- Units of the peer's allotment in use (R181). -/
def Conn.emberUsed (c : Conn) : Nat := (c.emberRes.map fun x => x.1 + x.2.2).sum

/-- Take units for embers from the connection's allotment, the next free run of the ring each (R181): the slots, or
none when they do not fit. A run does not wrap. -/
def Conn.takeUnits (c : Conn) : List Nat → List Nat → Option (Conn × List Nat)
  | [], slots => some (c, slots)
  | u :: t, slots =>
    let skip := if c.peerEmberUnits < c.emberNext + u then c.peerEmberUnits - c.emberNext else 0
    let start := if skip = 0 then c.emberNext else 0
    if c.emberUsed + skip + u ≤ c.peerEmberUnits then
      let next := start + u
      let slot := c.peerEmberBase + start
      { c with emberNext := if next = c.peerEmberUnits then 0 else next, emberRes := c.emberRes ++ [(skip, slot, u)],
               used := listSet c.used 2 (c.used.getD 2 0 + u) }.takeUnits t (slots ++ [slot])
    else none

/-- Give up the reservation at a slot. Its units lie unused until those taken after it are freed; those at the end of the
ring are free at once, and are counted. -/
def dropRes (slot : Nat) : List (Nat × Nat × Nat) → List (Nat × Nat × Nat) × Nat
  | [] => ([], 0)
  | (k, a, u) :: t =>
    if a = slot then
      match t with
      | [] => ([], k + u)
      | (k', a', u') :: t' => ((k + u + k', a', u') :: t', 0)
    else
      let r := dropRes slot t
      ((k, a, u) :: r.1, r.2)

/-- Units of an ember never sent go back to the allotment (log entry 18). -/
def Conn.dropUnits (c : Conn) (slot u : Nat) : Conn :=
  let r := dropRes slot c.emberRes
  { c with emberRes := r.1, emberNext := (c.emberNext + c.peerEmberUnits - r.2) % max 1 c.peerEmberUnits,
           used := listSet c.used 2 (c.used.getD 2 0 - u) }

/-- Units that the peer has returned free reservations from the oldest on (R181, R182; log entry 24). -/
def freeUnits : Nat → List (Nat × Nat × Nat) → List (Nat × Nat × Nat)
  | _, [] => []
  | d, (skip, a, u) :: t => if u ≤ d then freeUnits (d - u) t else (skip, a, u - d) :: t

/-! The node's ember buffer (R180, R343). Each partition's share is a run of its own, so that one partition's use is no
part of what another observes (R354; log entry 21). -/

/-- Ember units that a connection entry grants (R290). -/
def ceEmber (e : List Byte) : Nat := leAt e 6 2

/-- The entries other than `i` that hold grants. -/
def State.grants (s : State) (i : Nat) : List (Nat × Conn) := s.conns.filter fun e => e.1 != i && e.2.st != .idle

/-- Runs of the buffer in use by a partition: the grants of its entries other than `i`, and the reservations of its own
embers in its own buffer. -/
def State.emberTaken (s : State) (p i : Nat) : List (Nat × Nat) :=
  ((s.grants i).filter fun e => e.2.owner == some p).map (fun e => (e.2.emberBase, ceEmber e.2.entry)) ++
  (s.recv.filter fun r => r.conn.isNone && r.tenant == s.tenant p).map fun r => (r.slot, r.units)

/-- The first free run of `n` units in the partition's share of the buffer. -/
def State.emberGap (s : State) (p i n : Nat) : Option Nat :=
  let sh := s.shareRun p 36 4
  let taken := s.emberTaken p i
  (sh.1 :: taken.map fun t => t.1 + t.2).find? fun b =>
    decide (sh.1 ≤ b ∧ b + n ≤ sh.1 + sh.2) && taken.all fun t => t.2 == 0 || n == 0 || !meets b n t.1 t.2

/-- The high-water mark of the ember buffer (R203). -/
def State.unitsMark (s : State) : State := s.hwm 0 Reg.MG_UNITS_HWM (s.recv.map Recv.units).sum

/-- Reserve places in the node's own buffer for its own embers (R181): EMBER_ID and units of each. -/
def State.takeOwn (s : State) (p : Nat) : List (Nat × Nat) → List Nat → Option (State × List Nat)
  | [], slots => some (s.unitsMark, slots)
  | (id, u) :: t, slots =>
    match s.emberGap p 0x10000 u with
    | none => none
    | some b =>
      let r : Recv := { id := id, conn := none, tenant := s.tenant p, slot := b, units := u, hdr := none, body := [],
                        arrived := s.ms, verdict := none, recalled := false, merge := none, discarded := false }
      { s with recv := s.recv ++ [r] }.takeOwn p t (slots ++ [b])

/-- Take places for embers at their destination: over a connection, or in the node's own buffer (R181). -/
def State.takePlaces (s : State) (p : Nat) (conn : Option Nat) (es : List (Nat × Nat)) : Option (State × List Nat) :=
  match conn with
  | none => s.takeOwn p es []
  | some i => match (s.conn i).takeUnits (es.map (·.2)) [] with
    | some (c, slots) => some (s.setConn i c, slots)
    | none => none

/-- Give up the place of an ember that is never sent: its EMBER_ID, slot and units. -/
def State.dropPlace (s : State) (conn : Option Nat) (id slot u : Nat) : State :=
  match conn with
  | none => { s with recv := s.recv.filter fun r => !(r.conn.isNone && r.id == id && r.hdr.isNone) }
  | some i => s.setConn i ((s.conn i).dropUnits slot u)

/-- Queue an ember or verdict for a place of the destination's buffer (R177, R181, R286). -/
def State.sendEmber (s : State) (i off id : Nat) (bs : List Byte) : State :=
  s.sendMsg i 5 0 off bs.length [] bs (.ember id) none

end Sys2Proof.Machine
end

