-- ==== Sys2Proof/Machine/Partial.lean ====
section
/-!
DEFINITION. Partials: the arithmetic of one span (R148 to R155), the two-operand merge with its check (R172, R175,
R176), the canonical span tree (R157, R158), and ember headers and bodies (R162, R177, R180).
-/

namespace Sys2Proof.Machine

/-! The two-operand merge. -/

/-- Every value of a head record is finite. -/
def headFinite (h : Head) : Bool := ffinite h.m && ffinite h.l && h.o.all ffinite

/-- The factors a1 and a2 of a merge (R172). -/
def mergeFactors (x y : Head) : Word × Word :=
  let m := fmax x.m y.m
  (exp2Fixed (fsub x.m m), exp2Fixed (fsub y.m m))

/-- The merge of a left and a right head record (R172). -/
def mergeHead (x y : Head) : Head :=
  let a := mergeFactors x y
  { m := fmax x.m y.m, l := fadd (fmul x.l a.1) (fmul y.l a.2),
    o := List.zipWith (fun p q => fadd (fmul p a.1) (fmul q a.2)) x.o y.o }

/-- `|lhs - rhs| ≤ tol`, exactly. -/
def within (lhs rhs tol : Dy) : Bool := Dy.le (Dy.add lhs rhs.neg).abs tol

/-- The check of R175 on one list of values. -/
def mergeOk (a1 a2 : Word) (x y r : List Word) : Bool :=
  let s (w : List Word) : Dy := Dy.sum (w.map fdy)
  let rhs := Dy.add (Dy.mul (fdy a1) (s x)) (Dy.mul (fdy a2) (s y))
  let mag (a : Word) (w : List Word) : Dy := Dy.sum (w.map fun v => (Dy.mul (fdy a) (fdy v)).abs)
  within (s r) rhs (Dy.add (Dy.mul (Dy.pow2 (-22)) (Dy.add (mag a1 x) (mag a2 y))) (Dy.pow2 (-126)))

/-- The check of R175 on a merged head: its o, and its l with d = 1. -/
def headOk (x y r : Head) : Bool :=
  let a := mergeFactors x y
  mergeOk a.1 a.2 x.o y.o r.o && mergeOk a.1 a.2 [x.l] [y.l] [r.l]

/-- What merging has come to: the value so far (none = EMPTY), the merges made, and why it stopped: 0 it did not, 1 a
check failed, 2 a value was not finite (R176). -/
structure MOut where
  val : Option (List Head)
  merges : Nat
  stop : Nat
  deriving DecidableEq, Repr

/-- A value that stands by itself. -/
def MOut.leaf (v : Option (List Head)) : MOut := ⟨v, 0, 0⟩

/-- Merge a left and a right value, EMPTY by R157, and check the merge (R175, R176). -/
def MOut.join (x y : MOut) : MOut :=
  let n := x.merges + y.merges
  if x.stop ≠ 0 then ⟨none, n, x.stop⟩
  else if y.stop ≠ 0 then ⟨none, n, y.stop⟩
  else match x.val, y.val with
    | none, v => ⟨v, n, 0⟩
    | v, none => ⟨v, n, 0⟩
    | some a, some b =>
      let r := List.zipWith mergeHead a b
      if !((a ++ b ++ r).all headFinite) then ⟨none, n + 1, 2⟩
      else if (List.zip (List.zip a b) r).all fun t => headOk t.1.1 t.1.2 t.2 then ⟨some r, n + 1, 0⟩
      else ⟨none, n + 1, 1⟩

/-- Failures of R176 counted, and how the merge ends, when the environment makes `dist` checks fail: one failure is
made good by the re-run, a second is final. -/
def MOut.settle (x : MOut) (dist : Nat) : Nat × Nat :=
  if x.stop = 1 then (2, 1)
  else if x.stop = 2 then (0, 2)
  else if x.merges = 0 ∨ dist = 0 then (0, 0)
  else if dist = 1 then (1, 0) else (2, 1)

/-- Count the failures of merge checks (R176). -/
def State.mergeCounted (s : State) (r : Nat × Nat) : State :=
  let s := if r.1 = 0 then s else (s.count 0 Reg.MG_RESIDUE_FAIL_CNT r.1).setRegB 0 Reg.MG_ERR_STAT 2 true
  if r.2 = 2 then s.setRegB 0 Reg.MG_ERR_STAT 6 true else s

/-! The canonical span tree. -/

/-- The value at a node of the tree. -/
def valueAt (vals : List TreeVal) (k b : Nat) : Option (List Head) :=
  (vals.find? fun v => v.level == k && v.first == b * 2 ^ k).map TreeVal.heads

/-- The value of tree node (k, b) from the values present (R157). -/
def treeValue (vals : List TreeVal) : Nat → Nat → MOut
  | 0, b => .leaf (valueAt vals 0 b)
  | k + 1, b =>
    match valueAt vals (k + 1) b with
    | some v => .leaf (some v)
    | none => (treeValue vals k (2 * b)).join (treeValue vals k (2 * b + 1))

/-- The highest blocks (level, first span), in ascending order, that satisfy `ok`, below block (k, b); `live` prunes
blocks of no interest. -/
def topBlocks (ok live : Nat → Nat → Bool) : Nat → Nat → List (Nat × Nat)
  | 0, b => if ok 0 b then [(0, b)] else []
  | k + 1, b =>
    if !live (k + 1) b then []
    else if ok (k + 1) b then [(k + 1, b * 2 ^ (k + 1))]
    else topBlocks ok live k (2 * b) ++ topBlocks ok live k (2 * b + 1)

/-- Spans of a set that block (k, b) covers. -/
def inBlock (set : List Nat) (k b : Nat) : List Nat := set.filter fun x => x / 2 ^ k == b

/-- A set of spans as the maximal aligned blocks that contain only its spans (R160). -/
def maximalBlocks (set : List Nat) : List (Nat × Nat) :=
  topBlocks (fun k b => (inBlock set k b).length == 2 ^ k) (fun k b => !(inBlock set k b).isEmpty) 12 0

/-- The whole blocks whose parent is not whole (R158): `need` holds every span with an unmasked position, `have_` those
that the node holds. -/
def wholeBlocks (need have_ : List Nat) : List (Nat × Nat) :=
  topBlocks (fun k b => !(inBlock need k b).isEmpty && (inBlock need k b).all have_.contains)
    (fun k b => !(inBlock need k b).isEmpty) 12 0

/-- Level and block index of the smallest block that contains spans `lo` to `hi` (R200). -/
def smallestBlock (lo hi : Nat) : Nat × Nat :=
  match (List.range 13).find? fun k => lo / 2 ^ k == hi / 2 ^ k with
  | some k => (k, lo / 2 ^ k)
  | none => (12, 0)

/-! Ember headers and bodies. -/

def ehId (h : BitVec 256) : Nat := getF h 192 64
def ehDigest (h : BitVec 256) : Nat := getF h 128 64
def ehTenant (h : BitVec 256) : Nat := getF h 96 16
def ehSlot (h : BitVec 256) : Nat := getF h 80 16
def ehUnits (h : BitVec 256) : Nat := getF h 64 16
def ehLen (h : BitVec 256) : Nat := getF h 40 24
def ehStatus (h : BitVec 256) : Nat := getF h 32 8
def ehKind (h : BitVec 256) : Nat := getF h 28 4
def ehVerdict (h : BitVec 256) : Nat := getF h 24 4

/-- An ember header (R177). -/
def ehMake (id digest dest tenant slot units len status kind verdict reason : Nat) : BitVec 256 :=
  let v := setF (setF (0 : BitVec 256) 192 64 id) 128 64 digest
  let v := setF (setF (setF (setF v 112 16 dest) 96 16 tenant) 80 16 slot) 64 16 units
  let v := setF (setF (setF (setF v 40 24 len) 32 8 status) 28 4 kind) 24 4 verdict
  setF (setF v 16 8 reason) 8 8 1

/-- The 64 bytes of a header pair (R66, R162). -/
def pairBytes (h : BitVec 256) : List Byte := leBytes 32 h.toNat ++ leBytes 32 (~~~h).toNat

/-- EMBER_ID (R178). -/
def emberId (node ms part num : Nat) : Nat := node * 2 ^ 48 + ms % 2 ^ 28 * 2 ^ 20 + part * 2 ^ 14 + num

/-- Body length (R162). -/
def bodyLen (heads d missing : Nat) : Nat := 24 + heads * (8 + 4 * d) + 8 * ceilDiv missing 2

/-- Units that an ember reserves (R180). -/
def emberUnits (len : Nat) : Nat := ceilDiv (64 + len + 64) 256

/-- The head records of a body (R162). -/
def headBytes (hs : List Head) : List Byte :=
  hs.flatMap fun h => leBytes 4 h.m.toNat ++ leBytes 4 h.l.toNat ++ h.o.flatMap fun w => leBytes 4 w.toNat

/-- A missing-block entry (R162). -/
def missEntry (b : Nat × Nat) : Nat := b.1 * 2 ^ 12 + b.2

/-- The body of an ember (R162). -/
def bodyBytes (first level fmt flags snapshot count index tag : Nat) (hs : List Head) (miss : List (Nat × Nat)) :
    List Byte :=
  leBytes 2 first ++ leBytes 1 level ++ leBytes 1 hs.length ++ leBytes 1 fmt ++ leBytes 1 flags ++
  leBytes 2 miss.length ++ leBytes 4 snapshot ++ leBytes 2 count ++ leBytes 2 index ++ leBytes 8 tag ++ headBytes hs ++
  miss.flatMap (fun b => leBytes 4 (missEntry b)) ++ (if miss.length % 2 = 1 then leBytes 4 0 else [])

def ebFirst (b : List Byte) : Nat := leAt b 0 2 % 4096
def ebLevel (b : List Byte) : Nat := leAt b 2 1
def ebHeads (b : List Byte) : Nat := leAt b 3 1
def ebFmt (b : List Byte) : Nat := leAt b 4 1
def ebFlags (b : List Byte) : Nat := leAt b 5 1
def ebMissing (b : List Byte) : Nat := leAt b 6 2
def ebSnapshot (b : List Byte) : Nat := leAt b 8 4
def ebCount (b : List Byte) : Nat := leAt b 12 2
def ebIndex (b : List Byte) : Nat := leAt b 14 2
def ebTag (b : List Byte) : Nat := leAt b 16 8

/-- Head dimension of a body. -/
def ebDim (b : List Byte) : Nat := headDim (ebFmt b / 8 % 4)

/-- The head records of a body. -/
def ebRecords (b : List Byte) : List Head :=
  let d := ebDim b
  (List.range (ebHeads b)).map fun h =>
    let o := 24 + h * (8 + 4 * d)
    { m := BitVec.ofNat 32 (leAt b o 4), l := BitVec.ofNat 32 (leAt b (o + 4) 4),
      o := (List.range d).map fun j => BitVec.ofNat 32 (leAt b (o + 8 + 4 * j) 4) }

/-- The missing list of a body, as blocks (level, first span). -/
def ebMissList (b : List Byte) : List (Nat × Nat) :=
  let o := 24 + ebHeads b * (8 + 4 * ebDim b)
  (List.range (ebMissing b)).map fun i => (leAt b (o + 4 * i) 4 / 4096 % 16, leAt b (o + 4 * i) 4 % 4096)

/-- Spans of a block. -/
def blockSpans (k first : Nat) : List Nat := (List.range (2 ^ k)).map (first + ·)

/-! The arithmetic of one span (R148 to R155). -/

/-- A page as a span-job reads it: the row offset of its row 0 within the span, its VALID rows, its scales, its tallies
as BF16 codes, and the page identity comparison of R78. -/
structure PageIn where
  off : Nat
  ks : List (List Byte)
  vs : List (List Byte)
  kScale : Word
  vScale : Word
  colSums : List Nat
  rowSums : List Nat
  same : Bool
  deriving DecidableEq, Repr

/-- The first event of a list. -/
def firstEvent : List (Option JobEvent) → Option JobEvent
  | [] => none
  | some e :: _ => some e
  | none :: t => firstEvent t

/-- One product chain of R110: pairwise sum of the products. -/
def dotProd (a b : List Sv) : Word := treeSum 8 (List.zipWith Sv.prod a b)

/-- The score check of R152 for one head: `sc` its scores by row. -/
def scoreCheck (p : PageIn) (rows : List (List Sv)) (q : List Sv) (sc : List Word) : Bool :=
  let prods := List.zipWith (fun (v : Sv) c => Dy.mul v.dy (fmtBF16.value c).dy) q p.colSums
  let u := q.mapIdx fun j v => Dy.mul v.dy.abs (Dy.sum (rows.map fun r => (r.getD j ⟨false, 0, 0⟩).dy.abs))
  within (Dy.sum (sc.map fdy)) (Dy.sum prods)
    (Dy.add (Dy.add (Dy.mul (Dy.pow2 (-8)) (Dy.sum (prods.map Dy.abs))) (Dy.mul (Dy.pow2 (-18)) (Dy.sum u)))
      (Dy.pow2 (-126)))

/-- The score pass over one page: its scaled scores by row and head, and the first event (R148, R152, R154). -/
def pageScores (f d : Nat) (scale : Word) (qs : List (List Sv)) (p : PageIn) : List (List Word) × Option JobEvent :=
  let rows := p.ks.map (rowValues f d)
  let sc := rows.map fun r => qs.map (dotProd r)
  let xs := sc.map fun r => r.map fun s => fmul (fmul s p.kScale) scale
  (xs, firstEvent [
    if p.same then none else some .checkFails,
    if (sc ++ xs).all (fun r => r.all ffinite) then none else some .nonfinite,
    if p.colSums.any tallySaturated then some .saturated else none,
    if (qs.mapIdx fun h q => scoreCheck p rows q (sc.map fun r => r.getD h 0)).all id then none else some .checkFails])

/-- The value check of R153 for one head: `a` its accumulations, `w` the weights of the rows. -/
def valueCheck (p : PageIn) (rows : List (List Sv)) (w : List Sv) (a : List Word) : Bool :=
  let prods := List.zipWith (fun (v : Sv) c => Dy.mul v.dy (fmtBF16.value c).dy) w p.rowSums
  let u := List.zipWith (fun (v : Sv) (r : List Sv) => Dy.mul v.dy.abs (Dy.sum (r.map fun x => x.dy.abs))) w rows
  within (Dy.sum (a.map fdy)) (Dy.sum prods)
    (Dy.add (Dy.add (Dy.mul (Dy.pow2 (-8)) (Dy.sum (prods.map Dy.abs))) (Dy.mul (Dy.pow2 (-12)) (Dy.sum u)))
      (Dy.pow2 (-126)))

/-- One page of a value pass: the new `o` of each head of the pass, and the first event. `ws` are the E4M3 weights of
each head by row offset in the span. -/
def pageValues (f d : Nat) (p : PageIn) (ws : List (List Byte)) (os : List (List Word)) :
    List (List Word) × Option JobEvent :=
  let rows := p.vs.map (rowValues f d)
  let w := ws.map fun x => (List.range rows.length).map fun t => fmtE4M3.value (byteAt x (p.off + t))
  let a := w.map fun x => (List.range d).map fun j =>
    (List.zip x rows).foldl (fun acc t => fadd acc (t.1.prod (t.2.getD j ⟨false, 0, 0⟩))) 0
  let o := List.zipWith (fun o a => List.zipWith (fun x y => fadd x (fmul y p.vScale)) o a) os a
  (o, firstEvent [
    if a.all (fun r => r.all ffinite) then none else some .nonfinite,
    if p.rowSums.any tallySaturated then some .saturated else none,
    if (List.zipWith (valueCheck p rows) w a).all id then none else some .checkFails,
    if o.all (fun r => r.all ffinite) then none else some .nonfinite])

/-- A value pass over the pages for some heads. -/
def valuePass (f d : Nat) (pages : List PageIn) (ws : List (List Byte)) : List (List Word) × Option JobEvent :=
  pages.foldl (fun acc p =>
    let r := pageValues f d p ws acc.1
    (r.1, firstEvent [acc.2, r.2])) (ws.map fun _ => List.replicate d 0, none)

/-- The weights and l of one head from its scaled scores: `x` by row offset, none where masked (R148, R150). -/
def draught (x : List (Option Word)) : Word × List Byte × Word :=
  let m := match x.filterMap id with
    | [] => 0
    | a :: t => t.foldl fmax a
  let w := x.map fun v => match v with
    | some v => e4m3OfFp32 (fmul (exp2Fixed (fsub v m)) 0x43800000)
    | none => 0
  (m, w, fmul (treeSum 10 (w.map fun b => (fmtE4M3.value b.toNat).word)) 0x3B800000)

/-- The weight check of R153 for one head. -/
def weightCheck (w : List Byte) (l : Word) : Bool :=
  let l8 := Dy.mul (fdy l) (Dy.pow2 8)
  within (Dy.sum (w.map fun b => (fmtE4M3.value b.toNat).dy)) l8 (Dy.mul (Dy.pow2 (-20)) l8)

/-- What one execution of a span-job forms (R148): the scaled scores of each page by row and head, the weights and the
accumulators of each head, and the outcome. -/
structure SpanWork where
  scores : List (List Word)
  probs : List (List Byte)
  accs : List (List Word)
  res : JobRes
  deriving DecidableEq, Repr

/-- One execution of a span-job (R148): pages in ascending FIRST_POS, query rows, and the row offsets that are
unmasked. -/
def spanRun (f dimCode : Nat) (pages : List PageIn) (queries : List (List Byte)) (scale : Word)
    (open_ : Nat → Bool) : SpanWork :=
  let d := headDim dimCode
  let qs := queries.map (rowValues (queryFmt f) d)
  let sc := pages.map (pageScores f d scale qs)
  let e1 := firstEvent (sc.map (·.2))
  let lanes := qs.mapIdx fun h _ =>
    draught ((List.range 1024).map fun u =>
      if open_ u then
        match (List.zip pages sc).find? fun t => decide (t.1.off ≤ u ∧ u < t.1.off + t.1.ks.length) with
        | some t => some ((t.2.1.getD (u - t.1.off) []).getD h 0)
        | none => none
      else none)
  let ws := lanes.map fun x => x.2.1
  let v1 := valuePass f d pages (ws.take 8)
  let v2 := valuePass f d pages (ws.drop 8)
  let os := v1.1 ++ v2.1
  let heads := List.zipWith (fun (x : Word × List Byte × Word) (o : List Word) =>
    (⟨x.1, x.2.2, o.map fun y => fmul y 0x3B800000⟩ : Head)) lanes os
  let e2 := firstEvent [v1.2, v2.2]
  let e3 := if (lanes.map fun x => weightCheck x.2.1 x.2.2).all id then none else some JobEvent.checkFails
  { scores := sc.flatMap (·.1)
    probs := ws
    accs := os
    res := {
      heads := heads,
      event := match e1, e2, e3 with
        | some e, _, _ => some (e, .score)
        | none, some e, _ => some (e, .value)
        | none, none, some e => some (e, .weight)
        | none, none, none => none } }

end Sys2Proof.Machine
end

