-- ==== Sys2Proof/Machine/Merge.lean ====
section
/-!
DEFINITION. The receiving side of embers and the MERGE engine (R178, R182, R185, R189 to R202).
-/

namespace Sys2Proof.Machine

/-! EMBER_ID numbers (R178). -/

/-- Key of a milestone and partition among the numbers used. -/
def numKey (p ms : Nat) : Nat := 64 * ms + p

/-- Numbers of a partition already used for a milestone. -/
def State.numsUsed (s : State) (p ms : Nat) : Nat := tget (fun _ => 0) s.emberNums (numKey p ms)

/-- Take `n` numbers of a partition for a milestone: the first, or none beyond 16,383. The numbers stay known of this
milestone and of the strides of requests in flight, the only ones of which more can be taken. -/
def State.takeNums (s : State) (p ms n : Nat) : Option (State × Nat) :=
  let k := s.numsUsed p ms
  if 16384 < k + n then none
  else
    let old := s.emberNums.filter fun e =>
      decide (e.1 / 64 = s.ms) || s.reqs.any fun r => r.stride == some (e.1 / 64)
    some ({ s with emberNums := tput (fun _ => 0) old (numKey p ms) (k + n) }, k)

/-! Reservations of the ember buffer (R180, R182). -/

/-- The stored header of an ember, while its pair is valid (R65). -/
def Recv.header? (r : Recv) : Option (BitVec 256) := r.hdr.bind Pair.get?

/-- A received ember awaits a verdict: sent early, none arrived. -/
def Recv.awaits (r : Recv) : Bool :=
  (match r.header? with | some h => ehVerdict h == 0 | none => false) && r.verdict.isNone

/-- An ember's checks are known to have passed: sealed when sent, or sealed by its verdict (R187, R191). -/
def Recv.sealedOk (r : Recv) : Bool :=
  !r.recalled && match r.header?, r.verdict with
    | some h, v => ehVerdict h == 3 || ehVerdict h == 1 || (match v with | some (1, _) => true | _ => false)
    | none, _ => false

/-- The reservation of an ember. -/
def State.recv? (s : State) (conn : Option Nat) (id : Nat) : Option Recv :=
  s.recv.find? fun r => r.id == id && r.conn == conn

/-- Change a reservation. -/
def State.setRecv (s : State) (conn : Option Nat) (id : Nat) (f : Recv → Recv) : State :=
  { s with recv := s.recv.map fun r => if r.id = id ∧ r.conn = conn then f r else r }

/-- Units of the ember buffer reserved now. -/
def State.unitsUsed (s : State) : Nat := (s.recv.map Recv.units).sum

/-- Free a reservation: its units and credits go back to the sender (R182). -/
def State.freeRecv (s : State) (r : Recv) : State :=
  let s : State := { s with recv := eraseFirst (fun x => x.id == r.id && x.conn == r.conn) s.recv }
  match r.conn with
  | some i => s.setConn i ((s.conn i).giveBack 2 r.units)
  | none => s

/-- Discard an ember: its reservation is freed, or waits for the verdict of an early ember (R182). -/
def State.dropRecv (s : State) (r : Recv) : State :=
  if r.awaits then s.setRecv r.conn r.id fun x => { x with discarded := true, merge := none }
  else s.freeRecv r

/-- Count a discard by R198. -/
def State.dedup (s : State) (m : Merge) (r : Recv) : State :=
  ((s.setMerge m.id fun m => { m with dedup := true }).count 0 Reg.MG_DEDUP_CNT 1).dropRecv r

/-! The inputs of a MERGE (R196 to R200). -/

/-- Sending node of an ember (R178). -/
def Recv.node (r : Recv) : Nat := r.id / 2 ^ 48

/-- The inputs of a MERGE, in order of arrival. -/
def State.inputsOf (s : State) (m : Merge) : List Recv :=
  m.inputs.filterMap fun id => s.recv.find? fun r => r.id == id && r.merge == some m.id

/-- Distinct nodes heard. -/
def sources (rs : List Recv) : List Nat := (rs.map Recv.node).dedup

/-- Spans that the block of a body covers; none for a report-only or non-reproducible ember. -/
def bodySpans (b : List Byte) : List Nat := if ebLevel b ≤ 12 then blockSpans (ebLevel b) (ebFirst b) else []

/-- Spans that a body's missing list names. -/
def missSpans (b : List Byte) : List Nat := (ebMissList b).flatMap fun e => blockSpans e.1 e.2

/-- Decide an outcome of R201 by its order number; the first in the order stands. -/
def State.mergeOutcome (s : State) (id n : Nat) : State :=
  s.setMerge id fun m => { m with outcome := min m.outcome n }

/-- The MERGE is open: accepted, and its status not posted. -/
def State.mergeOpen (s : State) (m : Merge) : Bool :=
  m.accepted.isSome && (m.kindle.isSome || match s.cmd? m.id with | some c => c.phase == .running | none => false)

/-- The open MERGE that an ember of a tenant and tag belongs to (R196). -/
def State.mergeFor (s : State) (tenant tag : Nat) : Option Merge :=
  s.merges.find? fun m => s.mergeOpen m && s.tenant m.part == tenant && m.tag.toNat == tag

/-- Merge each pair of siblings from block (k, b) upward as soon as both are present (R200); the count and the end of
the checks of R176. -/
def siblings (vals : List TreeVal) (dist : Nat) : Nat → Nat → Nat → List TreeVal × Nat × Nat
  | 0, _, _ => (vals, 0, 0)
  | n + 1, k, b =>
    let sib := if b % 2 = 0 then b + 1 else b - 1
    match valueAt vals k (b - b % 2), valueAt vals k (b - b % 2 + 1) with
    | some x, some y =>
      let o := (MOut.leaf (some x)).join (.leaf (some y))
      let e := o.settle dist
      match o.val with
      | some v =>
        if e.2 ≠ 0 then (vals, e)
        else
          let rest := vals.filter fun t => !(t.level == k && (t.first == b * 2 ^ k || t.first == sib * 2 ^ k))
          let r := siblings (⟨k + 1, b / 2 * 2 ^ (k + 1), v⟩ :: rest) 0 n (k + 1) (b / 2)
          (r.1, e.1 + r.2.1, r.2.2)
      | none => (vals, e)
    | _, _ => (vals, 0, 0)

/-- Put the value of an accepted ember into a MERGE. -/
def State.mergeValue (s : State) (m : Merge) (b : List Byte) (dist : Nat) : State :=
  if m.repro && decide (ebLevel b ≤ 12) then
    let k := ebLevel b
    let r := siblings (⟨k, ebFirst b, ebRecords b⟩ :: m.values) dist (12 - k) k (ebFirst b / 2 ^ k)
    let s := (s.setMerge m.id fun m => { m with values := r.1, retried := m.retried || (r.2.1 == 1 && r.2.2 == 0) }).mergeCounted r.2
    if r.2.2 = 0 then s else s.mergeOutcome m.id (if r.2.2 = 1 then 2 else 4)
  else s

/-- An ember comes from a node beyond the first SOURCES heard (R198). -/
def mergeExtra (m : Merge) (ins : List Recv) (r : Recv) : Bool :=
  !(sources ins).contains r.node && decide (m.sources ≤ (sources ins).length)

/-- An ember covers a span that an accepted one covers or names as missing (R198). -/
def mergeCovered (m : Merge) (ins : List Recv) (b : List Byte) : Bool :=
  m.repro && ins.any fun x => (bodySpans b).any fun t => (bodySpans x.body ++ missSpans x.body).contains t

/-- An ember becomes an input of its MERGE. -/
def State.accept (s : State) (m : Merge) (r : Recv) : State :=
  (s.setRecv r.conn r.id fun x => { x with merge := some m.id }).setMerge m.id fun m =>
    { m with inputs := m.inputs ++ [r.id] }

/-- A MERGE has its inputs (R199). -/
def hasInputs (m : Merge) (ins : List Recv) : Bool :=
  let srcs := sources ins
  srcs.length == m.sources && srcs.all fun n =>
    let mine := ins.filter fun r => r.node == n
    (List.range ((mine.map fun r => ebCount r.body).headD 0)).all fun i => mine.any fun r => ebIndex r.body == i

/-- The WAIT of a MERGE of a command has expired before it had its inputs (R201). -/
def State.waitExpired (s : State) (m : Merge) : Bool :=
  m.kindle.isNone && !hasInputs m (s.inputsOf m) && match m.accepted with
    | some a => decide (a + m.wait ≤ s.ms)
    | none => false

/-- An ember is offered to its MERGE (R197, R198, R201; log entry 50). One that comes after WAIT no longer helps it. A
duplicate is discarded whether it is recalled or not. -/
def State.offer (s : State) (m : Merge) (r : Recv) (dist : Nat) : State :=
  let s := if s.waitExpired m then s.mergeOutcome m.id 5 else s
  let b := r.body
  let ins := s.inputsOf m
  let again := mergeExtra m ins r || mergeCovered m ins b
  if m.inputs.contains r.id then s.dedup m r
  else if r.recalled then if again then s.dedup m r else (s.accept m r).mergeOutcome m.id 3
  else if ebFmt b ≠ m.fmt ∨ (ebHeads b ≠ 0 ∧ ebHeads b ≠ m.g) ∨ (ebFlags b % 2 == 1) ≠ m.repro then
    ((s.setRegB 0 Reg.MG_ERR_STAT 5 true).mergeOutcome m.id 4).dropRecv r
  else if again then s.dedup m r
  else
    let s := s.accept m r
    match s.merge? m.id with
    | some m => s.mergeValue m b dist
    | none => s

/-! Reception (R185, R189). -/

/-- Step 5 of R185: the structure of a body and the residue of every head record. -/
def residueOk (b : List Byte) (len : Nat) : Bool :=
  let k := ebLevel b
  decide (24 ≤ b.length) && (decide (k ≤ 12) || k == 0xFE || k == 0xFF) &&
  (if k = 0xFF then ebHeads b == 0 else decide (1 ≤ ebHeads b ∧ ebHeads b ≤ 16)) &&
  len == bodyLen (ebHeads b) (ebDim b) (ebMissing b) && b.length == len &&
  (ebRecords b).all fun h => headFinite h && Dy.le ⟨1, 0⟩ (fdy h.l) &&
    Dy.le (fdy h.l) ⟨1025 * (2 ^ (if k = 0xFE then 12 else k) : Nat), 0⟩

/-- A header pair that is not valid is a complement fault without a record of its own (R65, R185). -/
def State.headerFault (s : State) : State := (s.count 0 Reg.MT_CPL_FAULT_CNT 1).setRegB 0 Reg.MT_ERR_STAT 1 true

/-- Refuse the contents of a packet for its ember header (R300). PSN and MSG are those of the message that brought
it; without one they are free values (log entry 1). -/
def State.emberRefused (s : State) (conn : Option Nat) (tenant : Nat) (h : BitVec 256) : State :=
  match conn with
  | some i => match (s.conn i).rx2.findSome? fun m =>
        (m.parts.find? fun p => leAt p.2 0 32 == h.toNat).map fun p => (m, p.1) with
    | some (m, off) => s.refuse i 5 tenant m.psn m.num 0 off 0x0C
    | none => s.drawn.drawn.refuse i 5 tenant (s.fresh 32).toNat (s.drawn.fresh 32).toNat 0 (ehSlot h * 256) 0x0C
  | none => s

/-- A reservation with nothing in it yet. -/
def recvNew (conn : Option Nat) (h : BitVec 256) (ms : Nat) : Recv :=
  { id := ehId h, conn := conn, tenant := ehTenant h, slot := ehSlot h, units := ehUnits h, hdr := none, body := [],
    arrived := ms, verdict := none, recalled := false, merge := none, discarded := false }

/-- An ember or verdict is sunk without effect, and its units returned, while the node is HELD (R360). -/
def State.sinkHeld (s : State) (conn : Option Nat) (units : Nat) : State :=
  let s := s.count 0 Reg.MG_ORPHAN_CNT 1
  match conn with
  | some i => s.setConn i ((s.conn i).giveBack 2 units)
  | none => s

/-- Fill a reservation with an ember, and offer it to its MERGE (R185, R189, R191, R196). -/
def State.placeEmber (s : State) (conn : Option Nat) (hdr : BitVec 256) (body : List Byte) (dist : Nat) (r : Recv) :
    State :=
  let digestOk := crc64 body == ehDigest hdr && body.length == ehLen hdr
  let resOk := residueOk body (ehLen hdr)
  let s := if !digestOk then (s.count 0 Reg.MG_DIGEST_FAIL_CNT 1).setRegB 0 Reg.MG_ERR_STAT 0 true
    else if !resOk then (s.count 0 Reg.MG_RESIDUE_FAIL_CNT 1).setRegB 0 Reg.MG_ERR_STAT 1 true
    else s
  let wrong := match r.verdict with
    | some (v, d) => v != 1 || d != ehDigest hdr
    | none => false
  let s := if ehVerdict hdr = 3 ∧ r.verdict.isSome then s.count 0 Reg.MG_ORPHAN_CNT 1 else s
  let r : Recv := { r with
    hdr := some (pairOf hdr)
    body := body
    arrived := s.ms
    verdict := if ehVerdict hdr = 3 then none else r.verdict
    recalled := !digestOk || !resOk || ehVerdict hdr == 2 || (ehVerdict hdr != 3 && wrong) }
  let s := (s.setRecv conn (ehId hdr) fun _ => r).unitsMark
  match s.mergeFor (ehTenant hdr) (ebTag body) with
  | some m => s.offer m r dist
  | none =>
    if s.mergesDone.contains (ehTenant hdr, ebTag body) then (s.count 0 Reg.MG_ORPHAN_CNT 1).dropRecv r else s

/-- A received ember (R185, R189, R191, R196, R198). -/
def State.emberIn (s : State) (conn : Option Nat) (tenant : Nat) (hdr cmp : BitVec 256) (body : List Byte)
    (dist : Nat) : State :=
  if !(⟨hdr, cmp⟩ : Pair 256).ok then s.headerFault
  else if s.life = .held then s.sinkHeld conn (ehUnits hdr)
  else if ehTenant hdr ≠ tenant ∨ (ehKind hdr ≠ 1 ∧ ehKind hdr ≠ 2) ∨ 3 < ehVerdict hdr then
    s.emberRefused conn tenant hdr
  else
    match s.recv? conn (ehId hdr) with
    | some r =>
      if r.hdr.isSome then
        let s := s.count 0 Reg.MG_DEDUP_CNT 1
        let s := match r.merge with
          | some m => s.setMerge m fun m => { m with dedup := true }
          | none => s
        if ehSlot hdr = r.slot then s
        else match conn with
          | some i => s.setConn i ((s.conn i).giveBack 2 (ehUnits hdr))
          | none => s
      else s.placeEmber conn hdr body dist r
    | none =>
      let r := recvNew conn hdr s.ms
      { s with recv := s.recv ++ [r] }.placeEmber conn hdr body dist r

/-- EMBER_RECEIVED. -/
def execEmberReceived (conn : Option Nat) (tenant : Nat) (hdr cmp : BitVec 256) (body : List Byte) (mergeFails : Nat)
    (s : State) : Host.Outcome State Fault Refusal := .next (s.emberIn conn tenant hdr cmp body mergeFails)

/-- An accepted ember is recalled: its MERGE is decided (R201). -/
def State.recallInput (s : State) (r : Recv) : State :=
  let s := s.setRecv r.conn r.id fun x => { x with recalled := true }
  match r.merge with
  | some m => s.mergeOutcome m 3
  | none => s

/-- The verdict of an early ember has not arrived in time (R190). -/
def State.verdictLate (s : State) (r : Recv) : State :=
  if r.recalled then s
  else ((s.count 0 Reg.MG_VERDICT_LATE_CNT 1).setRegB 0 Reg.MG_ERR_STAT 4 true).recallInput r

/-- A stored header reads with a pair that is not valid (R65): the MERGE that has the ember ends with COMPLEMENT_FAULT. -/
def State.headerLost (s : State) (r : Recv) : State :=
  let s := s.cplFault (.ember r.id)
  match r.merge with
  | some m => s.mergeOutcome m 0
  | none => s

/-- The wait for a verdict is over (R190). -/
def State.waitOver (s : State) (r : Recv) : Bool := decide (r.arrived + s.regF 0 Reg.MG_CFG 0 8 ≤ s.ms)

/-- A received verdict (R189 to R191). One that comes after the wait for it is discarded; the reservation then needs no
other (R182). -/
def State.verdictIn (s : State) (conn : Option Nat) (tenant : Nat) (hdr cmp : BitVec 256) : State :=
  if !(⟨hdr, cmp⟩ : Pair 256).ok then s.headerFault
  else if s.life = .held then s.count 0 Reg.MG_ORPHAN_CNT 1
  else if ehTenant hdr ≠ tenant ∨ ehKind hdr ≠ 3 ∨ (ehVerdict hdr ≠ 1 ∧ ehVerdict hdr ≠ 2) then
    s.emberRefused conn tenant hdr
  else
    let v := (ehVerdict hdr, ehDigest hdr)
    match s.recv? conn (ehId hdr) with
    | none => { s with recv := s.recv ++ [{ recvNew conn hdr s.ms with verdict := some v }] }.unitsMark
    | some r =>
      if r.hdr.isNone ∨ r.verdict.isSome then s
      else match r.header? with
        | none => (s.headerLost r).setRecv conn r.id fun x => { x with verdict := some v }
        | some h =>
          if ehVerdict h = 3 then s.count 0 Reg.MG_ORPHAN_CNT 1
          else
            let s := if s.waitOver r then s.verdictLate r else s
            let s := s.setRecv conn r.id fun x => { x with verdict := some v }
            if r.discarded then s.freeRecv r
            else if r.recalled ∨ s.waitOver r ∨ v = (1, ehDigest h) then s
            else s.recallInput r

/-- VERDICT_RECEIVED. -/
def execVerdictReceived (conn : Option Nat) (tenant : Nat) (hdr cmp : BitVec 256) (s : State) :
    Host.Outcome State Fault Refusal := .next (s.verdictIn conn tenant hdr cmp)

/-- VERDICT_TIMEOUT (R190): the ember with that EMBER_ID, early and without verdict by A + VERDICT_WAIT. -/
def execVerdictTimeout (ember : Nat) (s : State) : Host.Outcome State Fault Refusal :=
  .next (match s.recv.find? fun r => r.id == ember && r.awaits && !r.recalled && s.waitOver r with
    | some r => s.verdictLate r
    | none => s)

/-- An ember that no MERGE has taken within ORPHAN_HOLD (R196). -/
def State.orphaned (s : State) (r : Recv) : Bool :=
  r.hdr.isSome && r.merge.isNone && !r.discarded && decide (r.arrived + s.regF 0 Reg.MG_CFG 8 8 ≤ s.ms)

/-- It is discarded (R196). -/
def State.orphanGone (s : State) (r : Recv) : State := (s.count 0 Reg.MG_ORPHAN_CNT 1).dropRecv r

/-- ORPHAN_EXPIRE (R196). -/
def execOrphanExpire (ember : Nat) (s : State) : Host.Outcome State Fault Refusal :=
  .next (match s.recv.find? fun r => r.id == ember && s.orphaned r with
    | some r => s.orphanGone r
    | none => s)

/-! The MERGE command. -/

def mgFlags (d : BitVec 512) : Nat := dF d 16 1
def mgGroup (d : BitVec 512) : Nat := dF d 17 1
def mgFmt (d : BitVec 512) : Nat := dF d 20 1
def mgSources (d : BitVec 512) : Nat := dF d 21 1
def mgWait (d : BitVec 512) : Nat := dF d 22 2
def mgFirst (d : BitVec 512) : Nat := dF d 32 4
def mgLast (d : BitVec 512) : Nat := dF d 36 4
def mgDest (d : BitVec 512) : Nat := dF d 40 2
def mgTag (d : BitVec 512) : BitVec 64 := BitVec.ofNat 64 (dF d 48 8)
def mgAddr (d : BitVec 512) : Nat := dF d 56 8

/-- FMT byte of an ATTEND or MERGE names a FORMAT and a HEAD_DIM (R71, R138). -/
def fmtOk (f : Nat) : Bool := decide (f < 32 ∧ f % 8 < 4 ∧ f / 8 < 3)

/-- The result goes to RES_ADDR (R194). -/
def Cmd.resHere (c : Cmd) : Bool := !c.inline? && mgDest c.desc == 0

/-- Largest body of a MERGE result (R195). -/
def mgRoom (d : BitVec 512) : Nat := bodyLen (mgGroup d) (headDim (mgFmt d / 8)) 64

/-- Check 1 of R195 but R42. -/
def mergeBodyOk (c : Cmd) : Bool :=
  let d := c.desc
  decide (mgFlags d < 2 ∧ 1 ≤ mgGroup d ∧ mgGroup d ≤ 16 ∧ 1 ≤ mgSources d ∧ mgSources d ≤ 64 ∧ mgWait d ≠ 0 ∧
    mgFirst d ≤ mgLast d) && fmtOk (mgFmt d) && dF d 19 1 == 0 && dF d 24 8 == 0 && dF d 42 6 == 0 &&
  (if c.resHere then addrOk (mgAddr d) else mgAddr d == 0)

/-- Where an answer goes (R138, R194, R296): the connection, or none for the node's own buffer; the flag says that no
OPEN connection leads there. -/
def State.route (s : State) (c : Cmd) (dest : Nat) : Option Nat × Bool :=
  let node := if dest ≠ 0 then dest else match c.conn? with
    | some i => (s.conn i).peerNode
    | none => 0
  if node = s.nodeId ∧ node ≠ 0 then (none, false)
  else match (if node = 0 then none else s.connTo c.part node) with
    | some i => (some i, false)
    | none => (none, true)

/-- Checks 1 to 7 of R195. -/
def State.mergeCheck (s : State) (c : Cmd) : State × Nat :=
  let d := c.desc
  let n := 64 + mgRoom d
  if !mergeBodyOk c then (s, 0x0C)
  else if c.resHere ∧ !s.mapped (mgAddr d) n then (s.unmappedError, 0x0C)
  else if s.adrift then (s, 0x10)
  else if c.refused then (s, 0x0F)
  else if 4194304 ≤ mgLast d then (s, 0x03)
  else if mgFlags d = 0 ∧ !s.regB 0 (Reg.AT_MODE + 4 * c.part) 0 then (s, 0x0F)
  else if c.resHere ∧ (s.ownCheck c.part (mgAddr d) n).2 ≠ 0 then s.ownCheck c.part (mgAddr d) n
  else if s.merges.any (fun m => m.part == c.part && m.tag == mgTag d &&
      (m.kindle.isSome || match s.cmd? m.id with | some c => c.phase == .running | none => false)) then (s, 0x0C)
  else (s, 0)

/-- What the inputs of a MERGE leave out: the missing entries as spans, and the gaps (R199). -/
def mergeMissing (m : Merge) (ins : List Recv) : List Nat × List Nat :=
  let miss := ins.flatMap fun r => missSpans r.body
  if !m.repro then (miss, [])
  else
    let smax := ins.foldl (fun a r => max a (ebSnapshot r.body)) 0
    let last := min (m.posLast + 1) smax
    let want := if last ≤ m.posFirst then []
      else (List.range ((last - 1) / 1024 - m.posFirst / 1024 + 1)).map (m.posFirst / 1024 + ·)
    (miss, want.filter fun t => !(miss.contains t) && !ins.any fun r => (bodySpans r.body).contains t)

/-- TAIL_EXCLUDED in any input. -/
def mergeTail (ins : List Recv) : Bool := ins.any fun r => ebFlags r.body / 4 % 2 == 1

/-- The result word of a MERGE (R202). Coverage is judged once it has its inputs (R199). -/
def mergeResult (m : Merge) (ins : List Recv) : Nat :=
  let gap := hasInputs m ins && !(mergeMissing m ins).2.isEmpty
  let miss := gap || ins.any fun r => ebMissing r.body != 0
  (if mergeTail ins then 2 ^ 31 else 0) + (if miss then 2 ^ 30 else 0) + (if gap then 2 ^ 29 else 0) +
  (if m.dedup then 2 ^ 28 else 0) + (if m.retried then 2 ^ 27 else 0) + min (sources ins).length 64 * 2 ^ 20 +
  min ins.length 4096

/-- A MERGE has completed: its inputs are freed (R182), and embers of its tag that come later are discarded (R196). -/
def State.mergePast (s : State) (m : Merge) : State :=
  let s := (s.inputsOf m).foldl State.dropRecv s
  { s with mergesDone := (s.mergesDone.filter (· != (s.tenant m.part, m.tag.toNat))) ++ [(s.tenant m.part, m.tag.toNat)] }

/-- End a MERGE with a status and its result word. -/
def State.endMerge (s : State) (m : Merge) (status : Nat) : State :=
  let r := mergeResult m (s.inputsOf m)
  (if m.accepted.isSome then s.mergePast m else s).endCmd m.id status (BitVec.ofNat 32 r)

/-- Reserve the result of a MERGE (check 8 of R195, R178, R181), and find the embers held for it (R196). It stays
deferred when it cannot; without an OPEN connection it ends with TIMEOUT (R296). -/
def State.mergeReserve (s : State) (id : Nat) : State :=
  match s.merge? id with
  | none => s
  | some m =>
    if m.accepted.isSome then s
    else if m.unreachable then s.endMerge m 0x0B
    else match s.takeNums m.part s.ms 1 with
      | none => s
      | some (s', num) =>
        let got : Option (State × List Nat) := if m.toHost then some (s', [0])
          else s'.takePlaces m.part m.conn [(emberId s.nodeId s.ms m.part num, m.units)]
        match got with
        | none => s
        | some (s', slots) =>
          let s' := s'.setMerge id fun m => { m with accepted := some s.ms, num := num, slot := slots.headD 0 }
          let held := s'.recv.filter fun r => r.hdr.isSome && r.merge.isNone && !r.discarded &&
            r.tenant == s.tenant m.part && ebTag r.body == m.tag.toNat
          held.foldl (fun s r => match s.merge? id with
            | some m =>
              if r.header?.isNone then s.cplFault (.ember r.id)
              else if s.orphaned r then s.orphanGone r else s.offer m r 0
            | none => s) s'

/-- MERGE (R195). -/
def execMerge (cmd : Nat) (s : State) : Host.Outcome State Fault Refusal :=
  .next (match s.starting? cmd 2 with
    | none => s
    | some c =>
      let s := s.runCmd cmd
      let (s, status) := s.mergeCheck c
      let d := c.desc
      if status ≠ 0 then s.endCmd cmd status 0
      else
        let rt := if c.resHere then (none, false) else s.route c (mgDest d)
        let m : Merge := {
          id := cmd, kindle := none, part := c.part, repro := mgFlags d == 1, g := mgGroup d, fmt := mgFmt d,
          sources := mgSources d, wait := mgWait d, posFirst := mgFirst d, posLast := mgLast d, conn := rt.1,
          unreachable := rt.2, resAddr := mgAddr d, toHost := c.resHere, tag := mgTag d, accepted := none, num := 0,
          slot := 0, units := emberUnits (mgRoom d), inputs := [], values := [], missing := [], dedup := false,
          retried := false, outcome := 8 }
        { s with merges := s.merges ++ [m]
                 mergesDone := s.mergesDone.filter (· != (s.tenant c.part, (mgTag d).toNat)) }.mergeReserve cmd)

/-- The value of a complete MERGE with its level and first span (R200). The value of a block above the smallest one that
contains the range is the same value, carried up by EMPTY (R157). -/
def mergeFinal (m : Merge) (ins : List Recv) : MOut × Nat × Nat :=
  if m.repro then
    let kb := smallestBlock (m.posFirst / 1024) (m.posLast / 1024)
    let above := (List.range (13 - kb.1)).findSome? fun i => valueAt m.values (kb.1 + i) (kb.2 / 2 ^ i)
    (match above with | some v => .leaf (some v) | none => treeValue m.values kb.1 kb.2, kb.1, kb.2 * 2 ^ kb.1)
  else
    let parts := ins.filter fun r => ebLevel r.body != 0xFF
    ((parts.map fun r => MOut.leaf (some (ebRecords r.body))).foldl MOut.join (.leaf none), 0xFE,
      (parts.map fun r => ebFirst r.body).foldl min 4095)

/-- Status of an outcome of R201; 0 stands for a header pair that is not valid (R65). -/
def mergeStatus (n : Nat) : Nat := [0x0E, 0x09, 0x0A, 0x07, 0x0C, 0x0B, 0x02, 0x01, 0x00].getD n 0

/-- Send the result ember of a MERGE (R200, R201): to the host's address in the node, to the node's own buffer, or over
the connection. -/
def State.sendResult (s : State) (m : Merge) (status level first snapshot : Nat) (tail : Bool) (hs : List Head)
    (miss : List (Nat × Nat)) : State :=
  let flags := (if m.repro then 1 else 0) + 2 + (if tail then 4 else 0)
  let body := bodyBytes first level m.fmt flags snapshot 1 0 m.tag.toNat hs miss
  let dest := match m.conn with
    | some i => (s.conn i).peerNode
    | none => if m.toHost then 0 else s.nodeId
  let hdr := ehMake (emberId s.nodeId (m.accepted.getD 0) m.part m.num) (crc64 body) dest (s.tenant m.part) m.slot m.units
    body.length status 2 3 0
  if m.toHost then s.codedWrite m.part m.id m.resAddr (pairBytes hdr ++ body)
  else match m.conn with
    | some i => s.sendEmber i (m.slot * 256) (ehId hdr) (pairBytes hdr ++ body)
    | none => s.emberIn none (s.tenant m.part) hdr (~~~hdr) body 0

/-- End a MERGE with a report-only result (R201). A MERGE without a reservation has no place to send one. -/
def State.reportMerge (s : State) (m : Merge) (status : Nat) (miss : List (Nat × Nat)) : State :=
  let ins := s.inputsOf m
  let smax := ins.foldl (fun a r => max a (ebSnapshot r.body)) 0
  let s := if m.accepted.isSome then s.sendResult m status 0xFF 0 smax (mergeTail ins) [] miss else s
  s.endMerge m status

/-- Complete a MERGE whose outcome is decided, or whose inputs are present and sealed (R199 to R202). -/
def State.finishMerge (s : State) (m : Merge) (dist : Nat) : State :=
  let ins := s.inputsOf m
  let bad := ins.filter fun r => r.header?.isNone
  if !bad.isEmpty then (bad.foldl (fun s r => s.cplFault (.ember r.id)) s).reportMerge m 0x0E []
  else if m.outcome < 6 then s.reportMerge m (mergeStatus m.outcome) []
  else
    let mm := mergeMissing m ins
    let lost := sortNat (mm.1 ++ mm.2)
    if !lost.isEmpty then s.reportMerge m (mergeStatus 6) ((maximalBlocks lost).take 64)
    else
      let f := mergeFinal m ins
      let e := f.1.settle dist
      let s := s.mergeCounted e
      let m := { m with retried := m.retried || (e.1 == 1 && e.2 == 0) }
      let n := if mergeTail ins then 7 else 8
      if e.2 ≠ 0 then s.reportMerge m (mergeStatus (if e.2 = 1 then 2 else 4)) []
      else match f.1.val with
        | some hs =>
          let smax := ins.foldl (fun a r => max a (ebSnapshot r.body)) 0
          (s.sendResult m (mergeStatus n) f.2.1 f.2.2 smax (mergeTail ins) hs []).endMerge m (mergeStatus n)
        | none => s.reportMerge m (mergeStatus n) []

/-- MERGE_RESULT_SEND (R200, R201). -/
def execMergeResultSend (cmd mergeFails : Nat) (s : State) : Host.Outcome State Fault Refusal :=
  .next (match s.merge? cmd with
    | some m =>
      if m.kindle.isSome ∨ !s.mergeOpen m then s
      else if m.outcome < 6 ∨ (hasInputs m (s.inputsOf m) ∧ (s.inputsOf m).all fun r => r.sealedOk || r.header?.isNone) then
        s.finishMerge m mergeFails
      else s
    | none => s)

/-- MERGE_WAIT_TIMEOUT (R201). -/
def execMergeWaitTimeout (cmd : Nat) (s : State) : Host.Outcome State Fault Refusal :=
  .next (match s.merge? cmd with
    | some m =>
      if s.mergeOpen m ∧ s.waitExpired m then s.mergeOutcome cmd 5 else s
    | none => s)

end Sys2Proof.Machine
end

