-- ==== Sys2Proof/Machine/Attend.lean ====
section
/-!
DEFINITION. The ATTEND engine: acceptance, strides and plans, span-jobs with their checks, emission, seal and recall,
and completion (R138 to R170, R187, R188).
-/

namespace Sys2Proof.Machine

/-! The descriptor (R138). -/

def atFlags (d : BitVec 512) : Nat := dF d 16 1
def atGroup (d : BitVec 512) : Nat := dF d 17 1
def atLayer (d : BitVec 512) : Nat := dF d 18 1
def atKv (d : BitVec 512) : Nat := dF d 19 1
def atFmt (d : BitVec 512) : Nat := dF d 20 1
def atSeq (d : BitVec 512) : Nat := dF d 24 8
def atFirst (d : BitVec 512) : Nat := dF d 32 4
def atLast (d : BitVec 512) : Nat := dF d 36 4
def atScale (d : BitVec 512) : Word := BitVec.ofNat 32 (dF d 40 4)
def atDest (d : BitVec 512) : Nat := dF d 44 2
def atAddr (d : BitVec 512) : Nat := dF d 48 8
def atTag (d : BitVec 512) : BitVec 64 := BitVec.ofNat 64 (dF d 56 8)

/-- Bytes of one query vector (R139). -/
def queryWidth (fmt : Nat) : Nat := rowBytes (queryFmt (fmt % 8)) (headDim (fmt / 8))

/-- Bytes of the query source (R139). -/
def atLen (d : BitVec 512) : Nat := atGroup d * queryWidth (atFmt d)

/-- Check 1 of R140 but R42. -/
def attendOk (c : Cmd) : Bool :=
  let d := c.desc
  decide (atFlags d < 8 ∧ 1 ≤ atGroup d ∧ atGroup d ≤ 16) && fmtOk (atFmt d) && dF d 21 3 == 0 && dF d 46 2 == 0 &&
  (if atFlags d % 2 = 1 then c.inline? && decide (atAddr d + atLen d ≤ c.payload.length) else addrOk (atAddr d))

/-- Checks 5 to 8 of R140 on the key's entry. -/
def State.attendEntry (s : State) (k : DirKey) (fmt kv first last : Nat) (scale : Word) : State × Nat :=
  if last < first then (s, 0x0C)
  else match s.dir? k with
    | none => (s, 0x0C)
    | some e =>
      let s := s.dirSeen k
      match e.val? with
      | none => (s, 0x0E)
      | some v =>
        if deState v ≠ 1 then (s, 0x0C)
        else if fmt ≠ deFmt v + 8 * deDim v ∨ kv < deKvFirst v ∨ deKvFirst v + deKvCount v ≤ kv then (s, 0x0C)
        else if !fposNormal scale then (s, 0x0C)
        else (s, 0)

/-- The checks of R140 but the last. -/
def State.attendCheck (s : State) (c : Cmd) : State × Nat :=
  let d := c.desc
  let inline := atFlags d % 2 = 1
  if !attendOk c then (s, 0x0C)
  else if !inline ∧ !s.mapped (atAddr d) (atLen d) then (s.unmappedError, 0x0C)
  else if s.adrift then (s, 0x10)
  else if c.refused then (s, 0x0F)
  else if 4194304 ≤ atLast d then (s, 0x03)
  else
    let (s, status) := s.attendEntry ⟨c.part, atSeq d, atLayer d⟩ (atFmt d) (atKv d) (atFirst d) (atLast d) (atScale d)
    if status ≠ 0 then (s, status)
    else
      let mode := s.reg 0 (Reg.AT_MODE + 4 * c.part)
      if !inline ∧ (s.ownCheck c.part (atAddr d) (atLen d)).2 ≠ 0 then s.ownCheck c.part (atAddr d) (atLen d)
      else if (atFlags d / 2 % 2 = 0 ∧ !getB mode 0) ∨ (atFlags d / 4 % 2 = 0 ∧ !getB mode 1) then (s, 0x0F)
      else (s, 0)

/-- End an ATTEND at its checks. -/
def State.endAttend (s : State) (c : Cmd) (status result : Nat) : State :=
  s.endCmd c.id status (BitVec.ofNat 32 result)

/-- ATTEND (R140): checked, and accepted into the next stride. -/
def execAttend (cmd : Nat) (s : State) : Host.Outcome State Fault Refusal :=
  .next (match s.starting? cmd 0 with
    | none => s
    | some c =>
      let s := s.runCmd cmd
      let (s, status) := s.attendCheck c
      let d := c.desc
      if status ≠ 0 then s.endAttend c status 0
      else
        let inline := atFlags d % 2 = 1
        let ue := !inline && s.hasUE (atAddr d) (atLen d)
        let (src, s) := if inline then (sliceB c.payload (atAddr d) (atLen d), s) else s.readFor (atAddr d) (atLen d)
        let qs := cutRows (queryWidth (atFmt d)) (atGroup d) src
        if ue then s.endAttend c 0x08 0
        else if !qs.all (rowFinite (queryFmt (atFmt d % 8)) (headDim (atFmt d / 8))) then s.endAttend c 0x0C 0
        else
          let rt := s.route c (atDest d)
          let r : Req := {
            id := cmd, kindle := none, part := c.part, seq := atSeq d, layer := atLayer d, kv := atKv d, g := atGroup d,
            fmt := atFmt d, posFirst := atFirst d, posLast := atLast d, scale := atScale d, queries := qs,
            tag := atTag d, repro := atFlags d / 2 % 2 == 1, isSealed := atFlags d / 4 % 2 == 1, bare := false,
            conn := rt.1, unreachable := rt.2, stride := none, accepted := s.ms, deferred := false, retried := false,
            tailExcluded := false, missingAny := false, snapshot := 0, extFirst := 0, extLast := 0, jobs := [],
            missing := [], blks := [], emitted := 0, outcome := 8 }
          let s : State := { s with reqs := s.reqs ++ [r] }
          s.hwm 0 Reg.AT_INFLIGHT_HWM s.inFlight)

/-! Clocks and the plan (R33, R34, R113, R132, R144, R145). -/

/-- FCLK and HCLK in use, in units of 25 MHz, doubled so that the halved clocks of Damped stay whole (R33, R34, R401). -/
def State.clocks (s : State) : Nat × Nat :=
  let o := s.reg 0 (Reg.FT_OPP + 4 * s.regF 0 Reg.FT_OPP_CUR 0 2)
  let clamp (lo hi x : Nat) : Nat := max lo (min hi x)
  let half := if s.power = .damped then 1 else 2
  (clamp 40 132 (half * clamp 20 66 (getF o 16 8)), clamp 80 264 (half * clamp 40 132 (getF o 0 8)))

/-- FCLK in a milestone (R145). -/
def State.fclkPerMs (s : State) : Nat := 2048 * s.clocks.1 / 80

/-- Draught lanes of a partition on Hearth die `h` (R144, R338). -/
def State.lanes (s : State) (p h : Nat) : Nat := recField (s.entryVal p) (24 + 2 * h) 2

/-- Columns that a partition owns among those that Hearth die `h` serves. -/
def State.colsOn (s : State) (p h : Nat) : Nat := ((List.range 128).filter fun i => s.ownsCol p (128 * h + i)).length

/-- Pass time over slots of the given bytes (R113). -/
def passFclk (k : Nat) (bs : List Nat) : Nat := 64 + (bs.map fun b => ceilDiv b 128 * k + 8).sum

/-- Slots of a request's KV head in a span, in ascending FIRST_POS: the live ones, and for a local request of a KINDLE
also those that it has written (R221). -/
def State.jobSlots (s : State) (r : Req) (span : Nat) : List Slot :=
  let mine := s.slots.filter fun x => x.part == r.part && x.seq == r.seq && x.layer == r.layer && x.kv == r.kv &&
    x.firstPos / 1024 == span &&
    (x.use == .live || (r.bare && match r.kindle with | some k => x.use == .kindle k | none => false))
  byPos mine
where
  byPos : List Slot → List Slot
    | [] => []
    | x :: t => ins x (byPos t)
  ins (x : Slot) : List Slot → List Slot
    | [] => [x]
    | y :: t => if x.firstPos ≤ y.firstPos then x :: y :: t else y :: ins x t

/-- Last position that is not masked, plus one (R143). -/
def Req.bound (r : Req) : Nat := if r.bare then r.posLast + 1 else min (r.posLast + 1) r.snapshot

/-- Geometry of a request: tokens in a page, head dimension and row bytes. -/
def State.reqGeo (s : State) (r : Req) : Nat × Nat × Nat :=
  let v := match s.dir? ⟨r.part, r.seq, r.layer⟩ with
    | some d => d.val?.getD 0
    | none => 0
  (classTokens (deClass v), headDim (deDim v), rowBytes (deFmt v) (headDim (deDim v)))

/-- The slots that a span-job reads: those of pages with an unmasked row (R148). Their places alone tell which: what a
page holds is not trusted before R78 has compared it. -/
def State.jobPages (s : State) (r : Req) (span : Nat) : List Slot :=
  (s.jobSlots r span).filter fun x =>
    decide (x.firstPos < r.bound ∧ r.posFirst < x.firstPos + (s.reqGeo r).1)

/-- Bytes that the score and the value pass consume from a slot (R112, R113). -/
def slotBytes (n d w : Nat) (t : Option Trailer) : Nat × Nat :=
  let valid := match t with | some t => t.valid | none => n
  let tail := bandBytes n d + 512
  match t with
  | some t => if t.coded then (valid * w + tail, (n + valid) * w - n * w / 4096 * 4096) else (valid * w + tail, valid * w)
  | none => (valid * w + tail, valid * w)

/-- Byte ranges of a slot that the score pass and a value pass read (R113): the VALID rows and, in the score pass, the
band and the trailer. Of a coded page a pass reads the stream, and of a slot without a trailer only where it stands. -/
def passRanges (n d w : Nat) (x : Slot) (t : Option Trailer) : List (Nat × Nat) × List (Nat × Nat) :=
  let tail := (x.addr + x.size - bandBytes n d - 512, bandBytes n d + 512)
  match t with
  | none => ([tail], [])
  | some t =>
    if t.coded then ([(x.addr, x.size)], [(x.addr, x.size - bandBytes n d - 512)])
    else ([(x.addr, min t.valid n * w), tail], [(x.addr + n * w, min t.valid n * w)])

/-- 64-byte units of byte ranges that reach the span's home column over the Chimney bus (R130, R143). -/
def busUnits (home : Nat) (rs : List (Nat × Nat)) : Nat :=
  (rs.map fun r =>
    if r.2 = 0 ∨ r.1 < 0x030000000000 then 0
    else ((List.range ((r.1 + r.2 - 1) / 64 - r.1 / 64 + 1)).filter fun i =>
      homeColumn ((r.1 / 64 + i) * 64) != home).length).sum

/-- Units that the score pass and a value pass of a span-job move over the Chimney bus. -/
def State.jobUnits (s : State) (r : Req) (col : Nat) (pages : List Slot) : Nat × Nat :=
  let g := s.reqGeo r
  let rs := pages.map fun x => passRanges g.1 g.2.1 g.2.2 x (s.trailer x)
  ((rs.map fun x => busUnits col x.1).sum, (rs.map fun x => busUnits col x.2).sum)

/-- Planned cost of a span-job in FCLK (R145). -/
def State.jobCost (s : State) (r : Req) (col : Nat) (pages : List Slot) : Nat :=
  let g := s.reqGeo r
  let bytes := pages.map fun x => slotBytes g.1 g.2.1 g.2.2 (s.trailer x)
  let bus := s.jobUnits r col pages
  let passes := if 9 ≤ r.g then 2 else 1
  let ts := passFclk (if 9 ≤ r.g then 2 else 1) (bytes.map (·.1)) + bus.1 * 1024
  let tv := passFclk 1 (bytes.map (·.2)) + bus.2 * 1024
  let h := col / 128
  let td := 320 + ceilDiv (1024 * r.g * s.colsOn r.part h * s.clocks.1) (s.lanes r.part h * s.clocks.2)
  ceilDiv (5 * (ts + passes * tv + td + if r.isSealed then 512 else 0)) 4

/-! Embers of a request (R158 to R163, R180). -/

/-- Spans of a list of jobs whose partials stand or are still to come. -/
def Req.holdsSpans (r : Req) : List Nat := (r.jobs.filter fun j => j.phase != .damaged && j.phase != .dead).map Job.span

/-- Spans of the range with an unmasked position, judged here or held elsewhere (R143, R157). -/
def Req.needSpans (r : Req) : List Nat :=
  ((List.range (r.posLast / 1024 - r.posFirst / 1024 + 1)).map (r.posFirst / 1024 + ·)).filter fun t =>
    decide (t < r.extFirst ∨ r.extLast < t) || r.missing.contains t || decide (max r.posFirst (1024 * t) < r.bound)

/-- The embers that a request owes for the spans it holds: level, first span and spans (R158, R159, R163). -/
def Req.targets (r : Req) : List (Nat × Nat × List Nat) :=
  let have_ := r.holdsSpans
  if have_.isEmpty then [(0xFF, 0, [])]
  else if r.repro then
    (wholeBlocks r.needSpans have_).map fun b => (b.1, b.2, have_.filter fun t => t / 2 ^ b.1 == b.2 / 2 ^ b.1)
  else [(0xFE, have_.foldl min 4095, have_)]

/-- EMBER_ID of a number of a request (R178). -/
def State.emberIdOf (s : State) (r : Req) (num : Nat) : Nat := emberId s.nodeId (r.stride.getD s.ms) r.part num

/-- Reserve the embers of a request that are not reserved yet: numbers, and places at the destination (R178, R181). -/
def State.reserveBlks (s : State) (r : Req) (ts : List (Nat × Nat × List Nat)) : Option (State × List Blk) :=
  let nmiss := (maximalBlocks r.missing).length
  let d := headDim (r.fmt / 8)
  let sizes := ts.mapIdx fun i t => emberUnits (bodyLen (if t.1 = 0xFF then 0 else r.g) d (if i = 0 then nmiss else 0))
  match s.takeNums r.part (r.stride.getD s.ms) ts.length with
  | none => none
  | some (s, num) =>
    match s.takePlaces r.part r.conn (sizes.mapIdx fun i u => (s.emberIdOf r (num + i), u)) with
    | some (t, slots) => some (t, ts.mapIdx fun i t =>
        { level := t.1, first := t.2.1, spans := t.2.2, num := num + i, slot := slots.getD i 0, units := sizes.getD i 0,
          sent := false })
    | none => none

/-- The places of embers that are never sent go back (R181). -/
def State.dropBlks (s : State) (r : Req) : State :=
  (r.blks.filter fun b => !b.sent).foldl (fun (s : State) (b : Blk) =>
    s.dropPlace r.conn (s.emberIdOf r b.num) b.slot b.units) s

/-! Verdicts (R187). -/

/-- Send the verdict of an ember (R177, R187). While the stored header is not valid the node acts on neither half of it: it
sends none, which the destination takes as a recall (R190), and the request ends with COMPLEMENT_FAULT (R65). -/
def State.sendVerdict (s : State) (e : Sent) (v reason : Nat) : State :=
  let s : State := { s with sent := s.sent.map fun x =>
    if x.id = e.id ∧ x.req = e.req then { x with verdict := some v } else x }
  match e.hdr.get? with
  | none => (s.cplFault (.ember e.id)).setReq e.req fun r => { r with outcome := 0 }
  | some h =>
    let hdr := ehMake (ehId h) (ehDigest h) (getF h 112 16) (ehTenant h) (ehSlot h) (ehUnits h) 0 0 3 v reason
    let s := s.count 0 (if v = 1 then Reg.MG_SEAL_CNT else Reg.MG_RECALL_CNT) 1
    match e.conn with
    | some i => s.sendEmber i ((ehSlot h + ehUnits h) * 256 - 64) e.id (pairBytes hdr)
    | none => s.verdictIn none (ehTenant h) hdr (~~~hdr)

/-- End a request with an outcome of R166: embers not yet sent are not sent, unsealed embers already sent are recalled,
those of `spans` with `reason` and the others with 6 (R187), and span-jobs not yet run are given up. -/
def State.failReq (s : State) (id order reason : Nat) (spans : Option (List Nat)) : State :=
  let s := s.setReq id fun r => { r with
    outcome := min r.outcome order
    jobs := r.jobs.map fun j => if j.phase = .planned ∧ !j.rerun then { j with phase := .dead } else j }
  (s.sent.filter fun e => e.req == id && e.early && e.verdict.isNone).foldl (fun s e =>
    s.sendVerdict e 2 (if spans.all fun l => e.spans.any l.contains then reason else 6)) s

/-! Stride dispatch (R142, R143, R145). -/

/-- Heat of a unit that a span-job reads (R234). -/
def State.heated (s : State) (p seq span : Nat) : State :=
  let h := s.heatOf p seq span
  if h.l = s.ms ∧ h.h ≠ 0 then s
  else
    let h' : Heat := { h with h := min 255 (s.effHeat h + 1), l := s.ms }
    { s with heat := h' :: s.heat.filter fun x => !(x.part == p && x.seq == seq && x.span == span) }

/-- Planned end of a column, from nanosecond 0 of the current milestone. -/
def State.planEnd (s : State) (col : Nat) : Nat :=
  tget (fun _ => 0) s.plan col - (s.ms - s.planBase) * s.fclkPerMs

/-- Put a plan back for the current milestone. -/
def State.setPlan (s : State) (ends : List (Nat × Nat)) : State :=
  let moved : State := { s with
    plan := (s.plan.map fun e => (e.1, s.planEnd e.1)).filter fun e => e.2 != 0
    planBase := s.ms }
  { moved with plan := ends.foldl (fun t e => tput (fun _ => 0) t e.1 e.2) moved.plan }

/-- Place span-jobs after the work planned on their columns, in ascending span (R145): the jobs and the new ends. -/
def State.placeJobs (s : State) (r : Req) : List (Nat × Nat) → List (Nat × Nat) → List Job × List (Nat × Nat)
  | [], ends => ([], ends)
  | (span, col) :: t, ends =>
    let cur := match ends.find? fun e => e.1 == col with
      | some e => e.2
      | none => s.planEnd col
    let stop := cur + s.jobCost r col (s.jobPages r span)
    let rest := s.placeJobs r t ((col, stop) :: ends.filter fun e => e.1 != col)
    ({ span := span, col := col, pages := s.jobPages r span, planEnd := stop, phase := .planned, res := ⟨[], none⟩, scoreOk := false,
       valueOk := false, weightOk := false, rerun := false, notBefore := 0, overrun := false } :: rest.1, rest.2)

/-- Spans that the KINDLE of a request is writing in its layer (R221, R459). -/
def State.rekindled (s : State) (r : Req) : List Nat :=
  match r.kindle with
  | some c => match s.kindle? c with
    | some k => (k.layersOf.filter fun e => e.2.contains r.layer).map (·.1)
    | none => []
  | none => []

/-- The job of a span of a request. -/
def Req.job? (r : Req) (span : Nat) : Option Job := r.jobs.find? fun j => j.span == span

/-- Change the job of a span. -/
def State.setJob (s : State) (id span : Nat) (f : Job → Job) : State :=
  s.setReq id fun r => { r with jobs := r.jobs.map fun j => if j.span = span then f j else j }

/-! Job contexts of column scratch (R114). -/

/-- The span-job of a context is still to run, runs, or may run once more. -/
def State.ctxHeld (s : State) (c : JobCtx) : Bool :=
  match c.job with
  | some (id, span) => match s.req? id with
    | some r => match r.job? span with | some j => j.active | none => false
    | none => false
  | none => false

/-- The context that a span-job is loaded in. -/
def Scratch.ctxOf (x : Scratch) (id span : Nat) : Option Nat :=
  if x.ctx0.job = some (id, span) then some 0 else if x.ctx1.job = some (id, span) then some 1 else none

/-- Write a context, whose latent errors end. -/
def State.putCtx (s : State) (c i : Nat) (v : JobCtx) : State :=
  let x := s.scratchOf c
  (s.setScratch c (if i = 0 then { x with ctx0 := v } else { x with ctx1 := v })).scratchWrite c (scratchCtx i)
    (scratchCtx (i + 1))

/-- Load a span-job with its query vectors. -/
def State.loadJob (s : State) (r : Req) (j : Job) (i : Nat) : State :=
  s.putCtx j.col i { JobCtx.clear with job := some (r.id, j.span), vectors := r.queries }

/-- The next planned span-job of a column that is not loaded, in the order of its plan. -/
def State.nextLoad (s : State) (c : Nat) : Option (Req × Job) :=
  s.reqs.findSome? fun r =>
    (r.jobs.find? fun j => j.col == c && j.phase == .planned && ((s.scratchOf c).ctxOf r.id j.span).isNone).map fun j => (r, j)

/-- One span-job executes while another is loaded; further ones wait in the sequencer. -/
def State.loadNext (s : State) (c : Nat) : State :=
  let x := s.scratchOf c
  match s.nextLoad c with
  | some (r, j) => if !s.ctxHeld x.ctx0 then s.loadJob r j 0 else if !s.ctxHeld x.ctx1 then s.loadJob r j 1 else s
  | none => s

/-- Dispatch one request of the stride, or defer it (R142, R143, R145, R160, R163). A relocation under way is over before
a span-job may read its slot (R147). -/
def State.dispatchReq (s : State) (r : Req) : State :=
  let k : DirKey := ⟨r.part, r.seq, r.layer⟩
  let s := s.endMoves.dirSeen k
  match s.openEntry k with
  | none =>
    let lost := match s.dir? k with | some d => d.val?.isNone | none => false
    (s.setReq r.id fun r => { r with stride := some s.ms }).failReq r.id (if lost then 0 else 3) 4 none
  | some v =>
    let range := (List.range (r.posLast / 1024 - r.posFirst / 1024 + 1)).map (r.posFirst / 1024 + ·)
    let own := range.filter fun t => decide (deExt0 v ≤ t ∧ t ≤ deExt1 v)
    let missing := own.filter fun t => s.missingIn k t && !(r.bare && (s.rekindled r).contains t)
    let r : Req := { r with
      stride := some s.ms
      snapshot := dePub v
      extFirst := deExt0 v
      extLast := deExt1 v
      missing := missing
      tailExcluded := !r.bare && decide (max r.posFirst (max (1024 * deExt0 v) (dePub v)) ≤ r.posLast ∧
        max r.posFirst (max (1024 * deExt0 v) (dePub v)) < 1024 * (deExt1 v + 1)) }
    let work := (own.filter fun t => !missing.contains t && decide (max r.posFirst (1024 * t) < r.bound)).filterMap fun t =>
      (s.jobSlots r t).head?.map fun x => (t, homeColumn x.addr)
    let placed := s.placeJobs r work []
    let late := placed.2.any fun e =>
      s.planEnd e.1 != 0 && decide (s.regF 0 Reg.AT_CFG 0 8 * s.fclkPerMs < e.2)
    let defer (s : State) : State :=
      (s.setReq r.id fun r => { r with stride := none, deferred := true }).count 0 Reg.AT_DEFER_CNT 1
    if late then defer s
    else if r.unreachable then (s.setReq r.id fun _ => r).failReq r.id 3 4 none
    else
      let r : Req := { r with jobs := placed.1 }
      let got := if r.bare then some (s, []) else s.reserveBlks r r.targets
      match got with
      | none => defer s
      | some (s', blks) =>
        let s' := (s'.setPlan placed.2).setReq r.id fun _ => { r with blks := blks }
        let s' := r.jobs.foldl (fun (s : State) (j : Job) => ((s.wake (.column j.col)).loadNext j.col).loadNext j.col) s'
        work.foldl (fun s w => s.heated r.part r.seq w.1) s'

/-- Stride dispatch at a milestone boundary (R30 event 4). -/
def State.strideDispatch (s : State) : State :=
  (s.reqs.filter fun r => r.stride.isNone && decide (r.accepted < s.ms)).foldl State.dispatchReq s

/-! Span-jobs (R146 to R156). -/

/-- A page as the span-job reads it (R76 to R78, R102). -/
def State.pageIn (s : State) (r : Req) (v : BitVec 256) (x : Slot) (t : Option Trailer) : PageIn :=
  let n := classTokens (deClass v)
  let d := headDim (deDim v)
  let w := rowBytes (deFmt v) d
  match t with
  | none => { off := x.firstPos % 1024, ks := [], vs := [], kScale := 0, vScale := 0, colSums := [], rowSums := [],
              same := false }
  | some t =>
    let rows := s.pageRows x t.coded n d w
    let ty := s.pageTally x n d
    let ks := match rows with | some r => r.1.take t.valid | none => []
    let vs := match rows with | some r => r.2.take t.valid | none => []
    { off := x.firstPos % 1024, ks := ks, vs := vs, kScale := t.kScale, vScale := t.vScale,
      colSums := (List.range d).map fun j => leAt ty (2 * j) 2,
      rowSums := (List.range vs.length).map fun i => leAt ty (2 * d + 2 * i) 2,
      same := rows.isSome && t.seq == r.seq && t.layer == r.layer && t.kv == r.kv && t.gen == deGen v % 65536 &&
        t.firstPos == x.firstPos && t.fmt == deFmt v && t.dimCode == deDim v && t.cls == deClass v }

/-- Byte ranges of storage that a span-job reads. -/
def State.jobRanges (s : State) (r : Req) (j : Job) : List (Nat × Nat) :=
  let g := s.reqGeo r
  j.pages.flatMap fun x =>
    let rs := passRanges g.1 g.2.1 g.2.2 x (s.trailer x)
    rs.1 ++ rs.2

/-- No span-job runs on the column, and none planned there comes before this one (R114, R145, R146). -/
def State.columnReady (s : State) (r : Req) (j : Job) : Bool :=
  !s.reqs.any (fun q => q.jobs.any fun x => x.col == j.col && x.phase == .running) &&
  !(s.reqs.takeWhile fun q => q.id != r.id).any (fun q => q.jobs.any fun x =>
    x.col == j.col && x.phase == .planned && decide (q.stride.getD 0 ≤ r.stride.getD 0)) &&
  !(r.jobs.takeWhile fun x => x.span != j.span).any fun x => x.col == j.col && x.phase == .planned

/-- An uncorrectable error met by a span-job ends it and its request (R156). -/
def State.jobLost (s : State) (r : Req) (j : Job) : State :=
  (s.setJob r.id j.span fun j => { j with phase := .dead }).failReq r.id 2 2 none

/-- Start a span-job: its arithmetic by R148 on the bytes that stand at the slots it was dispatched with, its latent
errors met in the tiers and in scratch (R128, R156, R458). What it forms stands in its context of scratch (R114). -/
def State.startJob (s : State) (r : Req) (j : Job) : State :=
  let ctx := ((s.scratchOf j.col).ctxOf r.id j.span).getD (if s.ctxHeld (s.scratchOf j.col).ctx0 then 1 else 0)
  let s := if ((s.scratchOf j.col).ctxOf r.id j.span).isSome then s else s.loadJob r j ctx
  let ranges := s.jobRanges r j
  let bus := s.jobUnits r j.col j.pages
  let ue := (ranges.any fun a => s.hasUE a.1 a.2) || s.scratchUE j.col (scratchCtx ctx) (scratchCtx ctx + 1024)
  let s := ranges.foldl (fun s a => (s.opens a.1 a.2).scanned a.1 a.2) s
  let s := s.scratchRead j.col (scratchCtx ctx) (scratchCtx ctx + 1024)
  let s := s.count 0 Reg.AT_SPANJOB_CNT 1
  let mt := s.meter r.part
  let s := s.setMeter r.part { mt with spanJobs := mt.spanJobs + 1 }
  let units := bus.1 + bus.2 * (if 9 ≤ r.g then 2 else 1)
  let s := if units = 0 then s else s.count 0 (Reg.FL_CHIMNEY_CNT + 4 * (j.col / 32)) units
  if ue then s.jobLost r j
  else
    let v := match s.dir? ⟨r.part, r.seq, r.layer⟩ with
      | some d => d.val?.getD 0
      | none => 0
    let pages := j.pages.map fun x => s.pageIn r v x (s.trailer x)
    let open_ (u : Nat) : Bool := decide (r.posFirst ≤ 1024 * j.span + u ∧ 1024 * j.span + u < r.bound)
    let w := spanRun (r.fmt % 8) (r.fmt / 8) pages r.queries r.scale open_
    let s := s.putCtx j.col ctx {
      job := some (r.id, j.span), vectors := r.queries, scores := w.scores, probs := w.probs, accs := w.accs
      vSums := (pages.flatMap PageIn.rowSums).map Int.ofNat
      decoded := match j.pages.getLast? with
        | some x => match s.trailer x with
          | some t => if t.coded then (match pages.getLast? with | some p => (p.ks ++ p.vs).flatten | none => []) else []
          | none => []
        | none => [] }
    let s := (s.setScratch j.col { s.scratchOf j.col with check := (pages.flatMap PageIn.colSums).map Int.ofNat }).scratchWrite
      j.col scratchCheck 32768
    (s.setJob r.id j.span fun j => { j with phase := .running, res := w.res }).loadNext j.col

/-- SPAN_JOB (R148). -/
def execSpanJob (cmd span : Nat) (s : State) : Host.Outcome State Fault Refusal :=
  .next (match s.req? cmd with
    | some r => match r.job? span with
      | some j =>
        if s.awake ∧ r.stride.isSome ∧ j.phase = .planned ∧ j.notBefore ≤ s.ms ∧ s.columnReady r j then s.startJob r j
        else s
      | none => s
    | none => s)

/-- After an overrun, the later span-jobs of the column start at the next boundary (R146). -/
def State.freeColumn (s : State) (j : Job) : State :=
  if j.overrun then
    { s with reqs := s.reqs.map fun r => { r with jobs := r.jobs.map fun x =>
        if x.col = j.col ∧ x.phase = .planned then { x with notBefore := s.ms + 1 } else x } }
  else s

/-- SPAN_JOB_OVERRUN (R35, R146): a span-job still runs at its planned end. -/
def execSpanJobOverrun (cmd span : Nat) (s : State) : Host.Outcome State Fault Refusal :=
  .next (match s.req? cmd with
    | some r => match r.job? span with
      | some j =>
        if j.phase = .running ∧ !j.overrun then
          ((s.setJob cmd span fun j => { j with overrun := true }).count 0 Reg.FT_OVERRUN_CNT 1).setRegB 0 Reg.FT_STAT 6
            true
        else s
      | none => s
    | none => s)

/-- Lay out the embers of a sealed request afresh after a span was damaged (R155, R160, R163). DESIGN CHOICE where some of
them have left, of which the spec says nothing: those still to leave are counted and indexed anew, a report-only ember
takes the place of the last when none is left, and the list stays with EMBER_INDEX 0, gone or not (log entry 95). -/
def State.relayout (s : State) (id : Nat) : State :=
  match s.req? id with
  | none => s
  | some r =>
    let s := s.dropBlks r
    let keep := r.blks.filter (·.sent)
    let ts := r.targets.filter fun t => !keep.any fun b => b.level == t.1 && b.first == t.2.1
    let ts := if ts.isEmpty then [(0xFF, 0, [])] else ts
    match s.reserveBlks r ts with
    | some (s, blks) => s.setReq id fun r => { r with blks := keep ++ blks }
    | none => s.failReq id 3 6 none

/-- A span is declared damaged: it is dropped, and in sealed emission it is missing (R155, R238). -/
def State.damageSpan (s : State) (r : Req) (j : Job) : State :=
  let s := ((s.setJob r.id j.span fun j => { j with phase := .damaged }).count 0 Reg.AT_DAMAGED_CNT 1).setRegB 0
    Reg.AT_ERR_STAT 1 true
  let s := (s.freeColumn j).dropDamaged r.part r.seq j.span
  if r.isSealed ∧ r.outcome = 8 then
    let s := s.setReq r.id fun r => { r with missing := sortNat (j.span :: r.missing) }
    if r.bare then s else s.relayout r.id
  else s

/-- A check of a span-job fails (R155): the first time it runs again, and an early request is recalled; the second time
the span is damaged. -/
def State.checkFailed (s : State) (r : Req) (j : Job) : State :=
  let s := (s.count 0 Reg.AT_TALLY_FAIL_CNT 1).setRegB 0 Reg.AT_ERR_STAT 0 true
  if j.rerun then s.damageSpan r j
  else
    let s := (s.setJob r.id j.span fun j => { j with
      phase := .planned, rerun := true, scoreOk := false, valueOk := false, weightOk := false, res := ⟨[], none⟩ })
    let s := s.freeColumn j
    if r.isSealed then s else s.failReq r.id 4 1 (some [j.span])

/-- The checks passed before a stage may end. -/
def Job.before (j : Job) : CheckStage → Bool
  | .score => !j.scoreOk
  | .value => j.scoreOk && !j.valueOk
  | .weight => j.scoreOk && j.valueOk && !j.weightOk

/-- A stage passed. -/
def Job.passed (j : Job) : CheckStage → Job
  | .score => { j with scoreOk := true }
  | .value => { j with valueOk := true }
  | .weight => { j with weightOk := true }

/-- TALLY_CHECK_END (R152, R153, R155): the check of a stage ends; `disturbed` tells that a fault of the hardware made
it fail. -/
def execTallyCheckEnd (cmd span : Nat) (stage : CheckStage) (disturbed : Bool) (s : State) :
    Host.Outcome State Fault Refusal :=
  .next (match s.req? cmd with
    | some r => match r.job? span with
      | some j =>
        if (j.phase = .running ∨ j.phase = .done) ∧ j.before stage then
          let ue := s.scratchUE j.col scratchCheck 32768
          let s := s.scratchRead j.col scratchCheck 32768
          if ue then (s.jobLost r j).freeColumn j else
          let natural := match j.res.event with
            | some (e, st) => if st = stage then some e else none
            | none => none
          if disturbed ∨ natural = some .checkFails then s.checkFailed r j
          else if natural.isSome then s
          else
            let s := s.setJob cmd span fun j => j.passed stage
            if stage = .weight ∧ j.rerun ∧ r.isSealed then
              (s.setReq cmd fun r => { r with retried := true }).count 0 Reg.AT_RETRY_PASS_CNT 1
            else s
        else s
      | none => s
    | none => s)

/-- SPAN_JOB_END (R148, R154): the span partial passes to the merge engine, or a saturated tally or a value that is not
finite ends the request. -/
def execSpanJobEnd (cmd span : Nat) (s : State) : Host.Outcome State Fault Refusal :=
  .next (match s.req? cmd with
    | some r => match r.job? span with
      | some j =>
        if j.phase ≠ .running then s
        else
          let ctx := ((s.scratchOf j.col).ctxOf cmd span).getD 0
          let ue := s.scratchUE j.col (scratchCtx ctx) (scratchCtx (ctx + 1))
          let s := s.scratchRead j.col (scratchCtx ctx) (scratchCtx (ctx + 1))
          if ue then (s.jobLost r j).freeColumn j else
          match j.res.event with
          | some (.saturated, _) =>
            let s := (s.setJob cmd span fun j => { j with phase := .dead }).freeColumn j
            (s.setRegB 0 Reg.AT_ERR_STAT 2 true).failReq cmd 5 6 none
          | some (.nonfinite, _) =>
            let s := (s.setJob cmd span fun j => { j with phase := .dead }).freeColumn j
            (s.setRegB 0 Reg.AT_ERR_STAT 3 true).failReq cmd 5 6 none
          | _ =>
            if j.scoreOk ∨ !r.isSealed then (s.setJob cmd span fun j => { j with phase := .done }).freeColumn j
            else s
      | none => s
    | none => s)

/-! Emission (R158 to R165, R176). -/

/-- The job of a span stands, and in sealed emission all its checks have passed (R164). -/
def Req.spanReady (r : Req) (t : Nat) : Bool :=
  match r.job? t with
  | some j => j.phase == .done && (!r.isSealed || (j.scoreOk && j.valueOk && j.weightOk))
  | none => false

/-- Insert a span by its key of the node's own merge order (R159). -/
def insertKey (key : Nat → Nat) (x : Nat) : List Nat → List Nat
  | [] => [x]
  | y :: t => if key x ≤ key y then x :: y :: t else y :: insertKey key x t

/-- The value of a block from the partials of its spans (R157, R159). -/
def Req.blockValue (r : Req) (b : Blk) (draw : Nat) : MOut :=
  let vals := (r.jobs.filter fun j => b.spans.contains j.span).map fun j => (⟨0, j.span, j.res.heads⟩ : TreeVal)
  if b.level = 0xFF then .leaf none
  else if b.level ≤ 12 then treeValue vals b.level (b.first / 2 ^ b.level)
  else
    ((b.spans.foldr (insertKey (Config.mergeKey draw)) []).map fun t => MOut.leaf (valueAt vals 0 t)).foldl MOut.join
      (.leaf none)

/-- Place of a block in ascending BLOCK_FIRST order among the embers of the request (R162). -/
def Req.indexOf (r : Req) (b : Blk) : Nat :=
  (r.blks.filter fun x => decide (x.first < b.first ∨ (x.first = b.first ∧ x.level < b.level))).length

/-- The block carries the missing list: that of EMBER_INDEX 0 (R163). -/
def Req.carries (r : Req) (b : Blk) : Bool := r.indexOf b == 0

/-- The milestone of departure of an ember whose last byte has not left. -/
def notLeft : Nat := 2 ^ 64

/-- Send the ember of a block with its value (R162, R177). -/
def State.emit1 (s : State) (r : Req) (i : Nat) (b : Blk) (hs : List Head) : State :=
  let miss := if r.carries b then maximalBlocks r.missing else []
  let flags := (if r.repro then 1 else 0) + (if r.isSealed then 2 else 0) + (if r.tailExcluded then 4 else 0)
  let body := bodyBytes b.first b.level r.fmt flags r.snapshot r.blks.length (r.indexOf b) r.tag.toNat hs miss
  let dest := match r.conn with
    | some k => (s.conn k).peerNode
    | none => s.nodeId
  let hdr := ehMake (s.emberIdOf r b.num) (crc64 body) dest (s.tenant r.part) b.slot b.units
    body.length (if miss.isEmpty then 0 else 2) 1 (if r.isSealed then 3 else 0) 0
  let e : Sent := { id := ehId hdr, req := r.id, part := r.part, conn := r.conn, hdr := pairOf hdr, spans := b.spans,
                    early := !r.isSealed,
                    msg := match r.conn with | some k => (s.conn k).nextMsg2 | none => 0
                    left := if r.conn.isSome then notLeft else s.ms, verdict := none }
  let s : State := { (s.setReq r.id fun r => { r with
      emitted := r.emitted + 1
      blks := r.blks.mapIdx fun k x => if k = i then { x with sent := true } else x }) with sent := s.sent ++ [e] }
  match r.conn with
  | some k => s.sendEmber k (b.slot * 256) e.id (pairBytes hdr ++ body)
  | none => s.emberIn none (s.tenant r.part) hdr (~~~hdr) body 0

/-- EMBER_EMIT (R164): block `block` of the request, once its spans are ready. -/
def execEmberEmit (cmd block mergeFails : Nat) (s : State) : Host.Outcome State Fault Refusal :=
  .next (match s.req? cmd with
    | some r => match r.blks[block]? with
      | some b =>
        let lost : Bool := match r.conn with
          | some k => (s.conn k).st != .opened
          | none => false
        if b.sent ∨ r.outcome ≠ 8 ∨ r.stride.isNone ∨ !b.spans.all r.spanReady then s
        else if lost then s.failReq cmd 3 6 none
        else
          let v := r.blockValue b s.draws
          let s := if b.level = 0xFE then s.drawn else s
          let e := v.settle mergeFails
          let s := s.mergeCounted e
          if e.2 ≠ 0 then s.failReq cmd (if e.2 = 1 then 3 else 5) 6 none
          else s.emit1 r block b (v.val.getD [])
      | none => s
    | none => s)

/-- SEAL_EMBER (R187, R188): every check behind an early ember has passed, before its deadline. -/
def execSealEmber (ember : Nat) (s : State) : Host.Outcome State Fault Refusal :=
  .next (match s.sent.find? fun e => e.id == ember && e.early && e.verdict.isNone with
    | some e => match s.req? e.req with
      | some r =>
        let ok := e.spans.all fun t => match r.job? t with
          | some j => j.phase == .done && !j.rerun && j.scoreOk && j.valueOk && j.weightOk
          | none => false
        if ok ∧ s.ms < e.left + 2 then
          if e.hdr.ok then s.sendVerdict e 1 0 else s.failReq e.req 0 6 none
        else s
      | none => s
    | none => s)

/-- The seal deadline of an ember has arrived, and no verdict has been sent. -/
def State.overdue (s : State) (e : Sent) : Bool := e.early && e.verdict.isNone && decide (e.left + 2 ≤ s.ms)

/-- The seal deadline of an ember has arrived with a check unfinished (R188): it, and every ember of the request with the
same fate, is late; the others are recalled with it (R187). -/
def State.lateSeal (s : State) (e : Sent) : State :=
  if s.overdue e then
    let s := (s.sent.filter fun x => x.req == e.req && s.overdue x).foldl (fun (s : State) (x : Sent) =>
      ((s.count 0 Reg.MG_LATE_SEAL_CNT 1).setRegB 0 Reg.MG_ERR_STAT 3 true).sendVerdict x 2 5) s
    s.failReq e.req 4 6 none
  else s

/-- SEAL_DEADLINE (R188). -/
def execSealDeadline (ember : Nat) (s : State) : Host.Outcome State Fault Refusal :=
  .next (match s.sent.find? fun e => e.id == ember && e.early && e.verdict.isNone with
    | some e => s.lateSeal e
    | none => s)

/-- Event 8 of R30: every seal deadline that has arrived. Each ember is looked up anew, since the first late one of a
request recalls the others. -/
def State.sealDeadlines (s : State) : State :=
  (s.sent.map Sent.id).foldl (fun s i => match s.sent.find? fun e => e.id == i && e.verdict.isNone with
    | some e => s.lateSeal e
    | none => s) s

/-! Completion (R166, R167). -/

/-- Status of an outcome of R166; 0 stands for a pair that is not valid (R65). -/
def attendStatus (n : Nat) : Nat := [0x0E, 0x09, 0x08, 0x0A, 0x07, 0x0C, 0x02, 0x01, 0x00].getD n 0

/-- Outcome of a request with its missing spans and its tail counted in. -/
def Req.finalOutcome (r : Req) : Nat :=
  if r.outcome < 6 then r.outcome else if !r.missing.isEmpty then 6 else if r.tailExcluded then 7 else 8

/-- An ember has still to leave on its connection. -/
def State.toLeave (s : State) (e : Sent) : Bool :=
  e.left == notLeft && match e.conn with
    | some k => (s.conn k).tx.any fun m => m.owner == .ember e.id
    | none => false

/-- Nothing of a span-job is left to do: it stands with all its checks passed, or ended without a partial (R155). -/
def Job.over (j : Job) : Bool :=
  j.phase == .damaged || j.phase == .dead || (j.phase == .done && j.scoreOk && j.valueOk && j.weightOk)

/-- The request owes nothing more (R166): every span-job is over, with its re-run and its checks, every ember has left, with
its verdict in early emission, and, unless the request failed, none is still to be sent. -/
def State.reqDone (s : State) (r : Req) : Bool :=
  r.stride.isSome && r.jobs.all Job.over && (decide (r.outcome < 6) || r.blks.all (·.sent)) &&
  !s.sent.any fun e => e.req == r.id && ((e.early && e.verdict.isNone) || s.toLeave e)

/-- Result word of an ATTEND (R167). -/
def Req.result (r : Req) : Nat :=
  (if r.tailExcluded then 2 ^ 31 else 0) + (if r.missing.isEmpty then 0 else 2 ^ 30) + (if r.retried then 2 ^ 29 else 0) +
  (if r.deferred then 2 ^ 28 else 0) + min r.emitted 4096

/-- ATTEND_COMPLETE (R166). -/
def execAttendComplete (cmd : Nat) (s : State) : Host.Outcome State Fault Refusal :=
  .next (match s.req? cmd, s.cmd? cmd with
    | some r, some c =>
      if r.kindle.isNone ∧ c.phase = .running ∧ s.reqDone r then
        let s := s.dropBlks r
        let s : State := { s with sent := s.sent.filter fun e => e.req != cmd }
        s.endAttend c (attendStatus r.finalOutcome) r.result
      else s
    | _, _ => s)

end Sys2Proof.Machine
end

