-- ==== Sys2Proof/Machine/Shaping.lean ====
section
/-!
DEFINITION. Shapers, accounting modes and slot tables (R316 to R331).
-/

namespace Sys2Proof.Machine

/-! Shaper entries (R316). -/

def shTokens (v : BitVec 128) : Int := (BitVec.ofNat 32 (getF v 96 32)).toInt
def shRate (v : BitVec 128) : Nat := getF v 76 20
def shBurst (v : BitVec 128) : Nat := getF v 52 24
def shPktRate (v : BitVec 128) : Nat := getF v 39 13
def shPktBurst (v : BitVec 128) : Nat := getF v 23 16
def shOverhead (v : BitVec 128) : Nat := getF v 15 8
def shEmpty (v : BitVec 128) : Bool := getB v 14
def shEn (v : BitVec 128) : Bool := getB v 13

/-- The entry at reset: BURST 1, PKT_BURST 1, OVERHEAD 24, all else 0 (R333). -/
def shReset : BitVec 128 := setF (setF (setF (0 : BitVec 128) 52 24 1) 23 16 1) 15 8 24

/-- A shaper's pair. -/
def State.shaper (s : State) (p l : Nat) : Pair 128 := tget (fun _ => pairOf shReset) s.shapers (p * 16 + l)

/-- Store a shaper's pair. -/
def State.setShaper (s : State) (p l : Nat) (v : Pair 128) : State :=
  { s with shapers := tput (fun _ => pairOf shReset) s.shapers (p * 16 + l) v }

/-- An entry with its TOKENS replaced, saturating at −2³¹ (R317). -/
def shWith (v : BitVec 128) (t : Int) : BitVec 128 := setF v 96 32 (wordOfInt (max (-2147483648) t)).toNat

/-- The accounting mode that the life state asks for (R320): true = packets. -/
def State.acctWanted (s : State) : Bool :=
  s.life == .boot || s.life == .recovery ||
  (s.life == .service && match s.probe with | some p => p.session | none => false)

/-- Full and refill of an entry (R320). -/
def State.shFull (s : State) (v : BitVec 128) : Nat := if s.acctPackets then shPktBurst v else shBurst v
def State.shRefill (s : State) (v : BitVec 128) : Nat := if s.acctPackets then shPktRate v else shRate v

/-- Charge a packet of `bytes` frame bytes to a shaper (R317, R320). -/
def State.charge (s : State) (p l bytes : Nat) : State :=
  let e := s.shaper p l
  if e.ok then
    let cost : Nat := if s.acctPackets then 1 else bytes + shOverhead e.val
    s.setShaper p l (pairOf (shWith e.val (shTokens e.val - cost)))
  else s

/-- A held packet may start (R318, R322). -/
def State.tokensOk (s : State) (p l : Nat) : Bool :=
  let e := s.shaper p l
  e.ok && (!shEn e.val || decide (0 < shTokens e.val))

/-- The partition has shaper tokens on a port (R324); a pair that is not valid gives it none (R322). -/
def State.hasTokens (s : State) (p l : Nat) : Bool :=
  let e := s.shaper p l
  e.ok && (!shEn e.val || s.shRefill e.val != 0)

/-! Slot tables (R328). -/

/-- Entry `i` of the table whose registers start at `base`. -/
def State.slotEntry (s : State) (base i : Nat) : Nat := s.regF 0 (base + i / 4 * 4) (8 * (i % 4)) 8

/-- FRAME of the array table and of the port tables. -/
def State.arrayFrame (s : State) : Nat := s.regF 0 Reg.SHP_SLOT_FRAME 0 7
def State.portFrame (s : State) : Nat := s.regF 0 Reg.SHP_SLOT_FRAME 8 7

/-- Owner in force of the array and of a port at milestone `n`; 0x7F = IDLE. -/
def State.arrayOwner (s : State) (n : Nat) : Nat := s.slotEntry Reg.SHP_SLOT_ARRAY (n % s.arrayFrame)
def State.portOwner (s : State) (l n : Nat) : Nat := s.slotEntry (Reg.SHP_SLOT_PORT + 0x40 * l) (n % s.portFrame)

/-- The partition owns an entry in force of the array table (R329). -/
def State.ownsArraySlot (s : State) (p : Nat) : Bool :=
  (List.range s.arrayFrame).any fun i => s.slotEntry Reg.SHP_SLOT_ARRAY i == p

/-- The port is SLOTTED (R325). -/
def State.slotted (s : State) (l : Nat) : Bool := s.regB 0 Reg.SHP_PORT_MODE l

/-- Milestones from `n` until the port's owner changes; a whole frame when it never does. -/
def State.slotLeft (s : State) (l n : Nat) : Nat :=
  match (List.range 64).find? fun k => s.portOwner l (n + k + 1) != s.portOwner l n with
  | some k => k + 1
  | none => 64

/-- A frame of `bytes` may start now on a port for a partition (R325, R326): on a SLOTTED port in its own slot, with its
last bit and the minimum gap before the next boundary. -/
def State.slotOk (s : State) (p l bytes : Nat) : Bool :=
  if s.slotted l then
    let rate := if s.portMode (l / 2) = 0 then 200 else 100
    s.portOwner l s.ms == p && decide (s.ns + ceilDiv (bytes + 24) rate ≤ 2048 * s.slotLeft l s.ms)
  else true

/-! Changing a shaper (R322, R323). -/

/-- The entry that SHP_W0–3 hold, without its TOKENS. -/
def State.shWords (s : State) : BitVec 128 :=
  BitVec.ofNat 128 ((s.reg 0 Reg.SHP_W).toNat + (s.reg 0 (Reg.SHP_W + 4)).toNat * 2 ^ 32 +
    (s.reg 0 (Reg.SHP_W + 8)).toNat * 2 ^ 64)

/-- SHP_CTL.WRITE: accepted, it waits for the next boundary. -/
def State.shaperWrite (s : State) : State :=
  let v := s.shWords
  let p := s.regF 0 Reg.SHP_SEL 8 6
  let l := s.regF 0 Reg.SHP_SEL 0 4
  if shBurst v = 0 ∨ shPktBurst v = 0 ∨ getF v 0 13 ≠ 0 ∨ !s.lportExists l then s.setRegB 0 Reg.SHP_ERR_STAT 0 true
  else { s with shChanges := (s.shChanges.filter fun c => !(c.part == p && c.lport == l)) ++ [⟨p, l, v⟩] }

/-- SHAPER_WRITE. -/
def execShaperWrite (s : State) : Host.Outcome State Fault Refusal :=
  .next (if s.pf0 then s.shaperWrite else s)

/-- Load a value of `n` words into consecutive registers. -/
def State.loadWords (s : State) (fn off n v : Nat) : State :=
  (List.range n).foldl (fun s i => s.setReg fn (off + 4 * i) (BitVec.ofNat 32 (v / 2 ^ (32 * i)))) s

/-- SHP_CTL.READ: the pair is checked first (R65, R322). -/
def State.shaperRead (s : State) : State :=
  let p := s.regF 0 Reg.SHP_SEL 8 6
  let l := s.regF 0 Reg.SHP_SEL 0 4
  let e := s.shaper p l
  if e.ok then s.loadWords 0 Reg.SHP_W 4 e.val.toNat
  else ((s.cplFault (.shaper p l)).setRegB 0 Reg.SHP_ERR_STAT 1 true).loadWords 0 Reg.SHP_W 4 (2 ^ 128 - 1)

/-- SHAPER_READ. -/
def execShaperRead (s : State) : Host.Outcome State Fault Refusal :=
  .next (if s.pf0 then s.shaperRead else s)

/-- An entry as a change leaves it: TOKENS full or empty (R323). -/
def State.shChanged (s : State) (v : BitVec 128) : BitVec 128 := shWith v (if shEmpty v then 0 else s.shFull v)

/-- Event 3 of R30: changes, then the refill (R321, R323). -/
def State.shaperTick (s : State) : State :=
  let mode := s.acctWanted
  let s := if mode = s.acctPackets then s
    else
      let s : State := { s with acctPackets := mode }
      (List.range 1024).foldl (fun s k =>
        let e := s.shaper (k / 16) (k % 16)
        if e.ok then s.setShaper (k / 16) (k % 16) (pairOf (s.shChanged e.val)) else s) s
  let s := s.shChanges.foldl (fun (s : State) (c : ShChange) =>
    { s with suspects := s.suspects.filter fun (x : Suspect) => x.what != RecRef.shaper c.part c.lport }.setShaper c.part c.lport
      (pairOf (s.shChanged c.value))) { s with shChanges := [] }
  (s.shapers.map fun e => e.1).foldl (fun s k =>
    let e := s.shaper (k / 16) (k % 16)
    if e.ok && shEn e.val then
      s.setShaper (k / 16) (k % 16)
        (pairOf (shWith e.val (min (s.shFull e.val : Int) (shTokens e.val + s.shRefill e.val))))
    else s) s

end Sys2Proof.Machine
end

