-- ==== Sys2Proof/Machine/Charter.lean ====
section
/-!
DEFINITION. Fields of the charter in force (R337).
-/

namespace Sys2Proof.Machine

/-- The `n`-byte little-endian field at byte `i` of a charter. -/
def chField (c : List Byte) (i n : Nat) : Nat := leAt c i n

def chParts (c : List Byte) : Nat := chField c 2 1
def chSigners (c : List Byte) : Nat := chField c 3 1
def chSerial (c : List Byte) : Nat := chField c 8 8
def chDevice (c : List Byte) : List Byte := sliceB c 32 32
def chOwner (c : List Byte) : List Byte := sliceB c 64 32

/-- The signer list. -/
def chSignerKeys (c : List Byte) : List (List Byte) := (List.range (chSigners c)).map fun i => sliceB c (96 + 32 * i) 32

/-- Bytes before the signature. -/
def chBody (c : List Byte) : Nat := 1440 + 64 * chParts c

/-- The partition entries: each with its number. -/
def chEntries (c : List Byte) : List (BitVec 512) :=
  (List.range (chParts c)).map fun i => BitVec.ofNat 512 (leAt c (1440 + 64 * i) 64)

/-- The charter in force, empty before boot has read one. -/
def State.chart (s : State) : List Byte := s.charter.getD []

end Sys2Proof.Machine
end

