-- ==== Sys2Proof/Machine/Dense.lean ====
section
/-!
DEFINITION. The dense array and the element steps (R205, R206, R209), model images (R211, R213), and the quantisation
of queries and pages of a KINDLE (R221, R222).
-/

namespace Sys2Proof.Machine

/-! Weight formats (R205). -/

/-- Element format of a WFMT code. -/
def wFmt (c : Nat) : EFmt := [fmtE2M1, fmtE2M3, fmtE3M2, fmtE4M3, fmtE5M2].getD c fmtBF16

/-- Width of a weight tile. -/
def wTile (c : Nat) : Nat := [1536, 768, 768, 768, 768].getD c 384

/-- Row bytes for `k` elements. -/
def wRow (c k : Nat) : Nat :=
  if c = 0 then k / 2 + k / 32 else if c = 1 ∨ c = 2 then 3 * k / 4 + k / 32 else if c = 5 then 2 * k else k + k / 32

/-- Element code `j` of a row. -/
def wCode (c : Nat) (row : List Byte) (j : Nat) : Nat :=
  if c = 0 then (byteAt row (j / 2) / (if j % 2 = 0 then 1 else 16)) % 16
  else if c = 1 ∨ c = 2 then (leAt row (3 * (j / 4)) 3 / 64 ^ (j % 4)) % 64
  else if c = 5 then leAt row (2 * j) 2 else byteAt row j

/-- A row of operands: element values without scale, and block scales. -/
structure QRow where
  elems : List Sv
  scales : List Nat
  deriving DecidableEq, Repr

/-- Read a row of `k` elements; none when an element is not finite or a scale is 0xFF (R206). -/
def wRead (c k : Nat) (row : List Byte) : Option QRow :=
  let codes := (List.range k).map (wCode c row)
  let scales := if c = 5 then [] else (List.range (k / 32)).map fun b => byteAt row (wRow c k - k / 32 + b)
  if codes.all (wFmt c).finite && scales.all (· != 0xFF) then some ⟨codes.map (wFmt c).value, scales⟩ else none

/-- A row of element values with their block scales: exact in FP32 (R209 embed). -/
def QRow.words (q : QRow) : List Word :=
  q.elems.mapIdx fun j v => (v.scale ((q.scales.getD (j / 32) 127 : Int) - 127)).word

/-- Blocks `[b0, b0 + n)` of the chain of R206 for one output, from `c`. -/
def arrayDot (x w : QRow) (b0 n : Nat) (c : Word) : Word :=
  (List.range n).foldl (fun acc i =>
    let b := b0 + i
    let p := Dy.sum (List.zipWith (fun u v : Sv => Dy.mul u.dy v.dy) ((x.elems.drop (32 * b)).take 32)
      ((w.elems.drop (32 * b)).take 32))
    fadd acc (froundDy (Dy.mul p (Dy.pow2 ((x.scales.getD b 127 : Int) + (w.scales.getD b 127 : Int) - 254))))) c

/-! Element steps (R209). -/

/-- Magnitude and exponent of a finite FP32 word. -/
def fmag (w : Word) : Nat × Int := match fx w with | .fin _ m e => (m, e) | _ => (0, 0)

/-- The largest magnitude of a list of finite words. -/
def fmaxMag (ws : List Word) : Word := ws.foldl (fun a w => if getF a 0 31 < getF w 0 31 then w &&& 0x7FFFFFFF#32 else a) 0

/-- An element of `w / 2 ^ k`. -/
def encodeAt (f : EFmt) (w : Word) (k : Int) : Nat := f.encode (getB w 31) (fmag w).1 ((fmag w).2 - k)

/-- A BF16 code by plain rounding; none when it leaves the finite range. -/
def bf16Of (w : Word) : Option Nat :=
  let c := roundMag 7 (-133) (fmag w).1 (fmag w).2
  if c ≤ 0x7F7F then some ((if getB w 31 then 0x8000 else 0) + c) else none

/-- The E8M0 scale of a block (R209). -/
def blockScale (f : EFmt) (blk : List Word) : Nat :=
  let a := fmag (fmaxMag blk)
  if a.1 = 0 then 0 else (clampInt 0 254 ((Nat.log2 a.1 : Int) + a.2 - f.emax + 127)).toNat

/-- Cut a list of words into blocks of 32. -/
def blocks32 (ws : List Word) : List (List Word) := (List.range (ws.length / 32)).map fun b => (ws.drop (32 * b)).take 32

/-- Element codes and block scales of a row (R209 quantise); none when a value is not finite. -/
def quantCodes (c : Nat) (ws : List Word) : Option (List Nat × List Nat) :=
  if !ws.all ffinite then none
  else if c = 5 then
    let cs := ws.map bf16Of
    if cs.all Option.isSome then some (cs.map (·.getD 0), []) else none
  else
    let f := wFmt c
    let bs := (blocks32 ws).map fun b => (blockScale f b, b)
    some (bs.flatMap fun b => b.2.map fun w => encodeAt f w ((b.1 : Int) - 127), bs.map (·.1))

/-- A row quantised for the array. -/
def quantise (c : Nat) (ws : List Word) : Option QRow :=
  (quantCodes c ws).map fun q => ⟨q.1.map (wFmt c).value, q.2⟩

/-- Halvings of the pairwise reduction of `n` values. -/
def log2Up (n : Nat) : Nat := if n ≤ 1 then 0 else Nat.log2 (n - 1) + 1

/-- tree_sum: padded with +0 to a power of two. -/
def treeSumPad (ws : List Word) : Word :=
  let k := log2Up ws.length
  treeSum k (ws ++ List.replicate (2 ^ k - ws.length) 0)

/-- FP32 one. -/
def fone : Word := 0x3F800000#32

/-- rmsnorm. -/
def rmsnorm (eps : Word) (x g : List Word) : List Word :=
  let s := treeSumPad (x.map fun v => fmul v v)
  let r := fdiv fone (fsqrt (fadd (fdiv s (fround false x.length 0)) eps))
  List.zipWith (fun v w => fmul (fmul v r) w) x g

/-- rope of one head vector, with the COARSE and FINE pairs of its position. -/
def rope (d : Nat) (coarse fine : List (Word × Word)) (v : List Word) : List Word :=
  let h := d / 2
  let cs := List.zipWith (fun p q : Word × Word =>
    (fsub (fmul p.1 q.1) (fmul p.2 q.2), fadd (fmul p.2 q.1) (fmul p.1 q.2))) coarse fine
  let lo := List.zipWith (fun (c : Word × Word) (ab : Word × Word) => fsub (fmul ab.1 c.1) (fmul ab.2 c.2)) cs
    (List.zip (v.take h) (v.drop h))
  let hi := List.zipWith (fun (c : Word × Word) (ab : Word × Word) => fadd (fmul ab.1 c.2) (fmul ab.2 c.1)) cs
    (List.zip (v.take h) (v.drop h))
  lo ++ hi

/-- LOG2E. -/
def log2e : Word := 0x3FB8AA3B#32

/-- gate. -/
def gate (g u : Word) : Word :=
  if getB g 31 ∨ getF g 0 31 = 0 then
    let e := exp2Fixed (fmul g log2e)
    fmul (fdiv (fmul g e) (fadd fone e)) u
  else
    let e := exp2Fixed (fneg (fmul g log2e))
    fmul (fdiv g (fadd fone e)) u

/-! Model images (R211, R213). -/

def imWfmt (h : List Byte) : Nat := leAt h 2 1
def imKvfmt (h : List Byte) : Nat := leAt h 3 1
def imLayers (h : List Byte) : Nat := leAt h 4 2
def imQHeads (h : List Byte) : Nat := leAt h 6 2
def imKvHeads (h : List Byte) : Nat := leAt h 8 2
def imFlags (h : List Byte) : Nat := leAt h 10 1
def imHidden (h : List Byte) : Nat := leAt h 12 4
def imFfn (h : List Byte) : Nat := leAt h 16 4
def imVocab (h : List Byte) : Nat := leAt h 20 4
def imEps (h : List Byte) : Word := BitVec.ofNat 32 (leAt h 24 4)
def imDevices (h : List Byte) : Nat := leAt h 28 4
def imId (h : List Byte) : List Byte := sliceB h 32 16
def imPayLen (h : List Byte) : Nat := leAt h 48 8
def imPlainLen (h : List Byte) : Nat := leAt h 56 8
def imEphemeral (h : List Byte) : List Byte := sliceB h 64 32
def imSigner (h : List Byte) : List Byte := sliceB h 96 32

/-- Head dimension of an image. -/
def imDim (h : List Byte) : Nat := headDim (imKvfmt h / 8 % 4)

/-- Query heads per KV head. -/
def imGroup (h : List Byte) : Nat := imQHeads h / imKvHeads h

/-- Bytes of the tensors, in order (R213). -/
def tensorBytes (h : List Byte) : List Nat :=
  let c := imWfmt h
  let d := imDim h
  let n := imHidden h
  let q := imQHeads h * d
  let kv := imKvHeads h * d
  [imVocab h * wRow c n, 4096 * (d / 2) * 8, 1024 * (d / 2) * 8] ++
  (List.range (imLayers h)).flatMap fun _ =>
    [4 * n, q * wRow c n, kv * wRow c n, kv * wRow c n, n * wRow c q, 4 * n, imFfn h * wRow c n, imFfn h * wRow c n,
     n * wRow c (imFfn h)]

/-- Offset of tensor `i` in the decoded payload. -/
def tensorOff (h : List Byte) (i : Nat) : Nat := (((tensorBytes h).take i).map fun b => ceilDiv b 256 * 256).sum

/-- End of the last tensor. -/
def tensorEnd (h : List Byte) : Nat :=
  let n := (tensorBytes h).length
  tensorOff h (n - 1) + (tensorBytes h).getD (n - 1) 0

/-- Index of tensor `t` of a layer: 0 ATTN_NORM, 1 WQ, 2 WK, 3 WV, 4 WO, 5 FFN_NORM, 6 WG, 7 WU, 8 WD. -/
def layerTensor (layer t : Nat) : Nat := 3 + 9 * layer + t

/-- Check 4 of R214. -/
def imageShapeOk (h : List Byte) : Bool :=
  leAt h 0 1 == 0xC7 && leAt h 1 1 == 1 && decide (imWfmt h ≤ 5 ∧ imKvfmt h % 8 < 4 ∧ imKvfmt h / 8 < 3 ∧
    1 ≤ imLayers h ∧ imLayers h ≤ 256 ∧ 1 ≤ imKvHeads h ∧ imKvHeads h ≤ 255 ∧
    imQHeads h % imKvHeads h = 0 ∧ 1 ≤ imGroup h ∧ imGroup h ≤ 16 ∧ imFlags h / 2 = 1 ∧
    imHidden h ≠ 0 ∧ imHidden h % 32 = 0 ∧ imHidden h ≤ 65536 ∧
    imFfn h ≠ 0 ∧ imFfn h % 32 = 0 ∧ imFfn h ≤ 262144 ∧ 1 ≤ imVocab h ∧ imVocab h ≤ 16777216 ∧
    1 ≤ imDevices h ∧ imDevices h ≤ 256) &&
  ffinite (imEps h) && !getB (imEps h) 31 && getF (imEps h) 0 31 != 0 && zerosAt h 11 1 && zerosAt h 140 4 &&
  zerosAt h 352 96 && (imFlags h % 2 == 1 || (zerosAt h 224 128 && imPayLen h == imPlainLen h)) && imPlainLen h == tensorEnd h

/-- Bytes before the signature, and where the ciphertext starts. -/
def imBody (h : List Byte) : Nat := 448 + 80 * imDevices h
def imCipherAt (h : List Byte) : Nat := ceilDiv (imBody h + 64) 256 * 256

/-- The content key of the device with private key `priv` and identity `dev` (R212): none when it is not listed or the
unwrap fails. -/
def unwrapKey (img : List Byte) (priv dev : List Byte) : Option (List Byte) :=
  match ((List.range (imDevices img)).map fun i => sliceB img (448 + 80 * i) 80).find? fun e => sliceB e 0 32 == dev with
  | none => none
  | some e =>
    let shared := Config.x25519 priv (imEphemeral img)
    if shared.all (· == 0) then none
    else
      let wrap := (Config.sha512 (shared ++ imEphemeral img ++ dev ++ imId img)).take 32
      Config.gcmOpen wrap (List.replicate 12 0) (imId img) (sliceB e 32 32) (sliceB e 64 16)

/-- The decoded payload (R212, R214 check 8): none when the hash, the tag or the stream is refused. -/
def openPayload (img key : List Byte) : Option (List Byte) :=
  let ct := sliceB img (imCipherAt img) (imPayLen img)
  if Config.sha512 ct ≠ sliceB img 160 64 then none
  else match Config.gcmOpen key (sliceB img 128 12) (sliceB img 0 448) ct (sliceB img 144 16) with
    | none => none
    | some plain =>
      let out := if imFlags img % 2 = 1 then
          if leAt plain 1 1 = 2 then cinderDecode ((sliceB img 224 128).flatMap fun b => [b.toNat % 16, b.toNat / 16]) plain
          else none
        else some plain
      match out with
      | some b => if b.length = imPlainLen img then some b else none
      | none => none

/-! Quantising queries and pages (R221, R222). -/

/-- The smallest `k` with `w ≤ 7 * 2 ^ (k + s)`, for `w` not zero. -/
def ceilExp7 (w : Word) (s : Int) : Int :=
  let a := fmag w
  let u := ((List.range 64).find? fun u => decide (8 * a.1 ≤ 7 * 2 ^ u)).getD 0
  (u : Int) - 3 + a.2 - s

/-- `a` of R221 for a group: 0 unless the pages are FP8; a group of zeros takes 0, and its scores are 0 whatever it
is. -/
def queryExp (fmt : Nat) (qs : List (List Word)) : Int :=
  let w := fmaxMag qs.flatten
  if 2 ≤ fmt ∨ getF w 0 31 = 0 then 0 else ceilExp7 w 6

/-- SCALE of R221. -/
def queryScale (dimCode : Nat) (a : Int) : Word :=
  let c : Word := [0x3E38AA3B#32, 0x3E0293EE#32].getD dimCode 0x3DB8AA3B#32
  fround false (fmag c).1 ((fmag c).2 + a)

/-- Bytes of element codes of a KV FORMAT with their block scales. -/
def rowPack (fmt : Nat) (codes scales : List Nat) : List Byte :=
  if fmt = 2 then
    (List.range (codes.length / 2)).map (fun i => BitVec.ofNat 8 (codes.getD (2 * i) 0 + 16 * codes.getD (2 * i + 1) 0)) ++
    scales.map (BitVec.ofNat 8)
  else if fmt = 3 then codes.flatMap (leBytes 2)
  else codes.map (BitVec.ofNat 8)

/-- A row of values over `2 ^ k` in a KV FORMAT; none when a value is not finite. -/
def rowEncode (fmt : Nat) (k : Int) (ws : List Word) : Option (List Byte) :=
  if !ws.all ffinite then none
  else if fmt = 2 then (quantCodes 0 ws).map fun q => rowPack 2 q.1 q.2
  else if fmt = 3 then (quantCodes 5 ws).map fun q => rowPack 3 q.1 []
  else some (rowPack fmt (ws.map fun w => encodeAt (kvFmt fmt) w k) [])

/-- Exponent of the page scale of R222. -/
def pageExp (fmt : Nat) (rows : List (List Word)) : Int :=
  let w := fmaxMag rows.flatten
  if 2 ≤ fmt ∨ getF w 0 31 = 0 then 0 else max (-126) (ceilExp7 w (if fmt = 0 then 6 else 13))

/-- The page scale itself. -/
def pageScale (k : Int) : Word := fround false 1 k

end Sys2Proof.Machine
end

