-- ==== Sys2Proof/Machine/Kindle.lean ====
section
/-!
DEFINITION. The KINDLE engine: acceptance, the procedure layer by layer, its internal requests, page writing,
publication, failures (R207, R208, R216 to R226, R244, R459), and CLOSE, which ends it (R84, R88).
-/

namespace Sys2Proof.Machine

/-! The descriptor (R216). -/

def kdImage (d : BitVec 512) : Nat := dF d 18 1
def kdSpans (d : BitVec 512) : Nat := dF d 19 1
def kdFirst (d : BitVec 512) : Nat := dF d 20 2
def kdKlg (d : BitVec 512) : Nat := dF d 22 2
def kdSeq (d : BitVec 512) : Nat := dF d 24 8
def kdOff (d : BitVec 512) : Nat := dF d 32 8
def kdCtx (d : BitVec 512) : Nat := dF d 40 2
def kdCtxCount (d : BitVec 512) : Nat := dF d 42 2
def kdWork (d : BitVec 512) : Nat := dF d 44 2
def kdTag (d : BitVec 512) : Nat := dF d 48 8 / 2 ^ 20

/-- The bound image of a slot. -/
def State.image? (s : State) (p slot : Nat) : Option Image := s.images.find? fun m => m.part == p && m.slot == slot

/-- Show the bound slots of a partition (R227). -/
def State.showImages (s : State) (p : Nat) : State :=
  s.setReg 0 (Reg.KN_IMG + 4 * p) (BitVec.ofNat 32 (((List.range 4).filter fun i => (s.image? p i).isSome).map (2 ^ ·)).sum)

/-- A context entry (R217): node, SPAN_LO, SPAN_HI. -/
def ctxEntry (bs : List Byte) (i : Nat) : Nat × Nat × Nat :=
  (leAt bs (8 * i) 2, leAt bs (8 * i + 2) 2 % 4096, leAt bs (8 * i + 4) 2 % 4096)

/-- The context map is well formed. -/
def ctxOk (bs : List Byte) (n : Nat) : Bool :=
  (List.range n).all fun i =>
    decide (leAt bs (8 * i + 2) 2 < 4096 ∧ leAt bs (8 * i + 4) 2 < 4096 ∧ (ctxEntry bs i).2.1 ≤ (ctxEntry bs i).2.2) &&
    zerosAt bs (8 * i + 6) 2

/-- Bytes that the work object needs (R218 check 10). -/
def workBytes (h : List Byte) (spans : Nat) : Nat := 1024 * spans * (12 * imHidden h + 2 * imFfn h)

/-- T_S and token identities of the record of the `i`-th span in the bytes of the records (R239). -/
def krecTokens (bs : List Byte) (i : Nat) : List Nat :=
  (List.range (min 1024 (leAt bs (4352 * i + 6) 2))).map fun t => leAt bs (4352 * i + 256 + 4 * t) 3

/-- Spans of the batch. -/
def kdBatch (d : BitVec 512) : List Nat := (List.range (kdSpans d)).map (kdFirst d + ·)

/-- Layers of a sequence that the node holds. -/
def State.layersHeld (s : State) (p seq : Nat) : List Nat :=
  (s.dir.filter fun d => d.key.part == p && d.key.seq == seq).map fun d => d.key.layer

/-- The span is dropped: some layer entry of the sequence records it so (R459). -/
def State.droppedSpan (s : State) (p seq span : Nat) : Bool :=
  (s.layersHeld p seq).any fun l => s.missingIn ⟨p, seq, l⟩ span

/-- Every position of the span is published in the layer and every page of it stands (check 8 of R218). -/
def State.spanFull (s : State) (p seq layer span : Nat) : Bool :=
  match s.dir? ⟨p, seq, layer⟩ with
  | some d => match d.val? with
    | some v =>
      decide (1024 * (span + 1) ≤ dePub v) &&
      (List.range (deKvCount v)).all fun h =>
        (pagesOf (classTokens (deClass v)) (1024 * span) (1024 * (span + 1))).all fun f =>
          (s.liveSlot p seq layer (deKvFirst v + h) f).isSome
    | none => false
  | none => false

/-- Check 6 of R218 over the layers: the state, and the status of the first entry that fails. -/
def State.layersCheck (s : State) (p seq : Nat) (spans : List Nat) : List Nat → State × Nat
  | [] => (s, 0)
  | l :: t =>
    let k : DirKey := ⟨p, seq, l⟩
    match s.dir? k with
    | none => (s, 0x0C)
    | some d =>
      let s := s.dirSeen k
      match d.val? with
      | none => (s, 0x0E)
      | some v =>
        if deState v ≠ 1 then (s, 0x0C)
        else if spans.any (fun x => decide (x < deExt0 v ∨ deExt1 v < x)) then (s, 0x03)
        else s.layersCheck p seq spans t

/-- Checks 7 and 8 over the layers. -/
def State.leasesCheck (s : State) (p seq : Nat) : List Nat → State × Nat
  | [] => (s, 0)
  | l :: t =>
    let k : DirKey := ⟨p, seq, l⟩
    let s := s.ownSeen k
    match s.dir? k with
    | some d => match d.own? with
      | none => (s, 0x0E)
      | some o => if s.holdsOwn o then s.leasesCheck p seq t else (s, 0x06)
    | none => (s, 0x0C)

/-- An entry does not match the image (check 8). -/
def State.shapeDiffers (s : State) (p seq l : Nat) (h : List Byte) : Bool :=
  match s.dir? ⟨p, seq, l⟩ with
  | some d => match d.val? with
    | some v => deFmt v != imKvfmt h % 8 || deDim v != imKvfmt h / 8 || deKvFirst v != 0 || deKvCount v != imKvHeads h
    | none => true
  | none => true

/-- Check 1 of R218 but for the context entries. -/
def kindleOk (d : BitVec 512) : Bool :=
  dF d 17 1 == 0 && decide (kdImage d < 4 ∧ 1 ≤ kdSpans d ∧ kdSpans d ≤ 4 ∧ kdFirst d < 4096 ∧ kdKlg d < 1024 ∧
    kdCtx d < 1024 ∧ kdCtxCount d ≤ 64 ∧ kdWork d < 1024) && dF d 46 2 == 0 && dF d 56 8 == 0

/-- The objects that a KINDLE reads and writes: first address and bytes. -/
def State.kdRanges (s : State) (c : Cmd) : List (Nat × Nat) :=
  let d := c.desc
  let w := s.obj c.part (kdWork d)
  [(objBase (s.obj c.part (kdKlg d)) + kdOff d, 4352 * kdSpans d), (objBase w, objSize w)] ++
  if kdCtxCount d = 0 then [] else [(objBase (s.obj c.part (kdCtx d)), 8 * kdCtxCount d)]

/-- The objects keep R54 and R55, have the kinds of R216, and hold what is read of them. -/
def State.kdObjects (s : State) (c : Cmd) : Bool :=
  let d := c.desc
  let k := s.obj c.part (kdKlg d)
  let w := s.obj c.part (kdWork d)
  let x := s.obj c.part (kdCtx d)
  objOk k && objKind k == 2 && decide (kdOff d + 4352 * kdSpans d ≤ objSize k) && objOk w && objKind w == 3 &&
  (kdCtxCount d == 0 || (objOk x && decide (8 * kdCtxCount d ≤ objSize x)))

/-- A KINDLE after its checks: refused with a status, nothing to do, or accepted with its dropped spans, its tokens by
span and its context. -/
inductive KCheck where
  | refused (status : Nat)
  | already
  | accepted (spans : List Nat) (tokens : List (Nat × List Nat)) (ctx : List (Nat × Nat × Nat))
  deriving DecidableEq, Repr

/-- The checks of R218. -/
def State.kindleCheck (s : State) (c : Cmd) : State × KCheck :=
  let d := c.desc
  let p := c.part
  let rs := s.kdRanges c
  if !kindleOk d ∨ !s.kdObjects c then (s, .refused 0x0C)
  else if !rs.all (fun r => s.mapped r.1 r.2) then (s.unmappedError, .refused 0x0C)
  else
    let n := kdCtxCount d
    let ca := objBase (s.obj p (kdCtx d))
    let raw := n != 0 && s.touchesRaw ca (8 * n)
    let bad := n != 0 && s.hasUE ca (8 * n)
    let (cb, s) := if n = 0 ∨ raw then ([], s) else s.readFor ca (8 * n)
    if raw then (s, .refused 0x0F)
    else if bad then (s, .refused 0x08)
    else if !ctxOk cb n then (s, .refused 0x0C)
    else if s.adrift then (s, .refused 0x10)
    else if c.refused ∨ s.power ≠ .lit ∨ !s.ownsArraySlot p then (s, .refused 0x0F)
    else match s.image? p (kdImage d) with
      | none => (s, .refused 0x0C)
      | some m =>
        let h := m.hdr
        let layers := List.range (imLayers h)
        let batch := kdBatch d
        if 4096 < kdFirst d + kdSpans d then (s, .refused 0x03)
        else
          let (s, e) := s.layersCheck p (kdSeq d) batch layers
          if e ≠ 0 then (s, .refused e)
          else
            let (s, e) := s.leasesCheck p (kdSeq d) layers
            if e ≠ 0 then (s, .refused e)
            else
              let dropped := batch.filter (s.droppedSpan p (kdSeq d))
              if layers.any (fun l => s.shapeDiffers p (kdSeq d) l h) ∨
                  dropped.any (fun t => (s.layersHeld p (kdSeq d)).any fun l =>
                    !s.missingIn ⟨p, kdSeq d, l⟩ t && !s.spanFull p (kdSeq d) l t) then (s, .refused 0x0F)
              else
                let own := rs.foldl (fun (x : State × Nat) (r : Nat × Nat) =>
                  if x.2 ≠ 0 then x else x.1.ownCheck p r.1 r.2) (s, 0)
                let w := s.obj p (kdWork d)
                if own.2 ≠ 0 then (own.1, .refused own.2)
                else if rs.any (fun r => s.touchesRaw r.1 r.2) then (s, .refused 0x0F)
                else if objSize w < workBytes h (kdSpans d) then (s, .refused 0x0D)
                else
                  let ka := objBase (s.obj p (kdKlg d)) + kdOff d
                  let ue := s.hasUE ka (4352 * kdSpans d)
                  let (kb, s) := s.readFor ka (4352 * kdSpans d)
                  let toks := batch.mapIdx fun i t => (t, krecTokens kb i)
                  if ue then (s, .refused 0x08)
                  else if toks.any (fun x => x.2.any fun t => decide (imVocab h ≤ t)) ∨
                      (toks.take (kdSpans d - 1)).any (fun x => decide (x.2.length < 1024)) then (s, .refused 0x0C)
                  else if dropped.isEmpty then (s, .already)
                  else (s, .accepted dropped (toks.filter fun x => dropped.contains x.1)
                    ((List.range n).map (ctxEntry cb)))

/-! Ending a KINDLE (R224, R226). -/

/-- What a KINDLE holds is let go: its unpublished pages, its internal requests and their embers. -/
def State.dropKindle (s : State) (id : Nat) : State :=
  let ids := (s.reqs.filter fun r => r.kindle == some id).map Req.id
  let s := (s.reqs.filter fun r => r.kindle == some id).foldl State.dropBlks s
  let s := (s.merges.filter fun m => m.kindle == some id).foldl State.mergePast s
  { s with
    slots := s.slots.filter fun x => x.use != .kindle id
    reqs := s.reqs.filter fun r => r.kindle != some id
    sent := s.sent.filter fun e => !ids.contains e.req
    merges := s.merges.filter fun m => m.kindle != some id
    kindles := s.kindles.filter fun k => k.cmd != id }

/-- Result word of a KINDLE (R226). -/
def kindleResult (already joined resent : Bool) (missing : Option Nat) (spans : Nat) : Nat :=
  (if already then 2 ^ 31 else 0) + (match missing with | some m => 2 ^ 30 + m % 4096 * 2 ^ 12 | none => 0) +
  (if joined then 2 ^ 29 else 0) + (if resent then 2 ^ 28 else 0) + spans % 8

/-- End a KINDLE and those that joined it (R218, R224). The spans that it has published count as rekindled (R226). -/
def State.finishKindle (s : State) (k : Kindle) (status : Nat) (already : Bool) (missing : Option Nat) : State :=
  let joined := s.kindles.filter fun x => x.joins == some k.cmd
  let s := (s.dropKindle k.cmd).endCmd k.cmd status
    (BitVec.ofNat 32 (kindleResult already false k.resent missing k.published))
  joined.foldl (fun (s : State) (x : Kindle) =>
    { s with kindles := s.kindles.filter fun y => y.cmd != x.cmd }.endCmd x.cmd status
      (BitVec.ofNat 32 (kindleResult false true false none 0))) s

/-! Reading the image. -/

/-- Read bytes of a bound image; none when they hold an uncorrectable error. -/
def State.imgRead (s : State) (m : Image) (off n : Nat) : State × Option (List Byte) :=
  let a := objBase (s.obj m.part m.obj) + off
  ((s.opens a n).scanned a n, if s.hasUE a n then none else some (s.bytes a n))

/-- Words of FP32 in a byte string. -/
def wordsOf (bs : List Byte) : List Word := (List.range (bs.length / 4)).map fun i => BitVec.ofNat 32 (leAt bs (4 * i) 4)

/-- rmsnorm of every row with the gains of a tensor; a status when it fails. -/
def State.normRows (s : State) (m : Image) (tensor : Nat) (x : List (List Word)) :
    State × Except Nat (List (List Word)) :=
  let r := s.imgRead m (tensorOff m.hdr tensor) (4 * imHidden m.hdr)
  match r.2 with
  | none => (r.1, .error 8)
  | some bs => (r.1, .ok (x.map fun v => rmsnorm (imEps m.hdr) v (wordsOf bs)))

/-- Embed the tokens of a KINDLE (R209). -/
def State.embedRows (s : State) (m : Image) : List Nat → State × Except Nat (List (List Word))
  | [] => (s, .ok [])
  | t :: ts =>
    let w := wRow (imWfmt m.hdr) (imHidden m.hdr)
    let r := s.imgRead m (t * w) w
    match r.2 with
    | none => (r.1, .error 8)
    | some bs => match wRead (imWfmt m.hdr) (imHidden m.hdr) bs with
      | none => (r.1, .error 0x0C)
      | some q =>
        let rest := r.1.embedRows m ts
        (rest.1, rest.2.map (q.words :: ·))

/-- A KINDLE stands before the K projection of its layer. -/
def State.layerStart (s : State) (m : Image) (k : Kindle) : State × Except Nat Kindle :=
  let r := s.normRows m (layerTensor k.layer 0) k.x
  (r.1, r.2.map fun a => { k with stage := .k, a := a, tile := 0, rowDone := 0, y := [] })

/-- Start executing an accepted KINDLE, with the spans of it still dropped. -/
def State.beginKindle (s : State) (k : Kindle) : State × Except Nat Kindle :=
  match s.image? k.part k.slot with
  | none => (s, .error 0x0C)
  | some m =>
    let r := s.embedRows m k.tokens
    match r.2 with
    | .error e => (r.1, .error e)
    | .ok x => r.1.layerStart m { k with executing := true, x := x, layer := 0 }

/-- Store a KINDLE. -/
def State.putKindle (s : State) (k : Kindle) : State := s.setKindle k.cmd fun _ => k

/-- A value that is not finite ended a KINDLE (R224). -/
def State.nonfinite (s : State) (status : Nat) : State :=
  if status = 0x0C then s.setRegB 0 Reg.KN_ERR_STAT 0 true else s

/-- The spans of a KINDLE that are still dropped and not being rekindled, with their layers and tokens. -/
def State.kindleSpans (s : State) (k : Kindle) (layers : Nat) (toks : List (Nat × List Nat)) : Kindle :=
  let live := toks.filter fun x => s.droppedSpan k.part k.seq x.1
  { k with
    spans := live.map (·.1)
    layersOf := live.map fun x => (x.1, (List.range layers).filter fun l => s.missingIn ⟨k.part, k.seq, l⟩ x.1)
    tokens := live.flatMap (·.2) }

/-- The tokens of a KINDLE by span: each span but the last has 1,024. -/
def Kindle.bySpan (k : Kindle) : List (Nat × List Nat) := k.spans.mapIdx fun i t => (t, (k.tokens.drop (1024 * i)).take 1024)

/-- Start the next KINDLE of a partition, in order of acceptance (R219); one that has nothing left to recompute
ends, as does one whose image is no longer bound. -/
def State.startNext (s : State) (p : Nat) : Nat → State
  | 0 => s
  | n + 1 =>
    if s.kindles.any fun k => k.part == p && k.executing then s
    else match s.kindles.find? fun k => k.part == p && k.joins.isNone with
      | none => s
      | some k =>
        match s.image? p k.slot with
        | none => (s.finishKindle k 0x0C false none).startNext p n
        | some m =>
          let k := s.kindleSpans k (imLayers m.hdr) k.bySpan
          if k.spans.isEmpty then (s.finishKindle k 0 true none).startNext p n
          else match s.beginKindle k with
            | (s, .ok k) => s.putKindle k
            | (s, .error e) => ((s.nonfinite e).finishKindle k e false none).startNext p n

/-- End a KINDLE by R224, and start the next of its partition. -/
def State.endKindle (s : State) (k : Kindle) (status : Nat) (missing : Option Nat) : State :=
  let s := (s.nonfinite status).finishKindle k status false missing
  s.startNext k.part s.kindles.length

/-- End the KINDLEs that satisfy a test, and then start those that waited for them (R219, R224). -/
def State.endKindles (s : State) (f : Kindle → Bool) (status : Nat) : State :=
  let ks := s.kindles.filter f
  let s := ks.foldl (fun (s : State) (k : Kindle) => match s.kindle? k.cmd with
    | some k => s.finishKindle k status false none
    | none => s) s
  (ks.map Kindle.part).dedup.foldl (fun (s : State) (p : Nat) => s.startNext p s.kindles.length) s

/-- KINDLE (R218): checked, and accepted. -/
def execKindle (cmd : Nat) (s : State) : Host.Outcome State Fault Refusal :=
  .next (match s.starting? cmd 3 with
    | none => s
    | some c =>
      if dOp c.desc ≠ 0 then (if dOp c.desc ≤ 2 then s else (s.runCmd cmd).endCmd cmd 0x0C 0)
      else
        let s := s.runCmd cmd
        let d := c.desc
        match s.kindleCheck c with
        | (s, .refused e) => s.endCmd cmd e 0
        | (s, .already) => s.endCmd cmd 0 (BitVec.ofNat 32 (kindleResult true false false none 0))
        | (s, .accepted spans toks ctx) =>
          let busy := s.kindles.find? fun k => k.part == c.part && k.seq == kdSeq d && k.executing
          let other := (busy.map Kindle.spans).getD []
          let mine := toks.filter fun x => !other.contains x.1
          let k : Kindle := {
            cmd := cmd, part := c.part, seq := kdSeq d, slot := kdImage d, first := kdFirst d, count := kdSpans d,
            spans := mine.map (·.1), layersOf := [], ctx := ctx, tokens := mine.flatMap (·.2),
            work := s.obj c.part (kdWork d),
            tagBase := kdTag d, joins := if spans.all other.contains then busy.map Kindle.cmd else none,
            executing := false, layer := 0, stage := .k, tile := 0, rowDone := 0, x := [], a := [], kOut := [],
            qOut := [], gOut := [], y := [], todo := [], internals := [], counter := 0, gathered := [],
            waitsSlots := false, waitUnits := [], resent := false, published := 0 }
          let s : State := { s with kindles := s.kindles ++ [k] }
          s.startNext c.part s.kindles.length)

/-! The attention of a layer (R221). -/

/-- Rows of X. -/
def Kindle.rows (k : Kindle) : Nat := k.tokens.length

/-- Position of row `r`. -/
def Kindle.pos (k : Kindle) (r : Nat) : Nat := 1024 * k.spans.getD (r / 1024) 0 + r % 1024

/-- The token group of a row: first row and number of rows. -/
def Kindle.groupOf (k : Kindle) (gf r : Nat) : Nat × Nat :=
  if gf ≤ 8 then (r / 2 * 2, min 2 (k.rows - r / 2 * 2)) else (r, 1)

/-- What a layer has to issue: for each KV head and group, the remote request (rows not 0), then a local request for
each token (rows 0). -/
def Kindle.groups (k : Kindle) (kvHeads gf : Nat) : List (Nat × Nat × Nat) :=
  (List.range kvHeads).flatMap fun g =>
    ((List.range k.rows).filter fun r => (k.groupOf gf r).1 == r).flatMap fun r =>
      let n := (k.groupOf gf r).2
      (if k.first = 0 then [] else [(g, r, n)]) ++ (List.range n).map fun i => (g, r + i, 0)

/-- The query vectors of rows for a KV head: its query heads, token by token. -/
def Kindle.queriesOf (k : Kindle) (gf d g r n : Nat) : List (List Word) :=
  (List.range n).flatMap fun i => (List.range gf).map fun j =>
    (((k.qOut.getD (r + i) []).drop ((g * gf + j) * d)).take d)

/-- REQ_TAG of a count. -/
def Kindle.tag (k : Kindle) (count : Nat) : BitVec 64 := BitVec.ofNat 64 (k.tagBase * 2 ^ 20 + count % 2 ^ 20)

/-- Nodes that hold earlier spans. -/
def Kindle.ctxNodes (k : Kindle) : List Nat :=
  (k.ctx.filter fun e => decide (e.2.1 < k.first)).map (·.1)

/-- A request of a KINDLE. -/
def kindleReq (id : Nat) (k : Kindle) (h : List Byte) (kv g first last : Nat) (scale : Word) (qs : List (List Byte))
    (tag : BitVec 64) (bare : Bool) (ms : Nat) : Req :=
  { id := id, kindle := some k.cmd, part := k.part, seq := k.seq, layer := k.layer, kv := kv, g := g, fmt := imKvfmt h,
    posFirst := first, posLast := last, scale := scale, queries := qs, tag := tag, repro := true, isSealed := true,
    bare := bare, conn := none, unreachable := false, stride := none, accepted := ms, deferred := false,
    retried := false, tailExcluded := false, missingAny := false, snapshot := 0, extFirst := 0, extLast := 0,
    jobs := [], missing := [], blks := [], emitted := 0, outcome := 8 }

/-- The ATTEND descriptor that goes to another node (R138, R221). -/
def remoteAttend (k : Kindle) (h : List Byte) (node kv g : Nat) (scale : Word) (tag : BitVec 64) : BitVec 512 :=
  let d := setF (setF (0 : BitVec 512) 128 8 7) 136 8 g
  let d := setF (setF (setF d 144 8 k.layer) 152 8 kv) 160 8 (imKvfmt h)
  let d := setF (setF (setF d 192 64 k.seq) 256 32 0) 288 32 (1024 * k.first - 1)
  setF (setF (setF d 320 32 scale.toNat) 352 16 node) 448 64 tag.toNat

/-- Issue the remote request of a group to one context entry: the state, and the message that carries it. -/
def State.issueTo (s : State) (k : Kindle) (h : List Byte) (mid kv g : Nat) (scale : Word) (qs : List (List Byte))
    (tag : BitVec 64) (node : Nat) : State × List (Nat × Nat) :=
  if node = s.nodeId then
    ({ s with nextId := s.nextId + 1,
              reqs := s.reqs ++ [kindleReq s.nextId k h kv g 0 (1024 * k.first - 1) scale qs tag false s.ms] }, [])
  else match s.connTo k.part node with
    | some i =>
      let body := cmdMessage 0 (remoteAttend k h s.nodeId kv g scale tag) qs.flatten
      (s.sendMsg i 4 0 0 body.length [] body (.kindle k.cmd) none, [(i, (s.conn i).nextMsg)])
    | none => (s.mergeOutcome mid 2, [])

/-- The checks of R140 on a request that goes to the node's own columns (R221): the status of the first that fails. -/
def State.internalCheck (s : State) (k : Kindle) (h : List Byte) (kv g first last : Nat) (scale : Word)
    (qs : List (List Byte)) : State × Nat :=
  if g = 0 ∨ 16 < g then (s, 0x0C)
  else if s.adrift then (s, 0x10)
  else if !s.serving ∨ s.power = .banked then (s, 0x0F)
  else if 4194304 ≤ last then (s, 0x03)
  else
    let r := s.attendEntry ⟨k.part, k.seq, k.layer⟩ (imKvfmt h) kv first last scale
    if r.2 ≠ 0 then r
    else if !qs.all (rowFinite (queryFmt (imKvfmt h % 8)) (imDim h)) then (r.1, 0x0C) else r

/-- Issue one internal request (R221), with the next count: the state, and the KINDLE, or the status that ends it. -/
def State.issueOne (s : State) (k : Kindle) (h : List Byte) (t : Nat × Nat × Nat) (resent : Bool) (first : Nat) :
    State × Except Nat Kindle :=
  let gf := imGroup h
  let d := imDim h
  let f := imKvfmt h % 8
  let grp := k.groupOf gf t.2.1
  let a := queryExp f (k.queriesOf gf d t.1 grp.1 grp.2)
  let scale := queryScale (imKvfmt h / 8) a
  let n := if t.2.2 = 0 then 1 else t.2.2
  let qs := (k.queriesOf gf d t.1 t.2.1 n).map (rowEncode (queryFmt f) a)
  let tag := k.tag k.counter
  let used := s.merges.any fun m => m.part == k.part && m.tag == tag &&
    (m.kindle.isSome || match s.cmd? m.id with | some c => c.phase == .running | none => false)
  if !qs.all Option.isSome ∨ !fposNormal scale ∨ (t.2.2 ≠ 0 ∧ used) then (s, .error 0x0C)
  else
    let qs := qs.map (·.getD [])
    let id := s.nextId
    let s : State := { s with nextId := id + 1 }
    let e : Internal := { count := k.counter % 2 ^ 20, req := id, remote := t.2.2 != 0, kv := t.1, row := t.2.1,
                          rows := t.2.2, resent := resent, first := first, msgs := [] }
    let issued (e : Internal) : Kindle := { k with counter := k.counter + 1, internals := k.internals ++ [e] }
    let nodes := k.ctxNodes
    let chk := if t.2.2 = 0 then s.internalCheck k h t.1 gf (1024 * k.first) (k.pos t.2.1) scale qs
      else if nodes.contains s.nodeId then s.internalCheck k h t.1 (n * gf) 0 (1024 * k.first - 1) scale qs
      else (s, 0)
    let s := chk.1
    if chk.2 ≠ 0 then (s, .error chk.2)
    else if t.2.2 = 0 then
      ({ s with reqs := s.reqs ++ [kindleReq id k h t.1 gf (1024 * k.first) (k.pos t.2.1) scale qs tag true s.ms] },
        .ok (issued e))
    else
      let m : Merge := {
        id := id, kindle := some k.cmd, part := k.part, repro := true, g := n * gf, fmt := imKvfmt h,
        sources := nodes.length, wait := 0, posFirst := 0, posLast := 1024 * k.first - 1, conn := none,
        unreachable := false, resAddr := 0, toHost := false, tag := tag, accepted := some s.ms, num := 0, slot := 0,
        units := 0, inputs := [], values := [], missing := [], dedup := false, retried := false, outcome := 8 }
      let s : State := { s with merges := s.merges ++ [m]
                                mergesDone := s.mergesDone.filter (· != (s.tenant k.part, tag.toNat)) }
      let held := s.recv.filter fun r => r.hdr.isSome && r.merge.isNone && !r.discarded &&
        r.tenant == s.tenant k.part && ebTag r.body == tag.toNat
      let s := held.foldl (fun s r => match s.merge? id with
        | some m => s.offer m r 0
        | none => s) s
      let r := nodes.foldl (fun (x : State × List (Nat × Nat)) node =>
        let y := x.1.issueTo k h id t.1 (n * gf) scale qs tag node
        (y.1, x.2 ++ y.2)) (s, [])
      (r.1, .ok (issued { e with msgs := r.2 }))

/-- Requests of the node's own that an internal request adds to those in flight. -/
def State.ownPart (s : State) (k : Kindle) (t : Nat × Nat × Nat) : Nat :=
  if t.2.2 = 0 then 1 else (k.ctxNodes.filter (· == s.nodeId)).length

/-- Issue requests while KN_CFG.ATTEND_MAX allows, and within the limit of R141. -/
def State.issueAll (s : State) (k : Kindle) (h : List Byte) : Nat → State × Except Nat Kindle
  | 0 => (s, .ok k)
  | n + 1 => match k.todo with
    | [] => (s, .ok k)
    | t :: rest =>
      if s.regF 0 Reg.KN_CFG 0 13 ≤ k.internals.length ∨ 16384 < s.inFlight + s.ownPart k t then (s, .ok k)
      else match s.issueOne { k with todo := rest } h t false s.ms with
        | (s, .error e) => (s, .error e)
        | (s, .ok k) => s.issueAll k h n

/-! Page writing (R222). -/

/-- Layers in which a span of the KINDLE is dropped hold this layer. -/
def Kindle.writes (k : Kindle) (span : Nat) : Bool :=
  k.layersOf.any fun e => e.1 == span && e.2.contains k.layer

/-- Row of the first position of a page, and its rows. -/
def Kindle.pageRows (k : Kindle) (n f : Nat) : Nat × Nat :=
  let i := (k.spans.findIdx? (· == f / 1024)).getD 0
  let r := 1024 * i + f % 1024
  (r, min n (k.rows - r))

/-- The pages of a layer that the KINDLE writes. -/
def Kindle.needs (k : Kindle) (v : BitVec 256) : List Need :=
  let n := classTokens (deClass v)
  let d := headDim (deDim v)
  (List.range (deKvCount v)).flatMap fun g => (k.spans.filter k.writes).flatMap fun t =>
    ((pagesOf n (1024 * t) (1024 * (t + 1))).filter fun f => decide (0 < (k.pageRows n f).2)).map fun f =>
      ⟨k.seq, k.layer, g, f, slotRaw n d (rowBytes (deFmt v) d)⟩

/-- Write one page; false when a value is not finite. -/
def State.writeKindled (s : State) (k : Kindle) (v : BitVec 256) (x : Slot) : State × Bool :=
  let n := classTokens (deClass v)
  let d := headDim (deDim v)
  let f := deFmt v
  let r := k.pageRows n x.firstPos
  let part (m : List (List Word)) : List (List Word) :=
    ((m.drop r.1).take r.2).map fun row => (row.drop (x.kv * d)).take d
  let ks := part k.kOut
  let vs := part k.y
  let ke := pageExp f ks
  let ve := pageExp f vs
  let kb := ks.map (rowEncode f ke)
  let vb := vs.map (rowEncode f ve)
  if kb.all Option.isSome && vb.all Option.isSome then
    (s.writePage k.cmd x v (pageScale ke) (pageScale ve) r.2 (kb.map (·.getD [])) (vb.map (·.getD [])), true)
  else (s, false)

/-- Write the K and V pages of the layer (R220, R222). It waits while slots of condemned units are awaited (R236). -/
def State.writeLayer (s : State) (k : Kindle) : State × Except Nat Kindle :=
  match s.openEntry ⟨k.part, k.seq, k.layer⟩ with
  | none => (s, .error 0x0A)
  | some v =>
    let needs := k.needs v
    if needs.isEmpty then (s, .ok { k with waitsSlots := false })
    else if k.waitsSlots ∧ s.slots.any (fun x =>
        x.part == k.part && x.use == .condemned && k.waitUnits.contains (x.seq, x.firstPos / 1024)) then (s, .ok k)
    else match s.allocate k.part (.kindle k.cmd) needs with
      | .fails s => (s, .error 0x0D)
      | .waits s us => (s, .ok { k with waitsSlots := true, waitUnits := us })
      | .got s got =>
        let r := got.foldl (fun (acc : State × Bool) x =>
          let w := acc.1.writeKindled k v x
          (w.1, acc.2 && w.2)) (s, true)
        if r.2 then (r.1, .ok { k with waitsSlots := false, waitUnits := [] }) else (r.1, .error 0x0C)

/-! The stages of a layer (R220). -/

/-- The array() call of a stage: tensor within the layer, K and N. -/
def stageCall (h : List Byte) : KStage → Option (Nat × Nat × Nat)
  | .q => some (1, imHidden h, imQHeads h * imDim h)
  | .k => some (2, imHidden h, imKvHeads h * imDim h)
  | .v => some (3, imHidden h, imKvHeads h * imDim h)
  | .o => some (4, imQHeads h * imDim h, imHidden h)
  | .g => some (6, imHidden h, imFfn h)
  | .u => some (7, imHidden h, imFfn h)
  | .d => some (8, imFfn h, imHidden h)
  | .attention => none
  | .written => none

/-- Pairs of a COARSE or FINE row. -/
def pairsOf (ws : List Word) : List (Word × Word) :=
  (List.range (ws.length / 2)).map fun i => (ws.getD (2 * i) 0, ws.getD (2 * i + 1) 0)

/-- Rotate every head of every row at its position; a status when a table row cannot be read. -/
def State.ropeRows (s : State) (m : Image) (k : Kindle) (rows : List (List Word)) : State × Except Nat (List (List Word)) :=
  let d := imDim m.hdr
  let w := d / 2 * 8
  (rows.mapIdx fun r v => (r, v)).foldl (fun (acc : State × Except Nat (List (List Word))) rv =>
    match acc.2 with
    | .error _ => acc
    | .ok out =>
      let p := k.pos rv.1
      let c := acc.1.imgRead m (tensorOff m.hdr 1 + p / 1024 * w) w
      let f := c.1.imgRead m (tensorOff m.hdr 2 + p % 1024 * w) w
      match c.2, f.2 with
      | some cb, some fb =>
        let v := (List.range (rv.2.length / d)).flatMap fun h =>
          rope d (pairsOf (wordsOf cb)) (pairsOf (wordsOf fb)) ((rv.2.drop (h * d)).take d)
        (f.1, .ok (out ++ [v]))
      | _, _ => (f.1, .error 8)) (s, .ok [])

/-- The residual add. -/
def addRows (x y : List (List Word)) : List (List Word) := List.zipWith (List.zipWith fadd) x y

/-- A call is done: start the next stage with these inputs. -/
def Kindle.next (k : Kindle) (st : KStage) : Kindle := { k with stage := st, tile := 0, rowDone := 0, y := [] }

/-- The step after K and V of a layer: the last layer stops, the others go on to Q. -/
def Kindle.afterPages (k : Kindle) (layers : Nat) : Kindle :=
  if k.waitsSlots then k else if k.layer + 1 = layers then k.next .written else k.next .q

/-- The array() call of a stage has produced `k.y`. -/
def State.stageDone (s : State) (m : Image) (k : Kindle) : State × Except Nat Kindle :=
  let h := m.hdr
  match k.stage with
  | .k =>
    let r := s.ropeRows m k k.y
    (r.1, r.2.map fun y => { k.next .v with kOut := y })
  | .v =>
    let r := s.writeLayer k
    (r.1, r.2.map fun k => k.afterPages (imLayers h))
  | .q =>
    let r := s.ropeRows m k k.y
    match r.2 with
    | .error e => (r.1, .error e)
    | .ok y =>
      let k := { k.next .attention with qOut := y, gathered := [], todo := k.groups (imKvHeads h) (imGroup h) }
      r.1.issueAll k h k.todo.length
  | .o =>
    let x := addRows k.x k.y
    let r := s.normRows m (layerTensor k.layer 5) x
    (r.1, r.2.map fun a => { k.next .g with x := x, a := a })
  | .g => (s, .ok { k.next .u with gOut := k.y })
  | .u => (s, .ok { k.next .d with a := List.zipWith (List.zipWith gate) k.gOut k.y })
  | .d => s.layerStart m { k with x := addRows k.x k.y, layer := k.layer + 1 }
  | .attention => (s, .ok k)
  | .written => (s, .ok k)

/-! Array operations (R206 to R208). -/

/-- One row of one operation: outputs `[n0, n0 + ws.length)` over blocks `[b0, b0 + nb)`. -/
def opRow (x : QRow) (ws : List QRow) (b0 nb n0 : Nat) (y : List Word) : List Word :=
  y.mapIdx fun n c => if n0 ≤ n ∧ n < n0 + ws.length then arrayDot x (ws.getD (n - n0) ⟨[], []⟩) b0 nb c else c

/-- Stream rows `[r0, r0 + n)` of the current operation of a KINDLE: the state, and the KINDLE or the status that ends
it. -/
def State.streamRows (s : State) (m : Image) (k : Kindle) (call : Nat × Nat × Nat) (rows : Nat) :
    State × Except Nat Kindle :=
  let h := m.hdr
  let c := imWfmt h
  let K := call.2.1
  let kTiles := ceilDiv K 1024
  let kt := k.tile % kTiles
  let n0 := k.tile / kTiles * wTile c
  let nn := min (wTile c) (call.2.2 - n0)
  let w := wRow c K
  let r := s.imgRead m (tensorOff h (layerTensor k.layer call.1) + n0 * w) (nn * w)
  let y := if k.y.isEmpty then List.replicate k.rows (List.replicate call.2.2 0) else k.y
  let stop := min k.rows (k.rowDone + rows)
  match r.2 with
  | none => (r.1, .error 8)
  | some bs =>
    let ws := (cutRows w nn bs).map (wRead c K)
    let xs := ((k.a.drop k.rowDone).take (stop - k.rowDone)).map (quantise c)
    if !ws.all Option.isSome ∨ !xs.all Option.isSome then (r.1, .error 0x0C)
    else
      let wq := ws.map (·.getD ⟨[], []⟩)
      let y := y.mapIdx fun i row =>
        if k.rowDone ≤ i ∧ i < stop then
          opRow ((xs.getD (i - k.rowDone) none).getD ⟨[], []⟩) wq (32 * kt) (min 32 (K / 32 - 32 * kt)) n0 row
        else row
      if !y.all (fun row => row.all ffinite) then (r.1, .error 0x0C)
      else if stop < k.rows then (r.1, .ok { k with y := y, rowDone := stop })
      else
        let k := { k with y := y, rowDone := 0, tile := k.tile + 1 }
        if k.tile = kTiles * ceilDiv call.2.2 (wTile c) then r.1.stageDone m k else (r.1, .ok k)

/-- Array occupancy is counted, on the node and for the partition (R207, R227, R353). -/
def State.arrayBusy (s : State) (p hclk : Nat) : State :=
  let mt := s.meter p
  let n := s.arrayHclk + hclk
  { (s.setMeter p { mt with array := mt.array + hclk }).count 0 Reg.KN_ARRAY_BUSY (n / 1024) with
    arrayHclk := n % 1024, arrayUsed := true }

/-- Activations lie in WORK_OBJ; what its bytes are while a KINDLE executes is free (log entry 1). -/
def State.workWritten (s : State) (k : Kindle) : State :=
  let o := k.work
  let n := objSize o
  let bs := (List.range n).map fun i => (Config.freeValue 8 (s.draws + i) : Byte)
  { (s.clearEcc (objBase o) n).store (objBase o) bs with draws := s.draws + n }

/-- ARRAY_OPERATION: `rows` rows of the operation at hand stream in the partition's slot (R207, R208). A KINDLE that
waits for slots writes its pages once they are free. -/
def execArrayOperation (part rows : Nat) (s : State) : Host.Outcome State Fault Refusal :=
  .next (match s.kindles.find? fun k => k.part == part && k.executing with
    | none => s
    | some k => match s.image? part k.slot with
      | none => s
      | some m =>
        let settle (r : State × Except Nat Kindle) : State := match r.2 with
          | .ok k => r.1.putKindle k
          | .error e => r.1.endKindle k e none
        if k.waitsSlots then settle (s.stageDone m k)
        else match stageCall m.hdr k.stage with
          | none => s
          | some call =>
            let o := k.work
            if rows = 0 ∨ s.power ≠ .lit ∨ s.arrayOwner s.ms ≠ part then s
            else if s.hasUE (objBase o) (objSize o) then
              ((s.opens (objBase o) (objSize o)).scanned (objBase o) (objSize o)).endKindle k 8 none
            else
              let s := s.arrayBusy part (if k.rowDone = 0 then max k.rows 1024 + 160 else 1024)
              settle ((s.workWritten k).streamRows m k call rows))

/-! Internal requests (R221, R224, R225). -/

/-- Values gathered for a row. -/
def Kindle.valuesOf (k : Kindle) (kv row : Nat) : List TreeVal :=
  (k.gathered.filter fun g => g.1 == kv && g.2.1 == row).flatMap (·.2.2)

/-- The partial of every head of a row, combined by R157: the rows of attention output, or the status that ends the
KINDLE. -/
def Kindle.attnRow (k : Kindle) (h : List Byte) (r : Nat) : Except Nat (List Word) :=
  let kb := smallestBlock 0 (k.pos r / 1024)
  (List.range (imKvHeads h)).foldl (fun acc g =>
    match acc with
    | .error e => .error e
    | .ok out =>
      let o := treeValue (k.valuesOf g r) kb.1 kb.2
      if o.stop = 1 then .error 0x0A
      else if o.stop = 2 then .error 0x0C
      else .ok (out ++ (o.val.getD []).flatMap fun x => x.o.map fun w => fdiv w x.l)) (.ok [])

/-- Every request of the layer's attention is done: go on to the output projection. -/
def Kindle.attnDone (k : Kindle) (h : List Byte) : Except Nat Kindle :=
  let rows := (List.range k.rows).map (k.attnRow h)
  match rows.findSome? fun r => match r with | .error e => some e | .ok _ => none with
  | some e => .error e
  | none => .ok { k.next .o with a := rows.map fun r => match r with | .ok v => v | .error _ => [] }

/-- Drop one internal request with what belongs to it. -/
def State.dropInternal (s : State) (k : Kindle) (e : Internal) : State :=
  let tag := k.tag e.count
  let ids := (s.reqs.filter fun r => r.kindle == some k.cmd && r.tag == tag).map Req.id
  let s := (s.reqs.filter fun r => ids.contains r.id).foldl State.dropBlks s
  let s := match s.merge? e.req with
    | some m => s.mergePast m
    | none => s
  { s with
    reqs := s.reqs.filter fun r => !ids.contains r.id
    sent := s.sent.filter fun x => !ids.contains x.req
    merges := s.merges.filter fun m => m.id != e.req }

/-- What an internal request has come to: none while it is in flight; a status, the lowest missing span, and the values
by row. -/
def State.internalState (s : State) (k : Kindle) (gf : Nat) (e : Internal) (status : Nat) :
    Option (Nat × Option Nat × List (Nat × Nat × List TreeVal)) :=
  if !e.remote then
    match s.req? e.req with
    | none => none
    | some r =>
      if !s.reqDone r then none
      else
        let vals := r.jobs.map fun j => (⟨0, j.span, j.res.heads⟩ : TreeVal)
        some (attendStatus r.finalOutcome, r.missing.head?, [(e.kv, e.row, vals)])
  else
    match s.merge? e.req with
    | none => none
    | some m =>
      let ins := s.inputsOf m
      let own := (s.reqs.find? fun r => r.kindle == some k.cmd && !r.bare && r.tag == m.tag && s.reqDone r &&
        decide (r.finalOutcome < 6)).map fun r => attendStatus r.finalOutcome
      if status ≠ 0 ∧ status ≠ 1 ∧ status ≠ 2 then some (status, none, [])
      else match own with
        | some e => some (e, none, [])
        | none =>
          if m.outcome < 6 then some (mergeStatus m.outcome, none, [])
          else if ins.any fun r => r.header?.isNone then some (0x0E, none, [])
          else if hasInputs m ins && ins.all Recv.sealedOk then
            let mm := mergeMissing m ins
            let smax := ins.foldl (fun a r => max a (ebSnapshot r.body)) 0
            let lost := sortNat (mm.1 ++ mm.2 ++ if smax < m.posLast + 1 then [smax / 1024] else [])
            match lost.head? with
            | some t => some (2, some t, [])
            | none =>
              let vals := (List.range e.rows).map fun i =>
                (e.kv, e.row + i, m.values.map fun v => { v with heads := (v.heads.drop (i * gf)).take gf })
              some (0, none, vals)
          else none

/-- A request of the KINDLE with that REQ_TAG completes (R225); `status` is that of an ATTEND on another node, when it
is not OK. -/
def State.internalDone (s : State) (cmd tag status : Nat) : State :=
  match s.kindle? cmd with
  | none => s
  | some k => match k.internals.find? (fun e => (k.tag e.count).toNat == tag), s.image? k.part k.slot with
    | some e, some m =>
      match s.internalState k (imGroup m.hdr) e status with
      | none => s
      | some (st, missing, vals) =>
        let s := s.dropInternal k e
        let k := { k with internals := k.internals.filter fun x => x.count != e.count }
        let settle (r : State × Except Nat Kindle) : State := match r.2 with
          | .ok k => r.1.putKindle k
          | .error e => r.1.endKindle k e none
        if st = 0 ∨ st = 1 then
          let k := { k with gathered := k.gathered ++ vals }
          match s.issueAll k m.hdr k.todo.length with
          | (s, .error e) => s.endKindle k e none
          | (s, .ok k) => settle (s, if k.internals.isEmpty && k.todo.isEmpty then k.attnDone m.hdr else .ok k)
        else if st = 2 then s.endKindle k 2 missing
        else if st = 0x0C then s.endKindle k 0x0C none
        else if st = 0x0E then s.endKindle k 0x0E none
        else if e.resent then s.endKindle k (if st = 8 then 8 else 0x0A) none
        else
          let s := s.setRegB 0 Reg.KN_ERR_STAT 3 true
          settle (s.issueOne { k with resent := true } m.hdr (e.kv, e.row, e.rows) true e.first)
    | _, _ => s

/-- A KINDLE that could issue no request within the limit of R141 tries again. -/
def State.issueMore (s : State) (cmd : Nat) : State :=
  match s.kindle? cmd with
  | none => s
  | some k =>
    if k.stage ≠ .attention then s
    else match s.image? k.part k.slot with
      | none => s
      | some m => match s.issueAll k m.hdr k.todo.length with
        | (s, .ok k) => s.putKindle k
        | (s, .error e) => s.endKindle k e none

/-- INTERNAL_REQUEST_DONE (R225). -/
def execInternalRequestDone (cmd tag status : Nat) (s : State) : Host.Outcome State Fault Refusal :=
  .next (s.internalDone cmd tag status)

/-- KINDLE_COLLECT_TIMEOUT (R224): a collection is not complete within COLLECT_WAIT milestones of its first request. -/
def execKindleCollectTimeout (cmd : Nat) (s : State) : Host.Outcome State Fault Refusal :=
  .next (match s.kindle? cmd with
    | some k =>
      if k.internals.any fun e => e.remote && decide (e.first + s.regF 0 Reg.KN_CFG 16 8 ≤ s.ms) then
        s.endKindle k 0x0B none
      else s
    | none => s)

/-! Publication (R244). -/

/-- Make a rebuilt unit present in one update, in the layers that the KINDLE wrote (R459). -/
def State.publishUnit (s : State) (k : Kindle) (span : Nat) : State :=
  let s : State := { s with
    slots := s.slots.map fun (x : Slot) =>
      if x.use = .kindle k.cmd ∧ x.firstPos / 1024 = span then { x with use := .live } else x
    rebuilds := s.rebuilds.map fun r =>
      if r.1 = k.part ∧ r.2.seq = k.seq ∧ r.2.mode ≠ 1 then (r.1, { r.2 with left := r.2.left.filter (· != span) }) else r
    dir := s.dir.map fun d =>
      if d.key.part = k.part ∧ d.key.seq = k.seq ∧ k.layersOf.any fun e => e.1 == span && e.2.contains d.key.layer then
        { d with dropped := d.dropped.filter (· != span) } else d
    heat := ⟨k.part, k.seq, span, 0, s.ms, some s.ms⟩ ::
      s.heat.filter fun h => !(h.part == k.part && h.seq == k.seq && h.span == span) }
  (s.count 0 Reg.PR_REKINDLE_CNT 1).count 0 Reg.KN_SPAN_CNT 1

/-- KINDLE_PUBLISH: the next unit of the batch becomes present, and after the last the KINDLE completes. -/
def execKindlePublish (cmd : Nat) (s : State) : Host.Outcome State Fault Refusal :=
  .next (match s.kindle? cmd with
    | none => s
    | some k =>
      if k.stage ≠ .written ∨ !k.executing then s
      else match k.spans[k.published]? with
        | none => s
        | some span =>
          let s := s.publishUnit k span
          let k := { k with published := k.published + 1 }
          if k.published < k.spans.length then s.putKindle k
          else
            let s := s.finishKindle k 0 false none
            s.startNext k.part s.kindles.length)

/-! CLOSE (R84, R88). -/

/-- CLOSE_SEQ: the entry closes; pending APPENDs of the key and KINDLEs of the sequence end with ABORTED. The slots are
freed by CLOSE_FREE. -/
def execCloseSeq (cmd : Nat) (s : State) : Host.Outcome State Fault Refusal :=
  .next (match s.starting? cmd 1 with
    | none => s
    | some c =>
      if dOp c.desc ≠ 2 ∨ !s.awake then s
      else
        let s := s.runCmd cmd
        let k := c.key
        if !closeOk c.desc ∨ !apZeros c.desc then s.endAppend c 0x0C false false
        else if s.adrift then s.endAppend c 0x10 false false
        else match s.dir? k with
          | none => s.endAppend c 0 false false
          | some e =>
            let s := s.dirSeen k
            match e.val? with
            | none => s.endAppend c 0x0E false false
            | some v =>
              if deState v = 2 then s.endAppend c 0x0C false false
              else
                let s := s.setDir k fun d => { d.write (setF v 160 2 2) with closer := some cmd }
                let s := s.endPending k 0x0A
                s.endKindles (fun x => x.part == k.part && x.seq == k.seq) 0x0A)

end Sys2Proof.Machine
end

