-- ==== Sys2Proof/Machine/Bind.lean ====
section
/-!
DEFINITION. BIND and UNBIND of model images (R214, R215).
-/

namespace Sys2Proof.Machine

/-- Source and destination objects of a BIND (R216). -/
def bdSrc (d : BitVec 512) : Nat := dF d 40 2
def bdDst (d : BitVec 512) : Nat := dF d 42 2

/-- The body of a BIND or UNBIND keeps R216. -/
def bindOk (d : BitVec 512) : Bool :=
  dF d 17 1 == 0 && decide (kdImage d < 4) && dF d 19 21 == 0 && dF d 44 20 == 0 &&
  (if dOp d = 1 then decide (bdSrc d < 1024 ∧ bdDst d < 1024) else dF d 40 4 == 0)

/-- End a BIND refused at check 4 to 8 (R214, R227). -/
def State.bindFails (s : State) (cmd status : Nat) : State :=
  ((s.count 0 Reg.KN_BIND_FAIL_CNT 1).setRegB 0 Reg.KN_ERR_STAT 1 true).endCmd cmd status 0

/-- The node's X25519 private key and identity (R212, R336). -/
def State.deviceKey (s : State) : List Byte := (s.identity.getD []).drop 32

/-- Checks 1 to 3 of R214: the state and the status of the first that fails. -/
def State.bindHead (s : State) (c : Cmd) : State × Nat :=
  let d := c.desc
  let so := s.obj c.part (bdSrc d)
  let dO := s.obj c.part (bdDst d)
  if !bindOk d ∨ !objOk so ∨ objKind so ≠ 3 ∨ !objOk dO ∨ objKind dO ≠ 1 ∨ (s.image? c.part (kdImage d)).isSome ∨
      s.boundObj c.part (bdDst d) then (s, 0x0C)
  else if !s.mapped (objBase so) (objSize so) ∨ !s.mapped (objBase dO) (objSize dO) then (s.unmappedError, 0x0C)
  else if s.adrift then (s, 0x10)
  else if (s.ownCheck c.part (objBase so) (objSize so)).2 ≠ 0 then s.ownCheck c.part (objBase so) (objSize so)
  else if (s.ownCheck c.part (objBase dO) (objSize dO)).2 ≠ 0 then s.ownCheck c.part (objBase dO) (objSize dO)
  else if s.touchesRaw (objBase so) (objSize so) ∨ s.touchesRaw (objBase dO) (objSize dO) then (s, 0x0F)
  else (s, 0)

/-- Read the first `n` bytes of a source object: none when they hold an uncorrectable error (R128). -/
def State.bindRead (s : State) (a n : Nat) : Option (List Byte) × State :=
  let r := s.readFor a n
  (if s.hasUE a n then none else some r.1, r.2)

/-- Checks 8 of R214 and the binding: the ciphertext is read, decrypted and decoded. -/
def State.bindPayload (s : State) (c : Cmd) (img key : List Byte) : State :=
  let so := s.obj c.part (bdSrc c.desc)
  let dO := s.obj c.part (bdDst c.desc)
  match s.bindRead (objBase so + imCipherAt img) (imPayLen img) with
  | (none, s) => s.endCmd c.id 8 0
  | (some ct, s) =>
    match openPayload (img ++ ct) key with
    | none => (s.engineWrite c.part c.id (objBase dO) (List.replicate (objSize dO) 0)).bindFails c.id 0x04
    | some plain =>
      let s := (s.opens (objBase dO) plain.length).engineWrite c.part c.id (objBase dO) plain
      let m : Image := { part := c.part, slot := kdImage c.desc, obj := bdDst c.desc, unbinders := [], hdr := img.take 448 }
      (({ s with images := s.images ++ [m] }.showImages c.part).count 0 Reg.KN_BIND_CNT 1).endCmd c.id 0 0

/-- Checks 4 to 7 of R214 on the header, the device list and the signature, the only parts of the image that they read. -/
def State.bindImage (s : State) (c : Cmd) (n : Nat) (img : List Byte) : State :=
  if img.length < 512 ∨ !imageShapeOk img ∨ n < imCipherAt img + imPayLen img then s.bindFails c.id 0x0C
  else if !(chSignerKeys s.chart).contains (imSigner img) ∨
      !Config.edVerify (imSigner img) (Config.sha512 (img.take (imBody img))) (sliceB img (imBody img) 64) then
    s.bindFails c.id 0x04
  else match unwrapKey img s.deviceKey (Config.x25519Public s.deviceKey) with
    | none => s.bindFails c.id 0x04
    | some key =>
      if objSize (s.obj c.part (bdDst c.desc)) < imPlainLen img then s.bindFails c.id 0x0D else s.bindPayload c img key

/-- BIND (R214). A part of the source that a check reads and that holds an uncorrectable error ends it with UNCORRECTABLE
(R128). -/
def execBind (cmd : Nat) (s : State) : Host.Outcome State Fault Refusal :=
  .next (match s.starting? cmd 3 with
    | none => s
    | some c =>
      if dOp c.desc ≠ 1 ∨ !s.awake then s
      else
        let s := s.runCmd cmd
        match s.bindHead c with
        | (s, 0) =>
          let so := s.obj c.part (bdSrc c.desc)
          let n := objSize so
          match s.bindRead (objBase so) (min n 448) with
          | (none, s) => s.endCmd cmd 8 0
          | (some h, s) =>
            let more := min n (if imDevices h ≤ 256 then imCipherAt h else 448)
            match s.bindRead (objBase so) more with
            | (none, s) => s.endCmd cmd 8 0
            | (some img, s) => s.bindImage c n img
        | (s, e) => s.endCmd cmd e 0)

/-- UNBIND (R215): a free slot is done at once; a bound one waits for UNBIND_CLEAR. -/
def execUnbind (cmd : Nat) (s : State) : Host.Outcome State Fault Refusal :=
  .next (match s.starting? cmd 3 with
    | none => s
    | some c =>
      if dOp c.desc ≠ 2 ∨ !s.awake then s
      else
        let s := s.runCmd cmd
        if !bindOk c.desc then s.endCmd cmd 0x0C 0
        else if s.adrift then s.endCmd cmd 0x10 0
        else match s.image? c.part (kdImage c.desc) with
          | none => s.endCmd cmd 0 0
          | some _ => { s with images := s.images.map fun m =>
              if m.part = c.part ∧ m.slot = kdImage c.desc then { m with unbinders := m.unbinders ++ [cmd] } else m })

/-- Unbind a slot: its object is cleared to zero. -/
def State.unbindSlot (s : State) (m : Image) (cmd : Nat) : State :=
  let o := s.obj m.part m.obj
  let s := s.engineWrite m.part cmd (objBase o) (List.replicate (objSize o) 0)
  { s with images := s.images.filter fun x => !(x.part == m.part && x.slot == m.slot) }.showImages m.part

/-- UNBIND_CLEAR: no KINDLE on the slot executes. -/
def execUnbindClear (part slot : Nat) (s : State) : Host.Outcome State Fault Refusal :=
  .next (match s.image? part slot with
    | some m =>
      if m.unbinders.isEmpty ∨ s.kindles.any fun k => k.part == part && k.slot == slot && k.executing then s
      else m.unbinders.foldl (fun s cmd => s.endCmd cmd 0 0) (s.unbindSlot m (m.unbinders.headD 0))
    | none => s)

end Sys2Proof.Machine
end

