-- ==== Sys2Proof/Machine/Frame.lean ====
section
/-!
DEFINITION. Frames on the road ports: the port address table (R283), encapsulation (R284), the ORT header (R285, R286),
the frame rules (R282), and the answers to ARP and Neighbour Solicitations.
-/

namespace Sys2Proof.Machine

/-! The port address table (R283). -/

/-- The 48 bytes of a logical port. -/
def State.portEntry (s : State) (l : Nat) : List Byte := (List.range 48).map fun i => tget (fun _ => 0) s.ports (48 * l + i)

def paMac (e : List Byte) : List Byte := sliceB e 0 6
def paV4On (e : List Byte) : Bool := leAt e 6 1 % 2 == 1
def paV6On (e : List Byte) : Bool := leAt e 6 1 / 2 % 2 == 1
def paV4 (e : List Byte) : List Byte := sliceB e 8 4
def paV6 (e : List Byte) : List Byte := sliceB e 12 16
def paBcn (e : List Byte) : List Byte := sliceB e 28 6

/-! Checksums. -/

/-- Sum of the 16-bit big-endian words of a byte string, an odd last byte padded with zero. -/
def sum16 : List Byte → Nat
  | [] => 0
  | [a] => a.toNat * 256
  | a :: b :: t => a.toNat * 256 + b.toNat + sum16 t

/-- Ones' complement reduction to 16 bits. -/
def fold16 (n : Nat) : Nat :=
  let m := n % 65536 + n / 65536
  let k := m % 65536 + m / 65536
  k % 65536 + k / 65536

/-- The internet checksum. -/
def checksum (bs : List Byte) : Nat := 65535 - fold16 (sum16 bs)

/-- The pseudo header of an IP address pair, for a protocol and a length. -/
def pseudo (src dst : List Byte) (proto len : Nat) : List Byte :=
  src ++ dst ++ (if src.length = 4 then beBytes 2 proto ++ beBytes 2 len else beBytes 4 len ++ beBytes 4 proto)

/-- A UDP datagram with its checksum. -/
def udpBytes (src dst : List Byte) (sp dp : Nat) (body : List Byte) : List Byte :=
  let n := 8 + body.length
  let hdr (c : Nat) : List Byte := beBytes 2 sp ++ beBytes 2 dp ++ beBytes 2 n ++ beBytes 2 c
  let c := checksum (pseudo src dst 17 n ++ hdr 0 ++ body)
  hdr (if c = 0 then 65535 else c) ++ body

/-- An IPv4 packet (R284). -/
def ipv4Bytes (src dst : List Byte) (dscp proto : Nat) (body : List Byte) : List Byte :=
  let hdr (c : Nat) : List Byte := [0x45#8, BitVec.ofNat 8 (4 * dscp + 2)] ++ beBytes 2 (20 + body.length) ++ beBytes 2 0 ++
    beBytes 2 0x4000 ++ [64#8, BitVec.ofNat 8 proto] ++ beBytes 2 c ++ src ++ dst
  hdr (checksum (hdr 0)) ++ body

/-- An IPv6 packet (R284). -/
def ipv6Bytes (src dst : List Byte) (dscp flow proto hops : Nat) (body : List Byte) : List Byte :=
  beBytes 4 (6 * 2 ^ 28 + (4 * dscp + 2) * 2 ^ 20 + flow) ++ beBytes 2 body.length ++
  [BitVec.ofNat 8 proto, BitVec.ofNat 8 hops] ++ src ++ dst ++ body

/-- An Ethernet frame, without FCS, padded to 60 bytes; `tag` is the content of an 802.1Q tag. -/
def ethBytes (dst src : List Byte) (tag : Option Nat) (etype : Nat) (body : List Byte) : List Byte :=
  let f := dst ++ src ++ (match tag with | some t => beBytes 2 0x8100 ++ beBytes 2 t | none => []) ++ beBytes 2 etype ++ body
  f ++ List.replicate (60 - f.length) 0

/-- Encapsulate an ORT packet for a path (R284). The tag's priority is the path's PCP, in bits [15:13] of an 802.1Q tag. -/
def State.encap (s : State) (pt : List Byte) (tc : Nat) (ort : List Byte) : List Byte :=
  let e := s.portEntry (ptPort pt)
  let dscp := s.regF 0 Reg.RT_DSCP (8 * tc) 6
  let port := s.regF 0 Reg.RT_CFG 0 16
  let tag := if 0x8000 ≤ ptVlan pt then some (ptVlan pt / 0x1000 % 8 * 0x2000 + ptVlan pt % 0x1000) else none
  if ptIpv pt = 6 then
    ethBytes (ptHop pt) (paMac e) tag 0x86DD
      (ipv6Bytes (paV6 e) (ptIp pt) dscp (ptUdp pt) 17 64 (udpBytes (paV6 e) (ptIp pt) (ptUdp pt) port ort))
  else
    ethBytes (ptHop pt) (paMac e) tag 0x0800
      (ipv4Bytes (paV4 e) (ptIp pt) dscp 17 (udpBytes (paV4 e) (ptIp pt) (ptUdp pt) port ort))

/-! Frames received. -/

/-- An Ethernet frame taken apart. -/
structure Eth where
  dst : List Byte
  src : List Byte
  tag : Option Nat
  etype : Nat
  body : List Byte
  deriving DecidableEq, Repr

/-- Take an Ethernet frame apart: at most one tag. -/
def parseEth (f : List Byte) : Eth :=
  if beAt f 12 2 = 0x8100 then ⟨sliceB f 0 6, sliceB f 6 6, some (beAt f 14 2), beAt f 16 2, f.drop 18⟩
  else ⟨sliceB f 0 6, sliceB f 6 6, none, beAt f 12 2, f.drop 14⟩

/-- A UDP datagram received: the sender's address, the CE mark, and the payload. -/
structure Dgram where
  src : List Byte
  ce : Bool
  port : Nat
  body : List Byte
  deriving DecidableEq, Repr

/-- The UDP datagram in an IP packet of protocol 17, when its checks pass; a zero checksum is allowed over IPv4. -/
def parseUdp (src dst : List Byte) (ce : Bool) (udp : List Byte) : Option Dgram :=
  let n := beAt udp 4 2
  let u := udp.take n
  let c := beAt udp 6 2
  if n < 8 ∨ udp.length < n then none
  else if (c = 0 ∧ src.length = 4) ∨ (c ≠ 0 ∧ fold16 (sum16 (pseudo src dst 17 n ++ u)) = 65535) then
    some ⟨src, ce, beAt udp 2 2, u.drop 8⟩
  else none

/-- The datagram in a frame (R282). -/
def parseIp (e : Eth) : Option Dgram :=
  let b := e.body
  if e.etype = 0x0800 then
    let n := beAt b 2 2
    if leAt b 0 1 ≠ 0x45 ∨ beAt b 6 2 % 0x4000 ≠ 0 ∨ fold16 (sum16 (b.take 20)) ≠ 65535 ∨ leAt b 9 1 ≠ 17 ∨ n < 28 ∨
        b.length < n then none
    else parseUdp (sliceB b 12 4) (sliceB b 16 4) (leAt b 1 1 % 4 == 3) ((b.take n).drop 20)
  else if e.etype = 0x86DD then
    let n := beAt b 4 2
    if beAt b 0 2 / 4096 ≠ 6 ∨ leAt b 6 1 ≠ 17 ∨ b.length < 40 + n then none
    else parseUdp (sliceB b 8 16) (sliceB b 24 16) (beAt b 0 2 / 16 % 4 == 3) ((b.take (40 + n)).drop 40)
  else none

/-! The ORT header (R285). -/

/-- An ORT packet taken apart. -/
structure Ort where
  ver : Nat
  op : Nat
  tc : Nat
  path : Nat
  ackReq : Bool
  retx : Bool
  zero : Nat
  tenant : Nat
  conn : Nat
  psn : Nat
  msg : Nat
  msgLen : Nat
  waykey : Nat
  offset : Nat
  ext : List Byte
  payload : List Byte
  deriving DecidableEq, Repr

/-- Take the header, extension and payload of an ORT packet apart. -/
def parseOrt (b : List Byte) : Ort :=
  let op := leAt b 0 1 % 16
  { ver := leAt b 0 1 / 16, op := op, tc := leAt b 1 1 / 64, path := leAt b 1 1 % 64, ackReq := leAt b 2 1 / 128 == 1,
    retx := leAt b 2 1 / 64 % 2 == 1, zero := leAt b 2 1 % 64, tenant := beAt b 3 2, conn := beAt b 5 3,
    psn := beAt b 8 4, msg := beAt b 12 4, msgLen := beAt b 16 4, waykey := beAt b 20 4, offset := beAt b 24 6,
    ext := sliceB b 30 (extLen op), payload := b.drop (30 + extLen op) }

/-- An ORT header (R285). -/
def ortHeader (op tc path : Nat) (ackReq retx : Bool) (tenant conn psn msg msgLen waykey offset : Nat) : List Byte :=
  [BitVec.ofNat 8 (16 + op), BitVec.ofNat 8 (64 * tc + path),
   BitVec.ofNat 8 ((if ackReq then 128 else 0) + if retx then 64 else 0)] ++ beBytes 2 tenant ++ beBytes 3 conn ++
  beBytes 4 psn ++ beBytes 4 msg ++ beBytes 4 msgLen ++ beBytes 4 waykey ++ beBytes 6 offset

/-- The zero fields of an extension are zero (R293, R303, R311). -/
def extZeros (op : Nat) (x : List Byte) : Bool :=
  match op with
  | 2 => zerosAt x 4 4
  | 8 => decide (1 ≤ ctSub x ∧ ctSub x ≤ 7) && zerosAt x 3 1 && zerosAt x 7 1 && zerosAt x 17 3 && zerosAt x 36 28 &&
      (ctSub x == 3 || zerosAt x 1 1)
  | 9 => leAt x 1 1 / 4 % 4 == 0 && zerosAt x 2 2 && zerosAt x 6 2 && zerosAt x 26 6
  | _ => true

/-- Check 2 of R300, on the bytes of the UDP payload. -/
def ortOk (b : List Byte) : Bool :=
  let o := parseOrt b
  decide (30 + extLen o.op ≤ b.length) && o.ver == 1 && decide (1 ≤ o.op ∧ o.op ≤ 10) && o.tc == opTc o.op &&
  o.zero == 0 && (o.op == 10) == (o.tenant == 0) && (o.op != 10 || o.conn == 0) &&
  (numbered o.op o.ext || o.psn == 0) && (o.op == 1 || o.op == 2 || o.waykey == 0) &&
  ((o.op != 2 && decide (o.op ≤ 6)) || (o.payload.isEmpty && o.msgLen == 0)) && extZeros o.op o.ext

/-- Check 1 of R300: the frame rules of R282 for a UDP datagram. -/
def State.frameDgram (s : State) (l : Nat) (f : List Byte) (fcsOk : Bool) : Option Dgram :=
  let e := parseEth f
  let pe := s.portEntry l
  if !fcsOk ∨ f.length + 4 < 64 ∨ 9216 < f.length + 4 then none
  else match parseIp e with
    | none => none
    | some d =>
      let beacon := (parseOrt d.body).op == 10
      if d.port ≠ s.regF 0 Reg.RT_CFG 0 16 then none
      else if e.dst = paMac pe ∨ (beacon ∧ e.dst = paBcn pe) then some d
      else none

/-! ARP and Neighbour Solicitation (R282). -/

/-- The answer to an ARP request for the port's IPv4 address. -/
def arpReply (pe : List Byte) (e : Eth) : Option (List Byte) :=
  let b := e.body
  if e.etype = 0x0806 ∧ (e.dst = paMac pe ∨ e.dst = List.replicate 6 0xFF#8) ∧ paV4On pe ∧ beAt b 0 2 = 1 ∧
      beAt b 2 2 = 0x0800 ∧ beAt b 4 2 = 0x0604 ∧ beAt b 6 2 = 1 ∧ sliceB b 24 4 = paV4 pe then
    some (ethBytes (sliceB b 8 6) (paMac pe) e.tag 0x0806
      (beBytes 2 1 ++ beBytes 2 0x0800 ++ beBytes 2 0x0604 ++ beBytes 2 2 ++ paMac pe ++ paV4 pe ++ sliceB b 8 6 ++
        sliceB b 14 4))
  else none

/-- The answer to a Neighbour Solicitation for the port's IPv6 address: a solicited advertisement with the port's
MAC. -/
def ndReply (pe : List Byte) (e : Eth) : Option (List Byte) :=
  let b := e.body
  let n := beAt b 4 2
  let icmp := (b.take (40 + n)).drop 40
  let src := sliceB b 8 16
  if e.etype = 0x86DD ∧ e.dst = paMac pe ∧ paV6On pe ∧ beAt b 0 2 / 4096 = 6 ∧ leAt b 6 1 = 58 ∧ leAt b 7 1 = 255 ∧
      24 ≤ n ∧ 40 + n ≤ b.length ∧ beAt icmp 0 2 = 135 * 256 ∧ sliceB icmp 8 16 = paV6 pe ∧
      fold16 (sum16 (pseudo src (sliceB b 24 16) 58 n ++ icmp)) = 65535 then
    let body (c : Nat) : List Byte := [136#8, 0#8] ++ beBytes 2 c ++ [0x60#8, 0#8, 0#8, 0#8] ++ paV6 pe ++ [2#8, 1#8] ++
      paMac pe
    let c := checksum (pseudo (paV6 pe) src 58 32 ++ body 0)
    some (ethBytes e.src (paMac pe) e.tag 0x86DD (ipv6Bytes (paV6 pe) src 0 0 58 255 (body c)))
  else none

/-- A frame of the node's own may start on a port (R326): in an IDLE milestone of a SLOTTED port. -/
def State.ownFrameOk (s : State) (l bytes : Nat) : Bool :=
  !s.slotted l || (s.portOwner l s.ms == 0x7F &&
    decide (s.ns + ceilDiv (bytes + 24) (if s.portMode (l / 2) = 0 then 200 else 100) ≤ 2048 * s.slotLeft l s.ms))

/-- The table of a port has an IDLE entry in force (R326). -/
def State.hasIdle (s : State) (l : Nat) : Bool := (List.range s.portFrame).any fun n => s.portOwner l n == 0x7F

/-- A frame of a partition leaves a port: it is charged to the shaper, metered and marked (R317, R332, R353). -/
def State.leaves (s : State) (p l tc bytes ready : Nat) : State :=
  let s := s.charge p l bytes
  let m := s.meter p
  let s := s.setMeter p { m with txBytes := m.txBytes + bytes }
  s.hwm (vfOf p) (Reg.SHP_QAGE_HWM_TC + 4 * tc) (s.ft.now.toNat - ready)

/-- A frame of no connection may start now: one of a partition with tokens and in its slot, like any held CTRL packet
(R318), the node's own in an IDLE milestone of a SLOTTED port (R326). -/
def State.mayReply (s : State) (r : Reply) : Bool :=
  match r.part with
  | some p => s.tokensOk p r.lport && s.slotOk p r.lport r.bytes
  | none => s.ownFrameOk r.lport r.bytes

/-- A frame of no connection starts. -/
def State.sendReply (s : State) (r : Reply) : State :=
  let s := match r.part with
    | some p => s.leaves p r.lport 0 r.bytes r.ready
    | none => s
  (s.wake (.port r.lport)).emit r.out

/-- Answer with a frame of no connection, now or when its port lets it. A port without an IDLE entry never sends one of
the node's own (R326). -/
def State.reply (s : State) (r : Reply) : State :=
  if s.mayReply r then s.sendReply r
  else if r.part.isNone ∧ !s.hasIdle r.lport then s
  else
    let s := match r.part with
      | some p => if !s.tokensOk p r.lport then s.count (vfOf p) Reg.SHP_HELD_CNT 1
          else s.count (vfOf p) Reg.SHP_SLOT_WAIT_CNT 1
      | none => s
    { s with replies := s.replies ++ [r] }.wake (.port r.lport)

/-- Frames of no connection that their ports let go at a boundary, in order. -/
def State.repliesOut (s : State) : State :=
  s.replies.foldl (fun (s : State) (r : Reply) =>
    if s.mayReply r then { s with replies := eraseFirst (· == r) s.replies }.sendReply r else s) s

/-- Answer an ARP request or Neighbour Solicitation, or discard the frame (R282, R326). -/
def State.arpIn (s : State) (l : Nat) (f : List Byte) : State :=
  let pe := s.portEntry l
  let e := parseEth f
  match (match arpReply pe e with | some r => some r | none => ndReply pe e) with
  | some r => s.reply ⟨none, l, r.length, s.ft.now.toNat, .frame l r⟩
  | none => s.count 0 Reg.RT_RX_DISC_CNT 1

/-- ARP_SOLICIT. -/
def execArpSolicit (lport : Nat) (frame : List Byte) (s : State) : Host.Outcome State Fault Refusal :=
  .next (if s.portUp lport then s.arpIn lport frame else s)

end Sys2Proof.Machine
end

