-- ==== Sys2Proof/Machine/Conns.lean ====
section
/-!
DEFINITION. The connection table: entries and grants (R290, R291, R343), states (R292), the CTRL exchange (R293 to
R295), failure (R296, R388), and the connection window (R448).
-/

namespace Sys2Proof.Machine

/-! Fields of a connection entry (R290). -/

def ceNode (e : List Byte) : Nat := leAt e 0 2
def ceRole (e : List Byte) : Nat := leAt e 2 1
def cePay (e : List Byte) : Nat := leAt e 3 1
def cePaths (e : List Byte) : Nat := leAt e 4 1
def ceTc1 (e : List Byte) : Nat := leAt e 8 4
def ceTc3 (e : List Byte) : Nat := leAt e 12 4
def ceInq (e : List Byte) (k : Nat) : Nat := leAt e 16 3 / 16 ^ k % 16

/-- Descriptors of all inbound queues of an entry. -/
def ceDescs (e : List Byte) : Nat := ((List.range 6).map fun k => 2 ^ ceInq e k).sum

/-- The paths in use. -/
def Conn.used? (c : Conn) : List (List Byte) := c.paths.take (cePaths c.entry)

/-- Depth of the inbound queue of an engine. -/
def Conn.depth (c : Conn) (e : Nat) : Nat := 2 ^ ceInq c.entry e

/-- The function's selected entry (R315). -/
def State.connSel (s : State) (fn : Nat) : Nat := s.regF fn Reg.RT_CONN_SEL 0 13

/-- The grants of an entry fit the node's pools and the partition's shares (check 3 of R291, R343). -/
def State.grantsOk (s : State) (p i : Nat) (e : List Byte) : Bool :=
  let all := (s.grants i).map fun x => x.2.entry
  let mine := ((s.grants i).filter fun x => x.2.owner == some p).map fun x => x.2.entry
  let v := s.entryVal p
  let fits (f : List Byte → Nat) (pool share : Nat) : Bool :=
    decide ((all.map f).sum + f e ≤ pool ∧ (mine.map f).sum + f e ≤ share)
  fits ceEmber 65536 (recField v 36 4) && fits ceTc1 131072 (recField v 40 4) && fits ceTc3 131072 (recField v 44 4) &&
  fits ceDescs 262144 (recField v 48 4) && decide (mine.length + 1 ≤ recField v 52 2) &&
  (s.emberGap p i (ceEmber e)).isSome

/-- A path entry keeps R290, and an enabled one names a logical port that exists and a family it has. -/
def State.pathOk (s : State) (pt : List Byte) : Bool :=
  leAt pt 0 1 / 16 % 8 == 0 && zerosAt pt 12 4 && (ptIpv pt == 6 || zerosAt pt 20 12) &&
  (!ptOn pt || (s.lportExists (ptPort pt) &&
    ((ptIpv pt == 4 && paV4On (s.portEntry (ptPort pt))) || (ptIpv pt == 6 && paV6On (s.portEntry (ptPort pt))))))

/-- The checks of OPEN (R291): 0 when all pass. -/
def State.openCheck (s : State) (p i : Nat) : Nat :=
  let c := s.conn i
  let e := c.entry
  if cePaths e = 0 ∨ 3 < cePay e ∨ 1 < ceRole e ∨
      !(List.range 6).all (fun k => decide (4 ≤ ceInq e k ∧ ceInq e k ≤ 10)) ∨ !zerosAt e 5 1 ∨ !zerosAt e 19 45 ∨
      !c.used?.all s.pathOk then 0x0C
  else if 64 < cePaths e then 0x03
  else if !s.grantsOk p i e then 0x0D
  else 0

/-- The partition owns an entry in force of the port's slot table, or the port is SHARED (R325, R330). -/
def State.hasSlot (s : State) (p l : Nat) : Bool :=
  !s.slotted l || (List.range s.portFrame).any fun n => s.portOwner l n == p

/-- A path can carry packets: enabled, its port's link up, with a slot. -/
def State.pathUsable (s : State) (p : Nat) (pt : List Byte) : Bool :=
  ptOn pt && s.portUp (ptPort pt) && s.hasSlot p (ptPort pt)

/-- W_p within its bounds (R298). -/
def State.clampWin (s : State) (P w : Nat) : Nat := max P (min w (s.regF 0 Reg.RT_CC 16 16 * 1024))

/-- Fresh path states. -/
def State.freshPaths (s : State) (p : Nat) (c : Conn) : List PathSt :=
  c.used?.map fun pt =>
    { up := s.pathUsable p pt, win := s.clampWin c.P (s.regF 0 Reg.RT_CC 8 8 * 4096), inflight := 0, timeouts := 0,
      probes := 0, usedAt := s.ms, probedAt := s.ms, cutAt := none }

/-- An entry with its transport at its start: PSNs and message numbers 0 in each direction (R292). -/
def State.freshConn (s : State) (c : Conn) (st : ConnSt) : Conn :=
  { connNone with owner := c.owner, entry := c.entry, paths := c.paths, gen := c.gen, st := st, reason := c.reason,
                  since := s.ms, emberBase := c.emberBase, pcode := cePay c.entry, rxAt := s.ms,
                  live := s.freshPaths (c.owner.getD 0) { c with pcode := cePay c.entry } }

/-- The CTRL extension of a connection (R293); TIME is filled in at transmission. -/
def State.ctrlExt (s : State) (i sub reason : Nat) : List Byte :=
  let c := s.conn i
  let e := c.entry
  beBytes 1 sub ++ beBytes 1 reason ++ beBytes 1 (cePay e) ++ beBytes 1 0 ++ beBytes 3 (connId i c.gen) ++ beBytes 1 0 ++
  beBytes 2 s.nodeId ++ beBytes 2 c.emberBase ++ beBytes 2 (ceEmber e) ++ beBytes 3 (leAt e 16 3) ++ beBytes 3 0 ++
  beBytes 4 (ceTc1 e) ++ beBytes 4 (ceTc3 e) ++ beBytes 8 0 ++ beBytes 28 0

/-- Queue a CTRL packet, on a given path when one is named. -/
def State.sendCtrl (s : State) (i sub reason : Nat) (via : Option Nat) : State :=
  let s := s.sendMsg i 8 0 0 0 (s.ctrlExt i sub reason) [] .nobody none
  let c := s.conn i
  s.setConn i { c with tx := c.tx.mapIdx fun k m => if k + 1 = c.tx.length then { m with via := via } else m }

/-- Queue an ACK, unless one waits already (R304). -/
def State.sendAck (s : State) (i : Nat) : State :=
  if (s.conn i).tx.any fun m => m.op == 7 then s else s.sendMsg i 7 0 0 0 [] [] .nobody none

/-! Failure and the return to IDLE. -/

/-- A twin is lost: TWIN is cleared (R384). -/
def State.twinLost (s : State) (k : DirKey) : State :=
  (s.setDir k fun d => match d.own? with
    | some o => { d.writeOwn (setF o 48 16 0) with twin := none }
    | none => { d with twin := none }).setRegB 0 Reg.FX_ERR_STAT 2 true

/-- A spare loses its owner before END: every unit still awaiting copy becomes dropped (R388). -/
def State.ownerLost (s : State) (p : Nat) : State :=
  match s.rebuilds.find? fun r => r.1 == p && r.2.mode == 2 with
  | none => s
  | some (_, r) =>
    { s with
      dir := s.dir.map fun d => if d.key.part = p ∧ d.key.seq = r.seq then
          (if r.limits.any (fun l => l.1 == d.key.layer) then
            { d with dropped := d.dropped ++ r.left.filter fun t => !d.dropped.contains t } else d) else d
      rebuilds := s.rebuilds.map fun x => if x = (p, r) then (p, { r with mode := 3, left := [] }) else x }

/-- What waits on a connection ends with it (R296): commands with TIMEOUT, a KINDLE with an internal request among the
messages not acknowledged with them, unacknowledged embers as embers that could not be sent, forwards as a lost twin, and
inbound descriptors, taken or not, that have not started without effect, with the LINK that they carried (R269). -/
def State.abandon (s : State) (i : Nat) : State :=
  let c := s.conn i
  let embers := c.tx.filterMap fun m => match m.owner with | .ember id => some id | _ => none
  let reqs := ((s.sent.filter fun e => e.conn == some i && embers.contains e.id).map Sent.req).dedup
  let hauls := s.hauls.filter fun h => (h.reads ++ h.writes).any fun m => m.conn == i
  let fwd := s.forwards.filter fun f => f.conn == i
  let kindles := c.tx.filterMap fun m => match m.owner with | .kindle k => some k | _ => none
  let waits (d : Cmd) : Bool := d.conn? == some i && d.gen == c.gen &&
    (d.phase == .waiting || match d.phase with | .linked _ => true | _ => false)
  let keys := (List.range 6).map fun e => queueKey (.inbound i e)
  let s : State := { s with
    inq := s.inq.filter fun d => d.conn != i
    cmds := s.cmds.filter fun d => !waits d
    links := s.links.filter fun l => !keys.contains l.1
    turns := s.turns.filter fun k => !keys.contains k
    forwards := s.forwards.filter fun f => f.conn != i
    recv := s.recv.map fun r => if r.conn = some i then { r with units := 0 } else r }
  let s := s.endKindles (fun k => kindles.contains k.cmd) 0x0B
  let s := hauls.foldl (fun (s : State) (h : Haul) => s.endHaul h 0x0B) s
  let s := reqs.foldl (fun (s : State) (q : Nat) => s.failReq q 3 6 none) s
  let s := fwd.foldl (fun (s : State) (f : Forward) => s.twinLost f.key) s
  match s.rebuilds.find? fun r => r.2.conn == some i with
  | some r => if r.2.mode = 2 then s.ownerLost r.1
      else { s with rebuilds := s.rebuilds.map fun x => if x = r then (x.1, { x.2 with mode := 3 }) else x }
  | none => s

/-- A connection enters FAILED (R296). -/
def State.connFail (s : State) (i reason : Nat) : State :=
  let s := s.abandon i
  let c := s.conn i
  let s := s.setConn i { s.freshConn { c with reason := reason } .failed with
    peerNode := c.peerNode, peerConn := c.peerConn }
  s.count 0 Reg.RT_CONN_FAIL_CNT 1

/-- An entry returns to IDLE: its grants return, and its generation rises (R290, R291). -/
def State.connIdle (s : State) (i reason : Nat) : State :=
  let s := s.abandon i
  let c := s.conn i
  s.setConn i { connNone with owner := c.owner, entry := c.entry, paths := c.paths, gen := (c.gen + 1) % 2048,
                              reason := reason }

/-! Opening. -/

/-- An entry becomes OPEN with what the other end's CONNECT or ACCEPT grants. -/
def State.connOpened (s : State) (i : Nat) (x : List Byte) : State :=
  let c := s.conn i
  let c := s.freshConn c .opened
  let c := { c with
    peerConn := beAt x 4 3, peerNode := beAt x 8 2, pcode := min (cePay c.entry) (leAt x 2 1), peerEmberBase := beAt x 10 2
    peerEmberUnits := beAt x 12 2, peerInq := beAt x 14 3, peerTc1 := beAt x 20 4, peerTc3 := beAt x 24 4 }
  s.setConn i { c with live := s.freshPaths (c.owner.getD 0) c }

/-- RT_CONN_CTL.OPEN (R291, R330). -/
def State.openConn (s : State) (fn : Nat) : State :=
  let i := s.connSel fn
  let c := s.conn i
  if fn = 0 ∨ !s.fnServed fn ∨ c.owner ≠ some (fn - 1) ∨ c.st ≠ .idle then s.unserved fn
  else
    let e := s.openCheck (fn - 1) i
    if e ≠ 0 then s.setConn i { c with reason := e }
    else
      let c := { c with emberBase := (s.emberGap (fn - 1) i (ceEmber c.entry)).getD 0 }
      let s := if c.used?.any fun pt => ptOn pt && !s.hasSlot (fn - 1) (ptPort pt) then
          s.setRegB 0 Reg.SHP_ERR_STAT 2 true else s
      if ceRole c.entry = 1 then s.setConn i (s.freshConn c .listen)
      else
        let s := s.setConn i { s.freshConn c .connecting with attempts := 1 }
        s.sendCtrl i 1 0 (some 0)

/-- CONN_OPEN. -/
def execConnOpen (fn : Nat) (s : State) : Host.Outcome State Fault Refusal := .next (s.openConn fn)

/-- CONNECT_RETRY (R292): the `i`-th CONNECT goes on path `i` mod PATHS, every 16 milestones. One that has found no link
until then is not sent any more. -/
def execConnectRetry (conn : Nat) (s : State) : Host.Outcome State Fault Refusal :=
  let c := s.conn conn
  .next (if c.st = .connecting ∧ c.since + 16 * c.attempts ≤ s.ms then
      (s.setConn conn { c with attempts := c.attempts + 1, tx := [] }).sendCtrl conn 1 0
        (some (c.attempts % max 1 (cePaths c.entry)))
    else s)

/-- CONNECT_TIMEOUT (R292). -/
def execConnectTimeout (conn : Nat) (s : State) : Host.Outcome State Fault Refusal :=
  let c := s.conn conn
  .next (if c.st = .connecting ∧ c.since + 4096 ≤ s.ms then s.connIdle conn 0x0B else s)

/-- CLOSING_TIMEOUT (R292). -/
def execClosingTimeout (conn : Nat) (s : State) : Host.Outcome State Fault Refusal :=
  let c := s.conn conn
  .next (if c.st = .closing ∧ c.since + 4096 ≤ s.ms then s.connFail conn 0x0B else s)

/-! Handshake packets received (R292, R294). -/

/-- Where a CONNECT came from: its logical port, and the bytes of its frame. -/
structure Arrival where
  lport : Nat
  bytes : Nat
  deriving DecidableEq, Repr

/-- A REJECT that answers a CONNECT matched by no entry, on the port it came by. It is a held CTRL packet of the partition
of the tenant (R317, R318); without one it is a frame of the node's own. Its frame is as long as the CONNECT's (log entry
20). -/
def State.rejectPacket (s : State) (a : Arrival) (tenant : Nat) (x : List Byte) (reason : Nat) : State :=
  let ext := beBytes 1 3 ++ beBytes 1 reason ++ beBytes 6 0 ++ beBytes 2 s.nodeId ++ beBytes 18 0 ++
    beBytes 8 s.ft.now.toNat ++ beBytes 28 0
  s.reply ⟨s.listed.find? fun p => s.tenant p == tenant, a.lport, a.bytes, s.ft.now.toNat,
    .answer (ortHeader 8 0 0 false false tenant (beAt x 4 3) 0 0 0 0 0 ++ ext)⟩

/-- An entry matches a CONNECT. -/
def State.listens (s : State) (tenant : Nat) (x : List Byte) (c : Conn) : Bool :=
  c.st == .listen && (ceNode c.entry == 0xFFFF || ceNode c.entry == beAt x 8 2) &&
  (match c.owner with | some p => s.tenant p == tenant | none => false)

/-- CONNECT (R294, R360). -/
def State.connectIn (s : State) (a : Arrival) (tenant : Nat) (x : List Byte) : State :=
  if s.life = .held then s.rejectPacket a tenant x 0x0F
  else match s.conns.find? fun e => e.2.st == .opened && ceRole e.2.entry == 1 && e.2.peerConn == beAt x 4 3 &&
      e.2.peerNode == beAt x 8 2 && (match e.2.owner with | some p => s.tenant p == tenant | none => false) with
    | some e => s.sendCtrl e.1 2 0 none
    | none => match s.conns.find? fun e => s.listens tenant x e.2 with
      | none => s.rejectPacket a tenant x 0x04
      | some (i, c) =>
        if !s.grantsOk (c.owner.getD 0) i c.entry then s.rejectPacket a tenant x 0x0D
        else (s.connOpened i x).sendCtrl i 2 0 none

/-- CONNECT. The command does not name the port and frame that brought the packet: they are free values (log entry 20). -/
def execConnect (tenant : Nat) (ext : List Byte) (s : State) : Host.Outcome State Fault Refusal :=
  .next (s.drawn.drawn.connectIn ⟨(s.fresh 4).toNat, (s.drawn.fresh 14).toNat⟩ tenant ext)

/-- An ACCEPT moves a CONNECTING entry to OPEN. -/
def State.acceptIn (s : State) (i : Nat) (x : List Byte) : State :=
  if (s.conn i).st = .connecting then s.connOpened i x else s

/-- ACCEPT. -/
def execAccept (conn : Nat) (ext : List Byte) (s : State) : Host.Outcome State Fault Refusal := .next (s.acceptIn conn ext)

/-- A REJECT returns a CONNECTING entry to IDLE with its REASON. -/
def State.rejectIn (s : State) (i : Nat) (x : List Byte) : State :=
  if (s.conn i).st = .connecting then s.connIdle i (leAt x 1 1) else s

/-- REJECT. -/
def execReject (conn : Nat) (ext : List Byte) (s : State) : Host.Outcome State Fault Refusal := .next (s.rejectIn conn ext)

/-! Closing (R295). -/

/-- Every message that the connection has sent is acknowledged. -/
def Conn.sentAll (c : Conn) : Bool := c.tx.all (fun m => m.tc == 0) && c.pkts.all fun k => k.tc == 0

/-- Every descriptor taken from the inbound queues has completed, and its record is acknowledged (R295). -/
def State.drained (s : State) (i : Nat) : Bool :=
  let c := s.conn i
  !s.cmds.any (fun d => d.conn? == some i && d.gen == c.gen) && !c.tx.any (fun m => m.op == 6) &&
  !c.pkts.any fun k => k.op == 6

/-- What a CLOSING connection now sends, and its return to IDLE once CLOSE_ACKs are exchanged. -/
def State.closeStep (s : State) (i : Nat) : State :=
  let c := s.conn i
  if c.st ≠ .closing then s
  else
    let s := if !c.closeSent ∧ c.sentAll then (s.setConn i { c with closeSent := true }).sendCtrl i 4 0 none else s
    let c := s.conn i
    let s := if c.closeGot ∧ !c.ackSent ∧ s.drained i then (s.setConn i { c with ackSent := true }).sendCtrl i 5 0 none
      else s
    let c := s.conn i
    if c.ackSent ∧ c.ackGot ∧ !c.tx.any (fun m => m.op == 8 && ctSub m.ext == 5) then s.connIdle i c.reason else s

/-- An OPEN connection begins to close. -/
def State.closing (s : State) (i : Nat) : State :=
  let c := s.conn i
  if c.st = .opened then s.setConn i { c with st := .closing, since := s.ms } else s

/-- A peer CLOSE. -/
def State.closeIn (s : State) (i : Nat) : State :=
  let s := s.closing i
  let c := s.conn i
  if c.st = .closing then (s.setConn i { c with closeGot := true }).closeStep i else s

/-- CTRL_CLOSE. -/
def execCtrlClose (conn : Nat) (s : State) : Host.Outcome State Fault Refusal := .next (s.closeIn conn)

/-- A CLOSE_ACK. -/
def State.closeAckIn (s : State) (i : Nat) : State :=
  let c := s.conn i
  if c.st = .closing ∧ c.closeSent then (s.setConn i { c with ackGot := true }).closeStep i else s

/-- CLOSE_ACK. -/
def execCloseAck (conn : Nat) (s : State) : Host.Outcome State Fault Refusal := .next (s.closeAckIn conn)

/-- RT_CONN_CTL.CLOSE (R292). -/
def State.closeConn (s : State) (fn : Nat) : State :=
  let i := s.connSel fn
  let c := s.conn i
  if fn = 0 ∨ !s.fnServed fn ∨ c.owner ≠ some (fn - 1) then s.unserved fn
  else match c.st with
    | .listen => s.connIdle i c.reason
    | .connecting => s.connIdle i c.reason
    | .failed => s.connIdle i c.reason
    | .opened => (s.closing i).closeStep i
    | .idle => s
    | .closing => s

/-- CONN_CLOSE. -/
def execConnClose (fn : Nat) (s : State) : Host.Outcome State Fault Refusal := .next (s.closeConn fn)

/-! The connection window (R446, R448). -/

/-- Bytes of the window: the entry and its 64 paths. -/
def Conn.window (c : Conn) : List Byte :=
  sliceB c.entry 0 64 ++ (List.range 64).flatMap fun k => sliceB (c.paths.getD k []) 0 32

/-- Entries that a partition has claimed. -/
def State.claims (s : State) (p : Nat) : Nat := (s.conns.filter fun e => e.2.owner == some p).length

/-- A write to the connection window at offset `off` of it. -/
def State.connWindow (s : State) (fn off : Nat) (bs : List Byte) : State :=
  let p := fn - 1
  let i := s.connSel fn
  let c := s.conn i
  if fn = 0 ∨ !s.fnServed fn ∨ 0x840 < off + bs.length then s.unserved fn
  else if (c.owner.isSome ∧ c.owner ≠ some p) ∨ (c.owner.isNone ∧ recField (s.entryVal p) 52 2 < s.claims p + 1) ∨
      c.st ≠ .idle then s.setRegB fn Reg.RT_CONN_STAT 28 true
  else
    let w := patch c.window off bs
    s.setConn i { c with owner := some p, entry := w.take 64, paths := cutRows 32 64 (w.drop 64) }

/-- CONN_WINDOW_WRITE. -/
def execConnWindowWrite (fn off : Nat) (data : List Byte) (s : State) : Host.Outcome State Fault Refusal :=
  .next (s.connWindow fn off data)

end Sys2Proof.Machine
end

