-- ==== Sys2Proof/Machine/Waykeys.lean ====
section
/-!
DEFINITION. Waykeys (R307 to R310): the table, creation, revocation and its two ends, and the placing of a peer's
bytes (R301).
-/

namespace Sys2Proof.Machine

/-! Fields of an entry (R307). -/

def wkBase (v : BitVec 256) : Nat := getF v 208 48
def wkLen (v : BitVec 256) : Nat := getF v 160 48
def wkConn (v : BitVec 256) : Nat := getF v 136 24
def wkWrite (v : BitVec 256) : Bool := getB v 135
def wkRead (v : BitVec 256) : Bool := getB v 134
def wkPart (v : BitVec 256) : Nat := getF v 128 6
def wkKey (v : BitVec 256) : Nat := getF v 96 32
def wkState (v : BitVec 256) : Nat := getF v 94 2
def wkMs (v : BitVec 256) : Nat := getF v 0 53

/-- The pair of an entry. -/
def State.waykey (s : State) (i : Nat) : Pair 256 := tget (fun _ => pairOf 0) s.waykeys i

/-- Store the pair of an entry. -/
def State.setWaykey (s : State) (i : Nat) (v : Pair 256) : State :=
  { s with waykeys := tput (fun _ => pairOf 0) s.waykeys i v }

/-- The packets and reads that count for a key (R310 step 2): packets past the tollgate, and READ_REQs whose data is
not read. -/
def State.wkInflight (s : State) (i : Nat) : Nat :=
  (s.conns.map fun e =>
    (e.2.placing.filter fun k => (k.op == 1 || k.op == 2) && k.waykey % 65536 == i).length +
    (e.2.rx.filter fun m => m.op == 2 && !m.failed && m.waykey % 65536 == i).length).sum

/-- The whole range lies in one tier that a waykey may name (R309). -/
def wkTier (a n : Nat) : Bool :=
  match tierOf a with
  | some .far => false
  | some t => inTier t a n
  | none => false

/-- The value in RT_WK_W0–7 of a function. -/
def State.wkWords (s : State) (fn : Nat) : BitVec 256 :=
  (List.range 8).foldl (fun v k => setF v (32 * k) 32 (s.reg fn (Reg.RT_WK_W + 4 * k)).toNat) 0

/-- CREATE is refused with BAD (R309). -/
def State.wkBad (s : State) (p : Nat) (v : BitVec 256) : Bool :=
  let a := wkBase v
  let n := wkLen v
  getF v 53 41 != 0 || a % 256 != 0 || n == 0 || n % 256 != 0 || !wkTier a n || !s.mapped a n || !s.owned p a n ||
  s.inArena a n || s.inImage a n || inReserved a n

/-- Entries of a partition that are OPEN or CLOSING (R343). -/
def State.wkOwn (s : State) (p : Nat) : Nat :=
  (s.waykeys.filter fun e => (wkState e.2.val == 1 || wkState e.2.val == 2) && wkPart e.2.val == p).length

/-- Milestone at which the revocation of an entry completed. -/
def State.wkDone (s : State) (i : Nat) : Option Nat :=
  match s.wkLive.find? fun l => l.index == i with
  | some l => l.completed
  | none => none

/-- The lowest FREE entry from `i` on, among `n`. -/
def State.wkFree (s : State) : Nat → Nat → Option Nat
  | 0, _ => none
  | n + 1, i => if (s.waykey i).ok && wkState (s.waykey i).val == 0 then some i else s.wkFree n (i + 1)

/-- The run of the table that a partition's share makes up: first entry, and entries (R338, R354; log entry 21). -/
def State.wkRun (s : State) (p : Nat) : Nat × Nat := let r := s.shareRun p 54 2; (16 * r.1, 16 * r.2)

/-- The entry of a partition's run whose revocation completed longest ago, at least 1,024 milestones ago. -/
def State.wkOldest (s : State) (p : Nat) : Option Nat :=
  let run := s.wkRun p
  let old := s.wkLive.filterMap fun l => match l.completed with
    | some m => if run.1 ≤ l.index ∧ l.index < run.1 + run.2 ∧ m + 1024 ≤ s.ms ∧ wkState (s.waykey l.index).val = 3 then some (m, l.index) else none
    | none => none
  (old.foldl (fun (best : Option (Nat × Nat)) (x : Nat × Nat) => match best with
    | some b => if x.1 < b.1 ∨ (x.1 = b.1 ∧ x.2 < b.2) then some x else best
    | none => some x) none).map (·.2)

/-- The entry that CREATE takes, of the partition's run (R309). A FREE entry of it exists unless all are listed. -/
def State.wkTake (s : State) (p : Nat) : Option Nat :=
  match s.wkFree (min (s.wkRun p).2 (s.waykeys.length + 1)) (s.wkRun p).1 with
  | some i => some i
  | none => s.wkOldest p

/-- Load a value into RT_WK_W0–7. -/
def State.wkLoad (s : State) (fn : Nat) (v : BitVec 256) : State := s.loadWords fn Reg.RT_WK_W 8 v.toNat

/-- RT_WK_CTL.CREATE (R309, R343). -/
def State.wkCreate (s : State) (fn : Nat) : State :=
  let p := fn - 1
  let v := s.wkWords fn
  if fn = 0 ∨ !s.fnServed fn then s.unserved fn
  else if s.wkBad p v then s.setRegB fn Reg.RT_WK_STAT 2 true
  else if 16 * recField (s.entryVal p) 54 2 ≤ s.wkOwn p then s.setRegB fn Reg.RT_WK_STAT 3 true
  else match s.wkTake p with
    | none => s.setRegB fn Reg.RT_WK_STAT 3 true
    | some i =>
      let key := (s.fresh 16).toNat * 65536 + i
      let e := setF (setF (setF (setF v 128 6 p) 96 32 key) 94 2 1) 0 53 0
      let s : State := { s.drawn with
        wkLive := s.wkLive.filter fun l => l.index != i
        suspects := s.suspects.filter fun (x : Suspect) => x.what != RecRef.waykey i }
      ((s.setWaykey i (pairOf e)).wkLoad fn e).setReg fn Reg.RT_WK_SEL (BitVec.ofNat 32 i)

/-- WAYKEY_CREATE. -/
def execWaykeyCreate (fn : Nat) (s : State) : Host.Outcome State Fault Refusal := .next (s.wkCreate fn)

/-- Step 3 of R310: the entry is REVOKED, and the waymark signalled. -/
def State.wkRevoked (s : State) (i : Nat) : State :=
  let v := s.waykey i
  let wm := match s.wkLive.find? fun l => l.index == i with | some l => l.wm | none => none
  let s := s.setWaykey i (pairOf (setF v.val 94 2 3))
  let s := { s with wkLive := (s.wkLive.filter fun l => l.index != i) ++ [⟨i, some s.ms, none⟩] }
  match wm with
  | some w => s.signal (wkPart v.val) w false
  | none => s

/-- The entry is CLOSING, by a valid pair. -/
def State.wkClosing (s : State) (i : Nat) : Bool := (s.waykey i).ok && wkState (s.waykey i).val == 2

/-- Revocation completes at the first instant at which the count is 0 (R310). -/
def State.wkSettle (s : State) (i : Nat) : State :=
  if s.wkClosing i && s.wkInflight i == 0 then s.wkRevoked i else s

/-- Every revocation whose count is 0 completes. -/
def State.wkSettleAll (s : State) : State :=
  ((s.waykeys.filter fun e => wkState e.2.val == 2).map (·.1)).foldl State.wkSettle s

/-- RT_WK_CTL.REVOKE (R310). A pair that is not valid is counted (R65), and nothing in it is acted on. -/
def State.wkRevoke (s : State) (fn : Nat) (v : Word) : State :=
  let i := s.regF fn Reg.RT_WK_SEL 0 16
  let e := s.waykey i
  if fn = 0 ∨ !s.fnServed fn then s.unserved fn
  else if !e.ok then (s.cplFault (.waykey i)).setRegB fn Reg.RT_WK_STAT 2 true
  else if wkState e.val ≠ 1 ∨ wkPart e.val ≠ fn - 1 then s.setRegB fn Reg.RT_WK_STAT 2 true
  else
    let s := s.setWaykey i (pairOf (setF (setF e.val 94 2 2) 0 53 s.ms))
    let wm := if getB v 28 then some (getF v 16 12) else none
    let s : State := { s with wkLive := (s.wkLive.filter fun (l : WkLive) => l.index != i) ++ [⟨i, none, wm⟩] }
    s.wkSettle i

/-- WAYKEY_REVOKE. -/
def execWaykeyRevoke (fn : Nat) (v : Word) (s : State) : Host.Outcome State Fault Refusal := .next (s.wkRevoke fn v)

/-- RT_WK_CTL.READ (R65, R315): an entry that is FREE or another partition's is refused. -/
def State.wkReadOut (s : State) (fn : Nat) : State :=
  let i := s.regF fn Reg.RT_WK_SEL 0 16
  let e := s.waykey i
  if fn = 0 ∨ !s.fnServed fn then s.unserved fn
  else if !e.ok then ((s.cplFault (.waykey i)).setRegB fn Reg.RT_WK_STAT 1 true).wkLoad fn (BitVec.allOnes 256)
  else if wkState e.val = 0 ∨ wkPart e.val ≠ fn - 1 then (s.setRegB fn Reg.RT_WK_STAT 2 true).wkLoad fn 0
  else s.wkLoad fn e.val

/-- WAYKEY_READ. -/
def execWaykeyRead (fn : Nat) (s : State) : Host.Outcome State Fault Refusal := .next (s.wkReadOut fn)

/-- RT_WK_CTL: a write with more than one of its three bits set does nothing (R315). -/
def State.wkControl (s : State) (fn : Nat) (v : Word) : State :=
  match getF v 0 3 with
  | 1 => s.wkCreate fn
  | 2 => s.wkReadOut fn
  | 4 => s.wkRevoke fn v
  | _ => s

/-- REVOCATION_COMPLETE. -/
def execRevocationComplete (key : Nat) (s : State) : Host.Outcome State Fault Refusal := .next (s.wkSettle key)

/-! Placing bytes (R125, R127, R301). -/

/-- Cut `[a, a + n)` at multiples of `k`. -/
def cutsBy (k a n : Nat) : List (Nat × Nat) :=
  if n = 0 then [] else
  (List.range ((a + n - 1) / k - a / k + 1)).map fun i =>
    let x := max a ((a / k + i) * k)
    (x, min (a + n) ((a / k + i + 1) * k) - x)

/-- Each 64-byte granule of an abandoned packet is left unchanged or is wholly written (R310 step 4): a free value
decides (log entry 1). -/
def State.abandonedWrite (s : State) (part cmd a : Nat) (bs : List Byte) : State :=
  (cutsBy 64 a bs.length).foldl (fun (s : State) (x : Nat × Nat) =>
    if s.fresh 1 = 1 then s.drawn.codedWrite part cmd x.1 ((bs.drop (x.1 - a)).take x.2) else s.drawn) s

/-- Bytes that a reader outside the node gets: free bytes where an uncorrectable error stands (R128; log entry 1). -/
def State.readOut (s : State) (a n : Nat) : List Byte × State :=
  if s.hasUE a n then
    let s' := s.scanned a n
    ((List.range n).map fun j => if s.hasUE (a + j) 1 then Config.freeValue 8 (s.draws + j) else s.byte (a + j),
     { s' with draws := s'.draws + n })
  else (s.bytes a n, s.scanned a n)

end Sys2Proof.Machine
end

