-- ==== Sys2Proof/Machine/Rebuild.lean ====
section
/-!
DEFINITION. The sending side of a rebuild (R385): the images an owner sends to a spare, one after another.
-/

namespace Sys2Proof.Machine

/-- Bytes whose values the manual leaves open (log entry 1). -/
def State.freeBytes (s : State) (n : Nat) : List Byte × State :=
  ((List.range n).map fun i => Config.freeValue 8 (s.draws + i), { s with draws := s.draws + n })

/-- Rank of a page in a unit image: layer, KV head, page. -/
def imageKey (x : Slot) : List Nat := [x.layer, x.kv, x.firstPos]

/-- Insert a slot by rank. -/
def insertSlot (x : Slot) : List Slot → List Slot
  | [] => [x]
  | y :: t => if lexLt (imageKey x) (imageKey y) then x :: y :: t else y :: insertSlot x t

/-- The layers of a sequence that the node holds the lease of. -/
def State.heldLayers (s : State) (p seq : Nat) : List Dir :=
  (s.layersOf p seq).filter fun d => s.holdsLease d && match d.val? with | some v => deState v == 1 | none => false

/-- Page slots of a unit, in the order of its image. -/
def State.unitImage (s : State) (p seq span : Nat) : List Slot :=
  let ls := (s.heldLayers p seq).map fun d => d.key.layer
  (s.slots.filter fun x => x.part == p && x.seq == seq && x.firstPos / 1024 == span && x.use == .live &&
    ls.contains x.layer).foldr insertSlot []

/-- Send an image as WRITE messages of at most 32 MiB from the start of the spare's region (R297, R385). -/
def State.sendImage (s : State) (p i key : Nat) (bs : List Byte) : State :=
  (cutRows 33554432 (ceilDiv bs.length 33554432) bs).zipIdx.foldl (fun (s : State) (x : List Byte × Nat) =>
    s.sendMsg i 1 key (33554432 * x.2) x.1.length [] x.1 (.rebuild p) none) s

/-- The bytes of a unit image after its header. -/
def State.unitBytes (s : State) : List Slot → List Byte × State
  | [] => ([], s)
  | x :: t =>
    let (a, s) := s.readOut x.addr x.size
    let (b, s) := s.unitBytes t
    (a ++ b, s)

/-- Change the record of a rebuild that sends. -/
def State.setSender (s : State) (p : Nat) (f : Rebuild → Rebuild) : State :=
  { s with rebuilds := s.rebuilds.map fun r => if r.1 = p ∧ r.2.mode = 1 then (p, f r.2) else r }

/-- The next image of a rebuild, once the one before it is acknowledged: the units, then END. -/
def State.rebuildNext (s : State) (p : Nat) : State :=
  if s.life = .held then s
  else match s.rebuilds.find? fun r => r.1 == p && r.2.mode == 1 with
  | none => s
  | some (_, r) => match r.conn with
    | none => s
    | some i =>
      if (s.conn i).tx.any fun m => m.owner == .rebuild p then s
      else
        let key := (s.reg (vfOf p) Reg.FX_RB_KEY).toNat
        let s := s.setSender p fun r => { r with units := r.units + r.again.length, again := [] }
        match r.left with
        | t :: rest =>
          let s := s.setSender p fun r => { r with left := rest, again := [t] }
          let (h, s) := s.freeBytes 64
          let (b, s) := s.unitBytes (s.unitImage p r.seq t)
          s.sendImage p i key (h ++ b)
        | [] =>
          if r.done then s.setSender p fun r => { r with mode := 0 }
          else
            let (h, s) := (s.setSender p fun r => { r with done := true }).freeBytes 64
            s.sendImage p i key h

/-- The units of a sequence in the order of sending: the tail first, then ascending. -/
def State.rebuildUnits (s : State) (p seq : Nat) : List Nat :=
  let ls := (s.heldLayers p seq).map fun d => d.key.layer
  let us := sortNat ((s.slots.filter fun x => x.part == p && x.seq == seq && x.use == .live && ls.contains x.layer).map
    fun x => x.firstPos / 1024)
  match us.getLast? with
  | some t => t :: us.dropLast
  | none => []

/-- FX_RB_CTL.START (R385): TWIN names the spare in every held layer, and forwarding starts. -/
def State.rebuildStart (s : State) (fn : Nat) : State :=
  let p := fn - 1
  let seq := s.reg64 fn Reg.FX_LEASE_SEQ_LO Reg.FX_LEASE_SEQ_HI
  let node := s.regF fn Reg.FX_RB_CFG 0 16
  let held := s.heldLayers p seq
  if fn = 0 ∨ !s.fnServed fn then s.unserved fn
  else if !s.awake ∨ s.life = .held ∨ held.isEmpty ∨
      s.rebuilds.any (fun r => r.1 == p && (r.2.mode == 1 || r.2.mode == 2)) then s
  else match s.connTo p node with
    | none => s
    | some i =>
      let r : Rebuild := { mode := 1, done := false, unitFail := false, units := 0, seq := seq,
                           left := s.rebuildUnits p seq, again := [], limits := [], conn := some i }
      let s : State := { s with
        rebuilds := (p, r) :: s.rebuilds.filter fun r => r.1 != p || (r.2.mode != 1 && !r.2.left.isEmpty)
        dir := s.dir.map fun d => if held.contains d then
          (match d.own? with
           | some o => { d.writeOwn (setF o 48 16 node) with twin := some i }
           | none => d) else d }
      let (h, s) := s.freeBytes (64 + 8 * held.length)
      s.sendImage p i (s.reg fn Reg.FX_RB_KEY).toNat h

/-- REBUILD_START. -/
def execRebuildStart (fn : Nat) (s : State) : Host.Outcome State Fault Refusal := .next (s.rebuildStart fn)

/-- FX_RB_CTL.ABORT: no further image is sent. -/
def State.rebuildAbort (s : State) (fn : Nat) : State :=
  if fn = 0 ∨ !s.fnServed fn then s.unserved fn
  else s.setSender (fn - 1) fun r => { r with mode := 0, left := [], again := [] }

/-- REBUILD_ABORT. -/
def execRebuildAbort (fn : Nat) (s : State) : Host.Outcome State Fault Refusal := .next (s.rebuildAbort fn)

end Sys2Proof.Machine
end

