-- ==== Sys2Proof/Machine/Tx.lean ====
section
/-!
DEFINITION. Sending (R288, R289, R297 to R299, R303 to R306, R317, R318, R325, R332): which packet may start, what its
start does, acknowledgements, retransmission and the health of paths.
-/

namespace Sys2Proof.Machine

/-! Building packets. -/

/-- The ORT packet as it leaves on a path (R285, R286, R305). A CONNECT carries CONN 0 (R293). -/
def State.ortBytes (s : State) (i p : Nat) (k : NextPkt) : List Byte :=
  let c := s.conn i
  let t := s.tenant (c.owner.getD 0)
  let ext := s.extNow i k
  match k.lost, k.msg with
  | some l, _ => ortHeader l.op l.tc p true true t c.peerConn l.psn l.msg l.msgLen l.waykey l.offset ++ ext ++ k.payload
  | none, some m =>
    ortHeader m.op m.tc p false false t (if isConnect m.op ext then 0 else c.peerConn)
      (if k.numbered then c.nextPsn else 0) m.num m.len m.waykey (m.base + m.cut) ++ ext ++ k.payload
  | none, none => []

/-- The frame of the packet on a path. -/
def State.frameOf (s : State) (i p : Nat) (k : NextPkt) : List Byte :=
  s.encap ((s.conn i).entryOf p) (opTc k.op) (s.ortBytes i p k)

/-! What may start (R288, R318, R325, R326). -/

/-- The packet at the head of a class queue: its connection, class, path and port, and its bytes. -/
structure Lead where
  conn : Nat
  tc : Nat
  pkt : NextPkt
  path : Nat
  port : Nat
  bytes : Nat
  deriving DecidableEq, Repr

/-- The one that became ready first, the first on ties. -/
def firstReady : List Lead → Option Lead
  | [] => none
  | x :: t => match firstReady t with
    | some y => if y.pkt.ready < x.pkt.ready then some y else some x
    | none => some x

/-- The head of a class queue of a partition, of held packets or of exempt ones: a held packet holds those of its class and
partition behind it, on every connection, and an exempt one starts whatever is held (R318; log entry 59). -/
def State.lead (s : State) (p tc : Nat) (ex : Bool) : Option Lead :=
  firstReady ((s.conns.filter fun e => e.2.owner == some p).filterMap fun e =>
    (s.headPath e.1 tc ex).map fun x => ⟨e.1, tc, x.1, x.2, e.2.port x.2, e.2.frameLen x.2 x.1⟩)

/-- Tokens of the partition on the port allow the packet (R318). -/
def State.tokensFor (s : State) (p : Nat) (x : Lead) : Bool := x.pkt.exempt || s.tokensOk p x.port

/-- The slot of the port allows the packet (R326). -/
def State.slotFor (s : State) (p : Nat) (x : Lead) : Bool := s.slotOk p x.port x.bytes

/-- The heads of a class of a partition that may start now on a port. -/
def State.starts (s : State) (p tc l : Nat) : List Lead :=
  ([true, false].filterMap fun ex => s.lead p tc ex).filter fun x => x.port == l && s.tokensFor p x && s.slotFor p x

/-- What a partition sends first on a port: TC0, then TC2 (R288). -/
def State.urgent (s : State) (p l : Nat) : Option Lead :=
  match firstReady (s.starts p 0 l) with
  | some x => some x
  | none => firstReady (s.starts p 2 l)

/-- The deficit of a queue. -/
def Drr.deficit (d : Drr) (k : Nat) : Nat := tget (fun _ => 0) d.left k

/-- Deficit round-robin over the queues that have a packet, in rising number: number, bytes of the head, quantum. The queue
whose turn it is sends while its deficit lasts; the next in turn then gets its quantum. A queue that has no packet keeps
no deficit. -/
def drrPick : Nat → List (Nat × Nat × Nat) → Drr → Option (Nat × Drr)
  | 0, _, _ => none
  | n + 1, qs, d =>
    let d : Drr := { d with left := d.left.filter fun e => qs.any fun q => q.1 == e.1 }
    match qs.find? (fun q => q.1 == d.turn && decide (q.2.1 ≤ d.deficit q.1)) with
    | some (k, bytes, _) => some (k, { d with left := tput (fun _ => 0) d.left k (d.deficit k - bytes) })
    | none =>
      match (match qs.find? fun q => decide (d.turn < q.1) with | some q => some q | none => qs.head?) with
      | some (k, _, quantum) =>
        drrPick n qs { turn := k, left := tput (fun _ => 0) d.left k (d.deficit k + quantum) }
      | none => none

/-- The deficits of a port, or of a partition on it, at key `65 * port + partition`. -/
def State.drr (s : State) (k : Nat) : Drr := tget (fun _ => ⟨0, []⟩) s.drrs k

/-- Store deficits. -/
def State.setDrr (s : State) (k : Nat) (d : Drr) : State := { s with drrs := tput (fun _ => ⟨0, []⟩) s.drrs k d }

/-- What a partition sends next of TC1 and TC3 on a port, by deficit round-robin with a quantum of P each (R288). -/
def State.bulk (s : State) (p l : Nat) : Option (Lead × Drr) :=
  let xs := [1, 3].flatMap fun tc => s.starts p tc l
  match drrPick 64 (xs.map fun x => (x.tc, x.bytes, (s.conn x.conn).P)) (s.drr (65 * l + p)) with
  | some (tc, d) => (xs.find? fun x => x.tc == tc).map fun x => (x, d)
  | none => none

/-- Partitions that own connections, in rising number. -/
def State.senders (s : State) : List Nat :=
  (List.range 64).filter fun p => s.conns.any fun e => e.2.owner == some p

/-- The packet that a port starts next, with the deficits as its start leaves them: first TC0 and TC2 of every partition in
the order in which they became ready, then TC1 and TC3 by deficit round-robin over the partitions, with a quantum of 9,216
bytes (R325). On a SLOTTED port one partition alone has packets that may start, and no deficit of the port counts (R327).
-/
def State.pick (s : State) (l : Nat) : Option (Lead × State) :=
  match firstReady (s.senders.filterMap fun p => s.urgent p l) with
  | some x => some (x, s)
  | none =>
    let bs := s.senders.filterMap fun p => (s.bulk p l).map fun b => (p, b)
    let chosen (p : Nat) (s : State) : Option (Lead × State) :=
      (bs.find? fun b => b.1 == p).map fun b => (b.2.1, s.setDrr (65 * l + p) b.2.2)
    if s.slotted l then (match bs with | b :: _ => chosen b.1 s | [] => none)
    else match drrPick 256 (bs.map fun b => (b.1, b.2.1.bytes, 9216)) (s.drr (65 * l + 64)) with
      | some (p, d) => chosen p (s.setDrr (65 * l + 64) d)
      | none => none

/-- Packets wait to be sent on a port (R36). -/
def State.portQueued (s : State) (l : Nat) : Bool :=
  s.replies.any (fun r => r.lport == l) ||
  s.senders.any fun p => (List.range 4).any fun tc =>
    ([true, false].filterMap fun ex => s.lead p tc ex).any fun x => x.port == l

/-! The start of a packet. -/

/-- The last byte of an ember leaves (R31). -/
def State.emberLeft (s : State) (k : NextPkt) : State :=
  match k.msg with
  | some m => match m.owner with
    | .ember id =>
      if m.op = 5 ∧ m.len ≠ 64 ∧ m.data.length ≤ m.cut + k.payload.length then
        { s with sent := s.sent.map fun e => if e.id = id ∧ e.left = notLeft then { e with left := s.ms } else e }
      else s
    | _ => s
  | none => s

/-- A packet starts: it is charged to the shaper, metered and marked (R317, R332, R353). A CLOSING connection may end with
it (R295). -/
def State.startPkt (s : State) (x : Lead) : State :=
  let i := x.conn
  let k := x.pkt
  let c := s.conn i
  let f := s.frameOf i x.path k
  let s' := s.setConn i { s.started i x.path k with
    waitTok := c.waitTok.filter fun t => t != k.key
    waitSlot := c.waitSlot.filter fun t => t != k.key }
  let s' := (s'.emberLeft k).leaves (c.owner.getD 0) x.port x.tc f.length k.ready
  let s' := if k.lost.isSome then s'.count 0 Reg.RT_RETX_CNT 1 else s'
  let s' := (s'.wake (.port x.port)).emit (.frame x.port f)
  if x.tc = 0 then s'.closeStep i else s'

/-- A head packet waits for tokens, and is counted once. -/
def State.waitsTokens (s : State) (x : Lead) : State :=
  let c := s.conn x.conn
  if c.waitTok.contains x.pkt.key then s
  else (s.setConn x.conn { c with waitTok := x.pkt.key :: c.waitTok }).count (vfOf (c.owner.getD 0)) Reg.SHP_HELD_CNT 1

/-- A head packet waits for a slot boundary, and is counted once. -/
def State.waitsSlot (s : State) (x : Lead) : State :=
  let c := s.conn x.conn
  if c.waitSlot.contains x.pkt.key then s
  else (s.setConn x.conn { c with waitSlot := x.pkt.key :: c.waitSlot }).count (vfOf (c.owner.getD 0))
    Reg.SHP_SLOT_WAIT_CNT 1

/-- A head packet that may not start is counted with those that wait for tokens, or for a slot. -/
def State.waits (s : State) (x : Lead) : State :=
  let p := (s.conn x.conn).owner.getD 0
  if !s.tokensFor p x then s.waitsTokens x else if !s.slotFor p x then s.waitsSlot x else s

/-- The heads of a class queue that are packets of a connection. -/
def State.leadsOf (s : State) (i tc : Nat) : List Lead :=
  match (s.conn i).owner with
  | some p => ([true, false].filterMap fun ex => s.lead p tc ex).filter fun x => x.conn == i
  | none => []

/-- PACKET_TRANSMIT: the head packet of a class of a connection starts, if it is the one that its port sends next. -/
def execPacketTransmit (conn tc : Nat) (s : State) : Host.Outcome State Fault Refusal :=
  let xs := s.leadsOf conn tc
  .next (match xs.findSome? fun x => match s.pick x.port with
      | some (y, s') => if y = x then some (s'.startPkt x) else none
      | none => none with
    | some t => t
    | none => xs.foldl State.waits s)

/-! Acknowledgements received (R298, R303, R305). -/

/-- The number near `base` that a 32-bit field shows: none lies below zero. -/
def unwrap32 (base x : Nat) : Nat :=
  let d := (x + 2 ^ 32 - base % 2 ^ 32) % 2 ^ 32
  if d < 2 ^ 31 ∨ base + d < 2 ^ 32 then base + d else base + d - 2 ^ 32

/-- The ACK says that a PSN is received. -/
def ackSays (ext : List Byte) (cum psn : Nat) : Bool :=
  decide (psn < cum) || (decide (cum < psn ∧ psn ≤ cum + 1024) &&
    getB (BitVec.ofNat 8 (leAt ext (4 + (psn - cum - 1) / 8) 1)) (7 - (psn - cum - 1) % 8))

/-- W_p after an ACK that newly acknowledges `b` bytes on it, marked or clean (R298). -/
def State.ackWindow (s : State) (P : Nat) (ce : Bool) (b : Nat) (x : PathSt) : PathSt :=
  let x := { x with timeouts := 0 }
  if ce then
    if x.cutAt = some s.ms then x
    else { x with win := s.clampWin P (x.win - x.win / 2 ^ max 1 (s.regF 0 Reg.RT_CC 0 4)), cutAt := some s.ms }
  else { x with win := s.clampWin P (x.win + ceilDiv (b * P) (max 1 x.win)) }

/-- Losses that the acknowledged packets show (R305): a packet is lost when REORDER sent after it on its path are
acknowledged. -/
def State.reorder (s : State) (acked : List TxPkt) (k : TxPkt) : TxPkt :=
  if k.lost then k
  else
    let n := k.passed + (acked.filter fun a => a.path == k.path && decide (k.order < a.order)).length
    if max 1 (s.regF 0 Reg.RT_TIMER 0 8) ≤ n then { k with passed := n, lost := true, ready := s.ft.now.toNat }
    else { k with passed := n }

/-- Bytes in flight on a path, as packets sent and neither acknowledged nor lost. -/
def inflightOf (ks : List TxPkt) (p : Nat) : Nat :=
  ((ks.filter fun k => k.path == p && !k.lost).map fun k => ortLen k.op k.data).sum

/-- The return totals that an ACK brings; an older ACK brings nothing. -/
def Conn.returned (c : Conn) (ext : List Byte) : Conn :=
  let new := (List.range 4).map fun t =>
    let x := unwrap32 (c.peerRet.getD t 0) (beAt ext (144 + 4 * t) 4)
    max x (c.peerRet.getD t 0)
  { c with peerRet := new, emberRes := freeUnits (new.getD 2 0 - c.peerRet.getD 2 0) c.emberRes }

/-- A message is acknowledged: by FRONTIER, or, outside it, by all its packets (R302). -/
def Conn.msgDone (c : Conn) (m : TxMsg) : Bool :=
  if m.tc = 0 then false
  else if m.op = 3 ∨ m.tc = 2 then
    (m.isCut || m.failed) && !c.pkts.any fun k => k.tc == m.tc && k.op == m.op && k.msg == m.num
  else decide (m.num < c.peerFrontier)

/-- Messages that are acknowledged leave; a HAUL's WRITEs are then done (R302). -/
def State.txSettle (s : State) (i : Nat) : State :=
  let c := s.conn i
  let done := c.tx.filter c.msgDone
  let s := s.setConn i { c with tx := c.tx.filter fun m => !c.msgDone m }
  done.foldl (fun (s : State) (m : TxMsg) => match m.owner with
    | .haul cmd => if m.op = 1 then s.haulWritten cmd i m.num else s
    | .rebuild p => s.rebuildNext p
    | _ => s) s

/-- An ACK (R303). -/
def State.ackIn (s : State) (i : Nat) (ext : List Byte) : State :=
  let c := s.conn i
  if c.st ≠ .opened ∧ c.st ≠ .closing then s
  else
    let cum := unwrap32 c.lowPsn (beAt ext 0 4)
    let acked := if c.nextPsn < cum then [] else c.pkts.filter fun k => ackSays ext cum k.psn
    let rest := (c.pkts.filter fun k => !acked.any fun a => a.psn == k.psn).map (s.reorder acked)
    let ce := beAt ext 136 8
    let live := c.live.mapIdx fun p x =>
      let b := ((acked.filter fun k => k.path == p).map fun k => ortLen k.op k.data).sum
      let x := if b = 0 then x else s.ackWindow c.P (ce.testBit p) b x
      { x with inflight := inflightOf rest p }
    let fr := unwrap32 c.peerFrontier (beAt ext 132 4)
    let c := { c.returned ext with
      pkts := rest
      live := live
      peerFrontier := if fr ≤ c.nextMsg then max fr c.peerFrontier else c.peerFrontier }
    (((List.range 4).foldl (fun (s : State) t => s.enqueued i t) ((s.setConn i c).txSettle i))).closeStep i

/-- ACK. -/
def execAck (conn : Nat) (ext : List Byte) (s : State) : Host.Outcome State Fault Refusal := .next (s.ackIn conn ext)

/-- ACK_DELAY_EXPIRE (R304). -/
def execAckDelayExpire (conn : Nat) (s : State) : Host.Outcome State Fault Refusal :=
  let c := s.conn conn
  .next (if (c.st = .opened ∨ c.st = .closing) ∧ c.unacked ≠ 0 then s.sendAck conn else s)

/-! Timers (R305, R306). -/

/-- A path becomes DOWN. -/
def PathSt.down (x : PathSt) (ms : Nat) : PathSt := { x with up := false, timeouts := 0, probes := 0, probedAt := ms }

/-- A packet's RTO expires (R305). With no path UP, a lost packet counts the expiry as a retransmission (log entry 25).
-/
def State.rtoExpire (s : State) (i psn : Nat) : State :=
  let c := s.conn i
  match c.pkts.find? fun k => k.psn == psn with
  | none => s
  | some k =>
    if (c.st ≠ .opened ∧ c.st ≠ .closing) ∨ s.ft.now.toNat < k.sentAt + 2048 * k.rto ∨
        (k.lost ∧ !(s.upPaths i).isEmpty) then s
    else if s.regF 0 Reg.RT_TIMER 24 8 ≤ k.retx then s.connFail i 0x0B
    else if k.lost then
      s.setConn i { c with pkts := c.pkts.map fun x => if x.psn = psn then
        { x with retx := x.retx + 1, rto := min 64 (2 * x.rto), sentAt := s.ft.now.toNat } else x }
    else
      let pkts := c.pkts.map fun x => if x.psn = psn then { x with lost := true, ready := s.ft.now.toNat } else x
      let c := { c.setPath k.path (fun x =>
        let x := { x with timeouts := x.timeouts + 1, inflight := inflightOf pkts k.path }
        if 3 ≤ x.timeouts then x.down s.ms else x) with pkts := pkts }
      (s.setConn i c).enqueued i k.tc

/-- RTO_EXPIRE. -/
def execRtoExpire (conn psn : Nat) (s : State) : Host.Outcome State Fault Refusal := .next (s.rtoExpire conn psn)

/-- A PROBE leaves on a path. -/
def State.sendProbe (s : State) (i p : Nat) : State :=
  let c := s.conn i
  (s.setConn i (c.setPath p fun x => { x with probes := x.probes + 1, probedAt := s.ms })).sendCtrl i 6 0 (some p)

/-- The path is one of an OPEN or CLOSING connection, and enabled. -/
def Conn.hasPath (c : Conn) (p : Nat) : Bool :=
  (c.st == .opened || c.st == .closing) && decide (p < c.live.length) && ptOn (c.entryOf p)

/-- PROBE_TIMER: every 16 milestones on a DOWN path whose port can carry it. -/
def execProbeTimer (conn path : Nat) (s : State) : Host.Outcome State Fault Refusal :=
  let c := s.conn conn
  .next (if c.hasPath path ∧ !(c.path path).up ∧ s.pathUsable (c.owner.getD 0) (c.entryOf path) ∧
        (c.path path).probedAt + 16 ≤ s.ms then s.sendProbe conn path
    else s)

/-- KEEPALIVE_EXPIRE: an idle UP path is probed; after three PROBEs without an answer it is DOWN. -/
def execKeepaliveExpire (conn path : Nat) (s : State) : Host.Outcome State Fault Refusal :=
  let c := s.conn conn
  let x := c.path path
  let t := max 1 (s.regF 0 Reg.RT_LIVE 0 16)
  .next (if !c.hasPath path ∨ !x.up ∨ s.ms < x.usedAt + t ∨ s.ms < x.probedAt + t then s
    else if 3 ≤ x.probes then s.setConn conn (c.setPath path fun x => x.down s.ms)
    else s.sendProbe conn path)

/-- DEAD_TIME_EXPIRE. -/
def execDeadTimeExpire (conn : Nat) (s : State) : Host.Outcome State Fault Refusal :=
  let c := s.conn conn
  .next (if (c.st = .opened ∨ c.st = .closing) ∧ c.rxAt + max 64 (s.regF 0 Reg.RT_LIVE 16 16) ≤ s.ms then
      s.connFail conn 0x0B
    else s)

end Sys2Proof.Machine
end

