-- ==== Sys2Proof/Machine/Rx.lean ====
section
/-!
DEFINITION. Receiving (R300 to R304, R308, R311, R312, R314): the tollgate, placement, visibility, and what each kind of
packet does.
-/

namespace Sys2Proof.Machine

/-! Numbers received (R303). -/

/-- Advance CUM_PSN over the PSNs received. -/
def advanceCum : Nat → Nat → List Nat → Nat × List Nat
  | 0, cum, got => (cum, got)
  | n + 1, cum, got => if got.contains cum then advanceCum n (cum + 1) (got.filter (· != cum)) else (cum, got)

/-- A PSN is received. -/
def Conn.mark (c : Conn) (psn : Nat) : Conn :=
  if psn < c.cumPsn ∨ c.cumPsn + 1025 ≤ psn ∨ c.got.contains psn then c
  else
    let r := advanceCum (c.got.length + 1) c.cumPsn (psn :: c.got)
    { c with cumPsn := r.1, got := r.2 }

/-- The PSN has been received. -/
def Conn.hasPsn (c : Conn) (psn : Nat) : Bool := decide (psn < c.cumPsn) || c.got.contains psn

/-- A numbered packet is to be acknowledged: at once for ACKREQ, or after 16 (R304). -/
def State.ackDue (s : State) (i : Nat) (now : Bool) : State :=
  let c := s.conn i
  let n := c.unacked + 1
  let s := s.setConn i { c with unacked := n }
  if now ∨ 16 ≤ n then s.sendAck i else s

/-- A packet is received and will be acknowledged. -/
def State.received (s : State) (i psn : Nat) (o : Ort) : State :=
  if numbered o.op o.ext then (s.setConn i ((s.conn i).mark psn)).ackDue i o.ackReq else s

/-! Messages (R302). -/

/-- The message number that a packet shows: TC1 and TC3 messages of the peer count from FRONTIER, a READ_RESP carries a
number of this end. -/
def Conn.msgOf (c : Conn) (o : Ort) : Nat :=
  if o.op = 3 then unwrap32 c.nextMsg o.msg
  else if o.op = 1 ∨ o.op = 2 ∨ o.op = 4 then unwrap32 c.frontier o.msg else o.msg

/-- TC1 and TC3 messages that FRONTIER counts. -/
def framed (op : Nat) : Bool := op == 1 || op == 2 || op == 4

/-- Distinct bytes received of a message (R302). -/
def RxMsg.bytes (m : RxMsg) : Nat := partBytes 0 m.parts

/-- The message is complete, or completed as failed. -/
def RxMsg.complete (m : RxMsg) : Bool := m.failed || (!m.parts.isEmpty && decide (m.len ≤ m.bytes))

/-- Offset of the first byte of a message, at its target. -/
def RxMsg.base (m : RxMsg) : Nat := match m.parts with | p :: _ => p.1 | [] => 0

/-- Payload bytes of a message, in order. -/
def RxMsg.whole (m : RxMsg) : List Byte := joinParts m.base m.parts

/-- Add a placed packet to a list of messages. -/
def addPart (ms : List RxMsg) (k : Placing) (cmd : Nat) : List RxMsg :=
  if ms.any fun m => m.num == k.msg then
    ms.map fun m => if m.num = k.msg then
      { m with parts := insertPart (k.offset, k.data) m.parts, psn := if m.parts.all fun p => k.offset < p.1 then k.psn else m.psn }
      else m
  else ms ++ [{ num := k.msg, op := k.op, tc := opTc k.op, len := k.msgLen, waykey := k.waykey, ext := k.ext,
                parts := [(k.offset, k.data)], failed := false, cmd := cmd, psn := k.psn }]

/-! Command messages (R259, R260). -/

/-- The preamble of a command message keeps R259. -/
def preambleOk (b : List Byte) : Bool :=
  zerosAt b 2 2 && zerosAt b 8 8 && decide (1 ≤ cmdCount b ∧ cmdCount b ≤ 16 ∧ leAt b 1 1 < 6 ∧ 16 ≤ b.length) &&
  16 + 64 * cmdCount b + leAt b 4 4 == b.length

/-- Descriptors of a message whose preamble is bad. -/
def badCount (b : List Byte) : Nat :=
  if b.length < 80 ∨ cmdCount b = 0 then 0 else min (min (cmdCount b) 16) ((b.length - 16) / 64)

/-- Descriptor `k` of a command message. -/
def descAt (b : List Byte) (k : Nat) : BitVec 512 := BitVec.ofNat 512 (leAt b (16 + 64 * k) 64)

/-- Descriptors that occupy the inbound queue of an engine (R260). -/
def State.occupied (s : State) (i e : Nat) : Nat :=
  (s.inq.filter fun d => d.conn == i && d.eng == e).length +
  (s.cmds.filter fun c => c.q == .inbound i e && s.ofNow c).length

/-- Complete the descriptors of a message without taking them. -/
def State.refuseDescs (s : State) (i : Nat) (m : RxMsg) (b : List Byte) (n eng status : Nat) : State :=
  let c := s.conn i
  let units := ceilDiv m.len 256
  let s := s.setConn i { c with
    cmdLeft := c.cmdLeft ++ [(m.num, units, n)]
    inUse := listSet c.inUse 1 (c.inUse.getD 1 0 + units) }
  (List.range n).foldl (fun (s : State) (k : Nat) =>
    s.remoteRecord i c.gen m.num k status eng 0 (c.owner.getD 0)
      (s.unbegun eng (c.owner.getD 0) (descAt b k)).toNat (dUserTag (descAt b k)) (dTag eng (descAt b k)).toNat 0) s

/-- A command message becomes visible. One beyond the staging units granted, or beyond the queue's depth, completes by R260
(R289). -/
def State.cmdVisible (s : State) (i : Nat) (m : RxMsg) : State :=
  let b := m.whole
  let c := s.conn i
  let p := c.owner.getD 0
  let eng := cmdEngine b
  let n := cmdCount b
  let units := ceilDiv m.len 256
  if !preambleOk b then
    if badCount b = 0 then
      (s.setConn i (c.giveBack 1 units)).refuse i 4 (s.tenant p) m.psn m.num 0 m.base 0x02
    else s.refuseDescs i m b (badCount b) eng 0x0C
  else if s.life = .held then s.refuseDescs i m b n eng 0x0F
  else if c.depth eng < s.occupied i eng + n ∨ ceTc1 c.entry < c.inUse.getD 1 0 + units then
    ((s.refuseDescs i m b n eng 0x0D).count 0 Reg.CQ_INBOUND_OVF_CNT 1).cqError p [6]
  else
    let ds := (List.range n).map fun k =>
      ({ conn := i, eng := eng, msg := m.num, pos := k, part := p, last := k + 1 == n, desc := descAt b k,
         payload := b.drop (16 + 64 * n) } : InDesc)
    { s with inq := s.inq ++ ds }.setConn i { c with
      cmdLeft := c.cmdLeft ++ [(m.num, units, n)]
      inUse := listSet c.inUse 1 (c.inUse.getD 1 0 + units) }

/-! Reads through a waykey (R314). -/

/-- A READ_REQ is served (R302, R314). A kindling record goes as a stream (R241). -/
def State.serveRead (s : State) (i : Nat) (m : RxMsg) : State :=
  let e := s.waykey (m.waykey % 65536)
  let n := beAt m.ext 0 4
  if !e.ok then s
  else
    let (bs, s) := s.readOut (wkBase e.val + m.base) n
    s.sendMsg i 3 0 0 (wireForm bs).length [] (wireForm bs) .nobody (some m.num)

/-- A WRITE is complete. A kindling record that came as a stream is stored as the record (R241; log entry 57). -/
def State.writeDone (s : State) (m : RxMsg) : State :=
  let e := s.waykey (m.waykey % 65536)
  let bs := m.whole
  let s := if e.ok ∧ wkKey e.val = m.waykey ∧ storedForm bs ≠ bs then
      s.codedWrite (wkPart e.val) m.cmd (wkBase e.val + m.base) (storedForm bs) else s
  s.postedNow m.cmd

/-- A message takes effect when FRONTIER passes it (R302). -/
def State.visible (s : State) (i : Nat) (m : RxMsg) : State :=
  if m.failed then s
  else match m.op with
    | 1 => s.writeDone m
    | 2 => s.serveRead i m
    | _ => s.cmdVisible i m

/-- FRONTIER advances over each complete message in turn (R302). -/
def State.frontierOn (s : State) (i : Nat) : Nat → State
  | 0 => s
  | n + 1 =>
    let c := s.conn i
    match c.rx.find? fun m => m.num == c.frontier && m.complete with
    | some m =>
      (((s.setConn i { c with frontier := c.frontier + 1, rx := c.rx.filter fun x => x.num != m.num }).visible i
        m).wkSettle (m.waykey % 65536)).frontierOn i n
    | none => s

/-- Advance FRONTIER as far as it goes. -/
def State.advance (s : State) (i : Nat) : State := s.frontierOn i ((s.conn i).rx.length + 1)

/-- A refusal completes its message at once, as failed (R302). Staging units of a failed command message return. -/
def State.failMsg (s : State) (i : Nat) (o : Ort) (msg : Nat) : State :=
  let c := s.conn i
  if opTc o.op = 2 then s.setConn i { c with rx2 := c.rx2.filter fun m => m.num != msg }
  else if !framed o.op ∨ msg < c.frontier ∨ c.frontier + 256 ≤ msg then s
  else
    let old := c.rx.find? fun m => m.num == msg
    let first : Bool := match old with | some m => !m.failed | none => true
    let m : RxMsg := match old with
      | some m => { m with failed := true }
      | none => { num := msg, op := o.op, tc := o.tc, len := o.msgLen, waykey := o.waykey, ext := o.ext, parts := [],
                  failed := true, cmd := 0, psn := 0 }
    let c := { c with rx := (c.rx.filter fun x => x.num != msg) ++ [m] }
    (s.setConn i (if first ∧ o.op = 4 then c.giveBack 1 (ceilDiv o.msgLen 256) else c)).advance i

/-! The tollgate (R300, R308). -/

/-- The bytes of a WRITE or EMBER message that have come, with this packet, span at most MSG_LEN: OFFSET counts from the
region or buffer there, so check 7 of R300 holds it relative to the message (log entry 26). -/
def Conn.spanOk (c : Conn) (o : Ort) (msg : Nat) : Bool :=
  let ps := (o.offset, o.payload.length) ::
    (((if o.op = 5 then c.rx2 else c.rx).filter fun m => m.num == msg).flatMap fun m => m.parts.map fun p => (p.1, p.2.length)) ++
    (c.placing.filter fun k => k.op == o.op && k.msg == msg).map fun k => (k.offset, k.data.length)
  let lo := ps.foldl (fun a p => min a p.1) o.offset
  ps.all fun p => decide (p.1 + p.2 ≤ lo + o.msgLen)

/-- Check 7 of R300: the lengths; of WRITE and EMBER the payload alone here, and their OFFSET by `Conn.spanOk`. -/
def lengthsOk (P : Nat) (o : Ort) : Bool :=
  let n := o.payload.length
  decide (o.msgLen ≤ 33554432) &&
  (if o.op = 1 ∨ o.op = 5 then decide (n ≤ o.msgLen) && (n == P || n == o.msgLen % P)
   else decide (o.offset + n ≤ o.msgLen ∨ (o.op = 2 ∧ n = 0)) &&
     (n == P || o.op == 2 || (decide (n < P) && o.offset + n == o.msgLen))) &&
  (n != 0 || o.msgLen == 0) &&
  (o.op != 6 || o.msgLen % 32 == 0)

/-- The target check of R308: the reason of the refusal, 0 when none. -/
def State.wkCheck (s : State) (i : Nat) (o : Ort) : Nat :=
  let c := s.conn i
  let e := s.waykey (o.waykey % 65536)
  let v := e.val
  let n := if o.op = 1 then o.payload.length else beAt o.ext 0 4
  if !e.ok then 0x06
  else if wkState v = 0 ∨ wkKey v ≠ o.waykey ∨ c.owner ≠ some (wkPart v) then 0x05
  else if wkState v = 2 then 0x0A
  else if wkState v = 3 then 0x0B
  else if wkConn v ≠ 0xFFFFFF ∧ wkConn v ≠ connId i c.gen then 0x09
  else if (o.op = 1 ∧ !wkWrite v) ∨ (o.op = 2 ∧ !wkRead v) then 0x07
  else if wkLen v < o.offset + n then 0x08
  else 0

/-- The whole packet lies in the ember units granted to the peer. -/
def Conn.inEmber (c : Conn) (o : Ort) : Bool :=
  decide (c.emberBase * 256 ≤ o.offset ∧ o.offset + o.payload.length ≤ (c.emberBase + ceEmber c.entry) * 256)

/-- The reason for which checks 9 and 10 refuse a packet, 0 when they pass. In HELD, WRITE and READ_REQ are refused
before check 10 (R360). -/
def State.targetReason (s : State) (i : Nat) (o : Ort) : Nat :=
  let c := s.conn i
  if o.op = 1 ∨ o.op = 2 then
    if ceTc3 c.entry < c.inUse.getD 3 0 + units3 o.payload then 0x03
    else if s.life = .held then 0x0D
    else s.wkCheck i o
  else if o.op = 5 ∧ !c.inEmber o then 0x04
  else 0

/-- Charge a WRITE or READ_REQ packet that arrives to its ingress units. -/
def Conn.ingress (c : Conn) (o : Ort) : Conn :=
  if o.op = 1 ∨ o.op = 2 then { c with inUse := listSet c.inUse 3 (c.inUse.getD 3 0 + units3 o.payload) } else c

/-- The ingress units of a packet return (R289). -/
def Conn.egress (c : Conn) (op : Nat) (payload : List Byte) : Conn :=
  if op = 1 ∨ op = 2 then c.giveBack 3 (units3 payload) else c

/-- Refuse a packet with a reason: it is reported, acknowledged, and its message has failed (R300, R302, R311). -/
def State.refusePkt (s : State) (i : Nat) (o : Ort) (psn reason : Nat) : State :=
  let msg := (s.conn i).msgOf o
  let c := ((s.conn i).ingress o).egress o.op o.payload
  let s := s.setConn i (if 8 ≤ o.op ∧ numbered o.op o.ext then c.giveBack 0 1 else c)
  ((s.refuse i o.op o.tenant psn msg o.waykey o.offset reason).failMsg i o msg).received i psn o

/-! What TC0 packets do. -/

/-- A PROBE is answered on the path of the same index (R306). -/
def State.probeIn (s : State) (i p : Nat) : State :=
  let c := s.conn i
  if c.st = .opened ∨ c.st = .closing then s.sendCtrl i 7 0 (if p < c.live.length then some p else none) else s

/-- A PROBE_ACK returns a path to UP (R306), unless its partition owns no entry of the port's slot table (R330). -/
def State.probeAckIn (s : State) (i p : Nat) : State :=
  let c := s.conn i
  if (c.st = .opened ∨ c.st = .closing) ∧ s.hasSlot (c.owner.getD 0) (c.port p) then
    s.setConn i (c.setPath p fun x => { x with up := true, probes := 0, timeouts := 0 })
  else s

/-- PROBE. -/
def execProbe (conn path : Nat) (s : State) : Host.Outcome State Fault Refusal := .next (s.probeIn conn path)

/-- PROBE_ACK. -/
def execProbeAck (conn path : Nat) (s : State) : Host.Outcome State Fault Refusal := .next (s.probeAckIn conn path)

/-- The status that a REPORT's reason gives a sending command (R312). -/
def reasonStatus (reason : Nat) : Nat :=
  if reason = 0x0A ∨ reason = 0x0B then 0x05 else if reason = 0x0D then 0x0F else 0x04

/-- The request whose ember was refused ends (R312): recalled for its header, else with the status of the reason (log
entry 27). -/
def State.emberReported (s : State) (e : Sent) (reason : Nat) : State :=
  let s : State := { s with sent := s.sent.map fun x =>
    if x.id = e.id ∧ x.req = e.req then { x with verdict := some 2 } else x }
  let s := s.failReq e.req (if reason = 0x0C then 4 else 3) 6 none
  if reason = 0x0C then s else s.endCmd e.req (reasonStatus reason) 0

/-- A REPORT (R311 to R313): the sender logs it, sends nothing more of the message, and ends the command. -/
def State.reportIn (s : State) (i : Nat) (x : List Byte) : State :=
  let c := s.conn i
  if c.st ≠ .opened ∧ c.st ≠ .closing then s
  else
    let reason := leAt x 0 1
    let op := leAt x 1 1 / 16
    let msg := if opTc op = 2 then unwrap32 c.nextMsg2 (beAt x 12 4) else unwrap32 c.nextMsg (beAt x 12 4)
    let p := c.owner.getD 0
    let s := s.logViolation p (vioRecord s.ft.now.toNat reason 1 (leAt x 1 1) c.peerNode (beAt x 4 2) (connId i c.gen)
      (beAt x 16 4) (beAt x 12 4) (beAt x 20 6))
    let back := (c.cmdSent.filter fun t => op == 4 && t.1 == msg)
    let s := s.setConn i { c with
      tx := c.tx.map fun m => if m.op = op ∧ m.num = msg then { m with failed := true } else m
      cmdSent := c.cmdSent.filter fun t => !(op == 4 && t.1 == msg)
      descs := back.foldl (fun l t => listSet l t.2.1 (l.getD t.2.1 0 - t.2.2)) c.descs }
    let s := if op = 4 then s.endKindles (fun k => k.internals.any fun e => e.msgs.contains (i, msg)) (reasonStatus reason)
      else s
    let hauls := s.hauls.filter fun h => (op == 1 && h.writes.any fun w => w.conn == i && w.msg == msg) ||
      (op == 2 && h.reads.any fun r => r.conn == i && r.msg == msg)
    let s := hauls.foldl (fun (s : State) (h : Haul) => s.endHaul h (reasonStatus reason)) s
    let s := match s.sent.find? fun e => op == 5 && e.conn == some i && e.msg == msg with
      | some e => s.emberReported e reason
      | none => s
    match s.forwards.find? fun f => op == 4 && f.conn == i && f.msg == msg with
    | some f =>
      { s with forwards := s.forwards.filter fun g => !(g.conn == i && g.msg == msg) }.twinLost f.key
    | none => s.txSettle i

/-- REPORT. -/
def execReport (conn : Nat) (ext : List Byte) (s : State) : Host.Outcome State Fault Refusal :=
  .next (s.reportIn conn ext)

/-! Records and data that come back (R261, R314). -/

/-- One completion record of a remote descriptor arrives: its credit returns, and what waits on it goes on (R289,
R384, R225). -/
def State.recordIn (s : State) (i : Nat) (b : List Byte) : State :=
  let c := s.conn i
  let msg := leAt b 0 4 / 16
  let status := leAt b 4 1
  let s : State := match c.cmdSent.find? fun t => t.1 % 2 ^ 28 == msg with
    | some t => s.setConn i { c with
        descs := listSet c.descs t.2.1 (c.descs.getD t.2.1 0 - 1)
        cmdSent := (c.cmdSent.map fun (x : Nat × Nat × Nat) => if x.1 = t.1 then (x.1, x.2.1, x.2.2 - 1) else x).filter fun x => x.2.2 != 0 }
    | none => s
  match s.forwards.find? fun (f : Forward) => f.conn == i && f.msg % 2 ^ 28 == msg with
  | some f =>
    let s : State := { s with forwards := s.forwards.filter fun g => !(g.conn == i && g.msg == f.msg) }
    if status = 0 then s else s.twinLost f.key
  | none =>
    match s.kindles.find? fun (k : Kindle) => k.part == c.owner.getD 0 && leAt b 5 1 == 0 &&
        k.internals.any fun e => e.remote && (k.tag e.count).toNat == leAt b 16 8 with
    | some k => s.internalDone k.cmd (leAt b 16 8) status
    | none => s

/-- Completion records arrive (R261). -/
def State.cplIn (s : State) (i : Nat) (b : List Byte) : State :=
  if (s.conn i).st = .opened ∨ (s.conn i).st = .closing then
    (List.range (b.length / 32)).foldl (fun (s : State) (k : Nat) => s.recordIn i (sliceB b (32 * k) 32)) s
  else s

/-- CPL. -/
def execCpl (conn : Nat) (record : List Byte) (s : State) : Host.Outcome State Fault Refusal :=
  .next (s.cplIn conn record)

/-- READ_RESP (R314). -/
def execReadResp (conn msg off : Nat) (data : List Byte) (s : State) : Host.Outcome State Fault Refusal :=
  .next (if s.awake then s.haulArrive conn msg off data else s)

/-- A TC2 message is complete: an ember, a verdict, or completion records. In Banked an ember is sunk (R404). -/
def State.tc2Done (s : State) (i : Nat) (m : RxMsg) : State :=
  let b := m.whole
  let hdr := BitVec.ofNat 256 (leAt b 0 32)
  let cmp := BitVec.ofNat 256 (leAt b 32 32)
  let t := s.tenant ((s.conn i).owner.getD 0)
  if m.op = 6 then s.cplIn i b
  else if s.power = .banked then
    if m.len ≤ 64 then s.count 0 Reg.MG_ORPHAN_CNT 1 else s.sinkHeld (some i) (ehUnits hdr)
  else if m.len ≤ 64 then s.verdictIn (some i) t hdr cmp
  else s.emberIn (some i) t hdr cmp (b.drop 64) 0

/-! Placement (R301). -/

/-- Place a packet that is past the tollgate. -/
def State.placePkt (s : State) (i : Nat) (k : Placing) : State :=
  let c := s.conn i
  let c := { c with placing := c.placing.filter fun x => x.psn != k.psn }
  if k.op = 3 then (s.setConn i c).haulArrive i k.msg k.offset k.data
  else if opTc k.op = 2 then
    let ms := addPart c.rx2 k 0
    match ms.find? fun m => m.num == k.msg && m.complete with
    | some m =>
      let s := (s.setConn i { c with rx2 := ms }).tc2Done i m
      let c := s.conn i
      s.setConn i { c with rx2 := c.rx2.filter fun x => x.num != k.msg }
    | none => s.setConn i { c with rx2 := ms }
  else
    let cmd := match c.rx.find? fun m => m.num == k.msg with
      | some m => m.cmd
      | none => s.nextId
    let s : State := if cmd = s.nextId then { s with nextId := s.nextId + 1 } else s
    let e := s.waykey (k.waykey % 65536)
    let failed := c.rx.any fun m => m.num == k.msg && m.failed
    let c := c.egress k.op k.data
    let s := if k.op = 1 ∧ e.ok ∧ wkKey e.val = k.waykey then
        s.codedWrite (wkPart e.val) cmd (wkBase e.val + k.offset) k.data else s
    let s := s.setConn i (if failed ∨ k.msg < c.frontier then c else { c with rx := addPart c.rx k cmd })
    (s.advance i).wkSettle (k.waykey % 65536)

/-- PACKET_PLACE. In Banked, WRITEs and READ_REQs wait unplaced (R404). -/
def execPacketPlace (conn psn : Nat) (s : State) : Host.Outcome State Fault Refusal :=
  .next (match (s.conn conn).placing.find? fun k => k.psn == psn with
    | some k => if !s.awake ∧ k.op ≤ 3 then s else s.placePkt conn k
    | none => s)

/-- The drain limit of a revocation (R31, R310): packets still unplaced are abandoned. -/
def State.wkDrain (s : State) (i : Nat) : State :=
  let v := (s.waykey i).val
  if s.wkClosing i && decide (wkMs v + 8 ≤ s.ms) then
    let late := s.conns.flatMap fun e =>
      (e.2.placing.filter fun k => (k.op == 1 || k.op == 2) && k.waykey % 65536 == i).map fun k => (e.1, k)
    let s := late.foldl (fun (s : State) (x : Nat × Placing) =>
      let c := s.conn x.1
      let k := x.2
      let cmd := match c.rx.find? fun m => m.num == k.msg with
        | some m => m.cmd
        | none => s.nextId
      let s : State := if cmd = s.nextId then { s with nextId := s.nextId + 1 } else s
      let s := if k.op = 1 then s.abandonedWrite (wkPart v) cmd (wkBase v + k.offset) k.data else s
      let c := { c with placing := c.placing.filter fun y => y.psn != k.psn }.egress k.op k.data
      s.setConn x.1 (if k.msg < c.frontier then c else { c with rx := addPart c.rx k cmd })) s
    let s : State := { s with conns := s.conns.map fun e => (e.1, { e.2 with
      rx := e.2.rx.map fun m => if m.op = 2 ∧ m.waykey % 65536 = i then { m with failed := true } else m }) }
    let s := s.wkRevoked i
    (late.map (·.1)).dedup.foldl (fun (s : State) (k : Nat) => s.advance k) s
  else s

/-- REVOCATION_DRAIN_LIMIT. -/
def execRevocationDrainLimit (key : Nat) (s : State) : Host.Outcome State Fault Refusal := .next (s.wkDrain key)

/-- Event 9 of R30: every drain limit that has arrived. -/
def State.drainLimits (s : State) : State :=
  ((s.waykeys.filter fun e => wkState e.2.val == 2).map (·.1)).foldl State.wkDrain s

/-! A packet arrives. -/

/-- What a TC0 packet does, once it has passed its checks. -/
def State.tc0In (s : State) (i : Nat) (o : Ort) : State :=
  match o.op with
  | 7 => s.ackIn i o.ext
  | 9 => s.reportIn i o.ext
  | _ => match ctSub o.ext with
    | 4 => s.closeIn i
    | 5 => s.closeAckIn i
    | 6 => s.probeIn i o.path
    | 7 => s.probeAckIn i o.path
    | _ => s

/-- Checks 5 to 10 of R300, for a packet of an OPEN or CLOSING connection. A TC0 packet beyond the 32 credits, counted from
the total that the last ACK returned, is discarded (R289). -/
def State.checked (s : State) (i : Nat) (o : Ort) : State :=
  let c := s.conn i
  let psn := unwrap32 c.cumPsn o.psn
  let msg := c.msgOf o
  let isNum := numbered o.op o.ext
  if isNum ∧ c.hasPsn psn then (s.count 0 Reg.RT_DUP_CNT 1).ackDue i true
  else if (isNum ∧ c.cumPsn + 1025 ≤ psn) ∨ (framed o.op ∧ c.frontier + 256 ≤ msg) then s
  else if o.op ≤ 6 ∧ !(lengthsOk c.P o && ((o.op != 1 && o.op != 5) || c.spanOk o msg)) then s.refusePkt i o psn 0x02
  else if o.op ≤ 6 ∧ (c.reported.contains (failKey o.op msg psn) ∨ (framed o.op ∧ msg < c.frontier) ∨
      c.rx.any fun m => framed o.op && m.num == msg && m.failed) then
    (s.setConn i ((c.ingress o).egress o.op o.payload)).received i psn o
  else if isNum ∧ 8 ≤ o.op ∧ 32 ≤ (c.ret.getD 0 0 + 2 ^ 32 - c.told.getD 0 0) % 2 ^ 32 then s
  else
    let reason := s.targetReason i o
    let s := if reason = 0x06 then s.cplFault (.waykey (o.waykey % 65536)) else s
    if reason ≠ 0 then s.refusePkt i o psn reason
    else if 7 ≤ o.op then
      let s := (s.setConn i (if isNum then (s.conn i).giveBack 0 1 else s.conn i)).received i psn o
      s.tc0In i o
    else
      let k : Placing := { psn := psn, op := o.op, msg := msg, msgLen := o.msgLen, waykey := o.waykey,
                           offset := o.offset, ext := o.ext, data := o.payload }
      let c := c.ingress o
      (s.setConn i { c with placing := c.placing ++ [k] }).received i psn o

/-- Checks 3 and 4 of R300 for a packet that names a connection, and what follows. -/
def State.connPkt (s : State) (o : Ort) (src : List Byte) (ce : Bool) : State :=
  let i := o.conn % 8192
  let c := s.conn i
  let hand := o.op == 8 && (ctSub o.ext == 2 || ctSub o.ext == 3)
  if o.conn / 8192 ≠ c.gen ∨ !(c.st == .opened || c.st == .closing || (hand && c.st == .connecting)) ∨
      !c.used?.any (fun pt => ptIp pt == src) then s.count 0 Reg.RT_RX_DISC_CNT 1
  else
    let s := s.setConn i { c with rxAt := s.ms, ce := if ce ∧ !c.ce.contains o.path then o.path :: c.ce else c.ce }
    if o.tenant ≠ s.tenant (c.owner.getD 0) then s.refusePkt i o (unwrap32 c.cumPsn o.psn) 0x01
    else if c.st = .connecting then
      if ctSub o.ext = 2 then
        let s := s.acceptIn i o.ext
        (s.setConn i ((s.conn i).giveBack 0 1)).received i (unwrap32 0 o.psn) o
      else s.rejectIn i o.ext
    else s.checked i o

/-- A frame arrives at a logical port (R282, R300). A BEACON stops here: it is the command BEACON. -/
def State.frameIn (s : State) (l : Nat) (f : List Byte) (fcsOk : Bool) : State :=
  match s.frameDgram l f fcsOk with
  | none =>
    if fcsOk ∧ 64 ≤ f.length + 4 ∧ f.length + 4 ≤ 9216 then s.arpIn l f else s.count 0 Reg.RT_RX_DISC_CNT 1
  | some d =>
    let o := parseOrt d.body
    if !ortOk d.body then s.count 0 Reg.RT_RX_DISC_CNT 1
    else if o.op = 10 then s
    else if o.op = 8 ∧ ctSub o.ext = 1 then
      (if o.conn = 0 then s.connectIn ⟨l, f.length⟩ o.tenant o.ext else s.count 0 Reg.RT_RX_DISC_CNT 1)
    else s.connPkt o d.src d.ce

/-- ORT_PACKET. -/
def execOrtPacket (lport : Nat) (frame : List Byte) (fcsOk : Bool) (s : State) : Host.Outcome State Fault Refusal :=
  .next (if s.portUp lport then s.frameIn lport frame fcsOk else s)

end Sys2Proof.Machine
end

