-- ==== Sys2Proof/Machine/Ports.lean ====
section
/-!
DEFINITION. Road ports: configuration, reset and link state (R279 to R281, R306), and the port address table (R283,
R449).
-/

namespace Sys2Proof.Machine

/-- The link of a logical port goes down: every path on it becomes DOWN, and what waits for the port is lost (R281, R306). -/
def State.linkOff (s : State) (l : Nat) : State :=
  { s with
    up := s.up.filter (· != l)
    replies := s.replies.filter fun r => r.lport != l
    conns := s.conns.map fun e => (e.1, { e.2 with
      live := e.2.live.mapIdx fun p x => if x.up ∧ e.2.port p = l then x.down s.ms else x }) }

/-- LINK_DOWN. -/
def execLinkDown (lport : Nat) (s : State) : Host.Outcome State Fault Refusal := .next (s.linkOff lport)

/-- LINK_UP: training ends on an enabled port (R280, R281). -/
def execLinkUp (lport : Nat) (s : State) : Host.Outcome State Fault Refusal :=
  .next (if s.lportExists lport ∧ s.regB 0 (Reg.RT_PORT_CFG + 4 * (lport / 2)) 31 ∧ !s.up.contains lport then
      { s with up := s.up ++ [lport] }
    else s)

/-- A road-port reset: the links go down, and training starts again (R281). -/
def State.portReset (s : State) (n : Nat) : State := (s.linkOff (2 * n)).linkOff (2 * n + 1)

/-- PORT_RESET. -/
def execPortReset (n : Nat) (s : State) : Host.Outcome State Fault Refusal :=
  .next (if n < 8 ∧ s.pf0 then s.portReset n else s)

/-- A write to RT_PORT_CFGn (R279 to R281): reserved encodings leave their field, and a change of MODE or PMD while
ENABLE is 1 is ignored. -/
def State.portCfg (s : State) (n : Nat) (v : Word) : State :=
  let off := Reg.RT_PORT_CFG + 4 * n
  let old := s.reg 0 off
  let mode := if getF v 29 2 < 2 then getF v 29 2 else getF old 29 2
  let pmd := if getF v 16 2 < 3 then getF v 16 2 else getF old 16 2
  let busy := getB old 31 && (mode != getF old 29 2 || pmd != getF old 16 2)
  let s := if busy then s.setRegB 0 Reg.RT_ERR_STAT 0 true else s
  let w := setB (setB old 31 (getB v 31)) 28 (getB v 28)
  let w := if busy then w else setF (setF w 29 2 mode) 16 2 pmd
  let s := s.setReg 0 off w
  if getB v 27 ∨ (getB old 31 ∧ !getB v 31) then s.portReset n else s

/-- PORT_CFG_WRITE. -/
def execPortCfgWrite (n : Nat) (v : Word) (s : State) : Host.Outcome State Fault Refusal :=
  .next (if n < 8 ∧ s.pf0 then s.portCfg n v else s)

/-- A byte of the port address table as it is stored: bytes with no field, and the zero bits of FLAGS, stay zero. -/
def portByte (i : Nat) (b : Byte) : Byte :=
  if i % 48 = 7 ∨ 34 ≤ i % 48 then 0 else if i % 48 = 6 then b &&& 3 else b

/-- A write to the port address table (R449). -/
def State.portTable (s : State) (off : Nat) (bs : List Byte) : State :=
  if 768 < off + bs.length then s
  else if s.regB 0 (Reg.RT_PORT_CFG + 4 * (off / 48 / 2)) 31 then s.setRegB 0 Reg.RT_ERR_STAT 0 true
  else
    let new := (List.range bs.length).map fun k => (off + k, portByte (off + k) (bs.getD k 0))
    { s with ports := new.foldl (fun (t : List (Nat × Byte)) (x : Nat × Byte) => tput (fun _ => 0) t x.1 x.2) s.ports }

/-- PORT_TABLE_WRITE. -/
def execPortTableWrite (off : Nat) (data : List Byte) (s : State) : Host.Outcome State Fault Refusal :=
  .next (if s.fnServed 0 ∧ s.life ≠ .recovery then s.portTable off data else s)

end Sys2Proof.Machine
end

