-- ==== Sys2Proof/Machine/Endings.lean ====
section
/-!
DEFINITION. How commands end together: what a reset, HELD and a release share (R224, R359, R365, R398), entry to HELD,
and the reset of a function's registers (R400).
-/

namespace Sys2Proof.Machine

/-- Order in R166 of the outcome that a status gives. -/
def cutOrder (status : Nat) : Nat := if status = 9 then 1 else 3

/-- A taken command ends with a status, and what its engine holds for it is let go. Unsealed embers are recalled with
a REASON of R187. A KINDLE ends by `endKindles`. -/
def State.cutCmd (s : State) (c : Cmd) (status reason : Nat) : State :=
  let written := match s.rows.find? fun j => j.cmd == c.id with
    | some j => (if j.chimney then 2 ^ 31 else 0) + (if roRaw c.desc then 2 ^ 30 else 0) + j.written
    | none => 0
  let s := s.setCmd c.id fun c => { c with waited := c.waited || (c.phase == .waiting && decide (c.waitFrom < s.ms)) }
  let s : State := { s with
    forwards := s.forwards.filter fun f => f.cmd != c.id
    rows := s.rows.filter fun j => j.cmd != c.id
    images := s.images.map fun m => { m with unbinders := m.unbinders.filter (· != c.id) } }
  match s.req? c.id, s.merge? c.id, s.haul? c.id, s.holds.find? fun h => h.cmd == c.id with
  | some r, _, _, _ =>
    let s := (s.failReq c.id (cutOrder status) reason none).dropBlks r
    { s with
      reqs := s.reqs.filter fun x => x.id != c.id
      sent := s.sent.filter fun e => e.req != c.id }.endAttend c status r.result
  | none, some m, _, _ =>
    let s := s.reportMerge m status []
    { s with merges := s.merges.filter fun x => x.id != c.id }
  | none, none, some h, _ => s.endHaul h status
  | none, none, none, some h =>
    { s with holds := s.holds.filter fun x => x.cmd != c.id }.endAppend c status h.replay h.held
  | none, none, none, none =>
    if c.eng = 1 ∧ !dNop c.desc then s.endAppend c status false false else s.endCmd c.id status (BitVec.ofNat 32 written)

/-- End the taken commands that satisfy a test and have not ended. -/
def State.cutCmds (s : State) (f : Cmd → Bool) (status reason : Nat) : State :=
  let cs := s.cmds.filter fun c => f c && c.phase != .ended
  let s := s.endKindles (fun k => cs.any fun c => c.id == k.cmd) status
  cs.foldl (fun (s : State) (c : Cmd) => s.cutCmd c status reason) s

/-- Untaken inbound descriptors that satisfy a test complete with a status, without a fence (R360, R365). -/
def State.refuseInq (s : State) (f : InDesc → Bool) (status : Nat) : State :=
  let ds := s.inq.filter f
  let s : State := { s with inq := s.inq.filter fun d => !f d }
  ds.foldl (fun (s : State) (d : InDesc) =>
    s.remoteRecord d.conn (s.conn d.conn).gen d.msg d.pos status d.eng 0 d.part (s.unbegun d.eng d.part d.desc).toNat
      (dUserTag d.desc) (dTag d.eng d.desc).toNat 0) s

/-! HELD (R359, R360). -/

/-- WRITE, READ_REQ and CMD messages and embers of which no packet has gone are not sent in HELD (R360). A message that has
begun goes on. -/
def Conn.muted (c : Conn) : Conn :=
  { c with tx := c.tx.map fun m =>
      if m.cut = 0 ∧ (m.op = 1 ∨ m.op = 2 ∨ m.op = 4 ∨ (m.op = 5 ∧ m.len ≠ 64)) then { m with failed := true } else m }

/-- Entry to HELD with a cause: the alert is raised, every taken command ends with ABORTED, unsealed embers are
recalled with REASON 4, and waiting inbound descriptors complete with REFUSED_MODE. BOOT and RECOVERY are left by R391
alone. -/
def State.enterHeld (s : State) (cause : Nat) : State :=
  if s.life = .held ∨ s.life = .boot ∨ s.life = .recovery then s
  else
    let s := ((s.setRegF 0 Reg.FX_STAT 0 3 cause).setLife .held).alert 1
    let s := s.cutCmds (fun _ => true) 0x0A 4
    let s := s.refuseInq (fun _ => true) 0x0F
    { s with
      conns := s.conns.map fun e => (e.1, e.2.muted)
      standbyWanted := false }

/-- A shared fault: the node enters HELD, and the fault is reported at the next boundary (R355, R358). -/
def State.sharedFault (s : State) (cause : Nat) : State :=
  { s with sharedFaults := s.sharedFaults + 1 }.enterHeld cause

/-! Registers of a function (R400). -/

/-- The per-function instances of a function return to reset values: of a VF all its registers, of PF0 those that it
shares in kind with the VFs. -/
def State.resetRegs (s : State) (fn : Nat) : State :=
  { s with regs := s.regs.filter fun e => !(e.1 / 0x20000 == fn && (fn != 0 || match regDef (e.1 % 0x20000) with
      | some d => d.dom == 2
      | none => false))
           objStage := terase s.objStage fn
           wmLatch := if fn = 0 then s.wmLatch else s.wmLatch.filter fun e => e.1 / 4096 != fn - 1
           attest := s.attest.filter fun a => a.fn != fn }

/-- Every ring pair of a partition becomes DISABLED (R256). -/
def State.ringsOff (s : State) (p : Nat) : State :=
  { s with
    rings := s.rings.filter fun e => e.1 / 8 != p
    links := s.links.filter fun e => e.1 / 8 != p }

end Sys2Proof.Machine
end

