-- ==== Sys2Proof/Machine/Partitions.lean ====
section
/-!
DEFINITION. Attestation (R347), and the release, scrub and activation of partitions (R349 to R352).
-/

namespace Sys2Proof.Machine

/-! Attestation. -/

/-- The bytes that `n` consecutive registers hold. -/
def State.regBytes (s : State) (fn off n : Nat) : List Byte :=
  (List.range n).flatMap fun k => leBytes 4 (s.reg fn (off + 4 * k)).toNat

/-- Load bytes into consecutive registers. -/
def State.loadBytes (s : State) (fn off : Nat) (bs : List Byte) : State :=
  (List.range (ceilDiv bs.length 4)).foldl (fun (s : State) (k : Nat) =>
    s.setReg fn (off + 4 * k) (BitVec.ofNat 32 (leAt bs (4 * k) 4))) s

/-- Code of a life state (R347). -/
def Life.code : Life → Nat
  | .boot => 0
  | .recovery => 1
  | .standby => 2
  | .service => 3
  | .drain => 4
  | .held => 5

/-- Bytes 0 to 383 of a report (R347). -/
def State.reportBody (s : State) (scope p : Nat) (nonce : List Byte) : List Byte :=
  let one := scope == 1
  let ch := s.charter.isSome && s.regB 0 Reg.PT_STAT 0
  leBytes 1 0xCA ++ leBytes 1 1 ++ leBytes 1 scope ++ leBytes 1 (if one then p else 0) ++ leBytes 2 s.nodeId ++
  leBytes 2 (if one then s.tenant p else 0) ++ (if ch then leBytes 8 (chSerial s.chart) else leBytes 8 0) ++
  leBytes 8 s.ft.now.toNat ++ leBytes 1 s.life.code ++
  leBytes 1 (s.regF 0 Reg.PT_LOCK 0 1 + (if s.regB 0 Reg.FT_STAT 0 then 2 else 0) + if s.adrift then 4 else 0) ++
  leBytes 1 (if one then (s.part p).code else 0) ++ leBytes 5 0 ++ sliceB nonce 0 32 ++
  s.regBytes 0 Reg.PT_FW_HASH 16 ++ s.regBytes 0 Reg.PT_CHARTER_HASH 16 ++
  (if ch then chOwner s.chart else List.replicate 32 0) ++
  (if one then sliceB (Config.sha512 (leBytes 64 (s.entryVal p).toNat)) 0 32 else List.replicate 32 0) ++
  ((List.range 4).flatMap fun k => match s.image? p k with
    | some m => if one then imId m.hdr else List.replicate 16 0
    | none => List.replicate 16 0) ++
  s.regBytes 0 Reg.PT_ID_X 8 ++ List.replicate 32 0

/-- A report with its signature. -/
def State.attestReport (s : State) (scope p : Nat) (nonce : List Byte) : List Byte :=
  let b := s.reportBody scope p nonce
  b ++ sliceB (Config.edSign ((s.identity.getD []).take 32) (Config.sha512 b)) 0 64

/-- The report that the Custody firmware returns on the management ports (R347): the same format. No command of the table
asks for one there (log entry 96). -/
def State.mgmtReport (s : State) (scope p : Nat) (nonce : List Byte) : List Byte := s.attestReport scope p nonce

/-- GO (R347): ignored while BUSY. -/
def State.attestGo (s : State) (fn : Nat) (v : Word) : State :=
  if !s.fnServed fn ∨ s.life = .recovery ∨ !getB v 0 then s.unserved fn
  else if s.regB fn Reg.PT_ATT_STAT 0 then s.setRegB 0 Reg.PT_ERR_STAT 0 true
  else
    let a : Attest := if fn = 0 then ⟨0, getF v 1 1, getF v 8 6⟩ else ⟨fn, 1, fn - 1⟩
    { s with attest := s.attest ++ [a] }.setReg fn Reg.PT_ATT_STAT 1

/-- ATTEST_GO. -/
def execAttestGo (fn : Nat) (v : Word) (s : State) : Host.Outcome State Fault Refusal := .next (s.attestGo fn v)

/-- ATTEST_DONE: the report stands in PT_ATT_OUT. -/
def execAttestDone (fn : Nat) (s : State) : Host.Outcome State Fault Refusal :=
  .next (match s.attest.find? fun a => a.fn == fn with
    | some a =>
      let out := s.attestReport a.scope a.part (s.regBytes fn Reg.PT_ATT_NONCE 8)
      let s : State := { s with attest := s.attest.filter fun x => x.fn != fn }
      let s := (s.loadBytes fn Reg.PT_ATT_OUT out).setReg fn Reg.PT_ATT_STAT 2
      if fn = 0 then s.msix 0 1 else s
    | none => s)

/-! Release (R350). -/

/-- Steps 1 and 2 of R350. Untaken descriptors are discarded, connections fail, OPEN waykeys start revocation, and
taken commands end with ABORTED. -/
def State.releaseBegin (s : State) (p : Nat) : State :=
  let s : State := { (s.setPart p .releasing).setRelease p .draining with
    rings := s.rings.map fun e => if e.1 / 8 = p then (e.1, { e.2 with subHead := e.2.subTail }) else e
    inq := s.inq.filter fun d => d.part != p }
  let mine := (s.conns.filter fun e => e.2.owner == some p && e.2.st != .idle).map (·.1)
  let s := mine.foldl (fun (s : State) (i : Nat) => s.connFail i 0x0A) s
  let keys := (s.waykeys.filter fun e => e.2.ok && wkState e.2.val == 1 && wkPart e.2.val == p).map (·.1)
  let s := keys.foldl (fun (s : State) (i : Nat) =>
    let s : State := { s.setWaykey i (pairOf (setF (setF (s.waykey i).val 94 2 2) 0 53 s.ms)) with
      wkLive := (s.wkLive.filter fun (l : WkLive) => l.index != i) ++ [⟨i, none, none⟩] }
    s.wkSettle i) s
  s.cutCmds (fun c => c.part == p) 0x0A 4

/-- RELEASE (R349): delayed by a reset of the partition that runs. Nothing is done by a state whose pair is not valid
(R367). -/
def State.release (s : State) (p : Nat) : State :=
  if !(s.partPair p).ok then s.cplFault (.partState p)
  else if s.part p ≠ .active then s.setRegB 0 Reg.PT_ERR_STAT 0 true
  else if s.resets.any fun r => r.part == p then
    if s.releasing.any fun r => r.1 == p then s else s.setRelease p .delayed
  else s.releaseBegin p

/-- RELEASE. -/
def execRelease (part : Nat) (s : State) : Host.Outcome State Fault Refusal :=
  .next (if s.pf0 ∧ part < 64 then s.release part else s)

/-- Storage at the native addresses of a set reads as zero, with fresh check bytes. -/
def State.wipe (s : State) (own : Nat → Bool) : State :=
  { s with
    mem := tkeep (fun a => !own a) s.mem
    ecc := s.ecc.filter fun e => !own (unitAddr e.1)
    recode := s.recode.filter fun r => !own (rowAddr r)
    stale := s.stale.filter fun x => !own x.addr }

/-- Every directory entry of a partition is closed and freed (R84). -/
def State.closeAll (s : State) (p : Nat) : State :=
  let n := (s.dir.filter fun d => d.key.part == p).length
  { s with
    dir := s.dir.filter fun d => d.key.part != p
    dirGen := s.dirGen + BitVec.ofNat 32 n
    slots := s.slots.filter fun x => x.part != p
    heat := s.heat.filter fun h => h.part != p
    holds := s.holds.filter fun h => h.key.part != p
    suspects := s.suspects.filter fun x => match x.what with
      | .dir q _ _ => q != p
      | .lease q _ _ => q != p
      | _ => true
    rebuilds := s.rebuilds.filter fun r => r.1 != p }

/-- Steps 3 and 4 of R350: the directory, images and objects are freed, and the resources of R351 are scrubbed. -/
def State.scrubPart (s : State) (p : Nat) : State :=
  let s := ({ s.closeAll p with images := s.images.filter fun m => m.part != p }).showImages p
  let s : State := { s with
    objs := s.objs.filter fun e => e.1 / 1024 != p
    objStage := terase s.objStage (vfOf p)
    bg := terase s.bg p }
  let s := ((s.wipe fun a => s.owned p a 1).clearScratch fun c => s.ownsCol p c).showRecode
  { s with
    wms := s.wms.filter fun e => e.1 / 4096 != p
    suspects := s.suspects.filter fun x => match x.what with
      | .waymark q _ => q != p
      | .shaper q _ => q != p
      | _ => true
    shapers := s.shapers.filter fun e => e.1 / 16 != p
    shChanges := s.shChanges.filter fun c => c.part != p
    vioLog := s.vioLog.filter fun e => e.1 / 64 != p
    meters := terase s.meters p
    recv := s.recv.filter fun r => match r.conn with
      | some i => (s.conn i).owner != some p
      | none => r.tenant != s.tenant p }.setReg (vfOf p) Reg.RT_VIO_HEAD 0

/-- RELEASE_SCRUB: every revocation has reached its end, and every taken command has completed. -/
def execReleaseScrub (part : Nat) (s : State) : Host.Outcome State Fault Refusal :=
  .next (
    if s.releaseStep part ≠ some .draining ∨ s.cmds.any (fun c => c.part == part) ∨
        s.waykeys.any (fun e => wkState e.2.val == 2 && wkPart e.2.val == part) then s
    else (s.setRelease part .scrubbed).scrubPart part)

/-- Everything the partition owns is read back (R352): latent errors are met, and whether any of it does not read as zero. -/
def State.readBack (s : State) (p : Nat) : State × Bool :=
  let units := (s.ecc.map (·.1)).filter fun k => s.owned p (unitAddr k) 1
  (units.foldl State.meetSector s,
   units.any (fun k => s.eccAt k == .uncorrectable) || s.mem.any fun c => s.owned p c.1 1)

/-- SCRUB_VERIFY (R352): what does not read as zero is scrubbed and checked once more. The partition is RELEASED, or FAULTED
when a row or granule failed twice, which is the outcome `failed` of the storage. Its claims on connection entries end
(R448). -/
def execScrubVerify (part : Nat) (failed : Bool) (s : State) : Host.Outcome State Fault Refusal :=
  .next (
    if s.releaseStep part ≠ some .scrubbed then s
    else
      let (s, dirty) := s.readBack part
      let s := if dirty then s.wipe fun a => s.owned part a 1 else s
      let mine := (s.conns.filter fun e => e.2.owner == some part).map (·.1)
      let s := mine.foldl (fun (s : State) (i : Nat) =>
        s.setConn i { connNone with gen := ((s.conn i).gen + if (s.conn i).st = .idle then 0 else 1) % 2048 }) s
      let s : State := { s with releasing := s.releasing.filter fun r => r.1 != part }
      if failed then (s.setPart part .faulted).setRegB 0 Reg.PT_ERR_STAT 1 true else s.setPart part .released)

/-- ACTIVATE (R349): the same charter entry, with every setting of the partition at its reset value and its usage meters
at zero. -/
def State.activatePart (s : State) (p : Nat) : State :=
  if !(s.partPair p).ok then s.cplFault (.partState p)
  else if s.part p ≠ .released then s.setRegB 0 Reg.PT_ERR_STAT 0 true
  else
    let s := ((s.ringsOff p).resetRegs (vfOf p)).setPart p .active
    { s with
      regs := [Reg.PG_CLASS, Reg.AT_MODE, Reg.PR_KLG].foldl (fun t o => terase t (regKey 0 (o + 4 * p))) s.regs
      far := s.far.filter fun e => farPart e.2.val != p
      shapers := s.shapers.filter fun e => e.1 / 16 != p
      meters := terase s.meters p }

/-- ACTIVATE. -/
def execActivate (part : Nat) (s : State) : Host.Outcome State Fault Refusal :=
  .next (if s.pf0 ∧ part < 64 then s.activatePart part else s)

end Sys2Proof.Machine
end

