-- ==== Sys2Proof/Machine/Faults.lean ====
section
/-!
DEFINITION. Faults and resilience (spec/13): partition reset, the re-read of complement faults, link faults, the
watchdog, and probe packs.
-/

namespace Sys2Proof.Machine

/-! Partition reset (R365). -/

/-- The present unit with a slot at a native address (R365 step 3). -/
def State.unitAt (s : State) (p a : Nat) : Option (Nat × Nat) :=
  (s.slots.find? fun x => x.part == p && (x.use == .live || x.use == .old) && sharesStorage a 1 x.addr x.size).map
    fun x => (x.seq, x.firstPos / 1024)

/-- Step 3 of R365: the unit of a failing granule is damaged and dropped; elsewhere its sector is rewritten as zero. A
hot-tier row is remapped (R363). -/
def State.failedGranule (s : State) (p a : Nat) : State :=
  let k := unitOf (native a)
  let s := match s.unitAt p a with
    | some (seq, span) => s.dropDamaged p seq span
    | none => { s.store (unitAddr k) (List.replicate (Machine.unitBytes k) 0) with ecc := terase s.ecc k }
  if isHot (native a) then s.wantRemap (rowOf (native a)) else s

/-- Steps 1, 2, 4 and 5 of R365. A partition that is being reset is not reset again. -/
def State.resetPart (s : State) (p : Nat) : State :=
  if s.part p ≠ .active ∨ s.resets.any (fun r => r.part == p) then s
  else
    let s := s.ringFault p [0, 1, 2, 3, 4, 5] []
    let s := s.refuseInq (fun d => d.part == p) 0x09
    let s := (s.cutCmds (fun c => c.part == p) 0x09 3).clearScratch (s.ownsCol p)
    { s with resets := s.resets ++ [({ part := p, engines := [], from_ := s.ms } : Reset)] }.count 0 Reg.FX_PRESET_CNT 1

/-- The scratch of the column that an address belongs to holds an uncorrectable error (R365). Scratch has no address of its
own (R115): the command names it by any address of its column (log entry 97). -/
def State.scratchHit (s : State) (addr : Nat) : Option Nat :=
  let n := native addr
  if isHot n && s.scratchUE (columnOf n) 0 32768 then s.colOwner (columnOf n) else none

/-- PARTITION_RESET: an uncorrectable error stands at an address, or in the scratch of its column. In node-reserved firebox,
which keeps no second copy, it is a shared fault (R458). -/
def execPartitionReset (addr : Nat) (s : State) : Host.Outcome State Fault Refusal :=
  .next (
    if !s.hasUE addr 1 then
      match s.scratchHit addr with
      | some p => s.resetPart p
      | none => s
    else if inReserved addr 1 then (if s.life = .held then s else s.sharedFault 1)
    else match s.ownerOf addr with
      | none => s
      | some p => if s.part p = .active then (s.resetPart p).failedGranule p addr else s)

/-! Complement faults (R366). -/

/-- A persistent fault in both copies of an entry or of an ownership record: the partition is reset, and the entry is
freed as by CLOSE. -/
def State.entryLost (s : State) (k : DirKey) : State := (s.resetPart k.part).freeEntry k

/-- The re-read of a record finds its pair valid; a record that is gone needs nothing. -/
def State.pairGood (s : State) (r : RecRef) : Bool :=
  match r with
  | .dir p q l => match s.dir? ⟨p, q, l⟩ with | some d => d.val?.isSome | none => true
  | .lease p q l => match s.dir? ⟨p, q, l⟩ with | some d => d.own?.isSome | none => true
  | .waymark p w => (s.wm p w).ok
  | .waykey i => (s.waykey i).ok
  | .shaper p l => (s.shaper p l).ok
  | .entry p => match s.entry? p with | some e => e.ok | none => true
  | .far k => (s.farEntry k).ok
  | .ember id => s.sent.all (fun e => e.id != id || e.hdr.ok) &&
      s.recv.all fun x => x.id != id || match x.hdr with | some h => h.ok | none => true
  | .lock k => match s.lastLock with
    | some es => match es[k]? with | some t => t.get?.isSome | none => true
    | none => true
  | .fenceList => s.fenceRec.get?.isSome
  | .spare k => match s.spares[k]? with | some t => t.get?.isSome | none => true
  | .partState p => (s.partPair p).ok
  | .release p => s.releasing.all fun e => e.1 != p || e.2.ok
  | .probeRun k => match s.probe with
    | some p => match p.due[k]? with | some r => r.second.ok | none => true
    | none => true
  | .scrub c => s.scrub.all fun e => e.1 != c || e.2.row.ok

/-- A received ember whose header is not valid is discarded, and its reservation freed (R185, R366). -/
def State.emberLost (s : State) (id : Nat) : State :=
  (s.recv.filter fun r => r.id == id && match r.hdr with | some h => !h.ok | none => false).foldl
    (fun (s : State) (r : Recv) => (s.count 0 Reg.MG_ORPHAN_CNT 1).freeRecv r) s

/-- What a persistent fault does. A waymark stays not valid until ZERO, a shaper holds its packets (R322), and a far
window stays not valid until software rewrites it. With both copies of a node-reserved record gone the node has a shared
fault (R364). On a state of the Custody firmware whose pair is not valid it does not act (R367): a probe run is given up,
the scrub of a column starts its pass again, and the others stay as they are (log entry 98). -/
def State.persists (s : State) (r : RecRef) : State :=
  match r with
  | .dir p q l => s.entryLost ⟨p, q, l⟩
  | .lease p q l => s.entryLost ⟨p, q, l⟩
  | .waykey i => { s.setWaykey i (pairOf 0) with wkLive := s.wkLive.filter fun l => l.index != i }
  | .entry p => s.setPart p .faulted
  | .waymark _ _ => s
  | .shaper _ _ => s
  | .far _ => s
  | .ember id => s.emberLost id
  | .lock _ => s.sharedFault 1
  | .fenceList => s.sharedFault 1
  | .spare _ => s.sharedFault 1
  | .partState _ => s
  | .release _ => s
  | .probeRun k => { s with probe := s.probe.map fun p => { p with due := p.due.eraseIdx k } }
  | .scrub c => { s with scrub := s.scrub.map fun e => if e.1 = c then (c, ({ e.2 with row := pairOf 0 } : Scrub)) else e }

/-- COMPLEMENT_REREAD: no earlier than 1 µs after the fault. -/
def execComplementReread (r : RecRef) (s : State) : Host.Outcome State Fault Refusal :=
  .next (match s.suspects.find? fun x => x.what == r with
    | none => s
    | some x =>
      if s.ft.now.toNat < x.at_ + 1000 then s
      else
        let s : State := { s with suspects := s.suspects.filter fun y => y.what != r }
        if s.pairGood r then s else s.persists r)

/-! Die-to-die links (R362). -/

/-- FLIT_CRC_FAIL: the flit is replayed, and its eighth failure in succession is a shared fault. Whether the failing flit
is the one that failed before is a free value (log entry 1). -/
def execFlitCrcFail (link : Nat) (s : State) : Host.Outcome State Fault Refusal :=
  let n := if s.fresh 1 = 1 then tget (fun _ => 0) s.flits link + 1 else 1
  let s := s.drawn
  .next (if 8 ≤ n then { s with flits := terase s.flits link }.sharedFault 2
    else { s with flits := tput (fun _ => 0) s.flits link n }.count 0 Reg.FX_LINK_REPLAY_CNT 1)

/-! The watchdog (R368). -/

/-- The value that the watchdog presents next: a free value that is not the last one (R368; log entry 1). -/
def State.wdogNext (s : State) : Word :=
  let f : Word := s.fresh 32
  if f = s.wdogValue then f + 1 else f

/-- WDOG_SERVICE: the complement of the value presented serves the watchdog, which then presents another value. -/
def execWdogService (v : Word) (s : State) : Host.Outcome State Fault Refusal :=
  .next (if v = ~~~s.wdogValue ∧ s.pwrGood then
      { s.drawn with wdogValue := s.wdogNext, wdogAt := s.ms }.setRegB 0 Reg.FX_STAT 3 false
    else s)

/-- WDOG_WARN: 128 milestones without service. -/
def execWdogWarn (s : State) : Host.Outcome State Fault Refusal :=
  .next (if s.pwrGood ∧ s.wdogAt + 128 ≤ s.ms ∧ !s.regB 0 Reg.FX_STAT 3 then (s.setRegB 0 Reg.FX_STAT 3 true).alert 2
    else s)

/-- WDOG_EXPIRE: 256 milestones without service; the node enters HELD, and the count starts again with the Custody cores
(log entry 33). -/
def execWdogExpire (s : State) : Host.Outcome State Fault Refusal :=
  .next (if s.pwrGood ∧ s.wdogAt + 256 ≤ s.ms then { s with wdogAt := s.ms }.sharedFault 4 else s)

/-! Probe packs (R371 to R375). -/

/-- Bytes of the staging memory (R450). -/
def State.staged (s : State) (off n : Nat) : List Byte := (List.range n).map fun i => tget (fun _ => 0) s.staging (off + i)

/-- Fields of a pack (R371). -/
def pkProbes (b : List Byte) : Nat := leAt b 4 2
def pkId (b : List Byte) : Nat := leAt b 8 8
def pkBefore (b : List Byte) : Nat := leAt b 16 8
def pkAfter (b : List Byte) : Nat := leAt b 24 8
def pkLength (b : List Byte) : Nat := leAt b 32 8

/-- Probe record `k` of a pack. -/
def pkRecord (b : List Byte) (k : Nat) : List Byte := sliceB b (256 + 64 * k) 64

/-- INDEX fits its UNIT: a column for units 0 and 1, else a Hearth die. -/
def indexOk (unit index : Nat) : Bool := index == 0xFFFF || decide (index < if unit ≤ 1 then 512 else 4)

/-- A probe record keeps R371, and its input lies inside LENGTH. -/
def recordOk (len : Nat) (r : List Byte) : Bool :=
  decide (leAt r 0 1 ≤ 4) && leAt r 1 1 == 0 && indexOk (leAt r 0 1) (leAt r 2 2) && zerosAt r 12 4 && zerosAt r 24 40 &&
  decide (leAt r 4 4 + leAt r 8 4 ≤ len)

/-- The checks of R372. -/
def State.packOk (s : State) (b : List Byte) : Bool :=
  leAt b 0 1 == 0xCE && leAt b 1 1 == 1 && decide (leAt b 2 1 < 2) && leAt b 3 1 == 0 && zerosAt b 6 2 &&
  decide (1 ≤ pkProbes b ∧ pkProbes b ≤ 4096 ∧ pkLength b ≤ 16777216 ∧ 256 + 64 * pkProbes b ≤ pkLength b) &&
  zerosAt b 72 56 && zerosAt b 192 64 &&
  (List.range (pkProbes b)).all (fun k => recordOk (pkLength b) (pkRecord b k)) &&
  s.charter.isSome && sliceB b 40 32 == chOwner s.chart && decide (pkBefore b ≤ s.ms ∧ s.ms ≤ pkAfter b) &&
  Config.edVerify (sliceB b 40 32) (Config.sha512 (b.take 128 ++ (b.take (pkLength b)).drop 256)) (sliceB b 128 64)

/-- FX_PROBE_STAT.REFUSED becomes 1, with vector 3 (R451). -/
def State.probeRefused (s : State) : State :=
  if s.regB 0 Reg.FX_PROBE_STAT 2 then s else (s.setRegB 0 Reg.FX_PROBE_STAT 2 true).msix 0 3

/-- Load PACK_ID, and show what is armed. -/
def State.showProbe (s : State) (id : Nat) (armed session : Bool) : State :=
  let v := setB (setB (s.reg 0 Reg.FX_PROBE_STAT) 0 armed) 1 session
  ((s.setReg 0 Reg.FX_PROBE_STAT v).setReg 0 Reg.FX_PROBE_ID_LO (BitVec.ofNat 32 id)).setReg 0 Reg.FX_PROBE_ID_HI
    (BitVec.ofNat 32 (id / 2 ^ 32))

/-- Arm the pack that the staging memory holds, in place of the one before. -/
def State.armPack (s : State) (session : Bool) : State :=
  let b := s.staged 0 (min 16777216 (leNat (s.staged 32 8)))
  if !s.packOk b ∨ (session ∧ (s.life ≠ .service ∨ leAt b 2 1 ≠ 1)) then s.probeRefused
  else
    let s : State := { s with probe := some { pack := b, session := session, next := 0, due := [], running := [] } }
    (s.showProbe (pkId b) true session).setRegF 0 Reg.FX_PROBE_STAT 16 16 0

/-- The pack is disarmed, or the session ends. -/
def State.disarm (s : State) : State :=
  match s.probe with
  | some _ => { s with probe := none }.showProbe 0 false false
  | none => s

/-- PROBE_ARM. -/
def execProbeArm (s : State) : Host.Outcome State Fault Refusal := .next (if s.pf0 then s.armPack false else s)

/-- PROBE_SESSION (R375). -/
def execProbeSession (s : State) : Host.Outcome State Fault Refusal := .next (if s.pf0 then s.armPack true else s)

/-- PROBE_STOP. -/
def execProbeStop (s : State) : Host.Outcome State Fault Refusal := .next (if s.pf0 then s.disarm else s)

/-- The units that a record names (R371). -/
def probeRuns (b : List Byte) (k : Nat) : List ProbeRun :=
  let r := pkRecord b k
  let unit := leAt r 0 1
  let all := List.range (if unit ≤ 1 then 512 else 4)
  (if leAt r 2 2 = 0xFFFF then all else [leAt r 2 2]).map fun i => ⟨k, unit, i, pairOf 0⟩

/-- The dense array can never be probed: no entry of its table is IDLE (R373). -/
def State.arraySkip (s : State) : Bool := !(List.range s.arrayFrame).any fun i => s.slotEntry Reg.SHP_SLOT_ARRAY i == 0x7F

/-- A run can start in this probe slot (R373), with a valid pair (R367). -/
def State.canProbe (s : State) (r : ProbeRun) : Bool :=
  r.second.ok && if r.unit ≤ 1 then s.planEmpty r.index else if r.unit = 4 then s.arrayOwner s.ms == 0x7F else true

/-- A session that has run every record once ends (R375). -/
def State.sessionEnd (s : State) : State :=
  match s.probe with
  | some p => if p.session ∧ pkProbes p.pack ≤ p.next ∧ p.due.isEmpty ∧ p.running.isEmpty then s.disarm else s
  | none => s

/-- The node stops an armed pack once NOT_AFTER has passed (R373). -/
def State.packExpire (s : State) : State :=
  match s.probe with
  | some p => if pkAfter p.pack < s.ms then s.disarm else s
  | none => s

/-- A probe slot (event 6 of R30, R373): the runs that wait, else those of the next record, start where they can. Fenced
columns are not probed, and array probes without an IDLE entry are skipped. -/
def State.probeSlot (s : State) : State :=
  match s.probe with
  | none => s
  | some p =>
    if pkAfter p.pack < s.ms then s.packExpire
    else if !s.awake then s
    else
      let k := if p.session then p.next else p.next % pkProbes p.pack
      let fresh := p.due.isEmpty && p.running.isEmpty && decide (k < pkProbes p.pack)
      let runs := if fresh then
          (probeRuns p.pack k).filter fun r => !(decide (r.unit ≤ 1) && s.fenced r.index)
        else p.due
      let s := (runs.zipIdx.filter fun x => !x.1.second.ok).foldl (fun (s : State) x => s.cplFault (.probeRun x.2)) s
      let skip := runs.any (fun r => r.unit == 4) && s.arraySkip
      let s := if skip then s.setRegB 0 Reg.FX_PROBE_STAT 3 true else s
      let runs := if skip then runs.filter fun r => r.unit != 4 else runs
      let s : State := { s with probe := some { p with
        next := if fresh then k + 1 else p.next
        due := runs.filter fun r => !s.canProbe r
        running := p.running ++ runs.filter s.canProbe } }
      s.sessionEnd

/-- A failing unit after its second failure (R374). -/
def State.unitFault (s : State) (r : ProbeRun) : State := if r.unit ≤ 1 then s.fenceColumn r.index else s.sharedFault 3

/-- A probe failed: it is counted, and vector 3 is raised (R374, R451). -/
def State.probeFailed (s : State) : State :=
  let n := s.regF 0 Reg.FX_PROBE_STAT 16 16
  let s := s.count 0 Reg.FX_PROBE_FAIL_CNT 1
  if n < 0xFFFF then (s.setRegF 0 Reg.FX_PROBE_STAT 16 16 (n + 1)).msix 0 3 else s

/-- PROBE_RESULT: the unit that ran first gives its output, whose CRC-64 is compared with EXPECT. A session fences
nothing, and runs nothing twice (R375). -/
def execProbeResult (output : List Byte) (s : State) : Host.Outcome State Fault Refusal :=
  .next (match s.probe with
    | none => s
    | some p => match p.running with
      | [] => s
      | r :: rest =>
        let good := crc64 output == leAt (pkRecord p.pack r.record) 16 8
        let twice := r.second.get? == some 1
        let again := !good && !twice && !p.session
        let s : State := { s with probe := some { p with
          running := rest
          due := if again then p.due ++ [{ r with second := pairOf 1 }] else p.due } }
        let s := if good then s else s.probeFailed
        let s := if !good ∧ twice then s.unitFault r else s
        s.sessionEnd)

end Sys2Proof.Machine
end

