-- ==== Sys2Proof/Machine/Leases.lean ====
section
/-!
DEFINITION. Ownership leases (R376 to R382), twins (R383), and the receiving side of a rebuild (R385 to R388).
-/

namespace Sys2Proof.Machine

/-! Lease messages (R377). -/

/-- The 64 bytes of a lease message. -/
def leaseBytes (kind frm dst tenant seq layer epoch endMs e0 e1 : Nat) : List Byte :=
  let b := leBytes 1 0xCF ++ leBytes 1 kind ++ leBytes 2 frm ++ leBytes 2 dst ++ leBytes 2 tenant ++ leBytes 8 seq ++
    leBytes 1 layer ++ leBytes 3 0 ++ leBytes 4 epoch ++ leBytes 8 endMs ++ leBytes 2 e0 ++ leBytes 2 e1 ++ leBytes 20 0
  b ++ leBytes 8 (crc64 b)

def lmKind (m : List Byte) : Nat := leAt m 1 1
def lmFrom (m : List Byte) : Nat := leAt m 2 2
def lmTo (m : List Byte) : Nat := leAt m 4 2
def lmTenant (m : List Byte) : Nat := leAt m 6 2
def lmEpoch (m : List Byte) : Nat := leAt m 20 4
def lmEnd (m : List Byte) : Nat := leAt m 24 8

/-- LEASE_END of a message that stands for no end. -/
def noEnd64 : Nat := 2 ^ 64 - 1

/-- LEASE_END of a record as a message shows it. -/
def State.wireEnd (s : State) (o : BitVec 128) : Nat := if owEnd o = noEnd then noEnd64 else s.endMs o

/-- Send a lease message about a key to a node, on both management ports, at its address in the peer table (R377). None
goes while Adrift (R376) or HELD (R360), nor to a node that no valid entry names (log entry 28). -/
def State.leaseSend (s : State) (k : DirKey) (kind dst epoch endMs : Nat) : State :=
  let v := match s.dir? k with | some d => d.val?.getD 0 | none => 0
  if s.adrift ∨ s.life = .held then s
  else match s.mpeers.find? fun e => getB e.2.1 16 && getF e.2.1 0 16 == dst with
    | none => s
    | some e =>
      let b := leaseBytes kind s.nodeId dst (s.tenant k.part) k.seq k.layer epoch endMs (deExt0 v) (deExt1 v)
      (s.emit (.lease 0 e.2.2 b)).emit (.lease 1 e.2.2 b)

/-- The lease of a key is lost: its pending APPENDs and the KINDLEs that need it end with NOT_OWNER (R90, R224). -/
def State.leaseLost (s : State) (k : DirKey) : State :=
  (s.endPending k 6).endKindles (fun x => x.part == k.part && x.seq == k.seq && match s.image? x.part x.slot with
    | some m => decide (k.layer < imLayers m.hdr)
    | none => true) 6

/-- Write the ownership record of a key. -/
def State.setOwn (s : State) (k : DirKey) (o : BitVec 128) : State := s.setDir k fun d => d.writeOwn o

/-- Note the milestone of a GRANT or RENEW sent. -/
def State.leaseSent (s : State) (k : DirKey) : State := s.setDir k fun d => { d with sentAt := s.ms }

/-- LEASE_TERM. -/
def State.leaseTerm (s : State) : Nat := s.regF 0 Reg.FX_CFG 0 16

/-! What a received message does (R379, R381). -/

/-- The record becomes OWNER by an accepted GRANT. -/
def State.grantTaken (s : State) (k : DirKey) (o : BitVec 128) (m : List Byte) : State :=
  let e := if lmEnd m = noEnd64 then noEnd else lmEnd m
  let s := s.setOwn k (owMake (lmEpoch m) s.nodeId (lmFrom m) (owTwin o) e 1)
  let s := (s.setDir k fun d => { d with final := false }).leaseSent k
  s.leaseSend k 2 (lmFrom m) (lmEpoch m) (lmEnd m)

/-- A message with a higher epoch makes the record REMOTE (R381); it takes the epoch, and the sender as HOLDER (log entry
29). -/
def State.overruled (s : State) (k : DirKey) (o : BitVec 128) (m : List Byte) : State :=
  (s.setOwn k (setF (setF (setF o 96 32 (lmEpoch m)) 80 16 (lmFrom m)) 0 3 3)).leaseLost k

/-- What a message that passes R377 does, on a record whose pair is valid. -/
def State.leaseAct (s : State) (k : DirKey) (o : BitVec 128) (m : List Byte) : State :=
  let st := owState o
  let ep := owEpoch o
  let new := lmEpoch m
  if lmKind m = 1 ∧ (st = 0 ∨ st = 3 ∨ st = 4) ∧ ep < new ∧ s.ms < lmEnd m then s.grantTaken k o m
  else if lmKind m = 2 ∧ new = ep ∧ (st = 2 ∨ (st = 3 ∧ owGrantor o = s.nodeId)) then
    (s.setOwn k (setF o 0 3 3)).leaseSend k 3 (lmFrom m) ep (s.wireEnd o)
  else if lmKind m = 3 ∧ st = 1 ∧ new = ep then
    (s.setOwn k (setF (setF o 8 40 noEnd) 64 16 s.nodeId)).setDir k fun d => { d with final := true }
  else if ep < new then s.overruled k o m
  else if st = 1 ∧ new < ep ∧ (lmKind m = 1 ∨ lmKind m = 2) then s.leaseSend k 4 (lmFrom m) ep (s.wireEnd o)
  else s

/-- The key that a message concerns: that of an open entry with the extent named. -/
def State.leaseKey? (s : State) (m : List Byte) : Option DirKey :=
  match s.listed.find? fun p => s.tenant p == lmTenant m with
  | none => none
  | some p =>
    let k : DirKey := ⟨p, leAt m 8 8, leAt m 16 1⟩
    match s.openEntry k with
    | some v => if deExt0 v = leAt m 32 2 ∧ deExt1 v = leAt m 34 2 then some k else none
    | none => none

/-- The form of a message (R377). -/
def State.leaseForm (s : State) (m : List Byte) : Bool :=
  m.length == 64 && leAt m 56 8 == crc64 (m.take 56) && leAt m 0 1 == 0xCF && decide (1 ≤ lmKind m ∧ lmKind m ≤ 4) &&
  zerosAt m 17 3 && zerosAt m 36 20 && lmTo m == s.nodeId

/-- A lease message of one kind arrives. -/
def State.leaseIn (s : State) (kind : Nat) (m : List Byte) : State :=
  let other := decide (1 ≤ lmKind m ∧ lmKind m ≤ 4) && lmKind m != kind
  if other then s
  else if !s.leaseForm m then s.count 0 Reg.FX_LEASE_DISC_CNT 1
  else match s.leaseKey? m with
    | none => s.count 0 Reg.FX_LEASE_DISC_CNT 1
    | some k =>
      let s := (s.dirSeen k).ownSeen k
      match s.dir? k with
      | none => s
      | some d => match d.own? with
        | none => s
        | some o => s.leaseAct k o m

/-- GRANT. -/
def execGrant (msg : List Byte) (s : State) : Host.Outcome State Fault Refusal := .next (s.leaseIn 1 msg)

/-- RENEW. -/
def execRenew (msg : List Byte) (s : State) : Host.Outcome State Fault Refusal := .next (s.leaseIn 2 msg)

/-- FINAL. -/
def execFinal (msg : List Byte) (s : State) : Host.Outcome State Fault Refusal := .next (s.leaseIn 3 msg)

/-- DENY. -/
def execDeny (msg : List Byte) (s : State) : Host.Outcome State Fault Refusal := .next (s.leaseIn 4 msg)

/-! FX_LEASE_CTL (R378, R382, R383, R390). -/

/-- The key that a function's registers name. -/
def State.leaseSel (s : State) (fn : Nat) : DirKey :=
  ⟨fn - 1, s.reg64 fn Reg.FX_LEASE_SEQ_LO Reg.FX_LEASE_SEQ_HI, s.regF fn Reg.FX_LEASE_SEL 0 8⟩

/-- The record of an open key, with the state after both pairs were read. -/
def State.ownRead (s : State) (k : DirKey) : State × Option (BitVec 128) :=
  match s.dir? k with
  | none => (s, none)
  | some d =>
    let s := s.dirSeen k
    match s.openEntry k with
    | none => (s, none)
    | some _ => (s.ownSeen k, d.own?)

/-- A lease command is refused. -/
def State.leaseBad (s : State) (fn : Nat) : State := s.setRegB fn Reg.FX_LEASE_STAT 0 true

/-- NODE names another node (R378). -/
def State.peerOk (s : State) (node : Nat) : Bool := node != 0 && node != 0xFFFF && node != s.nodeId

/-- FX_LEASE_CTL.GRANT (R378). -/
def State.leaseGrant (s : State) (fn : Nat) : State :=
  let k := s.leaseSel fn
  let dst := s.regF fn Reg.FX_LEASE_SEL 8 16
  if fn = 0 ∨ !s.fnServed fn then s.unserved fn
  else match s.ownRead k with
    | (s, none) => s.leaseBad fn
    | (s, some o) =>
      if owState o ≠ 1 ∨ !s.peerOk dst then s.leaseBad fn
      else
        let e := s.ms + s.leaseTerm
        let s := s.setOwn k (owMake (owEpoch o + 1) dst s.nodeId 0 e 2)
        let s := (s.setDir k fun d => { d with twin := none }).leaseSent k
        (s.leaseLost k).leaseSend k 1 dst ((owEpoch o + 1) % 2 ^ 32) e

/-- LEASE_GRANT. -/
def execLeaseGrant (fn : Nat) (s : State) : Host.Outcome State Fault Refusal := .next (s.leaseGrant fn)

/-- FX_LEASE_CTL.TWIN (R383): TWIN names the node; forwarding starts with the rebuild that fills it (log entry 30). -/
def State.leaseTwin (s : State) (fn : Nat) : State :=
  let k := s.leaseSel fn
  let dst := s.regF fn Reg.FX_LEASE_SEL 8 16
  if fn = 0 ∨ !s.fnServed fn then s.unserved fn
  else match s.ownRead k with
    | (s, none) => s.leaseBad fn
    | (s, some o) =>
      if owState o ≠ 1 ∨ !s.peerOk dst then s.leaseBad fn
      else (s.setOwn k (setF o 48 16 dst)).setDir k fun d => { d with twin := none }

/-- LEASE_TWIN. -/
def execLeaseTwin (fn : Nat) (s : State) : Host.Outcome State Fault Refusal := .next (s.leaseTwin fn)

/-- FX_LEASE_CTL.TAKE (R382). -/
def State.leaseTake (s : State) (fn : Nat) : State :=
  let k := s.leaseSel fn
  if fn = 0 ∨ !s.fnServed fn then s.unserved fn
  else match s.ownRead k with
    | (s, none) => s.leaseBad fn
    | (s, some o) =>
      if (owState o ≠ 3 ∧ owState o ≠ 4) ∨ (owEnd o ≠ noEnd ∧ s.ms < s.endMs o + 2) then s.leaseBad fn
      else
        (s.setOwn k (owMake (owEpoch o + 2) s.nodeId s.nodeId (owTwin o) noEnd 1)).leaseSend k 4 (owHolder o)
          ((owEpoch o + 2) % 2 ^ 32) noEnd64

/-- LEASE_TAKE. -/
def execLeaseTake (fn : Nat) (s : State) : Host.Outcome State Fault Refusal := .next (s.leaseTake fn)

/-- FX_LEASE_CTL.READ (R390): the record, all ones for a pair that is not valid, or zero without an open entry. -/
def State.leaseRead (s : State) (fn : Nat) : State :=
  let k := s.leaseSel fn
  if fn = 0 ∨ !s.fnServed fn then s.unserved fn
  else
    let bad := match s.dir? k with
      | some d => d.val?.isNone || ((s.openEntry k).isSome && d.own?.isNone)
      | none => false
    match s.ownRead k with
    | (s, some o) => s.loadWords fn Reg.FX_LEASE_W 4 o.toNat
    | (s, none) =>
      if bad then (s.setRegB fn Reg.FX_LEASE_STAT 1 true).loadWords fn Reg.FX_LEASE_W 4 (2 ^ 128 - 1)
      else (s.leaseBad fn).loadWords fn Reg.FX_LEASE_W 4 0

/-- LEASE_READ. -/
def execLeaseRead (fn : Nat) (s : State) : Host.Outcome State Fault Refusal := .next (s.leaseRead fn)

/-! Timers. -/

/-- The valid record of a key, with the state after it was read. -/
def State.ownNow (s : State) (k : DirKey) : State × Option (BitVec 128) :=
  match s.dir? k with
  | none => (s, none)
  | some d => (s.ownSeen k, d.own?)

/-- GRANT_RESEND (R378): every 16 milestones, until a RENEW arrives or LEASE_END passes. -/
def execGrantResend (key : DirKey) (s : State) : Host.Outcome State Fault Refusal :=
  .next (match s.dir? key with
    | none => s
    | some d => match s.ownNow key with
      | (s, some o) =>
        if owState o = 2 ∧ s.ms < s.endMs o ∧ d.sentAt + 16 ≤ s.ms then
          (s.leaseSent key).leaseSend key 1 (owHolder o) (owEpoch o) (s.endMs o)
        else s
      | (s, none) => s)

/-- RENEW_TIMER (R379): every LEASE_TERM / 4 milestones, until FINAL. -/
def execRenewTimer (key : DirKey) (s : State) : Host.Outcome State Fault Refusal :=
  .next (match s.dir? key with
    | none => s
    | some d => match s.ownNow key with
      | (s, some o) =>
        if owState o = 1 ∧ owEnd o ≠ noEnd ∧ !d.final ∧ s.ms < s.endMs o ∧ d.sentAt + max 1 (s.leaseTerm / 4) ≤ s.ms then
          (s.leaseSent key).leaseSend key 2 (owGrantor o) (owEpoch o) (s.endMs o)
        else s
      | (s, none) => s)

/-- LEASE_EXPIRE (R379): the holder becomes REMOTE, with its GRANTOR as HOLDER. -/
def execLeaseExpire (key : DirKey) (s : State) : Host.Outcome State Fault Refusal :=
  .next (match s.ownNow key with
    | (s, some o) =>
      if owState o = 1 ∧ owEnd o ≠ noEnd ∧ s.endMs o ≤ s.ms then
        (s.setOwn key (setF (setF o 80 16 (owGrantor o)) 0 3 3)).leaseLost key
      else s
    | (s, none) => s)

/-- LEASE_RECLAIM (R380): not while Adrift (R376). -/
def execLeaseReclaim (key : DirKey) (s : State) : Host.Outcome State Fault Refusal :=
  .next (match s.ownNow key with
    | (s, some o) =>
      if owState o = 2 ∧ s.endMs o + 2 ≤ s.ms ∧ !s.adrift then
        (s.setOwn key (owMake (owEpoch o + 1) s.nodeId s.nodeId (owTwin o) noEnd 1)).count 0 Reg.FX_RECLAIM_CNT 1
      else s
    | (s, none) => s)

/-! Receiving a rebuild (R385 to R387). -/

/-- A layer of a START image is rebuilt here: its entry is open with the owner's extent, its record is no owner's, and it
holds no page. -/
def State.rebuildable (s : State) (p seq : Nat) (l : Nat × Nat × Nat × Nat) : Bool :=
  let k : DirKey := ⟨p, seq, l.1⟩
  match s.openEntry k, (s.dir? k).bind Dir.own? with
  | some v, some o =>
    deExt0 v == l.2.2.1 && deExt1 v == l.2.2.2 && (owState o == 0 || owState o == 3 || owState o == 4) &&
    !s.slots.any fun x => x.part == p && x.seq == seq && x.layer == l.1
  | _, _ => false

/-- A START image: the layers take the owner's PUBLISHED and become TWIN, and every unit below awaits copy. -/
def State.rebuildOpen (s : State) (p conn epoch seq : Nat) (layers : List (Nat × Nat × Nat × Nat)) : State :=
  let node := (s.conn conn).peerNode
  let good := layers.filter (s.rebuildable p seq)
  let s := good.foldl (fun (s : State) (l : Nat × Nat × Nat × Nat) => s.setDir ⟨p, seq, l.1⟩ fun d =>
    let d := match d.val? with | some v => d.write (setF v 120 24 l.2.1) | none => d
    match d.own? with
    | some o => d.writeOwn (setF (setF (setF o 96 32 epoch) 80 16 node) 0 3 4)
    | none => d) s
  let spans := sortNat (good.flatMap fun l => (List.range (ceilDiv l.2.1 1024 - l.2.2.1)).map (l.2.2.1 + ·))
  let r : Rebuild := { mode := 2, done := false, unitFail := decide (good.length < layers.length), units := 0,
                       seq := seq, left := spans, again := [], limits := good.map fun l => (l.1, l.2.1),
                       conn := some conn }
  { s with rebuilds := (p, r) :: s.rebuilds.filter fun x => x.1 != p || (x.2.mode != 1 && x.2.seq != seq && !x.2.left.isEmpty) }

/-- Change the record of the rebuild that a partition receives. -/
def State.setReceiver (s : State) (p : Nat) (f : Rebuild → Rebuild) : State :=
  { s with rebuilds := s.rebuilds.map fun r => if r.1 = p ∧ r.2.mode = 2 then (p, f r.2) else r }

/-- One page of a unit image, ready to be installed: where it belongs, its trailer and rows, and its bytes. -/
structure PageImage where
  key : DirKey
  kv : Nat
  trailer : Trailer
  ks : List (List Byte)
  vs : List (List Byte)
  bytes : List Byte
  deriving DecidableEq, Repr

/-- Read a page of a unit image, checked against R78 but for GEN; none when it fails. -/
def State.pageImage (s : State) (p seq : Nat) (x : Nat × Nat × List Byte) : Option PageImage :=
  let k : DirKey := ⟨p, seq, x.1⟩
  let b := x.2.2
  match s.openEntry k, Trailer.parse (b.drop (b.length - 512)) with
  | some v, some t =>
    let n := classTokens (deClass v)
    let d := headDim (deDim v)
    let w := rowBytes (deFmt v) d
    let same := t.seq == seq && t.layer == x.1 && t.kv == x.2.1 && t.fmt == deFmt v && t.dimCode == deDim v &&
      t.cls == deClass v && t.firstPos % n == 0 && decide (t.valid ≤ n) &&
      b.length == 256 * t.dataGran + bandBytes n d + 512
    let data := b.take (256 * t.dataGran)
    let raw := if t.coded then cinderDecode [] data else some data
    match raw with
    | some r =>
      if same && decide (2 * n * w ≤ r.length) then
        some ⟨k, x.2.1, t, (cutRows w n r).take t.valid, (cutRows w n (r.drop (n * w))).take t.valid, b⟩
      else none
    | none => none
  | _, _ => none

/-- The pages of a unit below P_l: layer, KV head and first position. -/
def State.rebuildPages (s : State) (p : Nat) (r : Rebuild) (span : Nat) : List (Nat × Nat × Nat × Nat) :=
  r.limits.flatMap fun l => match s.openEntry ⟨p, r.seq, l.1⟩ with
    | some v => (List.range (deKvCount v)).flatMap fun h =>
        (pagesOf (classTokens (deClass v)) (1024 * span) (min l.2 (1024 * (span + 1)))).map fun f =>
          (l.1, deKvFirst v + h, f, min (classTokens (deClass v)) (l.2 - f))
    | none => []

/-- Write a page image where the page has no slot of its own yet: its data region as it came, with this node's GEN and
tallies recomputed from the rows (R387). -/
def State.placeImage (s : State) (x : Slot) (g : PageImage) : State :=
  let v := (s.openEntry g.key).getD 0
  let n := classTokens (deClass v)
  let d := headDim (deDim v)
  let t := { g.trailer with gen := deGen v % 65536 }
  s.engineWrite x.part 0 x.addr (g.bytes.take (256 * t.dataGran) ++
    bandAndTrailer t n d (tallyString (deFmt v) d n g.ks g.vs))

/-- Write a page image into the slot that forwarded rows already hold: the image's rows below, those rows above (R386).
-/
def State.mergeImage (s : State) (x : Slot) (g : PageImage) : State :=
  let v := (s.openEntry g.key).getD 0
  let n := classTokens (deClass v)
  let d := headDim (deDim v)
  let w := rowBytes (deFmt v) d
  let valid := match s.trailer x with | some t => t.valid | none => 0
  let old := match s.pageRows x false n d w with
    | some (ks, vs) => (ks.take valid, vs.take valid)
    | none => ([], [])
  let ks := g.ks ++ old.1.drop g.ks.length
  s.writePage 0 x v g.trailer.kScale g.trailer.vScale ks.length ks (g.vs ++ old.2.drop g.vs.length)

/-- The unit fails: it is requested once more, and after a second failure left awaiting (R387). -/
def State.unitFailed (s : State) (p span : Nat) : State :=
  s.setReceiver p fun r =>
    if r.again.contains span then { r with unitFail := true } else { r with again := r.again ++ [span] }

/-- A UNIT image: every page is checked, and the unit becomes present in one update (R244, R387). -/
def State.rebuildUnit (s : State) (p : Nat) (r : Rebuild) (span : Nat) (pages : List (Nat × Nat × List Byte)) : State :=
  let got := pages.filterMap (s.pageImage p r.seq)
  let want := s.rebuildPages p r span
  let all := got.length == pages.length && want.all fun q => got.any fun g =>
    g.key.layer == q.1 && g.kv == q.2.1 && g.trailer.firstPos == q.2.2.1 && decide (q.2.2.2 ≤ g.trailer.valid)
  let got := got.filter fun g => want.any fun q =>
    g.key.layer == q.1 && g.kv == q.2.1 && g.trailer.firstPos == q.2.2.1
  if !all then s.unitFailed p span
  else
    let here (s : State) (g : PageImage) : Option Slot := s.liveSlot p r.seq g.key.layer g.kv g.trailer.firstPos
    let new := got.filter fun g => (here s g).isNone
    match s.allocate p .live (new.map fun g => ⟨r.seq, g.key.layer, g.kv, g.trailer.firstPos, g.bytes.length⟩) with
    | .fails s => s.unitFailed p span
    | .waits s _ => s.unitFailed p span
    | .got t _ =>
      let t := got.foldl (fun (t : State) (g : PageImage) => match here t g with
        | none => t
        | some x => if (here s g).isNone then t.placeImage x g else t.mergeImage x g) t
      let t := t.postedNow 0
      let t := t.setReceiver p fun r => { r with left := r.left.filter (· != span), units := r.units + 1 }
      { t with heat := ⟨p, r.seq, span, 0, t.ms, some t.ms⟩ ::
          t.heat.filter fun h => !(h.part == p && h.seq == r.seq && h.span == span) }

/-- REBUILD_IMAGE: a visible image in the staging object of a partition that accepts images (FX_RB_STAGE.EN). -/
def execRebuildImage (fn : Nat) (img : RbImage) (s : State) : Host.Outcome State Fault Refusal :=
  let p := fn - 1
  .next (
    if fn = 0 ∨ s.part p ≠ .active ∨ !s.regB fn Reg.FX_RB_STAGE 31 ∨ !s.awake ∨ s.life = .held then s
    else match img with
      | .start conn epoch seq layers => s.rebuildOpen p conn epoch seq layers
      | .unit seq span pages => match s.rebuilds.find? fun r => r.1 == p && r.2.mode == 2 && r.2.seq == seq with
        | some (_, r) => if r.left.contains span then s.rebuildUnit p r span pages else s
        | none => s
      | .fin seq => match s.rebuilds.find? fun r => r.1 == p && r.2.mode == 2 && r.2.seq == seq with
        | some _ => s.setReceiver p fun r => { r with mode := 0, done := true }
        | none => s)

end Sys2Proof.Machine
end

