-- ==== Sys2Proof/Machine/Boot.lean ====
section
/-!
DEFINITION. Start-up (R336 to R342, R405 to R408, R421): the checks of the firmware image and of the charter, the scrub,
the lock, and power-on reset.
-/

namespace Sys2Proof.Machine

/-! The firmware image (R407). -/

def fwLength (b : List Byte) : Nat := leAt b 4 4

/-- LS_RCV_STAT.CODE of the checks of an image: 0 when they pass, 1 for its format, 2 for its signature. -/
def fwCode (b : List Byte) : Nat :=
  let n := fwLength b
  if leAt b 0 1 ≠ 0xC9 ∨ leAt b 1 1 ≠ 1 ∨ !zerosAt b 2 2 ∨ n % 256 ≠ 0 ∨ n = 0 ∨ 16777216 < n ∨ b.length < n ∨
      !zerosAt b 16 48 then 1
  else if Config.edVerify Config.firmwareKey (Config.sha512 (b.take 64 ++ (b.take n).drop 128)) (sliceB b 64 64) then 0
  else 2

/-! The charter (R337, R338, R340). -/

/-- A partition entry keeps the ranges of R338, and its zero fields are zero. -/
def entryOk (v : BitVec 512) : Bool :=
  decide (recField v 0 1 < 64) && recField v 1 1 == 0 && recField v 2 2 != 0 && recField v 4 4 == 0 &&
  decide (recField v 8 2 ≤ 511 ∧ recField v 10 2 ≤ 512 ∧ recField v 12 2 ≤ 1023 ∧ recField v 14 2 ≤ 1024) &&
  (List.range 4).all (fun h => decide (recField v (16 + 2 * h) 2 ≤ 320 ∧ recField v (24 + 2 * h) 2 ≤ 512)) &&
  recField v 62 2 == 0

/-- Check 2 of R340. -/
def charterForm (c : List Byte) : Bool :=
  leAt c 0 1 == 0xC3 && leAt c 1 1 == 1 && decide (1 ≤ chParts c ∧ chParts c ≤ 64 ∧ chSigners c ≤ 8) &&
  decide (1 ≤ leAt c 16 1 ∧ leAt c 16 1 ≤ 64 ∧ 1 ≤ leAt c 17 1 ∧ leAt c 17 1 ≤ 64) && zerosAt c 18 14 &&
  zerosAt c (96 + 32 * chSigners c) (32 * (8 - chSigners c)) && (chEntries c).all entryOk &&
  c.length == chBody c + 64

/-- Check 4 of R340. -/
def charterSigned (c : List Byte) : Bool :=
  Config.edVerify (chOwner c) (Config.sha512 (c.take (chBody c))) (sliceB c (chBody c) 64)

/-- INDEX of an entry. -/
def peIndex (v : BitVec 512) : Nat := recField v 0 1

/-- The values of a list rise strictly. -/
def rising : List Nat → Bool
  | a :: b :: t => decide (a < b) && rising (b :: t)
  | _ => true

/-- Ranges of first and count overlap nowhere, and none passes a bound. -/
def apart (bound : Nat) : List (Nat × Nat) → Bool
  | [] => true
  | x :: t => decide (x.1 + x.2 ≤ bound) && t.all (fun y => x.2 == 0 || y.2 == 0 || !meets x.1 x.2 y.1 y.2) && apart bound t

/-- A slot-table byte as it is stored (R328). -/
def slotByte (b : Nat) : Nat := if b % 128 < 64 then b % 128 else 0x7F

/-- The slot tables of a charter: the array's, then those of the logical ports. -/
def chSlots (c : List Byte) : List Nat := (List.range 1088).map fun i => slotByte (leAt c (352 + i) 1)

/-- Check 6 of R340. -/
def charterPlaces (c : List Byte) : Bool :=
  let es := chEntries c
  apart 512 (es.map fun v => (recField v 8 2, recField v 10 2)) &&
  apart 1024 (es.map fun v => (recField v 12 2, recField v 14 2)) &&
  (chSlots c).all fun b => b == 0x7F || es.any fun v => peIndex v == b

/-- Check 7 of R340. -/
def charterFits (c : List Byte) : Bool :=
  let es := chEntries c
  let sum (i n : Nat) : Nat := (es.map fun v => recField v i n).sum
  (List.range 4).all (fun h => decide (sum (16 + 2 * h) 2 ≤ 320 ∧ sum (24 + 2 * h) 2 ≤ 512)) &&
  es.all (fun v => decide (recField v 32 4 ≤ recField v 10 2 * 65536) && (List.range 4).all fun h =>
    !(recField v 10 2 != 0 && meets (recField v 8 2) (recField v 10 2) (128 * h) 128) ||
      decide (1 ≤ recField v (24 + 2 * h) 2)) &&
  decide (sum 36 4 ≤ 65536 ∧ sum 40 4 ≤ 131072 ∧ sum 44 4 ≤ 131072 ∧ sum 48 4 ≤ 262144 ∧ sum 52 2 ≤ 8192 ∧
    sum 54 2 ≤ 4096 ∧ sum 56 2 ≤ 4096 ∧ sum 58 2 ≤ 16384 ∧ sum 60 2 ≤ 4096)

/-- CHARTER_CODE (R340): the first check that fails, 0 when all pass. -/
def State.charterCode (s : State) (c : Option (List Byte)) : Nat :=
  match c with
  | none => 1
  | some c =>
    let es := chEntries c
    if !charterForm c then 2
    else if chDevice c ≠ s.regBytes 0 Reg.PT_ID_ED 8 then 3
    else if !charterSigned c then 4
    else if !rising (es.map peIndex) ∨ (es.map fun v => recField v 2 2).dedup.length ≠ es.length ∨ leAt c 4 2 = 0 ∨
        leAt c 4 2 = 0xFFFF then 5
    else if !charterPlaces c then 6
    else if !charterFits c then 7
    else 0

/-! The scrub and the lock (R341, R342). -/

/-- Partition entries as complement pairs. -/
def entryPairs (es : List (BitVec 512)) : List (Nat × Pair 512) := es.map fun v => (peIndex v, pairOf v)

/-- The partition entries of the last lock, when a valid copy of each survives (R342, R364). -/
def State.lockRecord (s : State) : Option (List (BitVec 512)) := s.lastLock.bind fun es => es.mapM Twin.get?

/-- Every byte whose owner differs from its owner at the last lock reads as zero; every byte, when no record of that lock
survives or the straps ask for it. -/
def State.bootScrub (s : State) (new : List (BitVec 512)) : State :=
  let t : State := { s with entries := entryPairs new }
  let old := if getF s.straps 0 2 = 2 then none else s.lockRecord
  match old with
  | none => (s.wipe fun _ => true).showRecode
  | some r =>
    let u : State := { s with entries := entryPairs r }
    (s.wipe fun a => decide (u.ownerOf a ≠ t.ownerOf a)).showRecode

/-- Load the slot tables: words of four entries. -/
def State.loadSlots (s : State) (c : List Byte) : State :=
  (List.range 272).foldl (fun (s : State) (k : Nat) =>
    let w := (List.range 4).foldl (fun a j => a + (chSlots c).getD (4 * k + j) 0x7F * 256 ^ j) 0
    s.setReg 0 (if k < 16 then Reg.SHP_SLOT_ARRAY + 4 * k else Reg.SHP_SLOT_PORT + 4 * (k - 16)) (BitVec.ofNat 32 w)) s

/-- The lock of R341. -/
def State.lock (s : State) (c : List Byte) (faulted : List Nat) : State :=
  let es := chEntries c
  let s := (s.loadSlots c).setReg 0 Reg.SHP_SLOT_FRAME (BitVec.ofNat 32 (leAt c 16 1 + 256 * leAt c 17 1))
  let s := (s.setReg 0 Reg.SHP_PORT_MODE (BitVec.ofNat 32 (leAt c 6 2))).setRegF 0 Reg.RT_NODE_ID 0 16 (leAt c 4 2)
  let s := es.foldl (fun (s : State) (v : BitVec 512) =>
    s.setReg 0 (Reg.PR_QUOTA + 4 * peIndex v) (BitVec.ofNat 32 (recField v 32 4))) s
  let s := (s.setReg 0 Reg.PT_SERIAL_LO (BitVec.ofNat 32 (chSerial c))).setReg 0 Reg.PT_SERIAL_HI
    (BitVec.ofNat 32 (chSerial c / 2 ^ 32))
  let s := (s.loadBytes 0 Reg.PT_CHARTER_HASH (sliceB (Config.sha512 c) 0 64)).setRegB 0 Reg.PT_STAT 0 true
  let s : State := { s with
    charter := some c
    entries := entryPairs es
    lastLock := some (es.map twinOf) }
  let s := es.foldl (fun (s : State) (v : BitVec 512) =>
    s.setPart (peIndex v) (if faulted.contains (peIndex v) then .faulted else .active)) s
  let s := if es.any fun v => faulted.contains (peIndex v) then s.setRegB 0 Reg.PT_ERR_STAT 1 true else s
  s.setRegB 0 Reg.PT_LOCK 0 true

/-! Boot (R408). -/

/-- The node enters RECOVERY with a cause. The management ports ask for addresses (R410). -/
def State.toRecovery (s : State) (cause : Nat) : State :=
  let s := (s.setRegF 0 Reg.LS_STATE 8 4 cause).setLife .recovery
  { s with mgmt := [(0, ⟨none, true⟩), (1, ⟨none, true⟩)] }.alert 7

/-- Steps 5 to 7. -/
def State.bootCharter (s : State) (env : BootEnv) : State :=
  let code := s.charterCode s.flash.charter
  let s := s.setRegF 0 Reg.PT_STAT 8 8 code
  match s.flash.charter with
  | some c =>
    if code ≠ 0 then ({ s with lastLock := some [] }.setRegB 0 Reg.PT_LOCK 0 true).toRecovery 4
    else ((s.bootScrub (chEntries c)).lock c env.scrubFails).setLife .standby
  | none => ({ s with lastLock := some [] }.setRegB 0 Reg.PT_LOCK 0 true).toRecovery 4

/-- The number of a copy of the repair record; 0 for one that is not valid. -/
def repairNumber (c : Option RepairCopy) : Nat := match c with | some r => r.number | none => 0

/-- The repair record that boot uses: the valid copy with the higher number, else no remaps and no fences (R406). -/
def Flash.repair (f : Flash) : List Nat × List Nat :=
  match (if repairNumber f.copyB < repairNumber f.copyA then f.copyA else f.copyB) with
  | some r => (r.remaps, r.fences)
  | none => ([], [])

/-- The older copy is written: with the next number, or, after a failed write, not valid. The other copy stands. -/
def Flash.repairWrite (f : Flash) (ok : Bool) (remaps fences : List Nat) : Flash :=
  let a := repairNumber f.copyA
  let b := repairNumber f.copyB
  let new : Option RepairCopy := if ok then some ⟨max a b + 1, remaps, fences⟩ else none
  if a ≤ b then { f with copyA := new } else { f with copyB := new }

/-- Step 4: the dies are trained, and the repair record loaded (R406); a failure is HELD. -/
def State.bootTrain (s : State) (env : BootEnv) : State :=
  match env.trainFail with
  | some c => ((s.setRegF 0 Reg.FX_STAT 0 3 c).setLife .held).alert 1
  | none => (((s.setRemaps s.flash.repair.1).setFences s.flash.repair.2).showFences).bootCharter env

/-- Identity keys (R336). -/
def State.deriveKeys (s : State) (seed : BitVec 256) : State :=
  let sd := leBytes 32 seed.toNat
  let label (l : List Nat) : List Byte := l.map (BitVec.ofNat 8)
  let ed := (Config.sha512 (sd ++ label [0x4F, 0x53, 0x47, 0x2D, 0x49, 0x44, 0x2D, 0x45, 0x44])).take 32
  let x := (Config.sha512 (sd ++ label [0x4F, 0x53, 0x47, 0x2D, 0x49, 0x44, 0x2D, 0x58])).take 32
  let s : State := { s with identity := some (ed ++ x) }
  ((s.loadBytes 0 Reg.PT_ID_ED (sliceB (Config.edPublic ed) 0 32)).loadBytes 0 Reg.PT_ID_X
    (sliceB (Config.x25519Public x) 0 32)).setRegB 0 Reg.PT_STAT 1 true

/-- Step 3 and after: the straps and a REBOOT with RCV lead to RECOVERY (R405, R416). -/
def State.bootIdentity (s : State) (env : BootEnv) : State :=
  if !env.pufOk then s.toRecovery 3
  else
    let s := s.deriveKeys Config.pufSeed
    if env.strapBoot % 2 = 1 then s.toRecovery 1 else if s.cause = 2 then s.toRecovery 5 else s.bootTrain env

/-- Step 2: the image of the SPI NOR is checked. -/
def State.bootFirmware (s : State) (env : BootEnv) : State :=
  let b := s.flash.firmware
  if fwCode b ≠ 0 then s.toRecovery 2
  else
    let v := leAt b 8 8
    let s := (s.setReg 0 Reg.LS_FW_VER_LO (BitVec.ofNat 32 v)).setReg 0 Reg.LS_FW_VER_HI (BitVec.ofNat 32 (v / 2 ^ 32))
    (s.loadBytes 0 Reg.PT_FW_HASH (sliceB (Config.sha512 (b.take (fwLength b))) 0 64)).bootIdentity env

/-- Step 1: the straps are sampled, and the random starts of the directory generation (R83) and of the watchdog are
drawn. -/
def State.bootStart (s : State) (env : BootEnv) : State :=
  let t : State := { s with
    pwrGood := true
    straps := BitVec.ofNat 32 (env.strapBoot % 4 + 4 * (env.strapPcie % 4) + 16 * (env.strapSlot % 4))
    dirGen := Config.freeValue 32 s.draws
    wdogValue := Config.freeValue 32 (s.draws + 1)
    draws := s.draws + 2 }
  if t.volt.vrLow then t.alert 5 else t

/-- POWER_ON_RESET (R421): the node is held in reset or has been reset, and boots. -/
def execPowerOnReset (env : BootEnv) (s : State) : Host.Outcome State Fault Refusal :=
  .next (if s.life = .boot ∧ !s.thermTripped then (s.bootStart env).bootFirmware env else s)

/-! Power-on reset as a loss (R395, R400, R413, R421). -/

/-- The flash after a power-on reset: a region whose write was interrupted fails its checks (R413). -/
def State.flashLeft (s : State) : Flash :=
  match s.rcvWriting with
  | some (.firmware, _) => { s.flash with firmware := [] }
  | some (.charter, _) => { s.flash with charter := some [] }
  | none => s.flash

/-- Rows of raw objects: with the object tables gone, they are re-encoded (R123). -/
def State.rawRows (s : State) : List Nat :=
  (s.objs.filter fun e => objRaw e.2 && objOk e.2).flatMap fun e => rowsOf (objBase e.2) (objSize e.2)

/-- The node in power-on reset. With `keep`, the supplies stayed up: the bytes of the hot and warm tiers and the record of
the last lock survive (R395, R400). -/
def State.powerCycle (s : State) (keep : Bool) (cause : Nat) (good : Bool) : State :=
  let tier (a : Nat) : Bool := decide (0x010000000000 ≤ a)
  { State.reset with
    pending := s.pending
    out := s.out
    draws := s.draws
    nextId := s.nextId
    posted := s.posted
    mem := if keep then tkeep tier s.mem else []
    ecc := if keep then s.ecc.filter fun e => tier (unitAddr e.1) else []
    recode := if keep then (s.recode ++ s.rawRows).dedup else []
    lastLock := if keep then s.lastLock else none
    flash := s.flashLeft
    straps := s.straps
    cause := cause
    pwrGood := good
    jtag := s.jtag
    volt := { State.reset.volt with vrLow := s.volt.vrLow }
    lodge := { State.reset.lodge with perst := s.lodge.perst } }

/-- PWR_GOOD_LOW: a low level of 1 µs or longer is a power-on reset, and the node stays in it until PWR_GOOD rises. -/
def execPwrGoodLow (ns : Nat) (s : State) : Host.Outcome State Fault Refusal :=
  .next (if 1000 ≤ ns then s.powerCycle false 0 false else s)

end Sys2Proof.Machine
end

