-- ==== Sys2Proof/Machine/Life.lean ====
section
/-!
DEFINITION. Life states, reset kinds, power states, and recovery (R391 to R413, R439).
-/

namespace Sys2Proof.Machine

/-! Life states (R391, R393). -/

/-- A request that R391 or R393 does not allow (R393). -/
def State.lifeBad (s : State) : State := s.setRegB 0 Reg.LS_ERR_STAT 0 true

/-- The life state that requests are judged against: a STANDBY that waits counts as STANDBY (log entry 34). -/
def State.lifeNow (s : State) : Life := if s.standbyWanted then .standby else s.life

/-- SERVICE: from STANDBY or DRAIN, once fabric time is set. -/
def State.toService (s : State) : State :=
  if (s.lifeNow = .standby ∨ s.lifeNow = .drain) ∧ !s.regB 0 Reg.FT_STAT 8 then
    { s with standbyWanted := false }.setLife .service
  else s.lifeBad

/-- DRAIN: from SERVICE. -/
def State.toDrain (s : State) : State := if s.lifeNow = .service then s.setLife .drain else s.lifeBad

/-- STANDBY: requested from SERVICE or DRAIN. -/
def State.toStandby (s : State) : State :=
  if s.lifeNow = .service ∨ s.lifeNow = .drain then { s with standbyWanted := true } else s.lifeBad

/-- HOLD: from STANDBY, SERVICE or DRAIN; HELD_CAUSE stays 0. -/
def State.toHold (s : State) : State :=
  if s.life = .standby ∨ s.life = .service ∨ s.life = .drain then s.enterHeld 0 else s.lifeBad

/-- SERVICE. -/
def execService (s : State) : Host.Outcome State Fault Refusal := .next (if s.fnServed 0 then s.toService else s)

/-- DRAIN. -/
def execDrain (s : State) : Host.Outcome State Fault Refusal := .next (if s.fnServed 0 then s.toDrain else s)

/-- STANDBY. -/
def execStandby (s : State) : Host.Outcome State Fault Refusal := .next (if s.fnServed 0 then s.toStandby else s)

/-- STANDBY_ENTER: no command taken is incomplete, and no verdict is owed. -/
def execStandbyEnter (s : State) : Host.Outcome State Fault Refusal :=
  .next (if s.standbyWanted ∧ s.cmds.isEmpty ∧ !s.sent.any (fun e => e.early && e.verdict.isNone) then
      { s with standbyWanted := false }.setLife .standby
    else s)

/-- HOLD. -/
def execHold (s : State) : Host.Outcome State Fault Refusal := .next (if s.fnServed 0 then s.toHold else s)

/-- REBOOT (R395). -/
def State.rebootNow (s : State) (rcv : Bool) : State := s.powerCycle true (if rcv then 2 else 1) true

/-- REBOOT. -/
def execReboot (rcv : Bool) (s : State) : Host.Outcome State Fault Refusal :=
  .next (if s.fnServed 0 then s.rebootNow rcv else s)

/-! Partition and engine resets (R394, R398). -/

/-- PRESET: as R365, without its step 3. -/
def execPreset (part : Nat) (s : State) : Host.Outcome State Fault Refusal :=
  .next (if s.pf0 ∧ part < 64 then s.resetPart part else s)

/-- Engines of a mask. -/
def engineMask (v : Word) : List Nat := (List.range 6).filter fun e => getB v e

/-- Scratch contexts of span-jobs whose request is gone are cleared (R398). -/
def State.clearJobs (s : State) : State :=
  let gone (c : JobCtx) : Bool := match c.job with | some (id, _) => (s.req? id).isNone | none => false
  s.scratch.foldl (fun (s : State) (e : Nat × Scratch) =>
    let s := if gone e.2.ctx0 then s.putCtx e.1 0 JobCtx.clear else s
    if gone e.2.ctx1 then s.putCtx e.1 1 JobCtx.clear else s) s

/-- A write of LS_ENG_RESET (R398). -/
def State.engineResetWrite (s : State) (fn : Nat) (v : Word) : State :=
  let p := if fn = 0 then getF v 8 6 else fn - 1
  let es := engineMask v
  if !s.fnServed fn ∨ s.life = .recovery ∨ es.isEmpty ∨ s.part p ≠ .active then s.unserved fn
  else
    let s : State := { s with engResets := s.engResets ++ [({ part := p, engines := es, from_ := s.ms } : Reset)] }
    (s.cutCmds (fun c => c.part == p && es.contains c.eng) 0x0A 4).clearJobs

/-- ENGINE_RESET. -/
def execEngineReset (fn : Nat) (v : Word) (s : State) : Host.Outcome State Fault Refusal :=
  .next (s.engineResetWrite fn v)

/-- PARTITION_RESET_END: every command of the partition has completed. A RELEASE that arrived meanwhile takes effect
(R349). -/
def execPartitionResetEnd (part : Nat) (s : State) : Host.Outcome State Fault Refusal :=
  .next (if !s.resets.any (fun r => r.part == part) ∨ s.cmds.any (fun c => c.part == part) then s
    else
      let s : State := { s with resets := s.resets.filter fun r => r.part != part }
      if s.releaseStep part = some .delayed then s.releaseBegin part else s)

/-- ENGINE_RESET_END: every command of the engines reset has completed. -/
def execEngineResetEnd (part : Nat) (s : State) : Host.Outcome State Fault Refusal :=
  let es := (s.engResets.filter fun r => r.part == part).flatMap Reset.engines
  .next (if s.cmds.any (fun c => c.part == part && es.contains c.eng && c.phase == .ended) then s
    else { s with engResets := s.engResets.filter fun r => r.part != part })

/-! Resets of functions (R396, R397, R439). -/

/-- Far windows of KIND 1 become KIND 0, and HAULs that run through them end with ABORTED (R51). -/
def State.closeHostWindows (s : State) (f : Nat → Bool) : State :=
  let ks := (s.far.filter fun e => e.2.ok && farKind e.2.val == 1 && f (farPart e.2.val)).map (·.1)
  let s := ks.foldl (fun (s : State) (k : Nat) => s.setFar k (pairOf (setF (s.farEntry k).val 8 2 0))) s
  (s.hauls.filter fun h => (h.srcFar ++ h.dstFar).any fun w => ks.contains w.1).foldl
    (fun (s : State) (h : Haul) => s.endHaul h 0x0A) s

/-- The command was taken from a host ring of a partition. -/
def Cmd.fromHost (c : Cmd) (p : Nat) : Bool := match c.q with | .host q _ => q == p | .inbound _ _ => false

/-- Commands of some host rings post no record any longer. -/
def State.discardRecords (s : State) (f : Nat → Bool) : State :=
  { s with cmds := s.cmds.map fun c => if f c.part ∧ !c.inline? then { c with discard := true } else c }

/-- FLR of the VF of a partition (R397). -/
def State.vfReset (s : State) (p : Nat) : State :=
  let s := (s.discardRecords (· == p)).cutCmds (fun c => c.fromHost p) 0x0A 4
  ((s.ringsOff p).resetRegs (vfOf p)).closeHostWindows (· == p)

/-- FUNCTION_LEVEL_RESET: that of PF0 clears VF Enable, and so acts on every VF. -/
def execFunctionLevelReset (fn : Nat) (s : State) : Host.Outcome State Fault Refusal :=
  .next (if !s.lodgeAnswers ∨ !s.fnExists fn then s
    else
      let s := s.count 0 Reg.LS_FLR_CNT 1
      if fn = 0 then
        let s := (List.range 64).foldl State.vfReset (s.resetRegs 0)
        { s with lodge := { s.lodge with vfEnable := false } }
      else s.vfReset (fn - 1))

/-- VF_ENABLE: VFs that cease to exist are reset as by an FLR (R394, R439). -/
def execVfEnable (numVfs : Nat) (enable : Bool) (s : State) : Host.Outcome State Fault Refusal :=
  .next (if !s.lodgeAnswers ∨ 64 < numVfs then s
    else
      let t : State := { s with lodge := { s.lodge with numVfs := numVfs, vfEnable := enable } }
      ((List.range 64).filter fun p => s.fnExists (p + 1) && !t.fnExists (p + 1)).foldl State.vfReset t)

/-! Power states (R402, R403). -/

/-- The target power state. -/
def State.powerTarget (s : State) : Power :=
  if s.lodge.d3hot then .banked
  else match s.regF 0 Reg.LS_PWR_CTL 0 2 with
    | 0 => .lit
    | 1 => .damped
    | _ => .banked

/-- PWR_BUSY. -/
def State.pwrBusy (s : State) : Bool := s.powerWant != s.power || s.powerNext.isSome

/-- A state whose PWR_BUSY may have fallen raises vector 2 (R451). -/
def State.busyFell (s : State) (before : Bool) : State := if before && !s.pwrBusy then s.msix 0 2 else s

/-- The target is taken up. -/
def State.retarget (s : State) : State := { s with powerWant := s.powerTarget }.busyFell s.pwrBusy

/-- A write of LS_PWR_CTL: TARGET 3 leaves the field unchanged (R416). -/
def State.powerWrite (s : State) (v : Word) : State :=
  (if getF v 0 2 = 3 then s else s.setReg 0 Reg.LS_PWR_CTL (v &&& 3)).retarget

/-- POWER_TARGET. -/
def execPowerTarget (v : Word) (s : State) : Host.Outcome State Fault Refusal :=
  .next (if s.pf0 then s.powerWrite v else s)

/-- D_STATE_CHANGE of PF0. -/
def execDStateChange (d3hot : Bool) (s : State) : Host.Outcome State Fault Refusal :=
  .next (if s.lodgeAnswers then { s with lodge := { s.lodge with d3hot := d3hot } }.retarget else s)

/-- No ATTEND, MERGE or KINDLE is in flight (R170, R219, R403). -/
def State.enginesIdle (s : State) : Bool :=
  s.reqs.isEmpty && s.merges.isEmpty && s.kindles.isEmpty &&
  !s.cmds.any fun c => c.eng == 0 || c.eng == 2 || (c.eng == 3 && dOp c.desc == 0)

/-- The operating point chosen comes into force (R33, R432): the clocks change, then the voltages fall to it. -/
def State.applyOpp (s : State) : State :=
  let s := if s.regF 0 Reg.FT_OPP_CUR 0 2 = s.therm.chosen then s
    else (s.setRegF 0 Reg.FT_OPP_CUR 0 2 s.therm.chosen).count 0 Reg.PW_OPP_CHG_CNT 1
  if s.volt.point = s.therm.chosen then s
  else { s with volt := { s.volt with point := s.therm.chosen } }.emit (.avs s.therm.chosen)

/-- The step of R403 at a boundary with N mod 64 = 0. A change held off by Banked applies on exit (R404), and Banked clears the
scratch of the columns (R400). -/
def State.powerStep (s : State) : State :=
  let busy := s.pwrBusy
  match s.powerNext with
  | some t =>
    if s.saving then s
    else
      let wasBanked := s.power == .banked
      let s : State := { s with power := t, powerNext := none }
      let s := if t = .banked then s.clearScratch fun _ => true else s
      (if wasBanked then s.applyOpp else s).busyFell busy
  | none =>
    if s.powerWant = s.power then s
    else if s.power = .banked then { s with powerNext := some s.powerWant }
    else if s.powerWant = .banked then
      if s.life ≠ .boot ∧ s.life ≠ .recovery ∧ s.enginesIdle then { s with powerNext := some .banked, saving := true }
      else s
    else if s.powerWant = .damped ∧ s.kindles.any Kindle.executing then s
    else { s with power := s.powerWant }.busyFell busy

/-- POWER_STATE_CHANGE. -/
def execPowerStateChange (s : State) : Host.Outcome State Fault Refusal :=
  .next (if s.ms % 64 = 0 ∧ s.ns = 0 then s.powerStep else s)

/-- FIREBOX_SAVE_DONE: the firebox is saved, so the change to Banked may apply. The end of a restore needs no mark: the
target applies from the next boundary. -/
def execFireboxSaveDone (s : State) : Host.Outcome State Fault Refusal :=
  .next (if s.saving then { s with saving := false } else s)

/-! Lodge reset (R396, R409). -/

/-- A Lodge reset: every function returns to its reset values, rings are DISABLED, and records of taken commands are
discarded. -/
def State.lodgeDown (s : State) : State :=
  let s := (List.range 65).foldl State.resetRegs (s.discardRecords fun _ => true)
  let s : State := { s with
    rings := []
    links := s.links.filter fun e => decide (0x1000 ≤ e.1)
    lodge := { s.lodge with linkUp := false, numVfs := 0, vfEnable := false, d3hot := false } }
  ((s.closeHostWindows fun _ => true).retarget).count 0 Reg.LS_LODGE_RST_CNT 1

/-- LODGE_RESET: PERST# asserted, a Hot Reset, or the link going down. -/
def execLodgeReset (cause : LodgeCause) (s : State) : Host.Outcome State Fault Refusal :=
  .next (match cause with
    | .perst =>
      if s.lodge.perst then s
      else { s with lodge := { s.lodge with perst := true } }.lodgeDown
    | .hotReset => if s.lodge.linkUp then s.lodgeDown else s
    | .linkDown => if s.lodge.linkUp then s.lodgeDown else s)

/-- PERST_RELEASE: link training may start (R409). -/
def execPerstRelease (s : State) : Host.Outcome State Fault Refusal :=
  .next { s with lodge := { s.lodge with perst := false } }

/-- LODGE_LINK_UP: training ends. With STRAP_PCIE_MAX at 3 the link is disabled (R405). -/
def execLodgeLinkUp (s : State) : Host.Outcome State Fault Refusal :=
  .next (if s.pwrGood ∧ !s.lodge.perst ∧ getF s.straps 2 2 ≠ 3 then { s with lodge := { s.lodge with linkUp := true } }
    else s)

/-! Recovery (R410 to R413, R450). -/

/-- LS_RCV_STAT: STATE and CODE. -/
def State.rcvStat (s : State) (st code : Nat) : State :=
  s.setReg 0 Reg.LS_RCV_STAT (BitVec.ofNat 32 (st * 2 ^ 30 + code * 2 ^ 8))

/-- CODE of the checks of a staged file (R411): 0 when they pass. -/
def State.fileCode (s : State) (f : RcvFile) (b : List Byte) : Nat :=
  match f with
  | .firmware => if fwLength b ≠ b.length then 1 else fwCode b
  | .charter =>
    if !charterForm b then 1
    else if chDevice b ≠ s.regBytes 0 Reg.PT_ID_ED 8 then 3
    else if !charterSigned b then 2
    else 0

/-- A file is checked, and its SPI write starts. -/
def State.commitFile (s : State) (f : RcvFile) (b : List Byte) : State :=
  let code := s.fileCode f b
  if code ≠ 0 then s.rcvStat 3 code else { s with rcvWriting := some (f, b) }.rcvStat 2 0

/-- A write of LS_RCV_CTL (R411, R416). -/
def State.commitWrite (s : State) (v : Word) : State :=
  if !getB v 0 then s
  else if s.life ≠ .recovery then s.rcvStat 3 5
  else if s.rcvWriting.isSome then s.setRegF 0 Reg.LS_RCV_STAT 8 8 6
  else
    let b := s.staged 0 (s.regF 0 Reg.LS_RCV_LEN 0 25)
    match getF v 8 2 with
    | 0 => s.commitFile .firmware b
    | 1 => s.commitFile .charter b
    | _ => s.rcvStat 3 1

/-- RECOVERY_COMMIT. -/
def execRecoveryCommit (v : Word) (s : State) : Host.Outcome State Fault Refusal :=
  .next (if s.fnServed 0 then s.commitWrite v else s)

/-- RECOVERY_WRITE_DONE: after a failure the region fails its checks (R413; log entry 35). -/
def execRecoveryWriteDone (ok : Bool) (s : State) : Host.Outcome State Fault Refusal :=
  .next (match s.rcvWriting with
    | none => s
    | some (f, b) =>
      let t : State := { s with
        rcvWriting := none
        flash := if !ok then s.flashLeft else match f with
          | .firmware => { s.flash with firmware := b }
          | .charter => { s.flash with charter := some b } }
      t.rcvStat 3 (if ok then 0 else 4))

/-- The ASCII digit of a hexadecimal figure. -/
def hexDigit (n : Nat) : Byte := BitVec.ofNat 8 (if n < 10 then 48 + n else 87 + n)

/-- A TFTP error packet (RFC 1350), with its error code and message. -/
def tftpError (code : Nat) (msg : List Byte) : List Byte := beBytes 2 5 ++ beBytes 2 code ++ msg ++ [0]

/-- A refused check is answered with TFTP error 0 and CODE in hexadecimal (R412). -/
def State.tftpRefuse (s : State) : State :=
  let c := s.regF 0 Reg.LS_RCV_STAT 8 8
  s.emit (.tftp (tftpError 0 [hexDigit (c / 16), hexDigit (c % 16)]))

/-- TFTP_WRITE: the file is staged, checked and written. -/
def execTftpWrite (file : RcvFile) (data : List Byte) (s : State) : Host.Outcome State Fault Refusal :=
  .next (
    if s.life ≠ .recovery then s
    else if s.rcvWriting.isSome then s.emit (.tftp (tftpError 0 []))
    else if 16777216 < data.length then (s.rcvStat 3 1).tftpRefuse
    else
      let s : State := { s with staging := (data.zipIdx).foldl (fun (t : List (Nat × Byte)) (x : Byte × Nat) =>
        tput (fun _ => 0) t x.2 x.1) s.staging }
      let s := s.commitFile file data
      if s.rcvWriting.isSome then s else s.tftpRefuse)

/-- TFTP_REBOOT: a power-on reset. -/
def execTftpReboot (s : State) : Host.Outcome State Fault Refusal :=
  .next (if s.life = .recovery then s.rebootNow false else s)

/-- TFTP_READ: refused with error 2. -/
def execTftpRead (s : State) : Host.Outcome State Fault Refusal :=
  .next (if s.life = .recovery then s.emit (.tftp (tftpError 2 [])) else s)

/-- A management port takes an address. -/
def State.takeIp (s : State) (port : Nat) (ip : Word) : State :=
  { s with mgmt := s.mgmt.map fun m => if m.1 = port ∧ m.2.dhcpWait then (port, ⟨some ip, false⟩) else m }

/-- DHCP_TIMEOUT: a link-local address of RFC 3927; its low half is a free value (log entry 1). -/
def execDhcpTimeout (port : Nat) (s : State) : Host.Outcome State Fault Refusal :=
  .next (if s.life = .recovery then s.drawn.takeIp port (BitVec.ofNat 32 (0xA9FE0000 + (s.fresh 16).toNat)) else s)

/-- DHCP_REPLY. -/
def execDhcpReply (port : Nat) (ip : Word) (s : State) : Host.Outcome State Fault Refusal :=
  .next (if s.life = .recovery then s.takeIp port ip else s)

/-- Bytes land in the staging memory through a window that decodes (R450). -/
def State.stage (s : State) (recovery : Bool) (off : Nat) (bs : List Byte) : State :=
  if recovery ≠ (s.life == .recovery) ∨ 16777216 < off + bs.length then s
  else { s with staging := (bs.zipIdx).foldl (fun (t : List (Nat × Byte)) (x : Byte × Nat) =>
    tput (fun _ => 0) t (off + x.2) x.1) s.staging }

/-- STAGING_WRITE. -/
def execStagingWrite (recovery : Bool) (off : Nat) (data : List Byte) (s : State) :
    Host.Outcome State Fault Refusal :=
  .next (if s.fnServed 0 then s.stage recovery off data else s)

/-- REPAIR_RECORD_WRITE (R406): the Custody firmware rewrites the older copy after a change, and again after a failed
write. -/
def execRepairRecordWrite (ok : Bool) (s : State) : Host.Outcome State Fault Refusal :=
  .next (if s.repairDirty.isSome then { s with
      repairDirty := if ok then none else s.repairDirty
      flash := s.flash.repairWrite ok s.remaps s.fences }
    else s)

end Sys2Proof.Machine
end

