-- ==== Sys2Proof/Machine/Pins.lean ====
section
/-!
DEFINITION. The tray interface, the management alert, regulators, thermal and power control, and JTAG (R417 to R437).
-/

namespace Sys2Proof.Machine

/-! The tray interface (R423). -/

/-- I3C_SETDASA: a dynamic address, for the target at static address 0x50 + STRAP_SLOT. -/
def execI3cSetdasa (addr : Nat) (s : State) : Host.Outcome State Fault Refusal :=
  .next (if s.pwrGood then { s with i3c := { s.i3c with addr := some (addr % 128) } } else s)

/-- I3C_ENEC_DISEC. -/
def execI3cEnecDisec (enable : Bool) (s : State) : Host.Outcome State Fault Refusal :=
  .next (if s.pwrGood then { s with i3c := { s.i3c with ibi := enable } } else s)

/-- The index that a private write sets. -/
def State.i3cIndex (s : State) (i : Nat) : State := { s with i3c := { s.i3c with index := i % 256 } }

/-- I3C_PRIVATE_WRITE. -/
def execI3cPrivateWrite (index : Nat) (s : State) : Host.Outcome State Fault Refusal :=
  .next (if s.pwrGood then s.i3cIndex index else s)

/-- LS_STATE (R416): LIFE, the power state, PWR_BUSY, and the stored RCV_CAUSE. -/
def State.lsState (s : State) : Word :=
  let p : Nat := match s.power with
    | .lit => 0
    | .damped => 1
    | .banked => 2
    | .off => 0
  let l : Nat := match s.life with
    | .boot => 0
    | .recovery => 1
    | .standby => 2
    | .service => 3
    | .drain => 4
    | .held => 5
  setB (setF (setF (s.reg 0 Reg.LS_STATE) 0 3 l) 4 2 p) 6 s.pwrBusy

/-- The byte at an index of the tray interface. In RECOVERY, indexes 0x02 to 0x08 read 0x00. -/
def State.trayByte (s : State) (i : Nat) : Byte :=
  let f (off lo : Nat) : Byte :=
    if s.life = .recovery then 0 else BitVec.ofNat 8 (s.regF 0 off lo 8)
  match i with
  | 0x00 => BitVec.ofNat 8 s.lsState.toNat
  | 0x01 => BitVec.ofNat 8 (s.regF 0 Reg.PW_ALERT_STAT 0 8)
  | 0x02 => f Reg.RT_NODE_ID 0
  | 0x03 => f Reg.RT_NODE_ID 8
  | 0x04 => f Reg.PW_STAT 24
  | 0x05 => f Reg.PW_STAT 16
  | 0x06 => f Reg.PW_POWER 0
  | 0x07 => f Reg.PW_POWER 8
  | 0x08 => if s.life = .recovery then 0 else BitVec.ofNat 8 (s.regF 0 Reg.FT_OPP_CUR 0 2)
  | _ => 0

/-- I3C_PRIVATE_READ. -/
def execI3cPrivateRead (len : Nat) (s : State) : Host.Outcome State Fault Refusal :=
  .next (if s.pwrGood then s.emit (.i3c ((List.range len).map fun k => s.trayByte (s.i3c.index + k))) else s)

/-- TRAY_RESET_COMMAND: a write to index 0x10. It acts as REBOOT, and records LS_CAUSE 3. -/
def execTrayResetCommand (b : Byte) (s : State) : Host.Outcome State Fault Refusal :=
  .next (if !s.pwrGood then s
    else if b = 0x5A ∧ s.i3c.armed then s.powerCycle true 3 true
    else { s with i3c := { s.i3c with armed := b == 0xA5, index := 0x10 } })

/-- TRAY_RESET_WINDOW_EXPIRE: 1 ms after the 0xA5. -/
def execTrayResetWindowExpire (s : State) : Host.Outcome State Fault Refusal :=
  .next { s with i3c := { s.i3c with armed := false } }

/-! The management alert (R422). -/

/-- The condition of an alert cause is present. -/
def State.alertCond (s : State) (i : Nat) : Bool :=
  match i with
  | 0 => s.adrift
  | 1 => s.life == .held
  | 2 => s.regB 0 Reg.FX_STAT 3
  | 3 => s.regF 0 Reg.PW_STAT 4 2 == 3
  | 4 => s.regF 0 Reg.PW_STAT 2 2 != 0
  | 5 => s.volt.vrLow || s.volt.hold3 || s.regB 0 Reg.PW_STAT 9
  | 6 => s.regB 0 Reg.FX_ERR_STAT 0
  | 7 => s.life == .recovery
  | _ => false

/-- A write of 1 clears a bit of PW_ALERT_STAT, but leaves it set if the condition is still present. -/
def State.alertClear (s : State) (v : Word) : State :=
  (List.range 8).foldl (fun (s : State) (i : Nat) =>
    if getB v i && !s.alertCond i then s.setRegB 0 Reg.PW_ALERT_STAT i false else s) s

/-- ALERT_CLEAR: a write to index 0x11. -/
def execAlertClear (b : Byte) (s : State) : Host.Outcome State Fault Refusal :=
  .next (if s.pwrGood then (s.i3cIndex 0x11).alertClear (BitVec.ofNat 32 b.toNat) else s)

/-- A write of PW_ALERT_MASK. -/
def State.alertMask (s : State) (v : Word) : State :=
  (s.setReg 0 Reg.PW_ALERT_MASK (v &&& 0xFF)).alertFrom s.alertLow

/-! Thermal and power control (R432). -/

/-- The index of one input, of its value in tenths of a degree, its thresholds and the hysteresis in degrees, and its
current index. -/
def thermIndex (value : Nat) (t : List Nat) (hyst cur : Nat) : Nat :=
  let cand := match t with
    | [t1, t2, t3] => if 10 * t3 ≤ value then 3 else if 10 * t2 ≤ value then 2 else if 10 * t1 ≤ value then 1 else 0
    | _ => 0
  if cur < cand then cand
  else if cand < cur ∧ value + 10 * hyst < 10 * t.getD (cur - 1) 0 then cand
  else cur

/-- The power index after a decision. -/
def powerIndex (watts pcap cur : Nat) : Nat :=
  if pcap < watts then min 3 (cur + 1) else if 10 * watts < 9 * pcap then cur - 1 else cur

/-- The maxima of the window of 32 milestones that a milestone's readings belong to. Above 85 °C of DRAM temperature the
HBM3E is refreshed at twice the nominal rate (R431). -/
def State.sensed (s : State) (n : Nat) (logic dram : Nat) : State :=
  let fresh := n % 64 = 1
  let s : State := { s with therm := { s.therm with
    maxLogic := if fresh then logic else max s.therm.maxLogic logic
    maxDram := if fresh then dram else max s.therm.maxDram dram
    refresh2 := decide (850 < dram) } }
  (s.setRegF 0 Reg.PW_STAT 24 8 (logic / 10)).setRegF 0 Reg.PW_STAT 16 8 (dram / 10)

/-- Voltages are raised at once when the clocks will rise. -/
def State.raiseVoltage (s : State) : State :=
  if s.therm.chosen < s.volt.point then
    { s with volt := { s.volt with point := s.therm.chosen } }.emit (.avs s.therm.chosen)
  else s

/-- The decision of R432. -/
def State.thermalStep (s : State) : State :=
  let th := s.reg 0 Reg.PW_THERM
  let hyst := getF th 24 4
  let il := thermIndex s.therm.maxLogic [getF th 0 8, getF th 8 8, getF th 16 8] hyst s.therm.idxLogic
  let id := thermIndex s.therm.maxDram [85, 89, 93] hyst s.therm.idxDram
  let ip := if s.regB 0 Reg.PW_CFG 2 then
      powerIndex (s.regF 0 Reg.PW_POWER 0 16) (s.regF 0 Reg.PW_CFG 16 16) s.therm.idxPower
    else s.therm.idxPower
  let it := max il id
  let chosen := if s.volt.hold3 then 3 else max (max it ip) (s.regF 0 Reg.PW_CFG 0 2)
  let s : State := { s with therm := { s.therm with
    idxLogic := il, idxDram := id, idxPower := ip, chosen := chosen, decidedAt := some s.ms } }
  let s := (s.setRegF 0 Reg.PW_STAT 4 2 it).setRegF 0 Reg.PW_STAT 2 2 ip
  let s := if it = 3 then s.alert 3 else s
  (if 0 < ip then s.alert 4 else s).raiseVoltage

/-- THERMAL_DECISION: once at each milestone with N mod 64 = 32. -/
def execThermalDecision (s : State) : Host.Outcome State Fault Refusal :=
  .next (if s.pwrGood ∧ s.ms % 64 = 32 ∧ s.therm.decidedAt ≠ some s.ms then s.thermalStep else s)

/-- PW_THERM_WRITE (R437). -/
def State.thermWrite (s : State) (v : Word) : State :=
  let t (lo : Nat) : Nat := min 104 (getF v lo 8)
  if t 0 < t 8 ∧ t 8 < t 16 then
    s.setReg 0 Reg.PW_THERM (BitVec.ofNat 32 (t 0 + t 8 * 2 ^ 8 + t 16 * 2 ^ 16 + getF v 24 4 * 2 ^ 24))
  else s.setRegB 0 Reg.PW_STAT 8 true

/-- PW_THERM_WRITE. -/
def execPwThermWrite (v : Word) (s : State) : Host.Outcome State Fault Refusal :=
  .next (if s.pf0 then s.thermWrite v else s)

/-! Regulators (R428). -/

/-- The readings of one rail are shown. The MV of a rail that does not answer is a free value (log entry 1). -/
def State.rail (s : State) (r : Nat) (x : Option (Nat × Nat)) : State :=
  match x with
  | some (mv, i) => s.setReg 0 (Reg.PW_RAIL + 4 * r) (BitVec.ofNat 32 (i % 65536 + mv % 65536 * 2 ^ 16))
  | none => s.drawn.setReg 0 (Reg.PW_RAIL + 4 * r) (BitVec.ofNat 32 ((s.fresh 16).toNat * 2 ^ 16))

/-- The sum of the readings in tenths of a milliwatt; a rail that does not answer counts as 0 W. -/
def scanPower (readings : List (Option (Nat × Nat))) : Nat :=
  (readings.map fun x => match x with
    | some (mv, i) => (mv % 65536) * (i % 65536)
    | none => 0).sum

/-- STATUS_WORD of every rail is read while VR_ALERT_N is low. -/
def State.statusWords (s : State) : State :=
  if s.volt.vrLow then (List.range 15).foldl (fun (s : State) (r : Nat) => s.emit (.statusWord (0x40 + r))) s else s

/-- PMBUS_SCAN: millivolts and tenths of an ampere of rails 0 to 14. How a fraction of a watt is rounded is a free value
(log entry 1). -/
def execPmbusScan (readings : List (Option (Nat × Nat))) (s : State) : Host.Outcome State Fault Refusal :=
  .next (if !s.pwrGood then s
    else
      let rs := (List.range 15).map fun r => readings.getD r none
      let s := (rs.zipIdx).foldl (fun (s : State) (x : Option (Nat × Nat) × Nat) => s.rail x.2 x.1) s.statusWords
      let p := scanPower rs
      let w := p / 10000 + if p % 10000 = 0 then 0 else (s.fresh 1).toNat
      let miss := rs.contains none
      let s := (s.drawn.setReg 0 Reg.PW_POWER (BitVec.ofNat 32 (w % 65536))).setRegB 0 Reg.PW_STAT 9 miss
      if miss then s.alert 5 else s)

/-- VR_ALERT: the level of VR_ALERT_N. -/
def execVrAlert (low : Bool) (s : State) : Host.Outcome State Fault Refusal :=
  let t : State := { s with volt := { s.volt with vrLow := low } }
  .next (if low ∧ s.pwrGood then t.statusWords.alert 5 else t)

/-- AVS_NACK: the command is sent once more; if that also fails, operating point 3 is held. -/
def execAvsNack (resendOk : Bool) (s : State) : Host.Outcome State Fault Refusal :=
  .next (if !s.pwrGood then s
    else
      let t := s.emit (.avs s.volt.point)
      if resendOk then t
      else { t with volt := { t.volt with hold3 := true }, therm := { t.therm with chosen := 3 } }.alert 5)

/-- THERMTRIP (R433): the clocks stop and the transmitters are released, until the supplies are removed; what the node held
is lost with them (R400). -/
def execThermtrip (s : State) : Host.Outcome State Fault Refusal :=
  .next (if s.pwrGood then { s.powerCycle false 0 false with thermTripped := true }.emit .thermtrip else s)

/-! JTAG (R424). -/

/-- The instruction that acts, of the code loaded. -/
def State.jtagActs (s : State) : Nat :=
  if s.jtag = 1 ∨ s.jtag = 2 then s.jtag
  else if (s.jtag = 0 ∨ s.jtag = 3 ∨ s.jtag = 4) ∧ (s.life = .recovery ∨ s.life = .boot) then s.jtag
  else 0xFF

/-- JTAG_INSTRUCTION. -/
def execJtagInstruction (code : Nat) (s : State) : Host.Outcome State Fault Refusal :=
  let t : State := { s with jtag := code % 256 }
  .next (t.emit (.jtag t.jtagActs (if t.jtagActs = 2 then some 0x1C160E2B else none)))

end Sys2Proof.Machine
end

