-- ==== Sys2Proof/Machine/Boundary.lean ====
section
/-!
DEFINITION. The milestone boundary: the events of R30 in their order, and what else a new milestone brings.
-/

namespace Sys2Proof.Machine

/-! Disturbances of storage (R63, R126, R364). -/

/-- A pair that an upset leaves not valid. -/
def Pair.hurt {n : Nat} (p : Pair n) : Pair n := if p.ok then p.upset else p

/-- A record kept twice, with one copy hit or both (R364). -/
def Twin.hurt {n : Nat} (t : Twin n) (copies : Nat) : Twin n := ⟨t.a.hurt, if copies = 1 then t.b else t.b.hurt⟩

/-- One bit of a stored pair flips, in one copy or in both of a record that the node keeps twice (R364). -/
def State.upsetPair (s : State) (r : RecRef) (copies : Nat) : State :=
  if copies = 0 then s
  else match r with
    | .dir p q l => s.setDir ⟨p, q, l⟩ fun d =>
        { d with a := d.a.hurt, b := if copies = 1 then d.b else d.b.hurt }
    | .lease p q l => s.setDir ⟨p, q, l⟩ fun d =>
        { d with oa := d.oa.hurt, ob := if copies = 1 then d.ob else d.ob.hurt }
    | .ember id => { s with
        sent := s.sent.map fun e => if e.id = id then { e with hdr := e.hdr.hurt } else e
        recv := s.recv.map fun (x : Recv) => if x.id = id then { x with hdr := x.hdr.map Pair.hurt } else x }
    | .lock k => { s with lastLock := s.lastLock.map fun es => es.mapIdx fun i t => if i = k then t.hurt copies else t }
    | .fenceList => { s with fenceRec := s.fenceRec.hurt copies }
    | .spare k => { s with spares := s.spares.mapIdx fun i t => if i = k then t.hurt copies else t }
    | .partState p => if p < 64 then
        { s with partState := tput (fun _ => pairOf 0) s.partState p (s.partPair p).hurt } else s
    | .release p => { s with releasing := s.releasing.map fun e => if e.1 = p then (p, e.2.hurt) else e }
    | .probeRun k => { s with probe := s.probe.map fun x => { x with
        due := x.due.mapIdx fun i (r : ProbeRun) => if i = k then { r with second := r.second.hurt } else r } }
    | .scrub c => { s with scrub := s.scrub.map fun e =>
        if e.1 = c then (c, ({ e.2 with row := e.2.row.hurt } : Scrub)) else e }
    | .waymark p w => if p < 64 ∧ w < 4096 then s.setWm p w (s.wm p w).hurt else s
    | .waykey i => if i < 65536 then s.setWaykey i (s.waykey i).hurt else s
    | .shaper p l => if p < 64 ∧ l < 16 then s.setShaper p l (s.shaper p l).hurt else s
    | .entry p => { s with entries := s.entries.map fun e => if e.1 = p then (p, e.2.hurt) else e }
    | .far k => if k < 256 then s.setFar k (s.farEntry k).hurt else s

/-- The latent error of a unit after one more disturbance. -/
def Ecc.worse (e : Ecc) (ue : Bool) : Ecc := if ue || e == .uncorrectable then .uncorrectable else .correctable

/-- A unit of storage is disturbed. In a raw row, which is never checked (R125), a bit of the data itself flips. -/
def State.upsetSector (s : State) (a : Nat) (ue : Bool) : State :=
  let n := native a
  if isHot n && s.rawRow (rowOf n) then s.store n [s.byte n ^^^ 1]
  else if isHot n || decide (n < 0x60000000) || decide (0x050000000000 ≤ n ∧ n < 0x060000000000) then
    s.setEcc (unitOf n) ((s.eccAt (unitOf n)).worse ue)
  else s

/-- A word of the scratch of a column is disturbed (R361). -/
def State.upsetScratch (s : State) (c w : Nat) (ue : Bool) : State :=
  if c < 512 ∧ w < 32768 then s.setScratchEcc c w ((s.scratchEccAt c w).worse ue) else s

/-- An upset. -/
def State.upset (s : State) (u : Upset) : State :=
  match u with
  | .sector a ue => s.upsetSector a ue
  | .scratch c w ue => s.upsetScratch c w ue
  | .pair r copies => s.upsetPair r copies

/-! The events of R30. -/

/-- A milestone congruent to `o` modulo `p` lies in `(lo, hi]`. -/
def dueIn (lo hi p o : Nat) : Bool := (lo + p - o) / p != (hi + p - o) / p

/-- A boundary at which the array table places a slot boundary lies after milestone `from_`: the owner in force differs
from that of the milestone before it (R328). A step may pass several (R25); 64 boundaries in succession show them all,
since the table has at most 64 entries. -/
def State.slotPassed (s : State) (from_ : Nat) : Bool :=
  (List.range (min 64 (s.ms - from_))).any fun i => s.arrayOwner (s.ms - i - 1) != s.arrayOwner (s.ms - i)

/-- Event 2: at a slot boundary of the array table, the slices wake (R36, R208), and a slot that passed with no operation is
counted (R227). -/
def State.slotBoundary (s : State) (from_ : Nat) : State :=
  if !s.slotPassed from_ then s
  else
    let s := (List.range 4).foldl (fun (s : State) (h : Nat) => s.wake (.slice h)) s
    let s := if s.arrayUsed then s else s.count 0 Reg.KN_SLOT_IDLE_CNT 1
    { s with arrayUsed := false }

/-- Event 4: deferred MERGEs try again (R195), and the stride is dispatched (R142). In Banked it does nothing (R404). -/
def State.strideEvent (s : State) : State :=
  if s.awake then
    let s := ((s.merges.filter fun m => m.accepted.isNone).map Merge.id).foldl State.mergeReserve s
    (((s.kindles.filter Kindle.executing).map Kindle.cmd).foldl State.issueMore s).strideDispatch
  else s

/-- A scrub slot reads 256 KiB of the warm tier, and 384 KiB of the firebox: a pass in 65,536 milestones (R369). -/
def State.scrubStores (s : State) : State :=
  let w := s.scrubRowOf 512
  let f := s.scrubRowOf 513
  let s := (s.scanned (0x050000000000 + w % 4194304 * 262144) 262144).scanned (f % 4096 * 393216) 393216
  { s with scrub := (s.scrub.filter fun x => decide (x.1 < 512)) ++ [(512, ⟨pairOf (BitVec.ofNat 64 (w + 1)), 0⟩),
    (513, ⟨pairOf (BitVec.ofNat 64 (f + 1)), 0⟩)] }

/-- The node reads the records that it keeps twice and acts on at a scrub slot: the fence list and the spare-row map. A
damaged copy is counted and rewritten from the other, and a record with no valid copy is a complement fault (R65, R364).
So is the progress of a scrub with a pair that is not valid (R367). -/
def State.recordsSeen (s : State) : State :=
  let s := if s.fenceRec.halved then { s with fenceRec := s.fenceRec.mended }.halfFault
    else if s.fenceRec.get?.isNone then s.cplFault .fenceList else s
  let s := (s.spares.zipIdx).foldl (fun (s : State) (x : Twin 32 × Nat) =>
    if x.1.halved then s.halfFault else if x.1.get?.isNone then s.cplFault (.spare x.2) else s) s
  let s : State := { s with spares := s.spares.map Twin.mended }
  (s.scrub.filter fun e => !e.2.row.ok).foldl (fun (s : State) (e : Nat × Scrub) => s.cplFault (.scrub e.1)) s

/-- Event 5: the scrub slot opens for one milestone (R369). -/
def State.scrubEvent (s : State) (from_ : Nat) : State :=
  let closed := s.scrub.map fun x => (x.1, ({ x.2 with left := 0 } : Scrub))
  if dueIn from_ s.ms 16 8 && s.awake && s.regB 0 Reg.FX_CFG 16 then
    let s := s.recordsSeen
    let bad := (s.scrub.filter fun e => !e.2.row.ok).map (·.1)
    let cols := (List.range 512).filter fun c => !s.fenced c && !bad.contains c
    let s : State := { s with scrub := (closed.filter fun x => !cols.contains x.1) ++
      (cols.map fun c => (c, (⟨pairOf (BitVec.ofNat 64 (s.scrubRowOf c)), 16⟩ : Scrub))) }
    if bad.contains 512 ∨ bad.contains 513 then s else s.scrubStores
  else { s with scrub := closed }

/-- A usage record (R353). -/
def meterRecord (n : Nat) (m : Meter) : List Byte :=
  leBytes 8 n ++ leBytes 8 m.spanJobs ++ leBytes 8 (m.array / 1024) ++ leBytes 8 m.txBytes

/-- Event 7: a snapshot for every ACTIVE partition. -/
def State.meterEvent (s : State) : State :=
  (s.listed.filter fun p => s.part p == .active).foldl (fun (s : State) (p : Nat) =>
    s.setMeter p { s.meter p with snap := meterRecord s.ms (s.meter p) }) s

/-- HOLD_COUNT and HOLDOVER (R20). -/
def State.setHoldCount (s : State) (n : Nat) : State :=
  (s.setReg 0 Reg.FT_HOLD (BitVec.ofNat 32 n)).setRegB 0 Reg.FT_STAT 1 (decide (17 ≤ n))

/-- The node becomes Adrift (R19, R22, R355), never while it runs free (R28). Its KINDLEs end with ADRIFT (R224). The run of good beacons toward LOCKED
starts afresh with it: DESIGN CHOICE, R19 says only that LOCKED is cleared (log entry 82). -/
def State.enterAdrift (s : State) : State :=
  if s.adrift ∨ s.regB 0 Reg.FT_CFG 0 then s
  else
    let s := (s.setRegB 0 Reg.FT_STAT 2 true).setRegB 0 Reg.FT_STAT 0 false
    ({ s with ft := { s.ft with goodRun := 0, driftRun := 0 }, sharedFaults := s.sharedFaults + 1 }.alert 0).endKindles
      (fun _ => true) 0x10

/-- The count that makes the node Adrift has been reached. -/
def State.holdAdrift (s : State) : State := if s.regF 0 Reg.FT_HOLD 0 17 = 65536 then s.enterAdrift else s

/-- ADRIFT_ENTER (R20). -/
def execAdriftEnter (s : State) : Host.Outcome State Fault Refusal := .next s.holdAdrift

/-- Event 10: the holdover count (R20), which stays 0 in free running (R28). -/
def State.holdEvent (s : State) : State :=
  if s.regB 0 Reg.FT_CFG 0 then s
  else (s.setHoldCount (min 65536 (s.regF 0 Reg.FT_HOLD 0 17 + 1))).holdAdrift

/-- Shared faults are reported in every VF at one boundary (R355). -/
def State.reportShared (s : State) : State :=
  if s.sharedFaults = 0 then s
  else
    let n := s.sharedFaults
    (List.range 64).foldl (fun (s : State) (p : Nat) => s.count (vfOf p) Reg.PT_SHARED_FAULT_CNT n)
      { s with sharedFaults := 0 }

/-- FT_SRC_ID fixes the source, whatever the candidate table holds (R13). -/
def State.srcFixed (s : State) : Bool := s.regF 0 Reg.FT_SRC_ID 0 16 != 0xFFFF

/-- What the fabric-time unit takes up at a boundary: the trim, unless a reference holds the pilot (R15, R17), and the new
slew. Candidates that no beacon has refreshed for 64 milestones go, and a source selected from them with them (R12,
R13). -/
def State.ftTakeUp (s : State) : State :=
  let live := s.ft.cands.filter fun c => decide (s.ms < c.ms + 64)
  { s with ft := { s.ft with
    actTrim := if s.ft.refHeld then 0 else (s.reg 0 Reg.FT_TRIM).toInt
    slew := s.ft.nextSlew.getD s.ft.slew
    nextSlew := none
    cands := live
    selected := if s.srcFixed || s.ft.selected.any fun x => live.any fun c => c.src == x then s.ft.selected
      else none } }

/-- The boundary that begins the present milestone, reached from milestone `from_`: the events of R30 that fell due, once
each (R25). The plans of the columns, in FCLK, first move on by the milestones that passed, at the clocks that were in
use (R145). -/
def State.boundaryEvents (s : State) (from_ : Nat) : State :=
  let s : State := { s with
    bg := (s.bg.filter fun (b : Nat × (Nat × Bool)) => b.2.2).map fun (b : Nat × (Nat × Bool)) => (b.1, (0, true)) }
  let s := (s.setPlan []).ftTakeUp
  let s := if dueIn from_ s.ms 64 0 && s.power != .banked then s.applyOpp else s
  let s := ((s.slotBoundary from_).shaperTick.repliesOut.strideEvent).scrubEvent from_
  let s := if dueIn from_ s.ms 64 40 then s.probeSlot else s.packExpire
  let s := if dueIn from_ s.ms 1024 0 then s.meterEvent else s
  s.sealDeadlines.drainLimits.holdEvent.reportShared

/-! The passage of time within a milestone (R18). -/

/-- A slew is due at offset 1,024 of the milestone. -/
def State.slewDue (s : State) : Bool := s.ft.slew != 0 && s.ft.slewedAt != some s.ms && decide (s.ns ≤ 1024)

/-- pending_slew moves 1 ns toward zero, once in the milestone. -/
def State.slewOnce (s : State) : State :=
  { s with ft := { s.ft with
    slew := if s.ft.slew < 0 then s.ft.slew + 1 else s.ft.slew - 1
    slewedAt := some s.ms } }

/-- Set fabric time. -/
def State.setNow (s : State) (t : Nat) : State := { s with ft := { s.ft with now := BitVec.ofNat 64 t } }

/-- The count reaches offset `n` of the milestone, unless it is past it. -/
def State.reachNs (s : State) (n : Nat) : State :=
  if n ≤ s.ns then s
  else (if s.slewDue ∧ 1024 < n then s.slewOnce else s).setNow (s.ms * 2048 + n)

/-- SLEW: at offset 1,024, one count is repeated or omitted. -/
def execSlew (s : State) : Host.Outcome State Fault Refusal :=
  .next (if !s.pwrGood ∨ !s.slewDue then s
    else
      let s := if s.ns < 1024 then s.setNow (s.ms * 2048 + 1024) else s
      if s.ft.slew < 0 then s.slewOnce else s.slewOnce.setNow (s.ms * 2048 + 1025))

/-- MILESTONE_BOUNDARY: the milestone ends, with its sensor readings and its upsets. No event fires during a stall (R26). -/
def execMilestoneBoundary (env : Env) (s : State) : Host.Outcome State Fault Refusal :=
  .next (if !s.pwrGood ∨ s.ft.stalled then s
    else
      let from_ := s.ms
      let s := env.upsets.foldl State.upset (s.reachNs 2047)
      let s := (s.setNow ((from_ + 1) * 2048)).sensed (from_ + 1) env.tmaxLogic env.tmaxDram
      s.boundaryEvents from_)

/-- One cycle of the pilot oscillator, with nothing commanded (log entry 11). The last count of a milestone ends with
MILESTONE_BOUNDARY. -/
def idle (s : State) : Host.Outcome State Fault Refusal :=
  .next (if !s.pwrGood ∨ s.ns = 2047 then s
    else if s.ns = 1024 ∧ s.slewDue then
      if s.ft.slew < 0 then s.slewOnce else s.slewOnce.setNow (s.ft.now.toNat + 2)
    else s.setNow (s.ft.now.toNat + 1))

end Sys2Proof.Machine
end

