-- ==== Sys2Proof/Machine/FabricTime.lean ====
section
/-!
DEFINITION. Fabric time: beacons, holdover, steps and stalls, the frequency reference, and clock gating (R7 to R38).
-/

namespace Sys2Proof.Machine

/-! The beacon body (R10). -/

/-- DOMAIN, SOURCE, SEQ, ORIGIN, CORRECTION, the STEP flag and PRIORITY. -/
def bcDomain (b : List Byte) : Nat := beAt b 1 1
def bcSource (b : List Byte) : Nat := beAt b 2 2
def bcSeq (b : List Byte) : Nat := beAt b 4 4
def bcOrigin (b : List Byte) : Nat := beAt b 8 8
def bcCorrection (b : List Byte) : Int := (BitVec.ofNat 32 (beAt b 16 4)).toInt
def bcStep (b : List Byte) : Bool := getB (BitVec.ofNat 8 (beAt b 20 1)) 2
def bcPriority (b : List Byte) : Nat := beAt b 21 1

/-- VERSION, DOMAIN and ORIGIN are valid (check 2 of R11). -/
def State.bcValid (s : State) (b : List Byte) : Bool :=
  beAt b 0 1 == 1 && bcDomain b == s.regF 0 Reg.FT_CFG 24 8 && bcOrigin b % 32768 == 0

/-! Candidates and selection (R12, R13). -/

/-- R13 would select one candidate before another. -/
def Cand.before (a b : Cand) : Bool := decide (a.prio < b.prio ∨ (a.prio = b.prio ∧ a.src < b.src))

/-- The candidate that R13 would select first, and the one that it would select last. -/
def bestCand : List Cand → Option Cand
  | [] => none
  | c :: t => some (match bestCand t with
    | some d => if d.before c then d else c
    | none => c)
def worstCand : List Cand → Option Cand
  | [] => none
  | c :: t => some (match worstCand t with
    | some d => if c.before d then d else c
    | none => c)

/-- A beacon refreshes or enters its source in the candidate table. -/
def State.candidate (s : State) (x : Cand) : State :=
  let cs := s.ft.cands
  if cs.any fun c => c.src == x.src then
    { s with ft := { s.ft with cands := cs.map fun c => if c.src = x.src then x else c } }
  else if cs.length < 16 then { s with ft := { s.ft with cands := cs ++ [x] } }
  else match worstCand cs with
    | some w =>
      if x.before w then { s with ft := { s.ft with
        cands := (cs.filter fun c => c.src != w.src) ++ [x]
        selected := if s.srcFixed || s.ft.selected != some w.src then s.ft.selected else none } }
      else s
    | none => s

/-- The selected source, after a selection where none stands. -/
def State.select (s : State) : State :=
  let f := s.regF 0 Reg.FT_SRC_ID 0 16
  if f ≠ 0xFFFF then
    if s.ft.selected = some f then s else { s with ft := { s.ft with selected := some f, lastSeq := none } }
  else if s.ft.selected.isSome then s
  else { s with ft := { s.ft with selected := (bestCand s.ft.cands).map Cand.src, lastSeq := none } }

/-! Steps and stalls (R24 to R26). -/

/-- A whole-phase correction ends any slew (R26). -/
def State.endSlew (s : State) : State := { s with ft := { s.ft with slew := 0, nextSlew := none } }

/-- Fabric time jumps to a later value; the events of boundaries passed fire at the landing (R25). -/
def State.jump (s : State) (t : Nat) : State :=
  let from_ := s.ms
  let s : State := { s.setNow t with ft := { (s.setNow t).ft with stalled := false } }
  if s.ms = from_ then s else s.boundaryEvents from_

/-- A forward step, or a stall, of a whole offset in ns (R24). -/
def State.stepPhase (s : State) (off : Int) : State :=
  if off < 0 then s.endSlew.jump (s.ft.now.toNat + off.natAbs)
  else if 0 < off then { s.endSlew with ft := { s.endSlew.ft with stalled := true } }
  else s

/-! An accepted beacon. -/

/-- The offset of R14, in units of 1/256 ns. -/
def State.offset256 (s : State) (port : Nat) (b : List Byte) : Int :=
  256 * (s.ft.now.toNat : Int) - (256 * (bcOrigin b : Int) + bcCorrection b +
    16 * (s.regF 0 (Reg.FT_PORT_DELAY + 4 * port) 0 20 : Int))

/-- The trim step of R17, for an offset in units of 1/256 ns. -/
def trimStep (e : Int) (gain : Nat) : Int :=
  clampInt (-500) 500 ((roundAway (e * 1000000000) (256 * 32768)) / (2 ^ gain : Int))

/-- FT_OFFSET shows the offset to the nearest ns (R14); of an offset beyond its 32 bits, the value shown is free (log
entry 1). -/
def State.showOffset (s : State) (r : Int) : State :=
  if -2147483648 ≤ r ∧ r < 2147483648 then s.setReg 0 Reg.FT_OFFSET (wordOfInt r)
  else s.drawn.setReg 0 Reg.FT_OFFSET (s.fresh 32)

/-- The trim of R17, unless a reference holds the pilot. -/
def State.trimBy (s : State) (e : Int) : State :=
  if s.regF 0 Reg.FT_CFG 8 2 = 0 ∨ s.regB 0 Reg.FT_STAT 5 then
    s.setReg 0 Reg.FT_TRIM (wordOfInt (clampInt (-200000) 200000
      ((s.reg 0 Reg.FT_TRIM).toInt - trimStep e (s.regF 0 Reg.FT_CFG 16 4))))
  else s

/-- SERVICE or DRAIN, and not Adrift: a large offset is slewed (R24). -/
def State.slews (s : State) : Bool := s.serving && !s.adrift

/-- The phase correction of R17 and R24, of an offset in units of 1/256 ns; true when it steps or stalls. -/
def State.correct (s : State) (e : Int) (stepFlag : Bool) : State × Bool :=
  let thresh := s.regF 0 Reg.FT_STEP_THRESH 0 15
  let large := decide (256 * thresh < e.natAbs)
  let r := roundAway e 256
  let slewed : State := { s with ft := { s.ft with nextSlew := some (-r) } }
  if !large && !stepFlag then (slewed, false)
  else if s.slews && decide (e.natAbs ≤ 256 * 32768) then
    (if large then slewed.setRegB 0 Reg.FT_STAT 4 true else slewed, false)
  else if r = 0 then (slewed, false)
  else
    let s := if s.slews then s.enterAdrift else s
    (s.stepPhase r, true)

/-- Counts of consecutive good beacons: LOCKED (R19), and leaving Adrift (R23). -/
def State.goodBeacon (s : State) (e : Int) (stepped : Bool) : State :=
  let near := decide (e.natAbs ≤ 256 * 50)
  let run := if near then s.ft.goodRun + 1 else 0
  let arun := if near && !stepped then s.ft.driftRun + 1 else 0
  let s : State := { s with ft := { s.ft with goodRun := run, driftRun := arun } }
  let s := if 256 * 200 < e.natAbs then s.setRegB 0 Reg.FT_STAT 0 false else s
  let s := if 8 ≤ run then s.setRegB 0 Reg.FT_STAT 0 true else s
  if s.adrift ∧ 8 ≤ arun then s.setRegB 0 Reg.FT_STAT 2 false else s

/-- The selected reference, whose edges have returned, is taken up at the next accepted beacon (R16). -/
def State.takeRef (s : State) : State :=
  if s.regF 0 Reg.FT_CFG 8 2 ≠ 0 ∧ !s.regB 0 Reg.FT_STAT 5 ∧ !s.ft.refHeld then
    { s with ft := { s.ft with refHeld := true, actTrim := 0 } }
  else s

/-- An accepted beacon (R14, R17, R19 to R24, R29). -/
def State.acceptBeacon (s : State) (port : Nat) (b : List Byte) : State :=
  let e := s.offset256 port b
  let s : State := { s with ft := { s.ft with lastSeq := some (bcSeq b) } }
  let s := ((s.count 0 Reg.FT_BCN_ACC 1).showOffset (roundAway e 256)).setHoldCount 0
  let s := (((s.setRegB 0 Reg.FT_STAT 8 false).takeRef).trimBy e)
  let s := if e.natAbs ≤ 256 * s.regF 0 Reg.FT_STEP_THRESH 0 15 then s.setRegB 0 Reg.FT_STAT 4 false else s
  let r := s.correct e (bcStep b)
  r.1.goodBeacon e r.2

/-- A beacon past checks 1 and 2 of R11: checks 3 and 4. -/
def State.beaconIn (s : State) (port : Nat) (b : List Byte) : State :=
  let s := (s.candidate ⟨bcSource b, bcPriority b, s.ms⟩).select
  if s.ft.selected ≠ some (bcSource b) then s
  else match s.ft.lastSeq with
    | none => s.acceptBeacon port b
    | some q =>
      let d := (bcSeq b + 2 ^ 32 - q) % 2 ^ 32
      if d = 0 then s
      else if 2 ^ 31 < d then s.count 0 Reg.FT_BCN_DISC 1
      else s.acceptBeacon port b

/-- BEACON: its first byte passes the PCS of road port `port` at `ns` of the milestone. A free-running node ignores it
(R28), and so does a port with BCN_EN at 0. -/
def execBeacon (port ns tc : Nat) (gateOk : Bool) (body : List Byte) (s : State) : Host.Outcome State Fault Refusal :=
  .next (if !s.pwrGood ∨ 8 ≤ port then s
    else
      let s := s.reachNs (min ns 2047)
      if s.regB 0 Reg.FT_CFG 0 ∨ !s.regB 0 (Reg.RT_PORT_CFG + 4 * port) 28 then s
      else if tc ≠ 0 ∨ !gateOk ∨ !s.bcValid body then s.count 0 Reg.FT_BCN_DISC 1
      else s.beaconIn port body)

/-- STALL_END: the corrected time reaches the next boundary, so the count leaves nanosecond 2,047 with the boundary that
follows (R26). -/
def execStallEnd (s : State) : Host.Outcome State Fault Refusal :=
  .next (if s.ft.stalled then
      let s := s.reachNs 2047
      { s with ft := { s.ft with stalled := false } }
    else s)

/-! The frequency reference (R15, R16). -/

/-- REF_LOSS. -/
def execRefLoss (s : State) : Host.Outcome State Fault Refusal :=
  .next (if s.regF 0 Reg.FT_CFG 8 2 = 0 then s
    else { s with ft := { s.ft with refHeld := false } }.setRegB 0 Reg.FT_STAT 5 true)

/-- REF_RETURN. -/
def execRefReturn (s : State) : Host.Outcome State Fault Refusal := .next (s.setRegB 0 Reg.FT_STAT 5 false)

/-- A write of FT_CFG (R15, R28): REF_SEL 3 leaves the field. A reference newly selected shows edges until REF_LOSS. -/
def State.ftCfgWrite (s : State) (v : Word) : State :=
  let old := s.regF 0 Reg.FT_CFG 8 2
  let sel := if getF v 8 2 = 3 then old else getF v 8 2
  let t := s.setReg 0 Reg.FT_CFG (setF (v &&& 0xFF0F0003) 8 2 sel)
  let t := t.setRegB 0 Reg.FT_STAT 3 (getB v 0)
  let t := if getB v 0 then t.setHoldCount 0 else t
  if sel = old then t
  else { t with ft := { t.ft with refHeld := sel != 0, actTrim := if sel = 0 then t.ft.actTrim else 0 } }.setRegB 0
    Reg.FT_STAT 5 false

/-! Setting and reading time (R13, R27, R39). -/

/-- A write of FT_SET_CTL. An accepted load keeps a slew that is outstanding: DESIGN CHOICE, R26 ends one for a beacon's
step or stall and R27 is silent (log entry 82). -/
def State.timeSet (s : State) (v : Word) : State :=
  let t := (s.reg 0 Reg.FT_SET_HI).toNat * 2 ^ 32 + (s.reg 0 Reg.FT_SET_LO).toNat
  if !getB v 0 then s
  else if (s.life = .boot ∨ s.life = .recovery ∨ s.life = .standby ∨ s.regB 0 Reg.FT_CFG 0) ∧ s.ft.now.toNat ≤ t then
    (s.setRegB 0 Reg.FT_STAT 8 false).jump t
  else s.setRegB 0 Reg.FT_STAT 7 true

/-- FT_SET_GO. -/
def execFtSetGo (v : Word) (s : State) : Host.Outcome State Fault Refusal := .next (if s.pf0 then s.timeSet v else s)

/-- A write of FT_SRC_ID. -/
def State.srcIdWrite (s : State) (v : Word) : State :=
  { s with ft := { s.ft with selected := none, lastSeq := none } }.setReg 0 Reg.FT_SRC_ID (v &&& 0xFFFF)

/-- FT_SRC_ID_WRITE. -/
def execFtSrcIdWrite (v : Word) (s : State) : Host.Outcome State Fault Refusal :=
  .next (if s.pf0 then s.srcIdWrite v else s)

/-- FT_NOW_LO is read, and latches the high word. -/
def State.nowRead (s : State) : State × Word :=
  ({ s with ft := { s.ft with latch := BitVec.ofNat 32 (s.ft.now.toNat / 2 ^ 32) } },
    BitVec.ofNat 32 s.ft.now.toNat)

/-- FT_NOW_READ. -/
def execFtNowRead (s : State) : Host.Outcome State Fault Refusal :=
  .next (if s.pf0 then s.nowRead.1.emit (.regData s.nowRead.2) else s)

/-! Clock gating (R36, R37). -/

/-- A unit may be gated (R36, R37): it is enabled and idle. A column is idle with no Flue work; a slice while no KINDLE of
the slot's owner executes; the transmit path of a port with an empty transmit queue, and on a SLOTTED port in an IDLE
milestone (R326). Only partitions that the charter lists count as having shaper tokens: DESIGN CHOICE, R37 does not say
(log entry 82). -/
def State.mayGate (s : State) (u : GateUnit) : Bool :=
  match u with
  | .column c => decide (c < 512) && s.regB 0 Reg.FT_GATE_CFG 0 && !s.flueWork c
  | .slice h => decide (h < 4) && s.regB 0 Reg.FT_GATE_CFG 1 &&
      !s.kindles.any fun k => k.executing && k.part == s.arrayOwner s.ms
  | .port l => s.lportExists l && s.regB 0 Reg.FT_GATE_CFG 2 && !s.portQueued l &&
      (!s.slotted l || s.portOwner l s.ms == 0x7F) &&
      (s.life != .service || decide ((s.listed.filter fun p => s.hasTokens p l).length ≤ 1))

/-- UNIT_GATE: a unit has been idle for its threshold. -/
def execUnitGate (u : GateUnit) (s : State) : Host.Outcome State Fault Refusal :=
  .next (if s.pwrGood ∧ s.mayGate u ∧ !s.gated.contains u then { s with gated := s.gated ++ [u] } else s)

end Sys2Proof.Machine
end

