-- ==== Sys2Proof/Machine/HostAccess.lean ====
section
/-!
DEFINITION. Host accesses to the tiers and their tables: the apertures (R443 to R445), the object-table window (R53, R56,
R447), and the far window entries (R49, R50, R67).
-/

namespace Sys2Proof.Machine

/-! The apertures (R444). -/

/-- Node address of BAR4 offset `off`. -/
def State.apAddr (s : State) (fn off : Nat) : Nat :=
  s.regF fn (Reg.BW_AP + 4 * (off / 2 ^ 30)) 0 28 * 2 ^ 20 + off % 2 ^ 30

/-- Why a BAR4 request is refused: 0 it is not, 1 an unmapped address (R42), 2 ownership (R43), 3 another cause. -/
def State.barRefusal (s : State) (fn off n : Nat) (write atomicOp : Bool) : Nat :=
  let a := s.apAddr fn off
  if !s.regB fn (Reg.BW_AP + 4 * (off / 2 ^ 30)) 31 ∨ atomicOp ∨ (cut .far a n).2 ≠ 0 then 3
  else if !s.mapped a n then 1
  else if !s.owned (fn - 1) a n then 2
  else if (write ∧ s.inArena a n) ∨ s.inImage a n then 3
  else 0

/-- A request is completed as an Unsupported Request, and counted (R42, R43, R444). -/
def State.barRefused (s : State) (fn why : Nat) : State :=
  let s := if why = 1 then s.unmappedError else if why = 2 then s.ownerError else s
  (((s.setRegB fn Reg.BW_STAT 0 true).count fn Reg.BW_UR_CNT 1)).emit .unsupported

/-- The pieces of a range that are stored with check bytes: all but those of raw rows (R125). -/
def State.codedPieces (s : State) (a n : Nat) : List (Nat × Nat) :=
  (pieces a n).filter fun x => !(isHot x.1 && s.rawRow (rowOf x.1))

/-- The images of a granule between which no 256-byte granule of a HAUL changed, when the newest `c` such writes are not seen
yet: `none` is the present one. The earlier images run from the newest to the oldest. -/
def imagesAt : Nat → Option Stale → List Stale → List (Option Stale)
  | _, cur, [] => [cur]
  | 0, cur, e :: t => if e.wide then [cur] else cur :: imagesAt 0 (some e) t
  | c + 1, _, e :: t => if e.wide then imagesAt c (some e) t else imagesAt (c + 1) (some e) t

/-- A 64-byte granule, or a part of one, as a host read returns it: the present image, or an earlier one that no FLUSH has
covered (R135, R136), with `c` HAUL writes unseen; a free value chooses (log entry 1). -/
def State.hostGranule (s : State) (c : Nat) (x : Nat × Nat) : State × List Byte :=
  let g := native (x.1 / 64 * 64)
  let seen := imagesAt c none (s.stale.filter fun y => y.addr == g)
  if seen.length ≤ 1 then (s, match seen.head? with
    | some (some y) => sliceB y.image (x.1 % 64) x.2
    | _ => s.bytes x.1 x.2)
  else (s.drawn, match seen[(s.fresh 32).toNat % seen.length]? with
    | some (some y) => sliceB y.image (x.1 % 64) x.2
    | _ => s.bytes x.1 x.2)

/-- HAUL writes of the 256-byte granule of an address that a host read may not see yet. -/
def State.unseen (s : State) (a : Nat) : Nat :=
  (s.stale.filter fun y => y.wide && y.addr == native (a / 64 * 64)).length

/-- The part of one 256-byte granule that a host read returns: each HAUL write is seen in all of it or in none (R62). -/
def State.hostGranule256 (s : State) (x : Nat × Nat) : State × List Byte :=
  let n := s.unseen x.1
  let c := if n = 0 then 0 else (s.fresh 32).toNat % (n + 1)
  (cutsBy 64 x.1 x.2).foldl (fun (acc : State × List Byte) y =>
    let r := acc.1.hostGranule c y
    (r.1, acc.2 ++ r.2)) (if n = 0 then s else s.drawn, [])

/-- The bytes of a host read, and its poisoned mark: free bytes where an uncorrectable error stands (R128; log
entry 1). -/
def State.hostBytes (s : State) (a n : Nat) : State × List Byte × Bool :=
  let (s, bs) := (cutsBy 256 a n).foldl (fun (acc : State × List Byte) x =>
    let r := acc.1.hostGranule256 x
    (r.1, acc.2 ++ r.2)) (s.opens a n, [])
  let ps := s.codedPieces a n
  let ue := ps.any fun x => s.hasUE x.1 x.2
  let t := ps.foldl (fun (s : State) (x : Nat × Nat) => s.scanned x.1 x.2) s
  if ue then
    ({ t with draws := t.draws + n }, bs.mapIdx fun j b =>
      if (s.codedPieces (a + j) 1).any fun x => s.hasUE x.1 1 then Config.freeValue 8 (t.draws + j) else b, true)
  else (t, bs, false)

/-- HOST_READ through VF BAR4. -/
def execHostRead (fn off len : Nat) (atomicOp : Bool) (s : State) : Host.Outcome State Fault Refusal :=
  .next (if fn = 0 ∨ !s.lodgeAnswers ∨ !s.fnExists fn ∨ 2 ^ 34 < off + len then s
    else if !s.fnServed fn then s.emit .unsupported
    else
      let why := s.barRefusal fn off len false atomicOp
      if why ≠ 0 then s.barRefused fn why
      else
        let (t, bs, ue) := (s.hostTurns (s.apAddr fn off) len).hostBytes (s.apAddr fn off) len
        t.emit (.hostData bs ue))

/-- An earlier image with the bytes of a host write put into it. -/
def Stale.put (x : Stale) (cells : List (Nat × Byte)) : Stale :=
  let new (i : Nat) (o : Byte) : Byte := match cells.find? fun c => c.1 == x.addr + i with
    | some c => c.2
    | none => o
  { x with image := x.image.mapIdx new }

/-- Store the bytes of a host write. Earlier images of its granules take them too. -/
def State.hostStore (s : State) (a : Nat) (bs : List Byte) : State :=
  let cells := bs.mapIdx fun i b => (native (a + i), b)
  { (s.clearEcc a bs.length).store a bs with stale := s.stale.map fun x => x.put cells }

/-- A host write of any alignment (R125, R127): a coded unit covered in part is read and corrected first, and a write into
one that holds an uncorrectable error is not done. -/
def State.hostPut (s : State) (a : Nat) (bs : List Byte) : State :=
  let s := (s.edgeSectors a bs.length).foldl State.meetSector (s.opens a bs.length)
  s.hostStore a (s.merged a bs)

/-- HOST_WRITE through VF BAR4. -/
def execHostWrite (fn off : Nat) (data : List Byte) (atomicOp : Bool) (s : State) :
    Host.Outcome State Fault Refusal :=
  .next (if fn = 0 ∨ !s.lodgeAnswers ∨ !s.fnExists fn ∨ 2 ^ 34 < off + data.length then s
    else if !s.fnServed fn then s.emit .unsupported
    else
      let why := s.barRefusal fn off data.length true atomicOp
      if why ≠ 0 then s.barRefused fn why
      else (s.hostTurns (s.apAddr fn off) data.length).hostPut (s.apAddr fn off) data)

/-! The object table (R53, R56, R447). -/

/-- A change of an arena that holds a slot is refused: a change of BASE, SIZE, LAYOUT or KIND, or one that breaks R54 or
R55. -/
def State.arenaBusy (s : State) (p i : Nat) (v : BitVec 256) : Bool :=
  let o := s.obj p i
  objKind o == 0 && s.slots.any (fun x => x.part == p && x.obj == i) &&
  (objBase v != objBase o || objSize v != objSize o || objLayout v != objLayout o || objKind v != objKind o || !objOk v)

/-- A change of an entry takes effect: rows that an entry with RAW no longer covers are to be re-encoded, and those that one
covers become raw (R123). -/
def State.objChange (s : State) (p i : Nat) (v : BitVec 256) : State :=
  let o := s.obj p i
  let s := s.setObj p i v
  let s := if objRaw o && objOk o then s.recodeRows p (objBase o) (objSize o) else s
  let s := if objRaw v && objOk v then s.rowsRaw (rowsOf (objBase v) (objSize v)) else s
  { s with recode := s.recode.filter fun r => !s.rawByObject r }.showRecode

/-- A staging copy is committed. -/
def State.objCommit (s : State) (p i : Nat) (v : BitVec 256) : State :=
  if s.boundObj p i then s.setRegB 0 Reg.KN_ERR_STAT 2 true
  else if s.arenaBusy p i v then s.setRegB 0 Reg.MT_ERR_STAT 2 true
  else s.objChange p i v

/-- A write to the object-table window, at offset `off` of it. BAR2 takes aligned 32-bit and 64-bit accesses (R446). -/
def State.objWindow (s : State) (fn off : Nat) (bs : List Byte) : State :=
  let p := fn - 1
  let i := off / 32
  if fn = 0 ∨ !s.fnServed fn ∨ 0x8000 < off + bs.length ∨ !(bs.length == 4 || bs.length == 8) ∨ off % bs.length ≠ 0 then s.unserved fn
  else
    let v := match s.objStage.find? fun e => e.1 == fn with
      | some (_, j, w) => if j = i then w else s.obj p i
      | none => s.obj p i
    let v := BitVec.ofNat 256 (leNat (patch (leBytes 32 v.toNat) (off % 32) bs))
    let s : State := { s with objStage := s.objStage.filter fun e => e.1 != fn }
    if off % 32 + bs.length = 32 then s.objCommit p i v
    else { s with objStage := s.objStage ++ [(fn, i, v)] }

/-- OBJECT_WINDOW_WRITE. -/
def execObjectWindowWrite (fn off : Nat) (data : List Byte) (s : State) : Host.Outcome State Fault Refusal :=
  .next (s.objWindow fn off data)

/-! Far windows (R49, R50, R67). -/

/-- An entry that R50 refuses. -/
def farBad (v : BitVec 128) : Bool :=
  farKind v == 3 || getF v 10 6 != 0 || getF v 6 2 != 0 || (farKind v == 1 && getF v 16 48 != 0)

/-- The entry that MT_FAR_W0–3 hold. -/
def State.farWords (s : State) : BitVec 128 :=
  (List.range 4).foldl (fun v k => setF v (32 * k) 32 (s.reg 0 (Reg.MT_FAR_W + 4 * k)).toNat) 0

/-- MT_FAR_CTL.WRITE. -/
def State.farWrite (s : State) : State :=
  let k := s.regF 0 Reg.MT_FAR_SEL 0 8
  let v := s.farWords
  if farBad v then s.setRegB 0 Reg.MT_FAR_STAT 0 true
  else { s with suspects := s.suspects.filter fun (x : Suspect) => x.what != RecRef.far k }.setFar k (pairOf v)

/-- FAR_WRITE. -/
def execFarWrite (s : State) : Host.Outcome State Fault Refusal := .next (if s.pf0 then s.farWrite else s)

/-- MT_FAR_CTL.READ: the pair is checked; one that is not valid reads as all ones (R65). -/
def State.farRead (s : State) : State :=
  let k := s.regF 0 Reg.MT_FAR_SEL 0 8
  let e := s.farEntry k
  if e.ok then s.loadWords 0 Reg.MT_FAR_W 4 e.val.toNat
  else (s.cplFault (.far k)).loadWords 0 Reg.MT_FAR_W 4 (2 ^ 128 - 1)

/-- FAR_READ. -/
def execFarRead (s : State) : Host.Outcome State Fault Refusal := .next (if s.pf0 then s.farRead else s)

end Sys2Proof.Machine
end

