-- ==== Sys2Proof/Machine/Registers.lean ====
section
/-!
DEFINITION. Register writes and reads (R441 to R457): what a write of each register does, the values of the registers that
show state, and reads of BAR0 and BAR2.
-/

namespace Sys2Proof.Machine

/-! Stored values. -/

/-- A value with field `[lo + w - 1 : lo]` raised to at least `m`. -/
def atLeast (v : Word) (lo w m : Nat) : Word := if getF v lo w < m then setF v lo w m else v

/-- A value with field `[lo + w - 1 : lo]` lowered to at most `m`. -/
def atMost (v : Word) (lo w m : Nat) : Word := if m < getF v lo w then setF v lo w m else v

/-- A write of a register with no behaviour of its own: RW bits are stored, and a 1 clears a W1C bit (R6, R453). -/
def State.plainWrite (s : State) (fn off : Nat) (v : Word) : State :=
  match regDef off with
  | some d =>
    let old := s.reg fn off
    s.setReg fn off (((old &&& ~~~d.rw) ||| (v &&& d.rw)) &&& ~~~(v &&& d.w1c))
  | none => s

/-! Writes, block by block. -/

/-- FT (R38). A unit whose gating is disabled wakes (R36). -/
def State.writeFT (s : State) (off : Nat) (v : Word) : State :=
  if off = Reg.FT_CFG then s.ftCfgWrite v
  else if off = Reg.FT_SRC_ID then s.srcIdWrite v
  else if off = Reg.FT_STEP_THRESH then s.setReg 0 off (atLeast (v &&& 0x7FFF) 0 15 1)
  else if off = Reg.FT_SET_LO ∨ off = Reg.FT_SET_HI then s.setReg 0 off v
  else if off = Reg.FT_SET_CTL then s.timeSet v
  else if off = Reg.FT_GATE_CFG then
    let s := s.plainWrite 0 off v
    { s with gated := s.gated.filter fun u => match u with
        | .column _ => getB v 0
        | .slice _ => getB v 1
        | .port _ => getB v 2 }
  else s.plainWrite 0 off v

/-- MT (R67). -/
def State.writeMT (s : State) (off : Nat) (v : Word) : State :=
  if off = Reg.MT_FAR_CTL then
    match getF v 0 2 with
    | 1 => s.farWrite
    | 2 => s.farRead
    | _ => s
  else s.plainWrite 0 off v

/-- PG, FL, AT, MG, KN and PR (R104, R137, R171, R203, R227, R246). -/
def State.writeEngines (s : State) (off : Nat) (v : Word) : State :=
  if off = Reg.PG_CINDER_CFG then s.plainWrite 0 off (atLeast v 8 8 1)
  else if off = Reg.PG_DIR_CTL then (if getB v 0 then s.dirLookup else s)
  else if off = Reg.FL_ARB then s.plainWrite 0 off (atLeast (atLeast v 8 8 1) 0 8 1)
  else if off = Reg.AT_CFG then s.plainWrite 0 off (atLeast v 0 8 1)
  else if off = Reg.MG_CFG then s.plainWrite 0 off (atLeast (atLeast v 8 8 1) 0 8 3)
  else if off = Reg.KN_CFG then s.plainWrite 0 off (atMost (atLeast (atLeast v 16 8 1) 0 13 1) 0 13 4096)
  else if off = Reg.PR_CFG then
    let v := atLeast v 24 8 1
    s.plainWrite 0 off (atMost v 16 8 (getF v 24 8 - 1))
  else s.plainWrite 0 off v

/-- The engine whose ring registers hold an offset of the CQ block (R277). -/
def cqEngine (off : Nat) : Nat := (off - 0x08100) / 0x40

/-- A write of a ring's base or size register: outside DISABLED it is ignored (R256). -/
def State.ringSetup (s : State) (fn off : Nat) (v : Word) : State :=
  if (s.ring (fn - 1) (cqEngine off)).st ≠ .disabled then s.cqError (fn - 1) [1]
  else if off = cqReg Reg.CQ_RING_CFG (cqEngine off) then
    let v := v &&& 0x1F1F
    s.plainWrite fn off (atMost (atLeast (atMost (atLeast v 8 5 4) 8 5 16) 0 5 4) 0 5 16)
  else s.plainWrite fn off v

/-- CQ (R277). -/
def State.writeCQ (s : State) (fn off : Nat) (v : Word) : State :=
  if off = Reg.CQ_WM_CTL then
    (if getB v 17 then s.wmZero fn (getF v 0 12) else if getB v 16 then s.wmClearPoison fn (getF v 0 12) else s)
  else if off = Reg.CQ_WATCH_CTL then s.watchArm fn v
  else if off = Reg.CQ_WATCH_LO ∨ off = Reg.CQ_WATCH_HI then (s.plainWrite fn off v).watchFire (fn - 1)
  else if off < 0x08100 then s.plainWrite fn off v
  else if off = cqReg Reg.CQ_RING_CTL (cqEngine off) then
    (if getB v 0 then s.ringEnable fn (cqEngine off) else s.ringDisable fn (cqEngine off))
  else if off % 0x40 ≤ 0x10 then s.ringSetup fn off v
  else s

/-- RT (R315). -/
def State.writeRT (s : State) (fn off : Nat) (v : Word) : State :=
  if off = Reg.RT_TIMER then s.plainWrite fn off (atLeast (atLeast v 16 8 1) 0 8 1)
  else if off = Reg.RT_LIVE then s.plainWrite fn off (atLeast (atLeast v 16 16 64) 0 16 1)
  else if off = Reg.RT_CC then s.plainWrite fn off (atLeast (atLeast v 8 8 1) 0 4 1)
  else if Reg.RT_PORT_CFG ≤ off ∧ off < Reg.RT_PORT_CFG + 32 then s.portCfg ((off - Reg.RT_PORT_CFG) / 4) v
  else if off = Reg.RT_CONN_CTL then
    match getF v 0 2 with
    | 1 => s.openConn fn
    | 2 => s.closeConn fn
    | _ => s
  else if off = Reg.RT_WK_CTL then s.wkControl fn v
  else s.plainWrite fn off v

/-- SHP (R333). The slot tables and port modes are locked (R457). -/
def State.writeSHP (s : State) (fn off : Nat) (v : Word) : State :=
  if off = Reg.SHP_CTL then
    match getF v 0 2 with
    | 1 => s.shaperWrite
    | 2 => s.shaperRead
    | _ => s
  else s.plainWrite fn off v

/-- PT (R357). -/
def State.writePT (s : State) (fn off : Nat) (v : Word) : State :=
  if off = Reg.PT_CTL then
    match getF v 8 2 with
    | 1 => s.release (getF v 0 6)
    | 2 => s.activatePart (getF v 0 6)
    | _ => s
  else if off = Reg.PT_ATT_CTL then s.attestGo fn v
  else s.plainWrite fn off v

/-- The entry of the management peer table that FX_MPEER_SEL selects (R377, R390). -/
def State.mpeer (s : State) : Word × Word := tget (fun _ => (0, 0)) s.mpeers (s.regF 0 Reg.FX_MPEER_SEL 0 8)

/-- Store it. -/
def State.setMpeer (s : State) (v : Word × Word) : State :=
  { s with mpeers := tput (fun _ => (0, 0)) s.mpeers (s.regF 0 Reg.FX_MPEER_SEL 0 8) v }

/-- FX (R390). -/
def State.writeFX (s : State) (fn off : Nat) (v : Word) : State :=
  if off = Reg.FX_CFG then s.plainWrite fn off (atLeast v 0 16 64)
  else if off = Reg.FX_WEAR then s.plainWrite fn off (atLeast v 0 16 256)
  else if off = Reg.FX_PROBE_CTL then
    (if getB v 2 then s.disarm else if getB v 1 then s.armPack true else if getB v 0 then s.armPack false else s)
  else if off = Reg.FX_MPEER_NODE then s.setMpeer (v &&& 0x1FFFF, s.mpeer.2)
  else if off = Reg.FX_MPEER_IP then s.setMpeer (s.mpeer.1, v)
  else if off = Reg.FX_LEASE_CTL then
    match getF v 0 4 with
    | 1 => s.leaseGrant fn
    | 2 => s.leaseTwin fn
    | 4 => s.leaseTake fn
    | 8 => s.leaseRead fn
    | _ => s
  else if off = Reg.FX_RB_CTL then
    match getF v 0 2 with
    | 1 => s.rebuildStart fn
    | 2 => s.rebuildAbort fn
    | _ => s
  else s.plainWrite fn off v

/-- LS_CTL (R416): one request at a time. -/
def State.lsControl (s : State) (v : Word) : State :=
  match getF v 0 6 with
  | 0 => s
  | 1 => s.toService
  | 2 => s.toDrain
  | 4 => s.toStandby
  | 8 => s.toHold
  | 16 => s.rebootNow (getB v 8)
  | 32 => if s.life = .recovery then s else s.resetPart (getF v 16 6)
  | _ => s.lifeBad

/-- LS and PW (R416, R437). -/
def State.writeLS (s : State) (fn off : Nat) (v : Word) : State :=
  if off = Reg.LS_CTL then s.lsControl v
  else if off = Reg.LS_PWR_CTL then s.powerWrite v
  else if off = Reg.LS_RCV_LEN then s.plainWrite fn off (atMost (v &&& 0x1FFFFFF) 0 25 0x1000000)
  else if off = Reg.LS_RCV_CTL then s.commitWrite v
  else if off = Reg.LS_ENG_RESET then s.engineResetWrite fn v
  else if off = Reg.PW_CFG then s.plainWrite fn off (atMost (atLeast v 16 16 600) 16 16 1800)
  else if off = Reg.PW_THERM then s.thermWrite v
  else if off = Reg.PW_ALERT_STAT then s.alertClear v
  else if off = Reg.PW_ALERT_MASK then s.alertMask v
  else s.plainWrite fn off v

/-- The registers that PF0 serves in RECOVERY (R416, R456). -/
def servedInRecovery (off : Nat) : Bool :=
  off == Reg.LS_STATE || off == Reg.LS_CTL || off == Reg.LS_STRAP || off == Reg.LS_CAUSE || off == Reg.LS_RCV_LEN ||
  off == Reg.LS_RCV_CTL || off == Reg.LS_RCV_STAT

/-- The function has the register, and serves it now (R442, R456). -/
def State.hasReg (s : State) (fn off : Nat) : Bool :=
  (match regDef off with
   | some d => d.inFn fn
   | none => false) && (s.life != .recovery || servedInRecovery off)

/-- A write of a register that the function has. -/
def State.regWrite (s : State) (fn off : Nat) (v : Word) : State :=
  match off / 4096 with
  | 0 => s.writeFT off v
  | 1 => s.writeMT off v
  | 2 => s.writeEngines off v
  | 3 => s.writeEngines off v
  | 4 => s.writeEngines off v
  | 5 => s.writeEngines off v
  | 6 => s.writeEngines off v
  | 7 => s.writeEngines off v
  | 8 => s.writeCQ fn off v
  | 9 => s.writeRT fn off v
  | 10 => s.writeSHP fn off v
  | 11 => s.writePT fn off v
  | 12 => s.writeFX fn off v
  | 13 => s.writeLS fn off v
  | 14 => s.writeLS fn off v
  | _ => s.plainWrite fn off v

/-- REGISTER_WRITE: an aligned 32-bit write of BAR0. A 64-bit write is two, the lower address first (R452). -/
def execRegisterWrite (fn off : Nat) (v : Word) (s : State) : Host.Outcome State Fault Refusal :=
  .next (if !s.barAnswers fn then s
    else if !s.fnServed fn then s.emit .unsupported
    else if s.hasReg fn off then s.regWrite fn off v
    else s)

/-! Registers that show state. -/

/-- Columns of a stack belong to more than one partition, so its Chimney bus runs fixed slots (R131, R137). A stack of one
partition and of columns that none owns is shown as round-robin: DESIGN CHOICE, no row of R131 names it (log entry
92). -/
def State.fixedSlots (s : State) (n : Nat) : Bool :=
  decide (2 ≤ (s.listed.filter fun p => (List.range 32).any fun i => s.ownsCol p (32 * n + i)).length)

/-- A word of 0 and 1 bits. -/
def wordOfBits (n : Nat) (f : Nat → Bool) : Word :=
  BitVec.ofNat 32 (((List.range n).filter f).map (2 ^ ·)).sum

/-- Drop units of a partition that are dropped (R246). -/
def State.unitsDropped (s : State) (p : Nat) : Nat :=
  ((s.dir.filter fun d => d.key.part == p).flatMap fun d => d.dropped.map fun t => (d.key.seq, t)).dedup.length

/-- RT_CONN_STAT (R315): of an entry of another partition, nothing is shown. -/
def State.connStat (s : State) (fn : Nat) : Word :=
  let c := s.conn (s.connSel fn)
  let code : Nat := match c.st with
    | .idle => 0
    | .listen => 1
    | .connecting => 2
    | .opened => 3
    | .closing => 4
    | .failed => 5
  let busy := s.reg fn Reg.RT_CONN_STAT &&& 0x10000000
  if c.owner = some (fn - 1) then
    busy ||| BitVec.ofNat 32 (code * 2 ^ 29 + c.reason % 256 * 2 ^ 20 + (c.live.filter PathSt.up).length * 2 ^ 13)
  else busy

/-- RT_WK_STAT (R315). -/
def State.wkStat (s : State) (fn : Nat) : Word :=
  let e := s.waykey (s.regF fn Reg.RT_WK_SEL 0 16)
  setB (s.reg fn Reg.RT_WK_STAT) 0 (e.ok && wkState e.val == 2 && wkPart e.val == fn - 1)

/-- Word `i` of a byte string. -/
def wordAt (b : List Byte) (i : Nat) : Word := BitVec.ofNat 32 (leAt b (4 * i) 4)

/-- The partition whose record a function reads through a SEL register. -/
def State.selPart (s : State) (fn off : Nat) : Nat := if fn = 0 then s.regF 0 off 0 6 else fn - 1

/-- FX_RB_STAT (R390). -/
def State.rbStat (s : State) (fn : Nat) : Word :=
  match s.rebuilds.find? fun r => r.1 == fn - 1 with
  | some (_, r) => BitVec.ofNat 32 (r.mode % 4 * 2 ^ 30 + (if r.done then 2 ^ 29 else 0) +
      (if r.unitFail then 2 ^ 28 else 0) + r.units % 4096)
  | none => 0

/-- Ownership records in state OWNER or GRANTING (R414). -/
def State.ownedCount (s : State) : Nat :=
  (s.dir.filter fun d => match d.own? with
    | some o => owState o == 1 || owState o == 2
    | none => false).length

/-- Ring registers that show state (R277). -/
def State.ringShow (s : State) (fn off : Nat) : Option Word :=
  let p := fn - 1
  let e := cqEngine off
  let r := s.ring p e
  match off % 0x40 with
  | 0x18 => some (match r.st with
    | .disabled => 0
    | .active => 1
    | .draining => 2
    | .stopped => 3)
  | 0x1C => some r.subHead
  | 0x20 => some r.cplTail
  | 0x24 => some (BitVec.ofNat 32 (s.cmds.filter fun c => c.q == .host p e).length)
  | _ => none

/-- The value of a register that shows state held elsewhere; none for a register whose value is stored. FT_NOW_HI
(R39) shows the upper word latched by the last read of FT_NOW_LO, on every read: R39 speaks of the next read alone,
and what a second one returns without a new read of FT_NOW_LO is the model's choice (DESIGN CHOICE, log entry 82). -/
def State.shown (s : State) (fn off : Nat) : Option Word :=
  let n (x : Nat) : Option Word := some (BitVec.ofNat 32 x)
  if off = Reg.FT_NOW_HI then some s.ft.latch
  else if off = Reg.FT_SET_LO ∨ off = Reg.FT_SET_HI then some 0
  else if off = Reg.FL_CHIMNEY_MODE then some (wordOfBits 16 s.fixedSlots)
  else if off = Reg.AT_INFLIGHT then n s.inFlight
  else if off = Reg.MG_UNITS_FREE then n (65536 - s.unitsUsed)
  else if off = Reg.MG_INFLIGHT then n (s.merges.filter fun m => m.kindle.isNone).length
  else if off = Reg.KN_ACTIVE then n (s.kindles.filter Kindle.executing).length
  else if Reg.PR_USED ≤ off ∧ off < Reg.PR_USED + 256 then n (ceilDiv (s.usage ((off - Reg.PR_USED) / 4)) 65536)
  else if Reg.PR_DROPPED ≤ off ∧ off < Reg.PR_DROPPED + 256 then n (s.unitsDropped ((off - Reg.PR_DROPPED) / 4))
  else if 0x08100 ≤ off ∧ off < 0x08280 then s.ringShow fn off
  else if Reg.RT_PORT_STAT ≤ off ∧ off < Reg.RT_PORT_STAT + 32 then
    let k := (off - Reg.RT_PORT_STAT) / 4
    n ((if s.portUp (2 * k) then 2 ^ 31 else 0) + (if s.portUp (2 * k + 1) then 2 ^ 30 else 0) +
      (if s.gated.contains (.port (2 * k)) then 2 ^ 29 else 0) + (if s.gated.contains (.port (2 * k + 1)) then 2 ^ 28 else 0))
  else if off = Reg.RT_CONN_STAT then some (s.connStat fn)
  else if off = Reg.RT_WK_STAT then some (s.wkStat fn)
  else if Reg.RT_VIO_W ≤ off ∧ off < Reg.RT_VIO_W + 32 then
    some (wordAt (tget (fun _ => List.replicate 32 0) s.vioLog ((fn - 1) * 64 + s.regF fn Reg.RT_VIO_SEL 0 6))
      ((off - Reg.RT_VIO_W) / 4))
  else if off = Reg.SHP_STAT then
    n ((if s.acctPackets then 1 else 0) + if s.regB 0 Reg.FX_PROBE_STAT 1 then 2 else 0)
  else if Reg.PT_STATE ≤ off ∧ off < Reg.PT_STATE + 256 then n (s.part ((off - Reg.PT_STATE) / 4)).code
  else if Reg.PT_ENTRY_W ≤ off ∧ off < Reg.PT_ENTRY_W + 64 then
    match s.entry? (s.selPart 0 Reg.PT_ENTRY_SEL) with
    | some e => n (if e.ok then e.val.toNat / 2 ^ (8 * (off - Reg.PT_ENTRY_W)) else 0xFFFFFFFF)
    | none => some 0
  else if Reg.PT_METER_W ≤ off ∧ off < Reg.PT_METER_W + 32 then
    some (wordAt (s.meter (s.selPart fn Reg.PT_METER_SEL)).snap ((off - Reg.PT_METER_W) / 4))
  else if off = Reg.FX_MPEER_NODE then some s.mpeer.1
  else if off = Reg.FX_MPEER_IP then some s.mpeer.2
  else if off = Reg.FX_RB_STAT then some (s.rbStat fn)
  else if off = Reg.LS_STATE then some s.lsState
  else if off = Reg.LS_STRAP then some (s.straps &&& 0x3F)
  else if off = Reg.LS_CAUSE then n (s.cause % 8)
  else if off = Reg.LS_OWNED then n s.ownedCount
  else if off = Reg.LS_ENG_STAT then
    some (wordOfBits 6 fun e => s.engResets.any fun r => (fn == 0 || r.part == fn - 1) && r.engines.contains e)
  else none

/-- A read of a register that the function has: an RC register is cleared (R6, R455), FT_NOW_LO latches the high word
(R39), and a partition entry is checked (R65). -/
def State.regRead (s : State) (fn off : Nat) : State × Word :=
  if off = Reg.FT_NOW_LO then s.nowRead
  else
    let s := if Reg.PT_ENTRY_W ≤ off ∧ off < Reg.PT_ENTRY_W + 64 then
        (match s.entry? (s.selPart 0 Reg.PT_ENTRY_SEL) with
         | some e => if e.ok then s else s.cplFault (.entry (s.selPart 0 Reg.PT_ENTRY_SEL))
         | none => s)
      else s
    match s.shown fn off with
    | some v => (s, v)
    | none =>
      match regDef off with
      | some d => (if d.rc then s.setReg fn off d.reset else s, s.reg fn off)
      | none => (s, 0)

/-! Reads of BAR2 (R446, R449). -/

/-- Byte `i` of the port address table, and of the staging memory through a window that decodes (R450). -/
def State.pf0Bar2 (s : State) (off : Nat) : Byte :=
  if off < 768 ∧ s.life ≠ .recovery then tget (fun _ => 0) s.ports off
  else if 0x1000000 ≤ off ∧ off < 0x2000000 ∧ s.life ≠ .recovery then tget (fun _ => 0) s.staging (off - 0x1000000)
  else if 0x2000000 ≤ off ∧ off < 0x3000000 ∧ s.life = .recovery then tget (fun _ => 0) s.staging (off - 0x2000000)
  else 0

/-- Byte `off` of the object-table and connection windows of a VF. -/
def State.vfBar2 (s : State) (fn off : Nat) : Byte :=
  if 0x20000 ≤ off ∧ off < 0x28000 then
    BitVec.ofNat 8 (recField (s.obj (fn - 1) ((off - 0x20000) / 32)) (off % 32) 1)
  else if 0x30000 ≤ off ∧ off < 0x30840 then
    let c := s.conn (s.connSel fn)
    if c.owner = some (fn - 1) then c.window.getD (off - 0x30000) 0 else 0
  else 0

/-- A 32-bit read of BAR2. -/
def State.bar2Read (s : State) (fn off : Nat) : State × Word :=
  let four (f : Nat → Byte) : Word := BitVec.ofNat 32 (leNat ((List.range 4).map fun i => f (off + i)))
  if fn = 0 then (s, four s.pf0Bar2)
  else if 0x10000 ≤ off ∧ off < 0x20000 then
    let w := (off - 0x10000) / 16
    match off % 16 with
    | 0 =>
      let v := s.wmRead fn w
      let t := s.wmSeen fn w
      ({ t with wmLatch := tput (fun _ => 0) t.wmLatch ((fn - 1) * 4096 + w) (BitVec.ofNat 32 (v.toNat / 2 ^ 32)) },
        BitVec.ofNat 32 v.toNat)
    | 4 => (s, tget (fun _ => 0) s.wmLatch ((fn - 1) * 4096 + w))
    | _ => (s, 0)
  else (s, four (s.vfBar2 fn))

/-- COUNTER_READ: an aligned 32-bit read of BAR0 or BAR2. A register that the function does not have reads zero (R442). -/
def execCounterRead (fn bar off : Nat) (s : State) : Host.Outcome State Fault Refusal :=
  .next (if !s.barAnswers fn then s
    else if !s.fnServed fn then s.emit .unsupported
    else
      let r := if bar = 0 ∧ s.hasReg fn off then s.regRead fn off
        else if bar = 2 ∧ off % 4 = 0 then s.bar2Read fn off else (s, 0)
      r.1.emit (.regData r.2))

end Sys2Proof.Machine
end

