-- ==== Sys2Proof/Machine/Dispatch.lean ====
section
/-!
DEFINITION. The dispatcher: one arm per command.
-/

namespace Sys2Proof.Machine

/-- The effect of a command on everything but the queue. -/
def exec (i : Instr) (s : State) : Host.Outcome State Fault Refusal :=
  match i with
  | .beacon port ns tc gateOk body => Sys2Proof.Machine.execBeacon port ns tc gateOk body s
  | .stallEnd => Sys2Proof.Machine.execStallEnd s
  | .adriftEnter => Sys2Proof.Machine.execAdriftEnter s
  | .refLoss => Sys2Proof.Machine.execRefLoss s
  | .refReturn => Sys2Proof.Machine.execRefReturn s
  | .slew => Sys2Proof.Machine.execSlew s
  | .milestoneBoundary env => Sys2Proof.Machine.execMilestoneBoundary env s
  | .sealDeadline ember => Sys2Proof.Machine.execSealDeadline ember s
  | .revocationDrainLimit key => Sys2Proof.Machine.execRevocationDrainLimit key s
  | .ftSetGo v => Sys2Proof.Machine.execFtSetGo v s
  | .ftSrcIdWrite v => Sys2Proof.Machine.execFtSrcIdWrite v s
  | .ftNowRead => Sys2Proof.Machine.execFtNowRead s
  | .unitGate u => Sys2Proof.Machine.execUnitGate u s
  | .spanJobOverrun cmd span => Sys2Proof.Machine.execSpanJobOverrun cmd span s
  | .hostRead fn off len atomicOp => Sys2Proof.Machine.execHostRead fn off len atomicOp s
  | .hostWrite fn off data atomicOp => Sys2Proof.Machine.execHostWrite fn off data atomicOp s
  | .farWrite => Sys2Proof.Machine.execFarWrite s
  | .farRead => Sys2Proof.Machine.execFarRead s
  | .objectWindowWrite fn off data => Sys2Proof.Machine.execObjectWindowWrite fn off data s
  | .reencodeBurst col => Sys2Proof.Machine.execReencodeBurst col s
  | .haul cmd hostData => Sys2Proof.Machine.execHaul cmd hostData s
  | .haulTile cmd hostData => Sys2Proof.Machine.execHaulTile cmd hostData s
  | .haulFarError cmd e => Sys2Proof.Machine.execHaulFarError cmd e s
  | .append cmd => Sys2Proof.Machine.execAppend cmd s
  | .openSeq cmd => Sys2Proof.Machine.execOpenSeq cmd s
  | .closeSeq cmd => Sys2Proof.Machine.execCloseSeq cmd s
  | .closeFree key => Sys2Proof.Machine.execCloseFree key s
  | .appendRelease cmd => Sys2Proof.Machine.execAppendRelease cmd s
  | .appendHoldTimeout cmd => Sys2Proof.Machine.execAppendHoldTimeout cmd s
  | .pageCode page => Sys2Proof.Machine.execPageCode page s
  | .codedOldSlotFree page => Sys2Proof.Machine.execCodedOldSlotFree page s
  | .dirLookup => Sys2Proof.Machine.execDirLookup s
  | .dirLookupDone => Sys2Proof.Machine.execDirLookupDone s
  | .row cmd => Sys2Proof.Machine.execRow cmd s
  | .flueBurstEnd col waitNs => Sys2Proof.Machine.execFlueBurstEnd col waitNs s
  | .refreshDue col => Sys2Proof.Machine.execRefreshDue col s
  | .wearWindowStart => Sys2Proof.Machine.execWearWindowStart s
  | .writeBackBurst col => Sys2Proof.Machine.execWriteBackBurst col s
  | .scrubBurst col => Sys2Proof.Machine.execScrubBurst col s
  | .relocateBurst col => Sys2Proof.Machine.execRelocateBurst col s
  | .attend cmd => Sys2Proof.Machine.execAttend cmd s
  | .spanJob cmd span => Sys2Proof.Machine.execSpanJob cmd span s
  | .spanJobEnd cmd span => Sys2Proof.Machine.execSpanJobEnd cmd span s
  | .tallyCheckEnd cmd span stage disturbed => Sys2Proof.Machine.execTallyCheckEnd cmd span stage disturbed s
  | .emberEmit cmd block mergeFails => Sys2Proof.Machine.execEmberEmit cmd block mergeFails s
  | .sealEmber ember => Sys2Proof.Machine.execSealEmber ember s
  | .attendComplete cmd => Sys2Proof.Machine.execAttendComplete cmd s
  | .emberReceived conn tenant hdr cmp body mergeFails => Sys2Proof.Machine.execEmberReceived conn tenant hdr cmp body mergeFails s
  | .verdictReceived conn tenant hdr cmp => Sys2Proof.Machine.execVerdictReceived conn tenant hdr cmp s
  | .verdictTimeout ember => Sys2Proof.Machine.execVerdictTimeout ember s
  | .merge cmd => Sys2Proof.Machine.execMerge cmd s
  | .orphanExpire ember => Sys2Proof.Machine.execOrphanExpire ember s
  | .mergeResultSend cmd mergeFails => Sys2Proof.Machine.execMergeResultSend cmd mergeFails s
  | .mergeWaitTimeout cmd => Sys2Proof.Machine.execMergeWaitTimeout cmd s
  | .kindle cmd => Sys2Proof.Machine.execKindle cmd s
  | .bind cmd => Sys2Proof.Machine.execBind cmd s
  | .unbind cmd => Sys2Proof.Machine.execUnbind cmd s
  | .unbindClear part slot => Sys2Proof.Machine.execUnbindClear part slot s
  | .arrayOperation part rows => Sys2Proof.Machine.execArrayOperation part rows s
  | .internalRequestDone cmd tag status => Sys2Proof.Machine.execInternalRequestDone cmd tag status s
  | .kindleCollectTimeout cmd => Sys2Proof.Machine.execKindleCollectTimeout cmd s
  | .kindlePublish cmd => Sys2Proof.Machine.execKindlePublish cmd s
  | .backgroundDropping part => Sys2Proof.Machine.execBackgroundDropping part s
  | .unitFree part seq span => Sys2Proof.Machine.execUnitFree part seq span s
  | .doorbellSub fn engine v => Sys2Proof.Machine.execDoorbellSub fn engine v s
  | .doorbellCpl fn engine v => Sys2Proof.Machine.execDoorbellCpl fn engine v s
  | .descriptorTake q desc => Sys2Proof.Machine.execDescriptorTake q desc s
  | .descriptorReadFail part engine e => Sys2Proof.Machine.execDescriptorReadFail part engine e s
  | .waitSatisfied cmd => Sys2Proof.Machine.execWaitSatisfied cmd s
  | .waitTimeout cmd => Sys2Proof.Machine.execWaitTimeout cmd s
  | .nop cmd => Sys2Proof.Machine.execNop cmd s
  | .descriptorComplete cmd => Sys2Proof.Machine.execDescriptorComplete cmd s
  | .cplWriteFail cmd e => Sys2Proof.Machine.execCplWriteFail cmd e s
  | .ringEnable fn engine => Sys2Proof.Machine.execRingEnable fn engine s
  | .ringDisable fn engine => Sys2Proof.Machine.execRingDisable fn engine s
  | .wmZero fn wm => Sys2Proof.Machine.execWmZero fn wm s
  | .wmClearPoison fn wm => Sys2Proof.Machine.execWmClearPoison fn wm s
  | .wmAdd fn wm v => Sys2Proof.Machine.execWmAdd fn wm v s
  | .wmValueRead fn wm wide => Sys2Proof.Machine.execWmValueRead fn wm wide s
  | .watchArm fn v => Sys2Proof.Machine.execWatchArm fn v s
  | .arpSolicit lport frame => Sys2Proof.Machine.execArpSolicit lport frame s
  | .ortPacket lport frame fcsOk => Sys2Proof.Machine.execOrtPacket lport frame fcsOk s
  | .packetPlace conn psn => Sys2Proof.Machine.execPacketPlace conn psn s
  | .readResp conn msg off data => Sys2Proof.Machine.execReadResp conn msg off data s
  | .cpl conn record => Sys2Proof.Machine.execCpl conn record s
  | .ack conn ext => Sys2Proof.Machine.execAck conn ext s
  | .ackDelayExpire conn => Sys2Proof.Machine.execAckDelayExpire conn s
  | .report conn ext => Sys2Proof.Machine.execReport conn ext s
  | .connect tenant ext => Sys2Proof.Machine.execConnect tenant ext s
  | .accept conn ext => Sys2Proof.Machine.execAccept conn ext s
  | .reject conn ext => Sys2Proof.Machine.execReject conn ext s
  | .ctrlClose conn => Sys2Proof.Machine.execCtrlClose conn s
  | .closeAck conn => Sys2Proof.Machine.execCloseAck conn s
  | .probe conn path => Sys2Proof.Machine.execProbe conn path s
  | .probeAck conn path => Sys2Proof.Machine.execProbeAck conn path s
  | .packetTransmit conn tc => Sys2Proof.Machine.execPacketTransmit conn tc s
  | .rtoExpire conn psn => Sys2Proof.Machine.execRtoExpire conn psn s
  | .probeTimer conn path => Sys2Proof.Machine.execProbeTimer conn path s
  | .keepaliveExpire conn path => Sys2Proof.Machine.execKeepaliveExpire conn path s
  | .deadTimeExpire conn => Sys2Proof.Machine.execDeadTimeExpire conn s
  | .connOpen fn => Sys2Proof.Machine.execConnOpen fn s
  | .connClose fn => Sys2Proof.Machine.execConnClose fn s
  | .connectRetry conn => Sys2Proof.Machine.execConnectRetry conn s
  | .connectTimeout conn => Sys2Proof.Machine.execConnectTimeout conn s
  | .closingTimeout conn => Sys2Proof.Machine.execClosingTimeout conn s
  | .connWindowWrite fn off data => Sys2Proof.Machine.execConnWindowWrite fn off data s
  | .portTableWrite off data => Sys2Proof.Machine.execPortTableWrite off data s
  | .portCfgWrite n v => Sys2Proof.Machine.execPortCfgWrite n v s
  | .portReset n => Sys2Proof.Machine.execPortReset n s
  | .linkDown lport => Sys2Proof.Machine.execLinkDown lport s
  | .linkUp lport => Sys2Proof.Machine.execLinkUp lport s
  | .waykeyCreate fn => Sys2Proof.Machine.execWaykeyCreate fn s
  | .waykeyRevoke fn v => Sys2Proof.Machine.execWaykeyRevoke fn v s
  | .waykeyRead fn => Sys2Proof.Machine.execWaykeyRead fn s
  | .revocationComplete key => Sys2Proof.Machine.execRevocationComplete key s
  | .shaperWrite => Sys2Proof.Machine.execShaperWrite s
  | .shaperRead => Sys2Proof.Machine.execShaperRead s
  | .attestGo fn v => Sys2Proof.Machine.execAttestGo fn v s
  | .attestDone fn => Sys2Proof.Machine.execAttestDone fn s
  | .release part => Sys2Proof.Machine.execRelease part s
  | .releaseScrub part => Sys2Proof.Machine.execReleaseScrub part s
  | .scrubVerify part failed => Sys2Proof.Machine.execScrubVerify part failed s
  | .activate part => Sys2Proof.Machine.execActivate part s
  | .partitionReset addr => Sys2Proof.Machine.execPartitionReset addr s
  | .complementReread r => Sys2Proof.Machine.execComplementReread r s
  | .flitCrcFail link => Sys2Proof.Machine.execFlitCrcFail link s
  | .wdogService v => Sys2Proof.Machine.execWdogService v s
  | .wdogWarn => Sys2Proof.Machine.execWdogWarn s
  | .wdogExpire => Sys2Proof.Machine.execWdogExpire s
  | .probeArm => Sys2Proof.Machine.execProbeArm s
  | .probeSession => Sys2Proof.Machine.execProbeSession s
  | .probeStop => Sys2Proof.Machine.execProbeStop s
  | .probeResult output => Sys2Proof.Machine.execProbeResult output s
  | .leaseGrant fn => Sys2Proof.Machine.execLeaseGrant fn s
  | .leaseTwin fn => Sys2Proof.Machine.execLeaseTwin fn s
  | .leaseTake fn => Sys2Proof.Machine.execLeaseTake fn s
  | .leaseRead fn => Sys2Proof.Machine.execLeaseRead fn s
  | .grant msg => Sys2Proof.Machine.execGrant msg s
  | .renew msg => Sys2Proof.Machine.execRenew msg s
  | .final msg => Sys2Proof.Machine.execFinal msg s
  | .deny msg => Sys2Proof.Machine.execDeny msg s
  | .grantResend key => Sys2Proof.Machine.execGrantResend key s
  | .renewTimer key => Sys2Proof.Machine.execRenewTimer key s
  | .leaseExpire key => Sys2Proof.Machine.execLeaseExpire key s
  | .leaseReclaim key => Sys2Proof.Machine.execLeaseReclaim key s
  | .rebuildStart fn => Sys2Proof.Machine.execRebuildStart fn s
  | .rebuildAbort fn => Sys2Proof.Machine.execRebuildAbort fn s
  | .rebuildImage fn img => Sys2Proof.Machine.execRebuildImage fn img s
  | .service => Sys2Proof.Machine.execService s
  | .drain => Sys2Proof.Machine.execDrain s
  | .standby => Sys2Proof.Machine.execStandby s
  | .standbyEnter => Sys2Proof.Machine.execStandbyEnter s
  | .hold => Sys2Proof.Machine.execHold s
  | .reboot rcv => Sys2Proof.Machine.execReboot rcv s
  | .preset part => Sys2Proof.Machine.execPreset part s
  | .engineReset fn v => Sys2Proof.Machine.execEngineReset fn v s
  | .functionLevelReset fn => Sys2Proof.Machine.execFunctionLevelReset fn s
  | .lodgeReset cause => Sys2Proof.Machine.execLodgeReset cause s
  | .perstRelease => Sys2Proof.Machine.execPerstRelease s
  | .vfEnable numVfs enable => Sys2Proof.Machine.execVfEnable numVfs enable s
  | .powerTarget v => Sys2Proof.Machine.execPowerTarget v s
  | .dStateChange d3hot => Sys2Proof.Machine.execDStateChange d3hot s
  | .powerStateChange => Sys2Proof.Machine.execPowerStateChange s
  | .powerOnReset env => Sys2Proof.Machine.execPowerOnReset env s
  | .pwrGoodLow ns => Sys2Proof.Machine.execPwrGoodLow ns s
  | .recoveryCommit v => Sys2Proof.Machine.execRecoveryCommit v s
  | .recoveryWriteDone ok => Sys2Proof.Machine.execRecoveryWriteDone ok s
  | .tftpWrite file data => Sys2Proof.Machine.execTftpWrite file data s
  | .tftpReboot => Sys2Proof.Machine.execTftpReboot s
  | .tftpRead => Sys2Proof.Machine.execTftpRead s
  | .dhcpTimeout port => Sys2Proof.Machine.execDhcpTimeout port s
  | .stagingWrite recovery off data => Sys2Proof.Machine.execStagingWrite recovery off data s
  | .i3cSetdasa addr => Sys2Proof.Machine.execI3cSetdasa addr s
  | .i3cEnecDisec enable => Sys2Proof.Machine.execI3cEnecDisec enable s
  | .i3cPrivateWrite index => Sys2Proof.Machine.execI3cPrivateWrite index s
  | .i3cPrivateRead len => Sys2Proof.Machine.execI3cPrivateRead len s
  | .trayResetCommand b => Sys2Proof.Machine.execTrayResetCommand b s
  | .trayResetWindowExpire => Sys2Proof.Machine.execTrayResetWindowExpire s
  | .alertClear b => Sys2Proof.Machine.execAlertClear b s
  | .thermalDecision => Sys2Proof.Machine.execThermalDecision s
  | .pmbusScan readings => Sys2Proof.Machine.execPmbusScan readings s
  | .vrAlert low => Sys2Proof.Machine.execVrAlert low s
  | .avsNack resendOk => Sys2Proof.Machine.execAvsNack resendOk s
  | .thermtrip => Sys2Proof.Machine.execThermtrip s
  | .jtagInstruction code => Sys2Proof.Machine.execJtagInstruction code s
  | .pwThermWrite v => Sys2Proof.Machine.execPwThermWrite v s
  | .counterRead fn bar off => Sys2Proof.Machine.execCounterRead fn bar off s
  | .registerWrite fn off v => Sys2Proof.Machine.execRegisterWrite fn off v s
  | .lodgeLinkUp => Sys2Proof.Machine.execLodgeLinkUp s
  | .partitionResetEnd part => Sys2Proof.Machine.execPartitionResetEnd part s
  | .engineResetEnd part => Sys2Proof.Machine.execEngineResetEnd part s
  | .fireboxSaveDone => Sys2Proof.Machine.execFireboxSaveDone s
  | .repairRecordWrite ok => Sys2Proof.Machine.execRepairRecordWrite ok s
  | .dhcpReply port ip => Sys2Proof.Machine.execDhcpReply port ip s

end Sys2Proof.Machine
end

