-- ==== Sys2Proof/Machine/Step.lean ====
section
/-!
DEFINITION. One step of the node: it takes the command at the front of its queue, or, with none waiting, the pilot
advances fabric time (log entry 11).
-/

namespace Sys2Proof.Machine

/-- The queue with the command that a word spells put in front; the table gives no row bits, so no word spells one. -/
def State.withFetchWord (s : State) (nbits w : Nat) : State :=
  match decodeTableWord nbits w with
  | some i => { s with pending := i :: s.pending }
  | none => s

/-- One step. -/
def step (s : State) : Host.Outcome State Fault Refusal :=
  match s.pending with
  | [] => idle s
  | i :: rest => exec i { s with pending := rest }

end Sys2Proof.Machine
end

