-- ==== Sys2Proof/Safety.lean ====
section
/-!
DEFINITION. What counts as a safe state and a safe run of the node, and the terms in which the statements speak of a
command's outcome.
-/

namespace Sys2Proof.Machine

/-- Memory keeps its canonical form. -/
def State.memOk (s : State) : Prop := twf memDefault s.mem = true

/-- The taken command of a number has ended with a status (R252 step 3). -/
def State.endedWith (s : State) (id status : Nat) : Prop :=
  ∃ c, s.cmd? id = some c ∧ c.phase = .ended ∧ c.status = status

/-- A saturating counter of function `fn` went up by `n` between two states (R453). -/
def counted (s t : State) (fn off n : Nat) : Prop :=
  (t.reg fn off).toNat = min 0xFFFFFFFF ((s.reg fn off).toNat + n)

/-- The rows of an APPEND that the payload carries are written as new rows at the end of the layer: its source lies in
the payload, it ends within the positions of a sequence, no span of it is dropped, its scales and rows pass checks 12 and 13 of R87, the page that holds the layer's
last row keeps the same scales, and the slots that it needs can be allocated without dropping (R87, R91, R229). -/
def State.appendFits (s : State) (c : Cmd) (v : BitVec 256) : Prop :=
  apFlags c.desc = 1 ∧ dePub v = apPos c.desc ∧ s.ecc = [] ∧
  (∀ f ∈ pagesOf 1024 (apPos c.desc) (apPos c.desc + apCount c.desc), s.droppedIn c.key (f / 1024) = false) ∧
  fposNormal (apKScale c.desc) = true ∧ fposNormal (apVScale c.desc) = true ∧
  (∀ h ∈ apRows c.desc (sliceB c.payload (apSrc c.desc) (apLen c.desc)), ∀ r ∈ h.1 ++ h.2,
    rowFinite (deFmt v) (headDim (deDim v)) r = true) ∧
  (∀ x ∈ s.touched c.key v (apPos c.desc) (apPos c.desc + apCount c.desc), ∃ t, s.trailer x = some t ∧
    t.kScale = apKScale c.desc ∧ t.vScale = apVScale c.desc) ∧
  (∀ x ∈ s.touched c.key v (apPos c.desc) (apPos c.desc + apCount c.desc),
    s.rowsEqual x (classTokens (deClass v)) (headDim (deDim v)) (rowBytes (deFmt v) (headDim (deDim v))) (apPos c.desc)
      (apPos c.desc) (apPos c.desc)
      ((apRows c.desc (sliceB c.payload (apSrc c.desc) (apLen c.desc))).getD (x.kv - deKvFirst v) ([], [])) = true) ∧
  0 < apCount c.desc ∧ apPos c.desc + apCount c.desc ≤ 4194304 ∧
  ∃ s' xs, s.allocate c.part .live (s.appendNeeds c.key v (apPos c.desc) (apPos c.desc + apCount c.desc)) = .got s' xs

/-- An OPEN connection that a CONNECT opened before answers the same CONNECT again (R294). -/
def State.alreadyOpen (s : State) (tenant : Nat) (x : List Byte) (c : Conn) : Bool :=
  c.st == .opened && ceRole c.entry == 1 && c.peerConn == beAt x 4 3 && c.peerNode == beAt x 8 2 &&
  (match c.owner with | some p => s.tenant p == tenant | none => false)

/-- The head packet of a class of a connection that its port sends next (R288, R318, R325). -/
def State.picked (s : State) (i tc : Nat) : Option Lead :=
  (s.leadsOf i tc).find? fun x => match s.pick x.port with
    | some (y, _) => y == x
    | none => false

/-- No MERGE has its result to write into the node's own memory (R194): ending the commands of the node then writes none. -/
def State.noOwnResult (s : State) : Prop := ∀ m ∈ s.merges, m.toHost = false

/-- The step from `s` answers a next state that satisfies `P`. -/
def Steps (s : State) (P : State → Prop) : Prop := ∃ t, step s = .next t ∧ P t

end Sys2Proof.Machine
end

