-- ==== Sys2Proof/Certificates/Slice0/Obligations.lean ====
section
/-!
DEFINITION. The statements about the node. Each docstring says what its statement claims, and which rules it rests on.
-/

open Sys2Proof Sys2Proof.Machine

/-- Whenever a command waits, a step of the node is that command's effect on the state whose queue is the rest; with an
empty queue a step is one cycle of the pilot oscillator (log entry 11, the model's choice). (spec/00_scope.md,
spec/95_what_each_step_holds.md) -/
def Obligations.StepRunsTheFrontCommand : Prop :=
  (∀ (s : State) (c : Instr) (rest : List Instr), s.pending = c :: rest → step s = exec c { s with pending := rest }) ∧
  (∀ s : State, s.pending = [] → step s = idle s)

/-- Whatever the state and the command, the command's effect is a next state, never a fault and never a refusal; what
the rules refuse is refused by status, flag or counter inside the node (log entry 10, the model's choice).
(spec/13_faults_and_resilience.md) -/
def Obligations.NoCommandStopsTheNode : Prop :=
  ∀ (c : Instr) (s : State), ∃ t, exec c s = .next t

/-- The state after reset lists no byte of memory, has no command waiting, holds fabric time 0, is in BOOT with PWR_GOOD
low, and its memory is in the canonical form of the model (log entries 3 and 7, the model's choices). (R41, R421) -/
def Obligations.MemoryCanonicalAtReset : Prop :=
  State.reset.memOk ∧ State.reset.mem = [] ∧ State.reset.pending = [] ∧ State.reset.ft.now = 0 ∧
  State.reset.life = .boot ∧ State.reset.pwrGood = false

/-- For every state whose memory lists rising addresses and no byte equal to what an unlisted address reads as, the
state after any step has such a memory as well: equal memories stay equal data. (R41, R46) -/
def Obligations.EveryStepKeepsMemoryCanonical : Prop :=
  ∀ s t : State, s.memOk → step s = .next t → t.memOk

/-- For every powered state with an empty queue, away from nanosecond 2,047 and away from a count at offset 1,024, a
step adds 1 to fabric time and changes nothing else; without PWR_GOOD it changes nothing (log entry 11, the model's
choice of what a step without a command does). (R7, R18) -/
def Obligations.PilotCountsFabricTime : Prop :=
  (∀ s : State, s.pending = [] → s.pwrGood = true → s.ns ≠ 2047 → s.ns ≠ 1024 →
    step s = .next { s with ft := { s.ft with now := s.ft.now + 1 } }) ∧
  (∀ s : State, s.pending = [] → s.pwrGood = false → step s = .next s)

/-- For every powered state with a pending_slew that has not yet acted in this milestone, at or before offset 1,024:
while it is negative, local time stands at offset 1,024 after the slew; while it is positive, at offset 1,025; in
both cases pending_slew moves 1 ns toward zero, the milestone is marked, and nothing else changes. With pending_slew
0, or once it has acted in the milestone, the command changes nothing. (R18) -/
def Obligations.SlewRepeatsOrOmitsOneCount : Prop :=
  (∀ s : State, s.pwrGood = true → s.ft.slewedAt ≠ some s.ms → s.ns ≤ 1024 → s.ft.slew < 0 →
    exec .slew s = .next { s with ft := { s.ft with
      now := BitVec.ofNat 64 (s.ms * 2048 + 1024), slew := s.ft.slew + 1, slewedAt := some s.ms } }) ∧
  (∀ s : State, s.pwrGood = true → s.ft.slewedAt ≠ some s.ms → s.ns ≤ 1024 → 0 < s.ft.slew →
    exec .slew s = .next { s with ft := { s.ft with
      now := BitVec.ofNat 64 (s.ms * 2048 + 1025), slew := s.ft.slew - 1, slewedAt := some s.ms } }) ∧
  (∀ s : State, s.ft.slew = 0 ∨ s.ft.slewedAt = some s.ms → exec .slew s = .next s)

/-- For every powered state and road port that takes beacons, a beacon that does not arrive on TC0, fails the tollgate,
or has an invalid VERSION, DOMAIN or ORIGIN adds 1 to FT_BCN_DISC (saturating) and changes nothing else; with
FREE_RUN at 1 a beacon changes nothing. The beacon arrives at the present nanosecond or before it. (R11, R28) -/
def Obligations.BeaconChecksCount : Prop :=
  (∀ (s : State) (port ns tc : Nat) (gateOk : Bool) (body : List Byte), s.pwrGood = true → port < 8 → ns ≤ s.ns →
    s.regB 0 Reg.FT_CFG 0 = false → s.regB 0 (Reg.RT_PORT_CFG + 4 * port) 28 = true →
    (tc ≠ 0 ∨ gateOk = false ∨ beAt body 0 1 ≠ 1 ∨ beAt body 1 1 ≠ s.regF 0 Reg.FT_CFG 24 8 ∨
      beAt body 8 8 % 32768 ≠ 0) →
    exec (.beacon port ns tc gateOk body) s =
      .next (s.setReg 0 Reg.FT_BCN_DISC (BitVec.ofNat 32 (min 0xFFFFFFFF ((s.reg 0 Reg.FT_BCN_DISC).toNat + 1))))) ∧
  (∀ (s : State) (port ns tc : Nat) (gateOk : Bool) (body : List Byte), ns ≤ s.ns → s.regB 0 Reg.FT_CFG 0 = true →
    exec (.beacon port ns tc gateOk body) s = .next s)

/-- For a powered node that does not run free, whose selected source is the one that FT_SRC_ID fixes, a valid TC0 beacon
of that source with a later SEQ (or with none accepted before), STEP clear and an exact offset e (in 1/256 ns, by
R14) of at most FT_STEP_THRESH: the command answers a state in which the SEQ is the last accepted, FT_BCN_ACC is one
more (saturating), HOLD_COUNT is 0, UNSET is 0, FT_OFFSET shows e rounded to the nearest ns with ties away from zero
where it fits 32 bits, the trim of R17 stands in FT_TRIM when REF_SEL is 0 or REF_LOSS is set, the pending_slew of
the next milestone is minus e rounded, and the present pending_slew, fabric time and all of memory are unchanged.
(R11, R14, R17, R20, R29) -/
def Obligations.AcceptedBeaconDisciplinesTime : Prop :=
  ∀ (s : State) (port ns : Nat) (body : List Byte), s.pwrGood = true → port < 8 → ns ≤ s.ns →
    s.regB 0 Reg.FT_CFG 0 = false → s.regB 0 (Reg.RT_PORT_CFG + 4 * port) 28 = true →
    beAt body 0 1 = 1 → beAt body 1 1 = s.regF 0 Reg.FT_CFG 24 8 → beAt body 8 8 % 32768 = 0 →
    s.regF 0 Reg.FT_SRC_ID 0 16 = beAt body 2 2 → beAt body 2 2 ≠ 0xFFFF → s.ft.selected = some (beAt body 2 2) →
    (∀ q, s.ft.lastSeq = some q → 1 ≤ (beAt body 4 4 + 2 ^ 32 - q) % 2 ^ 32 ∧ (beAt body 4 4 + 2 ^ 32 - q) % 2 ^ 32 ≤ 2 ^ 31) →
    bcStep body = false →
    ∀ e : Int, e = 256 * (s.ft.now.toNat : Int) - (256 * (beAt body 8 8 : Int) +
      (BitVec.ofNat 32 (beAt body 16 4)).toInt + 16 * (s.regF 0 (Reg.FT_PORT_DELAY + 4 * port) 0 20 : Int)) →
    e.natAbs ≤ 256 * s.regF 0 Reg.FT_STEP_THRESH 0 15 →
    ∃ t, exec (.beacon port ns 0 true body) s = .next t ∧
      t.ft.lastSeq = some (beAt body 4 4) ∧
      (t.reg 0 Reg.FT_BCN_ACC).toNat = min 0xFFFFFFFF ((s.reg 0 Reg.FT_BCN_ACC).toNat + 1) ∧
      t.regF 0 Reg.FT_HOLD 0 17 = 0 ∧ t.regB 0 Reg.FT_STAT 8 = false ∧
      t.reg 0 Reg.FT_OFFSET = wordOfInt (roundAway e 256) ∧
      ((s.regF 0 Reg.FT_CFG 8 2 = 0 ∨ s.regB 0 Reg.FT_STAT 5 = true) →
        t.reg 0 Reg.FT_TRIM = wordOfInt (max (-200000) (min 200000 ((s.reg 0 Reg.FT_TRIM).toInt -
          max (-500) (min 500 (roundAway (e * 1000000000) (256 * 32768) / 2 ^ s.regF 0 Reg.FT_CFG 16 4)))))) ∧
      t.ft.nextSlew = some (-(roundAway e 256)) ∧ t.ft.slew = s.ft.slew ∧ t.ft.now = s.ft.now ∧ t.mem = s.mem

/-- For the same accepted beacon with an offset above FT_STEP_THRESH, on a node in BOOT, RECOVERY, STANDBY or HELD, or
Adrift: local time that is behind jumps forward by the rounded offset, past whatever boundaries lie between, and
local time that is ahead stays where it is with a stall begun; the pending_slew of an earlier beacon ends in both
cases. (R24, R25, R26) -/
def Obligations.LargeOffsetStepsOrStalls : Prop :=
  ∀ (s : State) (port ns : Nat) (body : List Byte), s.pwrGood = true → port < 8 → ns ≤ s.ns →
    s.regB 0 Reg.FT_CFG 0 = false → s.regB 0 (Reg.RT_PORT_CFG + 4 * port) 28 = true →
    beAt body 0 1 = 1 → beAt body 1 1 = s.regF 0 Reg.FT_CFG 24 8 → beAt body 8 8 % 32768 = 0 →
    s.regF 0 Reg.FT_SRC_ID 0 16 = beAt body 2 2 → beAt body 2 2 ≠ 0xFFFF → s.ft.selected = some (beAt body 2 2) →
    s.ft.lastSeq = none → ((s.life ≠ .service ∧ s.life ≠ .drain) ∨ s.regB 0 Reg.FT_STAT 2 = true) →
    ∀ e : Int, e = 256 * (s.ft.now.toNat : Int) - (256 * (beAt body 8 8 : Int) +
      (BitVec.ofNat 32 (beAt body 16 4)).toInt + 16 * (s.regF 0 (Reg.FT_PORT_DELAY + 4 * port) 0 20 : Int)) →
    256 * s.regF 0 Reg.FT_STEP_THRESH 0 15 < e.natAbs → 128 ≤ e.natAbs →
    ∃ t, exec (.beacon port ns 0 true body) s = .next t ∧ t.ft.lastSeq = some (beAt body 4 4) ∧
      (e < 0 → t.ft.now = BitVec.ofNat 64 (s.ft.now.toNat + (roundAway e 256).natAbs)) ∧
      (0 < e → t.ft.now = s.ft.now ∧ t.ft.stalled = true ∧ t.ft.slew = 0 ∧ t.ft.nextSlew = none ∧ t.mem = s.mem)

/-- For every state whose fabric time, and every beacon whose ORIGIN, is 2^40 ns or more below the wrap of the 64-bit
count: after any step fabric time is not below what it was, unless the step was a power-on reset, which puts the
fabric-time unit at its reset. Slewing repeats or omits a count, a step goes forward, a stall holds, and a write
that would lower the time is refused. (R8, R18, R25, R26, R27) -/
def Obligations.FabricTimeNeverDecreases : Prop :=
  ∀ s t : State, s.ft.now.toNat + 2 ^ 40 ≤ 2 ^ 64 →
    (∀ port ns tc ok body rest, s.pending = .beacon port ns tc ok body :: rest → beAt body 8 8 + 2 ^ 40 ≤ 2 ^ 64) →
    step s = .next t → s.ft.now.toNat ≤ t.ft.now.toNat ∨ t.ft = Ft.reset

/-- On a node whose PF0 registers answer: a write of FT_SET_CTL with GO at 1, in RECOVERY or STANDBY or with FREE_RUN at
1, loads FT_SET_HI:FT_SET_LO when it is not below the present time; in every other case a GO sets SET_REFUSED and
changes nothing else, and a write without GO changes nothing. A write of FT_SRC_ID stores its 16 bits and ends the
selection with its last SEQ. A read of FT_NOW_LO answers bits [31:0] of fabric time and latches bits [63:32]. (R13,
R27, R39) -/
def Obligations.SetTimeRegisters : Prop :=
  (∀ (s : State) (v : Word), s.pf0 = true → getB v 0 = true → (s.life = .standby ∨ s.regB 0 Reg.FT_CFG 0 = true) →
    s.ft.now.toNat ≤ (s.reg 0 Reg.FT_SET_HI).toNat * 2 ^ 32 + (s.reg 0 Reg.FT_SET_LO).toNat →
    ∃ t, exec (.ftSetGo v) s = .next t ∧
      t.ft.now.toNat = (s.reg 0 Reg.FT_SET_HI).toNat * 2 ^ 32 + (s.reg 0 Reg.FT_SET_LO).toNat) ∧
  (∀ (s : State) (v : Word), s.pf0 = true → getB v 0 = true →
    ((s.life ≠ .boot ∧ s.life ≠ .recovery ∧ s.life ≠ .standby ∧ s.regB 0 Reg.FT_CFG 0 = false) ∨
      (s.reg 0 Reg.FT_SET_HI).toNat * 2 ^ 32 + (s.reg 0 Reg.FT_SET_LO).toNat < s.ft.now.toNat) →
    exec (.ftSetGo v) s = .next (s.setRegB 0 Reg.FT_STAT 7 true)) ∧
  (∀ (s : State) (v : Word), getB v 0 = false → exec (.ftSetGo v) s = .next s) ∧
  (∀ (s : State) (v : Word), s.pf0 = true →
    exec (.ftSrcIdWrite v) s =
      .next ({ s with ft := { s.ft with selected := none, lastSeq := none } }.setReg 0 Reg.FT_SRC_ID (v &&& 0xFFFF))) ∧
  (∀ s : State, s.pf0 = true →
    exec .ftNowRead s = .next { s with
      ft := { s.ft with latch := BitVec.ofNat 32 (s.ft.now.toNat / 2 ^ 32) },
      out := .regData (BitVec.ofNat 32 s.ft.now.toNat) :: s.out })

/-- A selected reference that shows no edge sets REF_LOSS and no longer holds the pilot, and its return clears REF_LOSS;
without a selected reference its loss changes nothing. A holdover count of 65,536 on a node that is not Adrift and
does not run free sets ADRIFT, clears LOCKED, and raises alert cause 0, with memory unchanged; any other count
changes nothing. The end of a stall brings the count to nanosecond 2,047 of the milestone. An enabled Hearth slice
with no KINDLE of the slot's owner executing, and an enabled column without Flue work, that are not gated become
gated. A span-job that still runs at its planned end is marked, counted in FT_OVERRUN_CNT and sets OVERRUN. (R15,
R16, R20, R22, R26, R35, R36) -/
def Obligations.ReferenceHoldoverAndGating : Prop :=
  (∀ s : State, s.regF 0 Reg.FT_CFG 8 2 ≠ 0 →
    exec .refLoss s = .next ({ s with ft := { s.ft with refHeld := false } }.setRegB 0 Reg.FT_STAT 5 true)) ∧
  (∀ s : State, s.regF 0 Reg.FT_CFG 8 2 = 0 → exec .refLoss s = .next s) ∧
  (∀ s : State, exec .refReturn s = .next (s.setRegB 0 Reg.FT_STAT 5 false)) ∧
  (∀ s : State, s.regF 0 Reg.FT_HOLD 0 17 = 65536 → s.regB 0 Reg.FT_STAT 2 = false → s.regB 0 Reg.FT_CFG 0 = false →
    ∃ t, exec .adriftEnter s = .next t ∧ t.regB 0 Reg.FT_STAT 2 = true ∧ t.regB 0 Reg.FT_STAT 0 = false ∧
      t.regB 0 Reg.PW_ALERT_STAT 0 = true ∧ t.sharedFaults = s.sharedFaults + 1 ∧ t.ft.now = s.ft.now ∧ t.mem = s.mem) ∧
  (∀ s : State, s.regF 0 Reg.FT_HOLD 0 17 ≠ 65536 → exec .adriftEnter s = .next s) ∧
  (∀ s : State, s.ft.stalled = true →
    ∃ t, exec .stallEnd s = .next t ∧ t.ft.stalled = false ∧ t.ft.now = BitVec.ofNat 64 (s.ms * 2048 + 2047) ∧
      t.mem = s.mem ∧ t.regs = s.regs) ∧
  (∀ (s : State) (h : Nat), s.pwrGood = true → h < 4 → s.regB 0 Reg.FT_GATE_CFG 1 = true → .slice h ∉ s.gated →
    (∀ k ∈ s.kindles, k.executing = true → k.part ≠ s.arrayOwner s.ms) →
    exec (.unitGate (.slice h)) s = .next { s with gated := s.gated ++ [.slice h] }) ∧
  (∀ (s : State) (c : Nat), s.pwrGood = true → c < 512 → s.regB 0 Reg.FT_GATE_CFG 0 = true → s.flueWork c = false →
    .column c ∉ s.gated → exec (.unitGate (.column c)) s = .next { s with gated := s.gated ++ [.column c] }) ∧
  (∀ (s : State) (cmd span : Nat) (r : Req) (j : Job), s.req? cmd = some r → r.job? span = some j →
    j.phase = .running → j.overrun = false →
    exec (.spanJobOverrun cmd span) s =
      .next (((s.setJob cmd span fun j => { j with overrun := true }).count 0 Reg.FT_OVERRUN_CNT 1).setRegB 0
        Reg.FT_STAT 6 true))

/-- For every powered state that does not stall, MILESTONE_BOUNDARY answers a state whose fabric time is nanosecond 0 of
the next milestone, whatever events fell due; while a stall holds the count, no event fires and nothing changes. A
seal deadline that has not yet arrived changes nothing, and one that has arrived leaves no early ember of its
request whose deadline has arrived without a verdict, and memory unchanged. (R7, R26, R188) -/
def Obligations.BoundaryBeginsTheNextMilestone : Prop :=
  (∀ (s : State) (env : Env), s.pwrGood = true → s.ft.stalled = false →
    ∃ t, exec (.milestoneBoundary env) s = .next t ∧ t.ft.now = BitVec.ofNat 64 ((s.ms + 1) * 2048)) ∧
  (∀ (s : State) (env : Env), s.ft.stalled = true → exec (.milestoneBoundary env) s = .next s) ∧
  (∀ (s : State) (i : Nat) (e : Sent), s.sent.find? (fun e => e.id == i && e.early && e.verdict.isNone) = some e →
    s.ms < e.left + 2 → exec (.sealDeadline i) s = .next s) ∧
  (∀ (s : State) (i : Nat) (e : Sent), s.sent.find? (fun e => e.id == i && e.early && e.verdict.isNone) = some e →
    e.left + 2 ≤ s.ms →
    ∃ t, exec (.sealDeadline i) s = .next t ∧ t.mem = s.mem ∧
      ∀ x ∈ t.sent, x.req = e.req → x.early = true → x.left + 2 ≤ s.ms → x.verdict.isSome = true)

/-- For a served VF, an engine and a ring that is not DISABLED: a submission tail T with (T - head) mod 2^32 at most
2^SUB_LOG2 becomes the tail, and a completion head between the last one and the completion tail becomes the head,
with nothing else changed. Any other value leaves the indexes, sets CQ_ERR_STAT.DOORBELL and stops the ring if it
was ACTIVE, with memory unchanged. A DISABLED ring ignores doorbells, and a doorbell of a VF that exists but is not
served is an Unsupported Request. (R254, R256) -/
def Obligations.DoorbellsAreValidated : Prop :=
  (∀ (s : State) (fn e : Nat) (v : Word), fn ≠ 0 → e < 6 → s.fnServed fn = true → (s.ring (fn - 1) e).st ≠ .disabled →
    (v - (s.ring (fn - 1) e).subHead).toNat ≤ 2 ^ s.regF fn (Reg.CQ_RING_CFG + 0x40 * e) 0 5 →
    exec (.doorbellSub fn e v) s = .next (s.setRing (fn - 1) e { s.ring (fn - 1) e with subTail := v })) ∧
  (∀ (s : State) (fn e : Nat) (v : Word), fn ≠ 0 → e < 6 → s.fnServed fn = true → (s.ring (fn - 1) e).st ≠ .disabled →
    (v - (s.ring (fn - 1) e).cplHead).toNat ≤ ((s.ring (fn - 1) e).cplTail - (s.ring (fn - 1) e).cplHead).toNat →
    exec (.doorbellCpl fn e v) s = .next (s.setRing (fn - 1) e { s.ring (fn - 1) e with cplHead := v })) ∧
  (∀ (s : State) (fn e : Nat) (v : Word) (c : Instr), fn ≠ 0 → e < 6 → s.fnServed fn = true →
    (s.ring (fn - 1) e).st ≠ .disabled →
    (c = .doorbellSub fn e v ∧ 2 ^ s.regF fn (Reg.CQ_RING_CFG + 0x40 * e) 0 5 < (v - (s.ring (fn - 1) e).subHead).toNat ∨
      c = .doorbellCpl fn e v ∧
        ((s.ring (fn - 1) e).cplTail - (s.ring (fn - 1) e).cplHead).toNat < (v - (s.ring (fn - 1) e).cplHead).toNat) →
    ∃ t, exec c s = .next t ∧ t.regB fn Reg.CQ_ERR_STAT 0 = true ∧ t.mem = s.mem ∧
      t.ring (fn - 1) e = { s.ring (fn - 1) e with
        st := if (s.ring (fn - 1) e).st = .active then .stopped else (s.ring (fn - 1) e).st }) ∧
  (∀ (s : State) (fn e : Nat) (v : Word), s.fnServed fn = true → (s.ring (fn - 1) e).st = .disabled →
    exec (.doorbellSub fn e v) s = .next s ∧ exec (.doorbellCpl fn e v) s = .next s) ∧
  (∀ (s : State) (fn e : Nat) (v : Word), s.fnServed fn = false → s.barAnswers fn = true →
    exec (.doorbellSub fn e v) s = .next (s.emit .unsupported) ∧ exec (.doorbellCpl fn e v) s = .next (s.emit .unsupported))

/-- For a served VF and an engine: ENABLE written 1 puts a DISABLED ring into ACTIVE with all four indexes 0 and leaves
every other ring state as it is; ENABLE written 0 puts an ACTIVE or STOPPED ring into DISABLED when no taken
descriptor of it is incomplete, and into DRAINING otherwise, with the indexes kept, and leaves a DISABLED or
DRAINING ring as it is. Memory and every other ring are unchanged. (R256) -/
def Obligations.RingStatesFollowEnable : Prop :=
  (∀ (s : State) (fn e : Nat), fn ≠ 0 → e < 6 → s.fnServed fn = true →
    ∃ t, exec (.ringEnable fn e) s = .next t ∧ t.mem = s.mem ∧
      t.ring (fn - 1) e = (if (s.ring (fn - 1) e).st = .disabled then ⟨.active, 0, 0, 0, 0⟩ else s.ring (fn - 1) e) ∧
      ∀ p' e', e' < 8 → (p', e') ≠ (fn - 1, e) → t.ring p' e' = s.ring p' e') ∧
  (∀ (s : State) (fn e : Nat), fn ≠ 0 → e < 6 → s.fnServed fn = true →
    ∃ t, exec (.ringDisable fn e) s = .next t ∧ t.mem = s.mem ∧
      t.ring (fn - 1) e = (if (s.ring (fn - 1) e).st = .active ∨ (s.ring (fn - 1) e).st = .stopped then
          { s.ring (fn - 1) e with st := if s.takenFrom (fn - 1) e = 0 then .disabled else .draining }
        else s.ring (fn - 1) e) ∧
      ∀ p' e', e' < 8 → (p', e') ≠ (fn - 1, e) → t.ring p' e' = s.ring p' e')

/-- When a ring of a partition that takes commands is ACTIVE, its head differs from its tail, taken-and-incomplete plus
posted-and-unconsumed is below 2^CPL_LOG2, and neither a waiting descriptor nor an engine limit holds the queue: the
take reads the entry at the head, advances the head by 1 and adds one command, numbered with the old head, that
holds the descriptor as read, with the REQ_TAG of an ATTEND or a MERGE as its DETAIL; a header that fails R251 has
ended with FORMAT. A ring that is not ACTIVE or is empty takes nothing. An inbound queue gives its first descriptor.
A failed descriptor read leaves it untaken and sets DMA whatever the ring's state, and stops an ACTIVE ring. Memory
is unchanged throughout. (R251, R252, R255, R257, R260) -/
def Obligations.DescriptorsAreTakenInOrder : Prop :=
  (∀ (s : State) (p e : Nat) (d : BitVec 512), (s.ring p e).st = .active →
    (s.ring p e).subHead ≠ (s.ring p e).subTail →
    s.takenFrom p e + ((s.ring p e).cplTail - (s.ring p e).cplHead).toNat < 2 ^ s.cplLog p e →
    s.taking p e = true → s.queueBusy (.host p e) = false → s.engineFull p e = false →
    ∃ t, exec (.descriptorTake (.host p e) d) s = .next t ∧ t.mem = s.mem ∧ t.nextId = s.nextId + 1 ∧
      t.ring p e = { s.ring p e with subHead := (s.ring p e).subHead + 1 } ∧
      Out.hostRead (p + 1) (s.reg64 (p + 1) (Reg.CQ_SUB_BASE_LO + 0x40 * e) (Reg.CQ_SUB_BASE_HI + 0x40 * e) +
        64 * ((s.ring p e).subHead.toNat % 2 ^ s.regF (p + 1) (Reg.CQ_RING_CFG + 0x40 * e) 0 5)) 64 ∈ t.out ∧
      (∃ c ∈ t.cmds, c.id = s.nextId ∧ c.q = .host p e ∧ c.index = (s.ring p e).subHead ∧ c.part = p ∧ c.eng = e ∧
        c.desc = d ∧ (e = 0 → c.detail = BitVec.ofNat 64 (dF d 56 8)) ∧ (e = 2 → c.detail = BitVec.ofNat 64 (dF d 48 8)) ∧
        (headerOk e false d = false → c.phase = .ended ∧ c.status = 0x0C))) ∧
  (∀ (s : State) (p e : Nat) (d : BitVec 512),
    (s.ring p e).st ≠ .active ∨ (s.ring p e).subHead = (s.ring p e).subTail ∨ s.part p ≠ .active →
    exec (.descriptorTake (.host p e) d) s = .next s) ∧
  (∀ (s : State) (i e : Nat) (d : BitVec 512) (x : InDesc), s.inq.find? (fun d => d.conn == i && d.eng == e) = some x →
    s.taking x.part e = true → s.queueBusy (.inbound i e) = false → s.engineFull x.part e = false →
    ∃ t, exec (.descriptorTake (.inbound i e) d) s = .next t ∧ t.mem = s.mem ∧
      t.inq = eraseFirst (fun d => d.conn == i && d.eng == e) s.inq ∧
      (∃ c ∈ t.cmds, c.id = s.nextId ∧ c.q = .inbound i e ∧ c.part = x.part ∧ c.eng = e ∧ c.desc = x.desc ∧
        c.payload = x.payload)) ∧
  (∀ (s : State) (p e : Nat) (err : HostErr), e < 6 → (s.ring p e).st = .active →
    (s.ring p e).subHead ≠ (s.ring p e).subTail →
    ∃ t, exec (.descriptorReadFail p e err) s = .next t ∧ t.mem = s.mem ∧ t.cmds = s.cmds ∧
      t.ring p e = { s.ring p e with st := .stopped } ∧ t.regB (p + 1) Reg.CQ_ERR_STAT 2 = true) ∧
  (∀ (s : State) (p e : Nat) (err : HostErr), e < 6 → (s.ring p e).st ≠ .active →
    ∃ t, exec (.descriptorReadFail p e err) s = .next t ∧ t.mem = s.mem ∧ t.cmds = s.cmds ∧ t.rings = s.rings ∧
      t.regB (p + 1) Reg.CQ_ERR_STAT 2 = true)

/-- For a command that waits: while the pair is valid and its COUNT is below WAIT_VALUE nothing changes; once it is
reached, without POISON and for a command that no life or power state refuses, the command is ready to start; with
POISON it has ended with ABORTED and is counted; a pair that is not valid ends it with COMPLEMENT_FAULT, counted in
MT_CPL_FAULT_CNT; after WAIT_LIMIT milestone boundaries it ends with TIMEOUT, counted in CQ_TIMEOUT_CNT. No memory
changes. A NOP whose turn has come ends with OK and result 0. (R252, R266) -/
def Obligations.WaitsEndAsR266Says : Prop :=
  (∀ (s : State) (id : Nat) (c : Cmd), s.cmd? id = some c → c.phase = .waiting →
    (s.wm c.part (dWaitWm c.desc)).ok = true → wmCount (s.wm c.part (dWaitWm c.desc)).val < dWaitValue c.desc →
    exec (.waitSatisfied id) s = .next s) ∧
  (∀ (s : State) (id : Nat) (c : Cmd), s.cmd? id = some c → c.phase = .waiting →
    (s.wm c.part (dWaitWm c.desc)).ok = true → dWaitValue c.desc ≤ wmCount (s.wm c.part (dWaitWm c.desc)).val →
    wmPoison (s.wm c.part (dWaitWm c.desc)).val = false → c.refused = false →
    ∃ t c', exec (.waitSatisfied id) s = .next t ∧ t.mem = s.mem ∧ t.cmd? id = some c' ∧ c'.phase = .ready) ∧
  (∀ (s : State) (id : Nat) (c : Cmd), s.cmd? id = some c → c.phase = .waiting →
    (s.wm c.part (dWaitWm c.desc)).ok = true → dWaitValue c.desc ≤ wmCount (s.wm c.part (dWaitWm c.desc)).val →
    wmPoison (s.wm c.part (dWaitWm c.desc)).val = true →
    ∃ t c', exec (.waitSatisfied id) s = .next t ∧ t.mem = s.mem ∧ t.cmd? id = some c' ∧ c'.phase = .ended ∧
      c'.status = 0x0A ∧ c'.poisoned = true) ∧
  (∀ (s : State) (id : Nat) (c : Cmd), s.cmd? id = some c → c.phase = .waiting →
    (s.wm c.part (dWaitWm c.desc)).ok = false →
    ∃ t c', exec (.waitSatisfied id) s = .next t ∧ t.mem = s.mem ∧ t.cmd? id = some c' ∧ c'.phase = .ended ∧
      c'.status = 0x0E ∧
      (t.reg 0 Reg.MT_CPL_FAULT_CNT).toNat = min 0xFFFFFFFF ((s.reg 0 Reg.MT_CPL_FAULT_CNT).toNat + 1)) ∧
  (∀ (s : State) (id : Nat) (c : Cmd), s.cmd? id = some c → c.phase = .waiting →
    (s.wm c.part (dWaitWm c.desc)).ok = true → wmCount (s.wm c.part (dWaitWm c.desc)).val < dWaitValue c.desc →
    s.regF (c.part + 1) Reg.CQ_CFG 0 16 ≠ 0 → c.waitFrom + s.regF (c.part + 1) Reg.CQ_CFG 0 16 ≤ s.ms →
    ∃ t c', exec (.waitTimeout id) s = .next t ∧ t.mem = s.mem ∧ t.cmd? id = some c' ∧ c'.phase = .ended ∧
      c'.status = 0x0B ∧ (t.reg (c.part + 1) Reg.CQ_TIMEOUT_CNT).toNat =
        min 0xFFFFFFFF ((s.reg (c.part + 1) Reg.CQ_TIMEOUT_CNT).toNat + 1)) ∧
  (∀ (s : State) (id : Nat) (c : Cmd), s.cmd? id = some c → s.bodyReady c = true → dNop c.desc = true →
    ∃ t c', exec (.nop id) s = .next t ∧ t.mem = s.mem ∧ t.regs = s.regs ∧ t.cmd? id = some c' ∧ c'.phase = .ended ∧
      c'.status = 0 ∧ c'.result = 0)

/-- For a command of a host ring whose body has ended, with no forwarded APPEND outstanding and not discarded:
completion removes the command, emits a record with its index, status, engine, result, USER_TAG, DETAIL and the
present fabric time for the entry at the completion tail, advances the tail by 1, counts one posting, and changes no
memory; a FLUSH leaves no earlier image of a write of the command. When the write of the record fails, the tail
still advances, CPL_LOST is set, an ACTIVE ring is STOPPED, and the command is gone with its effects. (R252, R257,
R262, R263, R268) -/
def Obligations.CompletionPostsTheRecord : Prop :=
  (∀ (s : State) (id : Nat) (c : Cmd) (p e : Nat), s.done? id = some c → c.q = .host p e → c.discard = false →
    ∃ t, exec (.descriptorComplete id) s = .next t ∧ t.mem = s.mem ∧ t.cmd? id = none ∧ t.posted = s.posted + 1 ∧
      (t.ring p e).cplTail = (s.ring p e).cplTail + 1 ∧
      (∃ flags, Out.record (p + 1)
        (s.reg64 (p + 1) (Reg.CQ_CPL_BASE_LO + 0x40 * e) (Reg.CQ_CPL_BASE_HI + 0x40 * e) +
          32 * ((s.ring p e).cplTail.toNat % 2 ^ s.cplLog p e))
        (recordBytes c.index.toNat c.status c.eng flags c.part c.result.toNat (dUserTag c.desc) c.detail.toNat
          s.ft.now.toNat) ∈ t.out) ∧
      (dFlush c.desc = true → c.fences = true → ∀ x ∈ t.stale, x.cmd ≠ c.id)) ∧
  (∀ (s : State) (id : Nat) (c : Cmd) (p e : Nat) (err : HostErr), s.done? id = some c → c.q = .host p e →
    c.discard = false →
    ∃ t, exec (.cplWriteFail id err) s = .next t ∧ t.mem = s.mem ∧ t.cmd? id = none ∧
      (t.ring p e).cplTail = (s.ring p e).cplTail + 1 ∧
      ((s.ring p e).st = .active → (t.ring p e).st = .stopped) ∧
      t.regB (p + 1) Reg.CQ_ERR_STAT 3 = true)

/-- For a served VF and a waymark number: ZERO leaves a valid pair with value 0; CLEAR_POISON on a valid pair clears bit
63 and keeps the COUNT; an add to a valid pair gives the sum saturated at 2^63 - 1, keeps POISON, and sets WM_SAT
when it saturates; an operation on a pair that is not valid leaves the pair and counts a complement fault; a 64-bit
read answers the value of a valid pair, and all ones otherwise. No other waymark of any partition and no memory
changes. A write of CQ_WATCH_CTL that sets EN while the COUNT is below the watch value arms the watch, and one whose
COUNT has been reached raises vector 7 and leaves EN clear. (R65, R265, R270, R278) -/
def Obligations.WaymarksFromTheHost : Prop :=
  (∀ (s : State) (fn w : Nat), fn ≠ 0 → w < 4096 → s.fnServed fn = true →
    ∃ t, exec (.wmZero fn w) s = .next t ∧ t.mem = s.mem ∧ t.wm (fn - 1) w = pairOf 0 ∧
      ∀ q v, v < 4096 → (q, v) ≠ (fn - 1, w) → t.wm q v = s.wm q v) ∧
  (∀ (s : State) (fn w : Nat), fn ≠ 0 → w < 4096 → s.fnServed fn = true → (s.wm (fn - 1) w).ok = true →
    ∃ t, exec (.wmClearPoison fn w) s = .next t ∧ t.mem = s.mem ∧
      t.wm (fn - 1) w = pairOf (wmMake (wmCount (s.wm (fn - 1) w).val) false) ∧
      ∀ q v, v < 4096 → (q, v) ≠ (fn - 1, w) → t.wm q v = s.wm q v) ∧
  (∀ (s : State) (fn w : Nat) (x : BitVec 64), fn ≠ 0 → w < 4096 → s.fnServed fn = true →
    (s.wm (fn - 1) w).ok = true →
    ∃ t, exec (.wmAdd fn w x) s = .next t ∧ t.mem = s.mem ∧
      t.wm (fn - 1) w = pairOf (wmMake (min (wmCount (s.wm (fn - 1) w).val + x.toNat) (2 ^ 63 - 1))
        (wmPoison (s.wm (fn - 1) w).val)) ∧
      (2 ^ 63 - 1 < wmCount (s.wm (fn - 1) w).val + x.toNat → t.regB fn Reg.CQ_ERR_STAT 5 = true) ∧
      ∀ q v, v < 4096 → (q, v) ≠ (fn - 1, w) → t.wm q v = s.wm q v) ∧
  (∀ (s : State) (fn w : Nat) (x : BitVec 64) (c : Instr), fn ≠ 0 → w < 4096 → s.fnServed fn = true →
    (s.wm (fn - 1) w).ok = false → (c = .wmClearPoison fn w ∨ c = .wmAdd fn w x) →
    ∃ t, exec c s = .next t ∧ t.mem = s.mem ∧ t.wms = s.wms ∧
      (t.reg 0 Reg.MT_CPL_FAULT_CNT).toNat = min 0xFFFFFFFF ((s.reg 0 Reg.MT_CPL_FAULT_CNT).toNat + 1)) ∧
  (∀ (s : State) (fn w : Nat), fn ≠ 0 → w < 4096 → s.fnServed fn = true →
    ∃ t, exec (.wmValueRead fn w true) s = .next t ∧ t.mem = s.mem ∧ t.wms = s.wms ∧
      t.out = .regData64 (if (s.wm (fn - 1) w).ok then (s.wm (fn - 1) w).val else BitVec.allOnes 64) :: s.out) ∧
  (∀ (s : State) (fn : Nat) (v : Word) (w : Pair 64), fn ≠ 0 → s.fnServed fn = true → getB v 31 = true →
    w = s.wm (fn - 1) (getF v 0 12) → w.ok = true →
    ∃ t, exec (.watchArm fn v) s = .next t ∧ t.mem = s.mem ∧ t.wms = s.wms ∧
      (wmCount w.val < s.regF fn Reg.CQ_WATCH_HI 0 31 * 2 ^ 32 + (s.reg fn Reg.CQ_WATCH_LO).toNat →
        t.regB fn Reg.CQ_WATCH_CTL 31 = true ∧ t.out = s.out) ∧
      (s.regF fn Reg.CQ_WATCH_HI 0 31 * 2 ^ 32 + (s.reg fn Reg.CQ_WATCH_LO).toNat ≤ wmCount w.val →
        t.regB fn Reg.CQ_WATCH_CTL 31 = false ∧ t.out = .msix fn 7 :: s.out))

/-- For every state, VF, offset and data, whatever the write meets: if a byte of memory reads differently after
HOST_WRITE, and not because a Flue burst whose turn it was ran first (R133), that byte has the native address of a
byte of the written range, and every byte of the range is mapped and owned by the partition that the VF serves; with
no burst waiting this holds of every byte that reads differently; and a write that is an atomic operation, goes
through a closed aperture, reaches the far tier, a page arena or a bound image changes no memory at all. (R43, R46,
R444) -/
def Obligations.HostWritesStayInsideThePartition : Prop :=
  (∀ (s t : State) (fn off : Nat) (data : List Byte) (atomicOp : Bool) (b : Nat),
    exec (.hostWrite fn off data atomicOp) s = .next t → t.byte b ≠ s.byte b →
    (t.byte b ≠ (s.hostTurns (s.apAddr fn off) data.length).byte b ∨ ∀ col, s.burstWaits col = false) →
    (∃ i < data.length, native b = native (s.apAddr fn off + i)) ∧ s.mapped (s.apAddr fn off) data.length = true ∧
      s.owned (fn - 1) (s.apAddr fn off) data.length = true) ∧
  (∀ (s t : State) (fn off : Nat) (data : List Byte) (atomicOp : Bool),
    exec (.hostWrite fn off data atomicOp) s = .next t →
    (atomicOp = true ∨ s.regB fn (Reg.BW_AP + 4 * (off / 2 ^ 30)) 31 = false ∨
      (cut .far (s.apAddr fn off) data.length).2 ≠ 0 ∨ s.inArena (s.apAddr fn off) data.length = true ∨
      s.inImage (s.apAddr fn off) data.length = true) → t.mem = s.mem)

/-- For a served VF and an access within its apertures that no rule refuses, on a node with no latent error and no Flue
burst waiting: the write stores each byte at its address (the last byte for an address named twice), and the read
answers the stored bytes, unpoisoned, when no earlier image awaits a FLUSH, with memory unchanged; of the registers
only the count of targeted refreshes may change. An access to an unmapped address, or to one that the partition does
not own, is completed as an Unsupported Request, counted in BW_UR_CNT, with memory unchanged. (R42, R43, R444, R445) -/
def Obligations.HostAccessesThroughApertures : Prop :=
  (∀ (s : State) (fn off : Nat) (data : List Byte), fn ≠ 0 → s.fnServed fn = true → off + data.length ≤ 2 ^ 34 →
    s.barRefusal fn off data.length true false = 0 → s.ecc = [] → (∀ col, s.burstWaits col = false) →
    ∃ t, exec (.hostWrite fn off data false) s = .next t ∧
      (∀ f r, regKey f r ≠ regKey 0 Reg.FX_TRR_CNT → t.reg f r = s.reg f r) ∧
      ∀ i, i < data.length →
        (∀ j, i < j → j < data.length → native (s.apAddr fn off + j) ≠ native (s.apAddr fn off + i)) →
        t.byte (s.apAddr fn off + i) = data.getD i 0) ∧
  (∀ (s : State) (fn off len : Nat), fn ≠ 0 → s.fnServed fn = true → off + len ≤ 2 ^ 34 →
    s.barRefusal fn off len false false = 0 → s.ecc = [] → s.stale = [] → (∀ col, s.burstWaits col = false) →
    ∃ t, exec (.hostRead fn off len false) s = .next t ∧ t.mem = s.mem ∧
      (∀ f r, regKey f r ≠ regKey 0 Reg.FX_TRR_CNT → t.reg f r = s.reg f r) ∧
      t.out = .hostData (s.bytes (s.apAddr fn off) len) false :: s.out) ∧
  (∀ (s : State) (fn off : Nat) (data : List Byte) (c : Instr), fn ≠ 0 → s.fnServed fn = true →
    off + data.length ≤ 2 ^ 34 →
    (s.mapped (s.apAddr fn off) data.length = false ∨ s.owned (fn - 1) (s.apAddr fn off) data.length = false) →
    (c = .hostWrite fn off data false ∨ c = .hostRead fn off data.length false) →
    ∃ t, exec c s = .next t ∧ t.mem = s.mem ∧ t.out = .unsupported :: s.out ∧ t.regB fn Reg.BW_STAT 0 = true ∧
      (t.reg fn Reg.BW_UR_CNT).toNat = min 0xFFFFFFFF ((s.reg fn Reg.BW_UR_CNT).toNat + 1))

/-- Every native hot-tier byte has exactly one compatibility address: on the 2 TiB window from 0x0300_0000_0000 the
decoding of R46 lands in the native hot tier, the inverse takes it back, and every native hot-tier byte is reached;
the stack, the exclusive-or that gives the pseudo-channel, and the address in the channel are those of the rule; and
a byte written through either address is read through the other. (R46) -/
def Obligations.CompatDecodingIsOneToOne : Prop :=
  (∀ a, 0x030000000000 ≤ a → a < 0x050000000000 →
    (0x010000000000 ≤ native a ∧ native a < 0x030000000000) ∧ compatOf (native a) = a ∧
    (native a - 0x010000000000) / 2 ^ 37 = (a - 0x030000000000) / 2 ^ 37 ∧
    (native a - 0x010000000000) / 2 ^ 32 % 32 =
      ((a - 0x030000000000) % 2 ^ 37 / 256 % 32) ^^^ ((a - 0x030000000000) % 2 ^ 37 / 256 / 32 % 32) ∧
    (native a - 0x010000000000) % 2 ^ 32 =
      (a - 0x030000000000) % 2 ^ 37 / 256 / 32 * 256 + (a - 0x030000000000) % 256) ∧
  (∀ b, 0x010000000000 ≤ b → b < 0x030000000000 →
    (0x030000000000 ≤ compatOf b ∧ compatOf b < 0x050000000000) ∧ native (compatOf b) = b) ∧
  (∀ (s : State) (a : Nat) (v : Byte), 0x030000000000 ≤ a → a < 0x050000000000 →
    (s.store a [v]).byte (native a) = v ∧ (s.store (native a) [v]).byte a = v)

/-- For a served VF and an aligned 32-bit or 64-bit write inside the object-table window: a write that does not reach
the end of its entry changes no object and keeps the patched entry in the staging copy of the function; the write
that ends at byte 31 makes the patched entry the object, when the object is neither a bound image nor an arena that
holds slots; for a bound image the object stays and BOUND is set, and for a busy arena it stays and ARENA_BUSY is
set. Objects of other numbers are unchanged, and so is memory, unless the entry makes rows raw whose latent errors
stand as stored (R125). (R53, R56, R447) -/
def Obligations.ObjectTableWindow : Prop :=
  ∀ (s : State) (fn off : Nat) (bs : List Byte) (v : BitVec 256), fn ≠ 0 → s.fnServed fn = true →
    (bs.length = 4 ∨ bs.length = 8) → off % bs.length = 0 → off + bs.length ≤ 0x8000 →
    v = BitVec.ofNat 256 (leNat (patch (leBytes 32 (match s.objStage.find? (fun e : Nat × (Nat × BitVec 256) => e.1 == fn) with
      | some (_, j, w) => if j = off / 32 then w else s.obj (fn - 1) (off / 32)
      | none => s.obj (fn - 1) (off / 32)).toNat) (off % 32) bs)) →
    ∃ t, exec (.objectWindowWrite fn off bs) s = .next t ∧ (s.ecc = [] ∨ objRaw v = false → t.mem = s.mem) ∧
      (∀ p i, i < 1024 → (p, i) ≠ (fn - 1, off / 32) → t.obj p i = s.obj p i) ∧
      (off % 32 + bs.length < 32 → t.objs = s.objs ∧ (fn, off / 32, v) ∈ t.objStage) ∧
      (off % 32 + bs.length = 32 → s.boundObj (fn - 1) (off / 32) = false → s.arenaBusy (fn - 1) (off / 32) v = false →
        t.obj (fn - 1) (off / 32) = v) ∧
      (off % 32 + bs.length = 32 → s.boundObj (fn - 1) (off / 32) = true →
        t.objs = s.objs ∧ t.regB 0 Reg.KN_ERR_STAT 2 = true) ∧
      (off % 32 + bs.length = 32 → s.boundObj (fn - 1) (off / 32) = false → s.arenaBusy (fn - 1) (off / 32) v = true →
        t.objs = s.objs ∧ t.regB 0 Reg.MT_ERR_STAT 2 = true)

/-- With PF0's registers answering: FAR_WRITE of an entry with KIND 3, a reserved bit set or, for KIND 1, a must-be-zero
bit set, sets BAD_ENTRY and changes nothing else; of any other entry it stores the value with its complement in the
window that MT_FAR_SEL names, leaving the other windows. FAR_READ of a valid pair loads its four words into
MT_FAR_W0 to W3; of a pair that is not valid it loads all ones and counts a complement fault. Memory is unchanged.
(R49, R50, R65, R67) -/
def Obligations.FarWindowEntries : Prop :=
  (∀ s : State, s.pf0 = true → farBad s.farWords = true →
    exec .farWrite s = .next (s.setRegB 0 Reg.MT_FAR_STAT 0 true)) ∧
  (∀ s : State, s.pf0 = true → farBad s.farWords = false →
    ∃ t, exec .farWrite s = .next t ∧ t.mem = s.mem ∧ t.regs = s.regs ∧
      t.farEntry (s.regF 0 Reg.MT_FAR_SEL 0 8) = ⟨s.farWords, ~~~s.farWords⟩ ∧
      ∀ k, k ≠ s.regF 0 Reg.MT_FAR_SEL 0 8 → t.farEntry k = s.farEntry k) ∧
  (∀ (s : State) (j : Nat), s.pf0 = true → j < 4 → (s.farEntry (s.regF 0 Reg.MT_FAR_SEL 0 8)).ok = true →
    ∃ t, exec .farRead s = .next t ∧ t.mem = s.mem ∧ t.far = s.far ∧
      (t.reg 0 (Reg.MT_FAR_W + 4 * j)).toNat = getF (s.farEntry (s.regF 0 Reg.MT_FAR_SEL 0 8)).val (32 * j) 32) ∧
  (∀ (s : State) (j : Nat), s.pf0 = true → j < 4 → (s.farEntry (s.regF 0 Reg.MT_FAR_SEL 0 8)).ok = false →
    ∃ t, exec .farRead s = .next t ∧ t.mem = s.mem ∧ t.far = s.far ∧
      t.reg 0 (Reg.MT_FAR_W + 4 * j) = 0xFFFFFFFF ∧
      (t.reg 0 Reg.MT_CPL_FAULT_CNT).toNat = min 0xFFFFFFFF ((s.reg 0 Reg.MT_CPL_FAULT_CNT).toNat + 1))

/-- A well-formed OPEN of a key with no entry, of an allowed class and within the residency limits, on a node that is
not Adrift, adds an entry in STATE 1 whose pair is valid, whose PUBLISHED is the POSITION that it names, and which
this node owns unless the descriptor asks for no lease; it ends with OK. While Adrift it ends with ADRIFT and opens
nothing. A CLOSE of an open entry with no pending APPEND and no KINDLE puts it into STATE 2. CLOSE_FREE of a closing
entry without dispatched work frees every slot of the layer, raises the generation counter by 1, and ends the CLOSE
with OK; with dispatched work it changes nothing. Memory is unchanged throughout. (R83, R84, R88, R95, R376) -/
def Obligations.SequencesOpenAndClose : Prop :=
  (∀ (s : State) (id : Nat) (c : Cmd), s.starting? id 1 = some c → dOp c.desc = 1 → s.awake = true →
    openOk c.desc = true → s.adrift = false → apPos c.desc < 4194304 → apPos c.desc / 1024 + apCount c.desc ≤ 4096 →
    s.dir? c.key = none → s.classAllowed c.part (s.classFor c.part (apClass c.desc)) = true →
    s.resident (some c.part) < 16 * recField (s.entryVal c.part) 56 2 → s.resident none < 65536 →
    ∃ t v, exec (.openSeq id) s = .next t ∧ t.mem = s.mem ∧ t.endedWith id 0 ∧ t.openEntry c.key = some v ∧
      dePub v = apPos c.desc ∧ deKvFirst v = apKvFirst c.desc ∧ deKvCount v = apKvCount c.desc ∧
      t.dir.length = s.dir.length + 1 ∧
      (apFlags c.desc ≠ 2 → ∀ d, t.dir? c.key = some d → t.holdsLease d = true)) ∧
  (∀ (s : State) (id : Nat) (c : Cmd), s.starting? id 1 = some c → dOp c.desc = 1 → s.awake = true →
    openOk c.desc = true → s.adrift = true →
    ∃ t, exec (.openSeq id) s = .next t ∧ t.mem = s.mem ∧ t.dir = s.dir ∧ t.endedWith id 0x10) ∧
  (∀ (s : State) (id : Nat) (c : Cmd) (v : BitVec 256), s.starting? id 1 = some c → dOp c.desc = 2 → s.awake = true →
    closeOk c.desc = true → apZeros c.desc = true → s.adrift = false → s.openEntry c.key = some v →
    (∀ h ∈ s.holds, h.key ≠ c.key) → s.kindles = [] →
    ∃ t d w, exec (.closeSeq id) s = .next t ∧ t.mem = s.mem ∧ t.dir? c.key = some d ∧ d.val? = some w ∧
      deState w = 2 ∧ d.closer = some id) ∧
  (∀ (s : State) (k : DirKey) (d : Dir) (v : BitVec 256) (id : Nat) (c : Cmd), s.dir? k = some d → d.val? = some v →
    deState v = 2 → d.closer = some id → s.cmd? id = some c → c.phase ≠ .ended → s.keyBusy k = false →
    ∃ t, exec (.closeFree k) s = .next t ∧ t.mem = s.mem ∧ t.dir? k = none ∧ t.dirGen = s.dirGen + 1 ∧
      t.endedWith id 0 ∧
      t.slots = s.slots.filter fun x => !(x.part == k.part && x.seq == k.seq && x.layer == k.layer)) ∧
  (∀ (s : State) (k : DirKey), s.keyBusy k = true → exec (.closeFree k) s = .next s)

/-- An APPEND whose rows the payload carries, that passes checks 1 to 13 at POSITION equal to PUBLISHED with slots to be
had, ends with OK and PUBLISHED rises by COUNT, whether it runs at once or is released from the hold queue.
Relocations under way are completed first (R147). Beyond PUBLISHED it waits in the hold queue while fewer than 16
wait there, with memory unchanged; in a dropped span it ends with KINDLING and nothing is written; a descriptor that
fails check 1 ends with FORMAT, and on an Adrift node one that passes it ends with ADRIFT. A held APPEND ends with
TIMEOUT 64 milestones after it arrived, counted in PG_HOLD_TIMEOUT_CNT. (R87, R90, R91, R95, R243) -/
def Obligations.AppendsPublishInOrder : Prop :=
  (∀ (s u : State) (id : Nat) (c : Cmd) (v : BitVec 256), s.starting? id 1 = some c → dOp c.desc = 0 → s.awake = true →
    (∀ h ∈ s.holds, h.key ≠ c.key) → (s.runCmd id).appendHead c = (u, 0, v) → u.endMoves.appendFits c v →
    ∃ t, exec (.append id) s = .next t ∧ t.endedWith id 0 ∧ t.pubOf c.key = apPos c.desc + apCount c.desc) ∧
  (∀ (s u : State) (id : Nat) (c : Cmd) (v : BitVec 256), s.starting? id 1 = some c → dOp c.desc = 0 → s.awake = true →
    (∀ h ∈ s.holds, h.key ≠ c.key) → (s.runCmd id).appendHead c = (u, 0, v) → dePub v < apPos c.desc →
    ∃ t, exec (.append id) s = .next t ∧ t.mem = s.mem ∧
      t.holds = s.holds ++ [⟨id, c.key, apPos c.desc, s.ms, true, [], false, true, false⟩]) ∧
  (∀ (s u : State) (id : Nat) (c : Cmd) (v : BitVec 256), s.starting? id 1 = some c → dOp c.desc = 0 → s.awake = true →
    (∀ h ∈ s.holds, h.key ≠ c.key) → (s.runCmd id).appendHead c = (u, 0, v) → apPos c.desc ≤ dePub v →
    (∃ f ∈ pagesOf 1024 (apPos c.desc) (apPos c.desc + apCount c.desc), u.droppedIn c.key (f / 1024) = true) →
    ∃ t, exec (.append id) s = .next t ∧ (s.moves = [] → t.mem = s.mem) ∧ t.dir = u.dir ∧ t.endedWith id 2) ∧
  (∀ (s : State) (id : Nat) (c : Cmd), s.starting? id 1 = some c → dOp c.desc = 0 → s.awake = true →
    (∀ h ∈ s.holds, h.key ≠ c.key) → apOk c = false →
    ∃ t, exec (.append id) s = .next t ∧ t.mem = s.mem ∧ t.dir = s.dir ∧ t.endedWith id 0x0C) ∧
  (∀ (s : State) (id : Nat) (c : Cmd), s.starting? id 1 = some c → dOp c.desc = 0 → s.awake = true →
    (∀ h ∈ s.holds, h.key ≠ c.key) → apOk c = true → apFlags c.desc = 1 → s.adrift = true →
    ∃ t, exec (.append id) s = .next t ∧ t.mem = s.mem ∧ t.dir = s.dir ∧ t.endedWith id 0x10) ∧
  (∀ (s : State) (id : Nat) (c : Cmd) (h : Hold) (d : Dir) (v : BitVec 256), s.holds.find? (fun h => h.cmd == id) = some h →
    s.cmd? id = some c → c.id = id → h.key = c.key → h.queued = true → h.behind = false → s.mayRelease h = true →
    s.awake = true → c.phase = .running → s.dir? c.key = some d → d.a.ok = true → d.b.ok = true → d.a.val = v →
    deState v = 1 → { s with holds := s.holds.filter (·.cmd != id) }.endMoves.appendFits c v →
    ∃ t, exec (.appendRelease id) s = .next t ∧ t.endedWith id 0 ∧ t.pubOf c.key = apPos c.desc + apCount c.desc) ∧
  (∀ (s : State) (id : Nat) (c : Cmd) (h : Hold), s.holds.find? (fun h => h.cmd == id) = some h → s.cmd? id = some c →
    s.mayRelease h = false → exec (.appendRelease id) s = .next s) ∧
  (∀ (s : State) (id : Nat) (c : Cmd) (h : Hold), s.holds.find? (fun h => h.cmd == id) = some h → s.cmd? id = some c →
    c.phase = .running → h.queued = true → h.arrived + 64 ≤ s.ms →
    ∃ t, exec (.appendHoldTimeout id) s = .next t ∧ t.mem = s.mem ∧ t.dir = s.dir ∧ t.endedWith id 0x0B ∧
      t.holds = s.holds.filter (·.cmd != id) ∧ counted s t 0 Reg.PG_HOLD_TIMEOUT_CNT 1 ∧
      t.regB 0 Reg.PG_ERR_STAT 1 = true)

/-- With coding disabled PAGE_CODE of a full raw page leaves every byte of memory and only ends the page's candidacy.
With coding enabled, no relocation under way and no span-job that reads the page, a page whose stream saves enough
and fits the quota and its area is coded into a new slot, the old one stays as an old slot, and no byte outside the
new slot changes. An old slot of a recoded page, and the slots of a condemned unit, are freed once no dispatched
span-job reads them, and stay until then. Background dropping at or below the high mark, or with DROP_MAX 0, changes
nothing; above it, it condemns the first candidate unit of the partition, leaves memory and moves no slot. A
directory lookup latches the selected key and is pending; its end loads the entry's eight words with FOUND, or zeros
when the key has no entry. (R103, R104, R231, R232, R237) -/
def Obligations.PagesAreCodedFreedAndDropped : Prop :=
  (∀ (s : State) (p : PageRef) (x : Slot) (v : BitVec 256) (t0 : Trailer) (m : Nat),
    s.liveSlot p.part p.seq p.layer p.kv p.firstPos = some x → s.openEntry ⟨p.part, p.seq, p.layer⟩ = some v →
    x.full = some m → s.trailer x = some t0 → t0.coded = false → s.awake = true →
    s.regB 0 Reg.PG_CINDER_CFG 0 = false →
    exec (.pageCode p) s = .next { s with slots := s.slots.map fun y => if y = x then { y with full := none } else y }) ∧
  (∀ (s : State) (p : PageRef) (x : Slot) (v : BitVec 256) (t0 : Trailer) (m : Nat) (a o : Nat) (str : List Byte) (n d w : Nat),
    s.liveSlot p.part p.seq p.layer p.kv p.firstPos = some x → s.openEntry ⟨p.part, p.seq, p.layer⟩ = some v →
    x.full = some m → s.trailer x = some t0 → t0.coded = false → s.awake = true →
    s.regB 0 Reg.PG_CINDER_CFG 0 = true → s.ecc = [] → n = classTokens (deClass v) → d = headDim (deDim v) →
    w = rowBytes (deFmt v) d → str = cinderBuilt 0 (s.bytes x.addr (2 * n * w)) →
    ceilDiv str.length 256 + s.regF 0 Reg.PG_CINDER_CFG 8 8 ≤ dataRaw n w / 256 →
    s.usage p.part + (256 * ceilDiv str.length 256 + bandBytes n d + 512) ≤ s.quota p.part →
    s.moves = [] → s.slotBusy x = false →
    (s.opens x.addr x.size).takeArea p.part (256 * ceilDiv str.length 256 + bandBytes n d + 512) (areaOf x.addr) =
      some (s.opens x.addr x.size, a, o) →
    ∃ t, exec (.pageCode p) s = .next t ∧ counted s t 0 Reg.PG_CODED_CNT 1 ∧ t.dir = s.dir ∧
      { x with use := .old, full := some s.ms } ∈ t.slots ∧
      { x with addr := a, size := 256 * ceilDiv str.length 256 + bandBytes n d + 512, obj := o, full := none } ∈ t.slots ∧
      ∀ b, (∀ i < 256 * ceilDiv str.length 256 + bandBytes n d + 512, native b ≠ native (a + i)) → t.byte b = s.byte b) ∧
  (∀ (s : State) (p : PageRef), (∀ x ∈ s.slots, x.part = p.part → x.seq = p.seq → x.use = .old → s.slotBusy x = false) →
    exec (.codedOldSlotFree p) s = .next { s with slots := s.slots.filter fun x => !(x.part == p.part &&
      x.seq == p.seq && x.layer == p.layer && x.kv == p.kv && x.firstPos == p.firstPos && x.use == .old) }) ∧
  (∀ (s : State) (p q n : Nat), (∀ x ∈ s.slots, x.part = p → x.seq = q → x.use = .condemned → s.slotBusy x = false) →
    exec (.unitFree p q n) s = .next { s with slots := s.slots.filter fun x => !(x.part == p && x.seq == q &&
      x.firstPos / 1024 == n && x.use == .condemned) }) ∧
  (∀ (s : State) (p q n : Nat) (x : Slot), x ∈ s.slots → x.part = p → x.seq = q → x.firstPos / 1024 = n →
    x.use = .condemned → s.slotBusy x = true → exec (.unitFree p q n) s = .next s) ∧
  (∀ (s : State) (p : Nat), s.bg = [] → (s.usage p * 256 ≤ s.quota p * s.regF 0 Reg.PR_CFG 24 8 ∨
      s.regF 0 Reg.PR_CFG 8 8 = 0) → exec (.backgroundDropping p) s = .next s) ∧
  (∀ (s : State) (p : Nat) (u : Unit') (us : List Unit'), s.bg = [] → 0 < s.regF 0 Reg.PR_CFG 8 8 →
    s.quota p * s.regF 0 Reg.PR_CFG 24 8 < s.usage p * 256 → s.quota p * s.regF 0 Reg.PR_CFG 16 8 < s.usageKept p * 256 →
    s.candidates p = u :: us →
    ∃ t, exec (.backgroundDropping p) s = .next t ∧ t.mem = s.mem ∧ t.slots.map Slot.addr = s.slots.map Slot.addr ∧
      ∀ x ∈ t.slots, x.part = p → x.seq = u.seq → x.firstPos / 1024 = u.span → x.use ≠ .live) ∧
  (∀ s : State, s.pf0 = true →
    exec .dirLookup s = .next ({ s with lookup := some ⟨⟨s.regF 0 Reg.PG_DIR_SEL 8 6,
      (s.reg 0 Reg.PG_DIR_SEQ_HI).toNat * 2 ^ 32 + (s.reg 0 Reg.PG_DIR_SEQ_LO).toNat,
      s.regF 0 Reg.PG_DIR_SEL 0 8⟩⟩ }.setReg 0 Reg.PG_DIR_STAT 4)) ∧
  (∀ (s : State) (k : DirKey) (d : Dir) (j : Nat), s.lookup = some ⟨k⟩ → s.dir? k = some d → d.a.ok = true →
    d.b.ok = true → j < 8 →
    ∃ t, exec .dirLookupDone s = .next t ∧ t.mem = s.mem ∧ t.dir = s.dir ∧ t.lookup = none ∧
      t.reg 0 Reg.PG_DIR_STAT = 1 ∧ (t.reg 0 (Reg.PG_DIR_W + 4 * j)).toNat = getF d.a.val (32 * j) 32) ∧
  (∀ (s : State) (k : DirKey) (j : Nat), s.lookup = some ⟨k⟩ → s.dir? k = none → j < 8 →
    ∃ t, exec .dirLookupDone s = .next t ∧ t.mem = s.mem ∧ t.lookup = none ∧ t.reg 0 Reg.PG_DIR_STAT = 0 ∧
      t.reg 0 (Reg.PG_DIR_W + 4 * j) = 0)

/-- A HAUL that passes its checks in whole mode, between two objects in the node's own memory and with no latent error,
ends with OK, its DETAIL LENGTH and its RESULT mode 1, and memory is what it was with the source bytes stored at the
destination: no other byte changes. In tile mode it starts with no byte copied; each HAUL_TILE that FREE_WM allows
stores exactly the next tile at its place in the ring, and one that FREE_WM does not yet allow changes nothing. A
HAUL that fails a check ends with that status and changes no memory. An error at the far end of a HAUL with a far
window ends it with ABORTED, VIOLATION or REVOKED. (R51, R57, R58, R59, R262, R264) -/
def Obligations.HaulMovesBytes : Prop :=
  (∀ (s u : State) (id : Nat) (c : Cmd) (data : List Byte) (so dO : BitVec 256), s.starting? id 4 = some c →
    s.awake = true → s.ecc = [] → (s.runCmd id).haulCheck c = (u, 0) → so = s.obj c.part (haSrcObj c.desc) →
    dO = s.obj c.part (haDstObj c.desc) →
    haulMode (haMode c.desc) (haBufs c.desc) (tileSize so) (objSize dO - haDstOff c.desc) (haLen c.desc) = 1 →
    (cut .far (objBase so + haSrcOff c.desc) (haLen c.desc)).2 = 0 →
    (cut .far (objBase dO + haDstOff c.desc) (min (objSize dO - haDstOff c.desc) (haLen c.desc))).2 = 0 →
    ∃ t k, exec (.haul id data) s = .next t ∧ t.cmd? id = some k ∧ k.phase = .ended ∧ k.status = 0 ∧
      k.detail = BitVec.ofNat 64 (haLen c.desc) ∧ k.result = 0x40000000 ∧
      t.mem = (s.store (objBase dO + haDstOff c.desc) (s.bytes (objBase so + haSrcOff c.desc) (haLen c.desc))).mem) ∧
  (∀ (s u : State) (id : Nat) (c : Cmd) (data : List Byte) (st : Nat), s.starting? id 4 = some c →
    s.awake = true → (s.runCmd id).haulCheck c = (u, st) → st ≠ 0 →
    ∃ t, exec (.haul id data) s = .next t ∧ t.mem = s.mem ∧ t.endedWith id st) ∧
  (∀ (s u : State) (id : Nat) (c : Cmd) (data : List Byte) (so dO : BitVec 256), s.starting? id 4 = some c →
    s.awake = true → (s.runCmd id).haulCheck c = (u, 0) → so = s.obj c.part (haSrcObj c.desc) →
    dO = s.obj c.part (haDstObj c.desc) →
    haulMode (haMode c.desc) (haBufs c.desc) (tileSize so) (objSize dO - haDstOff c.desc) (haLen c.desc) = 2 →
    ∃ t h, exec (.haul id data) s = .next t ∧ t.mem = s.mem ∧ t.hauls = s.hauls ++ [h] ∧ h.cmd = id ∧ h.tile = true ∧
      h.started = 0 ∧ h.moved = 0 ∧ h.tileBytes = tileSize so) ∧
  (∀ (s : State) (id : Nat) (c : Cmd) (h : Haul) (data : List Byte), s.haul? id = some h → s.cmd? id = some c →
    h.tile = true → h.started < haLen c.desc → h.reads = [] → h.writes = [] → h.srcFar = [] → h.dstFar = [] →
    h.started % h.tileBytes = 0 → 0 < h.tileBytes → s.ecc = [] → (s.wm c.part (haFree c.desc)).ok = true →
    h.baseFree + h.started / h.tileBytes + 1 ≤ wmCount (s.wm c.part (haFree c.desc)).val + haBufs c.desc →
    ∃ t, exec (.haulTile id data) s = .next t ∧
      t.mem = (s.store (objBase h.dst + haDstOff c.desc + h.started / h.tileBytes % haBufs c.desc * h.tileBytes)
        (s.bytes (objBase h.src + haSrcOff c.desc + h.started) (min (haLen c.desc - h.started) h.tileBytes))).mem) ∧
  (∀ (s : State) (id : Nat) (c : Cmd) (h : Haul) (data : List Byte), s.haul? id = some h → s.cmd? id = some c →
    h.tile = true → h.started % h.tileBytes = 0 → (s.wm c.part (haFree c.desc)).ok = true →
    wmCount (s.wm c.part (haFree c.desc)).val + haBufs c.desc < h.baseFree + h.started / h.tileBytes + 1 →
    exec (.haulTile id data) s = .next s) ∧
  (∀ (s : State) (id : Nat) (c : Cmd) (h : Haul) (e : FarErr), s.haul? id = some h → s.cmd? id = some c →
    c.phase ≠ .ended → h.srcFar ≠ [] ∨ h.dstFar ≠ [] →
    ∃ t, exec (.haulFarError id e) s = .next t ∧ t.mem = s.mem ∧ t.haul? id = none ∧
      t.endedWith id (match e with | .host _ => 0x0A | .violation => 0x04 | .revoked => 0x05))

/-- A ROW that fails a check ends with that status and changes no memory; one that passes is queued with all its rows,
and the columns of its destination wake. The burst of a column whose turn it is, and that writes the last row of a
coded ROW without CRC with no latent error, stores the result of R117 at the destination row and nothing else, and
ends the ROW with OK. A sector that awaits write-back is the column's next burst; while ATTEND bursts keep the turn
a ROW waits and the turn is counted; a burst end with no Flue work waiting only raises the host-wait mark. On a
column with its turn: re-encoding takes the eight lowest waiting rows of an idle column off the list and leaves the
stored bits; a scrub burst in an open slot passes eight rows; a relocation moves at most its limit of bytes toward
the new address, and once the last of them is moved the slot stands there; without the turn it changes nothing.
Refresh clears the targeted refreshes of its column, a wear window clears the counts, and a write-back ends a
sector's wait. (R106, R107, R117, R118, R119, R123, R128, R133, R229, R369, R370) -/
def Obligations.RowsAndBurstsOfTheColumns : Prop :=
  (∀ (s u : State) (id : Nat) (c : Cmd) (st : Nat), s.starting? id 5 = some c → s.awake = true →
    s.rowCheck c = (u, st) → st ≠ 0 →
    ∃ t, exec (.row id) s = .next t ∧ t.mem = s.mem ∧ t.rows = s.rows ∧ t.endedWith id st) ∧
  (∀ (s u : State) (id : Nat) (c : Cmd), s.starting? id 5 = some c → s.awake = true → s.rowCheck c = (u, 0) →
    s.rowWaits c.desc = false →
    exec (.row id) s = .next { (s.runCmd id).wakeRange (roDst c.desc) (1024 * roCount c.desc) with
      rows := s.rows ++ [⟨id, List.range (roCount c.desc), 0, false, false⟩] }) ∧
  (∀ (s : State) (col ns i : Nat) (j : RowJob) (c : Cmd), s.awake = true → s.rows = [j] → s.cmd? j.cmd = some c →
    c.phase = .running → j.left = [i] → homeColumn (roDst c.desc + 1024 * i) = col → roRaw c.desc = false →
    roCrc c.desc = false → j.failed = false → s.ecc = [] → s.rowTurn col = true →
    ∃ t, exec (.flueBurstEnd col ns) s = .next t ∧ t.endedWith c.id 0 ∧ t.rows = [] ∧
      t.mem = (s.store (roDst c.desc + 1024 * i) (s.rowResult c.desc i)).mem) ∧
  (∀ (s : State) (col ns k : Nat), s.awake = true → s.awaitingOn col = some k →
    ∃ t, exec (.flueBurstEnd col ns) s = .next t ∧ t.mem = s.mem ∧ t.rows = s.rows ∧ t.eccAt k = .clean ∧
      ∀ x, x ≠ k → t.eccAt x = s.eccAt x) ∧
  (∀ (s : State) (col ns : Nat) (j : RowJob), s.awake = true → s.awaitingOn col = none → s.rowOn col = some j →
    s.rowTurn col = false →
    ∃ t, exec (.flueBurstEnd col ns) s = .next t ∧ t.mem = s.mem ∧ t.rows = s.rows ∧
      t.arb col = ⟨0, (s.arb col).run + 1⟩) ∧
  (∀ (s : State) (col ns : Nat), s.burstWaits col = false →
    exec (.flueBurstEnd col ns) s = .next (s.setReg 0 Reg.FL_HOST_WAIT_HWM
      (BitVec.ofNat 32 (max (min 0xFFFFFFFF ns) (s.reg 0 Reg.FL_HOST_WAIT_HWM).toNat)))) ∧
  (∀ (s : State) (col : Nat), s.awake = true → s.planEmpty col = true → s.rowTurn col = true →
    ∃ t, exec (.reencodeBurst col) s = .next t ∧ t.mem = s.mem ∧
      t.recode = s.recode.filter (fun r => !((sortNat (s.recode.filter fun r => rowColumn r == col)).take 8).contains r) ∧
      (t.reg 0 Reg.FL_RECODE_LEFT) = BitVec.ofNat 32 t.recode.length) ∧
  (∀ (s : State) (col : Nat), s.planEmpty col = false ∨ s.rowTurn col = false →
    exec (.reencodeBurst col) s = .next s) ∧
  (∀ (s : State) (col : Nat), exec (.refreshDue col) s = .next { s with trr := s.trr.filter fun r => rowColumn r != col }) ∧
  (∀ s : State, exec .wearWindowStart s = .next { s with acts := [] }) ∧
  (∀ (s : State) (col k : Nat), s.awake = true → s.awaitingOn col = some k →
    ∃ t, exec (.writeBackBurst col) s = .next t ∧ t.mem = s.mem ∧ t.eccAt k = .clean ∧
      ∀ x, x ≠ k → t.eccAt x = s.eccAt x) ∧
  (∀ (s : State) (col : Nat) (b : Scrub), s.awake = true → s.scrub.find? (fun x => x.1 == col) = some (col, b) →
    0 < b.left → s.fenced col = false → b.row.ok = true → s.remapDue = [] → s.ecc = [] → s.rowTurn col = true →
    ∃ t, exec (.scrubBurst col) s = .next t ∧ t.mem = s.mem ∧
      t.scrub = s.scrub.map (fun x => if x.1 = col then
        (col, ⟨pairOf (BitVec.ofNat 64 (b.row.val.toNat + 8)), b.left - 1⟩) else x) ∧
      ((b.row.val.toNat + 8) % 4194304 = 0 → counted s t 0 Reg.FX_SCRUB_PASS_CNT 1)) ∧
  (∀ (s : State) (col : Nat) (m : Move) (x : Slot), s.awake = true → s.rowTurn col = true → s.ecc = [] →
    (s.moves.find? (fun m => m.col == col) = some m ∨
      s.moves.find? (fun m => m.col == col) = none ∧ s.nextMove col = some m) →
    s.moveOf m = some x → m.done ≤ x.size → x.size ≤ m.done + moveLimit (m.src + m.done) →
    ∃ t, exec (.relocateBurst col) s = .next t ∧ t.dir = s.dir ∧ m ∉ t.moves ∧
      t.slots = s.slots.map (fun y => if y.addr = m.src then { y with addr := m.dst, obj := x.obj } else y) ∧
      t.mem = (s.store (m.dst + m.done) (s.bytes (m.src + m.done) (x.size - m.done))).mem) ∧
  (∀ (s : State) (col : Nat) (m : Move) (x : Slot), s.awake = true → s.rowTurn col = true → s.ecc = [] →
    (s.moves.find? (fun m => m.col == col) = some m ∨
      s.moves.find? (fun m => m.col == col) = none ∧ s.nextMove col = some m) →
    s.moveOf m = some x → m.done + moveLimit (m.src + m.done) < x.size →
    ∃ t, exec (.relocateBurst col) s = .next t ∧ t.dir = s.dir ∧ t.slots = s.slots ∧
      { m with done := m.done + moveLimit (m.src + m.done) } ∈ t.moves ∧
      t.mem = (s.store (m.dst + m.done) (s.bytes (m.src + m.done) (moveLimit (m.src + m.done)))).mem) ∧
  (∀ (s : State) (col : Nat), s.rowTurn col = false → exec (.relocateBurst col) s = .next s)

/-- An ATTEND that fails a check ends with that status, its DETAIL kept, and no request, with memory unchanged. One that
passes them, with finite queries in the payload that came with it, is in flight, not yet of a stride, with the
operands of its descriptor. When a request owes nothing more, the command ends with the status of its outcome and
the result word of R167; while it still owes something nothing changes. (R140, R141, R166, R167) -/
def Obligations.AttendIsAcceptedAndAnswered : Prop :=
  (∀ (s u : State) (id : Nat) (c : Cmd) (st : Nat), s.starting? id 0 = some c → (s.runCmd id).attendCheck c = (u, st) →
    st ≠ 0 →
    ∃ t k, exec (.attend id) s = .next t ∧ t.mem = s.mem ∧ t.reqs = s.reqs ∧ t.cmd? id = some k ∧ k.phase = .ended ∧
      k.status = st ∧ k.detail = c.detail) ∧
  (∀ (s u : State) (id : Nat) (c : Cmd), s.starting? id 0 = some c → (s.runCmd id).attendCheck c = (u, 0) →
    atFlags c.desc % 2 = 1 →
    (∀ q ∈ cutRows (queryWidth (atFmt c.desc)) (atGroup c.desc) (sliceB c.payload (atAddr c.desc) (atLen c.desc)),
      rowFinite (queryFmt (atFmt c.desc % 8)) (headDim (atFmt c.desc / 8)) q = true) →
    ∃ t r, exec (.attend id) s = .next t ∧ t.mem = s.mem ∧ t.reqs = s.reqs ++ [r] ∧ r.id = id ∧ r.part = c.part ∧
      r.seq = atSeq c.desc ∧ r.layer = atLayer c.desc ∧ r.kv = atKv c.desc ∧ r.posFirst = atFirst c.desc ∧
      r.posLast = atLast c.desc ∧ r.tag = atTag c.desc ∧ r.stride = none ∧ r.outcome = 8) ∧
  (∀ (s : State) (id : Nat) (r : Req) (c : Cmd), s.req? id = some r → s.cmd? id = some c → c.id = id → r.kindle = none →
    c.phase = .running → s.reqDone r = true →
    ∃ t k, exec (.attendComplete id) s = .next t ∧ t.mem = s.mem ∧ t.cmd? id = some k ∧ k.phase = .ended ∧
      k.status = attendStatus r.finalOutcome ∧ k.result = BitVec.ofNat 32 r.result ∧ k.detail = c.detail) ∧
  (∀ (s : State) (id : Nat) (r : Req), s.req? id = some r → s.reqDone r = false →
    exec (.attendComplete id) s = .next s)

/-- A planned span-job of a dispatched request, on a ready column and with no latent error in the tiers or in scratch,
runs and is counted in AT_SPANJOB_CNT, with memory unchanged; before its time it stays as it is. A stage whose check
is due and fails neither of itself nor by disturbance is passed. A disturbed check of a sealed request's first run
is counted in AT_TALLY_FAIL_CNT, sets TALLY_FAIL, and puts the span-job back to be run once more. A running span-job
whose scores passed, or whose request emits early, and whose arithmetic met no event ends with its partial standing.
(R146, R148, R152, R153, R154, R155) -/
def Obligations.SpanJobsRunAndAreChecked : Prop :=
  (∀ (s : State) (id span : Nat) (r : Req) (j : Job), s.req? id = some r → r.job? span = some j → s.awake = true →
    r.stride.isSome = true → j.phase = .planned → j.notBefore ≤ s.ms → s.columnReady r j = true → s.ecc = [] → s.scratchEcc = [] →
    ∃ t r' j', exec (.spanJob id span) s = .next t ∧ t.mem = s.mem ∧ t.req? id = some r' ∧ r'.job? span = some j' ∧
      j'.phase = .running ∧ counted s t 0 Reg.AT_SPANJOB_CNT 1) ∧
  (∀ (s : State) (id span : Nat) (r : Req) (j : Job), s.req? id = some r → r.job? span = some j →
    (s.ms < j.notBefore ∨ s.columnReady r j = false ∨ r.stride = none) → exec (.spanJob id span) s = .next s) ∧
  (∀ (s : State) (id span : Nat) (r : Req) (j : Job) (st : CheckStage), s.req? id = some r → r.job? span = some j →
    j.phase = .running → j.before st = true → j.res.event = none → j.rerun = false → s.scratchEcc = [] →
    exec (.tallyCheckEnd id span st false) s = .next (s.setJob id span fun j => j.passed st)) ∧
  (∀ (s : State) (id span : Nat) (r : Req) (j : Job) (st : CheckStage), s.req? id = some r →
    r.job? span = some j → j.phase = .running → j.before st = true → j.rerun = false → s.scratchEcc = [] →
    r.isSealed = true → j.overrun = false →
    ∃ t r' j', exec (.tallyCheckEnd id span st true) s = .next t ∧ t.mem = s.mem ∧ t.req? id = some r' ∧
      r'.job? span = some j' ∧ j'.phase = .planned ∧ j'.rerun = true ∧ j'.scoreOk = false ∧
      counted s t 0 Reg.AT_TALLY_FAIL_CNT 1 ∧ t.regB 0 Reg.AT_ERR_STAT 0 = true) ∧
  (∀ (s : State) (id span : Nat) (r : Req) (j : Job), s.req? id = some r → r.job? span = some j → j.phase = .running →
    j.res.event = none → j.scoreOk = true ∨ r.isSealed = false → j.overrun = false → s.scratchEcc = [] →
    exec (.spanJobEnd id span) s = .next (s.setJob id span fun j => { j with phase := .done })) ∧
  (∀ (s : State) (id span : Nat) (r : Req) (j : Job), s.req? id = some r → r.job? span = some j → j.phase ≠ .running →
    exec (.spanJobEnd id span) s = .next s)

/-- A block of a dispatched request that has not left, with every span ready, a value whose merges pass, and an OPEN
connection, leaves: it is marked sent, one ember with its EMBER_ID is remembered, and one TC2 message of opcode 5
for its place is queued on that connection, with memory unchanged. A block with an unready span stays. An early
ember with a valid header and without a verdict, whose span-jobs have all passed their checks on their first run,
before its deadline, is sealed: the verdict SEAL is noted, counted in MG_SEAL_CNT and queued. One whose check is
unfinished or was run again stays. (R162, R164, R177, R187, R188) -/
def Obligations.EmbersLeaveAndAreSealed : Prop :=
  (∀ (s : State) (id i k : Nat) (r : Req) (b : Blk), s.req? id = some r → r.blks[i]? = some b →
    b.sent = false → r.outcome = 8 → r.stride.isSome = true → b.spans.all r.spanReady = true →
    r.conn = some k → (s.conn k).st = .opened → ((r.blockValue b s.draws).settle 0).2 = 0 →
    ∃ t r' e m, exec (.emberEmit id i 0) s = .next t ∧ t.mem = s.mem ∧ t.req? id = some r' ∧
      r'.blks[i]? = some { b with sent := true } ∧ r'.emitted = r.emitted + 1 ∧ t.sent = s.sent ++ [e] ∧ e.req = id ∧
      e.id = emberId s.nodeId (r.stride.getD 0) r.part b.num % 2 ^ 64 ∧ (t.conn k).tx = (s.conn k).tx ++ [m] ∧ m.op = 5 ∧
      m.tc = 2 ∧ m.base = b.slot * 256 ∧ m.num = (s.conn k).nextMsg2) ∧
  (∀ (s : State) (id i f : Nat) (r : Req) (b : Blk), s.req? id = some r → r.blks[i]? = some b →
    (b.sent = true ∨ b.spans.all r.spanReady = false) → exec (.emberEmit id i f) s = .next s) ∧
  (∀ (s : State) (n : Nat) (e : Sent) (r : Req) (k : Nat),
    s.sent.find? (fun e => e.id == n && e.early && e.verdict.isNone) = some e → s.req? e.req = some r →
    (∀ t ∈ e.spans, ∃ j, r.job? t = some j ∧ j.phase = .done ∧ j.rerun = false ∧ j.scoreOk = true ∧ j.valueOk = true ∧
      j.weightOk = true) → s.ms < e.left + 2 → e.conn = some k → e.hdr.ok = true →
    ∃ t m, exec (.sealEmber n) s = .next t ∧ t.mem = s.mem ∧ counted s t 0 Reg.MG_SEAL_CNT 1 ∧
      (∀ x ∈ t.sent, x.id = e.id → x.req = e.req → x.verdict = some 1) ∧
      (t.conn k).tx = (s.conn k).tx ++ [m] ∧ m.op = 5 ∧ m.len = 64) ∧
  (∀ (s : State) (n : Nat) (e : Sent) (r : Req) (j : Job),
    s.sent.find? (fun e => e.id == n && e.early && e.verdict.isNone) = some e → s.req? e.req = some r →
    (∃ t ∈ e.spans, r.job? t = some j ∧ (j.phase ≠ .done ∨ j.rerun = true ∨ j.weightOk = false)) →
    exec (.sealEmber n) s = .next s)

/-- On a node that is not HELD: an ember with a valid header pair, its tenant, a partial or result KIND and a new
EMBER_ID, to whose tag no MERGE listens and none has completed, is kept in a reservation of its own, recalled
exactly when its digest or residue check fails or it says RECALL; once a MERGE of its tag has completed, a sealed
one is discarded and counted as an orphan. A verdict before its ember is kept likewise; a SEAL of an early ember, in
time and with its digest, is kept and leaves every MERGE; one that comes after the wait recalls the ember, counted
late. A header pair that is not valid is counted as a complement fault and keeps nothing. An early ember without a
verdict by its arrival plus VERDICT_WAIT is counted late and treated as recalled. An ember that no MERGE took by its
arrival plus ORPHAN_HOLD is counted as an orphan and leaves, or waits for its verdict. Memory is unchanged
throughout. (R65, R177, R182, R185, R189, R190, R196, R360) -/
def Obligations.EmbersAndVerdictsArrive : Prop :=
  (∀ (s : State) (cn : Option Nat) (tn f : Nat) (h : BitVec 256) (body : List Byte), s.life ≠ .held → ehTenant h = tn →
    (ehKind h = 1 ∨ ehKind h = 2) → ehVerdict h ≤ 3 → (∀ r ∈ s.recv, r.id ≠ ehId h) →
    s.mergeFor (ehTenant h) (ebTag body) = none → (ehTenant h, ebTag body) ∉ s.mergesDone →
    ∃ t r, exec (.emberReceived cn tn h (~~~h) body f) s = .next t ∧ t.mem = s.mem ∧ t.recv = s.recv ++ [r] ∧
      r.id = ehId h ∧ r.conn = cn ∧ r.hdr = some ⟨h, ~~~h⟩ ∧ r.body = body ∧ r.units = ehUnits h ∧ r.merge = none ∧
      r.arrived = s.ms ∧
      (r.recalled = true ↔ crc64 body ≠ ehDigest h ∨ body.length ≠ ehLen h ∨ residueOk body (ehLen h) = false ∨
        ehVerdict h = 2)) ∧
  (∀ (s : State) (cn : Option Nat) (tn f : Nat) (h : BitVec 256) (body : List Byte), s.life ≠ .held → ehTenant h = tn →
    (ehKind h = 1 ∨ ehKind h = 2) → ehVerdict h = 3 → (∀ r ∈ s.recv, r.id ≠ ehId h) →
    s.mergeFor (ehTenant h) (ebTag body) = none → (ehTenant h, ebTag body) ∈ s.mergesDone →
    ∃ t, exec (.emberReceived cn tn h (~~~h) body f) s = .next t ∧ t.mem = s.mem ∧ t.recv = s.recv ∧
      t.merges = s.merges ∧ counted s t 0 Reg.MG_ORPHAN_CNT 1) ∧
  (∀ (s : State) (cn : Option Nat) (tn f : Nat) (h c : BitVec 256) (body : List Byte), (⟨h, c⟩ : Pair 256).ok = false →
    ∃ t, exec (.emberReceived cn tn h c body f) s = .next t ∧ exec (.verdictReceived cn tn h c) s = .next t ∧
      t.mem = s.mem ∧ t.recv = s.recv ∧ counted s t 0 Reg.MT_CPL_FAULT_CNT 1) ∧
  (∀ (s : State) (cn : Option Nat) (tn : Nat) (h : BitVec 256), s.life ≠ .held → ehTenant h = tn → ehKind h = 3 →
    (ehVerdict h = 1 ∨ ehVerdict h = 2) → s.recv? cn (ehId h) = none →
    ∃ t r, exec (.verdictReceived cn tn h (~~~h)) s = .next t ∧ t.mem = s.mem ∧ t.recv = s.recv ++ [r] ∧
      r.id = ehId h ∧ r.conn = cn ∧ r.hdr = none ∧ r.verdict = some (ehVerdict h, ehDigest h)) ∧
  (∀ (s : State) (cn : Option Nat) (tn : Nat) (h g : BitVec 256) (r : Recv), s.life ≠ .held → ehTenant h = tn →
    ehKind h = 3 → ehVerdict h = 1 → s.recv? cn (ehId h) = some r → r.header? = some g → ehVerdict g = 0 →
    ehDigest g = ehDigest h → r.verdict = none → r.recalled = false → r.discarded = false → s.waitOver r = false →
    ∃ t, exec (.verdictReceived cn tn h (~~~h)) s = .next t ∧ t.mem = s.mem ∧ t.merges = s.merges ∧
      t.recv = s.recv.map fun x => if x.id = r.id ∧ x.conn = r.conn then
        { x with verdict := some (1, ehDigest h) } else x) ∧
  (∀ (s : State) (cn : Option Nat) (tn : Nat) (h g : BitVec 256) (r : Recv), s.life ≠ .held → ehTenant h = tn →
    ehKind h = 3 → ehVerdict h = 1 → s.recv? cn (ehId h) = some r → r.header? = some g → ehVerdict g = 0 →
    r.verdict = none → r.recalled = false → r.discarded = false → s.waitOver r = true →
    ∃ t, exec (.verdictReceived cn tn h (~~~h)) s = .next t ∧ t.mem = s.mem ∧
      counted s t 0 Reg.MG_VERDICT_LATE_CNT 1 ∧ ∀ x ∈ t.recv, x.id = r.id → x.conn = r.conn → x.recalled = true) ∧
  (∀ (s : State) (n : Nat) (r : Recv),
    s.recv.find? (fun r => r.id == n && r.awaits && !r.recalled && s.waitOver r) = some r →
    ∃ t, exec (.verdictTimeout n) s = .next t ∧ t.mem = s.mem ∧ counted s t 0 Reg.MG_VERDICT_LATE_CNT 1 ∧
      t.regB 0 Reg.MG_ERR_STAT 4 = true ∧ ∀ x ∈ t.recv, x.id = r.id → x.conn = r.conn → x.recalled = true) ∧
  (∀ (s : State) (n : Nat) (r : Recv), s.recv.find? (fun r => r.id == n && r.hdr.isSome && r.merge.isNone &&
      !r.discarded && decide (r.arrived + s.regF 0 Reg.MG_CFG 8 8 ≤ s.ms)) = some r →
    ∃ t, exec (.orphanExpire n) s = .next t ∧ t.mem = s.mem ∧ counted s t 0 Reg.MG_ORPHAN_CNT 1 ∧
      (r.awaits = false → t.recv = eraseFirst (fun x => x.id == r.id && x.conn == r.conn) s.recv) ∧
      (r.awaits = true → ∀ x ∈ t.recv, x.id = r.id → x.conn = r.conn → x.discarded = true))

/-- A MERGE that fails a check ends with that status, its DETAIL kept, and memory unchanged. One whose result goes to
the node's own memory, or to a node with an OPEN connection that holds its units, with a number left in the
milestone and no ember held for it, is accepted at the present milestone, with the operands of its descriptor;
without an OPEN connection to its destination it ends with TIMEOUT. An open MERGE of a command without all its
inputs, MERGE_WAIT milestones after its acceptance, is decided as TIMEOUT unless an earlier outcome of R201 stands.
The result of a decided MERGE, and that of one with all its inputs sealed, nothing missing and a value whose merges
pass, is sent as one message on the OPEN connection it goes to, and the command ends with the status of R201;
without its inputs an undecided MERGE stays. (R182, R194, R195, R199, R200, R201, R202, R296) -/
def Obligations.MergesAreAcceptedAndFinish : Prop :=
  (∀ (s u : State) (id : Nat) (c : Cmd) (st : Nat), s.starting? id 2 = some c → (s.runCmd id).mergeCheck c = (u, st) →
    st ≠ 0 →
    ∃ t k, exec (.merge id) s = .next t ∧ t.mem = s.mem ∧ t.merges = s.merges ∧ t.cmd? id = some k ∧ k.phase = .ended ∧
      k.status = st ∧ k.detail = c.detail) ∧
  (∀ (s u : State) (id : Nat) (c : Cmd), s.starting? id 2 = some c → (s.runCmd id).mergeCheck c = (u, 0) →
    c.resHere = true → (∀ m ∈ s.merges, m.id ≠ id) → s.numsUsed c.part s.ms < 16384 → s.recv = [] →
    ∃ t m, exec (.merge id) s = .next t ∧ t.mem = s.mem ∧ t.merge? id = some m ∧ m.accepted = some s.ms ∧
      m.part = c.part ∧ m.g = mgGroup c.desc ∧ m.sources = mgSources c.desc ∧ m.tag = mgTag c.desc ∧ m.outcome = 8 ∧
      m.resAddr = mgAddr c.desc ∧ m.toHost = true) ∧
  (∀ (s u : State) (id k : Nat) (c : Cmd) (x : Conn × List Nat), s.starting? id 2 = some c →
    (s.runCmd id).mergeCheck c = (u, 0) → c.resHere = false → s.route c (mgDest c.desc) = (some k, false) →
    (s.conn k).takeUnits [emberUnits (mgRoom c.desc)] [] = some x → (∀ m ∈ s.merges, m.id ≠ id) →
    s.numsUsed c.part s.ms < 16384 → s.recv = [] →
    ∃ t m, exec (.merge id) s = .next t ∧ t.mem = s.mem ∧ t.merge? id = some m ∧ m.accepted = some s.ms ∧
      m.part = c.part ∧ m.g = mgGroup c.desc ∧ m.sources = mgSources c.desc ∧ m.tag = mgTag c.desc ∧ m.outcome = 8 ∧
      m.conn = some k ∧ m.toHost = false) ∧
  (∀ (s u : State) (id : Nat) (c : Cmd), s.starting? id 2 = some c → (s.runCmd id).mergeCheck c = (u, 0) →
    c.resHere = false → (s.route c (mgDest c.desc)).2 = true → (∀ m ∈ s.merges, m.id ≠ id) →
    ∃ t, exec (.merge id) s = .next t ∧ t.mem = s.mem ∧ t.endedWith id 0x0B) ∧
  (∀ (s : State) (id : Nat) (m : Merge) (a : Nat), s.merge? id = some m → m.accepted = some a → m.kindle = none →
    s.mergeOpen m = true → a + m.wait ≤ s.ms → hasInputs m (s.inputsOf m) = false →
    ∃ t m', exec (.mergeWaitTimeout id) s = .next t ∧ t.mem = s.mem ∧ t.regs = s.regs ∧ t.merge? id = some m' ∧
      m'.outcome = min m.outcome 5) ∧
  (∀ (s : State) (id : Nat) (m : Merge) (a : Nat), s.merge? id = some m → m.accepted = some a → s.ms < a + m.wait →
    exec (.mergeWaitTimeout id) s = .next s) ∧
  (∀ (s : State) (id f k : Nat) (m : Merge), s.merge? id = some m → m.kindle = none → s.mergeOpen m = true →
    m.outcome < 6 → m.inputs = [] → m.toHost = false → m.conn = some k →
    ∃ t x, exec (.mergeResultSend id f) s = .next t ∧ t.mem = s.mem ∧ t.endedWith id (mergeStatus m.outcome) ∧
      (t.conn k).tx = (s.conn k).tx ++ [x] ∧ x.op = 5) ∧
  (∀ (s : State) (id k : Nat) (m : Merge) (ins : List Recv) (hs : List Head), s.merge? id = some m → m.kindle = none →
    s.mergeOpen m = true → 6 ≤ m.outcome → ins = s.inputsOf m → hasInputs m ins = true →
    (∀ r ∈ ins, r.sealedOk = true) → (mergeMissing m ins).1 = [] → (mergeMissing m ins).2 = [] →
    ((mergeFinal m ins).1.settle 0).2 = 0 → (mergeFinal m ins).1.val = some hs → m.toHost = false → m.conn = some k →
    ∃ t x, exec (.mergeResultSend id 0) s = .next t ∧ t.mem = s.mem ∧
      t.endedWith id (if mergeTail ins then 1 else 0) ∧ (t.conn k).tx = (s.conn k).tx ++ [x] ∧ x.op = 5) ∧
  (∀ (s : State) (id f : Nat) (m : Merge), s.merge? id = some m → 6 ≤ m.outcome →
    hasInputs m (s.inputsOf m) = false → exec (.mergeResultSend id f) s = .next s)

/-- A KINDLE that fails a check ends with that status; one with nothing dropped ends with OK and ALREADY; an accepted
one waits behind the KINDLE that its partition executes, and with none it begins, or ends with what its beginning
met; memory is unchanged by all of these. An array operation streams rows only in the partition's own slot in Lit,
and moves the rows done forward by the rows streamed while more remain. A completed internal request among others
leaves the list and its values are gathered; one that is still in flight changes nothing. A collection late by
COLLECT_WAIT ends the KINDLE with TIMEOUT. Publishing makes the next unit present: none of its slots stays private,
its span is no longer dropped in the layers that the KINDLE wrote, it is counted in PR_REKINDLE_CNT, and after the
last unit the command ends with OK and the number of spans. (R207, R218, R219, R224, R225, R226, R244) -/
def Obligations.KindleRunsAndPublishes : Prop :=
  (∀ (s u : State) (id : Nat) (c : Cmd) (e : Nat), s.starting? id 3 = some c → dOp c.desc = 0 →
    (s.runCmd id).kindleCheck c = (u, .refused e) →
    ∃ t, exec (.kindle id) s = .next t ∧ t.mem = s.mem ∧ t.kindles = s.kindles ∧ t.endedWith id e) ∧
  (∀ (s u : State) (id : Nat) (c : Cmd), s.starting? id 3 = some c → dOp c.desc = 0 →
    (s.runCmd id).kindleCheck c = (u, .already) →
    ∃ t k, exec (.kindle id) s = .next t ∧ t.mem = s.mem ∧ t.kindles = s.kindles ∧ t.cmd? id = some k ∧
      k.phase = .ended ∧ k.status = 0 ∧ k.result = 0x80000000) ∧
  (∀ (s u : State) (id : Nat) (c : Cmd) (spans : List Nat) (toks : List (Nat × List Nat)) (ctx : List (Nat × Nat × Nat)),
    s.starting? id 3 = some c → dOp c.desc = 0 → (s.runCmd id).kindleCheck c = (u, .accepted spans toks ctx) →
    (∃ k ∈ s.kindles, k.part = c.part ∧ k.executing = true) → (∀ k ∈ s.kindles, k.seq ≠ kdSeq c.desc) →
    ∃ t k, exec (.kindle id) s = .next t ∧ t.mem = s.mem ∧ t.kindles = s.kindles ++ [k] ∧ k.cmd = id ∧ k.part = c.part ∧
      k.seq = kdSeq c.desc ∧ k.executing = false ∧ k.joins = none ∧ k.spans = toks.map (·.1)) ∧
  (∀ (s u : State) (id : Nat) (c : Cmd) (spans : List Nat) (toks : List (Nat × List Nat)) (ctx : List (Nat × Nat × Nat)),
    s.starting? id 3 = some c → dOp c.desc = 0 → (s.runCmd id).kindleCheck c = (u, .accepted spans toks ctx) →
    (∀ k ∈ s.kindles, k.part ≠ c.part) →
    ∃ t, exec (.kindle id) s = .next t ∧ t.mem = s.mem ∧
      ((∃ k, t.kindle? id = some k ∧ k.executing = true ∧ k.layer = 0 ∧ k.stage = .k) ∨ ∃ st, t.endedWith id st)) ∧
  (∀ (s : State) (p rows : Nat) (k k' : Kindle) (m : Image) (call : Nat × Nat × Nat),
    s.kindles.find? (fun k => k.part == p && k.executing) = some k → s.image? p k.slot = some m → k.waitsSlots = false →
    stageCall m.hdr k.stage = some call → 0 < rows → s.power = .lit → s.arrayOwner s.ms = p → s.ecc = [] →
    k.rowDone + rows < k.rows →
    (((s.arrayBusy p (if k.rowDone = 0 then max k.rows 1024 + 160 else 1024)).workWritten k).streamRows m k call rows).2 =
      .ok k' →
    ∃ t, exec (.arrayOperation p rows) s = .next t ∧ t.kindle? k.cmd = some k' ∧ k'.rowDone = k.rowDone + rows ∧
      k'.tile = k.tile ∧ k'.stage = k.stage ∧ t.arrayUsed = true) ∧
  (∀ (s : State) (p rows : Nat), s.power ≠ .lit ∨ s.arrayOwner s.ms ≠ p → (∀ k ∈ s.kindles, k.waitsSlots = false) →
    exec (.arrayOperation p rows) s = .next s) ∧
  (∀ (s : State) (id tag st : Nat) (k : Kindle) (e : Internal) (m : Image) (vals : List (Nat × Nat × List TreeVal)),
    s.kindle? id = some k → k.cmd = id → k.internals.find? (fun e => (k.tag e.count).toNat == tag) = some e →
    s.image? k.part k.slot = some m → s.internalState k (imGroup m.hdr) e st = some (0, none, vals) → k.todo = [] →
    k.internals.filter (fun x => x.count != e.count) ≠ [] →
    ∃ t k', exec (.internalRequestDone id tag st) s = .next t ∧ t.mem = s.mem ∧ t.kindle? id = some k' ∧
      k'.internals = k.internals.filter (fun x => x.count != e.count) ∧ k'.gathered = k.gathered ++ vals) ∧
  (∀ (s : State) (id tag st : Nat) (k : Kindle) (e : Internal) (m : Image), s.kindle? id = some k →
    k.internals.find? (fun e => (k.tag e.count).toNat == tag) = some e → s.image? k.part k.slot = some m →
    s.internalState k (imGroup m.hdr) e st = none → exec (.internalRequestDone id tag st) s = .next s) ∧
  (∀ (s : State) (id : Nat) (k : Kindle) (c : Cmd), s.kindle? id = some k → k.cmd = id → s.cmd? id = some c →
    c.phase = .running →
    (∃ e ∈ k.internals, e.remote = true ∧ e.first + s.regF 0 Reg.KN_CFG 16 8 ≤ s.ms) →
    ∃ t, exec (.kindleCollectTimeout id) s = .next t ∧ t.mem = s.mem ∧ t.endedWith id 0x0B ∧ t.kindle? id = none) ∧
  (∀ (s : State) (id : Nat) (k : Kindle), s.kindle? id = some k →
    (∀ e ∈ k.internals, s.ms < e.first + s.regF 0 Reg.KN_CFG 16 8) → exec (.kindleCollectTimeout id) s = .next s) ∧
  (∀ (s : State) (id span : Nat) (k : Kindle), s.kindle? id = some k → k.cmd = id → k.stage = .written →
    k.executing = true → k.spans[k.published]? = some span →
    ∃ t, exec (.kindlePublish id) s = .next t ∧ t.mem = s.mem ∧
      (∀ x ∈ t.slots, x.firstPos / 1024 = span → x.use ≠ .kindle id) ∧
      (∀ d ∈ t.dir, d.key.part = k.part → d.key.seq = k.seq → (∃ e ∈ k.layersOf, e.1 = span ∧ d.key.layer ∈ e.2) →
        span ∉ d.dropped) ∧
      counted s t 0 Reg.PR_REKINDLE_CNT 1 ∧
      (k.published + 1 < k.spans.length → t.kindle? id = some { k with published := k.published + 1 }) ∧
      (k.published + 1 = k.spans.length → ∀ c, s.cmd? id = some c → c.phase = .running → t.endedWith id 0))

/-- A BIND that passes checks 1 to 3, of an image of good shape in the node's own memory with no latent error, that the
destination can hold: when a charter signer's signature holds, the key unwraps and the payload opens, memory is what
it was with the payload stored at the destination, the slot is bound, it is counted in KN_BIND_CNT and ends with OK;
when the signature does not hold it ends with VIOLATION, is counted in KN_BIND_FAIL_CNT, and changes no memory. An
UNBIND of a free slot ends with OK at once; of a bound slot it waits. UNBIND_CLEAR, once no KINDLE executes on the
slot, zeroes the object, frees the slot and ends the UNBIND with OK; until then it changes nothing. (R214, R215,
R227) -/
def Obligations.ImagesAreBoundAndUnbound : Prop :=
  (∀ (s u : State) (id : Nat) (c : Cmd) (so dO : BitVec 256) (h img ct : List Byte), s.starting? id 3 = some c →
    dOp c.desc = 1 → s.awake = true → (s.runCmd id).bindHead c = (u, 0) → so = s.obj c.part (bdSrc c.desc) →
    dO = s.obj c.part (bdDst c.desc) → s.ecc = [] → tierOf (objBase so) ≠ some .far →
    tierOf (objBase so + imCipherAt img) ≠ some .far → h = s.bytes (objBase so) 448 → imDevices h ≤ 256 →
    448 ≤ objSize so → imCipherAt h ≤ objSize so → img = s.bytes (objBase so) (imCipherAt h) → 512 ≤ img.length →
    imageShapeOk img = true → imCipherAt img + imPayLen img ≤ objSize so → imPlainLen img ≤ objSize dO →
    ct = s.bytes (objBase so + imCipherAt img) (imPayLen img) →
    ∃ t, exec (.bind id) s = .next t ∧
      ((chSignerKeys s.chart).contains (imSigner img) = true →
        Config.edVerify (imSigner img) (Config.sha512 (img.take (imBody img))) (sliceB img (imBody img) 64) = true →
        ∀ key plain, unwrapKey img s.deviceKey (Config.x25519Public s.deviceKey) = some key →
        openPayload (img ++ ct) key = some plain →
        t.mem = (s.store (objBase dO) plain).mem ∧ t.endedWith id 0 ∧ counted s t 0 Reg.KN_BIND_CNT 1 ∧
        ∃ m ∈ t.images, m.part = c.part ∧ m.slot = kdImage c.desc ∧ m.obj = bdDst c.desc ∧ m.hdr = img.take 448) ∧
      (Config.edVerify (imSigner img) (Config.sha512 (img.take (imBody img))) (sliceB img (imBody img) 64) = false →
        t.mem = s.mem ∧ t.images = s.images ∧ t.endedWith id 0x04 ∧ counted s t 0 Reg.KN_BIND_FAIL_CNT 1)) ∧
  (∀ (s : State) (id : Nat) (c : Cmd), s.starting? id 3 = some c → dOp c.desc = 2 → s.awake = true →
    bindOk c.desc = true → s.adrift = false → s.image? c.part (kdImage c.desc) = none →
    ∃ t, exec (.unbind id) s = .next t ∧ t.mem = s.mem ∧ t.images = s.images ∧ t.endedWith id 0) ∧
  (∀ (s : State) (id : Nat) (c : Cmd) (m : Image), s.starting? id 3 = some c → dOp c.desc = 2 → s.awake = true →
    bindOk c.desc = true → s.adrift = false → s.image? c.part (kdImage c.desc) = some m →
    ∃ t m', exec (.unbind id) s = .next t ∧ t.mem = s.mem ∧ t.image? c.part (kdImage c.desc) = some m' ∧
      m' = { m with unbinders := m.unbinders ++ [id] }) ∧
  (∀ (s : State) (p slot id : Nat) (m : Image) (c : Cmd), s.image? p slot = some m → m.part = p → m.slot = slot →
    m.unbinders = [id] → s.cmd? id = some c → c.phase = .running →
    (∀ k ∈ s.kindles, k.part = p → k.slot = slot → k.executing = false) →
    ∃ t, exec (.unbindClear p slot) s = .next t ∧ t.image? p slot = none ∧ t.endedWith id 0 ∧
      t.mem = (s.store (objBase (s.obj p m.obj)) (List.replicate (objSize (s.obj p m.obj)) 0)).mem) ∧
  (∀ (s : State) (p slot : Nat) (k : Kindle), k ∈ s.kindles → k.part = p → k.slot = slot → k.executing = true →
    exec (.unbindClear p slot) s = .next s)

/-- For a served VF whose partition has claimed the selected IDLE entry, OPEN stores the reason of the first check of
R291 that fails and leaves the entry IDLE; when all pass, a ROLE of 1 listens, and a ROLE of 0 connects with its
first CONNECT queued for path 0. OPEN of an entry in another state does nothing. The i-th CONNECT is queued alone
for path i mod PATHS once 16 i milestones have passed, and not before; after 4,096 milestones in CONNECTING the
entry is IDLE with REASON TIMEOUT and the next generation, and after 4,096 in CLOSING it is FAILED with REASON
TIMEOUT, counted in RT_CONN_FAIL_CNT. CLOSE takes LISTEN, CONNECTING and FAILED to IDLE with REASON kept, leaves
IDLE and CLOSING, and takes OPEN to CLOSING, with a CLOSE queued when every message sent is acknowledged. A peer's
CLOSE moves an OPEN connection to CLOSING; a CLOSE is queued when every message sent is acknowledged, and a
CLOSE_ACK when every descriptor taken is done and its record acknowledged. A CLOSE_ACK that comes after this end's
CLOSE is noted, and ends the connection in IDLE with the next generation once this end's own CLOSE_ACK has left.
Memory is unchanged throughout. (R290, R291, R292, R293, R295, R296) -/
def Obligations.ConnectionsOpenRetryAndClose : Prop :=
  (∀ (s : State) (fn i : Nat) (c : Conn), fn ≠ 0 → s.fnServed fn = true → i = s.connSel fn → c = s.conn i →
    c.owner = some (fn - 1) → c.st = .idle → s.openCheck (fn - 1) i ≠ 0 →
    exec (.connOpen fn) s = .next (s.setConn i { c with reason := s.openCheck (fn - 1) i })) ∧
  (∀ (s : State) (fn i : Nat) (c : Conn), fn ≠ 0 → s.fnServed fn = true → i = s.connSel fn → c = s.conn i →
    c.owner = some (fn - 1) → c.st = .idle → s.openCheck (fn - 1) i = 0 →
    ∃ t, exec (.connOpen fn) s = .next t ∧ t.mem = s.mem ∧ (t.conn i).entry = c.entry ∧ (t.conn i).since = s.ms ∧
      (ceRole c.entry = 1 → (t.conn i).st = .listen ∧ (t.conn i).tx = []) ∧
      (ceRole c.entry = 0 → (t.conn i).st = .connecting ∧ (t.conn i).attempts = 1 ∧
        ∃ m, (t.conn i).tx = [m] ∧ m.op = 8 ∧ ctSub m.ext = 1 ∧ m.via = some 0) ∧
      ∀ j, j ≠ i → t.conn j = s.conn j) ∧
  (∀ (s : State) (fn : Nat), s.fnServed fn = true → (s.conn (s.connSel fn)).st ≠ .idle →
    exec (.connOpen fn) s = .next s) ∧
  (∀ (s : State) (i : Nat) (c : Conn), c = s.conn i → c.st = .connecting → c.since + 16 * c.attempts ≤ s.ms →
    ∃ t m, exec (.connectRetry i) s = .next t ∧ t.mem = s.mem ∧ (t.conn i).st = .connecting ∧
      (t.conn i).attempts = c.attempts + 1 ∧ (t.conn i).tx = [m] ∧ m.op = 8 ∧ ctSub m.ext = 1 ∧
      m.via = some (c.attempts % max 1 (cePaths c.entry))) ∧
  (∀ (s : State) (i : Nat), ((s.conn i).st ≠ .connecting ∨ s.ms < (s.conn i).since + 16 * (s.conn i).attempts) →
    exec (.connectRetry i) s = .next s) ∧
  (∀ (s : State) (i : Nat), (s.conn i).st = .connecting → (s.conn i).since + 4096 ≤ s.ms →
    ∃ t, exec (.connectTimeout i) s = .next t ∧ t.mem = s.mem ∧ (t.conn i).st = .idle ∧ (t.conn i).reason = 0x0B ∧
      (t.conn i).gen = ((s.conn i).gen + 1) % 2048) ∧
  (∀ (s : State) (i : Nat), (s.conn i).st = .closing → (s.conn i).since + 4096 ≤ s.ms →
    ∃ t, exec (.closingTimeout i) s = .next t ∧ t.mem = s.mem ∧ (t.conn i).st = .failed ∧ (t.conn i).reason = 0x0B ∧
      counted s t 0 Reg.RT_CONN_FAIL_CNT 1) ∧
  (∀ (s : State) (i : Nat), s.ms < (s.conn i).since + 4096 →
    exec (.connectTimeout i) s = .next s ∧ exec (.closingTimeout i) s = .next s) ∧
  (∀ (s : State) (fn i : Nat) (c : Conn), fn ≠ 0 → s.fnServed fn = true → i = s.connSel fn → c = s.conn i →
    c.owner = some (fn - 1) → (c.st = .listen ∨ c.st = .connecting ∨ c.st = .failed) →
    ∃ t, exec (.connClose fn) s = .next t ∧ t.mem = s.mem ∧ (t.conn i).st = .idle ∧
      (t.conn i).gen = (c.gen + 1) % 2048 ∧ (t.conn i).reason = c.reason) ∧
  (∀ (s : State) (fn : Nat), s.fnServed fn = true → ((s.conn (s.connSel fn)).st = .idle ∨ (s.conn (s.connSel fn)).st = .closing) →
    exec (.connClose fn) s = .next s) ∧
  (∀ (s : State) (fn i : Nat) (c : Conn), fn ≠ 0 → s.fnServed fn = true → i = s.connSel fn → c = s.conn i →
    c.owner = some (fn - 1) → c.st = .opened → c.closeSent = false → c.closeGot = false → c.ackSent = false →
    ∃ t, exec (.connClose fn) s = .next t ∧ t.mem = s.mem ∧ (t.conn i).st = .closing ∧ (t.conn i).since = s.ms ∧
      (c.sentAll = true → (t.conn i).closeSent = true ∧
        ∃ m, (t.conn i).tx = c.tx ++ [m] ∧ m.op = 8 ∧ ctSub m.ext = 4) ∧
      (c.sentAll = false → (t.conn i).tx = c.tx)) ∧
  (∀ (s : State) (i : Nat) (c : Conn), c = s.conn i → c.st = .opened → c.closeSent = false → c.ackSent = false →
    ∃ t, exec (.ctrlClose i) s = .next t ∧ t.mem = s.mem ∧ (t.conn i).st = .closing ∧ (t.conn i).closeGot = true ∧
      (t.conn i).closeSent = c.sentAll ∧ (t.conn i).ackSent = s.drained i ∧
      (t.conn i).tx.map (fun m => (m.op, ctSub m.ext)) = c.tx.map (fun m => (m.op, ctSub m.ext)) ++
        (if c.sentAll then [(8, 4)] else []) ++ (if s.drained i then [(8, 5)] else [])) ∧
  (∀ (s : State) (i : Nat) (c : Conn), c = s.conn i → c.st = .closing → c.closeSent = true → c.ackSent = true →
    (∀ m ∈ c.tx, m.op = 8 → ctSub m.ext ≠ 5) →
    ∃ t, exec (.closeAck i) s = .next t ∧ t.mem = s.mem ∧ (t.conn i).st = .idle ∧ (t.conn i).reason = c.reason ∧
      (t.conn i).gen = (c.gen + 1) % 2048) ∧
  (∀ (s : State) (i : Nat) (c : Conn), c = s.conn i → c.st = .closing → c.closeSent = true → c.closeGot = false →
    c.ackSent = false → exec (.closeAck i) s = .next (s.setConn i { c with ackGot := true })) ∧
  (∀ (s : State) (i : Nat), ((s.conn i).st ≠ .closing ∨ (s.conn i).closeSent = false) →
    exec (.closeAck i) s = .next s)

/-- A CONNECT to a node in HELD is answered with a REJECT of reason REFUSED_MODE (0x0F), one that no OPEN connection and
no listening entry matches with reason 0x04, and one whose entry's grants no longer fit with 0x0D. The REJECT goes
out as a held CTRL packet of the partition of the tenant, or as a frame of the node's own where none has it; the
port and the length of the CONNECT's frame are free values (log entry 20, the model's choice). A frame of no
connection leaves at once when it may start, and otherwise waits. Otherwise the first listening entry that matches
becomes OPEN with the peer's connection, node and grants, the smaller payload code, and an ACCEPT queued. A CONNECT
that an OPEN connection already answered is accepted again. An ACCEPT takes a CONNECTING entry to OPEN with what it
grants, a REJECT takes it to IDLE with the reason that it brings, and in any other state both change nothing. Memory
is unchanged. (R292, R293, R294, R360) -/
def Obligations.HandshakesAreAnswered : Prop :=
  (∀ (s : State) (tenant r : Nat) (x : List Byte),
    (s.life = .held ∧ r = 0x0F ∨
      s.life ≠ .held ∧ r = 0x04 ∧ s.conns.find? (fun e => s.alreadyOpen tenant x e.2) = none ∧
        s.conns.find? (fun e => s.listens tenant x e.2) = none ∨
      s.life ≠ .held ∧ r = 0x0D ∧ s.conns.find? (fun e => s.alreadyOpen tenant x e.2) = none ∧ ∃ i c,
        s.conns.find? (fun e => s.listens tenant x e.2) = some (i, c) ∧ s.grantsOk (c.owner.getD 0) i c.entry = false) →
    ∃ bs, exec (.connect tenant x) s = .next (s.drawn.drawn.reply ⟨s.listed.find? fun p => s.tenant p == tenant,
        (s.fresh 4).toNat, (s.drawn.fresh 14).toNat, s.ft.now.toNat, .answer bs⟩) ∧ leAt bs 0 1 = 0x18 ∧
      beAt bs 3 2 = tenant % 65536 ∧ beAt bs 5 3 = beAt x 4 3 ∧ leAt bs 30 1 = 3 ∧ leAt bs 31 1 = r) ∧
  (∀ (s : State) (r : Reply), (s.reply r).conns = s.conns ∧ (s.reply r).mem = s.mem ∧
    (s.mayReply r = true → (s.reply r).out = r.out :: s.out ∧ (s.reply r).replies = s.replies) ∧
    (s.mayReply r = false → (s.reply r).out = s.out ∧ (s.reply r).replies =
      (if r.part.isSome || s.hasIdle r.lport then s.replies ++ [r] else s.replies))) ∧
  (∀ (s : State) (tenant i : Nat) (x : List Byte) (c : Conn), s.life ≠ .held →
    s.conns.find? (fun e => s.alreadyOpen tenant x e.2) = some (i, c) →
    ∃ t m, exec (.connect tenant x) s = .next t ∧ t.mem = s.mem ∧ (t.conn i).st = (s.conn i).st ∧
      (t.conn i).tx = (s.conn i).tx ++ [m] ∧ m.op = 8 ∧ ctSub m.ext = 2) ∧
  (∀ (s : State) (tenant i : Nat) (x : List Byte) (c : Conn), s.life ≠ .held →
    s.conns.find? (fun e => s.alreadyOpen tenant x e.2) = none →
    s.conns.find? (fun e => s.listens tenant x e.2) = some (i, c) → s.grantsOk (c.owner.getD 0) i c.entry = true →
    ∃ t m, exec (.connect tenant x) s = .next t ∧ t.mem = s.mem ∧ (t.conn i).st = .opened ∧
      (t.conn i).entry = (s.conn i).entry ∧ (t.conn i).peerConn = beAt x 4 3 ∧ (t.conn i).peerNode = beAt x 8 2 ∧
      (t.conn i).pcode = min (cePay (s.conn i).entry) (leAt x 2 1) ∧ (t.conn i).peerEmberBase = beAt x 10 2 ∧
      (t.conn i).peerEmberUnits = beAt x 12 2 ∧ (t.conn i).peerInq = beAt x 14 3 ∧ (t.conn i).peerTc1 = beAt x 20 4 ∧
      (t.conn i).peerTc3 = beAt x 24 4 ∧ (t.conn i).nextPsn = 0 ∧ (t.conn i).cumPsn = 0 ∧ (t.conn i).tx = [m] ∧
      m.op = 8 ∧ ctSub m.ext = 2 ∧ ∀ j, j ≠ i → t.conn j = s.conn j) ∧
  (∀ (s : State) (i : Nat) (x : List Byte), (s.conn i).st = .connecting →
    ∃ c, exec (.accept i x) s = .next (s.setConn i c) ∧ c.st = .opened ∧ c.entry = (s.conn i).entry ∧
      c.owner = (s.conn i).owner ∧ c.gen = (s.conn i).gen ∧ c.peerConn = beAt x 4 3 ∧ c.peerNode = beAt x 8 2 ∧
      c.pcode = min (cePay (s.conn i).entry) (leAt x 2 1) ∧ c.peerTc1 = beAt x 20 4 ∧ c.peerTc3 = beAt x 24 4 ∧
      c.nextPsn = 0 ∧ c.tx = []) ∧
  (∀ (s : State) (i : Nat) (x : List Byte), (s.conn i).st = .connecting →
    ∃ t, exec (.reject i x) s = .next t ∧ t.mem = s.mem ∧ (t.conn i).st = .idle ∧ (t.conn i).reason = leAt x 1 1 ∧
      (t.conn i).gen = ((s.conn i).gen + 1) % 2048) ∧
  (∀ (s : State) (i : Nat) (x : List Byte), (s.conn i).st ≠ .connecting →
    exec (.accept i x) s = .next s ∧ exec (.reject i x) s = .next s)

/-- A PROBE on an OPEN or CLOSING connection queues a PROBE_ACK for its path; a PROBE_ACK brings its path UP and no
other, unless the partition has no slot of the path's port, when it changes nothing. A DOWN path that can carry
packets is probed every 16 milestones, and an UP path that carried no numbered packet for KEEPALIVE milestones is
probed, or becomes DOWN after three PROBEs without an answer. An expired RTO marks its packet lost, counts one loss
against the packet's path, which is DOWN after three, and after RETRY retransmissions fails the connection with
TIMEOUT. DEAD_TIME without a packet fails it as well; before their time, and on a connection in another state, these
timers change nothing. Memory is unchanged. (R296, R305, R306) -/
def Obligations.PathsAndTheirTimers : Prop :=
  (∀ (s : State) (i p : Nat), ((s.conn i).st = .opened ∨ (s.conn i).st = .closing) → p < (s.conn i).live.length →
    ∃ t m, exec (.probe i p) s = .next t ∧ t.mem = s.mem ∧ (t.conn i).tx = (s.conn i).tx ++ [m] ∧ m.op = 8 ∧
      ctSub m.ext = 7 ∧ m.via = some p ∧ (t.conn i).live = (s.conn i).live) ∧
  (∀ (s : State) (i p : Nat), ((s.conn i).st = .opened ∨ (s.conn i).st = .closing) → p < (s.conn i).live.length →
    s.hasSlot ((s.conn i).owner.getD 0) ((s.conn i).port p) = true →
    ∃ c, exec (.probeAck i p) s = .next (s.setConn i c) ∧ (c.path p).up = true ∧ (c.path p).probes = 0 ∧
      (c.path p).win = ((s.conn i).path p).win ∧ ∀ q, q ≠ p → c.path q = (s.conn i).path q) ∧
  (∀ (s : State) (i p : Nat), s.hasSlot ((s.conn i).owner.getD 0) ((s.conn i).port p) = false →
    exec (.probeAck i p) s = .next s) ∧
  (∀ (s : State) (i p psn : Nat), (s.conn i).st ≠ .opened → (s.conn i).st ≠ .closing →
    exec (.probe i p) s = .next s ∧ exec (.probeAck i p) s = .next s ∧ exec (.probeTimer i p) s = .next s ∧
    exec (.keepaliveExpire i p) s = .next s ∧ exec (.deadTimeExpire i) s = .next s ∧
    exec (.rtoExpire i psn) s = .next s) ∧
  (∀ (s : State) (i p : Nat), (s.conn i).hasPath p = true → ((s.conn i).path p).up = false →
    s.pathUsable ((s.conn i).owner.getD 0) ((s.conn i).entryOf p) = true → ((s.conn i).path p).probedAt + 16 ≤ s.ms →
    ∃ t m, exec (.probeTimer i p) s = .next t ∧ t.mem = s.mem ∧ (t.conn i).tx = (s.conn i).tx ++ [m] ∧ m.op = 8 ∧
      ctSub m.ext = 6 ∧ m.via = some p ∧ ((t.conn i).path p).probedAt = s.ms ∧
      ((t.conn i).path p).probes = ((s.conn i).path p).probes + 1) ∧
  (∀ (s : State) (i p : Nat), (((s.conn i).path p).up = true ∨ s.ms < ((s.conn i).path p).probedAt + 16 ∨
      s.pathUsable ((s.conn i).owner.getD 0) ((s.conn i).entryOf p) = false) →
    exec (.probeTimer i p) s = .next s) ∧
  (∀ (s : State) (i p : Nat), (s.conn i).hasPath p = true → ((s.conn i).path p).up = true →
    ((s.conn i).path p).usedAt + max 1 (s.regF 0 Reg.RT_LIVE 0 16) ≤ s.ms →
    ((s.conn i).path p).probedAt + max 1 (s.regF 0 Reg.RT_LIVE 0 16) ≤ s.ms →
    ∃ t, exec (.keepaliveExpire i p) s = .next t ∧ t.mem = s.mem ∧
      ((t.conn i).path p).up = decide (((s.conn i).path p).probes < 3) ∧
      (((s.conn i).path p).probes < 3 → ∃ m, (t.conn i).tx = (s.conn i).tx ++ [m] ∧ m.op = 8 ∧ ctSub m.ext = 6 ∧
        m.via = some p)) ∧
  (∀ (s : State) (i p : Nat), s.ms < ((s.conn i).path p).usedAt + max 1 (s.regF 0 Reg.RT_LIVE 0 16) →
    exec (.keepaliveExpire i p) s = .next s) ∧
  (∀ (s : State) (i : Nat), ((s.conn i).st = .opened ∨ (s.conn i).st = .closing) →
    (s.conn i).rxAt + max 64 (s.regF 0 Reg.RT_LIVE 16 16) ≤ s.ms →
    ∃ t, exec (.deadTimeExpire i) s = .next t ∧ t.mem = s.mem ∧ (t.conn i).st = .failed ∧ (t.conn i).reason = 0x0B ∧
      counted s t 0 Reg.RT_CONN_FAIL_CNT 1) ∧
  (∀ (s : State) (i : Nat), s.ms < (s.conn i).rxAt + max 64 (s.regF 0 Reg.RT_LIVE 16 16) →
    exec (.deadTimeExpire i) s = .next s) ∧
  (∀ (s : State) (i psn : Nat) (k : TxPkt), ((s.conn i).st = .opened ∨ (s.conn i).st = .closing) →
    (s.conn i).pkts.find? (fun k => k.psn == psn) = some k → k.sentAt + 2048 * k.rto ≤ s.ft.now.toNat → k.lost = false →
    k.retx < s.regF 0 Reg.RT_TIMER 24 8 →
    ∃ t, exec (.rtoExpire i psn) s = .next t ∧ t.mem = s.mem ∧ (t.conn i).st = (s.conn i).st ∧
      (t.conn i).pkts.map TxPkt.psn = (s.conn i).pkts.map TxPkt.psn ∧
      (∀ x ∈ (t.conn i).pkts, x.psn = psn → x.lost = true) ∧
      (k.path < (s.conn i).live.length → ((t.conn i).path k.path).up =
        (((s.conn i).path k.path).up && decide (((s.conn i).path k.path).timeouts < 2)))) ∧
  (∀ (s : State) (i psn : Nat) (k : TxPkt), ((s.conn i).st = .opened ∨ (s.conn i).st = .closing) →
    (s.conn i).pkts.find? (fun k => k.psn == psn) = some k → k.sentAt + 2048 * k.rto ≤ s.ft.now.toNat → k.lost = false →
    s.regF 0 Reg.RT_TIMER 24 8 ≤ k.retx →
    ∃ t, exec (.rtoExpire i psn) s = .next t ∧ t.mem = s.mem ∧ (t.conn i).st = .failed ∧ (t.conn i).reason = 0x0B) ∧
  (∀ (s : State) (i psn : Nat) (k : TxPkt), (s.conn i).pkts.find? (fun k => k.psn == psn) = some k →
    s.ft.now.toNat < k.sentAt + 2048 * k.rto → exec (.rtoExpire i psn) s = .next s)

/-- The head packet of a class of a connection that its port sends next starts: one frame is emitted, its bytes are
added to the partition's meter, and a new numbered packet takes the next PSN and waits for its acknowledgement on
its path; one that is not retransmitted leaves its queue; a lost one is sent again, no longer lost, and counted in
RT_RETX_CNT (of a CLOSING connection this is said for TC1 to TC3, since a TC0 packet may end it). A head packet
without tokens, or without room in its slot, waits and is counted once in SHP_HELD_CNT or SHP_SLOT_WAIT_CNT; nothing
leaves. Without a head packet nothing changes. An ACK removes exactly the waiting packets that it names, on an OPEN
or CLOSING connection alone. The delay timer queues one ACK when a received packet is unacknowledged and none waits.
Memory is unchanged. (R297, R303, R304, R305, R317, R318, R332, R353) -/
def Obligations.PacketsStartAndAreAcknowledged : Prop :=
  (∀ (s : State) (i tc : Nat) (x : Lead) (m : TxMsg), s.picked i tc = some x → (tc ≠ 0 ∨ (s.conn i).st ≠ .closing) →
    x.pkt.lost = none → x.pkt.msg = some m → x.pkt.tracked = true →
    ∃ t y, exec (.packetTransmit i tc) s = .next t ∧ t.mem = s.mem ∧
      t.out = .frame x.port (s.frameOf i x.path x.pkt) :: s.out ∧ (t.conn i).nextPsn = (s.conn i).nextPsn + 1 ∧
      (t.conn i).pkts = (s.conn i).pkts ++ [y] ∧ y.psn = (s.conn i).nextPsn ∧ y.op = m.op ∧ y.msg = m.num ∧
      y.data = x.pkt.payload ∧ y.path = x.path ∧ y.sentAt = s.ft.now.toNat ∧ y.lost = false ∧ y.retx = 0 ∧
      (t.meter ((s.conn i).owner.getD 0)).txBytes =
        (s.meter ((s.conn i).owner.getD 0)).txBytes + (s.frameOf i x.path x.pkt).length) ∧
  (∀ (s : State) (i : Nat) (x : Lead) (m : TxMsg), s.picked i 0 = some x → (s.conn i).st ≠ .closing →
    x.pkt.lost = none → x.pkt.msg = some m → x.pkt.tracked = false →
    ∃ t, exec (.packetTransmit i 0) s = .next t ∧ t.mem = s.mem ∧
      t.out = .frame x.port (s.frameOf i x.path x.pkt) :: s.out ∧
      (t.conn i).nextPsn = (s.conn i).nextPsn + (if x.pkt.numbered then 1 else 0) ∧
      (t.conn i).pkts = (s.conn i).pkts ∧ (t.conn i).tx = eraseFirst (fun y => y == m) (s.conn i).tx) ∧
  (∀ (s : State) (i tc : Nat) (x : Lead) (l : TxPkt), s.picked i tc = some x → (tc ≠ 0 ∨ (s.conn i).st ≠ .closing) →
    x.pkt.lost = some l →
    ∃ t, exec (.packetTransmit i tc) s = .next t ∧ t.mem = s.mem ∧
      t.out = .frame x.port (s.frameOf i x.path x.pkt) :: s.out ∧ (t.conn i).nextPsn = (s.conn i).nextPsn ∧
      (∀ y ∈ (t.conn i).pkts, y.psn = l.psn → y.lost = false ∧ y.path = x.path ∧ y.sentAt = s.ft.now.toNat) ∧
      (t.conn i).pkts.map TxPkt.psn = (s.conn i).pkts.map TxPkt.psn ∧ counted s t 0 Reg.RT_RETX_CNT 1) ∧
  (∀ (s : State) (i tc : Nat) (x : Lead), s.picked i tc = none → s.leadsOf i tc = [x] →
    s.tokensFor ((s.conn i).owner.getD 0) x = false →
    ∃ t, exec (.packetTransmit i tc) s = .next t ∧ t.mem = s.mem ∧ t.out = s.out ∧ (t.conn i).tx = (s.conn i).tx ∧
      (t.conn i).pkts = (s.conn i).pkts ∧ x.pkt.key ∈ (t.conn i).waitTok ∧
      counted s t (vfOf ((s.conn i).owner.getD 0)) Reg.SHP_HELD_CNT (if x.pkt.key ∈ (s.conn i).waitTok then 0 else 1)) ∧
  (∀ (s : State) (i tc : Nat) (x : Lead), s.picked i tc = none → s.leadsOf i tc = [x] →
    s.tokensFor ((s.conn i).owner.getD 0) x = true → s.slotFor ((s.conn i).owner.getD 0) x = false →
    ∃ t, exec (.packetTransmit i tc) s = .next t ∧ t.mem = s.mem ∧ t.out = s.out ∧ (t.conn i).tx = (s.conn i).tx ∧
      (t.conn i).pkts = (s.conn i).pkts ∧ x.pkt.key ∈ (t.conn i).waitSlot ∧
      counted s t (vfOf ((s.conn i).owner.getD 0)) Reg.SHP_SLOT_WAIT_CNT
        (if x.pkt.key ∈ (s.conn i).waitSlot then 0 else 1)) ∧
  (∀ (s : State) (i tc : Nat), s.leadsOf i tc = [] → exec (.packetTransmit i tc) s = .next s) ∧
  (∀ (s : State) (i : Nat) (x : List Byte) (cum : Nat), ((s.conn i).st = .opened ∨ (s.conn i).st = .closing) →
    cum = unwrap32 ((s.conn i).pkts.foldl (fun a (p : TxPkt) => min a p.psn) (s.conn i).nextPsn) (beAt x 0 4) →
    cum ≤ (s.conn i).nextPsn →
    ∃ t, exec (.ack i x) s = .next t ∧ t.mem = s.mem ∧
      (∀ k ∈ (t.conn i).pkts, ackSays x cum k.psn = false ∧ ∃ k' ∈ (s.conn i).pkts, k'.psn = k.psn) ∧
      ((s.conn i).st = .opened → ∀ k ∈ (s.conn i).pkts, ackSays x cum k.psn = false →
        ∃ k' ∈ (t.conn i).pkts, k'.psn = k.psn)) ∧
  (∀ (s : State) (i : Nat) (x : List Byte), (s.conn i).st ≠ .opened → (s.conn i).st ≠ .closing →
    exec (.ack i x) s = .next s ∧ exec (.ackDelayExpire i) s = .next s) ∧
  (∀ (s : State) (i : Nat), ((s.conn i).st = .opened ∨ (s.conn i).st = .closing) → (s.conn i).unacked ≠ 0 →
    (∀ m ∈ (s.conn i).tx, m.op ≠ 7) →
    ∃ t m, exec (.ackDelayExpire i) s = .next t ∧ t.mem = s.mem ∧ (t.conn i).tx = (s.conn i).tx ++ [m] ∧ m.op = 7) ∧
  (∀ (s : State) (i : Nat), ((s.conn i).unacked = 0 ∨ ∃ m ∈ (s.conn i).tx, m.op = 7) →
    exec (.ackDelayExpire i) s = .next s)

/-- On a port whose link is up, a frame with a bad FCS is discarded, counted in RT_RX_DISC_CNT, and changes nothing
else; on a port without a link a frame changes nothing. A well-formed packet of an OPEN connection, from one of its
peer's addresses and of its tenant, with a new PSN in the window, whose length, target and message pass checks 5 to
10 of R300, waits to be placed and its PSN is received. A WRITE, READ_REQ or EMBER that check 9 or 10 refuses places
nothing. Placing a WRITE of an OPEN waykey in a node without latent errors stores its bytes at BASE + OFFSET and
changes no other byte (said where the placement makes no other message visible and its own is no kindling stream).
An ARP or Neighbour Solicitation for the port is answered with one frame, at once when the port's slot allows, else
when it does, and another such frame is discarded and counted. A packet that does not wait is not placed. (R282,
R300, R301, R302, R304, R308, R310) -/
def Obligations.PacketsPassTheTollgate : Prop :=
  (∀ (s : State) (l : Nat) (f : List Byte), s.portUp l = true →
    exec (.ortPacket l f false) s =
      .next (s.setReg 0 Reg.RT_RX_DISC_CNT (BitVec.ofNat 32 (min 0xFFFFFFFF ((s.reg 0 Reg.RT_RX_DISC_CNT).toNat + 1))))) ∧
  (∀ (s : State) (l : Nat) (f : List Byte) (b : Bool), s.portUp l = false →
    exec (.ortPacket l f b) s = .next s ∧ exec (.arpSolicit l f) s = .next s) ∧
  (∀ (s : State) (l i psn msg : Nat) (f : List Byte) (d : Dgram) (o : Ort) (c : Conn), s.portUp l = true →
    s.frameDgram l f true = some d → ortOk d.body = true → o = parseOrt d.body → o.op ≤ 6 → i = o.conn % 8192 →
    c = s.conn i → o.conn / 8192 = c.gen → (c.st = .opened ∨ c.st = .closing) →
    c.used?.any (fun pt => ptIp pt == d.src) = true → o.tenant = s.tenant (c.owner.getD 0) →
    psn = unwrap32 c.cumPsn o.psn → msg = c.msgOf o → c.hasPsn psn = false → psn ≤ c.cumPsn + 1024 →
    (framed o.op = true → c.frontier ≤ msg ∧ msg < c.frontier + 256 ∧ ∀ m ∈ c.rx, m.num = msg → m.failed = false) →
    lengthsOk c.P o = true → (o.op = 1 ∨ o.op = 5 → c.spanOk o msg = true) → failKey o.op msg psn ∉ c.reported →
    s.targetReason i o = 0 →
    ∃ t k, exec (.ortPacket l f true) s = .next t ∧ t.mem = s.mem ∧ (t.conn i).placing = c.placing ++ [k] ∧
      k.psn = psn ∧ k.op = o.op ∧ k.msg = msg ∧ k.waykey = o.waykey ∧ k.offset = o.offset ∧ k.data = o.payload ∧
      (t.conn i).hasPsn psn = true ∧ (t.conn i).rxAt = s.ms) ∧
  (∀ (s : State) (l i psn : Nat) (f : List Byte) (d : Dgram) (o : Ort) (c : Conn), s.portUp l = true →
    s.frameDgram l f true = some d → ortOk d.body = true → o = parseOrt d.body → (o.op = 1 ∨ o.op = 2 ∨ o.op = 5) →
    i = o.conn % 8192 → c = s.conn i → o.conn / 8192 = c.gen → (c.st = .opened ∨ c.st = .closing) →
    c.used?.any (fun pt => ptIp pt == d.src) = true → o.tenant = s.tenant (c.owner.getD 0) →
    psn = unwrap32 c.cumPsn o.psn → c.hasPsn psn = false → lengthsOk c.P o = true → s.targetReason i o ≠ 0 →
    ∃ t, exec (.ortPacket l f true) s = .next t ∧ (t.conn i).placing = c.placing ∧
      ((∀ m ∈ c.rx, m.failed = true) → t.mem = s.mem)) ∧
  (∀ (s : State) (i psn : Nat) (k : Placing), (s.conn i).placing.find? (fun k => k.psn == psn) = some k →
    s.awake = true → k.op = 1 → (s.waykey (k.waykey % 65536)).ok = true →
    wkKey (s.waykey (k.waykey % 65536)).val = k.waykey → s.ecc = [] → k.data.length ≤ 8192 →
    ((s.conn i).rx = [] ∧ storedForm k.data = k.data ∨
      k.msg ≠ (s.conn i).frontier ∧ ∀ m ∈ (s.conn i).rx, m.num ≠ (s.conn i).frontier) →
    ∃ t, exec (.packetPlace i psn) s = .next t ∧
      (∀ j, j < k.data.length → t.byte (wkBase (s.waykey (k.waykey % 65536)).val + k.offset + j) = k.data.getD j 0) ∧
      (∀ a, (∀ j, j < k.data.length → native a ≠ native (wkBase (s.waykey (k.waykey % 65536)).val + k.offset + j)) →
        t.byte a = s.byte a) ∧ ∀ x ∈ (t.conn i).placing, x.psn ≠ psn) ∧
  (∀ (s : State) (i psn : Nat), (∀ k ∈ (s.conn i).placing, k.psn ≠ psn) → exec (.packetPlace i psn) s = .next s) ∧
  (∀ (s : State) (l : Nat) (f r : List Byte), s.portUp l = true →
    (arpReply (s.portEntry l) (parseEth f) = some r ∨
      (arpReply (s.portEntry l) (parseEth f) = none ∧ ndReply (s.portEntry l) (parseEth f) = some r)) →
    ∃ t, exec (.arpSolicit l f) s = .next t ∧ t.mem = s.mem ∧ t.regs = s.regs ∧
      t.out = (if s.ownFrameOk l r.length then [.frame l r] else []) ++ s.out ∧
      t.replies = s.replies ++ (if !s.ownFrameOk l r.length && s.hasIdle l then
        [⟨none, l, r.length, s.ft.now.toNat, .frame l r⟩] else [])) ∧
  (∀ (s : State) (l : Nat) (f : List Byte), s.portUp l = true → arpReply (s.portEntry l) (parseEth f) = none →
    ndReply (s.portEntry l) (parseEth f) = none →
    exec (.arpSolicit l f) s =
      .next (s.setReg 0 Reg.RT_RX_DISC_CNT (BitVec.ofNat 32 (min 0xFFFFFFFF ((s.reg 0 Reg.RT_RX_DISC_CNT).toNat + 1)))))

/-- The bytes of a READ_RESP of a HAUL in flight whose destination is the node's own memory, whole mode, land at their
place in the destination once all of the read have come, decoded where they are the stream of a kindling record, and
no other byte changes; until then memory is unchanged; one that no HAUL waits for changes nothing. A completion
record gives back one descriptor of the engine that its message named; with a status other than OK for a forwarded
APPEND the twin is lost, and FX_ERR_STAT shows it. A REPORT on an OPEN or CLOSING connection is written as a
violation record of side 1 into the next entry of the partition's log, and a HAUL whose WRITE it names ends with the
status of its reason. On a connection in another state records and REPORTs change nothing. Only READ_RESP changes
memory. (R261, R289, R311, R312, R313, R314, R384) -/
def Obligations.AnswersReachTheirCommands : Prop :=
  (∀ (s : State) (i msg off : Nat) (bs body : List Byte) (h : Haul) (c : Cmd) (r : HaulMsg), s.awake = true →
    s.hauls.find? (fun h => h.reads.any fun r => r.conn == i && r.msg == msg) = some h → s.cmd? h.cmd = some c →
    h.reads.find? (fun r => r.conn == i && r.msg == msg) = some r →
    body = storedForm (joinParts 0 (insertPart (off, bs) r.parts)) →
    (body.length < r.len → ∃ t, exec (.readResp i msg off bs) s = .next t ∧ t.mem = s.mem ∧ t.cmds = s.cmds) ∧
    (h.dstFar = [] → h.tile = false → r.len ≤ body.length → r.len ≤ 33554432 →
      ∃ t, exec (.readResp i msg off bs) s = .next t ∧
        (∀ j, j < r.len → t.byte (objBase h.dst + haDstOff c.desc + r.off + j) = body.getD j 0) ∧
        (∀ a, (∀ j, j < r.len → native a ≠ native (objBase h.dst + haDstOff c.desc + r.off + j)) →
          t.byte a = s.byte a))) ∧
  (∀ (s : State) (i msg off : Nat) (bs : List Byte), (∀ h ∈ s.hauls, ∀ r ∈ h.reads, r.conn ≠ i ∨ r.msg ≠ msg) →
    exec (.readResp i msg off bs) s = .next s) ∧
  (∀ (s : State) (i n e left : Nat) (b : List Byte), ((s.conn i).st = .opened ∨ (s.conn i).st = .closing) →
    b.length = 32 → s.forwards = [] → s.kindles = [] →
    (s.conn i).cmdSent.find? (fun t => t.1 % 2 ^ 28 == leAt b 0 4 / 16) = some (n, e, left) →
    e < (s.conn i).descs.length →
    ∃ c, exec (.cpl i b) s = .next (s.setConn i c) ∧ c.descs.getD e 0 = (s.conn i).descs.getD e 0 - 1 ∧
      (∀ k, k ≠ e → c.descs.getD k 0 = (s.conn i).descs.getD k 0) ∧
      c.cmdSent = ((s.conn i).cmdSent.map fun x => if x.1 = n then (x.1, x.2.1, x.2.2 - 1) else x).filter
        fun x => x.2.2 != 0) ∧
  (∀ (s : State) (i : Nat) (b : List Byte) (f : Forward), ((s.conn i).st = .opened ∨ (s.conn i).st = .closing) →
    b.length = 32 → s.forwards = [f] → f.conn = i → f.msg % 2 ^ 28 = leAt b 0 4 / 16 → leAt b 4 1 ≠ 0 →
    ∃ t, exec (.cpl i b) s = .next t ∧ t.mem = s.mem ∧ t.forwards = [] ∧ t.regB 0 Reg.FX_ERR_STAT 2 = true) ∧
  (∀ (s : State) (i p : Nat) (x : List Byte), ((s.conn i).st = .opened ∨ (s.conn i).st = .closing) →
    p = (s.conn i).owner.getD 0 →
    ∃ t, exec (.report i x) s = .next t ∧ t.mem = s.mem ∧
      t.reg (vfOf p) Reg.RT_VIO_HEAD = s.reg (vfOf p) Reg.RT_VIO_HEAD + 1 ∧
      tget (fun _ => List.replicate 32 0) t.vioLog (p * 64 + (s.reg (vfOf p) Reg.RT_VIO_HEAD).toNat % 64) =
        vioRecord s.ft.now.toNat (leAt x 0 1) 1 (leAt x 1 1) (s.conn i).peerNode (beAt x 4 2) (connId i (s.conn i).gen)
          (beAt x 16 4) (beAt x 12 4) (beAt x 20 6)) ∧
  (∀ (s : State) (i msg : Nat) (x : List Byte) (h : Haul) (c : Cmd) (w : HaulMsg),
    ((s.conn i).st = .opened ∨ (s.conn i).st = .closing) → leAt x 1 1 / 16 = 1 →
    msg = unwrap32 (s.conn i).nextMsg (beAt x 12 4) → h ∈ s.hauls → w ∈ h.writes → w.conn = i → w.msg = msg →
    s.cmd? h.cmd = some c → c.id = h.cmd → c.phase = .running →
    ∃ t, exec (.report i x) s = .next t ∧ t.endedWith h.cmd
      (if leAt x 0 1 = 0x0A ∨ leAt x 0 1 = 0x0B then 0x05 else if leAt x 0 1 = 0x0D then 0x0F else 0x04)) ∧
  (∀ (s : State) (i : Nat) (x : List Byte), (s.conn i).st ≠ .opened → (s.conn i).st ≠ .closing →
    exec (.report i x) s = .next s ∧ exec (.cpl i x) s = .next s)

/-- A write inside the connection window of a served VF, onto a selected entry that is IDLE and claimed by the
partition, or unclaimed while it may claim another, claims it and patches exactly those bytes of its window; onto
any other entry it sets BUSY and changes nothing else. A write inside the port address table stores its bytes (those
without a field stay zero) and no others when the port is not enabled, and otherwise sets PORT_BUSY alone. With
ENABLE at 0, RT_PORT_CFG takes ENABLE, BCN_EN, MODE and PMD; with ENABLE at 1 a change of MODE or PMD leaves both
fields and sets PORT_BUSY; clearing ENABLE takes the links down. A port reset takes both its links down; a link that
goes down takes every path on it DOWN and no other; an enabled port's link comes up. Memory is unchanged. (R279,
R280, R281, R283, R290, R306, R446, R448, R449) -/
def Obligations.WindowsAndPorts : Prop :=
  (∀ (s : State) (fn off i : Nat) (bs : List Byte) (c : Conn), fn ≠ 0 → s.fnServed fn = true → i = s.connSel fn →
    c = s.conn i → off + bs.length ≤ 0x840 → c.st = .idle →
    (c.owner = some (fn - 1) ∨
      c.owner = none ∧ s.claims (fn - 1) + 1 ≤ recField (s.entryVal (fn - 1)) 52 2) →
    ∃ c', exec (.connWindowWrite fn off bs) s = .next (s.setConn i c') ∧ c'.owner = some (fn - 1) ∧ c'.st = .idle ∧
      c'.gen = c.gen ∧ c'.window = c.window.take off ++ bs ++ c.window.drop (off + bs.length)) ∧
  (∀ (s : State) (fn off : Nat) (bs : List Byte) (c : Conn), fn ≠ 0 → s.fnServed fn = true → c = s.conn (s.connSel fn) →
    off + bs.length ≤ 0x840 → (c.st ≠ .idle ∨ (∃ q, c.owner = some q ∧ q ≠ fn - 1)) →
    exec (.connWindowWrite fn off bs) s = .next (s.setRegB fn Reg.RT_CONN_STAT 28 true)) ∧
  (∀ (s : State) (off : Nat) (bs : List Byte), s.fnServed 0 = true → s.life ≠ .recovery → off + bs.length ≤ 768 →
    s.regB 0 (Reg.RT_PORT_CFG + 4 * (off / 48 / 2)) 31 = false →
    ∃ ps, exec (.portTableWrite off bs) s = .next { s with ports := ps } ∧
      (∀ k, k < bs.length → tget (fun _ => 0) ps (off + k) = portByte (off + k) (bs.getD k 0)) ∧
      ∀ a, (a < off ∨ off + bs.length ≤ a) → tget (fun _ => 0) ps a = tget (fun _ => 0) s.ports a) ∧
  (∀ (s : State) (off : Nat) (bs : List Byte), s.fnServed 0 = true → s.life ≠ .recovery → off + bs.length ≤ 768 →
    s.regB 0 (Reg.RT_PORT_CFG + 4 * (off / 48 / 2)) 31 = true →
    exec (.portTableWrite off bs) s = .next (s.setRegB 0 Reg.RT_ERR_STAT 0 true)) ∧
  (∀ (s : State) (n : Nat) (v : Word), n < 8 → s.pf0 = true → s.regB 0 (Reg.RT_PORT_CFG + 4 * n) 31 = false →
    getF v 29 2 < 2 → getF v 16 2 < 3 → getB v 27 = false →
    ∃ w, exec (.portCfgWrite n v) s = .next (s.setReg 0 (Reg.RT_PORT_CFG + 4 * n) w) ∧ getB w 31 = getB v 31 ∧
      getB w 28 = getB v 28 ∧ getF w 29 2 = getF v 29 2 ∧ getF w 16 2 = getF v 16 2) ∧
  (∀ (s : State) (n : Nat) (v : Word), n < 8 → s.pf0 = true → s.regB 0 (Reg.RT_PORT_CFG + 4 * n) 31 = true →
    getF v 29 2 < 2 → getF v 29 2 ≠ s.regF 0 (Reg.RT_PORT_CFG + 4 * n) 29 2 →
    ∃ t, exec (.portCfgWrite n v) s = .next t ∧ t.mem = s.mem ∧ t.regB 0 Reg.RT_ERR_STAT 0 = true ∧
      t.regF 0 (Reg.RT_PORT_CFG + 4 * n) 29 2 = s.regF 0 (Reg.RT_PORT_CFG + 4 * n) 29 2 ∧
      t.regF 0 (Reg.RT_PORT_CFG + 4 * n) 16 2 = s.regF 0 (Reg.RT_PORT_CFG + 4 * n) 16 2 ∧
      t.regB 0 (Reg.RT_PORT_CFG + 4 * n) 31 = getB v 31) ∧
  (∀ (s : State) (n : Nat) (v : Word), n < 8 → s.pf0 = true → s.regB 0 (Reg.RT_PORT_CFG + 4 * n) 31 = true →
    getB v 31 = false →
    ∃ t, exec (.portCfgWrite n v) s = .next t ∧ t.mem = s.mem ∧ t.regB 0 (Reg.RT_PORT_CFG + 4 * n) 31 = false ∧
      2 * n ∉ t.up ∧ 2 * n + 1 ∉ t.up) ∧
  (∀ (s : State) (n : Nat), n < 8 → s.pf0 = true →
    ∃ t, exec (.portReset n) s = .next t ∧ t.mem = s.mem ∧ t.regs = s.regs ∧
      (∀ l, l ∈ t.up ↔ l ∈ s.up ∧ l ≠ 2 * n ∧ l ≠ 2 * n + 1) ∧
      ∀ i p, ((t.conn i).path p).up = (((s.conn i).path p).up && (s.conn i).port p != 2 * n &&
        (s.conn i).port p != 2 * n + 1)) ∧
  (∀ (s : State) (l : Nat),
    ∃ t, exec (.linkDown l) s = .next t ∧ t.mem = s.mem ∧ t.regs = s.regs ∧ (∀ k, k ∈ t.up ↔ k ∈ s.up ∧ k ≠ l) ∧
      ∀ i, (t.conn i).st = (s.conn i).st ∧ (t.conn i).tx = (s.conn i).tx ∧ (t.conn i).used = (s.conn i).used ∧
        ∀ p, ((t.conn i).path p).up = (((s.conn i).path p).up && (s.conn i).port p != l)) ∧
  (∀ (s : State) (l : Nat), s.lportExists l = true → s.regB 0 (Reg.RT_PORT_CFG + 4 * (l / 2)) 31 = true → l ∉ s.up →
    exec (.linkUp l) s = .next { s with up := s.up ++ [l] }) ∧
  (∀ (s : State) (l : Nat), (s.lportExists l = false ∨ s.regB 0 (Reg.RT_PORT_CFG + 4 * (l / 2)) 31 = false) →
    exec (.linkUp l) s = .next s)

/-- For a served VF: CREATE of a value that R309 refuses sets BAD alone, one beyond the partition's share sets FULL
alone, and any other makes the entry taken an OPEN key of the partition, with the BASE, LENGTH, CONN and rights of
the value, the entry's index in the low half of its KEY, the upper half a free value (log entry 1), and shows its
index. REVOKE of the partition's own OPEN key makes it CLOSING at the present milestone while packets or reads of it
are in flight, and REVOKED when none are; of any other valid entry it sets BAD alone. READ loads the eight words of
the partition's own entry, zeros and BAD for a FREE entry or another's, and all ones for a pair that is not valid. A
CLOSING key with nothing in flight becomes REVOKED; with something in flight it stays, until 8 milestones after the
REVOKE the drain limit abandons what is unplaced and makes it REVOKED. Only the drain limit writes memory. (R65,
R307, R309, R310, R315, R343) -/
def Obligations.WaykeysAreCreatedAndRevoked : Prop :=
  (∀ (s : State) (fn i : Nat), fn ≠ 0 → fn ≤ 64 → s.fnServed fn = true → s.wkBad (fn - 1) (s.wkWords fn) = false →
    s.wkOwn (fn - 1) < 16 * recField (s.entryVal (fn - 1)) 54 2 → s.wkTake (fn - 1) = some i → i < 65536 →
    ∃ t e, exec (.waykeyCreate fn) s = .next t ∧ t.mem = s.mem ∧ t.waykey i = ⟨e, ~~~e⟩ ∧ wkState e = 1 ∧
      wkPart e = fn - 1 ∧ wkBase e = wkBase (s.wkWords fn) ∧ wkLen e = wkLen (s.wkWords fn) ∧
      wkConn e = wkConn (s.wkWords fn) ∧ wkWrite e = wkWrite (s.wkWords fn) ∧ wkRead e = wkRead (s.wkWords fn) ∧
      wkKey e % 65536 = i ∧ (t.reg fn Reg.RT_WK_SEL).toNat = i ∧ ∀ j, j ≠ i → t.waykey j = s.waykey j) ∧
  (∀ (s : State) (fn : Nat), fn ≠ 0 → s.fnServed fn = true → s.wkBad (fn - 1) (s.wkWords fn) = true →
    exec (.waykeyCreate fn) s = .next (s.setRegB fn Reg.RT_WK_STAT 2 true)) ∧
  (∀ (s : State) (fn : Nat), fn ≠ 0 → s.fnServed fn = true → s.wkBad (fn - 1) (s.wkWords fn) = false →
    16 * recField (s.entryVal (fn - 1)) 54 2 ≤ s.wkOwn (fn - 1) →
    exec (.waykeyCreate fn) s = .next (s.setRegB fn Reg.RT_WK_STAT 3 true)) ∧
  (∀ (s : State) (fn i : Nat) (v : Word), fn ≠ 0 → s.fnServed fn = true → i = s.regF fn Reg.RT_WK_SEL 0 16 →
    (s.waykey i).ok = true → wkState (s.waykey i).val = 1 → wkPart (s.waykey i).val = fn - 1 →
    ∃ t, exec (.waykeyRevoke fn v) s = .next t ∧ t.mem = s.mem ∧ (t.waykey i).ok = true ∧
      wkState (t.waykey i).val = (if s.wkInflight i = 0 then 3 else 2) ∧ wkMs (t.waykey i).val = s.ms % 2 ^ 53 ∧
      wkKey (t.waykey i).val = wkKey (s.waykey i).val ∧ ∀ j, j ≠ i → t.waykey j = s.waykey j) ∧
  (∀ (s : State) (fn i : Nat) (v : Word), fn ≠ 0 → s.fnServed fn = true → i = s.regF fn Reg.RT_WK_SEL 0 16 →
    (s.waykey i).ok = true → (wkState (s.waykey i).val ≠ 1 ∨ wkPart (s.waykey i).val ≠ fn - 1) →
    exec (.waykeyRevoke fn v) s = .next (s.setRegB fn Reg.RT_WK_STAT 2 true)) ∧
  (∀ (s : State) (fn i j : Nat), fn ≠ 0 → s.fnServed fn = true → i = s.regF fn Reg.RT_WK_SEL 0 16 → j < 8 →
    ∃ t, exec (.waykeyRead fn) s = .next t ∧ t.mem = s.mem ∧ t.waykeys = s.waykeys ∧
      ((s.waykey i).ok = true → wkState (s.waykey i).val ≠ 0 → wkPart (s.waykey i).val = fn - 1 →
        (t.reg fn (Reg.RT_WK_W + 4 * j)).toNat = getF (s.waykey i).val (32 * j) 32) ∧
      ((s.waykey i).ok = true → (wkState (s.waykey i).val = 0 ∨ wkPart (s.waykey i).val ≠ fn - 1) →
        t.reg fn (Reg.RT_WK_W + 4 * j) = 0 ∧ t.regB fn Reg.RT_WK_STAT 2 = true) ∧
      ((s.waykey i).ok = false → t.reg fn (Reg.RT_WK_W + 4 * j) = 0xFFFFFFFF ∧ t.regB fn Reg.RT_WK_STAT 1 = true)) ∧
  (∀ (s : State) (i : Nat), (s.waykey i).ok = true → wkState (s.waykey i).val = 2 → s.wkInflight i = 0 →
    ∃ t, exec (.revocationComplete i) s = .next t ∧ t.mem = s.mem ∧ (t.waykey i).ok = true ∧
      wkState (t.waykey i).val = 3 ∧ ∀ j, j ≠ i → t.waykey j = s.waykey j) ∧
  (∀ (s : State) (i : Nat), (wkState (s.waykey i).val ≠ 2 ∨ s.wkInflight i ≠ 0) →
    exec (.revocationComplete i) s = .next s) ∧
  (∀ (s : State) (i : Nat), (s.waykey i).ok = true → wkState (s.waykey i).val = 2 → wkMs (s.waykey i).val + 8 ≤ s.ms →
    ∃ t, exec (.revocationDrainLimit i) s = .next t ∧ (t.waykey i).ok = true ∧ wkState (t.waykey i).val = 3 ∧
      ∀ k, ∀ x ∈ (t.conn k).placing, (x.op = 1 ∨ x.op = 2) → x.waykey % 65536 ≠ i) ∧
  (∀ (s : State) (i : Nat), (wkState (s.waykey i).val ≠ 2 ∨ s.ms < wkMs (s.waykey i).val + 8) →
    exec (.revocationDrainLimit i) s = .next s)

/-- With PF0's registers answering: a WRITE with BURST or PKT_BURST 0, a reserved bit set, or a logical port that does
not exist in its port's MODE, sets SHP_ERR_STAT.BAD and leaves the entry and every waiting change; any other WRITE
leaves the entry and makes SHP_W0 to W3, whose bits [127:96] do not matter, the one change that waits for that
shaper, to take effect with TOKENS full or 0. READ of a valid pair loads the entry, TOKENS included, into SHP_W0 to
W3; a pair that is not valid makes every word read 0xFFFF_FFFF and sets SHP_ERR_STAT.CPL. While a shaper's pair is
not valid only exempt packets of the partition have leave to start on that port. (R322) -/
def Obligations.ShaperCommands : Prop :=
  (∀ s : State, s.pf0 = true → (shBurst s.shWords = 0 ∨ shPktBurst s.shWords = 0 ∨ getF s.shWords 0 13 ≠ 0 ∨
      s.lportExists (s.regF 0 Reg.SHP_SEL 0 4) = false) →
    exec .shaperWrite s = .next (s.setRegB 0 Reg.SHP_ERR_STAT 0 true)) ∧
  (∀ (s : State) (v : BitVec 128), s.pf0 = true →
    v = BitVec.ofNat 128 ((s.reg 0 Reg.SHP_W).toNat + (s.reg 0 (Reg.SHP_W + 4)).toNat * 2 ^ 32 +
      (s.reg 0 (Reg.SHP_W + 8)).toNat * 2 ^ 64) →
    shBurst v ≠ 0 → shPktBurst v ≠ 0 → getF v 0 13 = 0 → s.lportExists (s.regF 0 Reg.SHP_SEL 0 4) = true →
    exec .shaperWrite s = .next { s with shChanges :=
      (s.shChanges.filter fun c => !(c.part == s.regF 0 Reg.SHP_SEL 8 6 && c.lport == s.regF 0 Reg.SHP_SEL 0 4)) ++
        [⟨s.regF 0 Reg.SHP_SEL 8 6, s.regF 0 Reg.SHP_SEL 0 4, v⟩] }) ∧
  (∀ (s : State) (v : BitVec 128), shBurst v < 2 ^ 24 →
    shTokens (s.shChanged v) = (if shEmpty v then 0 else if s.acctPackets then (shPktBurst v : Int) else shBurst v) ∧
    shRate (s.shChanged v) = shRate v ∧ shBurst (s.shChanged v) = shBurst v ∧ shPktRate (s.shChanged v) = shPktRate v ∧
    shPktBurst (s.shChanged v) = shPktBurst v ∧ shOverhead (s.shChanged v) = shOverhead v ∧
    shEn (s.shChanged v) = shEn v) ∧
  (∀ (s : State) (j : Nat), s.pf0 = true → j < 4 →
    ∃ t, exec .shaperRead s = .next t ∧ t.mem = s.mem ∧ t.shapers = s.shapers ∧ t.shChanges = s.shChanges ∧
      ((s.shaper (s.regF 0 Reg.SHP_SEL 8 6) (s.regF 0 Reg.SHP_SEL 0 4)).ok = true →
        (t.reg 0 (Reg.SHP_W + 4 * j)).toNat =
          getF (s.shaper (s.regF 0 Reg.SHP_SEL 8 6) (s.regF 0 Reg.SHP_SEL 0 4)).val (32 * j) 32 ∧
        t.reg 0 Reg.SHP_ERR_STAT = s.reg 0 Reg.SHP_ERR_STAT) ∧
      ((s.shaper (s.regF 0 Reg.SHP_SEL 8 6) (s.regF 0 Reg.SHP_SEL 0 4)).ok = false →
        t.reg 0 (Reg.SHP_W + 4 * j) = 0xFFFFFFFF ∧ t.regB 0 Reg.SHP_ERR_STAT 1 = true ∧
        counted s t 0 Reg.MT_CPL_FAULT_CNT 1)) ∧
  (∀ (s : State) (p : Nat) (x : Lead), (s.shaper p x.port).ok = false → s.tokensFor p x = x.pkt.exempt)

/-- Event 3 of R30, in an accounting mode that does not change and with no change waiting: every enabled shaper of the
table, its pair valid, takes TOKENS = min(full, TOKENS + refill), in byte mode from BURST and RATE and in packet
mode from PKT_BURST and PKT_RATE, with the rest of its entry as it was; a shaper that is not enabled keeps its
entry. A packet charges 1 in packet mode, its frame bytes and OVERHEAD in byte mode. (R320, R321, R323) -/
def Obligations.ShapersRefillAtTheBoundary : Prop :=
  (∀ (s : State) (p l : Nat) (v : BitVec 128), s.acctWanted = s.acctPackets → s.shChanges = [] →
    (s.shapers.map Prod.fst).Nodup → l < 16 → p * 16 + l ∈ s.shapers.map Prod.fst → s.shaper p l = ⟨v, ~~~v⟩ →
    shEn v = true →
    ∃ w, s.shaperTick.shaper p l = ⟨w, ~~~w⟩ ∧
      shTokens w = (if s.acctPackets then min (shPktBurst v : Int) (shTokens v + shPktRate v)
        else min (shBurst v : Int) (shTokens v + shRate v)) ∧
      shRate w = shRate v ∧ shBurst w = shBurst v ∧ shPktRate w = shPktRate v ∧ shPktBurst w = shPktBurst v ∧
      shEn w = true ∧ s.shaperTick.mem = s.mem) ∧
  (∀ (s : State) (p l : Nat) (v : BitVec 128), s.acctWanted = s.acctPackets → s.shChanges = [] → l < 16 →
    s.shaper p l = ⟨v, ~~~v⟩ → shEn v = false → s.shaperTick.shaper p l = ⟨v, ~~~v⟩) ∧
  (∀ (s : State) (p l n : Nat) (v : BitVec 128), s.shaper p l = ⟨v, ~~~v⟩ → n < 2 ^ 16 →
    -2147418112 ≤ shTokens v →
    ∃ w, (s.charge p l n).shaper p l = ⟨w, ~~~w⟩ ∧ shRate w = shRate v ∧
      shTokens w = shTokens v - (if s.acctPackets then 1 else (n + shOverhead v : Nat)))

/-- With PF0's registers answering, RELEASE of an ACTIVE partition that no reset holds makes it RELEASING, discards what
it has not taken from its rings and its inbound queues, and keeps memory (where no MERGE has a result to report into
it); during a reset it is noted for its end; RELEASE of another partition, and ACTIVATE of one that is not RELEASED,
set PT_ERR_STAT.BAD alone. Once no command of it is taken and no waykey of it closes, the scrub makes every byte
that the partition owns read 0 and changes no other byte; before, it changes nothing. The verification scrubs once
more what does not read as 0, keeps every other byte, makes it RELEASED, or FAULTED with its flag, and ends its
claims on connections. ACTIVATE makes it ACTIVE with every register of its VF at its reset value and its meters at
0. GO of an idle attestation makes it BUSY, another sets PT_ERR_STAT.BAD; its end shows the 448 bytes of the report
and DONE. (R347, R349, R350, R351, R352, R448) -/
def Obligations.PartitionsAreReleasedAndActivated : Prop :=
  (∀ (s : State) (p : Nat), s.pf0 = true → p < 64 → s.part p = .active → (∀ r ∈ s.resets, r.part ≠ p) →
    ∃ t, exec (.release p) s = .next t ∧ (s.noOwnResult → t.mem = s.mem) ∧ t.part p = .releasing ∧
      t.releaseStep p = some .draining ∧ (∀ d ∈ t.inq, d.part ≠ p) ∧
      (∀ e, e < 8 → (t.ring p e).subHead = (t.ring p e).subTail) ∧ ∀ q, q ≠ p → t.part q = s.part q) ∧
  (∀ (s : State) (p : Nat), s.pf0 = true → p < 64 → s.part p = .active → (∃ r ∈ s.resets, r.part = p) →
    (∀ r ∈ s.releasing, r.1 ≠ p) →
    exec (.release p) s = .next (s.setRelease p .delayed) ∧ (s.setRelease p .delayed).releaseStep p = some .delayed) ∧
  (∀ (s : State) (p : Nat) (c : Instr), s.pf0 = true → p < 64 → (s.partPair p).ok = true →
    (c = .release p ∧ s.part p ≠ .active ∨ c = .activate p ∧ s.part p ≠ .released) →
    exec c s = .next (s.setRegB 0 Reg.PT_ERR_STAT 0 true)) ∧
  (∀ (s : State) (p : Nat), s.releaseStep p = some .draining → (∀ c ∈ s.cmds, c.part ≠ p) →
    (∀ e ∈ s.waykeys, wkState e.2.val ≠ 2 ∨ wkPart e.2.val ≠ p) →
    ∃ t, exec (.releaseScrub p) s = .next t ∧ t.releaseStep p = some .scrubbed ∧
      (∀ a, s.owned p (native a) 1 = true → t.byte a = 0) ∧
      (∀ a, s.owned p (native a) 1 = false → t.byte a = s.byte a) ∧ (∀ d ∈ t.dir, d.key.part ≠ p) ∧
      (∀ x ∈ t.slots, x.part ≠ p) ∧ (∀ m ∈ t.images, m.part ≠ p) ∧ ∀ i, i < 1024 → objKind (t.obj p i) = 0xF) ∧
  (∀ (s : State) (p : Nat), (s.releaseStep p ≠ some .draining ∨ ∃ c ∈ s.cmds, c.part = p) →
    exec (.releaseScrub p) s = .next s) ∧
  (∀ (s : State) (p : Nat) (bad : Bool), s.releaseStep p = some .scrubbed →
    ∃ t, exec (.scrubVerify p bad) s = .next t ∧ (∀ a, s.owned p (native a) 1 = true → t.byte a = 0) ∧
      (∀ a, s.owned p (native a) 1 = false → t.byte a = s.byte a) ∧ (∀ r ∈ t.releasing, r.1 ≠ p) ∧
      t.part p = (if bad then .faulted else .released) ∧ (bad = true → t.regB 0 Reg.PT_ERR_STAT 1 = true) ∧
      ∀ i, (t.conn i).owner ≠ some p) ∧
  (∀ (s : State) (p : Nat), s.pf0 = true → p < 64 → s.part p = .released →
    ∃ t, exec (.activate p) s = .next t ∧ t.mem = s.mem ∧ t.part p = .active ∧ t.entries = s.entries ∧
      (∀ off, off < 0x20000 → t.reg (p + 1) off = regReset ((p + 1) * 0x20000 + off)) ∧
      t.meter p = ⟨0, 0, 0, List.replicate 32 0⟩ ∧ (∀ e, e < 8 → (t.ring p e).st = .disabled) ∧
      ∀ q, q ≠ p → t.part q = s.part q) ∧
  (∀ (s : State) (fn : Nat) (v : Word), s.fnServed fn = true → s.life ≠ .recovery → getB v 0 = true →
    s.regB fn Reg.PT_ATT_STAT 0 = false →
    exec (.attestGo fn v) s = .next ({ s with attest := s.attest ++
      [(if fn = 0 then ⟨0, getF v 1 1, getF v 8 6⟩ else ⟨fn, 1, fn - 1⟩ : Attest)] }.setReg fn Reg.PT_ATT_STAT 1)) ∧
  (∀ (s : State) (fn : Nat) (v : Word), s.fnServed fn = true → s.life ≠ .recovery → getB v 0 = true →
    s.regB fn Reg.PT_ATT_STAT 0 = true → exec (.attestGo fn v) s = .next (s.setRegB 0 Reg.PT_ERR_STAT 0 true)) ∧
  (∀ (s : State) (fn : Nat) (a : Attest), s.attest.find? (fun a => a.fn == fn) = some a →
    ∃ t, exec (.attestDone fn) s = .next t ∧ t.mem = s.mem ∧ t.reg fn Reg.PT_ATT_STAT = 2 ∧
      (∀ x ∈ t.attest, x.fn ≠ fn) ∧
      t.regBytes fn Reg.PT_ATT_OUT 112 = s.attestReport a.scope a.part (s.regBytes fn Reg.PT_ATT_NONCE 8))

/-- PRESET of an ACTIVE partition that is not being reset is counted in FX_PRESET_CNT and keeps memory (here and below
where no MERGE has a result to report into it); of any other it changes nothing. ENGINE_RESET notes the engines of
its mask, and ends their plain running commands with ABORTED as PRESET ends the partition's with PARTITION_RESET. A
reset ends once no command of it is left, and then a RELEASE that waited begins. An uncorrectable error of an ACTIVE
partition outside every page slot resets it and leaves the failing unit of storage as zeros and every other byte as
it was; one in the scratch of its column resets it; one in node-reserved firebox on a serving node is a shared fault
with cause 1. A suspect record is re-read no earlier than 1,000 ns after its fault: a pair that then reads valid
leaves all as it was, a waykey that does not is made FREE, a partition entry puts its partition into FAULTED, and a
directory entry is freed. (R363, R365, R366, R394, R398, R458) -/
def Obligations.ResetsOfPartitionsAndEngines : Prop :=
  (∀ (s : State) (p : Nat), s.pf0 = true → p < 64 → s.part p = .active → (∀ r ∈ s.resets, r.part ≠ p) →
    ∃ t, exec (.preset p) s = .next t ∧ (s.noOwnResult → t.mem = s.mem) ∧ counted s t 0 Reg.FX_PRESET_CNT 1 ∧
      t.resets = s.resets ++ [⟨p, [], s.ms⟩] ∧ (∀ d ∈ t.inq, d.part ≠ p) ∧ t.part p = .active) ∧
  (∀ (s : State) (p : Nat), (s.part p ≠ .active ∨ ∃ r ∈ s.resets, r.part = p) → exec (.preset p) s = .next s) ∧
  (∀ (s : State) (fn p : Nat) (v : Word), s.fnServed fn = true → s.life ≠ .recovery →
    p = (if fn = 0 then getF v 8 6 else fn - 1) → engineMask v ≠ [] → s.part p = .active →
    ∃ t, exec (.engineReset fn v) s = .next t ∧ (s.noOwnResult → t.mem = s.mem) ∧ t.engResets = s.engResets ++ [⟨p, engineMask v, s.ms⟩] ∧
      t.rings = s.rings) ∧
  (∀ (s : State) (fn p st : Nat) (v : Word) (i : Instr) (c : Cmd), s.pf0 = true → p < 64 → s.part p = .active →
    (i = .preset p ∧ st = 0x09 ∧ (∀ r ∈ s.resets, r.part ≠ p) ∨
      i = .engineReset fn v ∧ st = 0x0A ∧ s.fnServed fn = true ∧ p = (if fn = 0 then getF v 8 6 else fn - 1) ∧
        c.eng ∈ engineMask v) →
    s.cmd? c.id = some c → c.part = p → c.phase ≠ .ended → s.req? c.id = none → s.merge? c.id = none →
    s.haul? c.id = none → (∀ h ∈ s.holds, h.cmd ≠ c.id) → s.kindle? c.id = none → (∀ j ∈ s.rows, j.cmd ≠ c.id) →
    ∃ t, exec i s = .next t ∧ t.endedWith c.id st) ∧
  (∀ (s : State) (p : Nat), (∃ r ∈ s.resets, r.part = p) → (∀ c ∈ s.cmds, c.part ≠ p) →
    s.releaseStep p ≠ some .delayed →
    exec (.partitionResetEnd p) s = .next { s with resets := s.resets.filter fun r => r.part != p }) ∧
  (∀ (s : State) (p : Nat), (∃ r ∈ s.resets, r.part = p) → (∀ c ∈ s.cmds, c.part ≠ p) →
    s.releaseStep p = some .delayed →
    ∃ t, exec (.partitionResetEnd p) s = .next t ∧ t.mem = s.mem ∧ t.part p = .releasing) ∧
  (∀ (s : State) (p : Nat), ((∀ r ∈ s.resets, r.part ≠ p) ∨ ∃ c ∈ s.cmds, c.part = p) →
    exec (.partitionResetEnd p) s = .next s) ∧
  (∀ (s : State) (p : Nat), (∀ c ∈ s.cmds, c.part = p → c.phase ≠ .ended) →
    exec (.engineResetEnd p) s = .next { s with engResets := s.engResets.filter fun r => r.part != p }) ∧
  (∀ (s : State) (p : Nat) (r : Reset) (c : Cmd), r ∈ s.engResets → r.part = p → c ∈ s.cmds → c.part = p →
    c.eng ∈ r.engines → c.phase = .ended → exec (.engineResetEnd p) s = .next s) ∧
  (∀ (s : State) (a p : Nat), s.hasUE a 1 = true → inReserved a 1 = false → s.ownerOf a = some p → s.part p = .active →
    (∀ r ∈ s.resets, r.part ≠ p) → (∀ x ∈ s.slots, x.part = p → sharesStorage a 1 x.addr x.size = false) →
    ∃ t, exec (.partitionReset a) s = .next t ∧ counted s t 0 Reg.FX_PRESET_CNT 1 ∧
      (s.noOwnResult → t.mem =
        (s.store (unitAddr (unitOf (native a))) (List.replicate (unitBytes (unitOf (native a))) 0)).mem) ∧
      (isHot (native a) = true → rowOf (native a) ∈ t.remapDue)) ∧
  (∀ (s : State) (a : Nat), s.hasUE a 1 = true → inReserved a 1 = true →
    (s.life = .standby ∨ s.life = .service ∨ s.life = .drain) →
    ∃ t, exec (.partitionReset a) s = .next t ∧ (s.noOwnResult → t.mem = s.mem) ∧ t.life = .held ∧ t.regF 0 Reg.FX_STAT 0 3 = 1) ∧
  (∀ (s : State) (a p : Nat), s.hasUE a 1 = false → s.scratchHit a = some p → s.part p = .active →
    (∀ r ∈ s.resets, r.part ≠ p) →
    ∃ t, exec (.partitionReset a) s = .next t ∧ (s.noOwnResult → t.mem = s.mem) ∧ counted s t 0 Reg.FX_PRESET_CNT 1 ∧
      t.scratchUE (columnOf (native a)) 0 32768 = false) ∧
  (∀ (s : State) (a : Nat), s.hasUE a 1 = false → s.scratchHit a = none → exec (.partitionReset a) s = .next s) ∧
  (∀ (s : State) (r : RecRef) (x : Suspect), s.suspects.find? (fun x => x.what == r) = some x →
    s.ft.now.toNat < x.at_ + 1000 → exec (.complementReread r) s = .next s) ∧
  (∀ (s : State) (r : RecRef) (x : Suspect), s.suspects.find? (fun x => x.what == r) = some x →
    x.at_ + 1000 ≤ s.ft.now.toNat →
    ∃ t, exec (.complementReread r) s = .next t ∧ (s.noOwnResult → t.mem = s.mem) ∧
      (s.pairGood r = true → t = { s with suspects := s.suspects.filter fun y => y.what != r }) ∧
      (∀ i, r = .waykey i → (s.waykey i).ok = false → t.waykey i = ⟨0, ~~~0⟩) ∧
      (∀ p e, r = .entry p → s.entry? p = some e → e.ok = false → t.part p = .faulted) ∧
      (∀ p q l d, r = .dir p q l → s.dir? ⟨p, q, l⟩ = some d → d.val? = none → t.dir? ⟨p, q, l⟩ = none))

/-- The complement of the value that the watchdog presents serves it, clears WDOG_WARN and has another value presented,
any other value does nothing; 128 milestones without service set WDOG_WARN, and 256 put a serving node into HELD
with cause 4, neither before. A flit failure short of the eighth in succession is counted in FX_LINK_REPLAY_CNT; at
seven before it, it is counted or is a shared fault (a free value decides whether the same flit fails, log entry 1).
ARM and SESSION of a pack that passes R372 (and, for a session, in SERVICE with the session flag) show it armed with
PACK_ID and no failures, and of any other keep what was armed and set REFUSED; STOP disarms. A probe result with the
CRC-64 expected ends its run alone; a first failure is counted and its unit runs once more; a second failure of a
column fences it, and of another unit on a serving node is a shared fault. Memory is unchanged (for a shared fault
where no MERGE has a result to report into it). (R358, R362, R368, R371, R372, R373, R374, R375) -/
def Obligations.WatchdogLinksAndProbes : Prop :=
  (∀ s : State, s.pwrGood = true →
    ∃ t, exec (.wdogService (~~~s.wdogValue)) s = .next t ∧ t.mem = s.mem ∧ t.wdogAt = s.ms ∧ t.life = s.life ∧
      t.wdogValue ≠ s.wdogValue ∧
      t.regB 0 Reg.FX_STAT 3 = false) ∧
  (∀ (s : State) (v : Word), v ≠ ~~~s.wdogValue → exec (.wdogService v) s = .next s) ∧
  (∀ s : State, s.pwrGood = true → s.wdogAt + 128 ≤ s.ms → s.regB 0 Reg.FX_STAT 3 = false →
    ∃ t, exec .wdogWarn s = .next t ∧ t.mem = s.mem ∧ t.life = s.life ∧ t.regB 0 Reg.FX_STAT 3 = true ∧
      t.regB 0 Reg.PW_ALERT_STAT 2 = true) ∧
  (∀ s : State, s.pwrGood = true → s.wdogAt + 256 ≤ s.ms → (s.life = .standby ∨ s.life = .service ∨ s.life = .drain) →
    ∃ t, exec .wdogExpire s = .next t ∧ (s.noOwnResult → t.mem = s.mem) ∧ t.life = .held ∧ t.regF 0 Reg.FX_STAT 0 3 = 4 ∧
      t.wdogAt = s.ms) ∧
  (∀ s : State, (s.ms < s.wdogAt + 128 → exec .wdogWarn s = .next s) ∧
    (s.ms < s.wdogAt + 256 → exec .wdogExpire s = .next s)) ∧
  (∀ (s : State) (l : Nat), tget (fun _ => 0) s.flits l < 7 →
    ∃ t, exec (.flitCrcFail l) s = .next t ∧ t.mem = s.mem ∧ t.life = s.life ∧
      counted s t 0 Reg.FX_LINK_REPLAY_CNT 1) ∧
  (∀ (s : State) (l : Nat), 7 ≤ tget (fun _ => 0) s.flits l →
    ∃ t, exec (.flitCrcFail l) s = .next t ∧ (s.noOwnResult → t.mem = s.mem) ∧
      (t.life = s.life ∧ counted s t 0 Reg.FX_LINK_REPLAY_CNT 1 ∨ t.sharedFaults = s.sharedFaults + 1)) ∧
  (∀ (s : State) (b : List Byte) (x : Bool), s.pf0 = true →
    b = s.staged 0 (min 16777216 (leNat (s.staged 32 8))) →
    ∃ t, exec (if x then .probeSession else .probeArm) s = .next t ∧ t.mem = s.mem ∧
      (s.packOk b = true → (x = true → s.life = .service ∧ leAt b 2 1 = 1) →
        t.probe = some ⟨b, x, 0, [], []⟩ ∧ t.regB 0 Reg.FX_PROBE_STAT 0 = true ∧ t.regB 0 Reg.FX_PROBE_STAT 1 = x ∧
        t.regF 0 Reg.FX_PROBE_STAT 16 16 = 0 ∧ (t.reg 0 Reg.FX_PROBE_ID_LO).toNat = pkId b % 2 ^ 32) ∧
      ((s.packOk b = false ∨ (x = true ∧ (s.life ≠ .service ∨ leAt b 2 1 ≠ 1))) →
        t.probe = s.probe ∧ t.regB 0 Reg.FX_PROBE_STAT 2 = true)) ∧
  (∀ (s : State) (p : Probe), s.pf0 = true → s.probe = some p →
    ∃ t, exec .probeStop s = .next t ∧ t.mem = s.mem ∧ t.probe = none ∧ t.regB 0 Reg.FX_PROBE_STAT 0 = false ∧
      t.regB 0 Reg.FX_PROBE_STAT 1 = false) ∧
  (∀ (s : State) (p : Probe) (r : ProbeRun) (rest : List ProbeRun) (out : List Byte), s.probe = some p →
    p.running = r :: rest → p.session = false → crc64 out = leAt (pkRecord p.pack r.record) 16 8 →
    exec (.probeResult out) s = .next { s with probe := some { p with running := rest } }) ∧
  (∀ (s : State) (p : Probe) (r : ProbeRun) (rest : List ProbeRun) (out : List Byte), s.probe = some p →
    p.running = r :: rest → p.session = false → crc64 out ≠ leAt (pkRecord p.pack r.record) 16 8 → r.second.get? ≠ some 1 →
    ∃ t, exec (.probeResult out) s = .next t ∧ t.mem = s.mem ∧ t.fences = s.fences ∧ t.life = s.life ∧
      counted s t 0 Reg.FX_PROBE_FAIL_CNT 1 ∧
      t.probe = some { p with running := rest, due := p.due ++ [{ r with second := pairOf 1 }] }) ∧
  (∀ (s : State) (p : Probe) (r : ProbeRun) (rest : List ProbeRun) (out : List Byte), s.probe = some p →
    p.running = r :: rest → p.session = false → crc64 out ≠ leAt (pkRecord p.pack r.record) 16 8 → r.second.get? = some 1 →
    ∃ t, exec (.probeResult out) s = .next t ∧ (s.noOwnResult → t.mem = s.mem) ∧ counted s t 0 Reg.FX_PROBE_FAIL_CNT 1 ∧
      (r.unit ≤ 1 → r.index < 512 → r.index ∈ t.fences ∧ t.life = s.life) ∧
      (1 < r.unit → (s.life = .standby ∨ s.life = .service ∨ s.life = .drain) →
        t.life = .held ∧ t.regF 0 Reg.FX_STAT 0 3 = 3)) ∧
  (∀ (s : State) (out : List Byte), s.probe = none → exec (.probeResult out) s = .next s ∧ exec .probeStop s = .next s)

/-- For a served VF and the key that its registers name, with an open entry and a valid record: GRANT of an OWNER record
to another node makes it GRANTING with the next EPOCH, that node as HOLDER, this one as GRANTOR, no TWIN and the end
of the lease LEASE_TERM from now, ends every pending APPEND of the key, and sends GRANT; TWIN of an OWNER record
puts the node into TWIN; TAKE of a REMOTE or TWIN record whose LEASE_END, if any, lies 2 milestones back makes it
OWNER with EPOCH + 2 and no end, and sends DENY to the former HOLDER. From any other record or to a node that R378
excludes, they set FX_LEASE_STAT.BAD and leave the record; so they do without an entry. READ loads the record's four
words. A message leaves on both management ports when a valid peer entry names its node, on a node that is neither
Adrift nor HELD (log entry 28, the model's choice of what no entry means). Memory is unchanged. (R376, R377, R378,
R382, R383, R390) -/
def Obligations.LeaseCommandsFollowTheirRules : Prop :=
  (∀ (s : State) (fn dst : Nat) (k : DirKey) (d : Dir) (v : BitVec 256) (o : BitVec 128), fn ≠ 0 → s.fnServed fn = true →
    k = s.leaseSel fn → dst = s.regF fn Reg.FX_LEASE_SEL 8 16 → s.dir? k = some d → s.openEntry k = some v →
    d.own? = some o → owState o = 1 → dst ≠ 0 → dst ≠ 0xFFFF → dst ≠ s.nodeId →
    ∃ t d', exec (.leaseGrant fn) s = .next t ∧ t.mem = s.mem ∧ t.dir? k = some d' ∧
      d'.own? = some (owMake (owEpoch o + 1) dst s.nodeId 0 (s.ms + s.leaseTerm) 2) ∧ d'.sentAt = s.ms ∧
      (∀ h ∈ t.holds, h.key ≠ k) ∧
      (s.adrift = false → s.life ≠ .held → ∀ e, s.mpeers.find? (fun e => getB e.2.1 16 && getF e.2.1 0 16 == dst) = some e →
        ∃ b, .lease 0 e.2.2 b ∈ t.out ∧ .lease 1 e.2.2 b ∈ t.out ∧ lmKind b = 1 ∧ lmFrom b = s.nodeId ∧ lmTo b = dst ∧
          lmEpoch b = (owEpoch o + 1) % 2 ^ 32 ∧ lmEnd b = s.ms + s.leaseTerm)) ∧
  (∀ (s : State) (fn dst : Nat) (k : DirKey) (d : Dir) (v : BitVec 256) (o : BitVec 128), fn ≠ 0 → s.fnServed fn = true →
    k = s.leaseSel fn → dst = s.regF fn Reg.FX_LEASE_SEL 8 16 → s.dir? k = some d → s.openEntry k = some v →
    d.own? = some o → owState o = 1 → dst ≠ 0 → dst ≠ 0xFFFF → dst ≠ s.nodeId →
    ∃ t d', exec (.leaseTwin fn) s = .next t ∧ t.mem = s.mem ∧ t.out = s.out ∧ t.holds = s.holds ∧
      t.dir? k = some d' ∧ d'.own? = some (setF o 48 16 dst) ∧ d'.val? = some v) ∧
  (∀ (s : State) (fn : Nat) (k : DirKey) (d : Dir) (v : BitVec 256) (o : BitVec 128), fn ≠ 0 → s.fnServed fn = true →
    k = s.leaseSel fn → s.dir? k = some d → s.openEntry k = some v → d.own? = some o → (owState o = 3 ∨ owState o = 4) →
    (owEnd o = 2 ^ 40 - 1 ∨ s.endMs o + 2 ≤ s.ms) →
    ∃ t d', exec (.leaseTake fn) s = .next t ∧ t.mem = s.mem ∧ t.holds = s.holds ∧ t.dir? k = some d' ∧
      d'.own? = some (owMake (owEpoch o + 2) s.nodeId s.nodeId (owTwin o) (2 ^ 40 - 1) 1) ∧
      (s.adrift = false → s.life ≠ .held →
        ∀ e, s.mpeers.find? (fun e => getB e.2.1 16 && getF e.2.1 0 16 == owHolder o) = some e →
        ∃ b, .lease 0 e.2.2 b ∈ t.out ∧ .lease 1 e.2.2 b ∈ t.out ∧ lmKind b = 4 ∧ lmTo b = owHolder o ∧
          lmEpoch b = (owEpoch o + 2) % 2 ^ 32)) ∧
  (∀ (s : State) (fn dst : Nat) (k : DirKey) (d : Dir) (v : BitVec 256) (o : BitVec 128) (c : Instr), fn ≠ 0 →
    s.fnServed fn = true → k = s.leaseSel fn → dst = s.regF fn Reg.FX_LEASE_SEL 8 16 → s.dir? k = some d →
    s.openEntry k = some v → d.own? = some o →
    ((c = .leaseGrant fn ∨ c = .leaseTwin fn) ∧ (owState o ≠ 1 ∨ dst = 0 ∨ dst = 0xFFFF ∨ dst = s.nodeId) ∨
      c = .leaseTake fn ∧ ((owState o ≠ 3 ∧ owState o ≠ 4) ∨ (owEnd o ≠ 2 ^ 40 - 1 ∧ s.ms < s.endMs o + 2))) →
    ∃ t d', exec c s = .next t ∧ t.mem = s.mem ∧ t.out = s.out ∧ t.holds = s.holds ∧ t.regB fn Reg.FX_LEASE_STAT 0 = true ∧
      t.dir? k = some d' ∧ d'.own? = some o) ∧
  (∀ (s : State) (fn : Nat), fn ≠ 0 → s.fnServed fn = true → s.dir? (s.leaseSel fn) = none →
    exec (.leaseGrant fn) s = .next (s.setRegB fn Reg.FX_LEASE_STAT 0 true) ∧
    exec (.leaseTwin fn) s = .next (s.setRegB fn Reg.FX_LEASE_STAT 0 true) ∧
    exec (.leaseTake fn) s = .next (s.setRegB fn Reg.FX_LEASE_STAT 0 true)) ∧
  (∀ (s : State) (fn j : Nat) (k : DirKey) (d : Dir) (v : BitVec 256) (o : BitVec 128), fn ≠ 0 → s.fnServed fn = true →
    k = s.leaseSel fn → s.dir? k = some d → s.openEntry k = some v → d.own? = some o → j < 4 →
    ∃ t d', exec (.leaseRead fn) s = .next t ∧ t.mem = s.mem ∧ t.dir? k = some d' ∧ d'.own? = some o ∧
      (t.reg fn (Reg.FX_LEASE_W + 4 * j)).toNat = getF o (32 * j) 32)

/-- A lease message whose form or key fails R377 is counted in FX_LEASE_DISC_CNT and does nothing else. On a valid
record: GRANT of a higher EPOCH before its LEASE_END makes a NONE, REMOTE or TWIN record OWNER with the message's
EPOCH, end and sender as GRANTOR, and is answered by RENEW; RENEW of the record's EPOCH makes a GRANTING record (or
leaves this grantor's REMOTE one) REMOTE, and is answered by FINAL; FINAL of the record's EPOCH gives its OWNER no
end and itself as GRANTOR; DENY of a higher EPOCH makes the record REMOTE with that EPOCH and the sender as HOLDER
(log entry 29, the model's choice), and one of an EPOCH no higher leaves it. A GRANTING record sends GRANT again
after 16 milestones, and a held lease sends RENEW after LEASE_TERM / 4. A lease whose LEASE_END has passed without
FINAL becomes REMOTE with its GRANTOR as HOLDER and ends the pending APPENDs of the key; a grantor still GRANTING 2
milestones after LEASE_END, not Adrift, becomes OWNER with the next EPOCH, counted in FX_RECLAIM_CNT. Before their
time the timers leave the record and send nothing. Memory is unchanged. (R377, R378, R379, R380, R381) -/
def Obligations.LeaseMessagesAndTimers : Prop :=
  (∀ (s : State) (n : Nat) (m : List Byte) (c : Instr), (lmKind m = n ∨ lmKind m = 0 ∨ 4 < lmKind m) →
    (n = 1 ∧ c = .grant m ∨ n = 2 ∧ c = .renew m ∨ n = 3 ∧ c = .final m ∨ n = 4 ∧ c = .deny m) →
    (s.leaseForm m = false ∨ s.leaseKey? m = none) →
    exec c s =
      .next (s.setReg 0 Reg.FX_LEASE_DISC_CNT (BitVec.ofNat 32 (min 0xFFFFFFFF ((s.reg 0 Reg.FX_LEASE_DISC_CNT).toNat + 1))))) ∧
  (∀ (s : State) (m : List Byte) (k : DirKey) (d : Dir) (o : BitVec 128), lmKind m = 1 → s.leaseForm m = true →
    s.leaseKey? m = some k → s.dir? k = some d → d.own? = some o → (owState o = 0 ∨ owState o = 3 ∨ owState o = 4) →
    owEpoch o < lmEpoch m → s.ms < lmEnd m →
    ∃ t d', exec (.grant m) s = .next t ∧ t.mem = s.mem ∧ t.dir? k = some d' ∧
      d'.own? = some (owMake (lmEpoch m) s.nodeId (lmFrom m) (owTwin o)
        (if lmEnd m = 2 ^ 64 - 1 then 2 ^ 40 - 1 else lmEnd m) 1) ∧ d'.sentAt = s.ms ∧ d'.final = false ∧
      (s.adrift = false → s.life ≠ .held →
        ∀ e, s.mpeers.find? (fun e => getB e.2.1 16 && getF e.2.1 0 16 == lmFrom m) = some e →
        ∃ b, .lease 0 e.2.2 b ∈ t.out ∧ .lease 1 e.2.2 b ∈ t.out ∧ lmKind b = 2 ∧ lmTo b = lmFrom m ∧
          lmEpoch b = lmEpoch m)) ∧
  (∀ (s : State) (m : List Byte) (k : DirKey) (d : Dir) (o : BitVec 128), lmKind m = 2 → s.leaseForm m = true →
    s.leaseKey? m = some k → s.dir? k = some d → d.own? = some o → lmEpoch m = owEpoch o →
    (owState o = 2 ∨ (owState o = 3 ∧ owGrantor o = s.nodeId)) →
    ∃ t d', exec (.renew m) s = .next t ∧ t.mem = s.mem ∧ t.dir? k = some d' ∧ d'.own? = some (setF o 0 3 3) ∧
      (s.adrift = false → s.life ≠ .held →
        ∀ e, s.mpeers.find? (fun e => getB e.2.1 16 && getF e.2.1 0 16 == lmFrom m) = some e →
        ∃ b, .lease 0 e.2.2 b ∈ t.out ∧ .lease 1 e.2.2 b ∈ t.out ∧ lmKind b = 3 ∧ lmTo b = lmFrom m ∧
          lmEpoch b = owEpoch o)) ∧
  (∀ (s : State) (m : List Byte) (k : DirKey) (d : Dir) (o : BitVec 128), lmKind m = 3 → s.leaseForm m = true →
    s.leaseKey? m = some k → s.dir? k = some d → d.own? = some o → lmEpoch m = owEpoch o → owState o = 1 →
    ∃ t d', exec (.final m) s = .next t ∧ t.mem = s.mem ∧ t.out = s.out ∧ t.dir? k = some d' ∧ d'.final = true ∧
      d'.own? = some (setF (setF o 8 40 (2 ^ 40 - 1)) 64 16 s.nodeId)) ∧
  (∀ (s : State) (m : List Byte) (k : DirKey) (d : Dir) (o : BitVec 128), lmKind m = 4 → s.leaseForm m = true →
    s.leaseKey? m = some k → s.dir? k = some d → d.own? = some o →
    ∃ t d', exec (.deny m) s = .next t ∧ t.mem = s.mem ∧ t.dir? k = some d' ∧
      d'.own? = some (if owEpoch o < lmEpoch m then setF (setF (setF o 96 32 (lmEpoch m)) 80 16 (lmFrom m)) 0 3 3 else o) ∧
      (owEpoch o < lmEpoch m → ∀ h ∈ t.holds, h.key ≠ k)) ∧
  (∀ (s : State) (k : DirKey) (d : Dir) (o : BitVec 128) (n due dst : Nat) (c : Instr), s.dir? k = some d →
    d.own? = some o → s.ms < s.endMs o →
    (c = .grantResend k ∧ n = 1 ∧ owState o = 2 ∧ due = 16 ∧ dst = owHolder o ∨
      c = .renewTimer k ∧ n = 2 ∧ owState o = 1 ∧ owEnd o ≠ 2 ^ 40 - 1 ∧ d.final = false ∧
        due = max 1 (s.leaseTerm / 4) ∧ dst = owGrantor o) →
    ∃ t d', exec c s = .next t ∧ t.mem = s.mem ∧ t.dir? k = some d' ∧ d'.own? = some o ∧
      d'.sentAt = (if d.sentAt + due ≤ s.ms then s.ms else d.sentAt) ∧ (s.ms < d.sentAt + due → t.out = s.out) ∧
      (d.sentAt + due ≤ s.ms → s.adrift = false → s.life ≠ .held →
        ∀ e, s.mpeers.find? (fun e => getB e.2.1 16 && getF e.2.1 0 16 == dst) = some e →
        ∃ b, .lease 0 e.2.2 b ∈ t.out ∧ .lease 1 e.2.2 b ∈ t.out ∧ lmKind b = n ∧ lmTo b = dst ∧
          lmEpoch b = owEpoch o)) ∧
  (∀ (s : State) (k : DirKey) (d : Dir) (o : BitVec 128), s.dir? k = some d → d.own? = some o → owState o = 1 →
    owEnd o ≠ 2 ^ 40 - 1 → s.endMs o ≤ s.ms →
    ∃ t d', exec (.leaseExpire k) s = .next t ∧ t.mem = s.mem ∧ t.dir? k = some d' ∧
      d'.own? = some (setF (setF o 80 16 (owGrantor o)) 0 3 3) ∧ ∀ h ∈ t.holds, h.key ≠ k) ∧
  (∀ (s : State) (k : DirKey) (d : Dir) (o : BitVec 128), s.dir? k = some d → d.own? = some o → owState o = 2 →
    s.endMs o + 2 ≤ s.ms → s.adrift = false →
    ∃ t d', exec (.leaseReclaim k) s = .next t ∧ t.mem = s.mem ∧ t.dir? k = some d' ∧
      d'.own? = some (owMake (owEpoch o + 1) s.nodeId s.nodeId (owTwin o) (2 ^ 40 - 1) 1) ∧
      counted s t 0 Reg.FX_RECLAIM_CNT 1) ∧
  (∀ (s : State) (k : DirKey) (d : Dir) (o : BitVec 128) (c : Instr), s.dir? k = some d → d.own? = some o →
    (c = .leaseExpire k ∧ (owState o ≠ 1 ∨ owEnd o = 2 ^ 40 - 1 ∨ s.ms < s.endMs o) ∨
      c = .leaseReclaim k ∧ (owState o ≠ 2 ∨ s.ms < s.endMs o + 2 ∨ s.adrift = true)) →
    ∃ t d', exec c s = .next t ∧ t.mem = s.mem ∧ t.out = s.out ∧ t.holds = s.holds ∧ t.dir? k = some d' ∧
      d'.own? = some o)

/-- START for a sequence whose layers the node holds, toward a node with an OPEN connection, notes a sending rebuild
with its units in order, names the twin in every held layer, and queues the START image; without a connection it
changes nothing. ABORT ends the sending. A START image of one layer that may be rebuilt makes its record TWIN with
the owner's EPOCH and the layer's PUBLISHED, and notes a receiving rebuild; a UNIT image with a page that fails R78
is not installed and leaves memory; END marks the rebuild done. A write of 1 to a bit of an error register of PF0
clears it, and of 0 leaves it; a write of a ring's size outside DISABLED keeps the register and sets BUSY, and in
DISABLED it is held within 4 and 16; a VF that is not served answers with an Unsupported Request; a counter that is
read answers its value and is 0 after; a register that the function does not have reads 0. (R383, R385, R387, R442,
R446, R452, R453, R455) -/
def Obligations.RebuildsAndRegisters : Prop :=
  (∀ (s : State) (fn seq i : Nat), fn ≠ 0 → s.fnServed fn = true → s.awake = true → s.life ≠ .held →
    seq = s.reg64 fn Reg.FX_LEASE_SEQ_LO Reg.FX_LEASE_SEQ_HI → s.heldLayers (fn - 1) seq ≠ [] →
    8 * (s.heldLayers (fn - 1) seq).length + 64 ≤ 33554432 → (∀ r ∈ s.rebuilds, r.1 = fn - 1 → r.2.mode ≠ 1 ∧ r.2.mode ≠ 2) →
    s.connTo (fn - 1) (s.regF fn Reg.FX_RB_CFG 0 16) = some i →
    ∃ t r m, exec (.rebuildStart fn) s = .next t ∧ t.mem = s.mem ∧ (fn - 1, r) ∈ t.rebuilds ∧ r.mode = 1 ∧ r.seq = seq ∧
      r.conn = some i ∧ r.left = s.rebuildUnits (fn - 1) seq ∧
      (∀ d ∈ s.heldLayers (fn - 1) seq, ∃ d' ∈ t.dir, ∃ o, d.own? = some o ∧ d'.key = d.key ∧ d'.twin = some i ∧
        d'.own? = some (setF o 48 16 (s.regF fn Reg.FX_RB_CFG 0 16))) ∧
      (t.conn i).tx = (s.conn i).tx ++ [m] ∧ m.op = 1 ∧ m.waykey = (s.reg fn Reg.FX_RB_KEY).toNat ∧ m.base = 0 ∧
      m.len = 64 + 8 * (s.heldLayers (fn - 1) seq).length) ∧
  (∀ (s : State) (fn : Nat), s.fnServed fn = true → s.connTo (fn - 1) (s.regF fn Reg.FX_RB_CFG 0 16) = none →
    exec (.rebuildStart fn) s = .next s) ∧
  (∀ (s : State) (fn : Nat), fn ≠ 0 → s.fnServed fn = true →
    ∃ rs, exec (.rebuildAbort fn) s = .next { s with rebuilds := rs } ∧ (∀ r ∈ rs, r.1 = fn - 1 → r.2.mode ≠ 1) ∧
      ∀ r, r.1 ≠ fn - 1 → (r ∈ rs ↔ r ∈ s.rebuilds)) ∧
  (∀ (s : State) (fn conn epoch seq layer pub x0 x1 : Nat) (d : Dir) (v : BitVec 256) (o : BitVec 128), fn ≠ 0 →
    s.part (fn - 1) = .active → s.regB fn Reg.FX_RB_STAGE 31 = true → s.awake = true → s.life ≠ .held →
    s.rebuildable (fn - 1) seq (layer, pub, x0, x1) = true → pub < 2 ^ 24 → epoch < 2 ^ 32 →
    s.dir? ⟨fn - 1, seq, layer⟩ = some d → d.val? = some v → d.own? = some o →
    ∃ t d' r, exec (.rebuildImage fn (.start conn epoch seq [(layer, pub, x0, x1)])) s = .next t ∧ t.mem = s.mem ∧
      t.dir? ⟨fn - 1, seq, layer⟩ = some d' ∧ d'.val? = some (setF v 120 24 pub) ∧ (∃ o', d'.own? = some o' ∧
        owState o' = 4 ∧ owEpoch o' = epoch ∧ owHolder o' = (s.conn conn).peerNode % 65536 ∧ owTwin o' = owTwin o) ∧
      (fn - 1, r) ∈ t.rebuilds ∧ r.mode = 2 ∧ r.seq = seq ∧ r.conn = some conn) ∧
  (∀ (s : State) (fn seq span : Nat) (pages : List (Nat × Nat × List Byte)) (r : Rebuild) (x : Nat × Nat × List Byte),
    fn ≠ 0 → s.part (fn - 1) = .active → s.regB fn Reg.FX_RB_STAGE 31 = true → s.awake = true → s.life ≠ .held →
    s.rebuilds.find? (fun r => r.1 == fn - 1 && r.2.mode == 2 && r.2.seq == seq) = some (fn - 1, r) → span ∈ r.left →
    x ∈ pages → s.pageImage (fn - 1) r.seq x = none →
    ∃ rs r', exec (.rebuildImage fn (.unit seq span pages)) s = .next { s with rebuilds := rs } ∧ (fn - 1, r') ∈ rs ∧
      r'.left = r.left ∧ (r'.unitFail = true ∨ span ∈ r'.again)) ∧
  (∀ (s : State) (fn seq : Nat) (r : Rebuild), fn ≠ 0 → s.part (fn - 1) = .active → s.regB fn Reg.FX_RB_STAGE 31 = true →
    s.awake = true → s.life ≠ .held →
    s.rebuilds.find? (fun r => r.1 == fn - 1 && r.2.mode == 2 && r.2.seq == seq) = some (fn - 1, r) →
    ∃ rs, exec (.rebuildImage fn (.fin seq)) s = .next { s with rebuilds := rs } ∧
      (fn - 1, { r with mode := 0, done := true }) ∈ rs ∧ ∀ x ∈ rs, x.1 = fn - 1 → x.2.mode ≠ 2) ∧
  (∀ (s : State) (off : Nat) (m v : Word), s.pf0 = true →
    (off, m) ∈ [(Reg.MT_ERR_STAT, (0x7 : Word)), (Reg.PG_ERR_STAT, 0xF), (Reg.FL_ERR_STAT, 0x7), (Reg.AT_ERR_STAT, 0xF),
      (Reg.MG_ERR_STAT, 0x7F), (Reg.KN_ERR_STAT, 0xF), (Reg.PR_ERR_STAT, 0x3), (Reg.RT_ERR_STAT, 0x1),
      (Reg.SHP_ERR_STAT, 0x7), (Reg.PT_ERR_STAT, 0x3), (Reg.FX_ERR_STAT, 0x1F), (Reg.LS_ERR_STAT, 0x1)] →
    exec (.registerWrite 0 off v) s = .next (s.setReg 0 off (s.reg 0 off &&& ~~~(v &&& m)))) ∧
  (∀ (s : State) (fn e off : Nat) (v : Word), fn ≠ 0 → s.fnServed fn = true → s.life ≠ .recovery → e < 6 →
    off = Reg.CQ_RING_CFG + 0x40 * e →
    ∃ t, exec (.registerWrite fn off v) s = .next t ∧ t.mem = s.mem ∧ t.rings = s.rings ∧
      ((s.ring (fn - 1) e).st ≠ .disabled → t.reg fn off = s.reg fn off ∧ t.regB fn Reg.CQ_ERR_STAT 1 = true) ∧
      ((s.ring (fn - 1) e).st = .disabled → t.regF fn off 0 5 = max 4 (min 16 (getF v 0 5)) ∧
        t.regF fn off 8 5 = max 4 (min 16 (getF v 8 5)))) ∧
  (∀ (s : State) (fn off bar : Nat) (v : Word), s.lodgeAnswers = true → s.fnExists fn = true → s.fnServed fn = false →
    exec (.registerWrite fn off v) s = .next { s with out := .unsupported :: s.out } ∧
    exec (.counterRead fn bar off) s = .next { s with out := .unsupported :: s.out }) ∧
  (∀ (s : State) (off : Nat), s.pf0 = true →
    off ∈ [Reg.FT_BCN_ACC, Reg.FT_BCN_DISC, Reg.FT_OVERRUN_CNT, Reg.MT_UNMAPPED_CNT, Reg.MT_CPL_FAULT_CNT,
      Reg.PG_APPEND_CNT, Reg.FL_CE_CNT, Reg.AT_REQ_CNT, Reg.MG_SEAL_CNT, Reg.RT_RX_DISC_CNT, Reg.FX_PRESET_CNT,
      Reg.LS_FLR_CNT] →
    exec (.counterRead 0 0 off) s = .next { s.setReg 0 off 0 with out := .regData (s.reg 0 off) :: s.out }) ∧
  (∀ (s : State) (fn off : Nat), s.fnServed fn = true → s.hasReg fn off = false →
    exec (.counterRead fn 0 off) s = .next { s with out := .regData 0 :: s.out } ∧
    ∀ v, exec (.registerWrite fn off v) s = .next s)

/-- With PF0 served and no STANDBY waiting: SERVICE from STANDBY or DRAIN with UNSET at 0 gives SERVICE; DRAIN from
SERVICE gives DRAIN; STANDBY from SERVICE or DRAIN leaves the life state and waits; STANDBY is entered once no taken
command is incomplete and no verdict is owed; HOLD from STANDBY, SERVICE or DRAIN gives HELD with HELD_CAUSE 0. A
request from another state, or SERVICE while UNSET is 1, sets BAD_REQ alone. (R29, R391, R393) -/
def Obligations.LifeRequestsFollowTheTable : Prop :=
  (∀ s : State, s.fnServed 0 = true → s.standbyWanted = false → (s.life = .standby ∨ s.life = .drain) →
    s.regB 0 Reg.FT_STAT 8 = false →
    ∃ t, exec .service s = .next t ∧ t.life = .service ∧ t.mem = s.mem ∧ t.regs = s.regs) ∧
  (∀ s : State, s.fnServed 0 = true → s.standbyWanted = false →
    ((s.life ≠ .standby ∧ s.life ≠ .drain) ∨ s.regB 0 Reg.FT_STAT 8 = true) →
    exec .service s = .next (s.setRegB 0 Reg.LS_ERR_STAT 0 true)) ∧
  (∀ s : State, s.fnServed 0 = true → s.standbyWanted = false → s.life = .service →
    ∃ t, exec .drain s = .next t ∧ t.life = .drain ∧ t.mem = s.mem ∧ t.regs = s.regs) ∧
  (∀ s : State, s.fnServed 0 = true → s.standbyWanted = false → s.life ≠ .service →
    exec .drain s = .next (s.setRegB 0 Reg.LS_ERR_STAT 0 true)) ∧
  (∀ s : State, s.fnServed 0 = true → s.standbyWanted = false → (s.life = .service ∨ s.life = .drain) →
    exec .standby s = .next { s with standbyWanted := true }) ∧
  (∀ s : State, s.fnServed 0 = true → s.standbyWanted = false → s.life ≠ .service → s.life ≠ .drain →
    exec .standby s = .next (s.setRegB 0 Reg.LS_ERR_STAT 0 true)) ∧
  (∀ s : State, s.standbyWanted = true → s.life ≠ .standby → s.cmds = [] →
    (∀ e ∈ s.sent, e.early = true → e.verdict.isSome = true) →
    ∃ t, exec .standbyEnter s = .next t ∧ t.life = .standby ∧ t.standbyWanted = false ∧ t.mem = s.mem ∧
      t.regs = s.regs) ∧
  (∀ s : State, s.cmds ≠ [] → exec .standbyEnter s = .next s) ∧
  (∀ s : State, s.fnServed 0 = true → (s.life = .standby ∨ s.life = .service ∨ s.life = .drain) →
    ∃ t, exec .hold s = .next t ∧ t.life = .held ∧ t.standbyWanted = false) ∧
  (∀ s : State, s.fnServed 0 = true → s.life ≠ .standby → s.life ≠ .service → s.life ≠ .drain →
    exec .hold s = .next (s.setRegB 0 Reg.LS_ERR_STAT 0 true))

/-- REBOOT with PF0 served, a TFTP reboot in RECOVERY, and the tray's second reset byte put the node into BOOT with
every byte of the hot and warm tiers, the charter and firmware files (no write running) and fabric time at 0, and
record their cause: 1, or 2 for REBOOT with RCV, 1 for TFTP, 3 for the tray. The first tray byte arms the second,
any other byte disarms it, and so does the end of its window. PWR_GOOD low for less than 1 µs changes nothing; for 1
µs or longer it empties memory and holds the node in reset, and so does THERMTRIP, which also drives its pin. (R395,
R400, R421, R423, R433) -/
def Obligations.ResetsKeepWhatTheyMayKeep : Prop :=
  (∀ (s : State) (rcv : Bool), s.fnServed 0 = true →
    ∃ t, exec (.reboot rcv) s = .next t ∧ t.life = .boot ∧ t.pwrGood = true ∧ t.cause = (if rcv then 2 else 1) ∧
      (s.rcvWriting = none → t.flash = s.flash) ∧ t.ft.now = 0 ∧ t.regs = [] ∧
      ∀ a, 0x010000000000 ≤ native a → t.byte a = s.byte a) ∧
  (∀ s : State, s.life = .recovery →
    ∃ t, exec .tftpReboot s = .next t ∧ t.life = .boot ∧ t.pwrGood = true ∧ t.cause = 1 ∧
      (s.rcvWriting = none → t.flash = s.flash) ∧ ∀ a, 0x010000000000 ≤ native a → t.byte a = s.byte a) ∧
  (∀ s : State, s.pwrGood = true → s.i3c.armed = true →
    ∃ t, exec (.trayResetCommand 0x5A) s = .next t ∧ t.life = .boot ∧ t.pwrGood = true ∧ t.cause = 3 ∧
      t.i3c.armed = false ∧ ∀ a, 0x010000000000 ≤ native a → t.byte a = s.byte a) ∧
  (∀ (s : State) (b : Byte), s.pwrGood = true → (b ≠ 0x5A ∨ s.i3c.armed = false) →
    exec (.trayResetCommand b) s = .next { s with i3c := { s.i3c with armed := b == 0xA5, index := 0x10 } }) ∧
  (∀ s : State, exec .trayResetWindowExpire s = .next { s with i3c := { s.i3c with armed := false } }) ∧
  (∀ (s : State) (ns : Nat), ns < 1000 → exec (.pwrGoodLow ns) s = .next s) ∧
  (∀ (s : State) (ns : Nat), 1000 ≤ ns →
    ∃ t, exec (.pwrGoodLow ns) s = .next t ∧ t.life = .boot ∧ t.pwrGood = false ∧ t.mem = [] ∧ t.regs = [] ∧
      (s.rcvWriting = none → t.flash = s.flash)) ∧
  (∀ s : State, s.pwrGood = true →
    ∃ t, exec .thermtrip s = .next t ∧ t.pwrGood = false ∧ t.thermTripped = true ∧ t.mem = [] ∧
      t.out = .thermtrip :: s.out)

/-- For a node in BOOT that has not tripped: boot samples the straps with PWR_GOOD high and ends in RECOVERY, HELD or
STANDBY. An SPI image that fails its check ends in RECOVERY with cause 2; a good one of a device whose PUF gives no
seed with cause 3; with its seed and the recovery strap with cause 1. STANDBY is reached only with the lock closed
and the charter of the flash in force. (R336, R341, R407, R408) -/
def Obligations.BootEndsInOneOfThreeStates : Prop :=
  (∀ (s : State) (env : BootEnv), s.life = .boot → s.thermTripped = false →
    ∃ t, exec (.powerOnReset env) s = .next t ∧ t.pwrGood = true ∧
      (t.life = .recovery ∨ t.life = .held ∨ t.life = .standby) ∧
      (t.life = .standby → t.regB 0 Reg.PT_LOCK 0 = true ∧ t.charter = s.flash.charter ∧ t.charter.isSome = true) ∧
      (fwCode s.flash.firmware ≠ 0 → t.life = .recovery ∧ t.regF 0 Reg.LS_STATE 8 4 = 2 ∧ t.mem = s.mem) ∧
      (fwCode s.flash.firmware = 0 → env.pufOk = false → t.life = .recovery ∧ t.regF 0 Reg.LS_STATE 8 4 = 3) ∧
      (fwCode s.flash.firmware = 0 → env.pufOk = true → env.strapBoot % 2 = 1 →
        t.life = .recovery ∧ t.regF 0 Reg.LS_STATE 8 4 = 1)) ∧
  (∀ (s : State) (env : BootEnv), s.life ≠ .boot ∨ s.thermTripped = true → exec (.powerOnReset env) s = .next s)

/-- A Hot Reset or a link loss while the link is up, and PERST when it was not asserted, take the link down, clear
NumVFs and VF Enable, disable every ring, and leave memory as it is. PERST release lets the link train, which comes
up on a powered node whose strap does not disable it. With the link up and VF Enable clear, VF_ENABLE with at most
64 VFs stores NumVFs and VF Enable alone. An FLR of an existing VF disables the rings of its partition, changes no
memory (where no MERGE has a result to report into it), and leaves the rings of other partitions. (R256, R396, R397,
R405, R409, R439) -/
def Obligations.LodgeAndFunctions : Prop :=
  (∀ (s : State) (c : LodgeCause), (c ≠ .perst → s.lodge.linkUp = true) → (c = .perst → s.lodge.perst = false) →
    ∃ t, exec (.lodgeReset c) s = .next t ∧ t.mem = s.mem ∧ t.rings = [] ∧ t.lodge.linkUp = false ∧
      t.lodge.numVfs = 0 ∧ t.lodge.vfEnable = false ∧ (c = .perst → t.lodge.perst = true)) ∧
  (∀ s : State, exec .perstRelease s = .next { s with lodge := { s.lodge with perst := false } }) ∧
  (∀ s : State, s.pwrGood = true → s.lodge.perst = false → getF s.straps 2 2 ≠ 3 →
    exec .lodgeLinkUp s = .next { s with lodge := { s.lodge with linkUp := true } }) ∧
  (∀ s : State, getF s.straps 2 2 = 3 ∨ s.lodge.perst = true → exec .lodgeLinkUp s = .next s) ∧
  (∀ (s : State) (n : Nat) (b : Bool), s.lodgeAnswers = true → n ≤ 64 → s.lodge.vfEnable = false →
    exec (.vfEnable n b) s = .next { s with lodge := { s.lodge with numVfs := n, vfEnable := b } }) ∧
  (∀ (s : State) (fn : Nat), s.lodgeAnswers = true → s.fnExists fn = true → fn ≠ 0 →
    ∃ t, exec (.functionLevelReset fn) s = .next t ∧ (s.noOwnResult → t.mem = s.mem) ∧ t.lodge = s.lodge ∧
      ∀ p e, e < 8 → t.ring p e = if p = fn - 1 then ⟨.disabled, 0, 0, 0, 0⟩ else s.ring p e)

/-- With PF0's registers answering, a write of LS_PWR_CTL with TARGET 0, 1 or 2 stores it and makes the state that it
names (Banked in D3hot) the wanted one, leaving the power state; TARGET 3 leaves the field. D_STATE_CHANGE into
D3hot makes Banked the wanted state. POWER_STATE_CHANGE away from nanosecond 0 of such a milestone changes nothing;
there it takes Lit to Damped when no KINDLE executes, and starts the firebox save toward Banked when no ATTEND,
MERGE or KINDLE is in flight; the save's end is noted, and the change applies only after it. (R401, R402, R403,
R416) -/
def Obligations.PowerStatesChangeAtTheirBoundary : Prop :=
  (∀ (s : State) (v : Word), s.pf0 = true → getF v 0 2 ≠ 3 →
    ∃ t, exec (.powerTarget v) s = .next t ∧ t.mem = s.mem ∧ t.power = s.power ∧
      t.regF 0 Reg.LS_PWR_CTL 0 2 = getF v 0 2 ∧
      t.powerWant = (if s.lodge.d3hot then .banked else if getF v 0 2 = 0 then .lit
        else if getF v 0 2 = 1 then .damped else .banked)) ∧
  (∀ (s : State) (v : Word), s.pf0 = true → getF v 0 2 = 3 →
    ∃ t, exec (.powerTarget v) s = .next t ∧ t.regs = s.regs ∧ t.power = s.power) ∧
  (∀ s : State, s.lodgeAnswers = true →
    ∃ t, exec (.dStateChange true) s = .next t ∧ t.mem = s.mem ∧ t.power = s.power ∧ t.powerWant = .banked ∧
      t.lodge.d3hot = true) ∧
  (∀ s : State, s.ms % 64 ≠ 0 ∨ s.ns ≠ 0 → exec .powerStateChange s = .next s) ∧
  (∀ s : State, s.ms % 64 = 0 → s.ns = 0 → s.powerNext = none → s.power = .lit → s.powerWant = .damped →
    (∀ k ∈ s.kindles, k.executing = false) →
    ∃ t, exec .powerStateChange s = .next t ∧ t.mem = s.mem ∧ t.power = .damped) ∧
  (∀ s : State, s.ms % 64 = 0 → s.ns = 0 → s.powerNext = none → s.power = .lit → s.powerWant = .banked →
    s.life ≠ .boot → s.life ≠ .recovery → s.enginesIdle = true →
    exec .powerStateChange s = .next { s with powerNext := some .banked, saving := true }) ∧
  (∀ s : State, s.saving = true → exec .fireboxSaveDone s = .next { s with saving := false }) ∧
  (∀ (s : State) (p : Power), s.ms % 64 = 0 → s.ns = 0 → s.powerNext = some p → s.power ≠ .banked → s.saving = false →
    ∃ t, exec .powerStateChange s = .next t ∧ t.mem = s.mem ∧ t.power = p ∧ t.powerNext = none) ∧
  (∀ (s : State) (p : Power), s.powerNext = some p → s.saving = true → exec .powerStateChange s = .next s)

/-- With PF0 served, RECOVERY_COMMIT outside RECOVERY answers FAILED with code 5; in RECOVERY a file that passes its
checks starts its SPI write, and one that fails answers FAILED with the code of the check. When the write ends well
the flash holds the file and the status is done with code 0, else code 4. Staged bytes land at their offset, through
the window that the life state decodes. A TFTP write in RECOVERY of a file that fails is answered with an error, a
TFTP read with error 2, and outside RECOVERY neither does anything. A management port that waits for DHCP takes the
address of a reply, or a link-local one (16 bits of it a free value). A repair record write that succeeds makes the
remaps and fences the record that boot uses, one that fails leaves the record in force and the write still due, and
either leaves one copy, the firmware and the charter; with nothing changed none is made. (R406, R410, R411, R412,
R413, R450) -/
def Obligations.RecoveryWritesTheFlash : Prop :=
  (∀ (s : State) (v : Word), s.fnServed 0 = true → getB v 0 = true → s.life ≠ .recovery →
    exec (.recoveryCommit v) s = .next (s.setReg 0 Reg.LS_RCV_STAT (BitVec.ofNat 32 (3 * 2 ^ 30 + 5 * 2 ^ 8)))) ∧
  (∀ (s : State) (v : Word) (f : RcvFile) (b : List Byte), s.fnServed 0 = true → getB v 0 = true → s.life = .recovery →
    s.rcvWriting = none → getF v 8 2 = (if f = .firmware then 0 else 1) → b = s.staged 0 (s.regF 0 Reg.LS_RCV_LEN 0 25) →
    ∃ t, exec (.recoveryCommit v) s = .next t ∧ t.mem = s.mem ∧ t.flash = s.flash ∧
      (s.fileCode f b = 0 → t.rcvWriting = some (f, b) ∧ t.regF 0 Reg.LS_RCV_STAT 30 2 = 2) ∧
      (s.fileCode f b ≠ 0 → t.rcvWriting = none ∧ t.regF 0 Reg.LS_RCV_STAT 30 2 = 3)) ∧
  (∀ (s : State) (f : RcvFile) (b : List Byte), s.rcvWriting = some (f, b) →
    ∃ t, exec (.recoveryWriteDone true) s = .next t ∧ t.mem = s.mem ∧ t.rcvWriting = none ∧
      t.regF 0 Reg.LS_RCV_STAT 8 8 = 0 ∧
      t.flash = (if f = .firmware then { s.flash with firmware := b } else { s.flash with charter := some b })) ∧
  (∀ (s : State) (f : RcvFile) (b : List Byte), s.rcvWriting = some (f, b) →
    ∃ t, exec (.recoveryWriteDone false) s = .next t ∧ t.mem = s.mem ∧ t.rcvWriting = none ∧
      t.regF 0 Reg.LS_RCV_STAT 8 8 = 4) ∧
  (∀ (s : State) (r : Bool) (off : Nat) (data : List Byte), s.fnServed 0 = true → r = (s.life == .recovery) →
    off + data.length ≤ 16777216 →
    ∃ t, exec (.stagingWrite r off data) s = .next t ∧ t.mem = s.mem ∧ t.regs = s.regs ∧
      ∀ k, tget (fun _ => 0) t.staging k =
        if off ≤ k ∧ k < off + data.length then data.getD (k - off) 0 else tget (fun _ => 0) s.staging k) ∧
  (∀ (s : State) (f : RcvFile) (data : List Byte), s.life = .recovery → s.rcvWriting = none → data.length ≤ 16777216 →
    ∃ t, exec (.tftpWrite f data) s = .next t ∧ t.mem = s.mem ∧ t.flash = s.flash ∧
      (s.fileCode f data = 0 → t.rcvWriting = some (f, data) ∧ t.out = s.out) ∧
      (s.fileCode f data ≠ 0 → t.rcvWriting = none ∧ ∃ bs, t.out = .tftp bs :: s.out)) ∧
  (∀ s : State, s.life = .recovery → exec .tftpRead s = .next (s.emit (.tftp [0, 5, 0, 2, 0]))) ∧
  (∀ (s : State) (f : RcvFile) (data : List Byte), s.life ≠ .recovery →
    exec (.tftpWrite f data) s = .next s ∧ exec .tftpRead s = .next s) ∧
  (∀ (s : State) (port : Nat) (ip : Word), s.life = .recovery → s.mgmt = [(0, ⟨none, true⟩), (1, ⟨none, true⟩)] →
    port < 2 → ∃ t, exec (.dhcpReply port ip) s = .next t ∧ t.mem = s.mem ∧ (port, ⟨some ip, false⟩) ∈ t.mgmt ∧
      (1 - port, ⟨none, true⟩) ∈ t.mgmt) ∧
  (∀ (s : State) (port : Nat), s.life = .recovery → s.mgmt = [(0, ⟨none, true⟩), (1, ⟨none, true⟩)] → port < 2 →
    ∃ t ip, exec (.dhcpTimeout port) s = .next t ∧ t.mem = s.mem ∧ (port, ⟨some ip, false⟩) ∈ t.mgmt ∧
      getF ip 16 16 = 0xA9FE) ∧
  (∀ (s : State) (ok : Bool), s.repairDirty.isSome = true →
    ∃ fl, exec (.repairRecordWrite ok) s = .next { s with
        flash := fl, repairDirty := if ok then none else s.repairDirty } ∧
      fl.repair = (if ok then (s.remaps, s.fences) else s.flash.repair) ∧ fl.firmware = s.flash.firmware ∧
      fl.charter = s.flash.charter ∧ (fl.copyA = s.flash.copyA ∨ fl.copyB = s.flash.copyB)) ∧
  (∀ (s : State) (ok : Bool), s.repairDirty = none → exec (.repairRecordWrite ok) s = .next s)

/-- On a powered node: SETDASA stores the address, ENEC and DISEC the in-band interrupt enable, a private write the
index, and a private read answers as many bytes as asked from the index on, where index 0x01 is PW_ALERT_STAT and,
outside RECOVERY, 0x02 and 0x03 are the node ID and 0x08 the operating point. ALERT_CLEAR clears the bits written 1
whose condition is gone and leaves the bits whose condition is present. (R422, R423) -/
def Obligations.TrayInterfaceAndAlerts : Prop :=
  (∀ (s : State) (a : Nat), s.pwrGood = true → a < 128 →
    exec (.i3cSetdasa a) s = .next { s with i3c := { s.i3c with addr := some a } }) ∧
  (∀ (s : State) (b : Bool), s.pwrGood = true →
    exec (.i3cEnecDisec b) s = .next { s with i3c := { s.i3c with ibi := b } }) ∧
  (∀ (s : State) (i : Nat), s.pwrGood = true → i < 256 →
    exec (.i3cPrivateWrite i) s = .next { s with i3c := { s.i3c with index := i } }) ∧
  (∀ (s : State) (n : Nat), s.pwrGood = true →
    ∃ bs, exec (.i3cPrivateRead n) s = .next { s with out := .i3c bs :: s.out } ∧ bs.length = n ∧
      ∀ k, k < n → (s.i3c.index + k = 1 → bs.getD k 0 = BitVec.ofNat 8 (s.regF 0 Reg.PW_ALERT_STAT 0 8)) ∧
        (s.i3c.index + k = 2 → s.life ≠ .recovery → bs.getD k 0 = BitVec.ofNat 8 s.nodeId) ∧
        (s.i3c.index + k = 3 → s.life ≠ .recovery → bs.getD k 0 = BitVec.ofNat 8 (s.nodeId / 256)) ∧
        (s.i3c.index + k = 8 → s.life ≠ .recovery →
          bs.getD k 0 = BitVec.ofNat 8 (s.regF 0 Reg.FT_OPP_CUR 0 2)) ∧
        (2 ≤ s.i3c.index + k → s.life = .recovery → bs.getD k 0 = 0)) ∧
  (∀ (s : State) (b : Byte) (i : Nat), s.pwrGood = true → i < 8 →
    ∃ t, exec (.alertClear b) s = .next t ∧ t.mem = s.mem ∧
      t.regB 0 Reg.PW_ALERT_STAT i =
        (s.regB 0 Reg.PW_ALERT_STAT i && !(getB b i && !s.alertCond i)))

/-- At a milestone with N mod 64 = 32, once, the thermal decision gives each input the index of its thresholds and
hysteresis, and the operating point is the highest of the two temperature indexes, the power index and the minimum
of PW_CFG, or 3 while a failed AVSBus command holds it; at any other milestone it does nothing. Ascending thresholds
clamped to 104 are stored, others set THERM_BAD alone. A scan stores what each answering rail reads. A low
VR_ALERT_N and a twice-failed AVSBus command raise cause 5, and the latter holds point 3. A JTAG instruction is
loaded, and the node says which acts. (R424, R428, R432, R437) -/
def Obligations.ThermalAndSupplyControl : Prop :=
  (∀ s : State, s.pwrGood = true → s.ms % 64 = 32 → s.therm.decidedAt ≠ some s.ms →
    ∃ t, exec .thermalDecision s = .next t ∧ t.mem = s.mem ∧ t.therm.decidedAt = some s.ms ∧
      t.therm.idxDram = thermIndex s.therm.maxDram [85, 89, 93] (s.regF 0 Reg.PW_THERM 24 4) s.therm.idxDram ∧
      t.therm.idxLogic = thermIndex s.therm.maxLogic [s.regF 0 Reg.PW_THERM 0 8, s.regF 0 Reg.PW_THERM 8 8,
        s.regF 0 Reg.PW_THERM 16 8] (s.regF 0 Reg.PW_THERM 24 4) s.therm.idxLogic ∧
      t.therm.chosen = (if s.volt.hold3 then 3 else max (max (max t.therm.idxLogic t.therm.idxDram) t.therm.idxPower)
        (s.regF 0 Reg.PW_CFG 0 2))) ∧
  (∀ s : State, s.ms % 64 ≠ 32 ∨ s.therm.decidedAt = some s.ms → exec .thermalDecision s = .next s) ∧
  (∀ (s : State) (v : Word), s.pf0 = true → min 104 (getF v 0 8) < min 104 (getF v 8 8) →
    min 104 (getF v 8 8) < min 104 (getF v 16 8) →
    ∃ t, exec (.pwThermWrite v) s = .next t ∧ t.mem = s.mem ∧ t.regF 0 Reg.PW_THERM 0 8 = min 104 (getF v 0 8) ∧
      t.regF 0 Reg.PW_THERM 8 8 = min 104 (getF v 8 8) ∧ t.regF 0 Reg.PW_THERM 16 8 = min 104 (getF v 16 8) ∧
      t.regF 0 Reg.PW_THERM 24 4 = getF v 24 4) ∧
  (∀ (s : State) (v : Word), s.pf0 = true →
    (min 104 (getF v 8 8) ≤ min 104 (getF v 0 8) ∨ min 104 (getF v 16 8) ≤ min 104 (getF v 8 8)) →
    exec (.pwThermWrite v) s = .next (s.setRegB 0 Reg.PW_STAT 8 true)) ∧
  (∀ (s : State) (rs : List (Option (Nat × Nat))) (r mv i : Nat), s.pwrGood = true → r < 15 →
    rs.getD r none = some (mv, i) → mv < 65536 → i < 65536 →
    ∃ t, exec (.pmbusScan rs) s = .next t ∧ t.mem = s.mem ∧
      t.reg 0 (Reg.PW_RAIL + 4 * r) = BitVec.ofNat 32 (i + mv * 2 ^ 16)) ∧
  (∀ s : State, s.pwrGood = true →
    ∃ t, exec (.vrAlert true) s = .next t ∧ t.mem = s.mem ∧ t.volt.vrLow = true ∧ t.regB 0 Reg.PW_ALERT_STAT 5 = true) ∧
  (∀ s : State, exec (.vrAlert false) s = .next { s with volt := { s.volt with vrLow := false } }) ∧
  (∀ s : State, s.pwrGood = true → exec (.avsNack true) s = .next (s.emit (.avs s.volt.point))) ∧
  (∀ s : State, s.pwrGood = true →
    ∃ t, exec (.avsNack false) s = .next t ∧ t.mem = s.mem ∧ t.volt.hold3 = true ∧ t.therm.chosen = 3 ∧
      t.regB 0 Reg.PW_ALERT_STAT 5 = true) ∧
  (∀ (s : State) (n : Nat), n < 256 →
    ∃ t a i, exec (.jtagInstruction n) s = .next t ∧ t.jtag = n ∧ t.mem = s.mem ∧ t.regs = s.regs ∧
      t.out = .jtag a i :: s.out ∧ (n = 2 → i = some 0x1C160E2B) ∧
      (a = n ∨ a = 0xFF) ∧ (n = 0 → s.life ≠ .boot → s.life ≠ .recovery → a = 0xFF))
end

