-- ==== Sys2Proof/Laws/Field.lean ====
section
/-!
SUPPORT. The laws of bit fields: a field reads what was written into it, and other fields and bits are left.
-/

namespace Sys2Proof

/-- The bits of a field. -/
theorem getF_testBit {n : Nat} (v : BitVec n) (lo w i : Nat) :
    (getF v lo w).testBit i = (decide (i < w) && v.getLsbD (lo + i)) := by
  simp [getF, Nat.testBit_mod_two_pow, Nat.testBit_shiftRight, BitVec.testBit_toNat]

/-- A field fits its width. -/
theorem getF_lt {n : Nat} (v : BitVec n) (lo w : Nat) : getF v lo w < 2 ^ w := Nat.mod_lt _ (Nat.two_pow_pos w)

/-- The bits of the mask of a field. -/
theorem maskF_getLsbD (n lo w i : Nat) : (maskF n lo w).getLsbD i = decide (i < n ∧ lo ≤ i ∧ i < lo + w) := by
  simp only [maskF, BitVec.getLsbD_shiftLeft, BitVec.getLsbD_ofNat, Nat.testBit_two_pow_sub_one]
  by_cases h1 : i < n <;> by_cases h2 : lo ≤ i <;> by_cases h3 : i < lo + w <;> simp [h1, h2, h3] <;> omega

/-- The bits of a value with one field replaced. -/
theorem setF_getLsbD {n : Nat} (v : BitVec n) (lo w x i : Nat) :
    (setF v lo w x).getLsbD i = if i < n ∧ lo ≤ i ∧ i < lo + w then x.testBit (i - lo) else v.getLsbD i := by
  simp only [setF, BitVec.getLsbD_or, BitVec.getLsbD_and, BitVec.getLsbD_not, maskF_getLsbD, BitVec.getLsbD_shiftLeft,
    BitVec.getLsbD_ofNat]
  by_cases h1 : i < n
  · by_cases h2 : lo ≤ i
    · by_cases h3 : i < lo + w
      · have h4 : i - lo < n := by omega
        simp [h1, h2, h3, h4, Nat.not_lt.2 h2]
      · simp [h1, h2, h3]
    · simp [h1, h2]
  · have := BitVec.getLsbD_of_ge v i (not_lt.1 h1)
    simp [h1, this]

/-- A replaced field reads as what was written. -/
theorem getF_setF_same {n : Nat} (v : BitVec n) (lo w x : Nat) (h : lo + w ≤ n) :
    getF (setF v lo w x) lo w = x % 2 ^ w := by
  refine Nat.eq_of_testBit_eq fun i => ?_
  rw [getF_testBit, setF_getLsbD, Nat.testBit_mod_two_pow]
  by_cases hi : i < w
  · have : lo + i < n ∧ lo ≤ lo + i ∧ lo + i < lo + w := ⟨by omega, by omega, by omega⟩
    rw [if_pos this]
    simp [hi]
  · simp [hi]

/-- Replacing a field leaves the fields beside it. -/
theorem getF_setF_other {n : Nat} (v : BitVec n) {lo w x lo' w' : Nat} (h : lo' + w' ≤ lo ∨ lo + w ≤ lo') :
    getF (setF v lo w x) lo' w' = getF v lo' w' := by
  refine Nat.eq_of_testBit_eq fun i => ?_
  rw [getF_testBit, getF_testBit, setF_getLsbD]
  by_cases hi : i < w'
  · have : ¬(lo' + i < n ∧ lo ≤ lo' + i ∧ lo' + i < lo + w) := by omega
    rw [if_neg this]
  · simp [hi]

/-- Replacing a field leaves the bits beside it. -/
theorem getB_setF_other {n : Nat} (v : BitVec n) {lo w x i : Nat} (h : i < lo ∨ lo + w ≤ i) :
    getB (setF v lo w x) i = getB v i := by
  rw [getB, getB, setF_getLsbD, if_neg (by omega)]

/-- The bits of a value with one bit set. -/
theorem setB_getLsbD {n : Nat} (v : BitVec n) (i j : Nat) (b : Bool) :
    (setB v i b).getLsbD j = if j = i ∧ i < n then b else v.getLsbD j := by
  by_cases hj : j = i
  · subst hj
    by_cases hn : j < n
    · cases b <;> simp [setB, hn]
    · have := BitVec.getLsbD_of_ge v j (not_lt.1 hn)
      cases b <;> simp [setB, BitVec.getLsbD_twoPow, hn, this]
  · have h : ¬i = j := fun x => hj x.symm
    cases b
    · by_cases hn : j < n
      · simp [setB, hj, hn]
      · have := BitVec.getLsbD_of_ge v j (not_lt.1 hn)
        simp [setB, hj, this]
    · simp [setB, BitVec.getLsbD_twoPow, hj, h]

/-- A set bit reads as what was written. -/
theorem getB_setB_same {n : Nat} (v : BitVec n) (i : Nat) (b : Bool) (h : i < n) : getB (setB v i b) i = b := by
  rw [getB, setB_getLsbD, if_pos ⟨rfl, h⟩]

/-- Setting a bit leaves the others. -/
theorem getB_setB_other {n : Nat} (v : BitVec n) {i j : Nat} (b : Bool) (h : j ≠ i) : getB (setB v i b) j = getB v j := by
  rw [getB, setB_getLsbD, if_neg (fun x => h x.1), getB]

/-- Setting a bit leaves the fields beside it. -/
theorem getF_setB_other {n : Nat} (v : BitVec n) {i lo w : Nat} (b : Bool) (h : i < lo ∨ lo + w ≤ i) :
    getF (setB v i b) lo w = getF v lo w := by
  refine Nat.eq_of_testBit_eq fun j => ?_
  rw [getF_testBit, getF_testBit, setB_getLsbD]
  by_cases hj : j < w
  · rw [if_neg (by omega)]
  · simp [hj]

/-- The little-endian bytes of a number have its length. -/
@[simp] theorem leBytes_length (n x : Nat) : (leBytes n x).length = n := by
  induction n generalizing x with
  | zero => rfl
  | succ n ih => simp [leBytes, ih]

/-- The big-endian bytes of a number have its length. -/
@[simp] theorem beBytes_length (n x : Nat) : (beBytes n x).length = n := by simp [beBytes]

/-- A slice has the length asked for. -/
@[simp] theorem sliceB_length (bs : List Byte) (i n : Nat) : (sliceB bs i n).length = n := by
  simp only [sliceB, List.length_append, List.length_replicate, List.length_take, List.length_drop]
  omega

/-- The number that its own little-endian bytes spell. -/
theorem leNat_leBytes (n x : Nat) : leNat (leBytes n x) = x % 256 ^ n := by
  induction n generalizing x with
  | zero => simp [leBytes, leNat, Nat.mod_one]
  | succ n ih =>
    rw [leBytes, leNat, ih, Nat.pow_succ, Nat.mul_comm (256 ^ n) 256, Nat.mod_mul]
    simp

end Sys2Proof
end

