-- ==== Sys2Proof/Laws/State.lean ====
section
/-!
SUPPORT. What each update of the state leaves: one lemma per field and update, so that no later proof unfolds a record
update.
-/

namespace Sys2Proof.Machine

variable (s : State)

/-! An update of the register file. These are not for simp: a proof by rfl about `State.setReg` makes the kernel compare
register files, which is slow, so the lemmas of the register updates cite these. -/

theorem State.regs_pending (r : List (Nat × Word)) : ({ s with regs := r } : State).pending = s.pending := rfl
theorem State.regs_out (r : List (Nat × Word)) : ({ s with regs := r } : State).out = s.out := rfl
theorem State.regs_draws (r : List (Nat × Word)) : ({ s with regs := r } : State).draws = s.draws := rfl
theorem State.regs_nextId (r : List (Nat × Word)) : ({ s with regs := r } : State).nextId = s.nextId := rfl
theorem State.regs_posted (r : List (Nat × Word)) : ({ s with regs := r } : State).posted = s.posted := rfl
theorem State.regs_mem (r : List (Nat × Word)) : ({ s with regs := r } : State).mem = s.mem := rfl
theorem State.regs_stale (r : List (Nat × Word)) : ({ s with regs := r } : State).stale = s.stale := rfl
theorem State.regs_ecc (r : List (Nat × Word)) : ({ s with regs := r } : State).ecc = s.ecc := rfl
theorem State.regs_scratch (r : List (Nat × Word)) : ({ s with regs := r } : State).scratch = s.scratch := rfl
theorem State.regs_scratchEcc (r : List (Nat × Word)) : ({ s with regs := r } : State).scratchEcc = s.scratchEcc := rfl
theorem State.regs_arbs (r : List (Nat × Word)) : ({ s with regs := r } : State).arbs = s.arbs := rfl
theorem State.regs_recode (r : List (Nat × Word)) : ({ s with regs := r } : State).recode = s.recode := rfl
theorem State.regs_acts (r : List (Nat × Word)) : ({ s with regs := r } : State).acts = s.acts := rfl
theorem State.regs_trr (r : List (Nat × Word)) : ({ s with regs := r } : State).trr = s.trr := rfl
theorem State.regs_corrected (r : List (Nat × Word)) : ({ s with regs := r } : State).corrected = s.corrected := rfl
theorem State.regs_spares (r : List (Nat × Word)) : ({ s with regs := r } : State).spares = s.spares := rfl
theorem State.regs_remapDue (r : List (Nat × Word)) : ({ s with regs := r } : State).remapDue = s.remapDue := rfl
theorem State.regs_ft (r : List (Nat × Word)) : ({ s with regs := r } : State).ft = s.ft := rfl
theorem State.regs_gated (r : List (Nat × Word)) : ({ s with regs := r } : State).gated = s.gated := rfl
theorem State.regs_life (r : List (Nat × Word)) : ({ s with regs := r } : State).life = s.life := rfl
theorem State.regs_standbyWanted (r : List (Nat × Word)) : ({ s with regs := r } : State).standbyWanted = s.standbyWanted := rfl
theorem State.regs_power (r : List (Nat × Word)) : ({ s with regs := r } : State).power = s.power := rfl
theorem State.regs_powerWant (r : List (Nat × Word)) : ({ s with regs := r } : State).powerWant = s.powerWant := rfl
theorem State.regs_powerNext (r : List (Nat × Word)) : ({ s with regs := r } : State).powerNext = s.powerNext := rfl
theorem State.regs_saving (r : List (Nat × Word)) : ({ s with regs := r } : State).saving = s.saving := rfl
theorem State.regs_pwrGood (r : List (Nat × Word)) : ({ s with regs := r } : State).pwrGood = s.pwrGood := rfl
theorem State.regs_thermTripped (r : List (Nat × Word)) : ({ s with regs := r } : State).thermTripped = s.thermTripped := rfl
theorem State.regs_straps (r : List (Nat × Word)) : ({ s with regs := r } : State).straps = s.straps := rfl
theorem State.regs_cause (r : List (Nat × Word)) : ({ s with regs := r } : State).cause = s.cause := rfl
theorem State.regs_charter (r : List (Nat × Word)) : ({ s with regs := r } : State).charter = s.charter := rfl
theorem State.regs_identity (r : List (Nat × Word)) : ({ s with regs := r } : State).identity = s.identity := rfl
theorem State.regs_entries (r : List (Nat × Word)) : ({ s with regs := r } : State).entries = s.entries := rfl
theorem State.regs_partState (r : List (Nat × Word)) : ({ s with regs := r } : State).partState = s.partState := rfl
theorem State.regs_lastLock (r : List (Nat × Word)) : ({ s with regs := r } : State).lastLock = s.lastLock := rfl
theorem State.regs_releasing (r : List (Nat × Word)) : ({ s with regs := r } : State).releasing = s.releasing := rfl
theorem State.regs_objs (r : List (Nat × Word)) : ({ s with regs := r } : State).objs = s.objs := rfl
theorem State.regs_objStage (r : List (Nat × Word)) : ({ s with regs := r } : State).objStage = s.objStage := rfl
theorem State.regs_far (r : List (Nat × Word)) : ({ s with regs := r } : State).far = s.far := rfl
theorem State.regs_dir (r : List (Nat × Word)) : ({ s with regs := r } : State).dir = s.dir := rfl
theorem State.regs_dirGen (r : List (Nat × Word)) : ({ s with regs := r } : State).dirGen = s.dirGen := rfl
theorem State.regs_lookup (r : List (Nat × Word)) : ({ s with regs := r } : State).lookup = s.lookup := rfl
theorem State.regs_slots (r : List (Nat × Word)) : ({ s with regs := r } : State).slots = s.slots := rfl
theorem State.regs_moves (r : List (Nat × Word)) : ({ s with regs := r } : State).moves = s.moves := rfl
theorem State.regs_heat (r : List (Nat × Word)) : ({ s with regs := r } : State).heat = s.heat := rfl
theorem State.regs_bg (r : List (Nat × Word)) : ({ s with regs := r } : State).bg = s.bg := rfl
theorem State.regs_cmds (r : List (Nat × Word)) : ({ s with regs := r } : State).cmds = s.cmds := rfl
theorem State.regs_rings (r : List (Nat × Word)) : ({ s with regs := r } : State).rings = s.rings := rfl
theorem State.regs_links (r : List (Nat × Word)) : ({ s with regs := r } : State).links = s.links := rfl
theorem State.regs_inq (r : List (Nat × Word)) : ({ s with regs := r } : State).inq = s.inq := rfl
theorem State.regs_turns (r : List (Nat × Word)) : ({ s with regs := r } : State).turns = s.turns := rfl
theorem State.regs_wms (r : List (Nat × Word)) : ({ s with regs := r } : State).wms = s.wms := rfl
theorem State.regs_wmLatch (r : List (Nat × Word)) : ({ s with regs := r } : State).wmLatch = s.wmLatch := rfl
theorem State.regs_holds (r : List (Nat × Word)) : ({ s with regs := r } : State).holds = s.holds := rfl
theorem State.regs_hauls (r : List (Nat × Word)) : ({ s with regs := r } : State).hauls = s.hauls := rfl
theorem State.regs_rows (r : List (Nat × Word)) : ({ s with regs := r } : State).rows = s.rows := rfl
theorem State.regs_reqs (r : List (Nat × Word)) : ({ s with regs := r } : State).reqs = s.reqs := rfl
theorem State.regs_plan (r : List (Nat × Word)) : ({ s with regs := r } : State).plan = s.plan := rfl
theorem State.regs_planBase (r : List (Nat × Word)) : ({ s with regs := r } : State).planBase = s.planBase := rfl
theorem State.regs_sent (r : List (Nat × Word)) : ({ s with regs := r } : State).sent = s.sent := rfl
theorem State.regs_emberNums (r : List (Nat × Word)) : ({ s with regs := r } : State).emberNums = s.emberNums := rfl
theorem State.regs_recv (r : List (Nat × Word)) : ({ s with regs := r } : State).recv = s.recv := rfl
theorem State.regs_merges (r : List (Nat × Word)) : ({ s with regs := r } : State).merges = s.merges := rfl
theorem State.regs_mergesDone (r : List (Nat × Word)) : ({ s with regs := r } : State).mergesDone = s.mergesDone := rfl
theorem State.regs_images (r : List (Nat × Word)) : ({ s with regs := r } : State).images = s.images := rfl
theorem State.regs_kindles (r : List (Nat × Word)) : ({ s with regs := r } : State).kindles = s.kindles := rfl
theorem State.regs_arrayHclk (r : List (Nat × Word)) : ({ s with regs := r } : State).arrayHclk = s.arrayHclk := rfl
theorem State.regs_arrayUsed (r : List (Nat × Word)) : ({ s with regs := r } : State).arrayUsed = s.arrayUsed := rfl
theorem State.regs_scrub (r : List (Nat × Word)) : ({ s with regs := r } : State).scrub = s.scrub := rfl
theorem State.regs_conns (r : List (Nat × Word)) : ({ s with regs := r } : State).conns = s.conns := rfl
theorem State.regs_ports (r : List (Nat × Word)) : ({ s with regs := r } : State).ports = s.ports := rfl
theorem State.regs_up (r : List (Nat × Word)) : ({ s with regs := r } : State).up = s.up := rfl
theorem State.regs_waykeys (r : List (Nat × Word)) : ({ s with regs := r } : State).waykeys = s.waykeys := rfl
theorem State.regs_wkLive (r : List (Nat × Word)) : ({ s with regs := r } : State).wkLive = s.wkLive := rfl
theorem State.regs_vioLog (r : List (Nat × Word)) : ({ s with regs := r } : State).vioLog = s.vioLog := rfl
theorem State.regs_shapers (r : List (Nat × Word)) : ({ s with regs := r } : State).shapers = s.shapers := rfl
theorem State.regs_shChanges (r : List (Nat × Word)) : ({ s with regs := r } : State).shChanges = s.shChanges := rfl
theorem State.regs_acctPackets (r : List (Nat × Word)) : ({ s with regs := r } : State).acctPackets = s.acctPackets := rfl
theorem State.regs_drrs (r : List (Nat × Word)) : ({ s with regs := r } : State).drrs = s.drrs := rfl
theorem State.regs_replies (r : List (Nat × Word)) : ({ s with regs := r } : State).replies = s.replies := rfl
theorem State.regs_attest (r : List (Nat × Word)) : ({ s with regs := r } : State).attest = s.attest := rfl
theorem State.regs_meters (r : List (Nat × Word)) : ({ s with regs := r } : State).meters = s.meters := rfl
theorem State.regs_staging (r : List (Nat × Word)) : ({ s with regs := r } : State).staging = s.staging := rfl
theorem State.regs_probe (r : List (Nat × Word)) : ({ s with regs := r } : State).probe = s.probe := rfl
theorem State.regs_fenceRec (r : List (Nat × Word)) : ({ s with regs := r } : State).fenceRec = s.fenceRec := rfl
theorem State.regs_suspects (r : List (Nat × Word)) : ({ s with regs := r } : State).suspects = s.suspects := rfl
theorem State.regs_sharedFaults (r : List (Nat × Word)) : ({ s with regs := r } : State).sharedFaults = s.sharedFaults := rfl
theorem State.regs_flits (r : List (Nat × Word)) : ({ s with regs := r } : State).flits = s.flits := rfl
theorem State.regs_wdogValue (r : List (Nat × Word)) : ({ s with regs := r } : State).wdogValue = s.wdogValue := rfl
theorem State.regs_wdogAt (r : List (Nat × Word)) : ({ s with regs := r } : State).wdogAt = s.wdogAt := rfl
theorem State.regs_rebuilds (r : List (Nat × Word)) : ({ s with regs := r } : State).rebuilds = s.rebuilds := rfl
theorem State.regs_forwards (r : List (Nat × Word)) : ({ s with regs := r } : State).forwards = s.forwards := rfl
theorem State.regs_lodge (r : List (Nat × Word)) : ({ s with regs := r } : State).lodge = s.lodge := rfl
theorem State.regs_resets (r : List (Nat × Word)) : ({ s with regs := r } : State).resets = s.resets := rfl
theorem State.regs_engResets (r : List (Nat × Word)) : ({ s with regs := r } : State).engResets = s.engResets := rfl
theorem State.regs_flash (r : List (Nat × Word)) : ({ s with regs := r } : State).flash = s.flash := rfl
theorem State.regs_repairDirty (r : List (Nat × Word)) : ({ s with regs := r } : State).repairDirty = s.repairDirty := rfl
theorem State.regs_mpeers (r : List (Nat × Word)) : ({ s with regs := r } : State).mpeers = s.mpeers := rfl
theorem State.regs_mgmt (r : List (Nat × Word)) : ({ s with regs := r } : State).mgmt = s.mgmt := rfl
theorem State.regs_rcvWriting (r : List (Nat × Word)) : ({ s with regs := r } : State).rcvWriting = s.rcvWriting := rfl
theorem State.regs_i3c (r : List (Nat × Word)) : ({ s with regs := r } : State).i3c = s.i3c := rfl
theorem State.regs_therm (r : List (Nat × Word)) : ({ s with regs := r } : State).therm = s.therm := rfl
theorem State.regs_volt (r : List (Nat × Word)) : ({ s with regs := r } : State).volt = s.volt := rfl
theorem State.regs_jtag (r : List (Nat × Word)) : ({ s with regs := r } : State).jtag = s.jtag := rfl

/-! `State.setReg`. -/

@[simp] theorem State.setReg_pending (fn off : Nat) (v : Word) : (s.setReg fn off v).pending = s.pending := State.regs_pending s _
@[simp] theorem State.setReg_out (fn off : Nat) (v : Word) : (s.setReg fn off v).out = s.out := State.regs_out s _
@[simp] theorem State.setReg_draws (fn off : Nat) (v : Word) : (s.setReg fn off v).draws = s.draws := State.regs_draws s _
@[simp] theorem State.setReg_nextId (fn off : Nat) (v : Word) : (s.setReg fn off v).nextId = s.nextId := State.regs_nextId s _
@[simp] theorem State.setReg_posted (fn off : Nat) (v : Word) : (s.setReg fn off v).posted = s.posted := State.regs_posted s _
@[simp] theorem State.setReg_mem (fn off : Nat) (v : Word) : (s.setReg fn off v).mem = s.mem := State.regs_mem s _
@[simp] theorem State.setReg_stale (fn off : Nat) (v : Word) : (s.setReg fn off v).stale = s.stale := State.regs_stale s _
@[simp] theorem State.setReg_ecc (fn off : Nat) (v : Word) : (s.setReg fn off v).ecc = s.ecc := State.regs_ecc s _
@[simp] theorem State.setReg_scratch (fn off : Nat) (v : Word) : (s.setReg fn off v).scratch = s.scratch := State.regs_scratch s _
@[simp] theorem State.setReg_scratchEcc (fn off : Nat) (v : Word) : (s.setReg fn off v).scratchEcc = s.scratchEcc := State.regs_scratchEcc s _
@[simp] theorem State.setReg_arbs (fn off : Nat) (v : Word) : (s.setReg fn off v).arbs = s.arbs := State.regs_arbs s _
@[simp] theorem State.setReg_recode (fn off : Nat) (v : Word) : (s.setReg fn off v).recode = s.recode := State.regs_recode s _
@[simp] theorem State.setReg_acts (fn off : Nat) (v : Word) : (s.setReg fn off v).acts = s.acts := State.regs_acts s _
@[simp] theorem State.setReg_trr (fn off : Nat) (v : Word) : (s.setReg fn off v).trr = s.trr := State.regs_trr s _
@[simp] theorem State.setReg_corrected (fn off : Nat) (v : Word) : (s.setReg fn off v).corrected = s.corrected := State.regs_corrected s _
@[simp] theorem State.setReg_spares (fn off : Nat) (v : Word) : (s.setReg fn off v).spares = s.spares := State.regs_spares s _
@[simp] theorem State.setReg_remapDue (fn off : Nat) (v : Word) : (s.setReg fn off v).remapDue = s.remapDue := State.regs_remapDue s _
@[simp] theorem State.setReg_ft (fn off : Nat) (v : Word) : (s.setReg fn off v).ft = s.ft := State.regs_ft s _
@[simp] theorem State.setReg_gated (fn off : Nat) (v : Word) : (s.setReg fn off v).gated = s.gated := State.regs_gated s _
@[simp] theorem State.setReg_life (fn off : Nat) (v : Word) : (s.setReg fn off v).life = s.life := State.regs_life s _
@[simp] theorem State.setReg_standbyWanted (fn off : Nat) (v : Word) : (s.setReg fn off v).standbyWanted = s.standbyWanted := State.regs_standbyWanted s _
@[simp] theorem State.setReg_power (fn off : Nat) (v : Word) : (s.setReg fn off v).power = s.power := State.regs_power s _
@[simp] theorem State.setReg_powerWant (fn off : Nat) (v : Word) : (s.setReg fn off v).powerWant = s.powerWant := State.regs_powerWant s _
@[simp] theorem State.setReg_powerNext (fn off : Nat) (v : Word) : (s.setReg fn off v).powerNext = s.powerNext := State.regs_powerNext s _
@[simp] theorem State.setReg_saving (fn off : Nat) (v : Word) : (s.setReg fn off v).saving = s.saving := State.regs_saving s _
@[simp] theorem State.setReg_pwrGood (fn off : Nat) (v : Word) : (s.setReg fn off v).pwrGood = s.pwrGood := State.regs_pwrGood s _
@[simp] theorem State.setReg_thermTripped (fn off : Nat) (v : Word) : (s.setReg fn off v).thermTripped = s.thermTripped := State.regs_thermTripped s _
@[simp] theorem State.setReg_straps (fn off : Nat) (v : Word) : (s.setReg fn off v).straps = s.straps := State.regs_straps s _
@[simp] theorem State.setReg_cause (fn off : Nat) (v : Word) : (s.setReg fn off v).cause = s.cause := State.regs_cause s _
@[simp] theorem State.setReg_charter (fn off : Nat) (v : Word) : (s.setReg fn off v).charter = s.charter := State.regs_charter s _
@[simp] theorem State.setReg_identity (fn off : Nat) (v : Word) : (s.setReg fn off v).identity = s.identity := State.regs_identity s _
@[simp] theorem State.setReg_entries (fn off : Nat) (v : Word) : (s.setReg fn off v).entries = s.entries := State.regs_entries s _
@[simp] theorem State.setReg_partState (fn off : Nat) (v : Word) : (s.setReg fn off v).partState = s.partState := State.regs_partState s _
@[simp] theorem State.setReg_lastLock (fn off : Nat) (v : Word) : (s.setReg fn off v).lastLock = s.lastLock := State.regs_lastLock s _
@[simp] theorem State.setReg_releasing (fn off : Nat) (v : Word) : (s.setReg fn off v).releasing = s.releasing := State.regs_releasing s _
@[simp] theorem State.setReg_objs (fn off : Nat) (v : Word) : (s.setReg fn off v).objs = s.objs := State.regs_objs s _
@[simp] theorem State.setReg_objStage (fn off : Nat) (v : Word) : (s.setReg fn off v).objStage = s.objStage := State.regs_objStage s _
@[simp] theorem State.setReg_far (fn off : Nat) (v : Word) : (s.setReg fn off v).far = s.far := State.regs_far s _
@[simp] theorem State.setReg_dir (fn off : Nat) (v : Word) : (s.setReg fn off v).dir = s.dir := State.regs_dir s _
@[simp] theorem State.setReg_dirGen (fn off : Nat) (v : Word) : (s.setReg fn off v).dirGen = s.dirGen := State.regs_dirGen s _
@[simp] theorem State.setReg_lookup (fn off : Nat) (v : Word) : (s.setReg fn off v).lookup = s.lookup := State.regs_lookup s _
@[simp] theorem State.setReg_slots (fn off : Nat) (v : Word) : (s.setReg fn off v).slots = s.slots := State.regs_slots s _
@[simp] theorem State.setReg_moves (fn off : Nat) (v : Word) : (s.setReg fn off v).moves = s.moves := State.regs_moves s _
@[simp] theorem State.setReg_heat (fn off : Nat) (v : Word) : (s.setReg fn off v).heat = s.heat := State.regs_heat s _
@[simp] theorem State.setReg_bg (fn off : Nat) (v : Word) : (s.setReg fn off v).bg = s.bg := State.regs_bg s _
@[simp] theorem State.setReg_cmds (fn off : Nat) (v : Word) : (s.setReg fn off v).cmds = s.cmds := State.regs_cmds s _
@[simp] theorem State.setReg_rings (fn off : Nat) (v : Word) : (s.setReg fn off v).rings = s.rings := State.regs_rings s _
@[simp] theorem State.setReg_links (fn off : Nat) (v : Word) : (s.setReg fn off v).links = s.links := State.regs_links s _
@[simp] theorem State.setReg_inq (fn off : Nat) (v : Word) : (s.setReg fn off v).inq = s.inq := State.regs_inq s _
@[simp] theorem State.setReg_turns (fn off : Nat) (v : Word) : (s.setReg fn off v).turns = s.turns := State.regs_turns s _
@[simp] theorem State.setReg_wms (fn off : Nat) (v : Word) : (s.setReg fn off v).wms = s.wms := State.regs_wms s _
@[simp] theorem State.setReg_wmLatch (fn off : Nat) (v : Word) : (s.setReg fn off v).wmLatch = s.wmLatch := State.regs_wmLatch s _
@[simp] theorem State.setReg_holds (fn off : Nat) (v : Word) : (s.setReg fn off v).holds = s.holds := State.regs_holds s _
@[simp] theorem State.setReg_hauls (fn off : Nat) (v : Word) : (s.setReg fn off v).hauls = s.hauls := State.regs_hauls s _
@[simp] theorem State.setReg_rows (fn off : Nat) (v : Word) : (s.setReg fn off v).rows = s.rows := State.regs_rows s _
@[simp] theorem State.setReg_reqs (fn off : Nat) (v : Word) : (s.setReg fn off v).reqs = s.reqs := State.regs_reqs s _
@[simp] theorem State.setReg_plan (fn off : Nat) (v : Word) : (s.setReg fn off v).plan = s.plan := State.regs_plan s _
@[simp] theorem State.setReg_planBase (fn off : Nat) (v : Word) : (s.setReg fn off v).planBase = s.planBase := State.regs_planBase s _
@[simp] theorem State.setReg_sent (fn off : Nat) (v : Word) : (s.setReg fn off v).sent = s.sent := State.regs_sent s _
@[simp] theorem State.setReg_emberNums (fn off : Nat) (v : Word) : (s.setReg fn off v).emberNums = s.emberNums := State.regs_emberNums s _
@[simp] theorem State.setReg_recv (fn off : Nat) (v : Word) : (s.setReg fn off v).recv = s.recv := State.regs_recv s _
@[simp] theorem State.setReg_merges (fn off : Nat) (v : Word) : (s.setReg fn off v).merges = s.merges := State.regs_merges s _
@[simp] theorem State.setReg_mergesDone (fn off : Nat) (v : Word) : (s.setReg fn off v).mergesDone = s.mergesDone := State.regs_mergesDone s _
@[simp] theorem State.setReg_images (fn off : Nat) (v : Word) : (s.setReg fn off v).images = s.images := State.regs_images s _
@[simp] theorem State.setReg_kindles (fn off : Nat) (v : Word) : (s.setReg fn off v).kindles = s.kindles := State.regs_kindles s _
@[simp] theorem State.setReg_arrayHclk (fn off : Nat) (v : Word) : (s.setReg fn off v).arrayHclk = s.arrayHclk := State.regs_arrayHclk s _
@[simp] theorem State.setReg_arrayUsed (fn off : Nat) (v : Word) : (s.setReg fn off v).arrayUsed = s.arrayUsed := State.regs_arrayUsed s _
@[simp] theorem State.setReg_scrub (fn off : Nat) (v : Word) : (s.setReg fn off v).scrub = s.scrub := State.regs_scrub s _
@[simp] theorem State.setReg_conns (fn off : Nat) (v : Word) : (s.setReg fn off v).conns = s.conns := State.regs_conns s _
@[simp] theorem State.setReg_ports (fn off : Nat) (v : Word) : (s.setReg fn off v).ports = s.ports := State.regs_ports s _
@[simp] theorem State.setReg_up (fn off : Nat) (v : Word) : (s.setReg fn off v).up = s.up := State.regs_up s _
@[simp] theorem State.setReg_waykeys (fn off : Nat) (v : Word) : (s.setReg fn off v).waykeys = s.waykeys := State.regs_waykeys s _
@[simp] theorem State.setReg_wkLive (fn off : Nat) (v : Word) : (s.setReg fn off v).wkLive = s.wkLive := State.regs_wkLive s _
@[simp] theorem State.setReg_vioLog (fn off : Nat) (v : Word) : (s.setReg fn off v).vioLog = s.vioLog := State.regs_vioLog s _
@[simp] theorem State.setReg_shapers (fn off : Nat) (v : Word) : (s.setReg fn off v).shapers = s.shapers := State.regs_shapers s _
@[simp] theorem State.setReg_shChanges (fn off : Nat) (v : Word) : (s.setReg fn off v).shChanges = s.shChanges := State.regs_shChanges s _
@[simp] theorem State.setReg_acctPackets (fn off : Nat) (v : Word) : (s.setReg fn off v).acctPackets = s.acctPackets := State.regs_acctPackets s _
@[simp] theorem State.setReg_drrs (fn off : Nat) (v : Word) : (s.setReg fn off v).drrs = s.drrs := State.regs_drrs s _
@[simp] theorem State.setReg_replies (fn off : Nat) (v : Word) : (s.setReg fn off v).replies = s.replies := State.regs_replies s _
@[simp] theorem State.setReg_attest (fn off : Nat) (v : Word) : (s.setReg fn off v).attest = s.attest := State.regs_attest s _
@[simp] theorem State.setReg_meters (fn off : Nat) (v : Word) : (s.setReg fn off v).meters = s.meters := State.regs_meters s _
@[simp] theorem State.setReg_staging (fn off : Nat) (v : Word) : (s.setReg fn off v).staging = s.staging := State.regs_staging s _
@[simp] theorem State.setReg_probe (fn off : Nat) (v : Word) : (s.setReg fn off v).probe = s.probe := State.regs_probe s _
@[simp] theorem State.setReg_fenceRec (fn off : Nat) (v : Word) : (s.setReg fn off v).fenceRec = s.fenceRec := State.regs_fenceRec s _
@[simp] theorem State.setReg_suspects (fn off : Nat) (v : Word) : (s.setReg fn off v).suspects = s.suspects := State.regs_suspects s _
@[simp] theorem State.setReg_sharedFaults (fn off : Nat) (v : Word) : (s.setReg fn off v).sharedFaults = s.sharedFaults := State.regs_sharedFaults s _
@[simp] theorem State.setReg_flits (fn off : Nat) (v : Word) : (s.setReg fn off v).flits = s.flits := State.regs_flits s _
@[simp] theorem State.setReg_wdogValue (fn off : Nat) (v : Word) : (s.setReg fn off v).wdogValue = s.wdogValue := State.regs_wdogValue s _
@[simp] theorem State.setReg_wdogAt (fn off : Nat) (v : Word) : (s.setReg fn off v).wdogAt = s.wdogAt := State.regs_wdogAt s _
@[simp] theorem State.setReg_rebuilds (fn off : Nat) (v : Word) : (s.setReg fn off v).rebuilds = s.rebuilds := State.regs_rebuilds s _
@[simp] theorem State.setReg_forwards (fn off : Nat) (v : Word) : (s.setReg fn off v).forwards = s.forwards := State.regs_forwards s _
@[simp] theorem State.setReg_lodge (fn off : Nat) (v : Word) : (s.setReg fn off v).lodge = s.lodge := State.regs_lodge s _
@[simp] theorem State.setReg_resets (fn off : Nat) (v : Word) : (s.setReg fn off v).resets = s.resets := State.regs_resets s _
@[simp] theorem State.setReg_engResets (fn off : Nat) (v : Word) : (s.setReg fn off v).engResets = s.engResets := State.regs_engResets s _
@[simp] theorem State.setReg_flash (fn off : Nat) (v : Word) : (s.setReg fn off v).flash = s.flash := State.regs_flash s _
@[simp] theorem State.setReg_repairDirty (fn off : Nat) (v : Word) : (s.setReg fn off v).repairDirty = s.repairDirty := State.regs_repairDirty s _
@[simp] theorem State.setReg_mpeers (fn off : Nat) (v : Word) : (s.setReg fn off v).mpeers = s.mpeers := State.regs_mpeers s _
@[simp] theorem State.setReg_mgmt (fn off : Nat) (v : Word) : (s.setReg fn off v).mgmt = s.mgmt := State.regs_mgmt s _
@[simp] theorem State.setReg_rcvWriting (fn off : Nat) (v : Word) : (s.setReg fn off v).rcvWriting = s.rcvWriting := State.regs_rcvWriting s _
@[simp] theorem State.setReg_i3c (fn off : Nat) (v : Word) : (s.setReg fn off v).i3c = s.i3c := State.regs_i3c s _
@[simp] theorem State.setReg_therm (fn off : Nat) (v : Word) : (s.setReg fn off v).therm = s.therm := State.regs_therm s _
@[simp] theorem State.setReg_volt (fn off : Nat) (v : Word) : (s.setReg fn off v).volt = s.volt := State.regs_volt s _
@[simp] theorem State.setReg_jtag (fn off : Nat) (v : Word) : (s.setReg fn off v).jtag = s.jtag := State.regs_jtag s _

/-! `State.setRegB`. -/

@[simp] theorem State.setRegB_pending (fn off i : Nat) (b : Bool) : (s.setRegB fn off i b).pending = s.pending := State.setReg_pending s _ _ _
@[simp] theorem State.setRegB_out (fn off i : Nat) (b : Bool) : (s.setRegB fn off i b).out = s.out := State.setReg_out s _ _ _
@[simp] theorem State.setRegB_draws (fn off i : Nat) (b : Bool) : (s.setRegB fn off i b).draws = s.draws := State.setReg_draws s _ _ _
@[simp] theorem State.setRegB_nextId (fn off i : Nat) (b : Bool) : (s.setRegB fn off i b).nextId = s.nextId := State.setReg_nextId s _ _ _
@[simp] theorem State.setRegB_posted (fn off i : Nat) (b : Bool) : (s.setRegB fn off i b).posted = s.posted := State.setReg_posted s _ _ _
@[simp] theorem State.setRegB_mem (fn off i : Nat) (b : Bool) : (s.setRegB fn off i b).mem = s.mem := State.setReg_mem s _ _ _
@[simp] theorem State.setRegB_stale (fn off i : Nat) (b : Bool) : (s.setRegB fn off i b).stale = s.stale := State.setReg_stale s _ _ _
@[simp] theorem State.setRegB_ecc (fn off i : Nat) (b : Bool) : (s.setRegB fn off i b).ecc = s.ecc := State.setReg_ecc s _ _ _
@[simp] theorem State.setRegB_scratch (fn off i : Nat) (b : Bool) : (s.setRegB fn off i b).scratch = s.scratch := State.setReg_scratch s _ _ _
@[simp] theorem State.setRegB_scratchEcc (fn off i : Nat) (b : Bool) : (s.setRegB fn off i b).scratchEcc = s.scratchEcc := State.setReg_scratchEcc s _ _ _
@[simp] theorem State.setRegB_arbs (fn off i : Nat) (b : Bool) : (s.setRegB fn off i b).arbs = s.arbs := State.setReg_arbs s _ _ _
@[simp] theorem State.setRegB_recode (fn off i : Nat) (b : Bool) : (s.setRegB fn off i b).recode = s.recode := State.setReg_recode s _ _ _
@[simp] theorem State.setRegB_acts (fn off i : Nat) (b : Bool) : (s.setRegB fn off i b).acts = s.acts := State.setReg_acts s _ _ _
@[simp] theorem State.setRegB_trr (fn off i : Nat) (b : Bool) : (s.setRegB fn off i b).trr = s.trr := State.setReg_trr s _ _ _
@[simp] theorem State.setRegB_corrected (fn off i : Nat) (b : Bool) : (s.setRegB fn off i b).corrected = s.corrected := State.setReg_corrected s _ _ _
@[simp] theorem State.setRegB_spares (fn off i : Nat) (b : Bool) : (s.setRegB fn off i b).spares = s.spares := State.setReg_spares s _ _ _
@[simp] theorem State.setRegB_remapDue (fn off i : Nat) (b : Bool) : (s.setRegB fn off i b).remapDue = s.remapDue := State.setReg_remapDue s _ _ _
@[simp] theorem State.setRegB_ft (fn off i : Nat) (b : Bool) : (s.setRegB fn off i b).ft = s.ft := State.setReg_ft s _ _ _
@[simp] theorem State.setRegB_gated (fn off i : Nat) (b : Bool) : (s.setRegB fn off i b).gated = s.gated := State.setReg_gated s _ _ _
@[simp] theorem State.setRegB_life (fn off i : Nat) (b : Bool) : (s.setRegB fn off i b).life = s.life := State.setReg_life s _ _ _
@[simp] theorem State.setRegB_standbyWanted (fn off i : Nat) (b : Bool) : (s.setRegB fn off i b).standbyWanted = s.standbyWanted := State.setReg_standbyWanted s _ _ _
@[simp] theorem State.setRegB_power (fn off i : Nat) (b : Bool) : (s.setRegB fn off i b).power = s.power := State.setReg_power s _ _ _
@[simp] theorem State.setRegB_powerWant (fn off i : Nat) (b : Bool) : (s.setRegB fn off i b).powerWant = s.powerWant := State.setReg_powerWant s _ _ _
@[simp] theorem State.setRegB_powerNext (fn off i : Nat) (b : Bool) : (s.setRegB fn off i b).powerNext = s.powerNext := State.setReg_powerNext s _ _ _
@[simp] theorem State.setRegB_saving (fn off i : Nat) (b : Bool) : (s.setRegB fn off i b).saving = s.saving := State.setReg_saving s _ _ _
@[simp] theorem State.setRegB_pwrGood (fn off i : Nat) (b : Bool) : (s.setRegB fn off i b).pwrGood = s.pwrGood := State.setReg_pwrGood s _ _ _
@[simp] theorem State.setRegB_thermTripped (fn off i : Nat) (b : Bool) : (s.setRegB fn off i b).thermTripped = s.thermTripped := State.setReg_thermTripped s _ _ _
@[simp] theorem State.setRegB_straps (fn off i : Nat) (b : Bool) : (s.setRegB fn off i b).straps = s.straps := State.setReg_straps s _ _ _
@[simp] theorem State.setRegB_cause (fn off i : Nat) (b : Bool) : (s.setRegB fn off i b).cause = s.cause := State.setReg_cause s _ _ _
@[simp] theorem State.setRegB_charter (fn off i : Nat) (b : Bool) : (s.setRegB fn off i b).charter = s.charter := State.setReg_charter s _ _ _
@[simp] theorem State.setRegB_identity (fn off i : Nat) (b : Bool) : (s.setRegB fn off i b).identity = s.identity := State.setReg_identity s _ _ _
@[simp] theorem State.setRegB_entries (fn off i : Nat) (b : Bool) : (s.setRegB fn off i b).entries = s.entries := State.setReg_entries s _ _ _
@[simp] theorem State.setRegB_partState (fn off i : Nat) (b : Bool) : (s.setRegB fn off i b).partState = s.partState := State.setReg_partState s _ _ _
@[simp] theorem State.setRegB_lastLock (fn off i : Nat) (b : Bool) : (s.setRegB fn off i b).lastLock = s.lastLock := State.setReg_lastLock s _ _ _
@[simp] theorem State.setRegB_releasing (fn off i : Nat) (b : Bool) : (s.setRegB fn off i b).releasing = s.releasing := State.setReg_releasing s _ _ _
@[simp] theorem State.setRegB_objs (fn off i : Nat) (b : Bool) : (s.setRegB fn off i b).objs = s.objs := State.setReg_objs s _ _ _
@[simp] theorem State.setRegB_objStage (fn off i : Nat) (b : Bool) : (s.setRegB fn off i b).objStage = s.objStage := State.setReg_objStage s _ _ _
@[simp] theorem State.setRegB_far (fn off i : Nat) (b : Bool) : (s.setRegB fn off i b).far = s.far := State.setReg_far s _ _ _
@[simp] theorem State.setRegB_dir (fn off i : Nat) (b : Bool) : (s.setRegB fn off i b).dir = s.dir := State.setReg_dir s _ _ _
@[simp] theorem State.setRegB_dirGen (fn off i : Nat) (b : Bool) : (s.setRegB fn off i b).dirGen = s.dirGen := State.setReg_dirGen s _ _ _
@[simp] theorem State.setRegB_lookup (fn off i : Nat) (b : Bool) : (s.setRegB fn off i b).lookup = s.lookup := State.setReg_lookup s _ _ _
@[simp] theorem State.setRegB_slots (fn off i : Nat) (b : Bool) : (s.setRegB fn off i b).slots = s.slots := State.setReg_slots s _ _ _
@[simp] theorem State.setRegB_moves (fn off i : Nat) (b : Bool) : (s.setRegB fn off i b).moves = s.moves := State.setReg_moves s _ _ _
@[simp] theorem State.setRegB_heat (fn off i : Nat) (b : Bool) : (s.setRegB fn off i b).heat = s.heat := State.setReg_heat s _ _ _
@[simp] theorem State.setRegB_bg (fn off i : Nat) (b : Bool) : (s.setRegB fn off i b).bg = s.bg := State.setReg_bg s _ _ _
@[simp] theorem State.setRegB_cmds (fn off i : Nat) (b : Bool) : (s.setRegB fn off i b).cmds = s.cmds := State.setReg_cmds s _ _ _
@[simp] theorem State.setRegB_rings (fn off i : Nat) (b : Bool) : (s.setRegB fn off i b).rings = s.rings := State.setReg_rings s _ _ _
@[simp] theorem State.setRegB_links (fn off i : Nat) (b : Bool) : (s.setRegB fn off i b).links = s.links := State.setReg_links s _ _ _
@[simp] theorem State.setRegB_inq (fn off i : Nat) (b : Bool) : (s.setRegB fn off i b).inq = s.inq := State.setReg_inq s _ _ _
@[simp] theorem State.setRegB_turns (fn off i : Nat) (b : Bool) : (s.setRegB fn off i b).turns = s.turns := State.setReg_turns s _ _ _
@[simp] theorem State.setRegB_wms (fn off i : Nat) (b : Bool) : (s.setRegB fn off i b).wms = s.wms := State.setReg_wms s _ _ _
@[simp] theorem State.setRegB_wmLatch (fn off i : Nat) (b : Bool) : (s.setRegB fn off i b).wmLatch = s.wmLatch := State.setReg_wmLatch s _ _ _
@[simp] theorem State.setRegB_holds (fn off i : Nat) (b : Bool) : (s.setRegB fn off i b).holds = s.holds := State.setReg_holds s _ _ _
@[simp] theorem State.setRegB_hauls (fn off i : Nat) (b : Bool) : (s.setRegB fn off i b).hauls = s.hauls := State.setReg_hauls s _ _ _
@[simp] theorem State.setRegB_rows (fn off i : Nat) (b : Bool) : (s.setRegB fn off i b).rows = s.rows := State.setReg_rows s _ _ _
@[simp] theorem State.setRegB_reqs (fn off i : Nat) (b : Bool) : (s.setRegB fn off i b).reqs = s.reqs := State.setReg_reqs s _ _ _
@[simp] theorem State.setRegB_plan (fn off i : Nat) (b : Bool) : (s.setRegB fn off i b).plan = s.plan := State.setReg_plan s _ _ _
@[simp] theorem State.setRegB_planBase (fn off i : Nat) (b : Bool) : (s.setRegB fn off i b).planBase = s.planBase := State.setReg_planBase s _ _ _
@[simp] theorem State.setRegB_sent (fn off i : Nat) (b : Bool) : (s.setRegB fn off i b).sent = s.sent := State.setReg_sent s _ _ _
@[simp] theorem State.setRegB_emberNums (fn off i : Nat) (b : Bool) : (s.setRegB fn off i b).emberNums = s.emberNums := State.setReg_emberNums s _ _ _
@[simp] theorem State.setRegB_recv (fn off i : Nat) (b : Bool) : (s.setRegB fn off i b).recv = s.recv := State.setReg_recv s _ _ _
@[simp] theorem State.setRegB_merges (fn off i : Nat) (b : Bool) : (s.setRegB fn off i b).merges = s.merges := State.setReg_merges s _ _ _
@[simp] theorem State.setRegB_mergesDone (fn off i : Nat) (b : Bool) : (s.setRegB fn off i b).mergesDone = s.mergesDone := State.setReg_mergesDone s _ _ _
@[simp] theorem State.setRegB_images (fn off i : Nat) (b : Bool) : (s.setRegB fn off i b).images = s.images := State.setReg_images s _ _ _
@[simp] theorem State.setRegB_kindles (fn off i : Nat) (b : Bool) : (s.setRegB fn off i b).kindles = s.kindles := State.setReg_kindles s _ _ _
@[simp] theorem State.setRegB_arrayHclk (fn off i : Nat) (b : Bool) : (s.setRegB fn off i b).arrayHclk = s.arrayHclk := State.setReg_arrayHclk s _ _ _
@[simp] theorem State.setRegB_arrayUsed (fn off i : Nat) (b : Bool) : (s.setRegB fn off i b).arrayUsed = s.arrayUsed := State.setReg_arrayUsed s _ _ _
@[simp] theorem State.setRegB_scrub (fn off i : Nat) (b : Bool) : (s.setRegB fn off i b).scrub = s.scrub := State.setReg_scrub s _ _ _
@[simp] theorem State.setRegB_conns (fn off i : Nat) (b : Bool) : (s.setRegB fn off i b).conns = s.conns := State.setReg_conns s _ _ _
@[simp] theorem State.setRegB_ports (fn off i : Nat) (b : Bool) : (s.setRegB fn off i b).ports = s.ports := State.setReg_ports s _ _ _
@[simp] theorem State.setRegB_up (fn off i : Nat) (b : Bool) : (s.setRegB fn off i b).up = s.up := State.setReg_up s _ _ _
@[simp] theorem State.setRegB_waykeys (fn off i : Nat) (b : Bool) : (s.setRegB fn off i b).waykeys = s.waykeys := State.setReg_waykeys s _ _ _
@[simp] theorem State.setRegB_wkLive (fn off i : Nat) (b : Bool) : (s.setRegB fn off i b).wkLive = s.wkLive := State.setReg_wkLive s _ _ _
@[simp] theorem State.setRegB_vioLog (fn off i : Nat) (b : Bool) : (s.setRegB fn off i b).vioLog = s.vioLog := State.setReg_vioLog s _ _ _
@[simp] theorem State.setRegB_shapers (fn off i : Nat) (b : Bool) : (s.setRegB fn off i b).shapers = s.shapers := State.setReg_shapers s _ _ _
@[simp] theorem State.setRegB_shChanges (fn off i : Nat) (b : Bool) : (s.setRegB fn off i b).shChanges = s.shChanges := State.setReg_shChanges s _ _ _
@[simp] theorem State.setRegB_acctPackets (fn off i : Nat) (b : Bool) : (s.setRegB fn off i b).acctPackets = s.acctPackets := State.setReg_acctPackets s _ _ _
@[simp] theorem State.setRegB_drrs (fn off i : Nat) (b : Bool) : (s.setRegB fn off i b).drrs = s.drrs := State.setReg_drrs s _ _ _
@[simp] theorem State.setRegB_replies (fn off i : Nat) (b : Bool) : (s.setRegB fn off i b).replies = s.replies := State.setReg_replies s _ _ _
@[simp] theorem State.setRegB_attest (fn off i : Nat) (b : Bool) : (s.setRegB fn off i b).attest = s.attest := State.setReg_attest s _ _ _
@[simp] theorem State.setRegB_meters (fn off i : Nat) (b : Bool) : (s.setRegB fn off i b).meters = s.meters := State.setReg_meters s _ _ _
@[simp] theorem State.setRegB_staging (fn off i : Nat) (b : Bool) : (s.setRegB fn off i b).staging = s.staging := State.setReg_staging s _ _ _
@[simp] theorem State.setRegB_probe (fn off i : Nat) (b : Bool) : (s.setRegB fn off i b).probe = s.probe := State.setReg_probe s _ _ _
@[simp] theorem State.setRegB_fenceRec (fn off i : Nat) (b : Bool) : (s.setRegB fn off i b).fenceRec = s.fenceRec := State.setReg_fenceRec s _ _ _
@[simp] theorem State.setRegB_suspects (fn off i : Nat) (b : Bool) : (s.setRegB fn off i b).suspects = s.suspects := State.setReg_suspects s _ _ _
@[simp] theorem State.setRegB_sharedFaults (fn off i : Nat) (b : Bool) : (s.setRegB fn off i b).sharedFaults = s.sharedFaults := State.setReg_sharedFaults s _ _ _
@[simp] theorem State.setRegB_flits (fn off i : Nat) (b : Bool) : (s.setRegB fn off i b).flits = s.flits := State.setReg_flits s _ _ _
@[simp] theorem State.setRegB_wdogValue (fn off i : Nat) (b : Bool) : (s.setRegB fn off i b).wdogValue = s.wdogValue := State.setReg_wdogValue s _ _ _
@[simp] theorem State.setRegB_wdogAt (fn off i : Nat) (b : Bool) : (s.setRegB fn off i b).wdogAt = s.wdogAt := State.setReg_wdogAt s _ _ _
@[simp] theorem State.setRegB_rebuilds (fn off i : Nat) (b : Bool) : (s.setRegB fn off i b).rebuilds = s.rebuilds := State.setReg_rebuilds s _ _ _
@[simp] theorem State.setRegB_forwards (fn off i : Nat) (b : Bool) : (s.setRegB fn off i b).forwards = s.forwards := State.setReg_forwards s _ _ _
@[simp] theorem State.setRegB_lodge (fn off i : Nat) (b : Bool) : (s.setRegB fn off i b).lodge = s.lodge := State.setReg_lodge s _ _ _
@[simp] theorem State.setRegB_resets (fn off i : Nat) (b : Bool) : (s.setRegB fn off i b).resets = s.resets := State.setReg_resets s _ _ _
@[simp] theorem State.setRegB_engResets (fn off i : Nat) (b : Bool) : (s.setRegB fn off i b).engResets = s.engResets := State.setReg_engResets s _ _ _
@[simp] theorem State.setRegB_flash (fn off i : Nat) (b : Bool) : (s.setRegB fn off i b).flash = s.flash := State.setReg_flash s _ _ _
@[simp] theorem State.setRegB_repairDirty (fn off i : Nat) (b : Bool) : (s.setRegB fn off i b).repairDirty = s.repairDirty := State.setReg_repairDirty s _ _ _
@[simp] theorem State.setRegB_mpeers (fn off i : Nat) (b : Bool) : (s.setRegB fn off i b).mpeers = s.mpeers := State.setReg_mpeers s _ _ _
@[simp] theorem State.setRegB_mgmt (fn off i : Nat) (b : Bool) : (s.setRegB fn off i b).mgmt = s.mgmt := State.setReg_mgmt s _ _ _
@[simp] theorem State.setRegB_rcvWriting (fn off i : Nat) (b : Bool) : (s.setRegB fn off i b).rcvWriting = s.rcvWriting := State.setReg_rcvWriting s _ _ _
@[simp] theorem State.setRegB_i3c (fn off i : Nat) (b : Bool) : (s.setRegB fn off i b).i3c = s.i3c := State.setReg_i3c s _ _ _
@[simp] theorem State.setRegB_therm (fn off i : Nat) (b : Bool) : (s.setRegB fn off i b).therm = s.therm := State.setReg_therm s _ _ _
@[simp] theorem State.setRegB_volt (fn off i : Nat) (b : Bool) : (s.setRegB fn off i b).volt = s.volt := State.setReg_volt s _ _ _
@[simp] theorem State.setRegB_jtag (fn off i : Nat) (b : Bool) : (s.setRegB fn off i b).jtag = s.jtag := State.setReg_jtag s _ _ _

/-! `State.setRegF`. -/

@[simp] theorem State.setRegF_pending (fn off lo w x : Nat) : (s.setRegF fn off lo w x).pending = s.pending := State.setReg_pending s _ _ _
@[simp] theorem State.setRegF_out (fn off lo w x : Nat) : (s.setRegF fn off lo w x).out = s.out := State.setReg_out s _ _ _
@[simp] theorem State.setRegF_draws (fn off lo w x : Nat) : (s.setRegF fn off lo w x).draws = s.draws := State.setReg_draws s _ _ _
@[simp] theorem State.setRegF_nextId (fn off lo w x : Nat) : (s.setRegF fn off lo w x).nextId = s.nextId := State.setReg_nextId s _ _ _
@[simp] theorem State.setRegF_posted (fn off lo w x : Nat) : (s.setRegF fn off lo w x).posted = s.posted := State.setReg_posted s _ _ _
@[simp] theorem State.setRegF_mem (fn off lo w x : Nat) : (s.setRegF fn off lo w x).mem = s.mem := State.setReg_mem s _ _ _
@[simp] theorem State.setRegF_stale (fn off lo w x : Nat) : (s.setRegF fn off lo w x).stale = s.stale := State.setReg_stale s _ _ _
@[simp] theorem State.setRegF_ecc (fn off lo w x : Nat) : (s.setRegF fn off lo w x).ecc = s.ecc := State.setReg_ecc s _ _ _
@[simp] theorem State.setRegF_scratch (fn off lo w x : Nat) : (s.setRegF fn off lo w x).scratch = s.scratch := State.setReg_scratch s _ _ _
@[simp] theorem State.setRegF_scratchEcc (fn off lo w x : Nat) : (s.setRegF fn off lo w x).scratchEcc = s.scratchEcc := State.setReg_scratchEcc s _ _ _
@[simp] theorem State.setRegF_arbs (fn off lo w x : Nat) : (s.setRegF fn off lo w x).arbs = s.arbs := State.setReg_arbs s _ _ _
@[simp] theorem State.setRegF_recode (fn off lo w x : Nat) : (s.setRegF fn off lo w x).recode = s.recode := State.setReg_recode s _ _ _
@[simp] theorem State.setRegF_acts (fn off lo w x : Nat) : (s.setRegF fn off lo w x).acts = s.acts := State.setReg_acts s _ _ _
@[simp] theorem State.setRegF_trr (fn off lo w x : Nat) : (s.setRegF fn off lo w x).trr = s.trr := State.setReg_trr s _ _ _
@[simp] theorem State.setRegF_corrected (fn off lo w x : Nat) : (s.setRegF fn off lo w x).corrected = s.corrected := State.setReg_corrected s _ _ _
@[simp] theorem State.setRegF_spares (fn off lo w x : Nat) : (s.setRegF fn off lo w x).spares = s.spares := State.setReg_spares s _ _ _
@[simp] theorem State.setRegF_remapDue (fn off lo w x : Nat) : (s.setRegF fn off lo w x).remapDue = s.remapDue := State.setReg_remapDue s _ _ _
@[simp] theorem State.setRegF_ft (fn off lo w x : Nat) : (s.setRegF fn off lo w x).ft = s.ft := State.setReg_ft s _ _ _
@[simp] theorem State.setRegF_gated (fn off lo w x : Nat) : (s.setRegF fn off lo w x).gated = s.gated := State.setReg_gated s _ _ _
@[simp] theorem State.setRegF_life (fn off lo w x : Nat) : (s.setRegF fn off lo w x).life = s.life := State.setReg_life s _ _ _
@[simp] theorem State.setRegF_standbyWanted (fn off lo w x : Nat) : (s.setRegF fn off lo w x).standbyWanted = s.standbyWanted := State.setReg_standbyWanted s _ _ _
@[simp] theorem State.setRegF_power (fn off lo w x : Nat) : (s.setRegF fn off lo w x).power = s.power := State.setReg_power s _ _ _
@[simp] theorem State.setRegF_powerWant (fn off lo w x : Nat) : (s.setRegF fn off lo w x).powerWant = s.powerWant := State.setReg_powerWant s _ _ _
@[simp] theorem State.setRegF_powerNext (fn off lo w x : Nat) : (s.setRegF fn off lo w x).powerNext = s.powerNext := State.setReg_powerNext s _ _ _
@[simp] theorem State.setRegF_saving (fn off lo w x : Nat) : (s.setRegF fn off lo w x).saving = s.saving := State.setReg_saving s _ _ _
@[simp] theorem State.setRegF_pwrGood (fn off lo w x : Nat) : (s.setRegF fn off lo w x).pwrGood = s.pwrGood := State.setReg_pwrGood s _ _ _
@[simp] theorem State.setRegF_thermTripped (fn off lo w x : Nat) : (s.setRegF fn off lo w x).thermTripped = s.thermTripped := State.setReg_thermTripped s _ _ _
@[simp] theorem State.setRegF_straps (fn off lo w x : Nat) : (s.setRegF fn off lo w x).straps = s.straps := State.setReg_straps s _ _ _
@[simp] theorem State.setRegF_cause (fn off lo w x : Nat) : (s.setRegF fn off lo w x).cause = s.cause := State.setReg_cause s _ _ _
@[simp] theorem State.setRegF_charter (fn off lo w x : Nat) : (s.setRegF fn off lo w x).charter = s.charter := State.setReg_charter s _ _ _
@[simp] theorem State.setRegF_identity (fn off lo w x : Nat) : (s.setRegF fn off lo w x).identity = s.identity := State.setReg_identity s _ _ _
@[simp] theorem State.setRegF_entries (fn off lo w x : Nat) : (s.setRegF fn off lo w x).entries = s.entries := State.setReg_entries s _ _ _
@[simp] theorem State.setRegF_partState (fn off lo w x : Nat) : (s.setRegF fn off lo w x).partState = s.partState := State.setReg_partState s _ _ _
@[simp] theorem State.setRegF_lastLock (fn off lo w x : Nat) : (s.setRegF fn off lo w x).lastLock = s.lastLock := State.setReg_lastLock s _ _ _
@[simp] theorem State.setRegF_releasing (fn off lo w x : Nat) : (s.setRegF fn off lo w x).releasing = s.releasing := State.setReg_releasing s _ _ _
@[simp] theorem State.setRegF_objs (fn off lo w x : Nat) : (s.setRegF fn off lo w x).objs = s.objs := State.setReg_objs s _ _ _
@[simp] theorem State.setRegF_objStage (fn off lo w x : Nat) : (s.setRegF fn off lo w x).objStage = s.objStage := State.setReg_objStage s _ _ _
@[simp] theorem State.setRegF_far (fn off lo w x : Nat) : (s.setRegF fn off lo w x).far = s.far := State.setReg_far s _ _ _
@[simp] theorem State.setRegF_dir (fn off lo w x : Nat) : (s.setRegF fn off lo w x).dir = s.dir := State.setReg_dir s _ _ _
@[simp] theorem State.setRegF_dirGen (fn off lo w x : Nat) : (s.setRegF fn off lo w x).dirGen = s.dirGen := State.setReg_dirGen s _ _ _
@[simp] theorem State.setRegF_lookup (fn off lo w x : Nat) : (s.setRegF fn off lo w x).lookup = s.lookup := State.setReg_lookup s _ _ _
@[simp] theorem State.setRegF_slots (fn off lo w x : Nat) : (s.setRegF fn off lo w x).slots = s.slots := State.setReg_slots s _ _ _
@[simp] theorem State.setRegF_moves (fn off lo w x : Nat) : (s.setRegF fn off lo w x).moves = s.moves := State.setReg_moves s _ _ _
@[simp] theorem State.setRegF_heat (fn off lo w x : Nat) : (s.setRegF fn off lo w x).heat = s.heat := State.setReg_heat s _ _ _
@[simp] theorem State.setRegF_bg (fn off lo w x : Nat) : (s.setRegF fn off lo w x).bg = s.bg := State.setReg_bg s _ _ _
@[simp] theorem State.setRegF_cmds (fn off lo w x : Nat) : (s.setRegF fn off lo w x).cmds = s.cmds := State.setReg_cmds s _ _ _
@[simp] theorem State.setRegF_rings (fn off lo w x : Nat) : (s.setRegF fn off lo w x).rings = s.rings := State.setReg_rings s _ _ _
@[simp] theorem State.setRegF_links (fn off lo w x : Nat) : (s.setRegF fn off lo w x).links = s.links := State.setReg_links s _ _ _
@[simp] theorem State.setRegF_inq (fn off lo w x : Nat) : (s.setRegF fn off lo w x).inq = s.inq := State.setReg_inq s _ _ _
@[simp] theorem State.setRegF_turns (fn off lo w x : Nat) : (s.setRegF fn off lo w x).turns = s.turns := State.setReg_turns s _ _ _
@[simp] theorem State.setRegF_wms (fn off lo w x : Nat) : (s.setRegF fn off lo w x).wms = s.wms := State.setReg_wms s _ _ _
@[simp] theorem State.setRegF_wmLatch (fn off lo w x : Nat) : (s.setRegF fn off lo w x).wmLatch = s.wmLatch := State.setReg_wmLatch s _ _ _
@[simp] theorem State.setRegF_holds (fn off lo w x : Nat) : (s.setRegF fn off lo w x).holds = s.holds := State.setReg_holds s _ _ _
@[simp] theorem State.setRegF_hauls (fn off lo w x : Nat) : (s.setRegF fn off lo w x).hauls = s.hauls := State.setReg_hauls s _ _ _
@[simp] theorem State.setRegF_rows (fn off lo w x : Nat) : (s.setRegF fn off lo w x).rows = s.rows := State.setReg_rows s _ _ _
@[simp] theorem State.setRegF_reqs (fn off lo w x : Nat) : (s.setRegF fn off lo w x).reqs = s.reqs := State.setReg_reqs s _ _ _
@[simp] theorem State.setRegF_plan (fn off lo w x : Nat) : (s.setRegF fn off lo w x).plan = s.plan := State.setReg_plan s _ _ _
@[simp] theorem State.setRegF_planBase (fn off lo w x : Nat) : (s.setRegF fn off lo w x).planBase = s.planBase := State.setReg_planBase s _ _ _
@[simp] theorem State.setRegF_sent (fn off lo w x : Nat) : (s.setRegF fn off lo w x).sent = s.sent := State.setReg_sent s _ _ _
@[simp] theorem State.setRegF_emberNums (fn off lo w x : Nat) : (s.setRegF fn off lo w x).emberNums = s.emberNums := State.setReg_emberNums s _ _ _
@[simp] theorem State.setRegF_recv (fn off lo w x : Nat) : (s.setRegF fn off lo w x).recv = s.recv := State.setReg_recv s _ _ _
@[simp] theorem State.setRegF_merges (fn off lo w x : Nat) : (s.setRegF fn off lo w x).merges = s.merges := State.setReg_merges s _ _ _
@[simp] theorem State.setRegF_mergesDone (fn off lo w x : Nat) : (s.setRegF fn off lo w x).mergesDone = s.mergesDone := State.setReg_mergesDone s _ _ _
@[simp] theorem State.setRegF_images (fn off lo w x : Nat) : (s.setRegF fn off lo w x).images = s.images := State.setReg_images s _ _ _
@[simp] theorem State.setRegF_kindles (fn off lo w x : Nat) : (s.setRegF fn off lo w x).kindles = s.kindles := State.setReg_kindles s _ _ _
@[simp] theorem State.setRegF_arrayHclk (fn off lo w x : Nat) : (s.setRegF fn off lo w x).arrayHclk = s.arrayHclk := State.setReg_arrayHclk s _ _ _
@[simp] theorem State.setRegF_arrayUsed (fn off lo w x : Nat) : (s.setRegF fn off lo w x).arrayUsed = s.arrayUsed := State.setReg_arrayUsed s _ _ _
@[simp] theorem State.setRegF_scrub (fn off lo w x : Nat) : (s.setRegF fn off lo w x).scrub = s.scrub := State.setReg_scrub s _ _ _
@[simp] theorem State.setRegF_conns (fn off lo w x : Nat) : (s.setRegF fn off lo w x).conns = s.conns := State.setReg_conns s _ _ _
@[simp] theorem State.setRegF_ports (fn off lo w x : Nat) : (s.setRegF fn off lo w x).ports = s.ports := State.setReg_ports s _ _ _
@[simp] theorem State.setRegF_up (fn off lo w x : Nat) : (s.setRegF fn off lo w x).up = s.up := State.setReg_up s _ _ _
@[simp] theorem State.setRegF_waykeys (fn off lo w x : Nat) : (s.setRegF fn off lo w x).waykeys = s.waykeys := State.setReg_waykeys s _ _ _
@[simp] theorem State.setRegF_wkLive (fn off lo w x : Nat) : (s.setRegF fn off lo w x).wkLive = s.wkLive := State.setReg_wkLive s _ _ _
@[simp] theorem State.setRegF_vioLog (fn off lo w x : Nat) : (s.setRegF fn off lo w x).vioLog = s.vioLog := State.setReg_vioLog s _ _ _
@[simp] theorem State.setRegF_shapers (fn off lo w x : Nat) : (s.setRegF fn off lo w x).shapers = s.shapers := State.setReg_shapers s _ _ _
@[simp] theorem State.setRegF_shChanges (fn off lo w x : Nat) : (s.setRegF fn off lo w x).shChanges = s.shChanges := State.setReg_shChanges s _ _ _
@[simp] theorem State.setRegF_acctPackets (fn off lo w x : Nat) : (s.setRegF fn off lo w x).acctPackets = s.acctPackets := State.setReg_acctPackets s _ _ _
@[simp] theorem State.setRegF_drrs (fn off lo w x : Nat) : (s.setRegF fn off lo w x).drrs = s.drrs := State.setReg_drrs s _ _ _
@[simp] theorem State.setRegF_replies (fn off lo w x : Nat) : (s.setRegF fn off lo w x).replies = s.replies := State.setReg_replies s _ _ _
@[simp] theorem State.setRegF_attest (fn off lo w x : Nat) : (s.setRegF fn off lo w x).attest = s.attest := State.setReg_attest s _ _ _
@[simp] theorem State.setRegF_meters (fn off lo w x : Nat) : (s.setRegF fn off lo w x).meters = s.meters := State.setReg_meters s _ _ _
@[simp] theorem State.setRegF_staging (fn off lo w x : Nat) : (s.setRegF fn off lo w x).staging = s.staging := State.setReg_staging s _ _ _
@[simp] theorem State.setRegF_probe (fn off lo w x : Nat) : (s.setRegF fn off lo w x).probe = s.probe := State.setReg_probe s _ _ _
@[simp] theorem State.setRegF_fenceRec (fn off lo w x : Nat) : (s.setRegF fn off lo w x).fenceRec = s.fenceRec := State.setReg_fenceRec s _ _ _
@[simp] theorem State.setRegF_suspects (fn off lo w x : Nat) : (s.setRegF fn off lo w x).suspects = s.suspects := State.setReg_suspects s _ _ _
@[simp] theorem State.setRegF_sharedFaults (fn off lo w x : Nat) : (s.setRegF fn off lo w x).sharedFaults = s.sharedFaults := State.setReg_sharedFaults s _ _ _
@[simp] theorem State.setRegF_flits (fn off lo w x : Nat) : (s.setRegF fn off lo w x).flits = s.flits := State.setReg_flits s _ _ _
@[simp] theorem State.setRegF_wdogValue (fn off lo w x : Nat) : (s.setRegF fn off lo w x).wdogValue = s.wdogValue := State.setReg_wdogValue s _ _ _
@[simp] theorem State.setRegF_wdogAt (fn off lo w x : Nat) : (s.setRegF fn off lo w x).wdogAt = s.wdogAt := State.setReg_wdogAt s _ _ _
@[simp] theorem State.setRegF_rebuilds (fn off lo w x : Nat) : (s.setRegF fn off lo w x).rebuilds = s.rebuilds := State.setReg_rebuilds s _ _ _
@[simp] theorem State.setRegF_forwards (fn off lo w x : Nat) : (s.setRegF fn off lo w x).forwards = s.forwards := State.setReg_forwards s _ _ _
@[simp] theorem State.setRegF_lodge (fn off lo w x : Nat) : (s.setRegF fn off lo w x).lodge = s.lodge := State.setReg_lodge s _ _ _
@[simp] theorem State.setRegF_resets (fn off lo w x : Nat) : (s.setRegF fn off lo w x).resets = s.resets := State.setReg_resets s _ _ _
@[simp] theorem State.setRegF_engResets (fn off lo w x : Nat) : (s.setRegF fn off lo w x).engResets = s.engResets := State.setReg_engResets s _ _ _
@[simp] theorem State.setRegF_flash (fn off lo w x : Nat) : (s.setRegF fn off lo w x).flash = s.flash := State.setReg_flash s _ _ _
@[simp] theorem State.setRegF_repairDirty (fn off lo w x : Nat) : (s.setRegF fn off lo w x).repairDirty = s.repairDirty := State.setReg_repairDirty s _ _ _
@[simp] theorem State.setRegF_mpeers (fn off lo w x : Nat) : (s.setRegF fn off lo w x).mpeers = s.mpeers := State.setReg_mpeers s _ _ _
@[simp] theorem State.setRegF_mgmt (fn off lo w x : Nat) : (s.setRegF fn off lo w x).mgmt = s.mgmt := State.setReg_mgmt s _ _ _
@[simp] theorem State.setRegF_rcvWriting (fn off lo w x : Nat) : (s.setRegF fn off lo w x).rcvWriting = s.rcvWriting := State.setReg_rcvWriting s _ _ _
@[simp] theorem State.setRegF_i3c (fn off lo w x : Nat) : (s.setRegF fn off lo w x).i3c = s.i3c := State.setReg_i3c s _ _ _
@[simp] theorem State.setRegF_therm (fn off lo w x : Nat) : (s.setRegF fn off lo w x).therm = s.therm := State.setReg_therm s _ _ _
@[simp] theorem State.setRegF_volt (fn off lo w x : Nat) : (s.setRegF fn off lo w x).volt = s.volt := State.setReg_volt s _ _ _
@[simp] theorem State.setRegF_jtag (fn off lo w x : Nat) : (s.setRegF fn off lo w x).jtag = s.jtag := State.setReg_jtag s _ _ _

/-! `State.count`. -/

@[simp] theorem State.count_pending (fn off n : Nat) : (s.count fn off n).pending = s.pending := State.setReg_pending s _ _ _
@[simp] theorem State.count_out (fn off n : Nat) : (s.count fn off n).out = s.out := State.setReg_out s _ _ _
@[simp] theorem State.count_draws (fn off n : Nat) : (s.count fn off n).draws = s.draws := State.setReg_draws s _ _ _
@[simp] theorem State.count_nextId (fn off n : Nat) : (s.count fn off n).nextId = s.nextId := State.setReg_nextId s _ _ _
@[simp] theorem State.count_posted (fn off n : Nat) : (s.count fn off n).posted = s.posted := State.setReg_posted s _ _ _
@[simp] theorem State.count_mem (fn off n : Nat) : (s.count fn off n).mem = s.mem := State.setReg_mem s _ _ _
@[simp] theorem State.count_stale (fn off n : Nat) : (s.count fn off n).stale = s.stale := State.setReg_stale s _ _ _
@[simp] theorem State.count_ecc (fn off n : Nat) : (s.count fn off n).ecc = s.ecc := State.setReg_ecc s _ _ _
@[simp] theorem State.count_scratch (fn off n : Nat) : (s.count fn off n).scratch = s.scratch := State.setReg_scratch s _ _ _
@[simp] theorem State.count_scratchEcc (fn off n : Nat) : (s.count fn off n).scratchEcc = s.scratchEcc := State.setReg_scratchEcc s _ _ _
@[simp] theorem State.count_arbs (fn off n : Nat) : (s.count fn off n).arbs = s.arbs := State.setReg_arbs s _ _ _
@[simp] theorem State.count_recode (fn off n : Nat) : (s.count fn off n).recode = s.recode := State.setReg_recode s _ _ _
@[simp] theorem State.count_acts (fn off n : Nat) : (s.count fn off n).acts = s.acts := State.setReg_acts s _ _ _
@[simp] theorem State.count_trr (fn off n : Nat) : (s.count fn off n).trr = s.trr := State.setReg_trr s _ _ _
@[simp] theorem State.count_corrected (fn off n : Nat) : (s.count fn off n).corrected = s.corrected := State.setReg_corrected s _ _ _
@[simp] theorem State.count_spares (fn off n : Nat) : (s.count fn off n).spares = s.spares := State.setReg_spares s _ _ _
@[simp] theorem State.count_remapDue (fn off n : Nat) : (s.count fn off n).remapDue = s.remapDue := State.setReg_remapDue s _ _ _
@[simp] theorem State.count_ft (fn off n : Nat) : (s.count fn off n).ft = s.ft := State.setReg_ft s _ _ _
@[simp] theorem State.count_gated (fn off n : Nat) : (s.count fn off n).gated = s.gated := State.setReg_gated s _ _ _
@[simp] theorem State.count_life (fn off n : Nat) : (s.count fn off n).life = s.life := State.setReg_life s _ _ _
@[simp] theorem State.count_standbyWanted (fn off n : Nat) : (s.count fn off n).standbyWanted = s.standbyWanted := State.setReg_standbyWanted s _ _ _
@[simp] theorem State.count_power (fn off n : Nat) : (s.count fn off n).power = s.power := State.setReg_power s _ _ _
@[simp] theorem State.count_powerWant (fn off n : Nat) : (s.count fn off n).powerWant = s.powerWant := State.setReg_powerWant s _ _ _
@[simp] theorem State.count_powerNext (fn off n : Nat) : (s.count fn off n).powerNext = s.powerNext := State.setReg_powerNext s _ _ _
@[simp] theorem State.count_saving (fn off n : Nat) : (s.count fn off n).saving = s.saving := State.setReg_saving s _ _ _
@[simp] theorem State.count_pwrGood (fn off n : Nat) : (s.count fn off n).pwrGood = s.pwrGood := State.setReg_pwrGood s _ _ _
@[simp] theorem State.count_thermTripped (fn off n : Nat) : (s.count fn off n).thermTripped = s.thermTripped := State.setReg_thermTripped s _ _ _
@[simp] theorem State.count_straps (fn off n : Nat) : (s.count fn off n).straps = s.straps := State.setReg_straps s _ _ _
@[simp] theorem State.count_cause (fn off n : Nat) : (s.count fn off n).cause = s.cause := State.setReg_cause s _ _ _
@[simp] theorem State.count_charter (fn off n : Nat) : (s.count fn off n).charter = s.charter := State.setReg_charter s _ _ _
@[simp] theorem State.count_identity (fn off n : Nat) : (s.count fn off n).identity = s.identity := State.setReg_identity s _ _ _
@[simp] theorem State.count_entries (fn off n : Nat) : (s.count fn off n).entries = s.entries := State.setReg_entries s _ _ _
@[simp] theorem State.count_partState (fn off n : Nat) : (s.count fn off n).partState = s.partState := State.setReg_partState s _ _ _
@[simp] theorem State.count_lastLock (fn off n : Nat) : (s.count fn off n).lastLock = s.lastLock := State.setReg_lastLock s _ _ _
@[simp] theorem State.count_releasing (fn off n : Nat) : (s.count fn off n).releasing = s.releasing := State.setReg_releasing s _ _ _
@[simp] theorem State.count_objs (fn off n : Nat) : (s.count fn off n).objs = s.objs := State.setReg_objs s _ _ _
@[simp] theorem State.count_objStage (fn off n : Nat) : (s.count fn off n).objStage = s.objStage := State.setReg_objStage s _ _ _
@[simp] theorem State.count_far (fn off n : Nat) : (s.count fn off n).far = s.far := State.setReg_far s _ _ _
@[simp] theorem State.count_dir (fn off n : Nat) : (s.count fn off n).dir = s.dir := State.setReg_dir s _ _ _
@[simp] theorem State.count_dirGen (fn off n : Nat) : (s.count fn off n).dirGen = s.dirGen := State.setReg_dirGen s _ _ _
@[simp] theorem State.count_lookup (fn off n : Nat) : (s.count fn off n).lookup = s.lookup := State.setReg_lookup s _ _ _
@[simp] theorem State.count_slots (fn off n : Nat) : (s.count fn off n).slots = s.slots := State.setReg_slots s _ _ _
@[simp] theorem State.count_moves (fn off n : Nat) : (s.count fn off n).moves = s.moves := State.setReg_moves s _ _ _
@[simp] theorem State.count_heat (fn off n : Nat) : (s.count fn off n).heat = s.heat := State.setReg_heat s _ _ _
@[simp] theorem State.count_bg (fn off n : Nat) : (s.count fn off n).bg = s.bg := State.setReg_bg s _ _ _
@[simp] theorem State.count_cmds (fn off n : Nat) : (s.count fn off n).cmds = s.cmds := State.setReg_cmds s _ _ _
@[simp] theorem State.count_rings (fn off n : Nat) : (s.count fn off n).rings = s.rings := State.setReg_rings s _ _ _
@[simp] theorem State.count_links (fn off n : Nat) : (s.count fn off n).links = s.links := State.setReg_links s _ _ _
@[simp] theorem State.count_inq (fn off n : Nat) : (s.count fn off n).inq = s.inq := State.setReg_inq s _ _ _
@[simp] theorem State.count_turns (fn off n : Nat) : (s.count fn off n).turns = s.turns := State.setReg_turns s _ _ _
@[simp] theorem State.count_wms (fn off n : Nat) : (s.count fn off n).wms = s.wms := State.setReg_wms s _ _ _
@[simp] theorem State.count_wmLatch (fn off n : Nat) : (s.count fn off n).wmLatch = s.wmLatch := State.setReg_wmLatch s _ _ _
@[simp] theorem State.count_holds (fn off n : Nat) : (s.count fn off n).holds = s.holds := State.setReg_holds s _ _ _
@[simp] theorem State.count_hauls (fn off n : Nat) : (s.count fn off n).hauls = s.hauls := State.setReg_hauls s _ _ _
@[simp] theorem State.count_rows (fn off n : Nat) : (s.count fn off n).rows = s.rows := State.setReg_rows s _ _ _
@[simp] theorem State.count_reqs (fn off n : Nat) : (s.count fn off n).reqs = s.reqs := State.setReg_reqs s _ _ _
@[simp] theorem State.count_plan (fn off n : Nat) : (s.count fn off n).plan = s.plan := State.setReg_plan s _ _ _
@[simp] theorem State.count_planBase (fn off n : Nat) : (s.count fn off n).planBase = s.planBase := State.setReg_planBase s _ _ _
@[simp] theorem State.count_sent (fn off n : Nat) : (s.count fn off n).sent = s.sent := State.setReg_sent s _ _ _
@[simp] theorem State.count_emberNums (fn off n : Nat) : (s.count fn off n).emberNums = s.emberNums := State.setReg_emberNums s _ _ _
@[simp] theorem State.count_recv (fn off n : Nat) : (s.count fn off n).recv = s.recv := State.setReg_recv s _ _ _
@[simp] theorem State.count_merges (fn off n : Nat) : (s.count fn off n).merges = s.merges := State.setReg_merges s _ _ _
@[simp] theorem State.count_mergesDone (fn off n : Nat) : (s.count fn off n).mergesDone = s.mergesDone := State.setReg_mergesDone s _ _ _
@[simp] theorem State.count_images (fn off n : Nat) : (s.count fn off n).images = s.images := State.setReg_images s _ _ _
@[simp] theorem State.count_kindles (fn off n : Nat) : (s.count fn off n).kindles = s.kindles := State.setReg_kindles s _ _ _
@[simp] theorem State.count_arrayHclk (fn off n : Nat) : (s.count fn off n).arrayHclk = s.arrayHclk := State.setReg_arrayHclk s _ _ _
@[simp] theorem State.count_arrayUsed (fn off n : Nat) : (s.count fn off n).arrayUsed = s.arrayUsed := State.setReg_arrayUsed s _ _ _
@[simp] theorem State.count_scrub (fn off n : Nat) : (s.count fn off n).scrub = s.scrub := State.setReg_scrub s _ _ _
@[simp] theorem State.count_conns (fn off n : Nat) : (s.count fn off n).conns = s.conns := State.setReg_conns s _ _ _
@[simp] theorem State.count_ports (fn off n : Nat) : (s.count fn off n).ports = s.ports := State.setReg_ports s _ _ _
@[simp] theorem State.count_up (fn off n : Nat) : (s.count fn off n).up = s.up := State.setReg_up s _ _ _
@[simp] theorem State.count_waykeys (fn off n : Nat) : (s.count fn off n).waykeys = s.waykeys := State.setReg_waykeys s _ _ _
@[simp] theorem State.count_wkLive (fn off n : Nat) : (s.count fn off n).wkLive = s.wkLive := State.setReg_wkLive s _ _ _
@[simp] theorem State.count_vioLog (fn off n : Nat) : (s.count fn off n).vioLog = s.vioLog := State.setReg_vioLog s _ _ _
@[simp] theorem State.count_shapers (fn off n : Nat) : (s.count fn off n).shapers = s.shapers := State.setReg_shapers s _ _ _
@[simp] theorem State.count_shChanges (fn off n : Nat) : (s.count fn off n).shChanges = s.shChanges := State.setReg_shChanges s _ _ _
@[simp] theorem State.count_acctPackets (fn off n : Nat) : (s.count fn off n).acctPackets = s.acctPackets := State.setReg_acctPackets s _ _ _
@[simp] theorem State.count_drrs (fn off n : Nat) : (s.count fn off n).drrs = s.drrs := State.setReg_drrs s _ _ _
@[simp] theorem State.count_replies (fn off n : Nat) : (s.count fn off n).replies = s.replies := State.setReg_replies s _ _ _
@[simp] theorem State.count_attest (fn off n : Nat) : (s.count fn off n).attest = s.attest := State.setReg_attest s _ _ _
@[simp] theorem State.count_meters (fn off n : Nat) : (s.count fn off n).meters = s.meters := State.setReg_meters s _ _ _
@[simp] theorem State.count_staging (fn off n : Nat) : (s.count fn off n).staging = s.staging := State.setReg_staging s _ _ _
@[simp] theorem State.count_probe (fn off n : Nat) : (s.count fn off n).probe = s.probe := State.setReg_probe s _ _ _
@[simp] theorem State.count_fenceRec (fn off n : Nat) : (s.count fn off n).fenceRec = s.fenceRec := State.setReg_fenceRec s _ _ _
@[simp] theorem State.count_suspects (fn off n : Nat) : (s.count fn off n).suspects = s.suspects := State.setReg_suspects s _ _ _
@[simp] theorem State.count_sharedFaults (fn off n : Nat) : (s.count fn off n).sharedFaults = s.sharedFaults := State.setReg_sharedFaults s _ _ _
@[simp] theorem State.count_flits (fn off n : Nat) : (s.count fn off n).flits = s.flits := State.setReg_flits s _ _ _
@[simp] theorem State.count_wdogValue (fn off n : Nat) : (s.count fn off n).wdogValue = s.wdogValue := State.setReg_wdogValue s _ _ _
@[simp] theorem State.count_wdogAt (fn off n : Nat) : (s.count fn off n).wdogAt = s.wdogAt := State.setReg_wdogAt s _ _ _
@[simp] theorem State.count_rebuilds (fn off n : Nat) : (s.count fn off n).rebuilds = s.rebuilds := State.setReg_rebuilds s _ _ _
@[simp] theorem State.count_forwards (fn off n : Nat) : (s.count fn off n).forwards = s.forwards := State.setReg_forwards s _ _ _
@[simp] theorem State.count_lodge (fn off n : Nat) : (s.count fn off n).lodge = s.lodge := State.setReg_lodge s _ _ _
@[simp] theorem State.count_resets (fn off n : Nat) : (s.count fn off n).resets = s.resets := State.setReg_resets s _ _ _
@[simp] theorem State.count_engResets (fn off n : Nat) : (s.count fn off n).engResets = s.engResets := State.setReg_engResets s _ _ _
@[simp] theorem State.count_flash (fn off n : Nat) : (s.count fn off n).flash = s.flash := State.setReg_flash s _ _ _
@[simp] theorem State.count_repairDirty (fn off n : Nat) : (s.count fn off n).repairDirty = s.repairDirty := State.setReg_repairDirty s _ _ _
@[simp] theorem State.count_mpeers (fn off n : Nat) : (s.count fn off n).mpeers = s.mpeers := State.setReg_mpeers s _ _ _
@[simp] theorem State.count_mgmt (fn off n : Nat) : (s.count fn off n).mgmt = s.mgmt := State.setReg_mgmt s _ _ _
@[simp] theorem State.count_rcvWriting (fn off n : Nat) : (s.count fn off n).rcvWriting = s.rcvWriting := State.setReg_rcvWriting s _ _ _
@[simp] theorem State.count_i3c (fn off n : Nat) : (s.count fn off n).i3c = s.i3c := State.setReg_i3c s _ _ _
@[simp] theorem State.count_therm (fn off n : Nat) : (s.count fn off n).therm = s.therm := State.setReg_therm s _ _ _
@[simp] theorem State.count_volt (fn off n : Nat) : (s.count fn off n).volt = s.volt := State.setReg_volt s _ _ _
@[simp] theorem State.count_jtag (fn off n : Nat) : (s.count fn off n).jtag = s.jtag := State.setReg_jtag s _ _ _

/-! `State.hwm`. -/

@[simp] theorem State.hwm_pending (fn off v : Nat) : (s.hwm fn off v).pending = s.pending := State.setReg_pending s _ _ _
@[simp] theorem State.hwm_out (fn off v : Nat) : (s.hwm fn off v).out = s.out := State.setReg_out s _ _ _
@[simp] theorem State.hwm_draws (fn off v : Nat) : (s.hwm fn off v).draws = s.draws := State.setReg_draws s _ _ _
@[simp] theorem State.hwm_nextId (fn off v : Nat) : (s.hwm fn off v).nextId = s.nextId := State.setReg_nextId s _ _ _
@[simp] theorem State.hwm_posted (fn off v : Nat) : (s.hwm fn off v).posted = s.posted := State.setReg_posted s _ _ _
@[simp] theorem State.hwm_mem (fn off v : Nat) : (s.hwm fn off v).mem = s.mem := State.setReg_mem s _ _ _
@[simp] theorem State.hwm_stale (fn off v : Nat) : (s.hwm fn off v).stale = s.stale := State.setReg_stale s _ _ _
@[simp] theorem State.hwm_ecc (fn off v : Nat) : (s.hwm fn off v).ecc = s.ecc := State.setReg_ecc s _ _ _
@[simp] theorem State.hwm_scratch (fn off v : Nat) : (s.hwm fn off v).scratch = s.scratch := State.setReg_scratch s _ _ _
@[simp] theorem State.hwm_scratchEcc (fn off v : Nat) : (s.hwm fn off v).scratchEcc = s.scratchEcc := State.setReg_scratchEcc s _ _ _
@[simp] theorem State.hwm_arbs (fn off v : Nat) : (s.hwm fn off v).arbs = s.arbs := State.setReg_arbs s _ _ _
@[simp] theorem State.hwm_recode (fn off v : Nat) : (s.hwm fn off v).recode = s.recode := State.setReg_recode s _ _ _
@[simp] theorem State.hwm_acts (fn off v : Nat) : (s.hwm fn off v).acts = s.acts := State.setReg_acts s _ _ _
@[simp] theorem State.hwm_trr (fn off v : Nat) : (s.hwm fn off v).trr = s.trr := State.setReg_trr s _ _ _
@[simp] theorem State.hwm_corrected (fn off v : Nat) : (s.hwm fn off v).corrected = s.corrected := State.setReg_corrected s _ _ _
@[simp] theorem State.hwm_spares (fn off v : Nat) : (s.hwm fn off v).spares = s.spares := State.setReg_spares s _ _ _
@[simp] theorem State.hwm_remapDue (fn off v : Nat) : (s.hwm fn off v).remapDue = s.remapDue := State.setReg_remapDue s _ _ _
@[simp] theorem State.hwm_ft (fn off v : Nat) : (s.hwm fn off v).ft = s.ft := State.setReg_ft s _ _ _
@[simp] theorem State.hwm_gated (fn off v : Nat) : (s.hwm fn off v).gated = s.gated := State.setReg_gated s _ _ _
@[simp] theorem State.hwm_life (fn off v : Nat) : (s.hwm fn off v).life = s.life := State.setReg_life s _ _ _
@[simp] theorem State.hwm_standbyWanted (fn off v : Nat) : (s.hwm fn off v).standbyWanted = s.standbyWanted := State.setReg_standbyWanted s _ _ _
@[simp] theorem State.hwm_power (fn off v : Nat) : (s.hwm fn off v).power = s.power := State.setReg_power s _ _ _
@[simp] theorem State.hwm_powerWant (fn off v : Nat) : (s.hwm fn off v).powerWant = s.powerWant := State.setReg_powerWant s _ _ _
@[simp] theorem State.hwm_powerNext (fn off v : Nat) : (s.hwm fn off v).powerNext = s.powerNext := State.setReg_powerNext s _ _ _
@[simp] theorem State.hwm_saving (fn off v : Nat) : (s.hwm fn off v).saving = s.saving := State.setReg_saving s _ _ _
@[simp] theorem State.hwm_pwrGood (fn off v : Nat) : (s.hwm fn off v).pwrGood = s.pwrGood := State.setReg_pwrGood s _ _ _
@[simp] theorem State.hwm_thermTripped (fn off v : Nat) : (s.hwm fn off v).thermTripped = s.thermTripped := State.setReg_thermTripped s _ _ _
@[simp] theorem State.hwm_straps (fn off v : Nat) : (s.hwm fn off v).straps = s.straps := State.setReg_straps s _ _ _
@[simp] theorem State.hwm_cause (fn off v : Nat) : (s.hwm fn off v).cause = s.cause := State.setReg_cause s _ _ _
@[simp] theorem State.hwm_charter (fn off v : Nat) : (s.hwm fn off v).charter = s.charter := State.setReg_charter s _ _ _
@[simp] theorem State.hwm_identity (fn off v : Nat) : (s.hwm fn off v).identity = s.identity := State.setReg_identity s _ _ _
@[simp] theorem State.hwm_entries (fn off v : Nat) : (s.hwm fn off v).entries = s.entries := State.setReg_entries s _ _ _
@[simp] theorem State.hwm_partState (fn off v : Nat) : (s.hwm fn off v).partState = s.partState := State.setReg_partState s _ _ _
@[simp] theorem State.hwm_lastLock (fn off v : Nat) : (s.hwm fn off v).lastLock = s.lastLock := State.setReg_lastLock s _ _ _
@[simp] theorem State.hwm_releasing (fn off v : Nat) : (s.hwm fn off v).releasing = s.releasing := State.setReg_releasing s _ _ _
@[simp] theorem State.hwm_objs (fn off v : Nat) : (s.hwm fn off v).objs = s.objs := State.setReg_objs s _ _ _
@[simp] theorem State.hwm_objStage (fn off v : Nat) : (s.hwm fn off v).objStage = s.objStage := State.setReg_objStage s _ _ _
@[simp] theorem State.hwm_far (fn off v : Nat) : (s.hwm fn off v).far = s.far := State.setReg_far s _ _ _
@[simp] theorem State.hwm_dir (fn off v : Nat) : (s.hwm fn off v).dir = s.dir := State.setReg_dir s _ _ _
@[simp] theorem State.hwm_dirGen (fn off v : Nat) : (s.hwm fn off v).dirGen = s.dirGen := State.setReg_dirGen s _ _ _
@[simp] theorem State.hwm_lookup (fn off v : Nat) : (s.hwm fn off v).lookup = s.lookup := State.setReg_lookup s _ _ _
@[simp] theorem State.hwm_slots (fn off v : Nat) : (s.hwm fn off v).slots = s.slots := State.setReg_slots s _ _ _
@[simp] theorem State.hwm_moves (fn off v : Nat) : (s.hwm fn off v).moves = s.moves := State.setReg_moves s _ _ _
@[simp] theorem State.hwm_heat (fn off v : Nat) : (s.hwm fn off v).heat = s.heat := State.setReg_heat s _ _ _
@[simp] theorem State.hwm_bg (fn off v : Nat) : (s.hwm fn off v).bg = s.bg := State.setReg_bg s _ _ _
@[simp] theorem State.hwm_cmds (fn off v : Nat) : (s.hwm fn off v).cmds = s.cmds := State.setReg_cmds s _ _ _
@[simp] theorem State.hwm_rings (fn off v : Nat) : (s.hwm fn off v).rings = s.rings := State.setReg_rings s _ _ _
@[simp] theorem State.hwm_links (fn off v : Nat) : (s.hwm fn off v).links = s.links := State.setReg_links s _ _ _
@[simp] theorem State.hwm_inq (fn off v : Nat) : (s.hwm fn off v).inq = s.inq := State.setReg_inq s _ _ _
@[simp] theorem State.hwm_turns (fn off v : Nat) : (s.hwm fn off v).turns = s.turns := State.setReg_turns s _ _ _
@[simp] theorem State.hwm_wms (fn off v : Nat) : (s.hwm fn off v).wms = s.wms := State.setReg_wms s _ _ _
@[simp] theorem State.hwm_wmLatch (fn off v : Nat) : (s.hwm fn off v).wmLatch = s.wmLatch := State.setReg_wmLatch s _ _ _
@[simp] theorem State.hwm_holds (fn off v : Nat) : (s.hwm fn off v).holds = s.holds := State.setReg_holds s _ _ _
@[simp] theorem State.hwm_hauls (fn off v : Nat) : (s.hwm fn off v).hauls = s.hauls := State.setReg_hauls s _ _ _
@[simp] theorem State.hwm_rows (fn off v : Nat) : (s.hwm fn off v).rows = s.rows := State.setReg_rows s _ _ _
@[simp] theorem State.hwm_reqs (fn off v : Nat) : (s.hwm fn off v).reqs = s.reqs := State.setReg_reqs s _ _ _
@[simp] theorem State.hwm_plan (fn off v : Nat) : (s.hwm fn off v).plan = s.plan := State.setReg_plan s _ _ _
@[simp] theorem State.hwm_planBase (fn off v : Nat) : (s.hwm fn off v).planBase = s.planBase := State.setReg_planBase s _ _ _
@[simp] theorem State.hwm_sent (fn off v : Nat) : (s.hwm fn off v).sent = s.sent := State.setReg_sent s _ _ _
@[simp] theorem State.hwm_emberNums (fn off v : Nat) : (s.hwm fn off v).emberNums = s.emberNums := State.setReg_emberNums s _ _ _
@[simp] theorem State.hwm_recv (fn off v : Nat) : (s.hwm fn off v).recv = s.recv := State.setReg_recv s _ _ _
@[simp] theorem State.hwm_merges (fn off v : Nat) : (s.hwm fn off v).merges = s.merges := State.setReg_merges s _ _ _
@[simp] theorem State.hwm_mergesDone (fn off v : Nat) : (s.hwm fn off v).mergesDone = s.mergesDone := State.setReg_mergesDone s _ _ _
@[simp] theorem State.hwm_images (fn off v : Nat) : (s.hwm fn off v).images = s.images := State.setReg_images s _ _ _
@[simp] theorem State.hwm_kindles (fn off v : Nat) : (s.hwm fn off v).kindles = s.kindles := State.setReg_kindles s _ _ _
@[simp] theorem State.hwm_arrayHclk (fn off v : Nat) : (s.hwm fn off v).arrayHclk = s.arrayHclk := State.setReg_arrayHclk s _ _ _
@[simp] theorem State.hwm_arrayUsed (fn off v : Nat) : (s.hwm fn off v).arrayUsed = s.arrayUsed := State.setReg_arrayUsed s _ _ _
@[simp] theorem State.hwm_scrub (fn off v : Nat) : (s.hwm fn off v).scrub = s.scrub := State.setReg_scrub s _ _ _
@[simp] theorem State.hwm_conns (fn off v : Nat) : (s.hwm fn off v).conns = s.conns := State.setReg_conns s _ _ _
@[simp] theorem State.hwm_ports (fn off v : Nat) : (s.hwm fn off v).ports = s.ports := State.setReg_ports s _ _ _
@[simp] theorem State.hwm_up (fn off v : Nat) : (s.hwm fn off v).up = s.up := State.setReg_up s _ _ _
@[simp] theorem State.hwm_waykeys (fn off v : Nat) : (s.hwm fn off v).waykeys = s.waykeys := State.setReg_waykeys s _ _ _
@[simp] theorem State.hwm_wkLive (fn off v : Nat) : (s.hwm fn off v).wkLive = s.wkLive := State.setReg_wkLive s _ _ _
@[simp] theorem State.hwm_vioLog (fn off v : Nat) : (s.hwm fn off v).vioLog = s.vioLog := State.setReg_vioLog s _ _ _
@[simp] theorem State.hwm_shapers (fn off v : Nat) : (s.hwm fn off v).shapers = s.shapers := State.setReg_shapers s _ _ _
@[simp] theorem State.hwm_shChanges (fn off v : Nat) : (s.hwm fn off v).shChanges = s.shChanges := State.setReg_shChanges s _ _ _
@[simp] theorem State.hwm_acctPackets (fn off v : Nat) : (s.hwm fn off v).acctPackets = s.acctPackets := State.setReg_acctPackets s _ _ _
@[simp] theorem State.hwm_drrs (fn off v : Nat) : (s.hwm fn off v).drrs = s.drrs := State.setReg_drrs s _ _ _
@[simp] theorem State.hwm_replies (fn off v : Nat) : (s.hwm fn off v).replies = s.replies := State.setReg_replies s _ _ _
@[simp] theorem State.hwm_attest (fn off v : Nat) : (s.hwm fn off v).attest = s.attest := State.setReg_attest s _ _ _
@[simp] theorem State.hwm_meters (fn off v : Nat) : (s.hwm fn off v).meters = s.meters := State.setReg_meters s _ _ _
@[simp] theorem State.hwm_staging (fn off v : Nat) : (s.hwm fn off v).staging = s.staging := State.setReg_staging s _ _ _
@[simp] theorem State.hwm_probe (fn off v : Nat) : (s.hwm fn off v).probe = s.probe := State.setReg_probe s _ _ _
@[simp] theorem State.hwm_fenceRec (fn off v : Nat) : (s.hwm fn off v).fenceRec = s.fenceRec := State.setReg_fenceRec s _ _ _
@[simp] theorem State.hwm_suspects (fn off v : Nat) : (s.hwm fn off v).suspects = s.suspects := State.setReg_suspects s _ _ _
@[simp] theorem State.hwm_sharedFaults (fn off v : Nat) : (s.hwm fn off v).sharedFaults = s.sharedFaults := State.setReg_sharedFaults s _ _ _
@[simp] theorem State.hwm_flits (fn off v : Nat) : (s.hwm fn off v).flits = s.flits := State.setReg_flits s _ _ _
@[simp] theorem State.hwm_wdogValue (fn off v : Nat) : (s.hwm fn off v).wdogValue = s.wdogValue := State.setReg_wdogValue s _ _ _
@[simp] theorem State.hwm_wdogAt (fn off v : Nat) : (s.hwm fn off v).wdogAt = s.wdogAt := State.setReg_wdogAt s _ _ _
@[simp] theorem State.hwm_rebuilds (fn off v : Nat) : (s.hwm fn off v).rebuilds = s.rebuilds := State.setReg_rebuilds s _ _ _
@[simp] theorem State.hwm_forwards (fn off v : Nat) : (s.hwm fn off v).forwards = s.forwards := State.setReg_forwards s _ _ _
@[simp] theorem State.hwm_lodge (fn off v : Nat) : (s.hwm fn off v).lodge = s.lodge := State.setReg_lodge s _ _ _
@[simp] theorem State.hwm_resets (fn off v : Nat) : (s.hwm fn off v).resets = s.resets := State.setReg_resets s _ _ _
@[simp] theorem State.hwm_engResets (fn off v : Nat) : (s.hwm fn off v).engResets = s.engResets := State.setReg_engResets s _ _ _
@[simp] theorem State.hwm_flash (fn off v : Nat) : (s.hwm fn off v).flash = s.flash := State.setReg_flash s _ _ _
@[simp] theorem State.hwm_repairDirty (fn off v : Nat) : (s.hwm fn off v).repairDirty = s.repairDirty := State.setReg_repairDirty s _ _ _
@[simp] theorem State.hwm_mpeers (fn off v : Nat) : (s.hwm fn off v).mpeers = s.mpeers := State.setReg_mpeers s _ _ _
@[simp] theorem State.hwm_mgmt (fn off v : Nat) : (s.hwm fn off v).mgmt = s.mgmt := State.setReg_mgmt s _ _ _
@[simp] theorem State.hwm_rcvWriting (fn off v : Nat) : (s.hwm fn off v).rcvWriting = s.rcvWriting := State.setReg_rcvWriting s _ _ _
@[simp] theorem State.hwm_i3c (fn off v : Nat) : (s.hwm fn off v).i3c = s.i3c := State.setReg_i3c s _ _ _
@[simp] theorem State.hwm_therm (fn off v : Nat) : (s.hwm fn off v).therm = s.therm := State.setReg_therm s _ _ _
@[simp] theorem State.hwm_volt (fn off v : Nat) : (s.hwm fn off v).volt = s.volt := State.setReg_volt s _ _ _
@[simp] theorem State.hwm_jtag (fn off v : Nat) : (s.hwm fn off v).jtag = s.jtag := State.setReg_jtag s _ _ _

/-! `State.emit`. -/

@[simp] theorem State.emit_pending (o : Out) : (s.emit o).pending = s.pending := rfl
@[simp] theorem State.emit_draws (o : Out) : (s.emit o).draws = s.draws := rfl
@[simp] theorem State.emit_nextId (o : Out) : (s.emit o).nextId = s.nextId := rfl
@[simp] theorem State.emit_posted (o : Out) : (s.emit o).posted = s.posted := rfl
@[simp] theorem State.emit_regs (o : Out) : (s.emit o).regs = s.regs := rfl
@[simp] theorem State.emit_mem (o : Out) : (s.emit o).mem = s.mem := rfl
@[simp] theorem State.emit_stale (o : Out) : (s.emit o).stale = s.stale := rfl
@[simp] theorem State.emit_ecc (o : Out) : (s.emit o).ecc = s.ecc := rfl
@[simp] theorem State.emit_scratch (o : Out) : (s.emit o).scratch = s.scratch := rfl
@[simp] theorem State.emit_scratchEcc (o : Out) : (s.emit o).scratchEcc = s.scratchEcc := rfl
@[simp] theorem State.emit_arbs (o : Out) : (s.emit o).arbs = s.arbs := rfl
@[simp] theorem State.emit_recode (o : Out) : (s.emit o).recode = s.recode := rfl
@[simp] theorem State.emit_acts (o : Out) : (s.emit o).acts = s.acts := rfl
@[simp] theorem State.emit_trr (o : Out) : (s.emit o).trr = s.trr := rfl
@[simp] theorem State.emit_corrected (o : Out) : (s.emit o).corrected = s.corrected := rfl
@[simp] theorem State.emit_spares (o : Out) : (s.emit o).spares = s.spares := rfl
@[simp] theorem State.emit_remapDue (o : Out) : (s.emit o).remapDue = s.remapDue := rfl
@[simp] theorem State.emit_ft (o : Out) : (s.emit o).ft = s.ft := rfl
@[simp] theorem State.emit_gated (o : Out) : (s.emit o).gated = s.gated := rfl
@[simp] theorem State.emit_life (o : Out) : (s.emit o).life = s.life := rfl
@[simp] theorem State.emit_standbyWanted (o : Out) : (s.emit o).standbyWanted = s.standbyWanted := rfl
@[simp] theorem State.emit_power (o : Out) : (s.emit o).power = s.power := rfl
@[simp] theorem State.emit_powerWant (o : Out) : (s.emit o).powerWant = s.powerWant := rfl
@[simp] theorem State.emit_powerNext (o : Out) : (s.emit o).powerNext = s.powerNext := rfl
@[simp] theorem State.emit_saving (o : Out) : (s.emit o).saving = s.saving := rfl
@[simp] theorem State.emit_pwrGood (o : Out) : (s.emit o).pwrGood = s.pwrGood := rfl
@[simp] theorem State.emit_thermTripped (o : Out) : (s.emit o).thermTripped = s.thermTripped := rfl
@[simp] theorem State.emit_straps (o : Out) : (s.emit o).straps = s.straps := rfl
@[simp] theorem State.emit_cause (o : Out) : (s.emit o).cause = s.cause := rfl
@[simp] theorem State.emit_charter (o : Out) : (s.emit o).charter = s.charter := rfl
@[simp] theorem State.emit_identity (o : Out) : (s.emit o).identity = s.identity := rfl
@[simp] theorem State.emit_entries (o : Out) : (s.emit o).entries = s.entries := rfl
@[simp] theorem State.emit_partState (o : Out) : (s.emit o).partState = s.partState := rfl
@[simp] theorem State.emit_lastLock (o : Out) : (s.emit o).lastLock = s.lastLock := rfl
@[simp] theorem State.emit_releasing (o : Out) : (s.emit o).releasing = s.releasing := rfl
@[simp] theorem State.emit_objs (o : Out) : (s.emit o).objs = s.objs := rfl
@[simp] theorem State.emit_objStage (o : Out) : (s.emit o).objStage = s.objStage := rfl
@[simp] theorem State.emit_far (o : Out) : (s.emit o).far = s.far := rfl
@[simp] theorem State.emit_dir (o : Out) : (s.emit o).dir = s.dir := rfl
@[simp] theorem State.emit_dirGen (o : Out) : (s.emit o).dirGen = s.dirGen := rfl
@[simp] theorem State.emit_lookup (o : Out) : (s.emit o).lookup = s.lookup := rfl
@[simp] theorem State.emit_slots (o : Out) : (s.emit o).slots = s.slots := rfl
@[simp] theorem State.emit_moves (o : Out) : (s.emit o).moves = s.moves := rfl
@[simp] theorem State.emit_heat (o : Out) : (s.emit o).heat = s.heat := rfl
@[simp] theorem State.emit_bg (o : Out) : (s.emit o).bg = s.bg := rfl
@[simp] theorem State.emit_cmds (o : Out) : (s.emit o).cmds = s.cmds := rfl
@[simp] theorem State.emit_rings (o : Out) : (s.emit o).rings = s.rings := rfl
@[simp] theorem State.emit_links (o : Out) : (s.emit o).links = s.links := rfl
@[simp] theorem State.emit_inq (o : Out) : (s.emit o).inq = s.inq := rfl
@[simp] theorem State.emit_turns (o : Out) : (s.emit o).turns = s.turns := rfl
@[simp] theorem State.emit_wms (o : Out) : (s.emit o).wms = s.wms := rfl
@[simp] theorem State.emit_wmLatch (o : Out) : (s.emit o).wmLatch = s.wmLatch := rfl
@[simp] theorem State.emit_holds (o : Out) : (s.emit o).holds = s.holds := rfl
@[simp] theorem State.emit_hauls (o : Out) : (s.emit o).hauls = s.hauls := rfl
@[simp] theorem State.emit_rows (o : Out) : (s.emit o).rows = s.rows := rfl
@[simp] theorem State.emit_reqs (o : Out) : (s.emit o).reqs = s.reqs := rfl
@[simp] theorem State.emit_plan (o : Out) : (s.emit o).plan = s.plan := rfl
@[simp] theorem State.emit_planBase (o : Out) : (s.emit o).planBase = s.planBase := rfl
@[simp] theorem State.emit_sent (o : Out) : (s.emit o).sent = s.sent := rfl
@[simp] theorem State.emit_emberNums (o : Out) : (s.emit o).emberNums = s.emberNums := rfl
@[simp] theorem State.emit_recv (o : Out) : (s.emit o).recv = s.recv := rfl
@[simp] theorem State.emit_merges (o : Out) : (s.emit o).merges = s.merges := rfl
@[simp] theorem State.emit_mergesDone (o : Out) : (s.emit o).mergesDone = s.mergesDone := rfl
@[simp] theorem State.emit_images (o : Out) : (s.emit o).images = s.images := rfl
@[simp] theorem State.emit_kindles (o : Out) : (s.emit o).kindles = s.kindles := rfl
@[simp] theorem State.emit_arrayHclk (o : Out) : (s.emit o).arrayHclk = s.arrayHclk := rfl
@[simp] theorem State.emit_arrayUsed (o : Out) : (s.emit o).arrayUsed = s.arrayUsed := rfl
@[simp] theorem State.emit_scrub (o : Out) : (s.emit o).scrub = s.scrub := rfl
@[simp] theorem State.emit_conns (o : Out) : (s.emit o).conns = s.conns := rfl
@[simp] theorem State.emit_ports (o : Out) : (s.emit o).ports = s.ports := rfl
@[simp] theorem State.emit_up (o : Out) : (s.emit o).up = s.up := rfl
@[simp] theorem State.emit_waykeys (o : Out) : (s.emit o).waykeys = s.waykeys := rfl
@[simp] theorem State.emit_wkLive (o : Out) : (s.emit o).wkLive = s.wkLive := rfl
@[simp] theorem State.emit_vioLog (o : Out) : (s.emit o).vioLog = s.vioLog := rfl
@[simp] theorem State.emit_shapers (o : Out) : (s.emit o).shapers = s.shapers := rfl
@[simp] theorem State.emit_shChanges (o : Out) : (s.emit o).shChanges = s.shChanges := rfl
@[simp] theorem State.emit_acctPackets (o : Out) : (s.emit o).acctPackets = s.acctPackets := rfl
@[simp] theorem State.emit_drrs (o : Out) : (s.emit o).drrs = s.drrs := rfl
@[simp] theorem State.emit_replies (o : Out) : (s.emit o).replies = s.replies := rfl
@[simp] theorem State.emit_attest (o : Out) : (s.emit o).attest = s.attest := rfl
@[simp] theorem State.emit_meters (o : Out) : (s.emit o).meters = s.meters := rfl
@[simp] theorem State.emit_staging (o : Out) : (s.emit o).staging = s.staging := rfl
@[simp] theorem State.emit_probe (o : Out) : (s.emit o).probe = s.probe := rfl
@[simp] theorem State.emit_fenceRec (o : Out) : (s.emit o).fenceRec = s.fenceRec := rfl
@[simp] theorem State.emit_suspects (o : Out) : (s.emit o).suspects = s.suspects := rfl
@[simp] theorem State.emit_sharedFaults (o : Out) : (s.emit o).sharedFaults = s.sharedFaults := rfl
@[simp] theorem State.emit_flits (o : Out) : (s.emit o).flits = s.flits := rfl
@[simp] theorem State.emit_wdogValue (o : Out) : (s.emit o).wdogValue = s.wdogValue := rfl
@[simp] theorem State.emit_wdogAt (o : Out) : (s.emit o).wdogAt = s.wdogAt := rfl
@[simp] theorem State.emit_rebuilds (o : Out) : (s.emit o).rebuilds = s.rebuilds := rfl
@[simp] theorem State.emit_forwards (o : Out) : (s.emit o).forwards = s.forwards := rfl
@[simp] theorem State.emit_lodge (o : Out) : (s.emit o).lodge = s.lodge := rfl
@[simp] theorem State.emit_resets (o : Out) : (s.emit o).resets = s.resets := rfl
@[simp] theorem State.emit_engResets (o : Out) : (s.emit o).engResets = s.engResets := rfl
@[simp] theorem State.emit_flash (o : Out) : (s.emit o).flash = s.flash := rfl
@[simp] theorem State.emit_repairDirty (o : Out) : (s.emit o).repairDirty = s.repairDirty := rfl
@[simp] theorem State.emit_mpeers (o : Out) : (s.emit o).mpeers = s.mpeers := rfl
@[simp] theorem State.emit_mgmt (o : Out) : (s.emit o).mgmt = s.mgmt := rfl
@[simp] theorem State.emit_rcvWriting (o : Out) : (s.emit o).rcvWriting = s.rcvWriting := rfl
@[simp] theorem State.emit_i3c (o : Out) : (s.emit o).i3c = s.i3c := rfl
@[simp] theorem State.emit_therm (o : Out) : (s.emit o).therm = s.therm := rfl
@[simp] theorem State.emit_volt (o : Out) : (s.emit o).volt = s.volt := rfl
@[simp] theorem State.emit_jtag (o : Out) : (s.emit o).jtag = s.jtag := rfl

/-! `State.drawn`. -/

@[simp] theorem State.drawn_pending : (s.drawn).pending = s.pending := rfl
@[simp] theorem State.drawn_out : (s.drawn).out = s.out := rfl
@[simp] theorem State.drawn_nextId : (s.drawn).nextId = s.nextId := rfl
@[simp] theorem State.drawn_posted : (s.drawn).posted = s.posted := rfl
@[simp] theorem State.drawn_regs : (s.drawn).regs = s.regs := rfl
@[simp] theorem State.drawn_mem : (s.drawn).mem = s.mem := rfl
@[simp] theorem State.drawn_stale : (s.drawn).stale = s.stale := rfl
@[simp] theorem State.drawn_ecc : (s.drawn).ecc = s.ecc := rfl
@[simp] theorem State.drawn_scratch : (s.drawn).scratch = s.scratch := rfl
@[simp] theorem State.drawn_scratchEcc : (s.drawn).scratchEcc = s.scratchEcc := rfl
@[simp] theorem State.drawn_arbs : (s.drawn).arbs = s.arbs := rfl
@[simp] theorem State.drawn_recode : (s.drawn).recode = s.recode := rfl
@[simp] theorem State.drawn_acts : (s.drawn).acts = s.acts := rfl
@[simp] theorem State.drawn_trr : (s.drawn).trr = s.trr := rfl
@[simp] theorem State.drawn_corrected : (s.drawn).corrected = s.corrected := rfl
@[simp] theorem State.drawn_spares : (s.drawn).spares = s.spares := rfl
@[simp] theorem State.drawn_remapDue : (s.drawn).remapDue = s.remapDue := rfl
@[simp] theorem State.drawn_ft : (s.drawn).ft = s.ft := rfl
@[simp] theorem State.drawn_gated : (s.drawn).gated = s.gated := rfl
@[simp] theorem State.drawn_life : (s.drawn).life = s.life := rfl
@[simp] theorem State.drawn_standbyWanted : (s.drawn).standbyWanted = s.standbyWanted := rfl
@[simp] theorem State.drawn_power : (s.drawn).power = s.power := rfl
@[simp] theorem State.drawn_powerWant : (s.drawn).powerWant = s.powerWant := rfl
@[simp] theorem State.drawn_powerNext : (s.drawn).powerNext = s.powerNext := rfl
@[simp] theorem State.drawn_saving : (s.drawn).saving = s.saving := rfl
@[simp] theorem State.drawn_pwrGood : (s.drawn).pwrGood = s.pwrGood := rfl
@[simp] theorem State.drawn_thermTripped : (s.drawn).thermTripped = s.thermTripped := rfl
@[simp] theorem State.drawn_straps : (s.drawn).straps = s.straps := rfl
@[simp] theorem State.drawn_cause : (s.drawn).cause = s.cause := rfl
@[simp] theorem State.drawn_charter : (s.drawn).charter = s.charter := rfl
@[simp] theorem State.drawn_identity : (s.drawn).identity = s.identity := rfl
@[simp] theorem State.drawn_entries : (s.drawn).entries = s.entries := rfl
@[simp] theorem State.drawn_partState : (s.drawn).partState = s.partState := rfl
@[simp] theorem State.drawn_lastLock : (s.drawn).lastLock = s.lastLock := rfl
@[simp] theorem State.drawn_releasing : (s.drawn).releasing = s.releasing := rfl
@[simp] theorem State.drawn_objs : (s.drawn).objs = s.objs := rfl
@[simp] theorem State.drawn_objStage : (s.drawn).objStage = s.objStage := rfl
@[simp] theorem State.drawn_far : (s.drawn).far = s.far := rfl
@[simp] theorem State.drawn_dir : (s.drawn).dir = s.dir := rfl
@[simp] theorem State.drawn_dirGen : (s.drawn).dirGen = s.dirGen := rfl
@[simp] theorem State.drawn_lookup : (s.drawn).lookup = s.lookup := rfl
@[simp] theorem State.drawn_slots : (s.drawn).slots = s.slots := rfl
@[simp] theorem State.drawn_moves : (s.drawn).moves = s.moves := rfl
@[simp] theorem State.drawn_heat : (s.drawn).heat = s.heat := rfl
@[simp] theorem State.drawn_bg : (s.drawn).bg = s.bg := rfl
@[simp] theorem State.drawn_cmds : (s.drawn).cmds = s.cmds := rfl
@[simp] theorem State.drawn_rings : (s.drawn).rings = s.rings := rfl
@[simp] theorem State.drawn_links : (s.drawn).links = s.links := rfl
@[simp] theorem State.drawn_inq : (s.drawn).inq = s.inq := rfl
@[simp] theorem State.drawn_turns : (s.drawn).turns = s.turns := rfl
@[simp] theorem State.drawn_wms : (s.drawn).wms = s.wms := rfl
@[simp] theorem State.drawn_wmLatch : (s.drawn).wmLatch = s.wmLatch := rfl
@[simp] theorem State.drawn_holds : (s.drawn).holds = s.holds := rfl
@[simp] theorem State.drawn_hauls : (s.drawn).hauls = s.hauls := rfl
@[simp] theorem State.drawn_rows : (s.drawn).rows = s.rows := rfl
@[simp] theorem State.drawn_reqs : (s.drawn).reqs = s.reqs := rfl
@[simp] theorem State.drawn_plan : (s.drawn).plan = s.plan := rfl
@[simp] theorem State.drawn_planBase : (s.drawn).planBase = s.planBase := rfl
@[simp] theorem State.drawn_sent : (s.drawn).sent = s.sent := rfl
@[simp] theorem State.drawn_emberNums : (s.drawn).emberNums = s.emberNums := rfl
@[simp] theorem State.drawn_recv : (s.drawn).recv = s.recv := rfl
@[simp] theorem State.drawn_merges : (s.drawn).merges = s.merges := rfl
@[simp] theorem State.drawn_mergesDone : (s.drawn).mergesDone = s.mergesDone := rfl
@[simp] theorem State.drawn_images : (s.drawn).images = s.images := rfl
@[simp] theorem State.drawn_kindles : (s.drawn).kindles = s.kindles := rfl
@[simp] theorem State.drawn_arrayHclk : (s.drawn).arrayHclk = s.arrayHclk := rfl
@[simp] theorem State.drawn_arrayUsed : (s.drawn).arrayUsed = s.arrayUsed := rfl
@[simp] theorem State.drawn_scrub : (s.drawn).scrub = s.scrub := rfl
@[simp] theorem State.drawn_conns : (s.drawn).conns = s.conns := rfl
@[simp] theorem State.drawn_ports : (s.drawn).ports = s.ports := rfl
@[simp] theorem State.drawn_up : (s.drawn).up = s.up := rfl
@[simp] theorem State.drawn_waykeys : (s.drawn).waykeys = s.waykeys := rfl
@[simp] theorem State.drawn_wkLive : (s.drawn).wkLive = s.wkLive := rfl
@[simp] theorem State.drawn_vioLog : (s.drawn).vioLog = s.vioLog := rfl
@[simp] theorem State.drawn_shapers : (s.drawn).shapers = s.shapers := rfl
@[simp] theorem State.drawn_shChanges : (s.drawn).shChanges = s.shChanges := rfl
@[simp] theorem State.drawn_acctPackets : (s.drawn).acctPackets = s.acctPackets := rfl
@[simp] theorem State.drawn_drrs : (s.drawn).drrs = s.drrs := rfl
@[simp] theorem State.drawn_replies : (s.drawn).replies = s.replies := rfl
@[simp] theorem State.drawn_attest : (s.drawn).attest = s.attest := rfl
@[simp] theorem State.drawn_meters : (s.drawn).meters = s.meters := rfl
@[simp] theorem State.drawn_staging : (s.drawn).staging = s.staging := rfl
@[simp] theorem State.drawn_probe : (s.drawn).probe = s.probe := rfl
@[simp] theorem State.drawn_fenceRec : (s.drawn).fenceRec = s.fenceRec := rfl
@[simp] theorem State.drawn_suspects : (s.drawn).suspects = s.suspects := rfl
@[simp] theorem State.drawn_sharedFaults : (s.drawn).sharedFaults = s.sharedFaults := rfl
@[simp] theorem State.drawn_flits : (s.drawn).flits = s.flits := rfl
@[simp] theorem State.drawn_wdogValue : (s.drawn).wdogValue = s.wdogValue := rfl
@[simp] theorem State.drawn_wdogAt : (s.drawn).wdogAt = s.wdogAt := rfl
@[simp] theorem State.drawn_rebuilds : (s.drawn).rebuilds = s.rebuilds := rfl
@[simp] theorem State.drawn_forwards : (s.drawn).forwards = s.forwards := rfl
@[simp] theorem State.drawn_lodge : (s.drawn).lodge = s.lodge := rfl
@[simp] theorem State.drawn_resets : (s.drawn).resets = s.resets := rfl
@[simp] theorem State.drawn_engResets : (s.drawn).engResets = s.engResets := rfl
@[simp] theorem State.drawn_flash : (s.drawn).flash = s.flash := rfl
@[simp] theorem State.drawn_repairDirty : (s.drawn).repairDirty = s.repairDirty := rfl
@[simp] theorem State.drawn_mpeers : (s.drawn).mpeers = s.mpeers := rfl
@[simp] theorem State.drawn_mgmt : (s.drawn).mgmt = s.mgmt := rfl
@[simp] theorem State.drawn_rcvWriting : (s.drawn).rcvWriting = s.rcvWriting := rfl
@[simp] theorem State.drawn_i3c : (s.drawn).i3c = s.i3c := rfl
@[simp] theorem State.drawn_therm : (s.drawn).therm = s.therm := rfl
@[simp] theorem State.drawn_volt : (s.drawn).volt = s.volt := rfl
@[simp] theorem State.drawn_jtag : (s.drawn).jtag = s.jtag := rfl

/-! `State.store`. -/

@[simp] theorem State.store_pending (a : Nat) (bs : List Byte) : (s.store a bs).pending = s.pending := rfl
@[simp] theorem State.store_out (a : Nat) (bs : List Byte) : (s.store a bs).out = s.out := rfl
@[simp] theorem State.store_draws (a : Nat) (bs : List Byte) : (s.store a bs).draws = s.draws := rfl
@[simp] theorem State.store_nextId (a : Nat) (bs : List Byte) : (s.store a bs).nextId = s.nextId := rfl
@[simp] theorem State.store_posted (a : Nat) (bs : List Byte) : (s.store a bs).posted = s.posted := rfl
@[simp] theorem State.store_regs (a : Nat) (bs : List Byte) : (s.store a bs).regs = s.regs := rfl
@[simp] theorem State.store_stale (a : Nat) (bs : List Byte) : (s.store a bs).stale = s.stale := rfl
@[simp] theorem State.store_ecc (a : Nat) (bs : List Byte) : (s.store a bs).ecc = s.ecc := rfl
@[simp] theorem State.store_scratch (a : Nat) (bs : List Byte) : (s.store a bs).scratch = s.scratch := rfl
@[simp] theorem State.store_scratchEcc (a : Nat) (bs : List Byte) : (s.store a bs).scratchEcc = s.scratchEcc := rfl
@[simp] theorem State.store_arbs (a : Nat) (bs : List Byte) : (s.store a bs).arbs = s.arbs := rfl
@[simp] theorem State.store_recode (a : Nat) (bs : List Byte) : (s.store a bs).recode = s.recode := rfl
@[simp] theorem State.store_acts (a : Nat) (bs : List Byte) : (s.store a bs).acts = s.acts := rfl
@[simp] theorem State.store_trr (a : Nat) (bs : List Byte) : (s.store a bs).trr = s.trr := rfl
@[simp] theorem State.store_corrected (a : Nat) (bs : List Byte) : (s.store a bs).corrected = s.corrected := rfl
@[simp] theorem State.store_spares (a : Nat) (bs : List Byte) : (s.store a bs).spares = s.spares := rfl
@[simp] theorem State.store_remapDue (a : Nat) (bs : List Byte) : (s.store a bs).remapDue = s.remapDue := rfl
@[simp] theorem State.store_ft (a : Nat) (bs : List Byte) : (s.store a bs).ft = s.ft := rfl
@[simp] theorem State.store_gated (a : Nat) (bs : List Byte) : (s.store a bs).gated = s.gated := rfl
@[simp] theorem State.store_life (a : Nat) (bs : List Byte) : (s.store a bs).life = s.life := rfl
@[simp] theorem State.store_standbyWanted (a : Nat) (bs : List Byte) : (s.store a bs).standbyWanted = s.standbyWanted := rfl
@[simp] theorem State.store_power (a : Nat) (bs : List Byte) : (s.store a bs).power = s.power := rfl
@[simp] theorem State.store_powerWant (a : Nat) (bs : List Byte) : (s.store a bs).powerWant = s.powerWant := rfl
@[simp] theorem State.store_powerNext (a : Nat) (bs : List Byte) : (s.store a bs).powerNext = s.powerNext := rfl
@[simp] theorem State.store_saving (a : Nat) (bs : List Byte) : (s.store a bs).saving = s.saving := rfl
@[simp] theorem State.store_pwrGood (a : Nat) (bs : List Byte) : (s.store a bs).pwrGood = s.pwrGood := rfl
@[simp] theorem State.store_thermTripped (a : Nat) (bs : List Byte) : (s.store a bs).thermTripped = s.thermTripped := rfl
@[simp] theorem State.store_straps (a : Nat) (bs : List Byte) : (s.store a bs).straps = s.straps := rfl
@[simp] theorem State.store_cause (a : Nat) (bs : List Byte) : (s.store a bs).cause = s.cause := rfl
@[simp] theorem State.store_charter (a : Nat) (bs : List Byte) : (s.store a bs).charter = s.charter := rfl
@[simp] theorem State.store_identity (a : Nat) (bs : List Byte) : (s.store a bs).identity = s.identity := rfl
@[simp] theorem State.store_entries (a : Nat) (bs : List Byte) : (s.store a bs).entries = s.entries := rfl
@[simp] theorem State.store_partState (a : Nat) (bs : List Byte) : (s.store a bs).partState = s.partState := rfl
@[simp] theorem State.store_lastLock (a : Nat) (bs : List Byte) : (s.store a bs).lastLock = s.lastLock := rfl
@[simp] theorem State.store_releasing (a : Nat) (bs : List Byte) : (s.store a bs).releasing = s.releasing := rfl
@[simp] theorem State.store_objs (a : Nat) (bs : List Byte) : (s.store a bs).objs = s.objs := rfl
@[simp] theorem State.store_objStage (a : Nat) (bs : List Byte) : (s.store a bs).objStage = s.objStage := rfl
@[simp] theorem State.store_far (a : Nat) (bs : List Byte) : (s.store a bs).far = s.far := rfl
@[simp] theorem State.store_dir (a : Nat) (bs : List Byte) : (s.store a bs).dir = s.dir := rfl
@[simp] theorem State.store_dirGen (a : Nat) (bs : List Byte) : (s.store a bs).dirGen = s.dirGen := rfl
@[simp] theorem State.store_lookup (a : Nat) (bs : List Byte) : (s.store a bs).lookup = s.lookup := rfl
@[simp] theorem State.store_slots (a : Nat) (bs : List Byte) : (s.store a bs).slots = s.slots := rfl
@[simp] theorem State.store_moves (a : Nat) (bs : List Byte) : (s.store a bs).moves = s.moves := rfl
@[simp] theorem State.store_heat (a : Nat) (bs : List Byte) : (s.store a bs).heat = s.heat := rfl
@[simp] theorem State.store_bg (a : Nat) (bs : List Byte) : (s.store a bs).bg = s.bg := rfl
@[simp] theorem State.store_cmds (a : Nat) (bs : List Byte) : (s.store a bs).cmds = s.cmds := rfl
@[simp] theorem State.store_rings (a : Nat) (bs : List Byte) : (s.store a bs).rings = s.rings := rfl
@[simp] theorem State.store_links (a : Nat) (bs : List Byte) : (s.store a bs).links = s.links := rfl
@[simp] theorem State.store_inq (a : Nat) (bs : List Byte) : (s.store a bs).inq = s.inq := rfl
@[simp] theorem State.store_turns (a : Nat) (bs : List Byte) : (s.store a bs).turns = s.turns := rfl
@[simp] theorem State.store_wms (a : Nat) (bs : List Byte) : (s.store a bs).wms = s.wms := rfl
@[simp] theorem State.store_wmLatch (a : Nat) (bs : List Byte) : (s.store a bs).wmLatch = s.wmLatch := rfl
@[simp] theorem State.store_holds (a : Nat) (bs : List Byte) : (s.store a bs).holds = s.holds := rfl
@[simp] theorem State.store_hauls (a : Nat) (bs : List Byte) : (s.store a bs).hauls = s.hauls := rfl
@[simp] theorem State.store_rows (a : Nat) (bs : List Byte) : (s.store a bs).rows = s.rows := rfl
@[simp] theorem State.store_reqs (a : Nat) (bs : List Byte) : (s.store a bs).reqs = s.reqs := rfl
@[simp] theorem State.store_plan (a : Nat) (bs : List Byte) : (s.store a bs).plan = s.plan := rfl
@[simp] theorem State.store_planBase (a : Nat) (bs : List Byte) : (s.store a bs).planBase = s.planBase := rfl
@[simp] theorem State.store_sent (a : Nat) (bs : List Byte) : (s.store a bs).sent = s.sent := rfl
@[simp] theorem State.store_emberNums (a : Nat) (bs : List Byte) : (s.store a bs).emberNums = s.emberNums := rfl
@[simp] theorem State.store_recv (a : Nat) (bs : List Byte) : (s.store a bs).recv = s.recv := rfl
@[simp] theorem State.store_merges (a : Nat) (bs : List Byte) : (s.store a bs).merges = s.merges := rfl
@[simp] theorem State.store_mergesDone (a : Nat) (bs : List Byte) : (s.store a bs).mergesDone = s.mergesDone := rfl
@[simp] theorem State.store_images (a : Nat) (bs : List Byte) : (s.store a bs).images = s.images := rfl
@[simp] theorem State.store_kindles (a : Nat) (bs : List Byte) : (s.store a bs).kindles = s.kindles := rfl
@[simp] theorem State.store_arrayHclk (a : Nat) (bs : List Byte) : (s.store a bs).arrayHclk = s.arrayHclk := rfl
@[simp] theorem State.store_arrayUsed (a : Nat) (bs : List Byte) : (s.store a bs).arrayUsed = s.arrayUsed := rfl
@[simp] theorem State.store_scrub (a : Nat) (bs : List Byte) : (s.store a bs).scrub = s.scrub := rfl
@[simp] theorem State.store_conns (a : Nat) (bs : List Byte) : (s.store a bs).conns = s.conns := rfl
@[simp] theorem State.store_ports (a : Nat) (bs : List Byte) : (s.store a bs).ports = s.ports := rfl
@[simp] theorem State.store_up (a : Nat) (bs : List Byte) : (s.store a bs).up = s.up := rfl
@[simp] theorem State.store_waykeys (a : Nat) (bs : List Byte) : (s.store a bs).waykeys = s.waykeys := rfl
@[simp] theorem State.store_wkLive (a : Nat) (bs : List Byte) : (s.store a bs).wkLive = s.wkLive := rfl
@[simp] theorem State.store_vioLog (a : Nat) (bs : List Byte) : (s.store a bs).vioLog = s.vioLog := rfl
@[simp] theorem State.store_shapers (a : Nat) (bs : List Byte) : (s.store a bs).shapers = s.shapers := rfl
@[simp] theorem State.store_shChanges (a : Nat) (bs : List Byte) : (s.store a bs).shChanges = s.shChanges := rfl
@[simp] theorem State.store_acctPackets (a : Nat) (bs : List Byte) : (s.store a bs).acctPackets = s.acctPackets := rfl
@[simp] theorem State.store_drrs (a : Nat) (bs : List Byte) : (s.store a bs).drrs = s.drrs := rfl
@[simp] theorem State.store_replies (a : Nat) (bs : List Byte) : (s.store a bs).replies = s.replies := rfl
@[simp] theorem State.store_attest (a : Nat) (bs : List Byte) : (s.store a bs).attest = s.attest := rfl
@[simp] theorem State.store_meters (a : Nat) (bs : List Byte) : (s.store a bs).meters = s.meters := rfl
@[simp] theorem State.store_staging (a : Nat) (bs : List Byte) : (s.store a bs).staging = s.staging := rfl
@[simp] theorem State.store_probe (a : Nat) (bs : List Byte) : (s.store a bs).probe = s.probe := rfl
@[simp] theorem State.store_fenceRec (a : Nat) (bs : List Byte) : (s.store a bs).fenceRec = s.fenceRec := rfl
@[simp] theorem State.store_suspects (a : Nat) (bs : List Byte) : (s.store a bs).suspects = s.suspects := rfl
@[simp] theorem State.store_sharedFaults (a : Nat) (bs : List Byte) : (s.store a bs).sharedFaults = s.sharedFaults := rfl
@[simp] theorem State.store_flits (a : Nat) (bs : List Byte) : (s.store a bs).flits = s.flits := rfl
@[simp] theorem State.store_wdogValue (a : Nat) (bs : List Byte) : (s.store a bs).wdogValue = s.wdogValue := rfl
@[simp] theorem State.store_wdogAt (a : Nat) (bs : List Byte) : (s.store a bs).wdogAt = s.wdogAt := rfl
@[simp] theorem State.store_rebuilds (a : Nat) (bs : List Byte) : (s.store a bs).rebuilds = s.rebuilds := rfl
@[simp] theorem State.store_forwards (a : Nat) (bs : List Byte) : (s.store a bs).forwards = s.forwards := rfl
@[simp] theorem State.store_lodge (a : Nat) (bs : List Byte) : (s.store a bs).lodge = s.lodge := rfl
@[simp] theorem State.store_resets (a : Nat) (bs : List Byte) : (s.store a bs).resets = s.resets := rfl
@[simp] theorem State.store_engResets (a : Nat) (bs : List Byte) : (s.store a bs).engResets = s.engResets := rfl
@[simp] theorem State.store_flash (a : Nat) (bs : List Byte) : (s.store a bs).flash = s.flash := rfl
@[simp] theorem State.store_repairDirty (a : Nat) (bs : List Byte) : (s.store a bs).repairDirty = s.repairDirty := rfl
@[simp] theorem State.store_mpeers (a : Nat) (bs : List Byte) : (s.store a bs).mpeers = s.mpeers := rfl
@[simp] theorem State.store_mgmt (a : Nat) (bs : List Byte) : (s.store a bs).mgmt = s.mgmt := rfl
@[simp] theorem State.store_rcvWriting (a : Nat) (bs : List Byte) : (s.store a bs).rcvWriting = s.rcvWriting := rfl
@[simp] theorem State.store_i3c (a : Nat) (bs : List Byte) : (s.store a bs).i3c = s.i3c := rfl
@[simp] theorem State.store_therm (a : Nat) (bs : List Byte) : (s.store a bs).therm = s.therm := rfl
@[simp] theorem State.store_volt (a : Nat) (bs : List Byte) : (s.store a bs).volt = s.volt := rfl
@[simp] theorem State.store_jtag (a : Nat) (bs : List Byte) : (s.store a bs).jtag = s.jtag := rfl

/-! `State.setEcc`. -/

@[simp] theorem State.setEcc_pending (k : Nat) (e : Ecc) : (s.setEcc k e).pending = s.pending := rfl
@[simp] theorem State.setEcc_out (k : Nat) (e : Ecc) : (s.setEcc k e).out = s.out := rfl
@[simp] theorem State.setEcc_draws (k : Nat) (e : Ecc) : (s.setEcc k e).draws = s.draws := rfl
@[simp] theorem State.setEcc_nextId (k : Nat) (e : Ecc) : (s.setEcc k e).nextId = s.nextId := rfl
@[simp] theorem State.setEcc_posted (k : Nat) (e : Ecc) : (s.setEcc k e).posted = s.posted := rfl
@[simp] theorem State.setEcc_regs (k : Nat) (e : Ecc) : (s.setEcc k e).regs = s.regs := rfl
@[simp] theorem State.setEcc_mem (k : Nat) (e : Ecc) : (s.setEcc k e).mem = s.mem := rfl
@[simp] theorem State.setEcc_stale (k : Nat) (e : Ecc) : (s.setEcc k e).stale = s.stale := rfl
@[simp] theorem State.setEcc_scratch (k : Nat) (e : Ecc) : (s.setEcc k e).scratch = s.scratch := rfl
@[simp] theorem State.setEcc_scratchEcc (k : Nat) (e : Ecc) : (s.setEcc k e).scratchEcc = s.scratchEcc := rfl
@[simp] theorem State.setEcc_arbs (k : Nat) (e : Ecc) : (s.setEcc k e).arbs = s.arbs := rfl
@[simp] theorem State.setEcc_recode (k : Nat) (e : Ecc) : (s.setEcc k e).recode = s.recode := rfl
@[simp] theorem State.setEcc_acts (k : Nat) (e : Ecc) : (s.setEcc k e).acts = s.acts := rfl
@[simp] theorem State.setEcc_trr (k : Nat) (e : Ecc) : (s.setEcc k e).trr = s.trr := rfl
@[simp] theorem State.setEcc_corrected (k : Nat) (e : Ecc) : (s.setEcc k e).corrected = s.corrected := rfl
@[simp] theorem State.setEcc_spares (k : Nat) (e : Ecc) : (s.setEcc k e).spares = s.spares := rfl
@[simp] theorem State.setEcc_remapDue (k : Nat) (e : Ecc) : (s.setEcc k e).remapDue = s.remapDue := rfl
@[simp] theorem State.setEcc_ft (k : Nat) (e : Ecc) : (s.setEcc k e).ft = s.ft := rfl
@[simp] theorem State.setEcc_gated (k : Nat) (e : Ecc) : (s.setEcc k e).gated = s.gated := rfl
@[simp] theorem State.setEcc_life (k : Nat) (e : Ecc) : (s.setEcc k e).life = s.life := rfl
@[simp] theorem State.setEcc_standbyWanted (k : Nat) (e : Ecc) : (s.setEcc k e).standbyWanted = s.standbyWanted := rfl
@[simp] theorem State.setEcc_power (k : Nat) (e : Ecc) : (s.setEcc k e).power = s.power := rfl
@[simp] theorem State.setEcc_powerWant (k : Nat) (e : Ecc) : (s.setEcc k e).powerWant = s.powerWant := rfl
@[simp] theorem State.setEcc_powerNext (k : Nat) (e : Ecc) : (s.setEcc k e).powerNext = s.powerNext := rfl
@[simp] theorem State.setEcc_saving (k : Nat) (e : Ecc) : (s.setEcc k e).saving = s.saving := rfl
@[simp] theorem State.setEcc_pwrGood (k : Nat) (e : Ecc) : (s.setEcc k e).pwrGood = s.pwrGood := rfl
@[simp] theorem State.setEcc_thermTripped (k : Nat) (e : Ecc) : (s.setEcc k e).thermTripped = s.thermTripped := rfl
@[simp] theorem State.setEcc_straps (k : Nat) (e : Ecc) : (s.setEcc k e).straps = s.straps := rfl
@[simp] theorem State.setEcc_cause (k : Nat) (e : Ecc) : (s.setEcc k e).cause = s.cause := rfl
@[simp] theorem State.setEcc_charter (k : Nat) (e : Ecc) : (s.setEcc k e).charter = s.charter := rfl
@[simp] theorem State.setEcc_identity (k : Nat) (e : Ecc) : (s.setEcc k e).identity = s.identity := rfl
@[simp] theorem State.setEcc_entries (k : Nat) (e : Ecc) : (s.setEcc k e).entries = s.entries := rfl
@[simp] theorem State.setEcc_partState (k : Nat) (e : Ecc) : (s.setEcc k e).partState = s.partState := rfl
@[simp] theorem State.setEcc_lastLock (k : Nat) (e : Ecc) : (s.setEcc k e).lastLock = s.lastLock := rfl
@[simp] theorem State.setEcc_releasing (k : Nat) (e : Ecc) : (s.setEcc k e).releasing = s.releasing := rfl
@[simp] theorem State.setEcc_objs (k : Nat) (e : Ecc) : (s.setEcc k e).objs = s.objs := rfl
@[simp] theorem State.setEcc_objStage (k : Nat) (e : Ecc) : (s.setEcc k e).objStage = s.objStage := rfl
@[simp] theorem State.setEcc_far (k : Nat) (e : Ecc) : (s.setEcc k e).far = s.far := rfl
@[simp] theorem State.setEcc_dir (k : Nat) (e : Ecc) : (s.setEcc k e).dir = s.dir := rfl
@[simp] theorem State.setEcc_dirGen (k : Nat) (e : Ecc) : (s.setEcc k e).dirGen = s.dirGen := rfl
@[simp] theorem State.setEcc_lookup (k : Nat) (e : Ecc) : (s.setEcc k e).lookup = s.lookup := rfl
@[simp] theorem State.setEcc_slots (k : Nat) (e : Ecc) : (s.setEcc k e).slots = s.slots := rfl
@[simp] theorem State.setEcc_moves (k : Nat) (e : Ecc) : (s.setEcc k e).moves = s.moves := rfl
@[simp] theorem State.setEcc_heat (k : Nat) (e : Ecc) : (s.setEcc k e).heat = s.heat := rfl
@[simp] theorem State.setEcc_bg (k : Nat) (e : Ecc) : (s.setEcc k e).bg = s.bg := rfl
@[simp] theorem State.setEcc_cmds (k : Nat) (e : Ecc) : (s.setEcc k e).cmds = s.cmds := rfl
@[simp] theorem State.setEcc_rings (k : Nat) (e : Ecc) : (s.setEcc k e).rings = s.rings := rfl
@[simp] theorem State.setEcc_links (k : Nat) (e : Ecc) : (s.setEcc k e).links = s.links := rfl
@[simp] theorem State.setEcc_inq (k : Nat) (e : Ecc) : (s.setEcc k e).inq = s.inq := rfl
@[simp] theorem State.setEcc_turns (k : Nat) (e : Ecc) : (s.setEcc k e).turns = s.turns := rfl
@[simp] theorem State.setEcc_wms (k : Nat) (e : Ecc) : (s.setEcc k e).wms = s.wms := rfl
@[simp] theorem State.setEcc_wmLatch (k : Nat) (e : Ecc) : (s.setEcc k e).wmLatch = s.wmLatch := rfl
@[simp] theorem State.setEcc_holds (k : Nat) (e : Ecc) : (s.setEcc k e).holds = s.holds := rfl
@[simp] theorem State.setEcc_hauls (k : Nat) (e : Ecc) : (s.setEcc k e).hauls = s.hauls := rfl
@[simp] theorem State.setEcc_rows (k : Nat) (e : Ecc) : (s.setEcc k e).rows = s.rows := rfl
@[simp] theorem State.setEcc_reqs (k : Nat) (e : Ecc) : (s.setEcc k e).reqs = s.reqs := rfl
@[simp] theorem State.setEcc_plan (k : Nat) (e : Ecc) : (s.setEcc k e).plan = s.plan := rfl
@[simp] theorem State.setEcc_planBase (k : Nat) (e : Ecc) : (s.setEcc k e).planBase = s.planBase := rfl
@[simp] theorem State.setEcc_sent (k : Nat) (e : Ecc) : (s.setEcc k e).sent = s.sent := rfl
@[simp] theorem State.setEcc_emberNums (k : Nat) (e : Ecc) : (s.setEcc k e).emberNums = s.emberNums := rfl
@[simp] theorem State.setEcc_recv (k : Nat) (e : Ecc) : (s.setEcc k e).recv = s.recv := rfl
@[simp] theorem State.setEcc_merges (k : Nat) (e : Ecc) : (s.setEcc k e).merges = s.merges := rfl
@[simp] theorem State.setEcc_mergesDone (k : Nat) (e : Ecc) : (s.setEcc k e).mergesDone = s.mergesDone := rfl
@[simp] theorem State.setEcc_images (k : Nat) (e : Ecc) : (s.setEcc k e).images = s.images := rfl
@[simp] theorem State.setEcc_kindles (k : Nat) (e : Ecc) : (s.setEcc k e).kindles = s.kindles := rfl
@[simp] theorem State.setEcc_arrayHclk (k : Nat) (e : Ecc) : (s.setEcc k e).arrayHclk = s.arrayHclk := rfl
@[simp] theorem State.setEcc_arrayUsed (k : Nat) (e : Ecc) : (s.setEcc k e).arrayUsed = s.arrayUsed := rfl
@[simp] theorem State.setEcc_scrub (k : Nat) (e : Ecc) : (s.setEcc k e).scrub = s.scrub := rfl
@[simp] theorem State.setEcc_conns (k : Nat) (e : Ecc) : (s.setEcc k e).conns = s.conns := rfl
@[simp] theorem State.setEcc_ports (k : Nat) (e : Ecc) : (s.setEcc k e).ports = s.ports := rfl
@[simp] theorem State.setEcc_up (k : Nat) (e : Ecc) : (s.setEcc k e).up = s.up := rfl
@[simp] theorem State.setEcc_waykeys (k : Nat) (e : Ecc) : (s.setEcc k e).waykeys = s.waykeys := rfl
@[simp] theorem State.setEcc_wkLive (k : Nat) (e : Ecc) : (s.setEcc k e).wkLive = s.wkLive := rfl
@[simp] theorem State.setEcc_vioLog (k : Nat) (e : Ecc) : (s.setEcc k e).vioLog = s.vioLog := rfl
@[simp] theorem State.setEcc_shapers (k : Nat) (e : Ecc) : (s.setEcc k e).shapers = s.shapers := rfl
@[simp] theorem State.setEcc_shChanges (k : Nat) (e : Ecc) : (s.setEcc k e).shChanges = s.shChanges := rfl
@[simp] theorem State.setEcc_acctPackets (k : Nat) (e : Ecc) : (s.setEcc k e).acctPackets = s.acctPackets := rfl
@[simp] theorem State.setEcc_drrs (k : Nat) (e : Ecc) : (s.setEcc k e).drrs = s.drrs := rfl
@[simp] theorem State.setEcc_replies (k : Nat) (e : Ecc) : (s.setEcc k e).replies = s.replies := rfl
@[simp] theorem State.setEcc_attest (k : Nat) (e : Ecc) : (s.setEcc k e).attest = s.attest := rfl
@[simp] theorem State.setEcc_meters (k : Nat) (e : Ecc) : (s.setEcc k e).meters = s.meters := rfl
@[simp] theorem State.setEcc_staging (k : Nat) (e : Ecc) : (s.setEcc k e).staging = s.staging := rfl
@[simp] theorem State.setEcc_probe (k : Nat) (e : Ecc) : (s.setEcc k e).probe = s.probe := rfl
@[simp] theorem State.setEcc_fenceRec (k : Nat) (e : Ecc) : (s.setEcc k e).fenceRec = s.fenceRec := rfl
@[simp] theorem State.setEcc_suspects (k : Nat) (e : Ecc) : (s.setEcc k e).suspects = s.suspects := rfl
@[simp] theorem State.setEcc_sharedFaults (k : Nat) (e : Ecc) : (s.setEcc k e).sharedFaults = s.sharedFaults := rfl
@[simp] theorem State.setEcc_flits (k : Nat) (e : Ecc) : (s.setEcc k e).flits = s.flits := rfl
@[simp] theorem State.setEcc_wdogValue (k : Nat) (e : Ecc) : (s.setEcc k e).wdogValue = s.wdogValue := rfl
@[simp] theorem State.setEcc_wdogAt (k : Nat) (e : Ecc) : (s.setEcc k e).wdogAt = s.wdogAt := rfl
@[simp] theorem State.setEcc_rebuilds (k : Nat) (e : Ecc) : (s.setEcc k e).rebuilds = s.rebuilds := rfl
@[simp] theorem State.setEcc_forwards (k : Nat) (e : Ecc) : (s.setEcc k e).forwards = s.forwards := rfl
@[simp] theorem State.setEcc_lodge (k : Nat) (e : Ecc) : (s.setEcc k e).lodge = s.lodge := rfl
@[simp] theorem State.setEcc_resets (k : Nat) (e : Ecc) : (s.setEcc k e).resets = s.resets := rfl
@[simp] theorem State.setEcc_engResets (k : Nat) (e : Ecc) : (s.setEcc k e).engResets = s.engResets := rfl
@[simp] theorem State.setEcc_flash (k : Nat) (e : Ecc) : (s.setEcc k e).flash = s.flash := rfl
@[simp] theorem State.setEcc_repairDirty (k : Nat) (e : Ecc) : (s.setEcc k e).repairDirty = s.repairDirty := rfl
@[simp] theorem State.setEcc_mpeers (k : Nat) (e : Ecc) : (s.setEcc k e).mpeers = s.mpeers := rfl
@[simp] theorem State.setEcc_mgmt (k : Nat) (e : Ecc) : (s.setEcc k e).mgmt = s.mgmt := rfl
@[simp] theorem State.setEcc_rcvWriting (k : Nat) (e : Ecc) : (s.setEcc k e).rcvWriting = s.rcvWriting := rfl
@[simp] theorem State.setEcc_i3c (k : Nat) (e : Ecc) : (s.setEcc k e).i3c = s.i3c := rfl
@[simp] theorem State.setEcc_therm (k : Nat) (e : Ecc) : (s.setEcc k e).therm = s.therm := rfl
@[simp] theorem State.setEcc_volt (k : Nat) (e : Ecc) : (s.setEcc k e).volt = s.volt := rfl
@[simp] theorem State.setEcc_jtag (k : Nat) (e : Ecc) : (s.setEcc k e).jtag = s.jtag := rfl

/-! `State.clearEcc`. -/

@[simp] theorem State.clearEcc_pending (a n : Nat) : (s.clearEcc a n).pending = s.pending := rfl
@[simp] theorem State.clearEcc_out (a n : Nat) : (s.clearEcc a n).out = s.out := rfl
@[simp] theorem State.clearEcc_draws (a n : Nat) : (s.clearEcc a n).draws = s.draws := rfl
@[simp] theorem State.clearEcc_nextId (a n : Nat) : (s.clearEcc a n).nextId = s.nextId := rfl
@[simp] theorem State.clearEcc_posted (a n : Nat) : (s.clearEcc a n).posted = s.posted := rfl
@[simp] theorem State.clearEcc_regs (a n : Nat) : (s.clearEcc a n).regs = s.regs := rfl
@[simp] theorem State.clearEcc_mem (a n : Nat) : (s.clearEcc a n).mem = s.mem := rfl
@[simp] theorem State.clearEcc_stale (a n : Nat) : (s.clearEcc a n).stale = s.stale := rfl
@[simp] theorem State.clearEcc_scratch (a n : Nat) : (s.clearEcc a n).scratch = s.scratch := rfl
@[simp] theorem State.clearEcc_scratchEcc (a n : Nat) : (s.clearEcc a n).scratchEcc = s.scratchEcc := rfl
@[simp] theorem State.clearEcc_arbs (a n : Nat) : (s.clearEcc a n).arbs = s.arbs := rfl
@[simp] theorem State.clearEcc_recode (a n : Nat) : (s.clearEcc a n).recode = s.recode := rfl
@[simp] theorem State.clearEcc_acts (a n : Nat) : (s.clearEcc a n).acts = s.acts := rfl
@[simp] theorem State.clearEcc_trr (a n : Nat) : (s.clearEcc a n).trr = s.trr := rfl
@[simp] theorem State.clearEcc_corrected (a n : Nat) : (s.clearEcc a n).corrected = s.corrected := rfl
@[simp] theorem State.clearEcc_spares (a n : Nat) : (s.clearEcc a n).spares = s.spares := rfl
@[simp] theorem State.clearEcc_remapDue (a n : Nat) : (s.clearEcc a n).remapDue = s.remapDue := rfl
@[simp] theorem State.clearEcc_ft (a n : Nat) : (s.clearEcc a n).ft = s.ft := rfl
@[simp] theorem State.clearEcc_gated (a n : Nat) : (s.clearEcc a n).gated = s.gated := rfl
@[simp] theorem State.clearEcc_life (a n : Nat) : (s.clearEcc a n).life = s.life := rfl
@[simp] theorem State.clearEcc_standbyWanted (a n : Nat) : (s.clearEcc a n).standbyWanted = s.standbyWanted := rfl
@[simp] theorem State.clearEcc_power (a n : Nat) : (s.clearEcc a n).power = s.power := rfl
@[simp] theorem State.clearEcc_powerWant (a n : Nat) : (s.clearEcc a n).powerWant = s.powerWant := rfl
@[simp] theorem State.clearEcc_powerNext (a n : Nat) : (s.clearEcc a n).powerNext = s.powerNext := rfl
@[simp] theorem State.clearEcc_saving (a n : Nat) : (s.clearEcc a n).saving = s.saving := rfl
@[simp] theorem State.clearEcc_pwrGood (a n : Nat) : (s.clearEcc a n).pwrGood = s.pwrGood := rfl
@[simp] theorem State.clearEcc_thermTripped (a n : Nat) : (s.clearEcc a n).thermTripped = s.thermTripped := rfl
@[simp] theorem State.clearEcc_straps (a n : Nat) : (s.clearEcc a n).straps = s.straps := rfl
@[simp] theorem State.clearEcc_cause (a n : Nat) : (s.clearEcc a n).cause = s.cause := rfl
@[simp] theorem State.clearEcc_charter (a n : Nat) : (s.clearEcc a n).charter = s.charter := rfl
@[simp] theorem State.clearEcc_identity (a n : Nat) : (s.clearEcc a n).identity = s.identity := rfl
@[simp] theorem State.clearEcc_entries (a n : Nat) : (s.clearEcc a n).entries = s.entries := rfl
@[simp] theorem State.clearEcc_partState (a n : Nat) : (s.clearEcc a n).partState = s.partState := rfl
@[simp] theorem State.clearEcc_lastLock (a n : Nat) : (s.clearEcc a n).lastLock = s.lastLock := rfl
@[simp] theorem State.clearEcc_releasing (a n : Nat) : (s.clearEcc a n).releasing = s.releasing := rfl
@[simp] theorem State.clearEcc_objs (a n : Nat) : (s.clearEcc a n).objs = s.objs := rfl
@[simp] theorem State.clearEcc_objStage (a n : Nat) : (s.clearEcc a n).objStage = s.objStage := rfl
@[simp] theorem State.clearEcc_far (a n : Nat) : (s.clearEcc a n).far = s.far := rfl
@[simp] theorem State.clearEcc_dir (a n : Nat) : (s.clearEcc a n).dir = s.dir := rfl
@[simp] theorem State.clearEcc_dirGen (a n : Nat) : (s.clearEcc a n).dirGen = s.dirGen := rfl
@[simp] theorem State.clearEcc_lookup (a n : Nat) : (s.clearEcc a n).lookup = s.lookup := rfl
@[simp] theorem State.clearEcc_slots (a n : Nat) : (s.clearEcc a n).slots = s.slots := rfl
@[simp] theorem State.clearEcc_moves (a n : Nat) : (s.clearEcc a n).moves = s.moves := rfl
@[simp] theorem State.clearEcc_heat (a n : Nat) : (s.clearEcc a n).heat = s.heat := rfl
@[simp] theorem State.clearEcc_bg (a n : Nat) : (s.clearEcc a n).bg = s.bg := rfl
@[simp] theorem State.clearEcc_cmds (a n : Nat) : (s.clearEcc a n).cmds = s.cmds := rfl
@[simp] theorem State.clearEcc_rings (a n : Nat) : (s.clearEcc a n).rings = s.rings := rfl
@[simp] theorem State.clearEcc_links (a n : Nat) : (s.clearEcc a n).links = s.links := rfl
@[simp] theorem State.clearEcc_inq (a n : Nat) : (s.clearEcc a n).inq = s.inq := rfl
@[simp] theorem State.clearEcc_turns (a n : Nat) : (s.clearEcc a n).turns = s.turns := rfl
@[simp] theorem State.clearEcc_wms (a n : Nat) : (s.clearEcc a n).wms = s.wms := rfl
@[simp] theorem State.clearEcc_wmLatch (a n : Nat) : (s.clearEcc a n).wmLatch = s.wmLatch := rfl
@[simp] theorem State.clearEcc_holds (a n : Nat) : (s.clearEcc a n).holds = s.holds := rfl
@[simp] theorem State.clearEcc_hauls (a n : Nat) : (s.clearEcc a n).hauls = s.hauls := rfl
@[simp] theorem State.clearEcc_rows (a n : Nat) : (s.clearEcc a n).rows = s.rows := rfl
@[simp] theorem State.clearEcc_reqs (a n : Nat) : (s.clearEcc a n).reqs = s.reqs := rfl
@[simp] theorem State.clearEcc_plan (a n : Nat) : (s.clearEcc a n).plan = s.plan := rfl
@[simp] theorem State.clearEcc_planBase (a n : Nat) : (s.clearEcc a n).planBase = s.planBase := rfl
@[simp] theorem State.clearEcc_sent (a n : Nat) : (s.clearEcc a n).sent = s.sent := rfl
@[simp] theorem State.clearEcc_emberNums (a n : Nat) : (s.clearEcc a n).emberNums = s.emberNums := rfl
@[simp] theorem State.clearEcc_recv (a n : Nat) : (s.clearEcc a n).recv = s.recv := rfl
@[simp] theorem State.clearEcc_merges (a n : Nat) : (s.clearEcc a n).merges = s.merges := rfl
@[simp] theorem State.clearEcc_mergesDone (a n : Nat) : (s.clearEcc a n).mergesDone = s.mergesDone := rfl
@[simp] theorem State.clearEcc_images (a n : Nat) : (s.clearEcc a n).images = s.images := rfl
@[simp] theorem State.clearEcc_kindles (a n : Nat) : (s.clearEcc a n).kindles = s.kindles := rfl
@[simp] theorem State.clearEcc_arrayHclk (a n : Nat) : (s.clearEcc a n).arrayHclk = s.arrayHclk := rfl
@[simp] theorem State.clearEcc_arrayUsed (a n : Nat) : (s.clearEcc a n).arrayUsed = s.arrayUsed := rfl
@[simp] theorem State.clearEcc_scrub (a n : Nat) : (s.clearEcc a n).scrub = s.scrub := rfl
@[simp] theorem State.clearEcc_conns (a n : Nat) : (s.clearEcc a n).conns = s.conns := rfl
@[simp] theorem State.clearEcc_ports (a n : Nat) : (s.clearEcc a n).ports = s.ports := rfl
@[simp] theorem State.clearEcc_up (a n : Nat) : (s.clearEcc a n).up = s.up := rfl
@[simp] theorem State.clearEcc_waykeys (a n : Nat) : (s.clearEcc a n).waykeys = s.waykeys := rfl
@[simp] theorem State.clearEcc_wkLive (a n : Nat) : (s.clearEcc a n).wkLive = s.wkLive := rfl
@[simp] theorem State.clearEcc_vioLog (a n : Nat) : (s.clearEcc a n).vioLog = s.vioLog := rfl
@[simp] theorem State.clearEcc_shapers (a n : Nat) : (s.clearEcc a n).shapers = s.shapers := rfl
@[simp] theorem State.clearEcc_shChanges (a n : Nat) : (s.clearEcc a n).shChanges = s.shChanges := rfl
@[simp] theorem State.clearEcc_acctPackets (a n : Nat) : (s.clearEcc a n).acctPackets = s.acctPackets := rfl
@[simp] theorem State.clearEcc_drrs (a n : Nat) : (s.clearEcc a n).drrs = s.drrs := rfl
@[simp] theorem State.clearEcc_replies (a n : Nat) : (s.clearEcc a n).replies = s.replies := rfl
@[simp] theorem State.clearEcc_attest (a n : Nat) : (s.clearEcc a n).attest = s.attest := rfl
@[simp] theorem State.clearEcc_meters (a n : Nat) : (s.clearEcc a n).meters = s.meters := rfl
@[simp] theorem State.clearEcc_staging (a n : Nat) : (s.clearEcc a n).staging = s.staging := rfl
@[simp] theorem State.clearEcc_probe (a n : Nat) : (s.clearEcc a n).probe = s.probe := rfl
@[simp] theorem State.clearEcc_fenceRec (a n : Nat) : (s.clearEcc a n).fenceRec = s.fenceRec := rfl
@[simp] theorem State.clearEcc_suspects (a n : Nat) : (s.clearEcc a n).suspects = s.suspects := rfl
@[simp] theorem State.clearEcc_sharedFaults (a n : Nat) : (s.clearEcc a n).sharedFaults = s.sharedFaults := rfl
@[simp] theorem State.clearEcc_flits (a n : Nat) : (s.clearEcc a n).flits = s.flits := rfl
@[simp] theorem State.clearEcc_wdogValue (a n : Nat) : (s.clearEcc a n).wdogValue = s.wdogValue := rfl
@[simp] theorem State.clearEcc_wdogAt (a n : Nat) : (s.clearEcc a n).wdogAt = s.wdogAt := rfl
@[simp] theorem State.clearEcc_rebuilds (a n : Nat) : (s.clearEcc a n).rebuilds = s.rebuilds := rfl
@[simp] theorem State.clearEcc_forwards (a n : Nat) : (s.clearEcc a n).forwards = s.forwards := rfl
@[simp] theorem State.clearEcc_lodge (a n : Nat) : (s.clearEcc a n).lodge = s.lodge := rfl
@[simp] theorem State.clearEcc_resets (a n : Nat) : (s.clearEcc a n).resets = s.resets := rfl
@[simp] theorem State.clearEcc_engResets (a n : Nat) : (s.clearEcc a n).engResets = s.engResets := rfl
@[simp] theorem State.clearEcc_flash (a n : Nat) : (s.clearEcc a n).flash = s.flash := rfl
@[simp] theorem State.clearEcc_repairDirty (a n : Nat) : (s.clearEcc a n).repairDirty = s.repairDirty := rfl
@[simp] theorem State.clearEcc_mpeers (a n : Nat) : (s.clearEcc a n).mpeers = s.mpeers := rfl
@[simp] theorem State.clearEcc_mgmt (a n : Nat) : (s.clearEcc a n).mgmt = s.mgmt := rfl
@[simp] theorem State.clearEcc_rcvWriting (a n : Nat) : (s.clearEcc a n).rcvWriting = s.rcvWriting := rfl
@[simp] theorem State.clearEcc_i3c (a n : Nat) : (s.clearEcc a n).i3c = s.i3c := rfl
@[simp] theorem State.clearEcc_therm (a n : Nat) : (s.clearEcc a n).therm = s.therm := rfl
@[simp] theorem State.clearEcc_volt (a n : Nat) : (s.clearEcc a n).volt = s.volt := rfl
@[simp] theorem State.clearEcc_jtag (a n : Nat) : (s.clearEcc a n).jtag = s.jtag := rfl

/-! `State.putEngine`. -/

@[simp] theorem State.putEngine_pending (wide : Bool) (part cmd a : Nat) (bs : List Byte) : (s.putEngine wide part cmd a bs).pending = s.pending := rfl
@[simp] theorem State.putEngine_out (wide : Bool) (part cmd a : Nat) (bs : List Byte) : (s.putEngine wide part cmd a bs).out = s.out := rfl
@[simp] theorem State.putEngine_draws (wide : Bool) (part cmd a : Nat) (bs : List Byte) : (s.putEngine wide part cmd a bs).draws = s.draws := rfl
@[simp] theorem State.putEngine_nextId (wide : Bool) (part cmd a : Nat) (bs : List Byte) : (s.putEngine wide part cmd a bs).nextId = s.nextId := rfl
@[simp] theorem State.putEngine_posted (wide : Bool) (part cmd a : Nat) (bs : List Byte) : (s.putEngine wide part cmd a bs).posted = s.posted := rfl
@[simp] theorem State.putEngine_regs (wide : Bool) (part cmd a : Nat) (bs : List Byte) : (s.putEngine wide part cmd a bs).regs = s.regs := rfl
@[simp] theorem State.putEngine_scratch (wide : Bool) (part cmd a : Nat) (bs : List Byte) : (s.putEngine wide part cmd a bs).scratch = s.scratch := rfl
@[simp] theorem State.putEngine_scratchEcc (wide : Bool) (part cmd a : Nat) (bs : List Byte) : (s.putEngine wide part cmd a bs).scratchEcc = s.scratchEcc := rfl
@[simp] theorem State.putEngine_arbs (wide : Bool) (part cmd a : Nat) (bs : List Byte) : (s.putEngine wide part cmd a bs).arbs = s.arbs := rfl
@[simp] theorem State.putEngine_recode (wide : Bool) (part cmd a : Nat) (bs : List Byte) : (s.putEngine wide part cmd a bs).recode = s.recode := rfl
@[simp] theorem State.putEngine_acts (wide : Bool) (part cmd a : Nat) (bs : List Byte) : (s.putEngine wide part cmd a bs).acts = s.acts := rfl
@[simp] theorem State.putEngine_trr (wide : Bool) (part cmd a : Nat) (bs : List Byte) : (s.putEngine wide part cmd a bs).trr = s.trr := rfl
@[simp] theorem State.putEngine_corrected (wide : Bool) (part cmd a : Nat) (bs : List Byte) : (s.putEngine wide part cmd a bs).corrected = s.corrected := rfl
@[simp] theorem State.putEngine_spares (wide : Bool) (part cmd a : Nat) (bs : List Byte) : (s.putEngine wide part cmd a bs).spares = s.spares := rfl
@[simp] theorem State.putEngine_remapDue (wide : Bool) (part cmd a : Nat) (bs : List Byte) : (s.putEngine wide part cmd a bs).remapDue = s.remapDue := rfl
@[simp] theorem State.putEngine_ft (wide : Bool) (part cmd a : Nat) (bs : List Byte) : (s.putEngine wide part cmd a bs).ft = s.ft := rfl
@[simp] theorem State.putEngine_gated (wide : Bool) (part cmd a : Nat) (bs : List Byte) : (s.putEngine wide part cmd a bs).gated = s.gated := rfl
@[simp] theorem State.putEngine_life (wide : Bool) (part cmd a : Nat) (bs : List Byte) : (s.putEngine wide part cmd a bs).life = s.life := rfl
@[simp] theorem State.putEngine_standbyWanted (wide : Bool) (part cmd a : Nat) (bs : List Byte) : (s.putEngine wide part cmd a bs).standbyWanted = s.standbyWanted := rfl
@[simp] theorem State.putEngine_power (wide : Bool) (part cmd a : Nat) (bs : List Byte) : (s.putEngine wide part cmd a bs).power = s.power := rfl
@[simp] theorem State.putEngine_powerWant (wide : Bool) (part cmd a : Nat) (bs : List Byte) : (s.putEngine wide part cmd a bs).powerWant = s.powerWant := rfl
@[simp] theorem State.putEngine_powerNext (wide : Bool) (part cmd a : Nat) (bs : List Byte) : (s.putEngine wide part cmd a bs).powerNext = s.powerNext := rfl
@[simp] theorem State.putEngine_saving (wide : Bool) (part cmd a : Nat) (bs : List Byte) : (s.putEngine wide part cmd a bs).saving = s.saving := rfl
@[simp] theorem State.putEngine_pwrGood (wide : Bool) (part cmd a : Nat) (bs : List Byte) : (s.putEngine wide part cmd a bs).pwrGood = s.pwrGood := rfl
@[simp] theorem State.putEngine_thermTripped (wide : Bool) (part cmd a : Nat) (bs : List Byte) : (s.putEngine wide part cmd a bs).thermTripped = s.thermTripped := rfl
@[simp] theorem State.putEngine_straps (wide : Bool) (part cmd a : Nat) (bs : List Byte) : (s.putEngine wide part cmd a bs).straps = s.straps := rfl
@[simp] theorem State.putEngine_cause (wide : Bool) (part cmd a : Nat) (bs : List Byte) : (s.putEngine wide part cmd a bs).cause = s.cause := rfl
@[simp] theorem State.putEngine_charter (wide : Bool) (part cmd a : Nat) (bs : List Byte) : (s.putEngine wide part cmd a bs).charter = s.charter := rfl
@[simp] theorem State.putEngine_identity (wide : Bool) (part cmd a : Nat) (bs : List Byte) : (s.putEngine wide part cmd a bs).identity = s.identity := rfl
@[simp] theorem State.putEngine_entries (wide : Bool) (part cmd a : Nat) (bs : List Byte) : (s.putEngine wide part cmd a bs).entries = s.entries := rfl
@[simp] theorem State.putEngine_partState (wide : Bool) (part cmd a : Nat) (bs : List Byte) : (s.putEngine wide part cmd a bs).partState = s.partState := rfl
@[simp] theorem State.putEngine_lastLock (wide : Bool) (part cmd a : Nat) (bs : List Byte) : (s.putEngine wide part cmd a bs).lastLock = s.lastLock := rfl
@[simp] theorem State.putEngine_releasing (wide : Bool) (part cmd a : Nat) (bs : List Byte) : (s.putEngine wide part cmd a bs).releasing = s.releasing := rfl
@[simp] theorem State.putEngine_objs (wide : Bool) (part cmd a : Nat) (bs : List Byte) : (s.putEngine wide part cmd a bs).objs = s.objs := rfl
@[simp] theorem State.putEngine_objStage (wide : Bool) (part cmd a : Nat) (bs : List Byte) : (s.putEngine wide part cmd a bs).objStage = s.objStage := rfl
@[simp] theorem State.putEngine_far (wide : Bool) (part cmd a : Nat) (bs : List Byte) : (s.putEngine wide part cmd a bs).far = s.far := rfl
@[simp] theorem State.putEngine_dir (wide : Bool) (part cmd a : Nat) (bs : List Byte) : (s.putEngine wide part cmd a bs).dir = s.dir := rfl
@[simp] theorem State.putEngine_dirGen (wide : Bool) (part cmd a : Nat) (bs : List Byte) : (s.putEngine wide part cmd a bs).dirGen = s.dirGen := rfl
@[simp] theorem State.putEngine_lookup (wide : Bool) (part cmd a : Nat) (bs : List Byte) : (s.putEngine wide part cmd a bs).lookup = s.lookup := rfl
@[simp] theorem State.putEngine_slots (wide : Bool) (part cmd a : Nat) (bs : List Byte) : (s.putEngine wide part cmd a bs).slots = s.slots := rfl
@[simp] theorem State.putEngine_moves (wide : Bool) (part cmd a : Nat) (bs : List Byte) : (s.putEngine wide part cmd a bs).moves = s.moves := rfl
@[simp] theorem State.putEngine_heat (wide : Bool) (part cmd a : Nat) (bs : List Byte) : (s.putEngine wide part cmd a bs).heat = s.heat := rfl
@[simp] theorem State.putEngine_bg (wide : Bool) (part cmd a : Nat) (bs : List Byte) : (s.putEngine wide part cmd a bs).bg = s.bg := rfl
@[simp] theorem State.putEngine_cmds (wide : Bool) (part cmd a : Nat) (bs : List Byte) : (s.putEngine wide part cmd a bs).cmds = s.cmds := rfl
@[simp] theorem State.putEngine_rings (wide : Bool) (part cmd a : Nat) (bs : List Byte) : (s.putEngine wide part cmd a bs).rings = s.rings := rfl
@[simp] theorem State.putEngine_links (wide : Bool) (part cmd a : Nat) (bs : List Byte) : (s.putEngine wide part cmd a bs).links = s.links := rfl
@[simp] theorem State.putEngine_inq (wide : Bool) (part cmd a : Nat) (bs : List Byte) : (s.putEngine wide part cmd a bs).inq = s.inq := rfl
@[simp] theorem State.putEngine_turns (wide : Bool) (part cmd a : Nat) (bs : List Byte) : (s.putEngine wide part cmd a bs).turns = s.turns := rfl
@[simp] theorem State.putEngine_wms (wide : Bool) (part cmd a : Nat) (bs : List Byte) : (s.putEngine wide part cmd a bs).wms = s.wms := rfl
@[simp] theorem State.putEngine_wmLatch (wide : Bool) (part cmd a : Nat) (bs : List Byte) : (s.putEngine wide part cmd a bs).wmLatch = s.wmLatch := rfl
@[simp] theorem State.putEngine_holds (wide : Bool) (part cmd a : Nat) (bs : List Byte) : (s.putEngine wide part cmd a bs).holds = s.holds := rfl
@[simp] theorem State.putEngine_hauls (wide : Bool) (part cmd a : Nat) (bs : List Byte) : (s.putEngine wide part cmd a bs).hauls = s.hauls := rfl
@[simp] theorem State.putEngine_rows (wide : Bool) (part cmd a : Nat) (bs : List Byte) : (s.putEngine wide part cmd a bs).rows = s.rows := rfl
@[simp] theorem State.putEngine_reqs (wide : Bool) (part cmd a : Nat) (bs : List Byte) : (s.putEngine wide part cmd a bs).reqs = s.reqs := rfl
@[simp] theorem State.putEngine_plan (wide : Bool) (part cmd a : Nat) (bs : List Byte) : (s.putEngine wide part cmd a bs).plan = s.plan := rfl
@[simp] theorem State.putEngine_planBase (wide : Bool) (part cmd a : Nat) (bs : List Byte) : (s.putEngine wide part cmd a bs).planBase = s.planBase := rfl
@[simp] theorem State.putEngine_sent (wide : Bool) (part cmd a : Nat) (bs : List Byte) : (s.putEngine wide part cmd a bs).sent = s.sent := rfl
@[simp] theorem State.putEngine_emberNums (wide : Bool) (part cmd a : Nat) (bs : List Byte) : (s.putEngine wide part cmd a bs).emberNums = s.emberNums := rfl
@[simp] theorem State.putEngine_recv (wide : Bool) (part cmd a : Nat) (bs : List Byte) : (s.putEngine wide part cmd a bs).recv = s.recv := rfl
@[simp] theorem State.putEngine_merges (wide : Bool) (part cmd a : Nat) (bs : List Byte) : (s.putEngine wide part cmd a bs).merges = s.merges := rfl
@[simp] theorem State.putEngine_mergesDone (wide : Bool) (part cmd a : Nat) (bs : List Byte) : (s.putEngine wide part cmd a bs).mergesDone = s.mergesDone := rfl
@[simp] theorem State.putEngine_images (wide : Bool) (part cmd a : Nat) (bs : List Byte) : (s.putEngine wide part cmd a bs).images = s.images := rfl
@[simp] theorem State.putEngine_kindles (wide : Bool) (part cmd a : Nat) (bs : List Byte) : (s.putEngine wide part cmd a bs).kindles = s.kindles := rfl
@[simp] theorem State.putEngine_arrayHclk (wide : Bool) (part cmd a : Nat) (bs : List Byte) : (s.putEngine wide part cmd a bs).arrayHclk = s.arrayHclk := rfl
@[simp] theorem State.putEngine_arrayUsed (wide : Bool) (part cmd a : Nat) (bs : List Byte) : (s.putEngine wide part cmd a bs).arrayUsed = s.arrayUsed := rfl
@[simp] theorem State.putEngine_scrub (wide : Bool) (part cmd a : Nat) (bs : List Byte) : (s.putEngine wide part cmd a bs).scrub = s.scrub := rfl
@[simp] theorem State.putEngine_conns (wide : Bool) (part cmd a : Nat) (bs : List Byte) : (s.putEngine wide part cmd a bs).conns = s.conns := rfl
@[simp] theorem State.putEngine_ports (wide : Bool) (part cmd a : Nat) (bs : List Byte) : (s.putEngine wide part cmd a bs).ports = s.ports := rfl
@[simp] theorem State.putEngine_up (wide : Bool) (part cmd a : Nat) (bs : List Byte) : (s.putEngine wide part cmd a bs).up = s.up := rfl
@[simp] theorem State.putEngine_waykeys (wide : Bool) (part cmd a : Nat) (bs : List Byte) : (s.putEngine wide part cmd a bs).waykeys = s.waykeys := rfl
@[simp] theorem State.putEngine_wkLive (wide : Bool) (part cmd a : Nat) (bs : List Byte) : (s.putEngine wide part cmd a bs).wkLive = s.wkLive := rfl
@[simp] theorem State.putEngine_vioLog (wide : Bool) (part cmd a : Nat) (bs : List Byte) : (s.putEngine wide part cmd a bs).vioLog = s.vioLog := rfl
@[simp] theorem State.putEngine_shapers (wide : Bool) (part cmd a : Nat) (bs : List Byte) : (s.putEngine wide part cmd a bs).shapers = s.shapers := rfl
@[simp] theorem State.putEngine_shChanges (wide : Bool) (part cmd a : Nat) (bs : List Byte) : (s.putEngine wide part cmd a bs).shChanges = s.shChanges := rfl
@[simp] theorem State.putEngine_acctPackets (wide : Bool) (part cmd a : Nat) (bs : List Byte) : (s.putEngine wide part cmd a bs).acctPackets = s.acctPackets := rfl
@[simp] theorem State.putEngine_drrs (wide : Bool) (part cmd a : Nat) (bs : List Byte) : (s.putEngine wide part cmd a bs).drrs = s.drrs := rfl
@[simp] theorem State.putEngine_replies (wide : Bool) (part cmd a : Nat) (bs : List Byte) : (s.putEngine wide part cmd a bs).replies = s.replies := rfl
@[simp] theorem State.putEngine_attest (wide : Bool) (part cmd a : Nat) (bs : List Byte) : (s.putEngine wide part cmd a bs).attest = s.attest := rfl
@[simp] theorem State.putEngine_meters (wide : Bool) (part cmd a : Nat) (bs : List Byte) : (s.putEngine wide part cmd a bs).meters = s.meters := rfl
@[simp] theorem State.putEngine_staging (wide : Bool) (part cmd a : Nat) (bs : List Byte) : (s.putEngine wide part cmd a bs).staging = s.staging := rfl
@[simp] theorem State.putEngine_probe (wide : Bool) (part cmd a : Nat) (bs : List Byte) : (s.putEngine wide part cmd a bs).probe = s.probe := rfl
@[simp] theorem State.putEngine_fenceRec (wide : Bool) (part cmd a : Nat) (bs : List Byte) : (s.putEngine wide part cmd a bs).fenceRec = s.fenceRec := rfl
@[simp] theorem State.putEngine_suspects (wide : Bool) (part cmd a : Nat) (bs : List Byte) : (s.putEngine wide part cmd a bs).suspects = s.suspects := rfl
@[simp] theorem State.putEngine_sharedFaults (wide : Bool) (part cmd a : Nat) (bs : List Byte) : (s.putEngine wide part cmd a bs).sharedFaults = s.sharedFaults := rfl
@[simp] theorem State.putEngine_flits (wide : Bool) (part cmd a : Nat) (bs : List Byte) : (s.putEngine wide part cmd a bs).flits = s.flits := rfl
@[simp] theorem State.putEngine_wdogValue (wide : Bool) (part cmd a : Nat) (bs : List Byte) : (s.putEngine wide part cmd a bs).wdogValue = s.wdogValue := rfl
@[simp] theorem State.putEngine_wdogAt (wide : Bool) (part cmd a : Nat) (bs : List Byte) : (s.putEngine wide part cmd a bs).wdogAt = s.wdogAt := rfl
@[simp] theorem State.putEngine_rebuilds (wide : Bool) (part cmd a : Nat) (bs : List Byte) : (s.putEngine wide part cmd a bs).rebuilds = s.rebuilds := rfl
@[simp] theorem State.putEngine_forwards (wide : Bool) (part cmd a : Nat) (bs : List Byte) : (s.putEngine wide part cmd a bs).forwards = s.forwards := rfl
@[simp] theorem State.putEngine_lodge (wide : Bool) (part cmd a : Nat) (bs : List Byte) : (s.putEngine wide part cmd a bs).lodge = s.lodge := rfl
@[simp] theorem State.putEngine_resets (wide : Bool) (part cmd a : Nat) (bs : List Byte) : (s.putEngine wide part cmd a bs).resets = s.resets := rfl
@[simp] theorem State.putEngine_engResets (wide : Bool) (part cmd a : Nat) (bs : List Byte) : (s.putEngine wide part cmd a bs).engResets = s.engResets := rfl
@[simp] theorem State.putEngine_flash (wide : Bool) (part cmd a : Nat) (bs : List Byte) : (s.putEngine wide part cmd a bs).flash = s.flash := rfl
@[simp] theorem State.putEngine_repairDirty (wide : Bool) (part cmd a : Nat) (bs : List Byte) : (s.putEngine wide part cmd a bs).repairDirty = s.repairDirty := rfl
@[simp] theorem State.putEngine_mpeers (wide : Bool) (part cmd a : Nat) (bs : List Byte) : (s.putEngine wide part cmd a bs).mpeers = s.mpeers := rfl
@[simp] theorem State.putEngine_mgmt (wide : Bool) (part cmd a : Nat) (bs : List Byte) : (s.putEngine wide part cmd a bs).mgmt = s.mgmt := rfl
@[simp] theorem State.putEngine_rcvWriting (wide : Bool) (part cmd a : Nat) (bs : List Byte) : (s.putEngine wide part cmd a bs).rcvWriting = s.rcvWriting := rfl
@[simp] theorem State.putEngine_i3c (wide : Bool) (part cmd a : Nat) (bs : List Byte) : (s.putEngine wide part cmd a bs).i3c = s.i3c := rfl
@[simp] theorem State.putEngine_therm (wide : Bool) (part cmd a : Nat) (bs : List Byte) : (s.putEngine wide part cmd a bs).therm = s.therm := rfl
@[simp] theorem State.putEngine_volt (wide : Bool) (part cmd a : Nat) (bs : List Byte) : (s.putEngine wide part cmd a bs).volt = s.volt := rfl
@[simp] theorem State.putEngine_jtag (wide : Bool) (part cmd a : Nat) (bs : List Byte) : (s.putEngine wide part cmd a bs).jtag = s.jtag := rfl

/-! `State.engineWrite`. -/

@[simp] theorem State.engineWrite_pending (part cmd a : Nat) (bs : List Byte) : (s.engineWrite part cmd a bs).pending = s.pending := rfl
@[simp] theorem State.engineWrite_out (part cmd a : Nat) (bs : List Byte) : (s.engineWrite part cmd a bs).out = s.out := rfl
@[simp] theorem State.engineWrite_draws (part cmd a : Nat) (bs : List Byte) : (s.engineWrite part cmd a bs).draws = s.draws := rfl
@[simp] theorem State.engineWrite_nextId (part cmd a : Nat) (bs : List Byte) : (s.engineWrite part cmd a bs).nextId = s.nextId := rfl
@[simp] theorem State.engineWrite_posted (part cmd a : Nat) (bs : List Byte) : (s.engineWrite part cmd a bs).posted = s.posted := rfl
@[simp] theorem State.engineWrite_regs (part cmd a : Nat) (bs : List Byte) : (s.engineWrite part cmd a bs).regs = s.regs := rfl
@[simp] theorem State.engineWrite_scratch (part cmd a : Nat) (bs : List Byte) : (s.engineWrite part cmd a bs).scratch = s.scratch := rfl
@[simp] theorem State.engineWrite_scratchEcc (part cmd a : Nat) (bs : List Byte) : (s.engineWrite part cmd a bs).scratchEcc = s.scratchEcc := rfl
@[simp] theorem State.engineWrite_arbs (part cmd a : Nat) (bs : List Byte) : (s.engineWrite part cmd a bs).arbs = s.arbs := rfl
@[simp] theorem State.engineWrite_recode (part cmd a : Nat) (bs : List Byte) : (s.engineWrite part cmd a bs).recode = s.recode := rfl
@[simp] theorem State.engineWrite_acts (part cmd a : Nat) (bs : List Byte) : (s.engineWrite part cmd a bs).acts = s.acts := rfl
@[simp] theorem State.engineWrite_trr (part cmd a : Nat) (bs : List Byte) : (s.engineWrite part cmd a bs).trr = s.trr := rfl
@[simp] theorem State.engineWrite_corrected (part cmd a : Nat) (bs : List Byte) : (s.engineWrite part cmd a bs).corrected = s.corrected := rfl
@[simp] theorem State.engineWrite_spares (part cmd a : Nat) (bs : List Byte) : (s.engineWrite part cmd a bs).spares = s.spares := rfl
@[simp] theorem State.engineWrite_remapDue (part cmd a : Nat) (bs : List Byte) : (s.engineWrite part cmd a bs).remapDue = s.remapDue := rfl
@[simp] theorem State.engineWrite_ft (part cmd a : Nat) (bs : List Byte) : (s.engineWrite part cmd a bs).ft = s.ft := rfl
@[simp] theorem State.engineWrite_gated (part cmd a : Nat) (bs : List Byte) : (s.engineWrite part cmd a bs).gated = s.gated := rfl
@[simp] theorem State.engineWrite_life (part cmd a : Nat) (bs : List Byte) : (s.engineWrite part cmd a bs).life = s.life := rfl
@[simp] theorem State.engineWrite_standbyWanted (part cmd a : Nat) (bs : List Byte) : (s.engineWrite part cmd a bs).standbyWanted = s.standbyWanted := rfl
@[simp] theorem State.engineWrite_power (part cmd a : Nat) (bs : List Byte) : (s.engineWrite part cmd a bs).power = s.power := rfl
@[simp] theorem State.engineWrite_powerWant (part cmd a : Nat) (bs : List Byte) : (s.engineWrite part cmd a bs).powerWant = s.powerWant := rfl
@[simp] theorem State.engineWrite_powerNext (part cmd a : Nat) (bs : List Byte) : (s.engineWrite part cmd a bs).powerNext = s.powerNext := rfl
@[simp] theorem State.engineWrite_saving (part cmd a : Nat) (bs : List Byte) : (s.engineWrite part cmd a bs).saving = s.saving := rfl
@[simp] theorem State.engineWrite_pwrGood (part cmd a : Nat) (bs : List Byte) : (s.engineWrite part cmd a bs).pwrGood = s.pwrGood := rfl
@[simp] theorem State.engineWrite_thermTripped (part cmd a : Nat) (bs : List Byte) : (s.engineWrite part cmd a bs).thermTripped = s.thermTripped := rfl
@[simp] theorem State.engineWrite_straps (part cmd a : Nat) (bs : List Byte) : (s.engineWrite part cmd a bs).straps = s.straps := rfl
@[simp] theorem State.engineWrite_cause (part cmd a : Nat) (bs : List Byte) : (s.engineWrite part cmd a bs).cause = s.cause := rfl
@[simp] theorem State.engineWrite_charter (part cmd a : Nat) (bs : List Byte) : (s.engineWrite part cmd a bs).charter = s.charter := rfl
@[simp] theorem State.engineWrite_identity (part cmd a : Nat) (bs : List Byte) : (s.engineWrite part cmd a bs).identity = s.identity := rfl
@[simp] theorem State.engineWrite_entries (part cmd a : Nat) (bs : List Byte) : (s.engineWrite part cmd a bs).entries = s.entries := rfl
@[simp] theorem State.engineWrite_partState (part cmd a : Nat) (bs : List Byte) : (s.engineWrite part cmd a bs).partState = s.partState := rfl
@[simp] theorem State.engineWrite_lastLock (part cmd a : Nat) (bs : List Byte) : (s.engineWrite part cmd a bs).lastLock = s.lastLock := rfl
@[simp] theorem State.engineWrite_releasing (part cmd a : Nat) (bs : List Byte) : (s.engineWrite part cmd a bs).releasing = s.releasing := rfl
@[simp] theorem State.engineWrite_objs (part cmd a : Nat) (bs : List Byte) : (s.engineWrite part cmd a bs).objs = s.objs := rfl
@[simp] theorem State.engineWrite_objStage (part cmd a : Nat) (bs : List Byte) : (s.engineWrite part cmd a bs).objStage = s.objStage := rfl
@[simp] theorem State.engineWrite_far (part cmd a : Nat) (bs : List Byte) : (s.engineWrite part cmd a bs).far = s.far := rfl
@[simp] theorem State.engineWrite_dir (part cmd a : Nat) (bs : List Byte) : (s.engineWrite part cmd a bs).dir = s.dir := rfl
@[simp] theorem State.engineWrite_dirGen (part cmd a : Nat) (bs : List Byte) : (s.engineWrite part cmd a bs).dirGen = s.dirGen := rfl
@[simp] theorem State.engineWrite_lookup (part cmd a : Nat) (bs : List Byte) : (s.engineWrite part cmd a bs).lookup = s.lookup := rfl
@[simp] theorem State.engineWrite_slots (part cmd a : Nat) (bs : List Byte) : (s.engineWrite part cmd a bs).slots = s.slots := rfl
@[simp] theorem State.engineWrite_moves (part cmd a : Nat) (bs : List Byte) : (s.engineWrite part cmd a bs).moves = s.moves := rfl
@[simp] theorem State.engineWrite_heat (part cmd a : Nat) (bs : List Byte) : (s.engineWrite part cmd a bs).heat = s.heat := rfl
@[simp] theorem State.engineWrite_bg (part cmd a : Nat) (bs : List Byte) : (s.engineWrite part cmd a bs).bg = s.bg := rfl
@[simp] theorem State.engineWrite_cmds (part cmd a : Nat) (bs : List Byte) : (s.engineWrite part cmd a bs).cmds = s.cmds := rfl
@[simp] theorem State.engineWrite_rings (part cmd a : Nat) (bs : List Byte) : (s.engineWrite part cmd a bs).rings = s.rings := rfl
@[simp] theorem State.engineWrite_links (part cmd a : Nat) (bs : List Byte) : (s.engineWrite part cmd a bs).links = s.links := rfl
@[simp] theorem State.engineWrite_inq (part cmd a : Nat) (bs : List Byte) : (s.engineWrite part cmd a bs).inq = s.inq := rfl
@[simp] theorem State.engineWrite_turns (part cmd a : Nat) (bs : List Byte) : (s.engineWrite part cmd a bs).turns = s.turns := rfl
@[simp] theorem State.engineWrite_wms (part cmd a : Nat) (bs : List Byte) : (s.engineWrite part cmd a bs).wms = s.wms := rfl
@[simp] theorem State.engineWrite_wmLatch (part cmd a : Nat) (bs : List Byte) : (s.engineWrite part cmd a bs).wmLatch = s.wmLatch := rfl
@[simp] theorem State.engineWrite_holds (part cmd a : Nat) (bs : List Byte) : (s.engineWrite part cmd a bs).holds = s.holds := rfl
@[simp] theorem State.engineWrite_hauls (part cmd a : Nat) (bs : List Byte) : (s.engineWrite part cmd a bs).hauls = s.hauls := rfl
@[simp] theorem State.engineWrite_rows (part cmd a : Nat) (bs : List Byte) : (s.engineWrite part cmd a bs).rows = s.rows := rfl
@[simp] theorem State.engineWrite_reqs (part cmd a : Nat) (bs : List Byte) : (s.engineWrite part cmd a bs).reqs = s.reqs := rfl
@[simp] theorem State.engineWrite_plan (part cmd a : Nat) (bs : List Byte) : (s.engineWrite part cmd a bs).plan = s.plan := rfl
@[simp] theorem State.engineWrite_planBase (part cmd a : Nat) (bs : List Byte) : (s.engineWrite part cmd a bs).planBase = s.planBase := rfl
@[simp] theorem State.engineWrite_sent (part cmd a : Nat) (bs : List Byte) : (s.engineWrite part cmd a bs).sent = s.sent := rfl
@[simp] theorem State.engineWrite_emberNums (part cmd a : Nat) (bs : List Byte) : (s.engineWrite part cmd a bs).emberNums = s.emberNums := rfl
@[simp] theorem State.engineWrite_recv (part cmd a : Nat) (bs : List Byte) : (s.engineWrite part cmd a bs).recv = s.recv := rfl
@[simp] theorem State.engineWrite_merges (part cmd a : Nat) (bs : List Byte) : (s.engineWrite part cmd a bs).merges = s.merges := rfl
@[simp] theorem State.engineWrite_mergesDone (part cmd a : Nat) (bs : List Byte) : (s.engineWrite part cmd a bs).mergesDone = s.mergesDone := rfl
@[simp] theorem State.engineWrite_images (part cmd a : Nat) (bs : List Byte) : (s.engineWrite part cmd a bs).images = s.images := rfl
@[simp] theorem State.engineWrite_kindles (part cmd a : Nat) (bs : List Byte) : (s.engineWrite part cmd a bs).kindles = s.kindles := rfl
@[simp] theorem State.engineWrite_arrayHclk (part cmd a : Nat) (bs : List Byte) : (s.engineWrite part cmd a bs).arrayHclk = s.arrayHclk := rfl
@[simp] theorem State.engineWrite_arrayUsed (part cmd a : Nat) (bs : List Byte) : (s.engineWrite part cmd a bs).arrayUsed = s.arrayUsed := rfl
@[simp] theorem State.engineWrite_scrub (part cmd a : Nat) (bs : List Byte) : (s.engineWrite part cmd a bs).scrub = s.scrub := rfl
@[simp] theorem State.engineWrite_conns (part cmd a : Nat) (bs : List Byte) : (s.engineWrite part cmd a bs).conns = s.conns := rfl
@[simp] theorem State.engineWrite_ports (part cmd a : Nat) (bs : List Byte) : (s.engineWrite part cmd a bs).ports = s.ports := rfl
@[simp] theorem State.engineWrite_up (part cmd a : Nat) (bs : List Byte) : (s.engineWrite part cmd a bs).up = s.up := rfl
@[simp] theorem State.engineWrite_waykeys (part cmd a : Nat) (bs : List Byte) : (s.engineWrite part cmd a bs).waykeys = s.waykeys := rfl
@[simp] theorem State.engineWrite_wkLive (part cmd a : Nat) (bs : List Byte) : (s.engineWrite part cmd a bs).wkLive = s.wkLive := rfl
@[simp] theorem State.engineWrite_vioLog (part cmd a : Nat) (bs : List Byte) : (s.engineWrite part cmd a bs).vioLog = s.vioLog := rfl
@[simp] theorem State.engineWrite_shapers (part cmd a : Nat) (bs : List Byte) : (s.engineWrite part cmd a bs).shapers = s.shapers := rfl
@[simp] theorem State.engineWrite_shChanges (part cmd a : Nat) (bs : List Byte) : (s.engineWrite part cmd a bs).shChanges = s.shChanges := rfl
@[simp] theorem State.engineWrite_acctPackets (part cmd a : Nat) (bs : List Byte) : (s.engineWrite part cmd a bs).acctPackets = s.acctPackets := rfl
@[simp] theorem State.engineWrite_drrs (part cmd a : Nat) (bs : List Byte) : (s.engineWrite part cmd a bs).drrs = s.drrs := rfl
@[simp] theorem State.engineWrite_replies (part cmd a : Nat) (bs : List Byte) : (s.engineWrite part cmd a bs).replies = s.replies := rfl
@[simp] theorem State.engineWrite_attest (part cmd a : Nat) (bs : List Byte) : (s.engineWrite part cmd a bs).attest = s.attest := rfl
@[simp] theorem State.engineWrite_meters (part cmd a : Nat) (bs : List Byte) : (s.engineWrite part cmd a bs).meters = s.meters := rfl
@[simp] theorem State.engineWrite_staging (part cmd a : Nat) (bs : List Byte) : (s.engineWrite part cmd a bs).staging = s.staging := rfl
@[simp] theorem State.engineWrite_probe (part cmd a : Nat) (bs : List Byte) : (s.engineWrite part cmd a bs).probe = s.probe := rfl
@[simp] theorem State.engineWrite_fenceRec (part cmd a : Nat) (bs : List Byte) : (s.engineWrite part cmd a bs).fenceRec = s.fenceRec := rfl
@[simp] theorem State.engineWrite_suspects (part cmd a : Nat) (bs : List Byte) : (s.engineWrite part cmd a bs).suspects = s.suspects := rfl
@[simp] theorem State.engineWrite_sharedFaults (part cmd a : Nat) (bs : List Byte) : (s.engineWrite part cmd a bs).sharedFaults = s.sharedFaults := rfl
@[simp] theorem State.engineWrite_flits (part cmd a : Nat) (bs : List Byte) : (s.engineWrite part cmd a bs).flits = s.flits := rfl
@[simp] theorem State.engineWrite_wdogValue (part cmd a : Nat) (bs : List Byte) : (s.engineWrite part cmd a bs).wdogValue = s.wdogValue := rfl
@[simp] theorem State.engineWrite_wdogAt (part cmd a : Nat) (bs : List Byte) : (s.engineWrite part cmd a bs).wdogAt = s.wdogAt := rfl
@[simp] theorem State.engineWrite_rebuilds (part cmd a : Nat) (bs : List Byte) : (s.engineWrite part cmd a bs).rebuilds = s.rebuilds := rfl
@[simp] theorem State.engineWrite_forwards (part cmd a : Nat) (bs : List Byte) : (s.engineWrite part cmd a bs).forwards = s.forwards := rfl
@[simp] theorem State.engineWrite_lodge (part cmd a : Nat) (bs : List Byte) : (s.engineWrite part cmd a bs).lodge = s.lodge := rfl
@[simp] theorem State.engineWrite_resets (part cmd a : Nat) (bs : List Byte) : (s.engineWrite part cmd a bs).resets = s.resets := rfl
@[simp] theorem State.engineWrite_engResets (part cmd a : Nat) (bs : List Byte) : (s.engineWrite part cmd a bs).engResets = s.engResets := rfl
@[simp] theorem State.engineWrite_flash (part cmd a : Nat) (bs : List Byte) : (s.engineWrite part cmd a bs).flash = s.flash := rfl
@[simp] theorem State.engineWrite_repairDirty (part cmd a : Nat) (bs : List Byte) : (s.engineWrite part cmd a bs).repairDirty = s.repairDirty := rfl
@[simp] theorem State.engineWrite_mpeers (part cmd a : Nat) (bs : List Byte) : (s.engineWrite part cmd a bs).mpeers = s.mpeers := rfl
@[simp] theorem State.engineWrite_mgmt (part cmd a : Nat) (bs : List Byte) : (s.engineWrite part cmd a bs).mgmt = s.mgmt := rfl
@[simp] theorem State.engineWrite_rcvWriting (part cmd a : Nat) (bs : List Byte) : (s.engineWrite part cmd a bs).rcvWriting = s.rcvWriting := rfl
@[simp] theorem State.engineWrite_i3c (part cmd a : Nat) (bs : List Byte) : (s.engineWrite part cmd a bs).i3c = s.i3c := rfl
@[simp] theorem State.engineWrite_therm (part cmd a : Nat) (bs : List Byte) : (s.engineWrite part cmd a bs).therm = s.therm := rfl
@[simp] theorem State.engineWrite_volt (part cmd a : Nat) (bs : List Byte) : (s.engineWrite part cmd a bs).volt = s.volt := rfl
@[simp] theorem State.engineWrite_jtag (part cmd a : Nat) (bs : List Byte) : (s.engineWrite part cmd a bs).jtag = s.jtag := rfl

/-! `State.setRing`. -/

@[simp] theorem State.setRing_pending (p e : Nat) (r : Ring) : (s.setRing p e r).pending = s.pending := rfl
@[simp] theorem State.setRing_out (p e : Nat) (r : Ring) : (s.setRing p e r).out = s.out := rfl
@[simp] theorem State.setRing_draws (p e : Nat) (r : Ring) : (s.setRing p e r).draws = s.draws := rfl
@[simp] theorem State.setRing_nextId (p e : Nat) (r : Ring) : (s.setRing p e r).nextId = s.nextId := rfl
@[simp] theorem State.setRing_posted (p e : Nat) (r : Ring) : (s.setRing p e r).posted = s.posted := rfl
@[simp] theorem State.setRing_regs (p e : Nat) (r : Ring) : (s.setRing p e r).regs = s.regs := rfl
@[simp] theorem State.setRing_mem (p e : Nat) (r : Ring) : (s.setRing p e r).mem = s.mem := rfl
@[simp] theorem State.setRing_stale (p e : Nat) (r : Ring) : (s.setRing p e r).stale = s.stale := rfl
@[simp] theorem State.setRing_ecc (p e : Nat) (r : Ring) : (s.setRing p e r).ecc = s.ecc := rfl
@[simp] theorem State.setRing_scratch (p e : Nat) (r : Ring) : (s.setRing p e r).scratch = s.scratch := rfl
@[simp] theorem State.setRing_scratchEcc (p e : Nat) (r : Ring) : (s.setRing p e r).scratchEcc = s.scratchEcc := rfl
@[simp] theorem State.setRing_arbs (p e : Nat) (r : Ring) : (s.setRing p e r).arbs = s.arbs := rfl
@[simp] theorem State.setRing_recode (p e : Nat) (r : Ring) : (s.setRing p e r).recode = s.recode := rfl
@[simp] theorem State.setRing_acts (p e : Nat) (r : Ring) : (s.setRing p e r).acts = s.acts := rfl
@[simp] theorem State.setRing_trr (p e : Nat) (r : Ring) : (s.setRing p e r).trr = s.trr := rfl
@[simp] theorem State.setRing_corrected (p e : Nat) (r : Ring) : (s.setRing p e r).corrected = s.corrected := rfl
@[simp] theorem State.setRing_spares (p e : Nat) (r : Ring) : (s.setRing p e r).spares = s.spares := rfl
@[simp] theorem State.setRing_remapDue (p e : Nat) (r : Ring) : (s.setRing p e r).remapDue = s.remapDue := rfl
@[simp] theorem State.setRing_ft (p e : Nat) (r : Ring) : (s.setRing p e r).ft = s.ft := rfl
@[simp] theorem State.setRing_gated (p e : Nat) (r : Ring) : (s.setRing p e r).gated = s.gated := rfl
@[simp] theorem State.setRing_life (p e : Nat) (r : Ring) : (s.setRing p e r).life = s.life := rfl
@[simp] theorem State.setRing_standbyWanted (p e : Nat) (r : Ring) : (s.setRing p e r).standbyWanted = s.standbyWanted := rfl
@[simp] theorem State.setRing_power (p e : Nat) (r : Ring) : (s.setRing p e r).power = s.power := rfl
@[simp] theorem State.setRing_powerWant (p e : Nat) (r : Ring) : (s.setRing p e r).powerWant = s.powerWant := rfl
@[simp] theorem State.setRing_powerNext (p e : Nat) (r : Ring) : (s.setRing p e r).powerNext = s.powerNext := rfl
@[simp] theorem State.setRing_saving (p e : Nat) (r : Ring) : (s.setRing p e r).saving = s.saving := rfl
@[simp] theorem State.setRing_pwrGood (p e : Nat) (r : Ring) : (s.setRing p e r).pwrGood = s.pwrGood := rfl
@[simp] theorem State.setRing_thermTripped (p e : Nat) (r : Ring) : (s.setRing p e r).thermTripped = s.thermTripped := rfl
@[simp] theorem State.setRing_straps (p e : Nat) (r : Ring) : (s.setRing p e r).straps = s.straps := rfl
@[simp] theorem State.setRing_cause (p e : Nat) (r : Ring) : (s.setRing p e r).cause = s.cause := rfl
@[simp] theorem State.setRing_charter (p e : Nat) (r : Ring) : (s.setRing p e r).charter = s.charter := rfl
@[simp] theorem State.setRing_identity (p e : Nat) (r : Ring) : (s.setRing p e r).identity = s.identity := rfl
@[simp] theorem State.setRing_entries (p e : Nat) (r : Ring) : (s.setRing p e r).entries = s.entries := rfl
@[simp] theorem State.setRing_partState (p e : Nat) (r : Ring) : (s.setRing p e r).partState = s.partState := rfl
@[simp] theorem State.setRing_lastLock (p e : Nat) (r : Ring) : (s.setRing p e r).lastLock = s.lastLock := rfl
@[simp] theorem State.setRing_releasing (p e : Nat) (r : Ring) : (s.setRing p e r).releasing = s.releasing := rfl
@[simp] theorem State.setRing_objs (p e : Nat) (r : Ring) : (s.setRing p e r).objs = s.objs := rfl
@[simp] theorem State.setRing_objStage (p e : Nat) (r : Ring) : (s.setRing p e r).objStage = s.objStage := rfl
@[simp] theorem State.setRing_far (p e : Nat) (r : Ring) : (s.setRing p e r).far = s.far := rfl
@[simp] theorem State.setRing_dir (p e : Nat) (r : Ring) : (s.setRing p e r).dir = s.dir := rfl
@[simp] theorem State.setRing_dirGen (p e : Nat) (r : Ring) : (s.setRing p e r).dirGen = s.dirGen := rfl
@[simp] theorem State.setRing_lookup (p e : Nat) (r : Ring) : (s.setRing p e r).lookup = s.lookup := rfl
@[simp] theorem State.setRing_slots (p e : Nat) (r : Ring) : (s.setRing p e r).slots = s.slots := rfl
@[simp] theorem State.setRing_moves (p e : Nat) (r : Ring) : (s.setRing p e r).moves = s.moves := rfl
@[simp] theorem State.setRing_heat (p e : Nat) (r : Ring) : (s.setRing p e r).heat = s.heat := rfl
@[simp] theorem State.setRing_bg (p e : Nat) (r : Ring) : (s.setRing p e r).bg = s.bg := rfl
@[simp] theorem State.setRing_cmds (p e : Nat) (r : Ring) : (s.setRing p e r).cmds = s.cmds := rfl
@[simp] theorem State.setRing_links (p e : Nat) (r : Ring) : (s.setRing p e r).links = s.links := rfl
@[simp] theorem State.setRing_inq (p e : Nat) (r : Ring) : (s.setRing p e r).inq = s.inq := rfl
@[simp] theorem State.setRing_turns (p e : Nat) (r : Ring) : (s.setRing p e r).turns = s.turns := rfl
@[simp] theorem State.setRing_wms (p e : Nat) (r : Ring) : (s.setRing p e r).wms = s.wms := rfl
@[simp] theorem State.setRing_wmLatch (p e : Nat) (r : Ring) : (s.setRing p e r).wmLatch = s.wmLatch := rfl
@[simp] theorem State.setRing_holds (p e : Nat) (r : Ring) : (s.setRing p e r).holds = s.holds := rfl
@[simp] theorem State.setRing_hauls (p e : Nat) (r : Ring) : (s.setRing p e r).hauls = s.hauls := rfl
@[simp] theorem State.setRing_rows (p e : Nat) (r : Ring) : (s.setRing p e r).rows = s.rows := rfl
@[simp] theorem State.setRing_reqs (p e : Nat) (r : Ring) : (s.setRing p e r).reqs = s.reqs := rfl
@[simp] theorem State.setRing_plan (p e : Nat) (r : Ring) : (s.setRing p e r).plan = s.plan := rfl
@[simp] theorem State.setRing_planBase (p e : Nat) (r : Ring) : (s.setRing p e r).planBase = s.planBase := rfl
@[simp] theorem State.setRing_sent (p e : Nat) (r : Ring) : (s.setRing p e r).sent = s.sent := rfl
@[simp] theorem State.setRing_emberNums (p e : Nat) (r : Ring) : (s.setRing p e r).emberNums = s.emberNums := rfl
@[simp] theorem State.setRing_recv (p e : Nat) (r : Ring) : (s.setRing p e r).recv = s.recv := rfl
@[simp] theorem State.setRing_merges (p e : Nat) (r : Ring) : (s.setRing p e r).merges = s.merges := rfl
@[simp] theorem State.setRing_mergesDone (p e : Nat) (r : Ring) : (s.setRing p e r).mergesDone = s.mergesDone := rfl
@[simp] theorem State.setRing_images (p e : Nat) (r : Ring) : (s.setRing p e r).images = s.images := rfl
@[simp] theorem State.setRing_kindles (p e : Nat) (r : Ring) : (s.setRing p e r).kindles = s.kindles := rfl
@[simp] theorem State.setRing_arrayHclk (p e : Nat) (r : Ring) : (s.setRing p e r).arrayHclk = s.arrayHclk := rfl
@[simp] theorem State.setRing_arrayUsed (p e : Nat) (r : Ring) : (s.setRing p e r).arrayUsed = s.arrayUsed := rfl
@[simp] theorem State.setRing_scrub (p e : Nat) (r : Ring) : (s.setRing p e r).scrub = s.scrub := rfl
@[simp] theorem State.setRing_conns (p e : Nat) (r : Ring) : (s.setRing p e r).conns = s.conns := rfl
@[simp] theorem State.setRing_ports (p e : Nat) (r : Ring) : (s.setRing p e r).ports = s.ports := rfl
@[simp] theorem State.setRing_up (p e : Nat) (r : Ring) : (s.setRing p e r).up = s.up := rfl
@[simp] theorem State.setRing_waykeys (p e : Nat) (r : Ring) : (s.setRing p e r).waykeys = s.waykeys := rfl
@[simp] theorem State.setRing_wkLive (p e : Nat) (r : Ring) : (s.setRing p e r).wkLive = s.wkLive := rfl
@[simp] theorem State.setRing_vioLog (p e : Nat) (r : Ring) : (s.setRing p e r).vioLog = s.vioLog := rfl
@[simp] theorem State.setRing_shapers (p e : Nat) (r : Ring) : (s.setRing p e r).shapers = s.shapers := rfl
@[simp] theorem State.setRing_shChanges (p e : Nat) (r : Ring) : (s.setRing p e r).shChanges = s.shChanges := rfl
@[simp] theorem State.setRing_acctPackets (p e : Nat) (r : Ring) : (s.setRing p e r).acctPackets = s.acctPackets := rfl
@[simp] theorem State.setRing_drrs (p e : Nat) (r : Ring) : (s.setRing p e r).drrs = s.drrs := rfl
@[simp] theorem State.setRing_replies (p e : Nat) (r : Ring) : (s.setRing p e r).replies = s.replies := rfl
@[simp] theorem State.setRing_attest (p e : Nat) (r : Ring) : (s.setRing p e r).attest = s.attest := rfl
@[simp] theorem State.setRing_meters (p e : Nat) (r : Ring) : (s.setRing p e r).meters = s.meters := rfl
@[simp] theorem State.setRing_staging (p e : Nat) (r : Ring) : (s.setRing p e r).staging = s.staging := rfl
@[simp] theorem State.setRing_probe (p e : Nat) (r : Ring) : (s.setRing p e r).probe = s.probe := rfl
@[simp] theorem State.setRing_fenceRec (p e : Nat) (r : Ring) : (s.setRing p e r).fenceRec = s.fenceRec := rfl
@[simp] theorem State.setRing_suspects (p e : Nat) (r : Ring) : (s.setRing p e r).suspects = s.suspects := rfl
@[simp] theorem State.setRing_sharedFaults (p e : Nat) (r : Ring) : (s.setRing p e r).sharedFaults = s.sharedFaults := rfl
@[simp] theorem State.setRing_flits (p e : Nat) (r : Ring) : (s.setRing p e r).flits = s.flits := rfl
@[simp] theorem State.setRing_wdogValue (p e : Nat) (r : Ring) : (s.setRing p e r).wdogValue = s.wdogValue := rfl
@[simp] theorem State.setRing_wdogAt (p e : Nat) (r : Ring) : (s.setRing p e r).wdogAt = s.wdogAt := rfl
@[simp] theorem State.setRing_rebuilds (p e : Nat) (r : Ring) : (s.setRing p e r).rebuilds = s.rebuilds := rfl
@[simp] theorem State.setRing_forwards (p e : Nat) (r : Ring) : (s.setRing p e r).forwards = s.forwards := rfl
@[simp] theorem State.setRing_lodge (p e : Nat) (r : Ring) : (s.setRing p e r).lodge = s.lodge := rfl
@[simp] theorem State.setRing_resets (p e : Nat) (r : Ring) : (s.setRing p e r).resets = s.resets := rfl
@[simp] theorem State.setRing_engResets (p e : Nat) (r : Ring) : (s.setRing p e r).engResets = s.engResets := rfl
@[simp] theorem State.setRing_flash (p e : Nat) (r : Ring) : (s.setRing p e r).flash = s.flash := rfl
@[simp] theorem State.setRing_repairDirty (p e : Nat) (r : Ring) : (s.setRing p e r).repairDirty = s.repairDirty := rfl
@[simp] theorem State.setRing_mpeers (p e : Nat) (r : Ring) : (s.setRing p e r).mpeers = s.mpeers := rfl
@[simp] theorem State.setRing_mgmt (p e : Nat) (r : Ring) : (s.setRing p e r).mgmt = s.mgmt := rfl
@[simp] theorem State.setRing_rcvWriting (p e : Nat) (r : Ring) : (s.setRing p e r).rcvWriting = s.rcvWriting := rfl
@[simp] theorem State.setRing_i3c (p e : Nat) (r : Ring) : (s.setRing p e r).i3c = s.i3c := rfl
@[simp] theorem State.setRing_therm (p e : Nat) (r : Ring) : (s.setRing p e r).therm = s.therm := rfl
@[simp] theorem State.setRing_volt (p e : Nat) (r : Ring) : (s.setRing p e r).volt = s.volt := rfl
@[simp] theorem State.setRing_jtag (p e : Nat) (r : Ring) : (s.setRing p e r).jtag = s.jtag := rfl

/-! `State.queueReady`. -/

@[simp] theorem State.queueReady_pending (k : Nat) : (s.queueReady k).pending = s.pending := rfl
@[simp] theorem State.queueReady_out (k : Nat) : (s.queueReady k).out = s.out := rfl
@[simp] theorem State.queueReady_draws (k : Nat) : (s.queueReady k).draws = s.draws := rfl
@[simp] theorem State.queueReady_nextId (k : Nat) : (s.queueReady k).nextId = s.nextId := rfl
@[simp] theorem State.queueReady_posted (k : Nat) : (s.queueReady k).posted = s.posted := rfl
@[simp] theorem State.queueReady_regs (k : Nat) : (s.queueReady k).regs = s.regs := rfl
@[simp] theorem State.queueReady_mem (k : Nat) : (s.queueReady k).mem = s.mem := rfl
@[simp] theorem State.queueReady_stale (k : Nat) : (s.queueReady k).stale = s.stale := rfl
@[simp] theorem State.queueReady_ecc (k : Nat) : (s.queueReady k).ecc = s.ecc := rfl
@[simp] theorem State.queueReady_scratch (k : Nat) : (s.queueReady k).scratch = s.scratch := rfl
@[simp] theorem State.queueReady_scratchEcc (k : Nat) : (s.queueReady k).scratchEcc = s.scratchEcc := rfl
@[simp] theorem State.queueReady_arbs (k : Nat) : (s.queueReady k).arbs = s.arbs := rfl
@[simp] theorem State.queueReady_recode (k : Nat) : (s.queueReady k).recode = s.recode := rfl
@[simp] theorem State.queueReady_acts (k : Nat) : (s.queueReady k).acts = s.acts := rfl
@[simp] theorem State.queueReady_trr (k : Nat) : (s.queueReady k).trr = s.trr := rfl
@[simp] theorem State.queueReady_corrected (k : Nat) : (s.queueReady k).corrected = s.corrected := rfl
@[simp] theorem State.queueReady_spares (k : Nat) : (s.queueReady k).spares = s.spares := rfl
@[simp] theorem State.queueReady_remapDue (k : Nat) : (s.queueReady k).remapDue = s.remapDue := rfl
@[simp] theorem State.queueReady_ft (k : Nat) : (s.queueReady k).ft = s.ft := rfl
@[simp] theorem State.queueReady_gated (k : Nat) : (s.queueReady k).gated = s.gated := rfl
@[simp] theorem State.queueReady_life (k : Nat) : (s.queueReady k).life = s.life := rfl
@[simp] theorem State.queueReady_standbyWanted (k : Nat) : (s.queueReady k).standbyWanted = s.standbyWanted := rfl
@[simp] theorem State.queueReady_power (k : Nat) : (s.queueReady k).power = s.power := rfl
@[simp] theorem State.queueReady_powerWant (k : Nat) : (s.queueReady k).powerWant = s.powerWant := rfl
@[simp] theorem State.queueReady_powerNext (k : Nat) : (s.queueReady k).powerNext = s.powerNext := rfl
@[simp] theorem State.queueReady_saving (k : Nat) : (s.queueReady k).saving = s.saving := rfl
@[simp] theorem State.queueReady_pwrGood (k : Nat) : (s.queueReady k).pwrGood = s.pwrGood := rfl
@[simp] theorem State.queueReady_thermTripped (k : Nat) : (s.queueReady k).thermTripped = s.thermTripped := rfl
@[simp] theorem State.queueReady_straps (k : Nat) : (s.queueReady k).straps = s.straps := rfl
@[simp] theorem State.queueReady_cause (k : Nat) : (s.queueReady k).cause = s.cause := rfl
@[simp] theorem State.queueReady_charter (k : Nat) : (s.queueReady k).charter = s.charter := rfl
@[simp] theorem State.queueReady_identity (k : Nat) : (s.queueReady k).identity = s.identity := rfl
@[simp] theorem State.queueReady_entries (k : Nat) : (s.queueReady k).entries = s.entries := rfl
@[simp] theorem State.queueReady_partState (k : Nat) : (s.queueReady k).partState = s.partState := rfl
@[simp] theorem State.queueReady_lastLock (k : Nat) : (s.queueReady k).lastLock = s.lastLock := rfl
@[simp] theorem State.queueReady_releasing (k : Nat) : (s.queueReady k).releasing = s.releasing := rfl
@[simp] theorem State.queueReady_objs (k : Nat) : (s.queueReady k).objs = s.objs := rfl
@[simp] theorem State.queueReady_objStage (k : Nat) : (s.queueReady k).objStage = s.objStage := rfl
@[simp] theorem State.queueReady_far (k : Nat) : (s.queueReady k).far = s.far := rfl
@[simp] theorem State.queueReady_dir (k : Nat) : (s.queueReady k).dir = s.dir := rfl
@[simp] theorem State.queueReady_dirGen (k : Nat) : (s.queueReady k).dirGen = s.dirGen := rfl
@[simp] theorem State.queueReady_lookup (k : Nat) : (s.queueReady k).lookup = s.lookup := rfl
@[simp] theorem State.queueReady_slots (k : Nat) : (s.queueReady k).slots = s.slots := rfl
@[simp] theorem State.queueReady_moves (k : Nat) : (s.queueReady k).moves = s.moves := rfl
@[simp] theorem State.queueReady_heat (k : Nat) : (s.queueReady k).heat = s.heat := rfl
@[simp] theorem State.queueReady_bg (k : Nat) : (s.queueReady k).bg = s.bg := rfl
@[simp] theorem State.queueReady_cmds (k : Nat) : (s.queueReady k).cmds = s.cmds := rfl
@[simp] theorem State.queueReady_rings (k : Nat) : (s.queueReady k).rings = s.rings := rfl
@[simp] theorem State.queueReady_links (k : Nat) : (s.queueReady k).links = s.links := rfl
@[simp] theorem State.queueReady_inq (k : Nat) : (s.queueReady k).inq = s.inq := rfl
@[simp] theorem State.queueReady_wms (k : Nat) : (s.queueReady k).wms = s.wms := rfl
@[simp] theorem State.queueReady_wmLatch (k : Nat) : (s.queueReady k).wmLatch = s.wmLatch := rfl
@[simp] theorem State.queueReady_holds (k : Nat) : (s.queueReady k).holds = s.holds := rfl
@[simp] theorem State.queueReady_hauls (k : Nat) : (s.queueReady k).hauls = s.hauls := rfl
@[simp] theorem State.queueReady_rows (k : Nat) : (s.queueReady k).rows = s.rows := rfl
@[simp] theorem State.queueReady_reqs (k : Nat) : (s.queueReady k).reqs = s.reqs := rfl
@[simp] theorem State.queueReady_plan (k : Nat) : (s.queueReady k).plan = s.plan := rfl
@[simp] theorem State.queueReady_planBase (k : Nat) : (s.queueReady k).planBase = s.planBase := rfl
@[simp] theorem State.queueReady_sent (k : Nat) : (s.queueReady k).sent = s.sent := rfl
@[simp] theorem State.queueReady_emberNums (k : Nat) : (s.queueReady k).emberNums = s.emberNums := rfl
@[simp] theorem State.queueReady_recv (k : Nat) : (s.queueReady k).recv = s.recv := rfl
@[simp] theorem State.queueReady_merges (k : Nat) : (s.queueReady k).merges = s.merges := rfl
@[simp] theorem State.queueReady_mergesDone (k : Nat) : (s.queueReady k).mergesDone = s.mergesDone := rfl
@[simp] theorem State.queueReady_images (k : Nat) : (s.queueReady k).images = s.images := rfl
@[simp] theorem State.queueReady_kindles (k : Nat) : (s.queueReady k).kindles = s.kindles := rfl
@[simp] theorem State.queueReady_arrayHclk (k : Nat) : (s.queueReady k).arrayHclk = s.arrayHclk := rfl
@[simp] theorem State.queueReady_arrayUsed (k : Nat) : (s.queueReady k).arrayUsed = s.arrayUsed := rfl
@[simp] theorem State.queueReady_scrub (k : Nat) : (s.queueReady k).scrub = s.scrub := rfl
@[simp] theorem State.queueReady_conns (k : Nat) : (s.queueReady k).conns = s.conns := rfl
@[simp] theorem State.queueReady_ports (k : Nat) : (s.queueReady k).ports = s.ports := rfl
@[simp] theorem State.queueReady_up (k : Nat) : (s.queueReady k).up = s.up := rfl
@[simp] theorem State.queueReady_waykeys (k : Nat) : (s.queueReady k).waykeys = s.waykeys := rfl
@[simp] theorem State.queueReady_wkLive (k : Nat) : (s.queueReady k).wkLive = s.wkLive := rfl
@[simp] theorem State.queueReady_vioLog (k : Nat) : (s.queueReady k).vioLog = s.vioLog := rfl
@[simp] theorem State.queueReady_shapers (k : Nat) : (s.queueReady k).shapers = s.shapers := rfl
@[simp] theorem State.queueReady_shChanges (k : Nat) : (s.queueReady k).shChanges = s.shChanges := rfl
@[simp] theorem State.queueReady_acctPackets (k : Nat) : (s.queueReady k).acctPackets = s.acctPackets := rfl
@[simp] theorem State.queueReady_drrs (k : Nat) : (s.queueReady k).drrs = s.drrs := rfl
@[simp] theorem State.queueReady_replies (k : Nat) : (s.queueReady k).replies = s.replies := rfl
@[simp] theorem State.queueReady_attest (k : Nat) : (s.queueReady k).attest = s.attest := rfl
@[simp] theorem State.queueReady_meters (k : Nat) : (s.queueReady k).meters = s.meters := rfl
@[simp] theorem State.queueReady_staging (k : Nat) : (s.queueReady k).staging = s.staging := rfl
@[simp] theorem State.queueReady_probe (k : Nat) : (s.queueReady k).probe = s.probe := rfl
@[simp] theorem State.queueReady_fenceRec (k : Nat) : (s.queueReady k).fenceRec = s.fenceRec := rfl
@[simp] theorem State.queueReady_suspects (k : Nat) : (s.queueReady k).suspects = s.suspects := rfl
@[simp] theorem State.queueReady_sharedFaults (k : Nat) : (s.queueReady k).sharedFaults = s.sharedFaults := rfl
@[simp] theorem State.queueReady_flits (k : Nat) : (s.queueReady k).flits = s.flits := rfl
@[simp] theorem State.queueReady_wdogValue (k : Nat) : (s.queueReady k).wdogValue = s.wdogValue := rfl
@[simp] theorem State.queueReady_wdogAt (k : Nat) : (s.queueReady k).wdogAt = s.wdogAt := rfl
@[simp] theorem State.queueReady_rebuilds (k : Nat) : (s.queueReady k).rebuilds = s.rebuilds := rfl
@[simp] theorem State.queueReady_forwards (k : Nat) : (s.queueReady k).forwards = s.forwards := rfl
@[simp] theorem State.queueReady_lodge (k : Nat) : (s.queueReady k).lodge = s.lodge := rfl
@[simp] theorem State.queueReady_resets (k : Nat) : (s.queueReady k).resets = s.resets := rfl
@[simp] theorem State.queueReady_engResets (k : Nat) : (s.queueReady k).engResets = s.engResets := rfl
@[simp] theorem State.queueReady_flash (k : Nat) : (s.queueReady k).flash = s.flash := rfl
@[simp] theorem State.queueReady_repairDirty (k : Nat) : (s.queueReady k).repairDirty = s.repairDirty := rfl
@[simp] theorem State.queueReady_mpeers (k : Nat) : (s.queueReady k).mpeers = s.mpeers := rfl
@[simp] theorem State.queueReady_mgmt (k : Nat) : (s.queueReady k).mgmt = s.mgmt := rfl
@[simp] theorem State.queueReady_rcvWriting (k : Nat) : (s.queueReady k).rcvWriting = s.rcvWriting := rfl
@[simp] theorem State.queueReady_i3c (k : Nat) : (s.queueReady k).i3c = s.i3c := rfl
@[simp] theorem State.queueReady_therm (k : Nat) : (s.queueReady k).therm = s.therm := rfl
@[simp] theorem State.queueReady_volt (k : Nat) : (s.queueReady k).volt = s.volt := rfl
@[simp] theorem State.queueReady_jtag (k : Nat) : (s.queueReady k).jtag = s.jtag := rfl

/-! `State.served`. -/

/-- The start of a command changes the turns of the queues alone (R249). -/
theorem State.served_turns (id : Nat) : ∃ ts, s.served id = { s with turns := ts } := by
  unfold State.served
  split
  · split
    · exact ⟨_, rfl⟩
    · split
      · exact ⟨_, rfl⟩
      · exact ⟨_, rfl⟩
  · exact ⟨_, rfl⟩

@[simp] theorem State.served_pending (id : Nat) : (s.served id).pending = s.pending := by obtain ⟨_, h⟩ := s.served_turns id; rw [h]
@[simp] theorem State.served_out (id : Nat) : (s.served id).out = s.out := by obtain ⟨_, h⟩ := s.served_turns id; rw [h]
@[simp] theorem State.served_draws (id : Nat) : (s.served id).draws = s.draws := by obtain ⟨_, h⟩ := s.served_turns id; rw [h]
@[simp] theorem State.served_nextId (id : Nat) : (s.served id).nextId = s.nextId := by obtain ⟨_, h⟩ := s.served_turns id; rw [h]
@[simp] theorem State.served_posted (id : Nat) : (s.served id).posted = s.posted := by obtain ⟨_, h⟩ := s.served_turns id; rw [h]
@[simp] theorem State.served_regs (id : Nat) : (s.served id).regs = s.regs := by obtain ⟨_, h⟩ := s.served_turns id; rw [h]
@[simp] theorem State.served_mem (id : Nat) : (s.served id).mem = s.mem := by obtain ⟨_, h⟩ := s.served_turns id; rw [h]
@[simp] theorem State.served_stale (id : Nat) : (s.served id).stale = s.stale := by obtain ⟨_, h⟩ := s.served_turns id; rw [h]
@[simp] theorem State.served_ecc (id : Nat) : (s.served id).ecc = s.ecc := by obtain ⟨_, h⟩ := s.served_turns id; rw [h]
@[simp] theorem State.served_scratch (id : Nat) : (s.served id).scratch = s.scratch := by obtain ⟨_, h⟩ := s.served_turns id; rw [h]
@[simp] theorem State.served_scratchEcc (id : Nat) : (s.served id).scratchEcc = s.scratchEcc := by obtain ⟨_, h⟩ := s.served_turns id; rw [h]
@[simp] theorem State.served_arbs (id : Nat) : (s.served id).arbs = s.arbs := by obtain ⟨_, h⟩ := s.served_turns id; rw [h]
@[simp] theorem State.served_recode (id : Nat) : (s.served id).recode = s.recode := by obtain ⟨_, h⟩ := s.served_turns id; rw [h]
@[simp] theorem State.served_acts (id : Nat) : (s.served id).acts = s.acts := by obtain ⟨_, h⟩ := s.served_turns id; rw [h]
@[simp] theorem State.served_trr (id : Nat) : (s.served id).trr = s.trr := by obtain ⟨_, h⟩ := s.served_turns id; rw [h]
@[simp] theorem State.served_corrected (id : Nat) : (s.served id).corrected = s.corrected := by obtain ⟨_, h⟩ := s.served_turns id; rw [h]
@[simp] theorem State.served_spares (id : Nat) : (s.served id).spares = s.spares := by obtain ⟨_, h⟩ := s.served_turns id; rw [h]
@[simp] theorem State.served_remapDue (id : Nat) : (s.served id).remapDue = s.remapDue := by obtain ⟨_, h⟩ := s.served_turns id; rw [h]
@[simp] theorem State.served_ft (id : Nat) : (s.served id).ft = s.ft := by obtain ⟨_, h⟩ := s.served_turns id; rw [h]
@[simp] theorem State.served_gated (id : Nat) : (s.served id).gated = s.gated := by obtain ⟨_, h⟩ := s.served_turns id; rw [h]
@[simp] theorem State.served_life (id : Nat) : (s.served id).life = s.life := by obtain ⟨_, h⟩ := s.served_turns id; rw [h]
@[simp] theorem State.served_standbyWanted (id : Nat) : (s.served id).standbyWanted = s.standbyWanted := by obtain ⟨_, h⟩ := s.served_turns id; rw [h]
@[simp] theorem State.served_power (id : Nat) : (s.served id).power = s.power := by obtain ⟨_, h⟩ := s.served_turns id; rw [h]
@[simp] theorem State.served_powerWant (id : Nat) : (s.served id).powerWant = s.powerWant := by obtain ⟨_, h⟩ := s.served_turns id; rw [h]
@[simp] theorem State.served_powerNext (id : Nat) : (s.served id).powerNext = s.powerNext := by obtain ⟨_, h⟩ := s.served_turns id; rw [h]
@[simp] theorem State.served_saving (id : Nat) : (s.served id).saving = s.saving := by obtain ⟨_, h⟩ := s.served_turns id; rw [h]
@[simp] theorem State.served_pwrGood (id : Nat) : (s.served id).pwrGood = s.pwrGood := by obtain ⟨_, h⟩ := s.served_turns id; rw [h]
@[simp] theorem State.served_thermTripped (id : Nat) : (s.served id).thermTripped = s.thermTripped := by obtain ⟨_, h⟩ := s.served_turns id; rw [h]
@[simp] theorem State.served_straps (id : Nat) : (s.served id).straps = s.straps := by obtain ⟨_, h⟩ := s.served_turns id; rw [h]
@[simp] theorem State.served_cause (id : Nat) : (s.served id).cause = s.cause := by obtain ⟨_, h⟩ := s.served_turns id; rw [h]
@[simp] theorem State.served_charter (id : Nat) : (s.served id).charter = s.charter := by obtain ⟨_, h⟩ := s.served_turns id; rw [h]
@[simp] theorem State.served_identity (id : Nat) : (s.served id).identity = s.identity := by obtain ⟨_, h⟩ := s.served_turns id; rw [h]
@[simp] theorem State.served_entries (id : Nat) : (s.served id).entries = s.entries := by obtain ⟨_, h⟩ := s.served_turns id; rw [h]
@[simp] theorem State.served_partState (id : Nat) : (s.served id).partState = s.partState := by obtain ⟨_, h⟩ := s.served_turns id; rw [h]
@[simp] theorem State.served_lastLock (id : Nat) : (s.served id).lastLock = s.lastLock := by obtain ⟨_, h⟩ := s.served_turns id; rw [h]
@[simp] theorem State.served_releasing (id : Nat) : (s.served id).releasing = s.releasing := by obtain ⟨_, h⟩ := s.served_turns id; rw [h]
@[simp] theorem State.served_objs (id : Nat) : (s.served id).objs = s.objs := by obtain ⟨_, h⟩ := s.served_turns id; rw [h]
@[simp] theorem State.served_objStage (id : Nat) : (s.served id).objStage = s.objStage := by obtain ⟨_, h⟩ := s.served_turns id; rw [h]
@[simp] theorem State.served_far (id : Nat) : (s.served id).far = s.far := by obtain ⟨_, h⟩ := s.served_turns id; rw [h]
@[simp] theorem State.served_dir (id : Nat) : (s.served id).dir = s.dir := by obtain ⟨_, h⟩ := s.served_turns id; rw [h]
@[simp] theorem State.served_dirGen (id : Nat) : (s.served id).dirGen = s.dirGen := by obtain ⟨_, h⟩ := s.served_turns id; rw [h]
@[simp] theorem State.served_lookup (id : Nat) : (s.served id).lookup = s.lookup := by obtain ⟨_, h⟩ := s.served_turns id; rw [h]
@[simp] theorem State.served_slots (id : Nat) : (s.served id).slots = s.slots := by obtain ⟨_, h⟩ := s.served_turns id; rw [h]
@[simp] theorem State.served_moves (id : Nat) : (s.served id).moves = s.moves := by obtain ⟨_, h⟩ := s.served_turns id; rw [h]
@[simp] theorem State.served_heat (id : Nat) : (s.served id).heat = s.heat := by obtain ⟨_, h⟩ := s.served_turns id; rw [h]
@[simp] theorem State.served_bg (id : Nat) : (s.served id).bg = s.bg := by obtain ⟨_, h⟩ := s.served_turns id; rw [h]
@[simp] theorem State.served_cmds (id : Nat) : (s.served id).cmds = s.cmds := by obtain ⟨_, h⟩ := s.served_turns id; rw [h]
@[simp] theorem State.served_rings (id : Nat) : (s.served id).rings = s.rings := by obtain ⟨_, h⟩ := s.served_turns id; rw [h]
@[simp] theorem State.served_links (id : Nat) : (s.served id).links = s.links := by obtain ⟨_, h⟩ := s.served_turns id; rw [h]
@[simp] theorem State.served_inq (id : Nat) : (s.served id).inq = s.inq := by obtain ⟨_, h⟩ := s.served_turns id; rw [h]
@[simp] theorem State.served_wms (id : Nat) : (s.served id).wms = s.wms := by obtain ⟨_, h⟩ := s.served_turns id; rw [h]
@[simp] theorem State.served_wmLatch (id : Nat) : (s.served id).wmLatch = s.wmLatch := by obtain ⟨_, h⟩ := s.served_turns id; rw [h]
@[simp] theorem State.served_holds (id : Nat) : (s.served id).holds = s.holds := by obtain ⟨_, h⟩ := s.served_turns id; rw [h]
@[simp] theorem State.served_hauls (id : Nat) : (s.served id).hauls = s.hauls := by obtain ⟨_, h⟩ := s.served_turns id; rw [h]
@[simp] theorem State.served_rows (id : Nat) : (s.served id).rows = s.rows := by obtain ⟨_, h⟩ := s.served_turns id; rw [h]
@[simp] theorem State.served_reqs (id : Nat) : (s.served id).reqs = s.reqs := by obtain ⟨_, h⟩ := s.served_turns id; rw [h]
@[simp] theorem State.served_plan (id : Nat) : (s.served id).plan = s.plan := by obtain ⟨_, h⟩ := s.served_turns id; rw [h]
@[simp] theorem State.served_planBase (id : Nat) : (s.served id).planBase = s.planBase := by obtain ⟨_, h⟩ := s.served_turns id; rw [h]
@[simp] theorem State.served_sent (id : Nat) : (s.served id).sent = s.sent := by obtain ⟨_, h⟩ := s.served_turns id; rw [h]
@[simp] theorem State.served_emberNums (id : Nat) : (s.served id).emberNums = s.emberNums := by obtain ⟨_, h⟩ := s.served_turns id; rw [h]
@[simp] theorem State.served_recv (id : Nat) : (s.served id).recv = s.recv := by obtain ⟨_, h⟩ := s.served_turns id; rw [h]
@[simp] theorem State.served_merges (id : Nat) : (s.served id).merges = s.merges := by obtain ⟨_, h⟩ := s.served_turns id; rw [h]
@[simp] theorem State.served_mergesDone (id : Nat) : (s.served id).mergesDone = s.mergesDone := by obtain ⟨_, h⟩ := s.served_turns id; rw [h]
@[simp] theorem State.served_images (id : Nat) : (s.served id).images = s.images := by obtain ⟨_, h⟩ := s.served_turns id; rw [h]
@[simp] theorem State.served_kindles (id : Nat) : (s.served id).kindles = s.kindles := by obtain ⟨_, h⟩ := s.served_turns id; rw [h]
@[simp] theorem State.served_arrayHclk (id : Nat) : (s.served id).arrayHclk = s.arrayHclk := by obtain ⟨_, h⟩ := s.served_turns id; rw [h]
@[simp] theorem State.served_arrayUsed (id : Nat) : (s.served id).arrayUsed = s.arrayUsed := by obtain ⟨_, h⟩ := s.served_turns id; rw [h]
@[simp] theorem State.served_scrub (id : Nat) : (s.served id).scrub = s.scrub := by obtain ⟨_, h⟩ := s.served_turns id; rw [h]
@[simp] theorem State.served_conns (id : Nat) : (s.served id).conns = s.conns := by obtain ⟨_, h⟩ := s.served_turns id; rw [h]
@[simp] theorem State.served_ports (id : Nat) : (s.served id).ports = s.ports := by obtain ⟨_, h⟩ := s.served_turns id; rw [h]
@[simp] theorem State.served_up (id : Nat) : (s.served id).up = s.up := by obtain ⟨_, h⟩ := s.served_turns id; rw [h]
@[simp] theorem State.served_waykeys (id : Nat) : (s.served id).waykeys = s.waykeys := by obtain ⟨_, h⟩ := s.served_turns id; rw [h]
@[simp] theorem State.served_wkLive (id : Nat) : (s.served id).wkLive = s.wkLive := by obtain ⟨_, h⟩ := s.served_turns id; rw [h]
@[simp] theorem State.served_vioLog (id : Nat) : (s.served id).vioLog = s.vioLog := by obtain ⟨_, h⟩ := s.served_turns id; rw [h]
@[simp] theorem State.served_shapers (id : Nat) : (s.served id).shapers = s.shapers := by obtain ⟨_, h⟩ := s.served_turns id; rw [h]
@[simp] theorem State.served_shChanges (id : Nat) : (s.served id).shChanges = s.shChanges := by obtain ⟨_, h⟩ := s.served_turns id; rw [h]
@[simp] theorem State.served_acctPackets (id : Nat) : (s.served id).acctPackets = s.acctPackets := by obtain ⟨_, h⟩ := s.served_turns id; rw [h]
@[simp] theorem State.served_drrs (id : Nat) : (s.served id).drrs = s.drrs := by obtain ⟨_, h⟩ := s.served_turns id; rw [h]
@[simp] theorem State.served_replies (id : Nat) : (s.served id).replies = s.replies := by obtain ⟨_, h⟩ := s.served_turns id; rw [h]
@[simp] theorem State.served_attest (id : Nat) : (s.served id).attest = s.attest := by obtain ⟨_, h⟩ := s.served_turns id; rw [h]
@[simp] theorem State.served_meters (id : Nat) : (s.served id).meters = s.meters := by obtain ⟨_, h⟩ := s.served_turns id; rw [h]
@[simp] theorem State.served_staging (id : Nat) : (s.served id).staging = s.staging := by obtain ⟨_, h⟩ := s.served_turns id; rw [h]
@[simp] theorem State.served_probe (id : Nat) : (s.served id).probe = s.probe := by obtain ⟨_, h⟩ := s.served_turns id; rw [h]
@[simp] theorem State.served_fenceRec (id : Nat) : (s.served id).fenceRec = s.fenceRec := by obtain ⟨_, h⟩ := s.served_turns id; rw [h]
@[simp] theorem State.served_suspects (id : Nat) : (s.served id).suspects = s.suspects := by obtain ⟨_, h⟩ := s.served_turns id; rw [h]
@[simp] theorem State.served_sharedFaults (id : Nat) : (s.served id).sharedFaults = s.sharedFaults := by obtain ⟨_, h⟩ := s.served_turns id; rw [h]
@[simp] theorem State.served_flits (id : Nat) : (s.served id).flits = s.flits := by obtain ⟨_, h⟩ := s.served_turns id; rw [h]
@[simp] theorem State.served_wdogValue (id : Nat) : (s.served id).wdogValue = s.wdogValue := by obtain ⟨_, h⟩ := s.served_turns id; rw [h]
@[simp] theorem State.served_wdogAt (id : Nat) : (s.served id).wdogAt = s.wdogAt := by obtain ⟨_, h⟩ := s.served_turns id; rw [h]
@[simp] theorem State.served_rebuilds (id : Nat) : (s.served id).rebuilds = s.rebuilds := by obtain ⟨_, h⟩ := s.served_turns id; rw [h]
@[simp] theorem State.served_forwards (id : Nat) : (s.served id).forwards = s.forwards := by obtain ⟨_, h⟩ := s.served_turns id; rw [h]
@[simp] theorem State.served_lodge (id : Nat) : (s.served id).lodge = s.lodge := by obtain ⟨_, h⟩ := s.served_turns id; rw [h]
@[simp] theorem State.served_resets (id : Nat) : (s.served id).resets = s.resets := by obtain ⟨_, h⟩ := s.served_turns id; rw [h]
@[simp] theorem State.served_engResets (id : Nat) : (s.served id).engResets = s.engResets := by obtain ⟨_, h⟩ := s.served_turns id; rw [h]
@[simp] theorem State.served_flash (id : Nat) : (s.served id).flash = s.flash := by obtain ⟨_, h⟩ := s.served_turns id; rw [h]
@[simp] theorem State.served_repairDirty (id : Nat) : (s.served id).repairDirty = s.repairDirty := by obtain ⟨_, h⟩ := s.served_turns id; rw [h]
@[simp] theorem State.served_mpeers (id : Nat) : (s.served id).mpeers = s.mpeers := by obtain ⟨_, h⟩ := s.served_turns id; rw [h]
@[simp] theorem State.served_mgmt (id : Nat) : (s.served id).mgmt = s.mgmt := by obtain ⟨_, h⟩ := s.served_turns id; rw [h]
@[simp] theorem State.served_rcvWriting (id : Nat) : (s.served id).rcvWriting = s.rcvWriting := by obtain ⟨_, h⟩ := s.served_turns id; rw [h]
@[simp] theorem State.served_i3c (id : Nat) : (s.served id).i3c = s.i3c := by obtain ⟨_, h⟩ := s.served_turns id; rw [h]
@[simp] theorem State.served_therm (id : Nat) : (s.served id).therm = s.therm := by obtain ⟨_, h⟩ := s.served_turns id; rw [h]
@[simp] theorem State.served_volt (id : Nat) : (s.served id).volt = s.volt := by obtain ⟨_, h⟩ := s.served_turns id; rw [h]
@[simp] theorem State.served_jtag (id : Nat) : (s.served id).jtag = s.jtag := by obtain ⟨_, h⟩ := s.served_turns id; rw [h]

/-! `State.setCmd`. -/

@[simp] theorem State.setCmd_pending (id : Nat) (f : Cmd → Cmd) : (s.setCmd id f).pending = s.pending := rfl
@[simp] theorem State.setCmd_out (id : Nat) (f : Cmd → Cmd) : (s.setCmd id f).out = s.out := rfl
@[simp] theorem State.setCmd_draws (id : Nat) (f : Cmd → Cmd) : (s.setCmd id f).draws = s.draws := rfl
@[simp] theorem State.setCmd_nextId (id : Nat) (f : Cmd → Cmd) : (s.setCmd id f).nextId = s.nextId := rfl
@[simp] theorem State.setCmd_posted (id : Nat) (f : Cmd → Cmd) : (s.setCmd id f).posted = s.posted := rfl
@[simp] theorem State.setCmd_regs (id : Nat) (f : Cmd → Cmd) : (s.setCmd id f).regs = s.regs := rfl
@[simp] theorem State.setCmd_mem (id : Nat) (f : Cmd → Cmd) : (s.setCmd id f).mem = s.mem := rfl
@[simp] theorem State.setCmd_stale (id : Nat) (f : Cmd → Cmd) : (s.setCmd id f).stale = s.stale := rfl
@[simp] theorem State.setCmd_ecc (id : Nat) (f : Cmd → Cmd) : (s.setCmd id f).ecc = s.ecc := rfl
@[simp] theorem State.setCmd_scratch (id : Nat) (f : Cmd → Cmd) : (s.setCmd id f).scratch = s.scratch := rfl
@[simp] theorem State.setCmd_scratchEcc (id : Nat) (f : Cmd → Cmd) : (s.setCmd id f).scratchEcc = s.scratchEcc := rfl
@[simp] theorem State.setCmd_arbs (id : Nat) (f : Cmd → Cmd) : (s.setCmd id f).arbs = s.arbs := rfl
@[simp] theorem State.setCmd_recode (id : Nat) (f : Cmd → Cmd) : (s.setCmd id f).recode = s.recode := rfl
@[simp] theorem State.setCmd_acts (id : Nat) (f : Cmd → Cmd) : (s.setCmd id f).acts = s.acts := rfl
@[simp] theorem State.setCmd_trr (id : Nat) (f : Cmd → Cmd) : (s.setCmd id f).trr = s.trr := rfl
@[simp] theorem State.setCmd_corrected (id : Nat) (f : Cmd → Cmd) : (s.setCmd id f).corrected = s.corrected := rfl
@[simp] theorem State.setCmd_spares (id : Nat) (f : Cmd → Cmd) : (s.setCmd id f).spares = s.spares := rfl
@[simp] theorem State.setCmd_remapDue (id : Nat) (f : Cmd → Cmd) : (s.setCmd id f).remapDue = s.remapDue := rfl
@[simp] theorem State.setCmd_ft (id : Nat) (f : Cmd → Cmd) : (s.setCmd id f).ft = s.ft := rfl
@[simp] theorem State.setCmd_gated (id : Nat) (f : Cmd → Cmd) : (s.setCmd id f).gated = s.gated := rfl
@[simp] theorem State.setCmd_life (id : Nat) (f : Cmd → Cmd) : (s.setCmd id f).life = s.life := rfl
@[simp] theorem State.setCmd_standbyWanted (id : Nat) (f : Cmd → Cmd) : (s.setCmd id f).standbyWanted = s.standbyWanted := rfl
@[simp] theorem State.setCmd_power (id : Nat) (f : Cmd → Cmd) : (s.setCmd id f).power = s.power := rfl
@[simp] theorem State.setCmd_powerWant (id : Nat) (f : Cmd → Cmd) : (s.setCmd id f).powerWant = s.powerWant := rfl
@[simp] theorem State.setCmd_powerNext (id : Nat) (f : Cmd → Cmd) : (s.setCmd id f).powerNext = s.powerNext := rfl
@[simp] theorem State.setCmd_saving (id : Nat) (f : Cmd → Cmd) : (s.setCmd id f).saving = s.saving := rfl
@[simp] theorem State.setCmd_pwrGood (id : Nat) (f : Cmd → Cmd) : (s.setCmd id f).pwrGood = s.pwrGood := rfl
@[simp] theorem State.setCmd_thermTripped (id : Nat) (f : Cmd → Cmd) : (s.setCmd id f).thermTripped = s.thermTripped := rfl
@[simp] theorem State.setCmd_straps (id : Nat) (f : Cmd → Cmd) : (s.setCmd id f).straps = s.straps := rfl
@[simp] theorem State.setCmd_cause (id : Nat) (f : Cmd → Cmd) : (s.setCmd id f).cause = s.cause := rfl
@[simp] theorem State.setCmd_charter (id : Nat) (f : Cmd → Cmd) : (s.setCmd id f).charter = s.charter := rfl
@[simp] theorem State.setCmd_identity (id : Nat) (f : Cmd → Cmd) : (s.setCmd id f).identity = s.identity := rfl
@[simp] theorem State.setCmd_entries (id : Nat) (f : Cmd → Cmd) : (s.setCmd id f).entries = s.entries := rfl
@[simp] theorem State.setCmd_partState (id : Nat) (f : Cmd → Cmd) : (s.setCmd id f).partState = s.partState := rfl
@[simp] theorem State.setCmd_lastLock (id : Nat) (f : Cmd → Cmd) : (s.setCmd id f).lastLock = s.lastLock := rfl
@[simp] theorem State.setCmd_releasing (id : Nat) (f : Cmd → Cmd) : (s.setCmd id f).releasing = s.releasing := rfl
@[simp] theorem State.setCmd_objs (id : Nat) (f : Cmd → Cmd) : (s.setCmd id f).objs = s.objs := rfl
@[simp] theorem State.setCmd_objStage (id : Nat) (f : Cmd → Cmd) : (s.setCmd id f).objStage = s.objStage := rfl
@[simp] theorem State.setCmd_far (id : Nat) (f : Cmd → Cmd) : (s.setCmd id f).far = s.far := rfl
@[simp] theorem State.setCmd_dir (id : Nat) (f : Cmd → Cmd) : (s.setCmd id f).dir = s.dir := rfl
@[simp] theorem State.setCmd_dirGen (id : Nat) (f : Cmd → Cmd) : (s.setCmd id f).dirGen = s.dirGen := rfl
@[simp] theorem State.setCmd_lookup (id : Nat) (f : Cmd → Cmd) : (s.setCmd id f).lookup = s.lookup := rfl
@[simp] theorem State.setCmd_slots (id : Nat) (f : Cmd → Cmd) : (s.setCmd id f).slots = s.slots := rfl
@[simp] theorem State.setCmd_moves (id : Nat) (f : Cmd → Cmd) : (s.setCmd id f).moves = s.moves := rfl
@[simp] theorem State.setCmd_heat (id : Nat) (f : Cmd → Cmd) : (s.setCmd id f).heat = s.heat := rfl
@[simp] theorem State.setCmd_bg (id : Nat) (f : Cmd → Cmd) : (s.setCmd id f).bg = s.bg := rfl
@[simp] theorem State.setCmd_rings (id : Nat) (f : Cmd → Cmd) : (s.setCmd id f).rings = s.rings := rfl
@[simp] theorem State.setCmd_links (id : Nat) (f : Cmd → Cmd) : (s.setCmd id f).links = s.links := rfl
@[simp] theorem State.setCmd_inq (id : Nat) (f : Cmd → Cmd) : (s.setCmd id f).inq = s.inq := rfl
@[simp] theorem State.setCmd_turns (id : Nat) (f : Cmd → Cmd) : (s.setCmd id f).turns = s.turns := rfl
@[simp] theorem State.setCmd_wms (id : Nat) (f : Cmd → Cmd) : (s.setCmd id f).wms = s.wms := rfl
@[simp] theorem State.setCmd_wmLatch (id : Nat) (f : Cmd → Cmd) : (s.setCmd id f).wmLatch = s.wmLatch := rfl
@[simp] theorem State.setCmd_holds (id : Nat) (f : Cmd → Cmd) : (s.setCmd id f).holds = s.holds := rfl
@[simp] theorem State.setCmd_hauls (id : Nat) (f : Cmd → Cmd) : (s.setCmd id f).hauls = s.hauls := rfl
@[simp] theorem State.setCmd_rows (id : Nat) (f : Cmd → Cmd) : (s.setCmd id f).rows = s.rows := rfl
@[simp] theorem State.setCmd_reqs (id : Nat) (f : Cmd → Cmd) : (s.setCmd id f).reqs = s.reqs := rfl
@[simp] theorem State.setCmd_plan (id : Nat) (f : Cmd → Cmd) : (s.setCmd id f).plan = s.plan := rfl
@[simp] theorem State.setCmd_planBase (id : Nat) (f : Cmd → Cmd) : (s.setCmd id f).planBase = s.planBase := rfl
@[simp] theorem State.setCmd_sent (id : Nat) (f : Cmd → Cmd) : (s.setCmd id f).sent = s.sent := rfl
@[simp] theorem State.setCmd_emberNums (id : Nat) (f : Cmd → Cmd) : (s.setCmd id f).emberNums = s.emberNums := rfl
@[simp] theorem State.setCmd_recv (id : Nat) (f : Cmd → Cmd) : (s.setCmd id f).recv = s.recv := rfl
@[simp] theorem State.setCmd_merges (id : Nat) (f : Cmd → Cmd) : (s.setCmd id f).merges = s.merges := rfl
@[simp] theorem State.setCmd_mergesDone (id : Nat) (f : Cmd → Cmd) : (s.setCmd id f).mergesDone = s.mergesDone := rfl
@[simp] theorem State.setCmd_images (id : Nat) (f : Cmd → Cmd) : (s.setCmd id f).images = s.images := rfl
@[simp] theorem State.setCmd_kindles (id : Nat) (f : Cmd → Cmd) : (s.setCmd id f).kindles = s.kindles := rfl
@[simp] theorem State.setCmd_arrayHclk (id : Nat) (f : Cmd → Cmd) : (s.setCmd id f).arrayHclk = s.arrayHclk := rfl
@[simp] theorem State.setCmd_arrayUsed (id : Nat) (f : Cmd → Cmd) : (s.setCmd id f).arrayUsed = s.arrayUsed := rfl
@[simp] theorem State.setCmd_scrub (id : Nat) (f : Cmd → Cmd) : (s.setCmd id f).scrub = s.scrub := rfl
@[simp] theorem State.setCmd_conns (id : Nat) (f : Cmd → Cmd) : (s.setCmd id f).conns = s.conns := rfl
@[simp] theorem State.setCmd_ports (id : Nat) (f : Cmd → Cmd) : (s.setCmd id f).ports = s.ports := rfl
@[simp] theorem State.setCmd_up (id : Nat) (f : Cmd → Cmd) : (s.setCmd id f).up = s.up := rfl
@[simp] theorem State.setCmd_waykeys (id : Nat) (f : Cmd → Cmd) : (s.setCmd id f).waykeys = s.waykeys := rfl
@[simp] theorem State.setCmd_wkLive (id : Nat) (f : Cmd → Cmd) : (s.setCmd id f).wkLive = s.wkLive := rfl
@[simp] theorem State.setCmd_vioLog (id : Nat) (f : Cmd → Cmd) : (s.setCmd id f).vioLog = s.vioLog := rfl
@[simp] theorem State.setCmd_shapers (id : Nat) (f : Cmd → Cmd) : (s.setCmd id f).shapers = s.shapers := rfl
@[simp] theorem State.setCmd_shChanges (id : Nat) (f : Cmd → Cmd) : (s.setCmd id f).shChanges = s.shChanges := rfl
@[simp] theorem State.setCmd_acctPackets (id : Nat) (f : Cmd → Cmd) : (s.setCmd id f).acctPackets = s.acctPackets := rfl
@[simp] theorem State.setCmd_drrs (id : Nat) (f : Cmd → Cmd) : (s.setCmd id f).drrs = s.drrs := rfl
@[simp] theorem State.setCmd_replies (id : Nat) (f : Cmd → Cmd) : (s.setCmd id f).replies = s.replies := rfl
@[simp] theorem State.setCmd_attest (id : Nat) (f : Cmd → Cmd) : (s.setCmd id f).attest = s.attest := rfl
@[simp] theorem State.setCmd_meters (id : Nat) (f : Cmd → Cmd) : (s.setCmd id f).meters = s.meters := rfl
@[simp] theorem State.setCmd_staging (id : Nat) (f : Cmd → Cmd) : (s.setCmd id f).staging = s.staging := rfl
@[simp] theorem State.setCmd_probe (id : Nat) (f : Cmd → Cmd) : (s.setCmd id f).probe = s.probe := rfl
@[simp] theorem State.setCmd_fenceRec (id : Nat) (f : Cmd → Cmd) : (s.setCmd id f).fenceRec = s.fenceRec := rfl
@[simp] theorem State.setCmd_suspects (id : Nat) (f : Cmd → Cmd) : (s.setCmd id f).suspects = s.suspects := rfl
@[simp] theorem State.setCmd_sharedFaults (id : Nat) (f : Cmd → Cmd) : (s.setCmd id f).sharedFaults = s.sharedFaults := rfl
@[simp] theorem State.setCmd_flits (id : Nat) (f : Cmd → Cmd) : (s.setCmd id f).flits = s.flits := rfl
@[simp] theorem State.setCmd_wdogValue (id : Nat) (f : Cmd → Cmd) : (s.setCmd id f).wdogValue = s.wdogValue := rfl
@[simp] theorem State.setCmd_wdogAt (id : Nat) (f : Cmd → Cmd) : (s.setCmd id f).wdogAt = s.wdogAt := rfl
@[simp] theorem State.setCmd_rebuilds (id : Nat) (f : Cmd → Cmd) : (s.setCmd id f).rebuilds = s.rebuilds := rfl
@[simp] theorem State.setCmd_forwards (id : Nat) (f : Cmd → Cmd) : (s.setCmd id f).forwards = s.forwards := rfl
@[simp] theorem State.setCmd_lodge (id : Nat) (f : Cmd → Cmd) : (s.setCmd id f).lodge = s.lodge := rfl
@[simp] theorem State.setCmd_resets (id : Nat) (f : Cmd → Cmd) : (s.setCmd id f).resets = s.resets := rfl
@[simp] theorem State.setCmd_engResets (id : Nat) (f : Cmd → Cmd) : (s.setCmd id f).engResets = s.engResets := rfl
@[simp] theorem State.setCmd_flash (id : Nat) (f : Cmd → Cmd) : (s.setCmd id f).flash = s.flash := rfl
@[simp] theorem State.setCmd_repairDirty (id : Nat) (f : Cmd → Cmd) : (s.setCmd id f).repairDirty = s.repairDirty := rfl
@[simp] theorem State.setCmd_mpeers (id : Nat) (f : Cmd → Cmd) : (s.setCmd id f).mpeers = s.mpeers := rfl
@[simp] theorem State.setCmd_mgmt (id : Nat) (f : Cmd → Cmd) : (s.setCmd id f).mgmt = s.mgmt := rfl
@[simp] theorem State.setCmd_rcvWriting (id : Nat) (f : Cmd → Cmd) : (s.setCmd id f).rcvWriting = s.rcvWriting := rfl
@[simp] theorem State.setCmd_i3c (id : Nat) (f : Cmd → Cmd) : (s.setCmd id f).i3c = s.i3c := rfl
@[simp] theorem State.setCmd_therm (id : Nat) (f : Cmd → Cmd) : (s.setCmd id f).therm = s.therm := rfl
@[simp] theorem State.setCmd_volt (id : Nat) (f : Cmd → Cmd) : (s.setCmd id f).volt = s.volt := rfl
@[simp] theorem State.setCmd_jtag (id : Nat) (f : Cmd → Cmd) : (s.setCmd id f).jtag = s.jtag := rfl

/-! `State.endCmd`. -/

@[simp] theorem State.endCmd_pending (id status : Nat) (result : Word) : (s.endCmd id status result).pending = s.pending := State.served_pending s id
@[simp] theorem State.endCmd_out (id status : Nat) (result : Word) : (s.endCmd id status result).out = s.out := State.served_out s id
@[simp] theorem State.endCmd_draws (id status : Nat) (result : Word) : (s.endCmd id status result).draws = s.draws := State.served_draws s id
@[simp] theorem State.endCmd_nextId (id status : Nat) (result : Word) : (s.endCmd id status result).nextId = s.nextId := State.served_nextId s id
@[simp] theorem State.endCmd_posted (id status : Nat) (result : Word) : (s.endCmd id status result).posted = s.posted := State.served_posted s id
@[simp] theorem State.endCmd_regs (id status : Nat) (result : Word) : (s.endCmd id status result).regs = s.regs := State.served_regs s id
@[simp] theorem State.endCmd_mem (id status : Nat) (result : Word) : (s.endCmd id status result).mem = s.mem := State.served_mem s id
@[simp] theorem State.endCmd_stale (id status : Nat) (result : Word) : (s.endCmd id status result).stale = s.stale := State.served_stale s id
@[simp] theorem State.endCmd_ecc (id status : Nat) (result : Word) : (s.endCmd id status result).ecc = s.ecc := State.served_ecc s id
@[simp] theorem State.endCmd_scratch (id status : Nat) (result : Word) : (s.endCmd id status result).scratch = s.scratch := State.served_scratch s id
@[simp] theorem State.endCmd_scratchEcc (id status : Nat) (result : Word) : (s.endCmd id status result).scratchEcc = s.scratchEcc := State.served_scratchEcc s id
@[simp] theorem State.endCmd_arbs (id status : Nat) (result : Word) : (s.endCmd id status result).arbs = s.arbs := State.served_arbs s id
@[simp] theorem State.endCmd_recode (id status : Nat) (result : Word) : (s.endCmd id status result).recode = s.recode := State.served_recode s id
@[simp] theorem State.endCmd_acts (id status : Nat) (result : Word) : (s.endCmd id status result).acts = s.acts := State.served_acts s id
@[simp] theorem State.endCmd_trr (id status : Nat) (result : Word) : (s.endCmd id status result).trr = s.trr := State.served_trr s id
@[simp] theorem State.endCmd_corrected (id status : Nat) (result : Word) : (s.endCmd id status result).corrected = s.corrected := State.served_corrected s id
@[simp] theorem State.endCmd_spares (id status : Nat) (result : Word) : (s.endCmd id status result).spares = s.spares := State.served_spares s id
@[simp] theorem State.endCmd_remapDue (id status : Nat) (result : Word) : (s.endCmd id status result).remapDue = s.remapDue := State.served_remapDue s id
@[simp] theorem State.endCmd_ft (id status : Nat) (result : Word) : (s.endCmd id status result).ft = s.ft := State.served_ft s id
@[simp] theorem State.endCmd_gated (id status : Nat) (result : Word) : (s.endCmd id status result).gated = s.gated := State.served_gated s id
@[simp] theorem State.endCmd_life (id status : Nat) (result : Word) : (s.endCmd id status result).life = s.life := State.served_life s id
@[simp] theorem State.endCmd_standbyWanted (id status : Nat) (result : Word) : (s.endCmd id status result).standbyWanted = s.standbyWanted := State.served_standbyWanted s id
@[simp] theorem State.endCmd_power (id status : Nat) (result : Word) : (s.endCmd id status result).power = s.power := State.served_power s id
@[simp] theorem State.endCmd_powerWant (id status : Nat) (result : Word) : (s.endCmd id status result).powerWant = s.powerWant := State.served_powerWant s id
@[simp] theorem State.endCmd_powerNext (id status : Nat) (result : Word) : (s.endCmd id status result).powerNext = s.powerNext := State.served_powerNext s id
@[simp] theorem State.endCmd_saving (id status : Nat) (result : Word) : (s.endCmd id status result).saving = s.saving := State.served_saving s id
@[simp] theorem State.endCmd_pwrGood (id status : Nat) (result : Word) : (s.endCmd id status result).pwrGood = s.pwrGood := State.served_pwrGood s id
@[simp] theorem State.endCmd_thermTripped (id status : Nat) (result : Word) : (s.endCmd id status result).thermTripped = s.thermTripped := State.served_thermTripped s id
@[simp] theorem State.endCmd_straps (id status : Nat) (result : Word) : (s.endCmd id status result).straps = s.straps := State.served_straps s id
@[simp] theorem State.endCmd_cause (id status : Nat) (result : Word) : (s.endCmd id status result).cause = s.cause := State.served_cause s id
@[simp] theorem State.endCmd_charter (id status : Nat) (result : Word) : (s.endCmd id status result).charter = s.charter := State.served_charter s id
@[simp] theorem State.endCmd_identity (id status : Nat) (result : Word) : (s.endCmd id status result).identity = s.identity := State.served_identity s id
@[simp] theorem State.endCmd_entries (id status : Nat) (result : Word) : (s.endCmd id status result).entries = s.entries := State.served_entries s id
@[simp] theorem State.endCmd_partState (id status : Nat) (result : Word) : (s.endCmd id status result).partState = s.partState := State.served_partState s id
@[simp] theorem State.endCmd_lastLock (id status : Nat) (result : Word) : (s.endCmd id status result).lastLock = s.lastLock := State.served_lastLock s id
@[simp] theorem State.endCmd_releasing (id status : Nat) (result : Word) : (s.endCmd id status result).releasing = s.releasing := State.served_releasing s id
@[simp] theorem State.endCmd_objs (id status : Nat) (result : Word) : (s.endCmd id status result).objs = s.objs := State.served_objs s id
@[simp] theorem State.endCmd_objStage (id status : Nat) (result : Word) : (s.endCmd id status result).objStage = s.objStage := State.served_objStage s id
@[simp] theorem State.endCmd_far (id status : Nat) (result : Word) : (s.endCmd id status result).far = s.far := State.served_far s id
@[simp] theorem State.endCmd_dir (id status : Nat) (result : Word) : (s.endCmd id status result).dir = s.dir := State.served_dir s id
@[simp] theorem State.endCmd_dirGen (id status : Nat) (result : Word) : (s.endCmd id status result).dirGen = s.dirGen := State.served_dirGen s id
@[simp] theorem State.endCmd_lookup (id status : Nat) (result : Word) : (s.endCmd id status result).lookup = s.lookup := State.served_lookup s id
@[simp] theorem State.endCmd_slots (id status : Nat) (result : Word) : (s.endCmd id status result).slots = s.slots := State.served_slots s id
@[simp] theorem State.endCmd_moves (id status : Nat) (result : Word) : (s.endCmd id status result).moves = s.moves := State.served_moves s id
@[simp] theorem State.endCmd_heat (id status : Nat) (result : Word) : (s.endCmd id status result).heat = s.heat := State.served_heat s id
@[simp] theorem State.endCmd_bg (id status : Nat) (result : Word) : (s.endCmd id status result).bg = s.bg := State.served_bg s id
@[simp] theorem State.endCmd_rings (id status : Nat) (result : Word) : (s.endCmd id status result).rings = s.rings := State.served_rings s id
@[simp] theorem State.endCmd_links (id status : Nat) (result : Word) : (s.endCmd id status result).links = s.links := State.served_links s id
@[simp] theorem State.endCmd_inq (id status : Nat) (result : Word) : (s.endCmd id status result).inq = s.inq := State.served_inq s id
@[simp] theorem State.endCmd_wms (id status : Nat) (result : Word) : (s.endCmd id status result).wms = s.wms := State.served_wms s id
@[simp] theorem State.endCmd_wmLatch (id status : Nat) (result : Word) : (s.endCmd id status result).wmLatch = s.wmLatch := State.served_wmLatch s id
@[simp] theorem State.endCmd_holds (id status : Nat) (result : Word) : (s.endCmd id status result).holds = s.holds := State.served_holds s id
@[simp] theorem State.endCmd_hauls (id status : Nat) (result : Word) : (s.endCmd id status result).hauls = s.hauls := State.served_hauls s id
@[simp] theorem State.endCmd_rows (id status : Nat) (result : Word) : (s.endCmd id status result).rows = s.rows := State.served_rows s id
@[simp] theorem State.endCmd_reqs (id status : Nat) (result : Word) : (s.endCmd id status result).reqs = s.reqs := State.served_reqs s id
@[simp] theorem State.endCmd_plan (id status : Nat) (result : Word) : (s.endCmd id status result).plan = s.plan := State.served_plan s id
@[simp] theorem State.endCmd_planBase (id status : Nat) (result : Word) : (s.endCmd id status result).planBase = s.planBase := State.served_planBase s id
@[simp] theorem State.endCmd_sent (id status : Nat) (result : Word) : (s.endCmd id status result).sent = s.sent := State.served_sent s id
@[simp] theorem State.endCmd_emberNums (id status : Nat) (result : Word) : (s.endCmd id status result).emberNums = s.emberNums := State.served_emberNums s id
@[simp] theorem State.endCmd_recv (id status : Nat) (result : Word) : (s.endCmd id status result).recv = s.recv := State.served_recv s id
@[simp] theorem State.endCmd_merges (id status : Nat) (result : Word) : (s.endCmd id status result).merges = s.merges := State.served_merges s id
@[simp] theorem State.endCmd_mergesDone (id status : Nat) (result : Word) : (s.endCmd id status result).mergesDone = s.mergesDone := State.served_mergesDone s id
@[simp] theorem State.endCmd_images (id status : Nat) (result : Word) : (s.endCmd id status result).images = s.images := State.served_images s id
@[simp] theorem State.endCmd_kindles (id status : Nat) (result : Word) : (s.endCmd id status result).kindles = s.kindles := State.served_kindles s id
@[simp] theorem State.endCmd_arrayHclk (id status : Nat) (result : Word) : (s.endCmd id status result).arrayHclk = s.arrayHclk := State.served_arrayHclk s id
@[simp] theorem State.endCmd_arrayUsed (id status : Nat) (result : Word) : (s.endCmd id status result).arrayUsed = s.arrayUsed := State.served_arrayUsed s id
@[simp] theorem State.endCmd_scrub (id status : Nat) (result : Word) : (s.endCmd id status result).scrub = s.scrub := State.served_scrub s id
@[simp] theorem State.endCmd_conns (id status : Nat) (result : Word) : (s.endCmd id status result).conns = s.conns := State.served_conns s id
@[simp] theorem State.endCmd_ports (id status : Nat) (result : Word) : (s.endCmd id status result).ports = s.ports := State.served_ports s id
@[simp] theorem State.endCmd_up (id status : Nat) (result : Word) : (s.endCmd id status result).up = s.up := State.served_up s id
@[simp] theorem State.endCmd_waykeys (id status : Nat) (result : Word) : (s.endCmd id status result).waykeys = s.waykeys := State.served_waykeys s id
@[simp] theorem State.endCmd_wkLive (id status : Nat) (result : Word) : (s.endCmd id status result).wkLive = s.wkLive := State.served_wkLive s id
@[simp] theorem State.endCmd_vioLog (id status : Nat) (result : Word) : (s.endCmd id status result).vioLog = s.vioLog := State.served_vioLog s id
@[simp] theorem State.endCmd_shapers (id status : Nat) (result : Word) : (s.endCmd id status result).shapers = s.shapers := State.served_shapers s id
@[simp] theorem State.endCmd_shChanges (id status : Nat) (result : Word) : (s.endCmd id status result).shChanges = s.shChanges := State.served_shChanges s id
@[simp] theorem State.endCmd_acctPackets (id status : Nat) (result : Word) : (s.endCmd id status result).acctPackets = s.acctPackets := State.served_acctPackets s id
@[simp] theorem State.endCmd_drrs (id status : Nat) (result : Word) : (s.endCmd id status result).drrs = s.drrs := State.served_drrs s id
@[simp] theorem State.endCmd_replies (id status : Nat) (result : Word) : (s.endCmd id status result).replies = s.replies := State.served_replies s id
@[simp] theorem State.endCmd_attest (id status : Nat) (result : Word) : (s.endCmd id status result).attest = s.attest := State.served_attest s id
@[simp] theorem State.endCmd_meters (id status : Nat) (result : Word) : (s.endCmd id status result).meters = s.meters := State.served_meters s id
@[simp] theorem State.endCmd_staging (id status : Nat) (result : Word) : (s.endCmd id status result).staging = s.staging := State.served_staging s id
@[simp] theorem State.endCmd_probe (id status : Nat) (result : Word) : (s.endCmd id status result).probe = s.probe := State.served_probe s id
@[simp] theorem State.endCmd_fenceRec (id status : Nat) (result : Word) : (s.endCmd id status result).fenceRec = s.fenceRec := State.served_fenceRec s id
@[simp] theorem State.endCmd_suspects (id status : Nat) (result : Word) : (s.endCmd id status result).suspects = s.suspects := State.served_suspects s id
@[simp] theorem State.endCmd_sharedFaults (id status : Nat) (result : Word) : (s.endCmd id status result).sharedFaults = s.sharedFaults := State.served_sharedFaults s id
@[simp] theorem State.endCmd_flits (id status : Nat) (result : Word) : (s.endCmd id status result).flits = s.flits := State.served_flits s id
@[simp] theorem State.endCmd_wdogValue (id status : Nat) (result : Word) : (s.endCmd id status result).wdogValue = s.wdogValue := State.served_wdogValue s id
@[simp] theorem State.endCmd_wdogAt (id status : Nat) (result : Word) : (s.endCmd id status result).wdogAt = s.wdogAt := State.served_wdogAt s id
@[simp] theorem State.endCmd_rebuilds (id status : Nat) (result : Word) : (s.endCmd id status result).rebuilds = s.rebuilds := State.served_rebuilds s id
@[simp] theorem State.endCmd_forwards (id status : Nat) (result : Word) : (s.endCmd id status result).forwards = s.forwards := State.served_forwards s id
@[simp] theorem State.endCmd_lodge (id status : Nat) (result : Word) : (s.endCmd id status result).lodge = s.lodge := State.served_lodge s id
@[simp] theorem State.endCmd_resets (id status : Nat) (result : Word) : (s.endCmd id status result).resets = s.resets := State.served_resets s id
@[simp] theorem State.endCmd_engResets (id status : Nat) (result : Word) : (s.endCmd id status result).engResets = s.engResets := State.served_engResets s id
@[simp] theorem State.endCmd_flash (id status : Nat) (result : Word) : (s.endCmd id status result).flash = s.flash := State.served_flash s id
@[simp] theorem State.endCmd_repairDirty (id status : Nat) (result : Word) : (s.endCmd id status result).repairDirty = s.repairDirty := State.served_repairDirty s id
@[simp] theorem State.endCmd_mpeers (id status : Nat) (result : Word) : (s.endCmd id status result).mpeers = s.mpeers := State.served_mpeers s id
@[simp] theorem State.endCmd_mgmt (id status : Nat) (result : Word) : (s.endCmd id status result).mgmt = s.mgmt := State.served_mgmt s id
@[simp] theorem State.endCmd_rcvWriting (id status : Nat) (result : Word) : (s.endCmd id status result).rcvWriting = s.rcvWriting := State.served_rcvWriting s id
@[simp] theorem State.endCmd_i3c (id status : Nat) (result : Word) : (s.endCmd id status result).i3c = s.i3c := State.served_i3c s id
@[simp] theorem State.endCmd_therm (id status : Nat) (result : Word) : (s.endCmd id status result).therm = s.therm := State.served_therm s id
@[simp] theorem State.endCmd_volt (id status : Nat) (result : Word) : (s.endCmd id status result).volt = s.volt := State.served_volt s id
@[simp] theorem State.endCmd_jtag (id status : Nat) (result : Word) : (s.endCmd id status result).jtag = s.jtag := State.served_jtag s id

/-! `State.runCmd`. -/

@[simp] theorem State.runCmd_pending (id : Nat) : (s.runCmd id).pending = s.pending := State.served_pending s id
@[simp] theorem State.runCmd_out (id : Nat) : (s.runCmd id).out = s.out := State.served_out s id
@[simp] theorem State.runCmd_draws (id : Nat) : (s.runCmd id).draws = s.draws := State.served_draws s id
@[simp] theorem State.runCmd_nextId (id : Nat) : (s.runCmd id).nextId = s.nextId := State.served_nextId s id
@[simp] theorem State.runCmd_posted (id : Nat) : (s.runCmd id).posted = s.posted := State.served_posted s id
@[simp] theorem State.runCmd_regs (id : Nat) : (s.runCmd id).regs = s.regs := State.served_regs s id
@[simp] theorem State.runCmd_mem (id : Nat) : (s.runCmd id).mem = s.mem := State.served_mem s id
@[simp] theorem State.runCmd_stale (id : Nat) : (s.runCmd id).stale = s.stale := State.served_stale s id
@[simp] theorem State.runCmd_ecc (id : Nat) : (s.runCmd id).ecc = s.ecc := State.served_ecc s id
@[simp] theorem State.runCmd_scratch (id : Nat) : (s.runCmd id).scratch = s.scratch := State.served_scratch s id
@[simp] theorem State.runCmd_scratchEcc (id : Nat) : (s.runCmd id).scratchEcc = s.scratchEcc := State.served_scratchEcc s id
@[simp] theorem State.runCmd_arbs (id : Nat) : (s.runCmd id).arbs = s.arbs := State.served_arbs s id
@[simp] theorem State.runCmd_recode (id : Nat) : (s.runCmd id).recode = s.recode := State.served_recode s id
@[simp] theorem State.runCmd_acts (id : Nat) : (s.runCmd id).acts = s.acts := State.served_acts s id
@[simp] theorem State.runCmd_trr (id : Nat) : (s.runCmd id).trr = s.trr := State.served_trr s id
@[simp] theorem State.runCmd_corrected (id : Nat) : (s.runCmd id).corrected = s.corrected := State.served_corrected s id
@[simp] theorem State.runCmd_spares (id : Nat) : (s.runCmd id).spares = s.spares := State.served_spares s id
@[simp] theorem State.runCmd_remapDue (id : Nat) : (s.runCmd id).remapDue = s.remapDue := State.served_remapDue s id
@[simp] theorem State.runCmd_ft (id : Nat) : (s.runCmd id).ft = s.ft := State.served_ft s id
@[simp] theorem State.runCmd_gated (id : Nat) : (s.runCmd id).gated = s.gated := State.served_gated s id
@[simp] theorem State.runCmd_life (id : Nat) : (s.runCmd id).life = s.life := State.served_life s id
@[simp] theorem State.runCmd_standbyWanted (id : Nat) : (s.runCmd id).standbyWanted = s.standbyWanted := State.served_standbyWanted s id
@[simp] theorem State.runCmd_power (id : Nat) : (s.runCmd id).power = s.power := State.served_power s id
@[simp] theorem State.runCmd_powerWant (id : Nat) : (s.runCmd id).powerWant = s.powerWant := State.served_powerWant s id
@[simp] theorem State.runCmd_powerNext (id : Nat) : (s.runCmd id).powerNext = s.powerNext := State.served_powerNext s id
@[simp] theorem State.runCmd_saving (id : Nat) : (s.runCmd id).saving = s.saving := State.served_saving s id
@[simp] theorem State.runCmd_pwrGood (id : Nat) : (s.runCmd id).pwrGood = s.pwrGood := State.served_pwrGood s id
@[simp] theorem State.runCmd_thermTripped (id : Nat) : (s.runCmd id).thermTripped = s.thermTripped := State.served_thermTripped s id
@[simp] theorem State.runCmd_straps (id : Nat) : (s.runCmd id).straps = s.straps := State.served_straps s id
@[simp] theorem State.runCmd_cause (id : Nat) : (s.runCmd id).cause = s.cause := State.served_cause s id
@[simp] theorem State.runCmd_charter (id : Nat) : (s.runCmd id).charter = s.charter := State.served_charter s id
@[simp] theorem State.runCmd_identity (id : Nat) : (s.runCmd id).identity = s.identity := State.served_identity s id
@[simp] theorem State.runCmd_entries (id : Nat) : (s.runCmd id).entries = s.entries := State.served_entries s id
@[simp] theorem State.runCmd_partState (id : Nat) : (s.runCmd id).partState = s.partState := State.served_partState s id
@[simp] theorem State.runCmd_lastLock (id : Nat) : (s.runCmd id).lastLock = s.lastLock := State.served_lastLock s id
@[simp] theorem State.runCmd_releasing (id : Nat) : (s.runCmd id).releasing = s.releasing := State.served_releasing s id
@[simp] theorem State.runCmd_objs (id : Nat) : (s.runCmd id).objs = s.objs := State.served_objs s id
@[simp] theorem State.runCmd_objStage (id : Nat) : (s.runCmd id).objStage = s.objStage := State.served_objStage s id
@[simp] theorem State.runCmd_far (id : Nat) : (s.runCmd id).far = s.far := State.served_far s id
@[simp] theorem State.runCmd_dir (id : Nat) : (s.runCmd id).dir = s.dir := State.served_dir s id
@[simp] theorem State.runCmd_dirGen (id : Nat) : (s.runCmd id).dirGen = s.dirGen := State.served_dirGen s id
@[simp] theorem State.runCmd_lookup (id : Nat) : (s.runCmd id).lookup = s.lookup := State.served_lookup s id
@[simp] theorem State.runCmd_slots (id : Nat) : (s.runCmd id).slots = s.slots := State.served_slots s id
@[simp] theorem State.runCmd_moves (id : Nat) : (s.runCmd id).moves = s.moves := State.served_moves s id
@[simp] theorem State.runCmd_heat (id : Nat) : (s.runCmd id).heat = s.heat := State.served_heat s id
@[simp] theorem State.runCmd_bg (id : Nat) : (s.runCmd id).bg = s.bg := State.served_bg s id
@[simp] theorem State.runCmd_rings (id : Nat) : (s.runCmd id).rings = s.rings := State.served_rings s id
@[simp] theorem State.runCmd_links (id : Nat) : (s.runCmd id).links = s.links := State.served_links s id
@[simp] theorem State.runCmd_inq (id : Nat) : (s.runCmd id).inq = s.inq := State.served_inq s id
@[simp] theorem State.runCmd_wms (id : Nat) : (s.runCmd id).wms = s.wms := State.served_wms s id
@[simp] theorem State.runCmd_wmLatch (id : Nat) : (s.runCmd id).wmLatch = s.wmLatch := State.served_wmLatch s id
@[simp] theorem State.runCmd_holds (id : Nat) : (s.runCmd id).holds = s.holds := State.served_holds s id
@[simp] theorem State.runCmd_hauls (id : Nat) : (s.runCmd id).hauls = s.hauls := State.served_hauls s id
@[simp] theorem State.runCmd_rows (id : Nat) : (s.runCmd id).rows = s.rows := State.served_rows s id
@[simp] theorem State.runCmd_reqs (id : Nat) : (s.runCmd id).reqs = s.reqs := State.served_reqs s id
@[simp] theorem State.runCmd_plan (id : Nat) : (s.runCmd id).plan = s.plan := State.served_plan s id
@[simp] theorem State.runCmd_planBase (id : Nat) : (s.runCmd id).planBase = s.planBase := State.served_planBase s id
@[simp] theorem State.runCmd_sent (id : Nat) : (s.runCmd id).sent = s.sent := State.served_sent s id
@[simp] theorem State.runCmd_emberNums (id : Nat) : (s.runCmd id).emberNums = s.emberNums := State.served_emberNums s id
@[simp] theorem State.runCmd_recv (id : Nat) : (s.runCmd id).recv = s.recv := State.served_recv s id
@[simp] theorem State.runCmd_merges (id : Nat) : (s.runCmd id).merges = s.merges := State.served_merges s id
@[simp] theorem State.runCmd_mergesDone (id : Nat) : (s.runCmd id).mergesDone = s.mergesDone := State.served_mergesDone s id
@[simp] theorem State.runCmd_images (id : Nat) : (s.runCmd id).images = s.images := State.served_images s id
@[simp] theorem State.runCmd_kindles (id : Nat) : (s.runCmd id).kindles = s.kindles := State.served_kindles s id
@[simp] theorem State.runCmd_arrayHclk (id : Nat) : (s.runCmd id).arrayHclk = s.arrayHclk := State.served_arrayHclk s id
@[simp] theorem State.runCmd_arrayUsed (id : Nat) : (s.runCmd id).arrayUsed = s.arrayUsed := State.served_arrayUsed s id
@[simp] theorem State.runCmd_scrub (id : Nat) : (s.runCmd id).scrub = s.scrub := State.served_scrub s id
@[simp] theorem State.runCmd_conns (id : Nat) : (s.runCmd id).conns = s.conns := State.served_conns s id
@[simp] theorem State.runCmd_ports (id : Nat) : (s.runCmd id).ports = s.ports := State.served_ports s id
@[simp] theorem State.runCmd_up (id : Nat) : (s.runCmd id).up = s.up := State.served_up s id
@[simp] theorem State.runCmd_waykeys (id : Nat) : (s.runCmd id).waykeys = s.waykeys := State.served_waykeys s id
@[simp] theorem State.runCmd_wkLive (id : Nat) : (s.runCmd id).wkLive = s.wkLive := State.served_wkLive s id
@[simp] theorem State.runCmd_vioLog (id : Nat) : (s.runCmd id).vioLog = s.vioLog := State.served_vioLog s id
@[simp] theorem State.runCmd_shapers (id : Nat) : (s.runCmd id).shapers = s.shapers := State.served_shapers s id
@[simp] theorem State.runCmd_shChanges (id : Nat) : (s.runCmd id).shChanges = s.shChanges := State.served_shChanges s id
@[simp] theorem State.runCmd_acctPackets (id : Nat) : (s.runCmd id).acctPackets = s.acctPackets := State.served_acctPackets s id
@[simp] theorem State.runCmd_drrs (id : Nat) : (s.runCmd id).drrs = s.drrs := State.served_drrs s id
@[simp] theorem State.runCmd_replies (id : Nat) : (s.runCmd id).replies = s.replies := State.served_replies s id
@[simp] theorem State.runCmd_attest (id : Nat) : (s.runCmd id).attest = s.attest := State.served_attest s id
@[simp] theorem State.runCmd_meters (id : Nat) : (s.runCmd id).meters = s.meters := State.served_meters s id
@[simp] theorem State.runCmd_staging (id : Nat) : (s.runCmd id).staging = s.staging := State.served_staging s id
@[simp] theorem State.runCmd_probe (id : Nat) : (s.runCmd id).probe = s.probe := State.served_probe s id
@[simp] theorem State.runCmd_fenceRec (id : Nat) : (s.runCmd id).fenceRec = s.fenceRec := State.served_fenceRec s id
@[simp] theorem State.runCmd_suspects (id : Nat) : (s.runCmd id).suspects = s.suspects := State.served_suspects s id
@[simp] theorem State.runCmd_sharedFaults (id : Nat) : (s.runCmd id).sharedFaults = s.sharedFaults := State.served_sharedFaults s id
@[simp] theorem State.runCmd_flits (id : Nat) : (s.runCmd id).flits = s.flits := State.served_flits s id
@[simp] theorem State.runCmd_wdogValue (id : Nat) : (s.runCmd id).wdogValue = s.wdogValue := State.served_wdogValue s id
@[simp] theorem State.runCmd_wdogAt (id : Nat) : (s.runCmd id).wdogAt = s.wdogAt := State.served_wdogAt s id
@[simp] theorem State.runCmd_rebuilds (id : Nat) : (s.runCmd id).rebuilds = s.rebuilds := State.served_rebuilds s id
@[simp] theorem State.runCmd_forwards (id : Nat) : (s.runCmd id).forwards = s.forwards := State.served_forwards s id
@[simp] theorem State.runCmd_lodge (id : Nat) : (s.runCmd id).lodge = s.lodge := State.served_lodge s id
@[simp] theorem State.runCmd_resets (id : Nat) : (s.runCmd id).resets = s.resets := State.served_resets s id
@[simp] theorem State.runCmd_engResets (id : Nat) : (s.runCmd id).engResets = s.engResets := State.served_engResets s id
@[simp] theorem State.runCmd_flash (id : Nat) : (s.runCmd id).flash = s.flash := State.served_flash s id
@[simp] theorem State.runCmd_repairDirty (id : Nat) : (s.runCmd id).repairDirty = s.repairDirty := State.served_repairDirty s id
@[simp] theorem State.runCmd_mpeers (id : Nat) : (s.runCmd id).mpeers = s.mpeers := State.served_mpeers s id
@[simp] theorem State.runCmd_mgmt (id : Nat) : (s.runCmd id).mgmt = s.mgmt := State.served_mgmt s id
@[simp] theorem State.runCmd_rcvWriting (id : Nat) : (s.runCmd id).rcvWriting = s.rcvWriting := State.served_rcvWriting s id
@[simp] theorem State.runCmd_i3c (id : Nat) : (s.runCmd id).i3c = s.i3c := State.served_i3c s id
@[simp] theorem State.runCmd_therm (id : Nat) : (s.runCmd id).therm = s.therm := State.served_therm s id
@[simp] theorem State.runCmd_volt (id : Nat) : (s.runCmd id).volt = s.volt := State.served_volt s id
@[simp] theorem State.runCmd_jtag (id : Nat) : (s.runCmd id).jtag = s.jtag := State.served_jtag s id

/-! `State.setReq`. -/

@[simp] theorem State.setReq_pending (id : Nat) (f : Req → Req) : (s.setReq id f).pending = s.pending := rfl
@[simp] theorem State.setReq_out (id : Nat) (f : Req → Req) : (s.setReq id f).out = s.out := rfl
@[simp] theorem State.setReq_draws (id : Nat) (f : Req → Req) : (s.setReq id f).draws = s.draws := rfl
@[simp] theorem State.setReq_nextId (id : Nat) (f : Req → Req) : (s.setReq id f).nextId = s.nextId := rfl
@[simp] theorem State.setReq_posted (id : Nat) (f : Req → Req) : (s.setReq id f).posted = s.posted := rfl
@[simp] theorem State.setReq_regs (id : Nat) (f : Req → Req) : (s.setReq id f).regs = s.regs := rfl
@[simp] theorem State.setReq_mem (id : Nat) (f : Req → Req) : (s.setReq id f).mem = s.mem := rfl
@[simp] theorem State.setReq_stale (id : Nat) (f : Req → Req) : (s.setReq id f).stale = s.stale := rfl
@[simp] theorem State.setReq_ecc (id : Nat) (f : Req → Req) : (s.setReq id f).ecc = s.ecc := rfl
@[simp] theorem State.setReq_scratch (id : Nat) (f : Req → Req) : (s.setReq id f).scratch = s.scratch := rfl
@[simp] theorem State.setReq_scratchEcc (id : Nat) (f : Req → Req) : (s.setReq id f).scratchEcc = s.scratchEcc := rfl
@[simp] theorem State.setReq_arbs (id : Nat) (f : Req → Req) : (s.setReq id f).arbs = s.arbs := rfl
@[simp] theorem State.setReq_recode (id : Nat) (f : Req → Req) : (s.setReq id f).recode = s.recode := rfl
@[simp] theorem State.setReq_acts (id : Nat) (f : Req → Req) : (s.setReq id f).acts = s.acts := rfl
@[simp] theorem State.setReq_trr (id : Nat) (f : Req → Req) : (s.setReq id f).trr = s.trr := rfl
@[simp] theorem State.setReq_corrected (id : Nat) (f : Req → Req) : (s.setReq id f).corrected = s.corrected := rfl
@[simp] theorem State.setReq_spares (id : Nat) (f : Req → Req) : (s.setReq id f).spares = s.spares := rfl
@[simp] theorem State.setReq_remapDue (id : Nat) (f : Req → Req) : (s.setReq id f).remapDue = s.remapDue := rfl
@[simp] theorem State.setReq_ft (id : Nat) (f : Req → Req) : (s.setReq id f).ft = s.ft := rfl
@[simp] theorem State.setReq_gated (id : Nat) (f : Req → Req) : (s.setReq id f).gated = s.gated := rfl
@[simp] theorem State.setReq_life (id : Nat) (f : Req → Req) : (s.setReq id f).life = s.life := rfl
@[simp] theorem State.setReq_standbyWanted (id : Nat) (f : Req → Req) : (s.setReq id f).standbyWanted = s.standbyWanted := rfl
@[simp] theorem State.setReq_power (id : Nat) (f : Req → Req) : (s.setReq id f).power = s.power := rfl
@[simp] theorem State.setReq_powerWant (id : Nat) (f : Req → Req) : (s.setReq id f).powerWant = s.powerWant := rfl
@[simp] theorem State.setReq_powerNext (id : Nat) (f : Req → Req) : (s.setReq id f).powerNext = s.powerNext := rfl
@[simp] theorem State.setReq_saving (id : Nat) (f : Req → Req) : (s.setReq id f).saving = s.saving := rfl
@[simp] theorem State.setReq_pwrGood (id : Nat) (f : Req → Req) : (s.setReq id f).pwrGood = s.pwrGood := rfl
@[simp] theorem State.setReq_thermTripped (id : Nat) (f : Req → Req) : (s.setReq id f).thermTripped = s.thermTripped := rfl
@[simp] theorem State.setReq_straps (id : Nat) (f : Req → Req) : (s.setReq id f).straps = s.straps := rfl
@[simp] theorem State.setReq_cause (id : Nat) (f : Req → Req) : (s.setReq id f).cause = s.cause := rfl
@[simp] theorem State.setReq_charter (id : Nat) (f : Req → Req) : (s.setReq id f).charter = s.charter := rfl
@[simp] theorem State.setReq_identity (id : Nat) (f : Req → Req) : (s.setReq id f).identity = s.identity := rfl
@[simp] theorem State.setReq_entries (id : Nat) (f : Req → Req) : (s.setReq id f).entries = s.entries := rfl
@[simp] theorem State.setReq_partState (id : Nat) (f : Req → Req) : (s.setReq id f).partState = s.partState := rfl
@[simp] theorem State.setReq_lastLock (id : Nat) (f : Req → Req) : (s.setReq id f).lastLock = s.lastLock := rfl
@[simp] theorem State.setReq_releasing (id : Nat) (f : Req → Req) : (s.setReq id f).releasing = s.releasing := rfl
@[simp] theorem State.setReq_objs (id : Nat) (f : Req → Req) : (s.setReq id f).objs = s.objs := rfl
@[simp] theorem State.setReq_objStage (id : Nat) (f : Req → Req) : (s.setReq id f).objStage = s.objStage := rfl
@[simp] theorem State.setReq_far (id : Nat) (f : Req → Req) : (s.setReq id f).far = s.far := rfl
@[simp] theorem State.setReq_dir (id : Nat) (f : Req → Req) : (s.setReq id f).dir = s.dir := rfl
@[simp] theorem State.setReq_dirGen (id : Nat) (f : Req → Req) : (s.setReq id f).dirGen = s.dirGen := rfl
@[simp] theorem State.setReq_lookup (id : Nat) (f : Req → Req) : (s.setReq id f).lookup = s.lookup := rfl
@[simp] theorem State.setReq_slots (id : Nat) (f : Req → Req) : (s.setReq id f).slots = s.slots := rfl
@[simp] theorem State.setReq_moves (id : Nat) (f : Req → Req) : (s.setReq id f).moves = s.moves := rfl
@[simp] theorem State.setReq_heat (id : Nat) (f : Req → Req) : (s.setReq id f).heat = s.heat := rfl
@[simp] theorem State.setReq_bg (id : Nat) (f : Req → Req) : (s.setReq id f).bg = s.bg := rfl
@[simp] theorem State.setReq_cmds (id : Nat) (f : Req → Req) : (s.setReq id f).cmds = s.cmds := rfl
@[simp] theorem State.setReq_rings (id : Nat) (f : Req → Req) : (s.setReq id f).rings = s.rings := rfl
@[simp] theorem State.setReq_links (id : Nat) (f : Req → Req) : (s.setReq id f).links = s.links := rfl
@[simp] theorem State.setReq_inq (id : Nat) (f : Req → Req) : (s.setReq id f).inq = s.inq := rfl
@[simp] theorem State.setReq_turns (id : Nat) (f : Req → Req) : (s.setReq id f).turns = s.turns := rfl
@[simp] theorem State.setReq_wms (id : Nat) (f : Req → Req) : (s.setReq id f).wms = s.wms := rfl
@[simp] theorem State.setReq_wmLatch (id : Nat) (f : Req → Req) : (s.setReq id f).wmLatch = s.wmLatch := rfl
@[simp] theorem State.setReq_holds (id : Nat) (f : Req → Req) : (s.setReq id f).holds = s.holds := rfl
@[simp] theorem State.setReq_hauls (id : Nat) (f : Req → Req) : (s.setReq id f).hauls = s.hauls := rfl
@[simp] theorem State.setReq_rows (id : Nat) (f : Req → Req) : (s.setReq id f).rows = s.rows := rfl
@[simp] theorem State.setReq_plan (id : Nat) (f : Req → Req) : (s.setReq id f).plan = s.plan := rfl
@[simp] theorem State.setReq_planBase (id : Nat) (f : Req → Req) : (s.setReq id f).planBase = s.planBase := rfl
@[simp] theorem State.setReq_sent (id : Nat) (f : Req → Req) : (s.setReq id f).sent = s.sent := rfl
@[simp] theorem State.setReq_emberNums (id : Nat) (f : Req → Req) : (s.setReq id f).emberNums = s.emberNums := rfl
@[simp] theorem State.setReq_recv (id : Nat) (f : Req → Req) : (s.setReq id f).recv = s.recv := rfl
@[simp] theorem State.setReq_merges (id : Nat) (f : Req → Req) : (s.setReq id f).merges = s.merges := rfl
@[simp] theorem State.setReq_mergesDone (id : Nat) (f : Req → Req) : (s.setReq id f).mergesDone = s.mergesDone := rfl
@[simp] theorem State.setReq_images (id : Nat) (f : Req → Req) : (s.setReq id f).images = s.images := rfl
@[simp] theorem State.setReq_kindles (id : Nat) (f : Req → Req) : (s.setReq id f).kindles = s.kindles := rfl
@[simp] theorem State.setReq_arrayHclk (id : Nat) (f : Req → Req) : (s.setReq id f).arrayHclk = s.arrayHclk := rfl
@[simp] theorem State.setReq_arrayUsed (id : Nat) (f : Req → Req) : (s.setReq id f).arrayUsed = s.arrayUsed := rfl
@[simp] theorem State.setReq_scrub (id : Nat) (f : Req → Req) : (s.setReq id f).scrub = s.scrub := rfl
@[simp] theorem State.setReq_conns (id : Nat) (f : Req → Req) : (s.setReq id f).conns = s.conns := rfl
@[simp] theorem State.setReq_ports (id : Nat) (f : Req → Req) : (s.setReq id f).ports = s.ports := rfl
@[simp] theorem State.setReq_up (id : Nat) (f : Req → Req) : (s.setReq id f).up = s.up := rfl
@[simp] theorem State.setReq_waykeys (id : Nat) (f : Req → Req) : (s.setReq id f).waykeys = s.waykeys := rfl
@[simp] theorem State.setReq_wkLive (id : Nat) (f : Req → Req) : (s.setReq id f).wkLive = s.wkLive := rfl
@[simp] theorem State.setReq_vioLog (id : Nat) (f : Req → Req) : (s.setReq id f).vioLog = s.vioLog := rfl
@[simp] theorem State.setReq_shapers (id : Nat) (f : Req → Req) : (s.setReq id f).shapers = s.shapers := rfl
@[simp] theorem State.setReq_shChanges (id : Nat) (f : Req → Req) : (s.setReq id f).shChanges = s.shChanges := rfl
@[simp] theorem State.setReq_acctPackets (id : Nat) (f : Req → Req) : (s.setReq id f).acctPackets = s.acctPackets := rfl
@[simp] theorem State.setReq_drrs (id : Nat) (f : Req → Req) : (s.setReq id f).drrs = s.drrs := rfl
@[simp] theorem State.setReq_replies (id : Nat) (f : Req → Req) : (s.setReq id f).replies = s.replies := rfl
@[simp] theorem State.setReq_attest (id : Nat) (f : Req → Req) : (s.setReq id f).attest = s.attest := rfl
@[simp] theorem State.setReq_meters (id : Nat) (f : Req → Req) : (s.setReq id f).meters = s.meters := rfl
@[simp] theorem State.setReq_staging (id : Nat) (f : Req → Req) : (s.setReq id f).staging = s.staging := rfl
@[simp] theorem State.setReq_probe (id : Nat) (f : Req → Req) : (s.setReq id f).probe = s.probe := rfl
@[simp] theorem State.setReq_fenceRec (id : Nat) (f : Req → Req) : (s.setReq id f).fenceRec = s.fenceRec := rfl
@[simp] theorem State.setReq_suspects (id : Nat) (f : Req → Req) : (s.setReq id f).suspects = s.suspects := rfl
@[simp] theorem State.setReq_sharedFaults (id : Nat) (f : Req → Req) : (s.setReq id f).sharedFaults = s.sharedFaults := rfl
@[simp] theorem State.setReq_flits (id : Nat) (f : Req → Req) : (s.setReq id f).flits = s.flits := rfl
@[simp] theorem State.setReq_wdogValue (id : Nat) (f : Req → Req) : (s.setReq id f).wdogValue = s.wdogValue := rfl
@[simp] theorem State.setReq_wdogAt (id : Nat) (f : Req → Req) : (s.setReq id f).wdogAt = s.wdogAt := rfl
@[simp] theorem State.setReq_rebuilds (id : Nat) (f : Req → Req) : (s.setReq id f).rebuilds = s.rebuilds := rfl
@[simp] theorem State.setReq_forwards (id : Nat) (f : Req → Req) : (s.setReq id f).forwards = s.forwards := rfl
@[simp] theorem State.setReq_lodge (id : Nat) (f : Req → Req) : (s.setReq id f).lodge = s.lodge := rfl
@[simp] theorem State.setReq_resets (id : Nat) (f : Req → Req) : (s.setReq id f).resets = s.resets := rfl
@[simp] theorem State.setReq_engResets (id : Nat) (f : Req → Req) : (s.setReq id f).engResets = s.engResets := rfl
@[simp] theorem State.setReq_flash (id : Nat) (f : Req → Req) : (s.setReq id f).flash = s.flash := rfl
@[simp] theorem State.setReq_repairDirty (id : Nat) (f : Req → Req) : (s.setReq id f).repairDirty = s.repairDirty := rfl
@[simp] theorem State.setReq_mpeers (id : Nat) (f : Req → Req) : (s.setReq id f).mpeers = s.mpeers := rfl
@[simp] theorem State.setReq_mgmt (id : Nat) (f : Req → Req) : (s.setReq id f).mgmt = s.mgmt := rfl
@[simp] theorem State.setReq_rcvWriting (id : Nat) (f : Req → Req) : (s.setReq id f).rcvWriting = s.rcvWriting := rfl
@[simp] theorem State.setReq_i3c (id : Nat) (f : Req → Req) : (s.setReq id f).i3c = s.i3c := rfl
@[simp] theorem State.setReq_therm (id : Nat) (f : Req → Req) : (s.setReq id f).therm = s.therm := rfl
@[simp] theorem State.setReq_volt (id : Nat) (f : Req → Req) : (s.setReq id f).volt = s.volt := rfl
@[simp] theorem State.setReq_jtag (id : Nat) (f : Req → Req) : (s.setReq id f).jtag = s.jtag := rfl

/-! `State.setMerge`. -/

@[simp] theorem State.setMerge_pending (id : Nat) (f : Merge → Merge) : (s.setMerge id f).pending = s.pending := rfl
@[simp] theorem State.setMerge_out (id : Nat) (f : Merge → Merge) : (s.setMerge id f).out = s.out := rfl
@[simp] theorem State.setMerge_draws (id : Nat) (f : Merge → Merge) : (s.setMerge id f).draws = s.draws := rfl
@[simp] theorem State.setMerge_nextId (id : Nat) (f : Merge → Merge) : (s.setMerge id f).nextId = s.nextId := rfl
@[simp] theorem State.setMerge_posted (id : Nat) (f : Merge → Merge) : (s.setMerge id f).posted = s.posted := rfl
@[simp] theorem State.setMerge_regs (id : Nat) (f : Merge → Merge) : (s.setMerge id f).regs = s.regs := rfl
@[simp] theorem State.setMerge_mem (id : Nat) (f : Merge → Merge) : (s.setMerge id f).mem = s.mem := rfl
@[simp] theorem State.setMerge_stale (id : Nat) (f : Merge → Merge) : (s.setMerge id f).stale = s.stale := rfl
@[simp] theorem State.setMerge_ecc (id : Nat) (f : Merge → Merge) : (s.setMerge id f).ecc = s.ecc := rfl
@[simp] theorem State.setMerge_scratch (id : Nat) (f : Merge → Merge) : (s.setMerge id f).scratch = s.scratch := rfl
@[simp] theorem State.setMerge_scratchEcc (id : Nat) (f : Merge → Merge) : (s.setMerge id f).scratchEcc = s.scratchEcc := rfl
@[simp] theorem State.setMerge_arbs (id : Nat) (f : Merge → Merge) : (s.setMerge id f).arbs = s.arbs := rfl
@[simp] theorem State.setMerge_recode (id : Nat) (f : Merge → Merge) : (s.setMerge id f).recode = s.recode := rfl
@[simp] theorem State.setMerge_acts (id : Nat) (f : Merge → Merge) : (s.setMerge id f).acts = s.acts := rfl
@[simp] theorem State.setMerge_trr (id : Nat) (f : Merge → Merge) : (s.setMerge id f).trr = s.trr := rfl
@[simp] theorem State.setMerge_corrected (id : Nat) (f : Merge → Merge) : (s.setMerge id f).corrected = s.corrected := rfl
@[simp] theorem State.setMerge_spares (id : Nat) (f : Merge → Merge) : (s.setMerge id f).spares = s.spares := rfl
@[simp] theorem State.setMerge_remapDue (id : Nat) (f : Merge → Merge) : (s.setMerge id f).remapDue = s.remapDue := rfl
@[simp] theorem State.setMerge_ft (id : Nat) (f : Merge → Merge) : (s.setMerge id f).ft = s.ft := rfl
@[simp] theorem State.setMerge_gated (id : Nat) (f : Merge → Merge) : (s.setMerge id f).gated = s.gated := rfl
@[simp] theorem State.setMerge_life (id : Nat) (f : Merge → Merge) : (s.setMerge id f).life = s.life := rfl
@[simp] theorem State.setMerge_standbyWanted (id : Nat) (f : Merge → Merge) : (s.setMerge id f).standbyWanted = s.standbyWanted := rfl
@[simp] theorem State.setMerge_power (id : Nat) (f : Merge → Merge) : (s.setMerge id f).power = s.power := rfl
@[simp] theorem State.setMerge_powerWant (id : Nat) (f : Merge → Merge) : (s.setMerge id f).powerWant = s.powerWant := rfl
@[simp] theorem State.setMerge_powerNext (id : Nat) (f : Merge → Merge) : (s.setMerge id f).powerNext = s.powerNext := rfl
@[simp] theorem State.setMerge_saving (id : Nat) (f : Merge → Merge) : (s.setMerge id f).saving = s.saving := rfl
@[simp] theorem State.setMerge_pwrGood (id : Nat) (f : Merge → Merge) : (s.setMerge id f).pwrGood = s.pwrGood := rfl
@[simp] theorem State.setMerge_thermTripped (id : Nat) (f : Merge → Merge) : (s.setMerge id f).thermTripped = s.thermTripped := rfl
@[simp] theorem State.setMerge_straps (id : Nat) (f : Merge → Merge) : (s.setMerge id f).straps = s.straps := rfl
@[simp] theorem State.setMerge_cause (id : Nat) (f : Merge → Merge) : (s.setMerge id f).cause = s.cause := rfl
@[simp] theorem State.setMerge_charter (id : Nat) (f : Merge → Merge) : (s.setMerge id f).charter = s.charter := rfl
@[simp] theorem State.setMerge_identity (id : Nat) (f : Merge → Merge) : (s.setMerge id f).identity = s.identity := rfl
@[simp] theorem State.setMerge_entries (id : Nat) (f : Merge → Merge) : (s.setMerge id f).entries = s.entries := rfl
@[simp] theorem State.setMerge_partState (id : Nat) (f : Merge → Merge) : (s.setMerge id f).partState = s.partState := rfl
@[simp] theorem State.setMerge_lastLock (id : Nat) (f : Merge → Merge) : (s.setMerge id f).lastLock = s.lastLock := rfl
@[simp] theorem State.setMerge_releasing (id : Nat) (f : Merge → Merge) : (s.setMerge id f).releasing = s.releasing := rfl
@[simp] theorem State.setMerge_objs (id : Nat) (f : Merge → Merge) : (s.setMerge id f).objs = s.objs := rfl
@[simp] theorem State.setMerge_objStage (id : Nat) (f : Merge → Merge) : (s.setMerge id f).objStage = s.objStage := rfl
@[simp] theorem State.setMerge_far (id : Nat) (f : Merge → Merge) : (s.setMerge id f).far = s.far := rfl
@[simp] theorem State.setMerge_dir (id : Nat) (f : Merge → Merge) : (s.setMerge id f).dir = s.dir := rfl
@[simp] theorem State.setMerge_dirGen (id : Nat) (f : Merge → Merge) : (s.setMerge id f).dirGen = s.dirGen := rfl
@[simp] theorem State.setMerge_lookup (id : Nat) (f : Merge → Merge) : (s.setMerge id f).lookup = s.lookup := rfl
@[simp] theorem State.setMerge_slots (id : Nat) (f : Merge → Merge) : (s.setMerge id f).slots = s.slots := rfl
@[simp] theorem State.setMerge_moves (id : Nat) (f : Merge → Merge) : (s.setMerge id f).moves = s.moves := rfl
@[simp] theorem State.setMerge_heat (id : Nat) (f : Merge → Merge) : (s.setMerge id f).heat = s.heat := rfl
@[simp] theorem State.setMerge_bg (id : Nat) (f : Merge → Merge) : (s.setMerge id f).bg = s.bg := rfl
@[simp] theorem State.setMerge_cmds (id : Nat) (f : Merge → Merge) : (s.setMerge id f).cmds = s.cmds := rfl
@[simp] theorem State.setMerge_rings (id : Nat) (f : Merge → Merge) : (s.setMerge id f).rings = s.rings := rfl
@[simp] theorem State.setMerge_links (id : Nat) (f : Merge → Merge) : (s.setMerge id f).links = s.links := rfl
@[simp] theorem State.setMerge_inq (id : Nat) (f : Merge → Merge) : (s.setMerge id f).inq = s.inq := rfl
@[simp] theorem State.setMerge_turns (id : Nat) (f : Merge → Merge) : (s.setMerge id f).turns = s.turns := rfl
@[simp] theorem State.setMerge_wms (id : Nat) (f : Merge → Merge) : (s.setMerge id f).wms = s.wms := rfl
@[simp] theorem State.setMerge_wmLatch (id : Nat) (f : Merge → Merge) : (s.setMerge id f).wmLatch = s.wmLatch := rfl
@[simp] theorem State.setMerge_holds (id : Nat) (f : Merge → Merge) : (s.setMerge id f).holds = s.holds := rfl
@[simp] theorem State.setMerge_hauls (id : Nat) (f : Merge → Merge) : (s.setMerge id f).hauls = s.hauls := rfl
@[simp] theorem State.setMerge_rows (id : Nat) (f : Merge → Merge) : (s.setMerge id f).rows = s.rows := rfl
@[simp] theorem State.setMerge_reqs (id : Nat) (f : Merge → Merge) : (s.setMerge id f).reqs = s.reqs := rfl
@[simp] theorem State.setMerge_plan (id : Nat) (f : Merge → Merge) : (s.setMerge id f).plan = s.plan := rfl
@[simp] theorem State.setMerge_planBase (id : Nat) (f : Merge → Merge) : (s.setMerge id f).planBase = s.planBase := rfl
@[simp] theorem State.setMerge_sent (id : Nat) (f : Merge → Merge) : (s.setMerge id f).sent = s.sent := rfl
@[simp] theorem State.setMerge_emberNums (id : Nat) (f : Merge → Merge) : (s.setMerge id f).emberNums = s.emberNums := rfl
@[simp] theorem State.setMerge_recv (id : Nat) (f : Merge → Merge) : (s.setMerge id f).recv = s.recv := rfl
@[simp] theorem State.setMerge_mergesDone (id : Nat) (f : Merge → Merge) : (s.setMerge id f).mergesDone = s.mergesDone := rfl
@[simp] theorem State.setMerge_images (id : Nat) (f : Merge → Merge) : (s.setMerge id f).images = s.images := rfl
@[simp] theorem State.setMerge_kindles (id : Nat) (f : Merge → Merge) : (s.setMerge id f).kindles = s.kindles := rfl
@[simp] theorem State.setMerge_arrayHclk (id : Nat) (f : Merge → Merge) : (s.setMerge id f).arrayHclk = s.arrayHclk := rfl
@[simp] theorem State.setMerge_arrayUsed (id : Nat) (f : Merge → Merge) : (s.setMerge id f).arrayUsed = s.arrayUsed := rfl
@[simp] theorem State.setMerge_scrub (id : Nat) (f : Merge → Merge) : (s.setMerge id f).scrub = s.scrub := rfl
@[simp] theorem State.setMerge_conns (id : Nat) (f : Merge → Merge) : (s.setMerge id f).conns = s.conns := rfl
@[simp] theorem State.setMerge_ports (id : Nat) (f : Merge → Merge) : (s.setMerge id f).ports = s.ports := rfl
@[simp] theorem State.setMerge_up (id : Nat) (f : Merge → Merge) : (s.setMerge id f).up = s.up := rfl
@[simp] theorem State.setMerge_waykeys (id : Nat) (f : Merge → Merge) : (s.setMerge id f).waykeys = s.waykeys := rfl
@[simp] theorem State.setMerge_wkLive (id : Nat) (f : Merge → Merge) : (s.setMerge id f).wkLive = s.wkLive := rfl
@[simp] theorem State.setMerge_vioLog (id : Nat) (f : Merge → Merge) : (s.setMerge id f).vioLog = s.vioLog := rfl
@[simp] theorem State.setMerge_shapers (id : Nat) (f : Merge → Merge) : (s.setMerge id f).shapers = s.shapers := rfl
@[simp] theorem State.setMerge_shChanges (id : Nat) (f : Merge → Merge) : (s.setMerge id f).shChanges = s.shChanges := rfl
@[simp] theorem State.setMerge_acctPackets (id : Nat) (f : Merge → Merge) : (s.setMerge id f).acctPackets = s.acctPackets := rfl
@[simp] theorem State.setMerge_drrs (id : Nat) (f : Merge → Merge) : (s.setMerge id f).drrs = s.drrs := rfl
@[simp] theorem State.setMerge_replies (id : Nat) (f : Merge → Merge) : (s.setMerge id f).replies = s.replies := rfl
@[simp] theorem State.setMerge_attest (id : Nat) (f : Merge → Merge) : (s.setMerge id f).attest = s.attest := rfl
@[simp] theorem State.setMerge_meters (id : Nat) (f : Merge → Merge) : (s.setMerge id f).meters = s.meters := rfl
@[simp] theorem State.setMerge_staging (id : Nat) (f : Merge → Merge) : (s.setMerge id f).staging = s.staging := rfl
@[simp] theorem State.setMerge_probe (id : Nat) (f : Merge → Merge) : (s.setMerge id f).probe = s.probe := rfl
@[simp] theorem State.setMerge_fenceRec (id : Nat) (f : Merge → Merge) : (s.setMerge id f).fenceRec = s.fenceRec := rfl
@[simp] theorem State.setMerge_suspects (id : Nat) (f : Merge → Merge) : (s.setMerge id f).suspects = s.suspects := rfl
@[simp] theorem State.setMerge_sharedFaults (id : Nat) (f : Merge → Merge) : (s.setMerge id f).sharedFaults = s.sharedFaults := rfl
@[simp] theorem State.setMerge_flits (id : Nat) (f : Merge → Merge) : (s.setMerge id f).flits = s.flits := rfl
@[simp] theorem State.setMerge_wdogValue (id : Nat) (f : Merge → Merge) : (s.setMerge id f).wdogValue = s.wdogValue := rfl
@[simp] theorem State.setMerge_wdogAt (id : Nat) (f : Merge → Merge) : (s.setMerge id f).wdogAt = s.wdogAt := rfl
@[simp] theorem State.setMerge_rebuilds (id : Nat) (f : Merge → Merge) : (s.setMerge id f).rebuilds = s.rebuilds := rfl
@[simp] theorem State.setMerge_forwards (id : Nat) (f : Merge → Merge) : (s.setMerge id f).forwards = s.forwards := rfl
@[simp] theorem State.setMerge_lodge (id : Nat) (f : Merge → Merge) : (s.setMerge id f).lodge = s.lodge := rfl
@[simp] theorem State.setMerge_resets (id : Nat) (f : Merge → Merge) : (s.setMerge id f).resets = s.resets := rfl
@[simp] theorem State.setMerge_engResets (id : Nat) (f : Merge → Merge) : (s.setMerge id f).engResets = s.engResets := rfl
@[simp] theorem State.setMerge_flash (id : Nat) (f : Merge → Merge) : (s.setMerge id f).flash = s.flash := rfl
@[simp] theorem State.setMerge_repairDirty (id : Nat) (f : Merge → Merge) : (s.setMerge id f).repairDirty = s.repairDirty := rfl
@[simp] theorem State.setMerge_mpeers (id : Nat) (f : Merge → Merge) : (s.setMerge id f).mpeers = s.mpeers := rfl
@[simp] theorem State.setMerge_mgmt (id : Nat) (f : Merge → Merge) : (s.setMerge id f).mgmt = s.mgmt := rfl
@[simp] theorem State.setMerge_rcvWriting (id : Nat) (f : Merge → Merge) : (s.setMerge id f).rcvWriting = s.rcvWriting := rfl
@[simp] theorem State.setMerge_i3c (id : Nat) (f : Merge → Merge) : (s.setMerge id f).i3c = s.i3c := rfl
@[simp] theorem State.setMerge_therm (id : Nat) (f : Merge → Merge) : (s.setMerge id f).therm = s.therm := rfl
@[simp] theorem State.setMerge_volt (id : Nat) (f : Merge → Merge) : (s.setMerge id f).volt = s.volt := rfl
@[simp] theorem State.setMerge_jtag (id : Nat) (f : Merge → Merge) : (s.setMerge id f).jtag = s.jtag := rfl

/-! `State.setKindle`. -/

@[simp] theorem State.setKindle_pending (id : Nat) (f : Kindle → Kindle) : (s.setKindle id f).pending = s.pending := rfl
@[simp] theorem State.setKindle_out (id : Nat) (f : Kindle → Kindle) : (s.setKindle id f).out = s.out := rfl
@[simp] theorem State.setKindle_draws (id : Nat) (f : Kindle → Kindle) : (s.setKindle id f).draws = s.draws := rfl
@[simp] theorem State.setKindle_nextId (id : Nat) (f : Kindle → Kindle) : (s.setKindle id f).nextId = s.nextId := rfl
@[simp] theorem State.setKindle_posted (id : Nat) (f : Kindle → Kindle) : (s.setKindle id f).posted = s.posted := rfl
@[simp] theorem State.setKindle_regs (id : Nat) (f : Kindle → Kindle) : (s.setKindle id f).regs = s.regs := rfl
@[simp] theorem State.setKindle_mem (id : Nat) (f : Kindle → Kindle) : (s.setKindle id f).mem = s.mem := rfl
@[simp] theorem State.setKindle_stale (id : Nat) (f : Kindle → Kindle) : (s.setKindle id f).stale = s.stale := rfl
@[simp] theorem State.setKindle_ecc (id : Nat) (f : Kindle → Kindle) : (s.setKindle id f).ecc = s.ecc := rfl
@[simp] theorem State.setKindle_scratch (id : Nat) (f : Kindle → Kindle) : (s.setKindle id f).scratch = s.scratch := rfl
@[simp] theorem State.setKindle_scratchEcc (id : Nat) (f : Kindle → Kindle) : (s.setKindle id f).scratchEcc = s.scratchEcc := rfl
@[simp] theorem State.setKindle_arbs (id : Nat) (f : Kindle → Kindle) : (s.setKindle id f).arbs = s.arbs := rfl
@[simp] theorem State.setKindle_recode (id : Nat) (f : Kindle → Kindle) : (s.setKindle id f).recode = s.recode := rfl
@[simp] theorem State.setKindle_acts (id : Nat) (f : Kindle → Kindle) : (s.setKindle id f).acts = s.acts := rfl
@[simp] theorem State.setKindle_trr (id : Nat) (f : Kindle → Kindle) : (s.setKindle id f).trr = s.trr := rfl
@[simp] theorem State.setKindle_corrected (id : Nat) (f : Kindle → Kindle) : (s.setKindle id f).corrected = s.corrected := rfl
@[simp] theorem State.setKindle_spares (id : Nat) (f : Kindle → Kindle) : (s.setKindle id f).spares = s.spares := rfl
@[simp] theorem State.setKindle_remapDue (id : Nat) (f : Kindle → Kindle) : (s.setKindle id f).remapDue = s.remapDue := rfl
@[simp] theorem State.setKindle_ft (id : Nat) (f : Kindle → Kindle) : (s.setKindle id f).ft = s.ft := rfl
@[simp] theorem State.setKindle_gated (id : Nat) (f : Kindle → Kindle) : (s.setKindle id f).gated = s.gated := rfl
@[simp] theorem State.setKindle_life (id : Nat) (f : Kindle → Kindle) : (s.setKindle id f).life = s.life := rfl
@[simp] theorem State.setKindle_standbyWanted (id : Nat) (f : Kindle → Kindle) : (s.setKindle id f).standbyWanted = s.standbyWanted := rfl
@[simp] theorem State.setKindle_power (id : Nat) (f : Kindle → Kindle) : (s.setKindle id f).power = s.power := rfl
@[simp] theorem State.setKindle_powerWant (id : Nat) (f : Kindle → Kindle) : (s.setKindle id f).powerWant = s.powerWant := rfl
@[simp] theorem State.setKindle_powerNext (id : Nat) (f : Kindle → Kindle) : (s.setKindle id f).powerNext = s.powerNext := rfl
@[simp] theorem State.setKindle_saving (id : Nat) (f : Kindle → Kindle) : (s.setKindle id f).saving = s.saving := rfl
@[simp] theorem State.setKindle_pwrGood (id : Nat) (f : Kindle → Kindle) : (s.setKindle id f).pwrGood = s.pwrGood := rfl
@[simp] theorem State.setKindle_thermTripped (id : Nat) (f : Kindle → Kindle) : (s.setKindle id f).thermTripped = s.thermTripped := rfl
@[simp] theorem State.setKindle_straps (id : Nat) (f : Kindle → Kindle) : (s.setKindle id f).straps = s.straps := rfl
@[simp] theorem State.setKindle_cause (id : Nat) (f : Kindle → Kindle) : (s.setKindle id f).cause = s.cause := rfl
@[simp] theorem State.setKindle_charter (id : Nat) (f : Kindle → Kindle) : (s.setKindle id f).charter = s.charter := rfl
@[simp] theorem State.setKindle_identity (id : Nat) (f : Kindle → Kindle) : (s.setKindle id f).identity = s.identity := rfl
@[simp] theorem State.setKindle_entries (id : Nat) (f : Kindle → Kindle) : (s.setKindle id f).entries = s.entries := rfl
@[simp] theorem State.setKindle_partState (id : Nat) (f : Kindle → Kindle) : (s.setKindle id f).partState = s.partState := rfl
@[simp] theorem State.setKindle_lastLock (id : Nat) (f : Kindle → Kindle) : (s.setKindle id f).lastLock = s.lastLock := rfl
@[simp] theorem State.setKindle_releasing (id : Nat) (f : Kindle → Kindle) : (s.setKindle id f).releasing = s.releasing := rfl
@[simp] theorem State.setKindle_objs (id : Nat) (f : Kindle → Kindle) : (s.setKindle id f).objs = s.objs := rfl
@[simp] theorem State.setKindle_objStage (id : Nat) (f : Kindle → Kindle) : (s.setKindle id f).objStage = s.objStage := rfl
@[simp] theorem State.setKindle_far (id : Nat) (f : Kindle → Kindle) : (s.setKindle id f).far = s.far := rfl
@[simp] theorem State.setKindle_dir (id : Nat) (f : Kindle → Kindle) : (s.setKindle id f).dir = s.dir := rfl
@[simp] theorem State.setKindle_dirGen (id : Nat) (f : Kindle → Kindle) : (s.setKindle id f).dirGen = s.dirGen := rfl
@[simp] theorem State.setKindle_lookup (id : Nat) (f : Kindle → Kindle) : (s.setKindle id f).lookup = s.lookup := rfl
@[simp] theorem State.setKindle_slots (id : Nat) (f : Kindle → Kindle) : (s.setKindle id f).slots = s.slots := rfl
@[simp] theorem State.setKindle_moves (id : Nat) (f : Kindle → Kindle) : (s.setKindle id f).moves = s.moves := rfl
@[simp] theorem State.setKindle_heat (id : Nat) (f : Kindle → Kindle) : (s.setKindle id f).heat = s.heat := rfl
@[simp] theorem State.setKindle_bg (id : Nat) (f : Kindle → Kindle) : (s.setKindle id f).bg = s.bg := rfl
@[simp] theorem State.setKindle_cmds (id : Nat) (f : Kindle → Kindle) : (s.setKindle id f).cmds = s.cmds := rfl
@[simp] theorem State.setKindle_rings (id : Nat) (f : Kindle → Kindle) : (s.setKindle id f).rings = s.rings := rfl
@[simp] theorem State.setKindle_links (id : Nat) (f : Kindle → Kindle) : (s.setKindle id f).links = s.links := rfl
@[simp] theorem State.setKindle_inq (id : Nat) (f : Kindle → Kindle) : (s.setKindle id f).inq = s.inq := rfl
@[simp] theorem State.setKindle_turns (id : Nat) (f : Kindle → Kindle) : (s.setKindle id f).turns = s.turns := rfl
@[simp] theorem State.setKindle_wms (id : Nat) (f : Kindle → Kindle) : (s.setKindle id f).wms = s.wms := rfl
@[simp] theorem State.setKindle_wmLatch (id : Nat) (f : Kindle → Kindle) : (s.setKindle id f).wmLatch = s.wmLatch := rfl
@[simp] theorem State.setKindle_holds (id : Nat) (f : Kindle → Kindle) : (s.setKindle id f).holds = s.holds := rfl
@[simp] theorem State.setKindle_hauls (id : Nat) (f : Kindle → Kindle) : (s.setKindle id f).hauls = s.hauls := rfl
@[simp] theorem State.setKindle_rows (id : Nat) (f : Kindle → Kindle) : (s.setKindle id f).rows = s.rows := rfl
@[simp] theorem State.setKindle_reqs (id : Nat) (f : Kindle → Kindle) : (s.setKindle id f).reqs = s.reqs := rfl
@[simp] theorem State.setKindle_plan (id : Nat) (f : Kindle → Kindle) : (s.setKindle id f).plan = s.plan := rfl
@[simp] theorem State.setKindle_planBase (id : Nat) (f : Kindle → Kindle) : (s.setKindle id f).planBase = s.planBase := rfl
@[simp] theorem State.setKindle_sent (id : Nat) (f : Kindle → Kindle) : (s.setKindle id f).sent = s.sent := rfl
@[simp] theorem State.setKindle_emberNums (id : Nat) (f : Kindle → Kindle) : (s.setKindle id f).emberNums = s.emberNums := rfl
@[simp] theorem State.setKindle_recv (id : Nat) (f : Kindle → Kindle) : (s.setKindle id f).recv = s.recv := rfl
@[simp] theorem State.setKindle_merges (id : Nat) (f : Kindle → Kindle) : (s.setKindle id f).merges = s.merges := rfl
@[simp] theorem State.setKindle_mergesDone (id : Nat) (f : Kindle → Kindle) : (s.setKindle id f).mergesDone = s.mergesDone := rfl
@[simp] theorem State.setKindle_images (id : Nat) (f : Kindle → Kindle) : (s.setKindle id f).images = s.images := rfl
@[simp] theorem State.setKindle_arrayHclk (id : Nat) (f : Kindle → Kindle) : (s.setKindle id f).arrayHclk = s.arrayHclk := rfl
@[simp] theorem State.setKindle_arrayUsed (id : Nat) (f : Kindle → Kindle) : (s.setKindle id f).arrayUsed = s.arrayUsed := rfl
@[simp] theorem State.setKindle_scrub (id : Nat) (f : Kindle → Kindle) : (s.setKindle id f).scrub = s.scrub := rfl
@[simp] theorem State.setKindle_conns (id : Nat) (f : Kindle → Kindle) : (s.setKindle id f).conns = s.conns := rfl
@[simp] theorem State.setKindle_ports (id : Nat) (f : Kindle → Kindle) : (s.setKindle id f).ports = s.ports := rfl
@[simp] theorem State.setKindle_up (id : Nat) (f : Kindle → Kindle) : (s.setKindle id f).up = s.up := rfl
@[simp] theorem State.setKindle_waykeys (id : Nat) (f : Kindle → Kindle) : (s.setKindle id f).waykeys = s.waykeys := rfl
@[simp] theorem State.setKindle_wkLive (id : Nat) (f : Kindle → Kindle) : (s.setKindle id f).wkLive = s.wkLive := rfl
@[simp] theorem State.setKindle_vioLog (id : Nat) (f : Kindle → Kindle) : (s.setKindle id f).vioLog = s.vioLog := rfl
@[simp] theorem State.setKindle_shapers (id : Nat) (f : Kindle → Kindle) : (s.setKindle id f).shapers = s.shapers := rfl
@[simp] theorem State.setKindle_shChanges (id : Nat) (f : Kindle → Kindle) : (s.setKindle id f).shChanges = s.shChanges := rfl
@[simp] theorem State.setKindle_acctPackets (id : Nat) (f : Kindle → Kindle) : (s.setKindle id f).acctPackets = s.acctPackets := rfl
@[simp] theorem State.setKindle_drrs (id : Nat) (f : Kindle → Kindle) : (s.setKindle id f).drrs = s.drrs := rfl
@[simp] theorem State.setKindle_replies (id : Nat) (f : Kindle → Kindle) : (s.setKindle id f).replies = s.replies := rfl
@[simp] theorem State.setKindle_attest (id : Nat) (f : Kindle → Kindle) : (s.setKindle id f).attest = s.attest := rfl
@[simp] theorem State.setKindle_meters (id : Nat) (f : Kindle → Kindle) : (s.setKindle id f).meters = s.meters := rfl
@[simp] theorem State.setKindle_staging (id : Nat) (f : Kindle → Kindle) : (s.setKindle id f).staging = s.staging := rfl
@[simp] theorem State.setKindle_probe (id : Nat) (f : Kindle → Kindle) : (s.setKindle id f).probe = s.probe := rfl
@[simp] theorem State.setKindle_fenceRec (id : Nat) (f : Kindle → Kindle) : (s.setKindle id f).fenceRec = s.fenceRec := rfl
@[simp] theorem State.setKindle_suspects (id : Nat) (f : Kindle → Kindle) : (s.setKindle id f).suspects = s.suspects := rfl
@[simp] theorem State.setKindle_sharedFaults (id : Nat) (f : Kindle → Kindle) : (s.setKindle id f).sharedFaults = s.sharedFaults := rfl
@[simp] theorem State.setKindle_flits (id : Nat) (f : Kindle → Kindle) : (s.setKindle id f).flits = s.flits := rfl
@[simp] theorem State.setKindle_wdogValue (id : Nat) (f : Kindle → Kindle) : (s.setKindle id f).wdogValue = s.wdogValue := rfl
@[simp] theorem State.setKindle_wdogAt (id : Nat) (f : Kindle → Kindle) : (s.setKindle id f).wdogAt = s.wdogAt := rfl
@[simp] theorem State.setKindle_rebuilds (id : Nat) (f : Kindle → Kindle) : (s.setKindle id f).rebuilds = s.rebuilds := rfl
@[simp] theorem State.setKindle_forwards (id : Nat) (f : Kindle → Kindle) : (s.setKindle id f).forwards = s.forwards := rfl
@[simp] theorem State.setKindle_lodge (id : Nat) (f : Kindle → Kindle) : (s.setKindle id f).lodge = s.lodge := rfl
@[simp] theorem State.setKindle_resets (id : Nat) (f : Kindle → Kindle) : (s.setKindle id f).resets = s.resets := rfl
@[simp] theorem State.setKindle_engResets (id : Nat) (f : Kindle → Kindle) : (s.setKindle id f).engResets = s.engResets := rfl
@[simp] theorem State.setKindle_flash (id : Nat) (f : Kindle → Kindle) : (s.setKindle id f).flash = s.flash := rfl
@[simp] theorem State.setKindle_repairDirty (id : Nat) (f : Kindle → Kindle) : (s.setKindle id f).repairDirty = s.repairDirty := rfl
@[simp] theorem State.setKindle_mpeers (id : Nat) (f : Kindle → Kindle) : (s.setKindle id f).mpeers = s.mpeers := rfl
@[simp] theorem State.setKindle_mgmt (id : Nat) (f : Kindle → Kindle) : (s.setKindle id f).mgmt = s.mgmt := rfl
@[simp] theorem State.setKindle_rcvWriting (id : Nat) (f : Kindle → Kindle) : (s.setKindle id f).rcvWriting = s.rcvWriting := rfl
@[simp] theorem State.setKindle_i3c (id : Nat) (f : Kindle → Kindle) : (s.setKindle id f).i3c = s.i3c := rfl
@[simp] theorem State.setKindle_therm (id : Nat) (f : Kindle → Kindle) : (s.setKindle id f).therm = s.therm := rfl
@[simp] theorem State.setKindle_volt (id : Nat) (f : Kindle → Kindle) : (s.setKindle id f).volt = s.volt := rfl
@[simp] theorem State.setKindle_jtag (id : Nat) (f : Kindle → Kindle) : (s.setKindle id f).jtag = s.jtag := rfl

/-! `State.setHaul`. -/

@[simp] theorem State.setHaul_pending (id : Nat) (f : Haul → Haul) : (s.setHaul id f).pending = s.pending := rfl
@[simp] theorem State.setHaul_out (id : Nat) (f : Haul → Haul) : (s.setHaul id f).out = s.out := rfl
@[simp] theorem State.setHaul_draws (id : Nat) (f : Haul → Haul) : (s.setHaul id f).draws = s.draws := rfl
@[simp] theorem State.setHaul_nextId (id : Nat) (f : Haul → Haul) : (s.setHaul id f).nextId = s.nextId := rfl
@[simp] theorem State.setHaul_posted (id : Nat) (f : Haul → Haul) : (s.setHaul id f).posted = s.posted := rfl
@[simp] theorem State.setHaul_regs (id : Nat) (f : Haul → Haul) : (s.setHaul id f).regs = s.regs := rfl
@[simp] theorem State.setHaul_mem (id : Nat) (f : Haul → Haul) : (s.setHaul id f).mem = s.mem := rfl
@[simp] theorem State.setHaul_stale (id : Nat) (f : Haul → Haul) : (s.setHaul id f).stale = s.stale := rfl
@[simp] theorem State.setHaul_ecc (id : Nat) (f : Haul → Haul) : (s.setHaul id f).ecc = s.ecc := rfl
@[simp] theorem State.setHaul_scratch (id : Nat) (f : Haul → Haul) : (s.setHaul id f).scratch = s.scratch := rfl
@[simp] theorem State.setHaul_scratchEcc (id : Nat) (f : Haul → Haul) : (s.setHaul id f).scratchEcc = s.scratchEcc := rfl
@[simp] theorem State.setHaul_arbs (id : Nat) (f : Haul → Haul) : (s.setHaul id f).arbs = s.arbs := rfl
@[simp] theorem State.setHaul_recode (id : Nat) (f : Haul → Haul) : (s.setHaul id f).recode = s.recode := rfl
@[simp] theorem State.setHaul_acts (id : Nat) (f : Haul → Haul) : (s.setHaul id f).acts = s.acts := rfl
@[simp] theorem State.setHaul_trr (id : Nat) (f : Haul → Haul) : (s.setHaul id f).trr = s.trr := rfl
@[simp] theorem State.setHaul_corrected (id : Nat) (f : Haul → Haul) : (s.setHaul id f).corrected = s.corrected := rfl
@[simp] theorem State.setHaul_spares (id : Nat) (f : Haul → Haul) : (s.setHaul id f).spares = s.spares := rfl
@[simp] theorem State.setHaul_remapDue (id : Nat) (f : Haul → Haul) : (s.setHaul id f).remapDue = s.remapDue := rfl
@[simp] theorem State.setHaul_ft (id : Nat) (f : Haul → Haul) : (s.setHaul id f).ft = s.ft := rfl
@[simp] theorem State.setHaul_gated (id : Nat) (f : Haul → Haul) : (s.setHaul id f).gated = s.gated := rfl
@[simp] theorem State.setHaul_life (id : Nat) (f : Haul → Haul) : (s.setHaul id f).life = s.life := rfl
@[simp] theorem State.setHaul_standbyWanted (id : Nat) (f : Haul → Haul) : (s.setHaul id f).standbyWanted = s.standbyWanted := rfl
@[simp] theorem State.setHaul_power (id : Nat) (f : Haul → Haul) : (s.setHaul id f).power = s.power := rfl
@[simp] theorem State.setHaul_powerWant (id : Nat) (f : Haul → Haul) : (s.setHaul id f).powerWant = s.powerWant := rfl
@[simp] theorem State.setHaul_powerNext (id : Nat) (f : Haul → Haul) : (s.setHaul id f).powerNext = s.powerNext := rfl
@[simp] theorem State.setHaul_saving (id : Nat) (f : Haul → Haul) : (s.setHaul id f).saving = s.saving := rfl
@[simp] theorem State.setHaul_pwrGood (id : Nat) (f : Haul → Haul) : (s.setHaul id f).pwrGood = s.pwrGood := rfl
@[simp] theorem State.setHaul_thermTripped (id : Nat) (f : Haul → Haul) : (s.setHaul id f).thermTripped = s.thermTripped := rfl
@[simp] theorem State.setHaul_straps (id : Nat) (f : Haul → Haul) : (s.setHaul id f).straps = s.straps := rfl
@[simp] theorem State.setHaul_cause (id : Nat) (f : Haul → Haul) : (s.setHaul id f).cause = s.cause := rfl
@[simp] theorem State.setHaul_charter (id : Nat) (f : Haul → Haul) : (s.setHaul id f).charter = s.charter := rfl
@[simp] theorem State.setHaul_identity (id : Nat) (f : Haul → Haul) : (s.setHaul id f).identity = s.identity := rfl
@[simp] theorem State.setHaul_entries (id : Nat) (f : Haul → Haul) : (s.setHaul id f).entries = s.entries := rfl
@[simp] theorem State.setHaul_partState (id : Nat) (f : Haul → Haul) : (s.setHaul id f).partState = s.partState := rfl
@[simp] theorem State.setHaul_lastLock (id : Nat) (f : Haul → Haul) : (s.setHaul id f).lastLock = s.lastLock := rfl
@[simp] theorem State.setHaul_releasing (id : Nat) (f : Haul → Haul) : (s.setHaul id f).releasing = s.releasing := rfl
@[simp] theorem State.setHaul_objs (id : Nat) (f : Haul → Haul) : (s.setHaul id f).objs = s.objs := rfl
@[simp] theorem State.setHaul_objStage (id : Nat) (f : Haul → Haul) : (s.setHaul id f).objStage = s.objStage := rfl
@[simp] theorem State.setHaul_far (id : Nat) (f : Haul → Haul) : (s.setHaul id f).far = s.far := rfl
@[simp] theorem State.setHaul_dir (id : Nat) (f : Haul → Haul) : (s.setHaul id f).dir = s.dir := rfl
@[simp] theorem State.setHaul_dirGen (id : Nat) (f : Haul → Haul) : (s.setHaul id f).dirGen = s.dirGen := rfl
@[simp] theorem State.setHaul_lookup (id : Nat) (f : Haul → Haul) : (s.setHaul id f).lookup = s.lookup := rfl
@[simp] theorem State.setHaul_slots (id : Nat) (f : Haul → Haul) : (s.setHaul id f).slots = s.slots := rfl
@[simp] theorem State.setHaul_moves (id : Nat) (f : Haul → Haul) : (s.setHaul id f).moves = s.moves := rfl
@[simp] theorem State.setHaul_heat (id : Nat) (f : Haul → Haul) : (s.setHaul id f).heat = s.heat := rfl
@[simp] theorem State.setHaul_bg (id : Nat) (f : Haul → Haul) : (s.setHaul id f).bg = s.bg := rfl
@[simp] theorem State.setHaul_cmds (id : Nat) (f : Haul → Haul) : (s.setHaul id f).cmds = s.cmds := rfl
@[simp] theorem State.setHaul_rings (id : Nat) (f : Haul → Haul) : (s.setHaul id f).rings = s.rings := rfl
@[simp] theorem State.setHaul_links (id : Nat) (f : Haul → Haul) : (s.setHaul id f).links = s.links := rfl
@[simp] theorem State.setHaul_inq (id : Nat) (f : Haul → Haul) : (s.setHaul id f).inq = s.inq := rfl
@[simp] theorem State.setHaul_turns (id : Nat) (f : Haul → Haul) : (s.setHaul id f).turns = s.turns := rfl
@[simp] theorem State.setHaul_wms (id : Nat) (f : Haul → Haul) : (s.setHaul id f).wms = s.wms := rfl
@[simp] theorem State.setHaul_wmLatch (id : Nat) (f : Haul → Haul) : (s.setHaul id f).wmLatch = s.wmLatch := rfl
@[simp] theorem State.setHaul_holds (id : Nat) (f : Haul → Haul) : (s.setHaul id f).holds = s.holds := rfl
@[simp] theorem State.setHaul_rows (id : Nat) (f : Haul → Haul) : (s.setHaul id f).rows = s.rows := rfl
@[simp] theorem State.setHaul_reqs (id : Nat) (f : Haul → Haul) : (s.setHaul id f).reqs = s.reqs := rfl
@[simp] theorem State.setHaul_plan (id : Nat) (f : Haul → Haul) : (s.setHaul id f).plan = s.plan := rfl
@[simp] theorem State.setHaul_planBase (id : Nat) (f : Haul → Haul) : (s.setHaul id f).planBase = s.planBase := rfl
@[simp] theorem State.setHaul_sent (id : Nat) (f : Haul → Haul) : (s.setHaul id f).sent = s.sent := rfl
@[simp] theorem State.setHaul_emberNums (id : Nat) (f : Haul → Haul) : (s.setHaul id f).emberNums = s.emberNums := rfl
@[simp] theorem State.setHaul_recv (id : Nat) (f : Haul → Haul) : (s.setHaul id f).recv = s.recv := rfl
@[simp] theorem State.setHaul_merges (id : Nat) (f : Haul → Haul) : (s.setHaul id f).merges = s.merges := rfl
@[simp] theorem State.setHaul_mergesDone (id : Nat) (f : Haul → Haul) : (s.setHaul id f).mergesDone = s.mergesDone := rfl
@[simp] theorem State.setHaul_images (id : Nat) (f : Haul → Haul) : (s.setHaul id f).images = s.images := rfl
@[simp] theorem State.setHaul_kindles (id : Nat) (f : Haul → Haul) : (s.setHaul id f).kindles = s.kindles := rfl
@[simp] theorem State.setHaul_arrayHclk (id : Nat) (f : Haul → Haul) : (s.setHaul id f).arrayHclk = s.arrayHclk := rfl
@[simp] theorem State.setHaul_arrayUsed (id : Nat) (f : Haul → Haul) : (s.setHaul id f).arrayUsed = s.arrayUsed := rfl
@[simp] theorem State.setHaul_scrub (id : Nat) (f : Haul → Haul) : (s.setHaul id f).scrub = s.scrub := rfl
@[simp] theorem State.setHaul_conns (id : Nat) (f : Haul → Haul) : (s.setHaul id f).conns = s.conns := rfl
@[simp] theorem State.setHaul_ports (id : Nat) (f : Haul → Haul) : (s.setHaul id f).ports = s.ports := rfl
@[simp] theorem State.setHaul_up (id : Nat) (f : Haul → Haul) : (s.setHaul id f).up = s.up := rfl
@[simp] theorem State.setHaul_waykeys (id : Nat) (f : Haul → Haul) : (s.setHaul id f).waykeys = s.waykeys := rfl
@[simp] theorem State.setHaul_wkLive (id : Nat) (f : Haul → Haul) : (s.setHaul id f).wkLive = s.wkLive := rfl
@[simp] theorem State.setHaul_vioLog (id : Nat) (f : Haul → Haul) : (s.setHaul id f).vioLog = s.vioLog := rfl
@[simp] theorem State.setHaul_shapers (id : Nat) (f : Haul → Haul) : (s.setHaul id f).shapers = s.shapers := rfl
@[simp] theorem State.setHaul_shChanges (id : Nat) (f : Haul → Haul) : (s.setHaul id f).shChanges = s.shChanges := rfl
@[simp] theorem State.setHaul_acctPackets (id : Nat) (f : Haul → Haul) : (s.setHaul id f).acctPackets = s.acctPackets := rfl
@[simp] theorem State.setHaul_drrs (id : Nat) (f : Haul → Haul) : (s.setHaul id f).drrs = s.drrs := rfl
@[simp] theorem State.setHaul_replies (id : Nat) (f : Haul → Haul) : (s.setHaul id f).replies = s.replies := rfl
@[simp] theorem State.setHaul_attest (id : Nat) (f : Haul → Haul) : (s.setHaul id f).attest = s.attest := rfl
@[simp] theorem State.setHaul_meters (id : Nat) (f : Haul → Haul) : (s.setHaul id f).meters = s.meters := rfl
@[simp] theorem State.setHaul_staging (id : Nat) (f : Haul → Haul) : (s.setHaul id f).staging = s.staging := rfl
@[simp] theorem State.setHaul_probe (id : Nat) (f : Haul → Haul) : (s.setHaul id f).probe = s.probe := rfl
@[simp] theorem State.setHaul_fenceRec (id : Nat) (f : Haul → Haul) : (s.setHaul id f).fenceRec = s.fenceRec := rfl
@[simp] theorem State.setHaul_suspects (id : Nat) (f : Haul → Haul) : (s.setHaul id f).suspects = s.suspects := rfl
@[simp] theorem State.setHaul_sharedFaults (id : Nat) (f : Haul → Haul) : (s.setHaul id f).sharedFaults = s.sharedFaults := rfl
@[simp] theorem State.setHaul_flits (id : Nat) (f : Haul → Haul) : (s.setHaul id f).flits = s.flits := rfl
@[simp] theorem State.setHaul_wdogValue (id : Nat) (f : Haul → Haul) : (s.setHaul id f).wdogValue = s.wdogValue := rfl
@[simp] theorem State.setHaul_wdogAt (id : Nat) (f : Haul → Haul) : (s.setHaul id f).wdogAt = s.wdogAt := rfl
@[simp] theorem State.setHaul_rebuilds (id : Nat) (f : Haul → Haul) : (s.setHaul id f).rebuilds = s.rebuilds := rfl
@[simp] theorem State.setHaul_forwards (id : Nat) (f : Haul → Haul) : (s.setHaul id f).forwards = s.forwards := rfl
@[simp] theorem State.setHaul_lodge (id : Nat) (f : Haul → Haul) : (s.setHaul id f).lodge = s.lodge := rfl
@[simp] theorem State.setHaul_resets (id : Nat) (f : Haul → Haul) : (s.setHaul id f).resets = s.resets := rfl
@[simp] theorem State.setHaul_engResets (id : Nat) (f : Haul → Haul) : (s.setHaul id f).engResets = s.engResets := rfl
@[simp] theorem State.setHaul_flash (id : Nat) (f : Haul → Haul) : (s.setHaul id f).flash = s.flash := rfl
@[simp] theorem State.setHaul_repairDirty (id : Nat) (f : Haul → Haul) : (s.setHaul id f).repairDirty = s.repairDirty := rfl
@[simp] theorem State.setHaul_mpeers (id : Nat) (f : Haul → Haul) : (s.setHaul id f).mpeers = s.mpeers := rfl
@[simp] theorem State.setHaul_mgmt (id : Nat) (f : Haul → Haul) : (s.setHaul id f).mgmt = s.mgmt := rfl
@[simp] theorem State.setHaul_rcvWriting (id : Nat) (f : Haul → Haul) : (s.setHaul id f).rcvWriting = s.rcvWriting := rfl
@[simp] theorem State.setHaul_i3c (id : Nat) (f : Haul → Haul) : (s.setHaul id f).i3c = s.i3c := rfl
@[simp] theorem State.setHaul_therm (id : Nat) (f : Haul → Haul) : (s.setHaul id f).therm = s.therm := rfl
@[simp] theorem State.setHaul_volt (id : Nat) (f : Haul → Haul) : (s.setHaul id f).volt = s.volt := rfl
@[simp] theorem State.setHaul_jtag (id : Nat) (f : Haul → Haul) : (s.setHaul id f).jtag = s.jtag := rfl

/-! `State.setDir`. -/

@[simp] theorem State.setDir_pending (k : DirKey) (f : Dir → Dir) : (s.setDir k f).pending = s.pending := rfl
@[simp] theorem State.setDir_out (k : DirKey) (f : Dir → Dir) : (s.setDir k f).out = s.out := rfl
@[simp] theorem State.setDir_draws (k : DirKey) (f : Dir → Dir) : (s.setDir k f).draws = s.draws := rfl
@[simp] theorem State.setDir_nextId (k : DirKey) (f : Dir → Dir) : (s.setDir k f).nextId = s.nextId := rfl
@[simp] theorem State.setDir_posted (k : DirKey) (f : Dir → Dir) : (s.setDir k f).posted = s.posted := rfl
@[simp] theorem State.setDir_regs (k : DirKey) (f : Dir → Dir) : (s.setDir k f).regs = s.regs := rfl
@[simp] theorem State.setDir_mem (k : DirKey) (f : Dir → Dir) : (s.setDir k f).mem = s.mem := rfl
@[simp] theorem State.setDir_stale (k : DirKey) (f : Dir → Dir) : (s.setDir k f).stale = s.stale := rfl
@[simp] theorem State.setDir_ecc (k : DirKey) (f : Dir → Dir) : (s.setDir k f).ecc = s.ecc := rfl
@[simp] theorem State.setDir_scratch (k : DirKey) (f : Dir → Dir) : (s.setDir k f).scratch = s.scratch := rfl
@[simp] theorem State.setDir_scratchEcc (k : DirKey) (f : Dir → Dir) : (s.setDir k f).scratchEcc = s.scratchEcc := rfl
@[simp] theorem State.setDir_arbs (k : DirKey) (f : Dir → Dir) : (s.setDir k f).arbs = s.arbs := rfl
@[simp] theorem State.setDir_recode (k : DirKey) (f : Dir → Dir) : (s.setDir k f).recode = s.recode := rfl
@[simp] theorem State.setDir_acts (k : DirKey) (f : Dir → Dir) : (s.setDir k f).acts = s.acts := rfl
@[simp] theorem State.setDir_trr (k : DirKey) (f : Dir → Dir) : (s.setDir k f).trr = s.trr := rfl
@[simp] theorem State.setDir_corrected (k : DirKey) (f : Dir → Dir) : (s.setDir k f).corrected = s.corrected := rfl
@[simp] theorem State.setDir_spares (k : DirKey) (f : Dir → Dir) : (s.setDir k f).spares = s.spares := rfl
@[simp] theorem State.setDir_remapDue (k : DirKey) (f : Dir → Dir) : (s.setDir k f).remapDue = s.remapDue := rfl
@[simp] theorem State.setDir_ft (k : DirKey) (f : Dir → Dir) : (s.setDir k f).ft = s.ft := rfl
@[simp] theorem State.setDir_gated (k : DirKey) (f : Dir → Dir) : (s.setDir k f).gated = s.gated := rfl
@[simp] theorem State.setDir_life (k : DirKey) (f : Dir → Dir) : (s.setDir k f).life = s.life := rfl
@[simp] theorem State.setDir_standbyWanted (k : DirKey) (f : Dir → Dir) : (s.setDir k f).standbyWanted = s.standbyWanted := rfl
@[simp] theorem State.setDir_power (k : DirKey) (f : Dir → Dir) : (s.setDir k f).power = s.power := rfl
@[simp] theorem State.setDir_powerWant (k : DirKey) (f : Dir → Dir) : (s.setDir k f).powerWant = s.powerWant := rfl
@[simp] theorem State.setDir_powerNext (k : DirKey) (f : Dir → Dir) : (s.setDir k f).powerNext = s.powerNext := rfl
@[simp] theorem State.setDir_saving (k : DirKey) (f : Dir → Dir) : (s.setDir k f).saving = s.saving := rfl
@[simp] theorem State.setDir_pwrGood (k : DirKey) (f : Dir → Dir) : (s.setDir k f).pwrGood = s.pwrGood := rfl
@[simp] theorem State.setDir_thermTripped (k : DirKey) (f : Dir → Dir) : (s.setDir k f).thermTripped = s.thermTripped := rfl
@[simp] theorem State.setDir_straps (k : DirKey) (f : Dir → Dir) : (s.setDir k f).straps = s.straps := rfl
@[simp] theorem State.setDir_cause (k : DirKey) (f : Dir → Dir) : (s.setDir k f).cause = s.cause := rfl
@[simp] theorem State.setDir_charter (k : DirKey) (f : Dir → Dir) : (s.setDir k f).charter = s.charter := rfl
@[simp] theorem State.setDir_identity (k : DirKey) (f : Dir → Dir) : (s.setDir k f).identity = s.identity := rfl
@[simp] theorem State.setDir_entries (k : DirKey) (f : Dir → Dir) : (s.setDir k f).entries = s.entries := rfl
@[simp] theorem State.setDir_partState (k : DirKey) (f : Dir → Dir) : (s.setDir k f).partState = s.partState := rfl
@[simp] theorem State.setDir_lastLock (k : DirKey) (f : Dir → Dir) : (s.setDir k f).lastLock = s.lastLock := rfl
@[simp] theorem State.setDir_releasing (k : DirKey) (f : Dir → Dir) : (s.setDir k f).releasing = s.releasing := rfl
@[simp] theorem State.setDir_objs (k : DirKey) (f : Dir → Dir) : (s.setDir k f).objs = s.objs := rfl
@[simp] theorem State.setDir_objStage (k : DirKey) (f : Dir → Dir) : (s.setDir k f).objStage = s.objStage := rfl
@[simp] theorem State.setDir_far (k : DirKey) (f : Dir → Dir) : (s.setDir k f).far = s.far := rfl
@[simp] theorem State.setDir_dirGen (k : DirKey) (f : Dir → Dir) : (s.setDir k f).dirGen = s.dirGen := rfl
@[simp] theorem State.setDir_lookup (k : DirKey) (f : Dir → Dir) : (s.setDir k f).lookup = s.lookup := rfl
@[simp] theorem State.setDir_slots (k : DirKey) (f : Dir → Dir) : (s.setDir k f).slots = s.slots := rfl
@[simp] theorem State.setDir_moves (k : DirKey) (f : Dir → Dir) : (s.setDir k f).moves = s.moves := rfl
@[simp] theorem State.setDir_heat (k : DirKey) (f : Dir → Dir) : (s.setDir k f).heat = s.heat := rfl
@[simp] theorem State.setDir_bg (k : DirKey) (f : Dir → Dir) : (s.setDir k f).bg = s.bg := rfl
@[simp] theorem State.setDir_cmds (k : DirKey) (f : Dir → Dir) : (s.setDir k f).cmds = s.cmds := rfl
@[simp] theorem State.setDir_rings (k : DirKey) (f : Dir → Dir) : (s.setDir k f).rings = s.rings := rfl
@[simp] theorem State.setDir_links (k : DirKey) (f : Dir → Dir) : (s.setDir k f).links = s.links := rfl
@[simp] theorem State.setDir_inq (k : DirKey) (f : Dir → Dir) : (s.setDir k f).inq = s.inq := rfl
@[simp] theorem State.setDir_turns (k : DirKey) (f : Dir → Dir) : (s.setDir k f).turns = s.turns := rfl
@[simp] theorem State.setDir_wms (k : DirKey) (f : Dir → Dir) : (s.setDir k f).wms = s.wms := rfl
@[simp] theorem State.setDir_wmLatch (k : DirKey) (f : Dir → Dir) : (s.setDir k f).wmLatch = s.wmLatch := rfl
@[simp] theorem State.setDir_holds (k : DirKey) (f : Dir → Dir) : (s.setDir k f).holds = s.holds := rfl
@[simp] theorem State.setDir_hauls (k : DirKey) (f : Dir → Dir) : (s.setDir k f).hauls = s.hauls := rfl
@[simp] theorem State.setDir_rows (k : DirKey) (f : Dir → Dir) : (s.setDir k f).rows = s.rows := rfl
@[simp] theorem State.setDir_reqs (k : DirKey) (f : Dir → Dir) : (s.setDir k f).reqs = s.reqs := rfl
@[simp] theorem State.setDir_plan (k : DirKey) (f : Dir → Dir) : (s.setDir k f).plan = s.plan := rfl
@[simp] theorem State.setDir_planBase (k : DirKey) (f : Dir → Dir) : (s.setDir k f).planBase = s.planBase := rfl
@[simp] theorem State.setDir_sent (k : DirKey) (f : Dir → Dir) : (s.setDir k f).sent = s.sent := rfl
@[simp] theorem State.setDir_emberNums (k : DirKey) (f : Dir → Dir) : (s.setDir k f).emberNums = s.emberNums := rfl
@[simp] theorem State.setDir_recv (k : DirKey) (f : Dir → Dir) : (s.setDir k f).recv = s.recv := rfl
@[simp] theorem State.setDir_merges (k : DirKey) (f : Dir → Dir) : (s.setDir k f).merges = s.merges := rfl
@[simp] theorem State.setDir_mergesDone (k : DirKey) (f : Dir → Dir) : (s.setDir k f).mergesDone = s.mergesDone := rfl
@[simp] theorem State.setDir_images (k : DirKey) (f : Dir → Dir) : (s.setDir k f).images = s.images := rfl
@[simp] theorem State.setDir_kindles (k : DirKey) (f : Dir → Dir) : (s.setDir k f).kindles = s.kindles := rfl
@[simp] theorem State.setDir_arrayHclk (k : DirKey) (f : Dir → Dir) : (s.setDir k f).arrayHclk = s.arrayHclk := rfl
@[simp] theorem State.setDir_arrayUsed (k : DirKey) (f : Dir → Dir) : (s.setDir k f).arrayUsed = s.arrayUsed := rfl
@[simp] theorem State.setDir_scrub (k : DirKey) (f : Dir → Dir) : (s.setDir k f).scrub = s.scrub := rfl
@[simp] theorem State.setDir_conns (k : DirKey) (f : Dir → Dir) : (s.setDir k f).conns = s.conns := rfl
@[simp] theorem State.setDir_ports (k : DirKey) (f : Dir → Dir) : (s.setDir k f).ports = s.ports := rfl
@[simp] theorem State.setDir_up (k : DirKey) (f : Dir → Dir) : (s.setDir k f).up = s.up := rfl
@[simp] theorem State.setDir_waykeys (k : DirKey) (f : Dir → Dir) : (s.setDir k f).waykeys = s.waykeys := rfl
@[simp] theorem State.setDir_wkLive (k : DirKey) (f : Dir → Dir) : (s.setDir k f).wkLive = s.wkLive := rfl
@[simp] theorem State.setDir_vioLog (k : DirKey) (f : Dir → Dir) : (s.setDir k f).vioLog = s.vioLog := rfl
@[simp] theorem State.setDir_shapers (k : DirKey) (f : Dir → Dir) : (s.setDir k f).shapers = s.shapers := rfl
@[simp] theorem State.setDir_shChanges (k : DirKey) (f : Dir → Dir) : (s.setDir k f).shChanges = s.shChanges := rfl
@[simp] theorem State.setDir_acctPackets (k : DirKey) (f : Dir → Dir) : (s.setDir k f).acctPackets = s.acctPackets := rfl
@[simp] theorem State.setDir_drrs (k : DirKey) (f : Dir → Dir) : (s.setDir k f).drrs = s.drrs := rfl
@[simp] theorem State.setDir_replies (k : DirKey) (f : Dir → Dir) : (s.setDir k f).replies = s.replies := rfl
@[simp] theorem State.setDir_attest (k : DirKey) (f : Dir → Dir) : (s.setDir k f).attest = s.attest := rfl
@[simp] theorem State.setDir_meters (k : DirKey) (f : Dir → Dir) : (s.setDir k f).meters = s.meters := rfl
@[simp] theorem State.setDir_staging (k : DirKey) (f : Dir → Dir) : (s.setDir k f).staging = s.staging := rfl
@[simp] theorem State.setDir_probe (k : DirKey) (f : Dir → Dir) : (s.setDir k f).probe = s.probe := rfl
@[simp] theorem State.setDir_fenceRec (k : DirKey) (f : Dir → Dir) : (s.setDir k f).fenceRec = s.fenceRec := rfl
@[simp] theorem State.setDir_suspects (k : DirKey) (f : Dir → Dir) : (s.setDir k f).suspects = s.suspects := rfl
@[simp] theorem State.setDir_sharedFaults (k : DirKey) (f : Dir → Dir) : (s.setDir k f).sharedFaults = s.sharedFaults := rfl
@[simp] theorem State.setDir_flits (k : DirKey) (f : Dir → Dir) : (s.setDir k f).flits = s.flits := rfl
@[simp] theorem State.setDir_wdogValue (k : DirKey) (f : Dir → Dir) : (s.setDir k f).wdogValue = s.wdogValue := rfl
@[simp] theorem State.setDir_wdogAt (k : DirKey) (f : Dir → Dir) : (s.setDir k f).wdogAt = s.wdogAt := rfl
@[simp] theorem State.setDir_rebuilds (k : DirKey) (f : Dir → Dir) : (s.setDir k f).rebuilds = s.rebuilds := rfl
@[simp] theorem State.setDir_forwards (k : DirKey) (f : Dir → Dir) : (s.setDir k f).forwards = s.forwards := rfl
@[simp] theorem State.setDir_lodge (k : DirKey) (f : Dir → Dir) : (s.setDir k f).lodge = s.lodge := rfl
@[simp] theorem State.setDir_resets (k : DirKey) (f : Dir → Dir) : (s.setDir k f).resets = s.resets := rfl
@[simp] theorem State.setDir_engResets (k : DirKey) (f : Dir → Dir) : (s.setDir k f).engResets = s.engResets := rfl
@[simp] theorem State.setDir_flash (k : DirKey) (f : Dir → Dir) : (s.setDir k f).flash = s.flash := rfl
@[simp] theorem State.setDir_repairDirty (k : DirKey) (f : Dir → Dir) : (s.setDir k f).repairDirty = s.repairDirty := rfl
@[simp] theorem State.setDir_mpeers (k : DirKey) (f : Dir → Dir) : (s.setDir k f).mpeers = s.mpeers := rfl
@[simp] theorem State.setDir_mgmt (k : DirKey) (f : Dir → Dir) : (s.setDir k f).mgmt = s.mgmt := rfl
@[simp] theorem State.setDir_rcvWriting (k : DirKey) (f : Dir → Dir) : (s.setDir k f).rcvWriting = s.rcvWriting := rfl
@[simp] theorem State.setDir_i3c (k : DirKey) (f : Dir → Dir) : (s.setDir k f).i3c = s.i3c := rfl
@[simp] theorem State.setDir_therm (k : DirKey) (f : Dir → Dir) : (s.setDir k f).therm = s.therm := rfl
@[simp] theorem State.setDir_volt (k : DirKey) (f : Dir → Dir) : (s.setDir k f).volt = s.volt := rfl
@[simp] theorem State.setDir_jtag (k : DirKey) (f : Dir → Dir) : (s.setDir k f).jtag = s.jtag := rfl

/-! `State.setConn`. -/

@[simp] theorem State.setConn_pending (i : Nat) (c : Conn) : (s.setConn i c).pending = s.pending := rfl
@[simp] theorem State.setConn_out (i : Nat) (c : Conn) : (s.setConn i c).out = s.out := rfl
@[simp] theorem State.setConn_draws (i : Nat) (c : Conn) : (s.setConn i c).draws = s.draws := rfl
@[simp] theorem State.setConn_nextId (i : Nat) (c : Conn) : (s.setConn i c).nextId = s.nextId := rfl
@[simp] theorem State.setConn_posted (i : Nat) (c : Conn) : (s.setConn i c).posted = s.posted := rfl
@[simp] theorem State.setConn_regs (i : Nat) (c : Conn) : (s.setConn i c).regs = s.regs := rfl
@[simp] theorem State.setConn_mem (i : Nat) (c : Conn) : (s.setConn i c).mem = s.mem := rfl
@[simp] theorem State.setConn_stale (i : Nat) (c : Conn) : (s.setConn i c).stale = s.stale := rfl
@[simp] theorem State.setConn_ecc (i : Nat) (c : Conn) : (s.setConn i c).ecc = s.ecc := rfl
@[simp] theorem State.setConn_scratch (i : Nat) (c : Conn) : (s.setConn i c).scratch = s.scratch := rfl
@[simp] theorem State.setConn_scratchEcc (i : Nat) (c : Conn) : (s.setConn i c).scratchEcc = s.scratchEcc := rfl
@[simp] theorem State.setConn_arbs (i : Nat) (c : Conn) : (s.setConn i c).arbs = s.arbs := rfl
@[simp] theorem State.setConn_recode (i : Nat) (c : Conn) : (s.setConn i c).recode = s.recode := rfl
@[simp] theorem State.setConn_acts (i : Nat) (c : Conn) : (s.setConn i c).acts = s.acts := rfl
@[simp] theorem State.setConn_trr (i : Nat) (c : Conn) : (s.setConn i c).trr = s.trr := rfl
@[simp] theorem State.setConn_corrected (i : Nat) (c : Conn) : (s.setConn i c).corrected = s.corrected := rfl
@[simp] theorem State.setConn_spares (i : Nat) (c : Conn) : (s.setConn i c).spares = s.spares := rfl
@[simp] theorem State.setConn_remapDue (i : Nat) (c : Conn) : (s.setConn i c).remapDue = s.remapDue := rfl
@[simp] theorem State.setConn_ft (i : Nat) (c : Conn) : (s.setConn i c).ft = s.ft := rfl
@[simp] theorem State.setConn_gated (i : Nat) (c : Conn) : (s.setConn i c).gated = s.gated := rfl
@[simp] theorem State.setConn_life (i : Nat) (c : Conn) : (s.setConn i c).life = s.life := rfl
@[simp] theorem State.setConn_standbyWanted (i : Nat) (c : Conn) : (s.setConn i c).standbyWanted = s.standbyWanted := rfl
@[simp] theorem State.setConn_power (i : Nat) (c : Conn) : (s.setConn i c).power = s.power := rfl
@[simp] theorem State.setConn_powerWant (i : Nat) (c : Conn) : (s.setConn i c).powerWant = s.powerWant := rfl
@[simp] theorem State.setConn_powerNext (i : Nat) (c : Conn) : (s.setConn i c).powerNext = s.powerNext := rfl
@[simp] theorem State.setConn_saving (i : Nat) (c : Conn) : (s.setConn i c).saving = s.saving := rfl
@[simp] theorem State.setConn_pwrGood (i : Nat) (c : Conn) : (s.setConn i c).pwrGood = s.pwrGood := rfl
@[simp] theorem State.setConn_thermTripped (i : Nat) (c : Conn) : (s.setConn i c).thermTripped = s.thermTripped := rfl
@[simp] theorem State.setConn_straps (i : Nat) (c : Conn) : (s.setConn i c).straps = s.straps := rfl
@[simp] theorem State.setConn_cause (i : Nat) (c : Conn) : (s.setConn i c).cause = s.cause := rfl
@[simp] theorem State.setConn_charter (i : Nat) (c : Conn) : (s.setConn i c).charter = s.charter := rfl
@[simp] theorem State.setConn_identity (i : Nat) (c : Conn) : (s.setConn i c).identity = s.identity := rfl
@[simp] theorem State.setConn_entries (i : Nat) (c : Conn) : (s.setConn i c).entries = s.entries := rfl
@[simp] theorem State.setConn_partState (i : Nat) (c : Conn) : (s.setConn i c).partState = s.partState := rfl
@[simp] theorem State.setConn_lastLock (i : Nat) (c : Conn) : (s.setConn i c).lastLock = s.lastLock := rfl
@[simp] theorem State.setConn_releasing (i : Nat) (c : Conn) : (s.setConn i c).releasing = s.releasing := rfl
@[simp] theorem State.setConn_objs (i : Nat) (c : Conn) : (s.setConn i c).objs = s.objs := rfl
@[simp] theorem State.setConn_objStage (i : Nat) (c : Conn) : (s.setConn i c).objStage = s.objStage := rfl
@[simp] theorem State.setConn_far (i : Nat) (c : Conn) : (s.setConn i c).far = s.far := rfl
@[simp] theorem State.setConn_dir (i : Nat) (c : Conn) : (s.setConn i c).dir = s.dir := rfl
@[simp] theorem State.setConn_dirGen (i : Nat) (c : Conn) : (s.setConn i c).dirGen = s.dirGen := rfl
@[simp] theorem State.setConn_lookup (i : Nat) (c : Conn) : (s.setConn i c).lookup = s.lookup := rfl
@[simp] theorem State.setConn_slots (i : Nat) (c : Conn) : (s.setConn i c).slots = s.slots := rfl
@[simp] theorem State.setConn_moves (i : Nat) (c : Conn) : (s.setConn i c).moves = s.moves := rfl
@[simp] theorem State.setConn_heat (i : Nat) (c : Conn) : (s.setConn i c).heat = s.heat := rfl
@[simp] theorem State.setConn_bg (i : Nat) (c : Conn) : (s.setConn i c).bg = s.bg := rfl
@[simp] theorem State.setConn_cmds (i : Nat) (c : Conn) : (s.setConn i c).cmds = s.cmds := rfl
@[simp] theorem State.setConn_rings (i : Nat) (c : Conn) : (s.setConn i c).rings = s.rings := rfl
@[simp] theorem State.setConn_links (i : Nat) (c : Conn) : (s.setConn i c).links = s.links := rfl
@[simp] theorem State.setConn_inq (i : Nat) (c : Conn) : (s.setConn i c).inq = s.inq := rfl
@[simp] theorem State.setConn_turns (i : Nat) (c : Conn) : (s.setConn i c).turns = s.turns := rfl
@[simp] theorem State.setConn_wms (i : Nat) (c : Conn) : (s.setConn i c).wms = s.wms := rfl
@[simp] theorem State.setConn_wmLatch (i : Nat) (c : Conn) : (s.setConn i c).wmLatch = s.wmLatch := rfl
@[simp] theorem State.setConn_holds (i : Nat) (c : Conn) : (s.setConn i c).holds = s.holds := rfl
@[simp] theorem State.setConn_hauls (i : Nat) (c : Conn) : (s.setConn i c).hauls = s.hauls := rfl
@[simp] theorem State.setConn_rows (i : Nat) (c : Conn) : (s.setConn i c).rows = s.rows := rfl
@[simp] theorem State.setConn_reqs (i : Nat) (c : Conn) : (s.setConn i c).reqs = s.reqs := rfl
@[simp] theorem State.setConn_plan (i : Nat) (c : Conn) : (s.setConn i c).plan = s.plan := rfl
@[simp] theorem State.setConn_planBase (i : Nat) (c : Conn) : (s.setConn i c).planBase = s.planBase := rfl
@[simp] theorem State.setConn_sent (i : Nat) (c : Conn) : (s.setConn i c).sent = s.sent := rfl
@[simp] theorem State.setConn_emberNums (i : Nat) (c : Conn) : (s.setConn i c).emberNums = s.emberNums := rfl
@[simp] theorem State.setConn_recv (i : Nat) (c : Conn) : (s.setConn i c).recv = s.recv := rfl
@[simp] theorem State.setConn_merges (i : Nat) (c : Conn) : (s.setConn i c).merges = s.merges := rfl
@[simp] theorem State.setConn_mergesDone (i : Nat) (c : Conn) : (s.setConn i c).mergesDone = s.mergesDone := rfl
@[simp] theorem State.setConn_images (i : Nat) (c : Conn) : (s.setConn i c).images = s.images := rfl
@[simp] theorem State.setConn_kindles (i : Nat) (c : Conn) : (s.setConn i c).kindles = s.kindles := rfl
@[simp] theorem State.setConn_arrayHclk (i : Nat) (c : Conn) : (s.setConn i c).arrayHclk = s.arrayHclk := rfl
@[simp] theorem State.setConn_arrayUsed (i : Nat) (c : Conn) : (s.setConn i c).arrayUsed = s.arrayUsed := rfl
@[simp] theorem State.setConn_scrub (i : Nat) (c : Conn) : (s.setConn i c).scrub = s.scrub := rfl
@[simp] theorem State.setConn_ports (i : Nat) (c : Conn) : (s.setConn i c).ports = s.ports := rfl
@[simp] theorem State.setConn_up (i : Nat) (c : Conn) : (s.setConn i c).up = s.up := rfl
@[simp] theorem State.setConn_waykeys (i : Nat) (c : Conn) : (s.setConn i c).waykeys = s.waykeys := rfl
@[simp] theorem State.setConn_wkLive (i : Nat) (c : Conn) : (s.setConn i c).wkLive = s.wkLive := rfl
@[simp] theorem State.setConn_vioLog (i : Nat) (c : Conn) : (s.setConn i c).vioLog = s.vioLog := rfl
@[simp] theorem State.setConn_shapers (i : Nat) (c : Conn) : (s.setConn i c).shapers = s.shapers := rfl
@[simp] theorem State.setConn_shChanges (i : Nat) (c : Conn) : (s.setConn i c).shChanges = s.shChanges := rfl
@[simp] theorem State.setConn_acctPackets (i : Nat) (c : Conn) : (s.setConn i c).acctPackets = s.acctPackets := rfl
@[simp] theorem State.setConn_drrs (i : Nat) (c : Conn) : (s.setConn i c).drrs = s.drrs := rfl
@[simp] theorem State.setConn_replies (i : Nat) (c : Conn) : (s.setConn i c).replies = s.replies := rfl
@[simp] theorem State.setConn_attest (i : Nat) (c : Conn) : (s.setConn i c).attest = s.attest := rfl
@[simp] theorem State.setConn_meters (i : Nat) (c : Conn) : (s.setConn i c).meters = s.meters := rfl
@[simp] theorem State.setConn_staging (i : Nat) (c : Conn) : (s.setConn i c).staging = s.staging := rfl
@[simp] theorem State.setConn_probe (i : Nat) (c : Conn) : (s.setConn i c).probe = s.probe := rfl
@[simp] theorem State.setConn_fenceRec (i : Nat) (c : Conn) : (s.setConn i c).fenceRec = s.fenceRec := rfl
@[simp] theorem State.setConn_suspects (i : Nat) (c : Conn) : (s.setConn i c).suspects = s.suspects := rfl
@[simp] theorem State.setConn_sharedFaults (i : Nat) (c : Conn) : (s.setConn i c).sharedFaults = s.sharedFaults := rfl
@[simp] theorem State.setConn_flits (i : Nat) (c : Conn) : (s.setConn i c).flits = s.flits := rfl
@[simp] theorem State.setConn_wdogValue (i : Nat) (c : Conn) : (s.setConn i c).wdogValue = s.wdogValue := rfl
@[simp] theorem State.setConn_wdogAt (i : Nat) (c : Conn) : (s.setConn i c).wdogAt = s.wdogAt := rfl
@[simp] theorem State.setConn_rebuilds (i : Nat) (c : Conn) : (s.setConn i c).rebuilds = s.rebuilds := rfl
@[simp] theorem State.setConn_forwards (i : Nat) (c : Conn) : (s.setConn i c).forwards = s.forwards := rfl
@[simp] theorem State.setConn_lodge (i : Nat) (c : Conn) : (s.setConn i c).lodge = s.lodge := rfl
@[simp] theorem State.setConn_resets (i : Nat) (c : Conn) : (s.setConn i c).resets = s.resets := rfl
@[simp] theorem State.setConn_engResets (i : Nat) (c : Conn) : (s.setConn i c).engResets = s.engResets := rfl
@[simp] theorem State.setConn_flash (i : Nat) (c : Conn) : (s.setConn i c).flash = s.flash := rfl
@[simp] theorem State.setConn_repairDirty (i : Nat) (c : Conn) : (s.setConn i c).repairDirty = s.repairDirty := rfl
@[simp] theorem State.setConn_mpeers (i : Nat) (c : Conn) : (s.setConn i c).mpeers = s.mpeers := rfl
@[simp] theorem State.setConn_mgmt (i : Nat) (c : Conn) : (s.setConn i c).mgmt = s.mgmt := rfl
@[simp] theorem State.setConn_rcvWriting (i : Nat) (c : Conn) : (s.setConn i c).rcvWriting = s.rcvWriting := rfl
@[simp] theorem State.setConn_i3c (i : Nat) (c : Conn) : (s.setConn i c).i3c = s.i3c := rfl
@[simp] theorem State.setConn_therm (i : Nat) (c : Conn) : (s.setConn i c).therm = s.therm := rfl
@[simp] theorem State.setConn_volt (i : Nat) (c : Conn) : (s.setConn i c).volt = s.volt := rfl
@[simp] theorem State.setConn_jtag (i : Nat) (c : Conn) : (s.setConn i c).jtag = s.jtag := rfl

/-! `State.setPart`. -/

@[simp] theorem State.setPart_pending (p : Nat) (x : PartState) : (s.setPart p x).pending = s.pending := rfl
@[simp] theorem State.setPart_out (p : Nat) (x : PartState) : (s.setPart p x).out = s.out := rfl
@[simp] theorem State.setPart_draws (p : Nat) (x : PartState) : (s.setPart p x).draws = s.draws := rfl
@[simp] theorem State.setPart_nextId (p : Nat) (x : PartState) : (s.setPart p x).nextId = s.nextId := rfl
@[simp] theorem State.setPart_posted (p : Nat) (x : PartState) : (s.setPart p x).posted = s.posted := rfl
@[simp] theorem State.setPart_regs (p : Nat) (x : PartState) : (s.setPart p x).regs = s.regs := rfl
@[simp] theorem State.setPart_mem (p : Nat) (x : PartState) : (s.setPart p x).mem = s.mem := rfl
@[simp] theorem State.setPart_stale (p : Nat) (x : PartState) : (s.setPart p x).stale = s.stale := rfl
@[simp] theorem State.setPart_ecc (p : Nat) (x : PartState) : (s.setPart p x).ecc = s.ecc := rfl
@[simp] theorem State.setPart_scratch (p : Nat) (x : PartState) : (s.setPart p x).scratch = s.scratch := rfl
@[simp] theorem State.setPart_scratchEcc (p : Nat) (x : PartState) : (s.setPart p x).scratchEcc = s.scratchEcc := rfl
@[simp] theorem State.setPart_arbs (p : Nat) (x : PartState) : (s.setPart p x).arbs = s.arbs := rfl
@[simp] theorem State.setPart_recode (p : Nat) (x : PartState) : (s.setPart p x).recode = s.recode := rfl
@[simp] theorem State.setPart_acts (p : Nat) (x : PartState) : (s.setPart p x).acts = s.acts := rfl
@[simp] theorem State.setPart_trr (p : Nat) (x : PartState) : (s.setPart p x).trr = s.trr := rfl
@[simp] theorem State.setPart_corrected (p : Nat) (x : PartState) : (s.setPart p x).corrected = s.corrected := rfl
@[simp] theorem State.setPart_spares (p : Nat) (x : PartState) : (s.setPart p x).spares = s.spares := rfl
@[simp] theorem State.setPart_remapDue (p : Nat) (x : PartState) : (s.setPart p x).remapDue = s.remapDue := rfl
@[simp] theorem State.setPart_ft (p : Nat) (x : PartState) : (s.setPart p x).ft = s.ft := rfl
@[simp] theorem State.setPart_gated (p : Nat) (x : PartState) : (s.setPart p x).gated = s.gated := rfl
@[simp] theorem State.setPart_life (p : Nat) (x : PartState) : (s.setPart p x).life = s.life := rfl
@[simp] theorem State.setPart_standbyWanted (p : Nat) (x : PartState) : (s.setPart p x).standbyWanted = s.standbyWanted := rfl
@[simp] theorem State.setPart_power (p : Nat) (x : PartState) : (s.setPart p x).power = s.power := rfl
@[simp] theorem State.setPart_powerWant (p : Nat) (x : PartState) : (s.setPart p x).powerWant = s.powerWant := rfl
@[simp] theorem State.setPart_powerNext (p : Nat) (x : PartState) : (s.setPart p x).powerNext = s.powerNext := rfl
@[simp] theorem State.setPart_saving (p : Nat) (x : PartState) : (s.setPart p x).saving = s.saving := rfl
@[simp] theorem State.setPart_pwrGood (p : Nat) (x : PartState) : (s.setPart p x).pwrGood = s.pwrGood := rfl
@[simp] theorem State.setPart_thermTripped (p : Nat) (x : PartState) : (s.setPart p x).thermTripped = s.thermTripped := rfl
@[simp] theorem State.setPart_straps (p : Nat) (x : PartState) : (s.setPart p x).straps = s.straps := rfl
@[simp] theorem State.setPart_cause (p : Nat) (x : PartState) : (s.setPart p x).cause = s.cause := rfl
@[simp] theorem State.setPart_charter (p : Nat) (x : PartState) : (s.setPart p x).charter = s.charter := rfl
@[simp] theorem State.setPart_identity (p : Nat) (x : PartState) : (s.setPart p x).identity = s.identity := rfl
@[simp] theorem State.setPart_entries (p : Nat) (x : PartState) : (s.setPart p x).entries = s.entries := rfl
@[simp] theorem State.setPart_lastLock (p : Nat) (x : PartState) : (s.setPart p x).lastLock = s.lastLock := rfl
@[simp] theorem State.setPart_releasing (p : Nat) (x : PartState) : (s.setPart p x).releasing = s.releasing := rfl
@[simp] theorem State.setPart_objs (p : Nat) (x : PartState) : (s.setPart p x).objs = s.objs := rfl
@[simp] theorem State.setPart_objStage (p : Nat) (x : PartState) : (s.setPart p x).objStage = s.objStage := rfl
@[simp] theorem State.setPart_far (p : Nat) (x : PartState) : (s.setPart p x).far = s.far := rfl
@[simp] theorem State.setPart_dir (p : Nat) (x : PartState) : (s.setPart p x).dir = s.dir := rfl
@[simp] theorem State.setPart_dirGen (p : Nat) (x : PartState) : (s.setPart p x).dirGen = s.dirGen := rfl
@[simp] theorem State.setPart_lookup (p : Nat) (x : PartState) : (s.setPart p x).lookup = s.lookup := rfl
@[simp] theorem State.setPart_slots (p : Nat) (x : PartState) : (s.setPart p x).slots = s.slots := rfl
@[simp] theorem State.setPart_moves (p : Nat) (x : PartState) : (s.setPart p x).moves = s.moves := rfl
@[simp] theorem State.setPart_heat (p : Nat) (x : PartState) : (s.setPart p x).heat = s.heat := rfl
@[simp] theorem State.setPart_bg (p : Nat) (x : PartState) : (s.setPart p x).bg = s.bg := rfl
@[simp] theorem State.setPart_cmds (p : Nat) (x : PartState) : (s.setPart p x).cmds = s.cmds := rfl
@[simp] theorem State.setPart_rings (p : Nat) (x : PartState) : (s.setPart p x).rings = s.rings := rfl
@[simp] theorem State.setPart_links (p : Nat) (x : PartState) : (s.setPart p x).links = s.links := rfl
@[simp] theorem State.setPart_inq (p : Nat) (x : PartState) : (s.setPart p x).inq = s.inq := rfl
@[simp] theorem State.setPart_turns (p : Nat) (x : PartState) : (s.setPart p x).turns = s.turns := rfl
@[simp] theorem State.setPart_wms (p : Nat) (x : PartState) : (s.setPart p x).wms = s.wms := rfl
@[simp] theorem State.setPart_wmLatch (p : Nat) (x : PartState) : (s.setPart p x).wmLatch = s.wmLatch := rfl
@[simp] theorem State.setPart_holds (p : Nat) (x : PartState) : (s.setPart p x).holds = s.holds := rfl
@[simp] theorem State.setPart_hauls (p : Nat) (x : PartState) : (s.setPart p x).hauls = s.hauls := rfl
@[simp] theorem State.setPart_rows (p : Nat) (x : PartState) : (s.setPart p x).rows = s.rows := rfl
@[simp] theorem State.setPart_reqs (p : Nat) (x : PartState) : (s.setPart p x).reqs = s.reqs := rfl
@[simp] theorem State.setPart_plan (p : Nat) (x : PartState) : (s.setPart p x).plan = s.plan := rfl
@[simp] theorem State.setPart_planBase (p : Nat) (x : PartState) : (s.setPart p x).planBase = s.planBase := rfl
@[simp] theorem State.setPart_sent (p : Nat) (x : PartState) : (s.setPart p x).sent = s.sent := rfl
@[simp] theorem State.setPart_emberNums (p : Nat) (x : PartState) : (s.setPart p x).emberNums = s.emberNums := rfl
@[simp] theorem State.setPart_recv (p : Nat) (x : PartState) : (s.setPart p x).recv = s.recv := rfl
@[simp] theorem State.setPart_merges (p : Nat) (x : PartState) : (s.setPart p x).merges = s.merges := rfl
@[simp] theorem State.setPart_mergesDone (p : Nat) (x : PartState) : (s.setPart p x).mergesDone = s.mergesDone := rfl
@[simp] theorem State.setPart_images (p : Nat) (x : PartState) : (s.setPart p x).images = s.images := rfl
@[simp] theorem State.setPart_kindles (p : Nat) (x : PartState) : (s.setPart p x).kindles = s.kindles := rfl
@[simp] theorem State.setPart_arrayHclk (p : Nat) (x : PartState) : (s.setPart p x).arrayHclk = s.arrayHclk := rfl
@[simp] theorem State.setPart_arrayUsed (p : Nat) (x : PartState) : (s.setPart p x).arrayUsed = s.arrayUsed := rfl
@[simp] theorem State.setPart_scrub (p : Nat) (x : PartState) : (s.setPart p x).scrub = s.scrub := rfl
@[simp] theorem State.setPart_conns (p : Nat) (x : PartState) : (s.setPart p x).conns = s.conns := rfl
@[simp] theorem State.setPart_ports (p : Nat) (x : PartState) : (s.setPart p x).ports = s.ports := rfl
@[simp] theorem State.setPart_up (p : Nat) (x : PartState) : (s.setPart p x).up = s.up := rfl
@[simp] theorem State.setPart_waykeys (p : Nat) (x : PartState) : (s.setPart p x).waykeys = s.waykeys := rfl
@[simp] theorem State.setPart_wkLive (p : Nat) (x : PartState) : (s.setPart p x).wkLive = s.wkLive := rfl
@[simp] theorem State.setPart_vioLog (p : Nat) (x : PartState) : (s.setPart p x).vioLog = s.vioLog := rfl
@[simp] theorem State.setPart_shapers (p : Nat) (x : PartState) : (s.setPart p x).shapers = s.shapers := rfl
@[simp] theorem State.setPart_shChanges (p : Nat) (x : PartState) : (s.setPart p x).shChanges = s.shChanges := rfl
@[simp] theorem State.setPart_acctPackets (p : Nat) (x : PartState) : (s.setPart p x).acctPackets = s.acctPackets := rfl
@[simp] theorem State.setPart_drrs (p : Nat) (x : PartState) : (s.setPart p x).drrs = s.drrs := rfl
@[simp] theorem State.setPart_replies (p : Nat) (x : PartState) : (s.setPart p x).replies = s.replies := rfl
@[simp] theorem State.setPart_attest (p : Nat) (x : PartState) : (s.setPart p x).attest = s.attest := rfl
@[simp] theorem State.setPart_meters (p : Nat) (x : PartState) : (s.setPart p x).meters = s.meters := rfl
@[simp] theorem State.setPart_staging (p : Nat) (x : PartState) : (s.setPart p x).staging = s.staging := rfl
@[simp] theorem State.setPart_probe (p : Nat) (x : PartState) : (s.setPart p x).probe = s.probe := rfl
@[simp] theorem State.setPart_fenceRec (p : Nat) (x : PartState) : (s.setPart p x).fenceRec = s.fenceRec := rfl
@[simp] theorem State.setPart_suspects (p : Nat) (x : PartState) : (s.setPart p x).suspects = s.suspects := rfl
@[simp] theorem State.setPart_sharedFaults (p : Nat) (x : PartState) : (s.setPart p x).sharedFaults = s.sharedFaults := rfl
@[simp] theorem State.setPart_flits (p : Nat) (x : PartState) : (s.setPart p x).flits = s.flits := rfl
@[simp] theorem State.setPart_wdogValue (p : Nat) (x : PartState) : (s.setPart p x).wdogValue = s.wdogValue := rfl
@[simp] theorem State.setPart_wdogAt (p : Nat) (x : PartState) : (s.setPart p x).wdogAt = s.wdogAt := rfl
@[simp] theorem State.setPart_rebuilds (p : Nat) (x : PartState) : (s.setPart p x).rebuilds = s.rebuilds := rfl
@[simp] theorem State.setPart_forwards (p : Nat) (x : PartState) : (s.setPart p x).forwards = s.forwards := rfl
@[simp] theorem State.setPart_lodge (p : Nat) (x : PartState) : (s.setPart p x).lodge = s.lodge := rfl
@[simp] theorem State.setPart_resets (p : Nat) (x : PartState) : (s.setPart p x).resets = s.resets := rfl
@[simp] theorem State.setPart_engResets (p : Nat) (x : PartState) : (s.setPart p x).engResets = s.engResets := rfl
@[simp] theorem State.setPart_flash (p : Nat) (x : PartState) : (s.setPart p x).flash = s.flash := rfl
@[simp] theorem State.setPart_repairDirty (p : Nat) (x : PartState) : (s.setPart p x).repairDirty = s.repairDirty := rfl
@[simp] theorem State.setPart_mpeers (p : Nat) (x : PartState) : (s.setPart p x).mpeers = s.mpeers := rfl
@[simp] theorem State.setPart_mgmt (p : Nat) (x : PartState) : (s.setPart p x).mgmt = s.mgmt := rfl
@[simp] theorem State.setPart_rcvWriting (p : Nat) (x : PartState) : (s.setPart p x).rcvWriting = s.rcvWriting := rfl
@[simp] theorem State.setPart_i3c (p : Nat) (x : PartState) : (s.setPart p x).i3c = s.i3c := rfl
@[simp] theorem State.setPart_therm (p : Nat) (x : PartState) : (s.setPart p x).therm = s.therm := rfl
@[simp] theorem State.setPart_volt (p : Nat) (x : PartState) : (s.setPart p x).volt = s.volt := rfl
@[simp] theorem State.setPart_jtag (p : Nat) (x : PartState) : (s.setPart p x).jtag = s.jtag := rfl

/-! `State.setObj`. -/

@[simp] theorem State.setObj_pending (p i : Nat) (v : BitVec 256) : (s.setObj p i v).pending = s.pending := rfl
@[simp] theorem State.setObj_out (p i : Nat) (v : BitVec 256) : (s.setObj p i v).out = s.out := rfl
@[simp] theorem State.setObj_draws (p i : Nat) (v : BitVec 256) : (s.setObj p i v).draws = s.draws := rfl
@[simp] theorem State.setObj_nextId (p i : Nat) (v : BitVec 256) : (s.setObj p i v).nextId = s.nextId := rfl
@[simp] theorem State.setObj_posted (p i : Nat) (v : BitVec 256) : (s.setObj p i v).posted = s.posted := rfl
@[simp] theorem State.setObj_regs (p i : Nat) (v : BitVec 256) : (s.setObj p i v).regs = s.regs := rfl
@[simp] theorem State.setObj_mem (p i : Nat) (v : BitVec 256) : (s.setObj p i v).mem = s.mem := rfl
@[simp] theorem State.setObj_stale (p i : Nat) (v : BitVec 256) : (s.setObj p i v).stale = s.stale := rfl
@[simp] theorem State.setObj_ecc (p i : Nat) (v : BitVec 256) : (s.setObj p i v).ecc = s.ecc := rfl
@[simp] theorem State.setObj_scratch (p i : Nat) (v : BitVec 256) : (s.setObj p i v).scratch = s.scratch := rfl
@[simp] theorem State.setObj_scratchEcc (p i : Nat) (v : BitVec 256) : (s.setObj p i v).scratchEcc = s.scratchEcc := rfl
@[simp] theorem State.setObj_arbs (p i : Nat) (v : BitVec 256) : (s.setObj p i v).arbs = s.arbs := rfl
@[simp] theorem State.setObj_recode (p i : Nat) (v : BitVec 256) : (s.setObj p i v).recode = s.recode := rfl
@[simp] theorem State.setObj_acts (p i : Nat) (v : BitVec 256) : (s.setObj p i v).acts = s.acts := rfl
@[simp] theorem State.setObj_trr (p i : Nat) (v : BitVec 256) : (s.setObj p i v).trr = s.trr := rfl
@[simp] theorem State.setObj_corrected (p i : Nat) (v : BitVec 256) : (s.setObj p i v).corrected = s.corrected := rfl
@[simp] theorem State.setObj_spares (p i : Nat) (v : BitVec 256) : (s.setObj p i v).spares = s.spares := rfl
@[simp] theorem State.setObj_remapDue (p i : Nat) (v : BitVec 256) : (s.setObj p i v).remapDue = s.remapDue := rfl
@[simp] theorem State.setObj_ft (p i : Nat) (v : BitVec 256) : (s.setObj p i v).ft = s.ft := rfl
@[simp] theorem State.setObj_gated (p i : Nat) (v : BitVec 256) : (s.setObj p i v).gated = s.gated := rfl
@[simp] theorem State.setObj_life (p i : Nat) (v : BitVec 256) : (s.setObj p i v).life = s.life := rfl
@[simp] theorem State.setObj_standbyWanted (p i : Nat) (v : BitVec 256) : (s.setObj p i v).standbyWanted = s.standbyWanted := rfl
@[simp] theorem State.setObj_power (p i : Nat) (v : BitVec 256) : (s.setObj p i v).power = s.power := rfl
@[simp] theorem State.setObj_powerWant (p i : Nat) (v : BitVec 256) : (s.setObj p i v).powerWant = s.powerWant := rfl
@[simp] theorem State.setObj_powerNext (p i : Nat) (v : BitVec 256) : (s.setObj p i v).powerNext = s.powerNext := rfl
@[simp] theorem State.setObj_saving (p i : Nat) (v : BitVec 256) : (s.setObj p i v).saving = s.saving := rfl
@[simp] theorem State.setObj_pwrGood (p i : Nat) (v : BitVec 256) : (s.setObj p i v).pwrGood = s.pwrGood := rfl
@[simp] theorem State.setObj_thermTripped (p i : Nat) (v : BitVec 256) : (s.setObj p i v).thermTripped = s.thermTripped := rfl
@[simp] theorem State.setObj_straps (p i : Nat) (v : BitVec 256) : (s.setObj p i v).straps = s.straps := rfl
@[simp] theorem State.setObj_cause (p i : Nat) (v : BitVec 256) : (s.setObj p i v).cause = s.cause := rfl
@[simp] theorem State.setObj_charter (p i : Nat) (v : BitVec 256) : (s.setObj p i v).charter = s.charter := rfl
@[simp] theorem State.setObj_identity (p i : Nat) (v : BitVec 256) : (s.setObj p i v).identity = s.identity := rfl
@[simp] theorem State.setObj_entries (p i : Nat) (v : BitVec 256) : (s.setObj p i v).entries = s.entries := rfl
@[simp] theorem State.setObj_partState (p i : Nat) (v : BitVec 256) : (s.setObj p i v).partState = s.partState := rfl
@[simp] theorem State.setObj_lastLock (p i : Nat) (v : BitVec 256) : (s.setObj p i v).lastLock = s.lastLock := rfl
@[simp] theorem State.setObj_releasing (p i : Nat) (v : BitVec 256) : (s.setObj p i v).releasing = s.releasing := rfl
@[simp] theorem State.setObj_objStage (p i : Nat) (v : BitVec 256) : (s.setObj p i v).objStage = s.objStage := rfl
@[simp] theorem State.setObj_far (p i : Nat) (v : BitVec 256) : (s.setObj p i v).far = s.far := rfl
@[simp] theorem State.setObj_dir (p i : Nat) (v : BitVec 256) : (s.setObj p i v).dir = s.dir := rfl
@[simp] theorem State.setObj_dirGen (p i : Nat) (v : BitVec 256) : (s.setObj p i v).dirGen = s.dirGen := rfl
@[simp] theorem State.setObj_lookup (p i : Nat) (v : BitVec 256) : (s.setObj p i v).lookup = s.lookup := rfl
@[simp] theorem State.setObj_slots (p i : Nat) (v : BitVec 256) : (s.setObj p i v).slots = s.slots := rfl
@[simp] theorem State.setObj_moves (p i : Nat) (v : BitVec 256) : (s.setObj p i v).moves = s.moves := rfl
@[simp] theorem State.setObj_heat (p i : Nat) (v : BitVec 256) : (s.setObj p i v).heat = s.heat := rfl
@[simp] theorem State.setObj_bg (p i : Nat) (v : BitVec 256) : (s.setObj p i v).bg = s.bg := rfl
@[simp] theorem State.setObj_cmds (p i : Nat) (v : BitVec 256) : (s.setObj p i v).cmds = s.cmds := rfl
@[simp] theorem State.setObj_rings (p i : Nat) (v : BitVec 256) : (s.setObj p i v).rings = s.rings := rfl
@[simp] theorem State.setObj_links (p i : Nat) (v : BitVec 256) : (s.setObj p i v).links = s.links := rfl
@[simp] theorem State.setObj_inq (p i : Nat) (v : BitVec 256) : (s.setObj p i v).inq = s.inq := rfl
@[simp] theorem State.setObj_turns (p i : Nat) (v : BitVec 256) : (s.setObj p i v).turns = s.turns := rfl
@[simp] theorem State.setObj_wms (p i : Nat) (v : BitVec 256) : (s.setObj p i v).wms = s.wms := rfl
@[simp] theorem State.setObj_wmLatch (p i : Nat) (v : BitVec 256) : (s.setObj p i v).wmLatch = s.wmLatch := rfl
@[simp] theorem State.setObj_holds (p i : Nat) (v : BitVec 256) : (s.setObj p i v).holds = s.holds := rfl
@[simp] theorem State.setObj_hauls (p i : Nat) (v : BitVec 256) : (s.setObj p i v).hauls = s.hauls := rfl
@[simp] theorem State.setObj_rows (p i : Nat) (v : BitVec 256) : (s.setObj p i v).rows = s.rows := rfl
@[simp] theorem State.setObj_reqs (p i : Nat) (v : BitVec 256) : (s.setObj p i v).reqs = s.reqs := rfl
@[simp] theorem State.setObj_plan (p i : Nat) (v : BitVec 256) : (s.setObj p i v).plan = s.plan := rfl
@[simp] theorem State.setObj_planBase (p i : Nat) (v : BitVec 256) : (s.setObj p i v).planBase = s.planBase := rfl
@[simp] theorem State.setObj_sent (p i : Nat) (v : BitVec 256) : (s.setObj p i v).sent = s.sent := rfl
@[simp] theorem State.setObj_emberNums (p i : Nat) (v : BitVec 256) : (s.setObj p i v).emberNums = s.emberNums := rfl
@[simp] theorem State.setObj_recv (p i : Nat) (v : BitVec 256) : (s.setObj p i v).recv = s.recv := rfl
@[simp] theorem State.setObj_merges (p i : Nat) (v : BitVec 256) : (s.setObj p i v).merges = s.merges := rfl
@[simp] theorem State.setObj_mergesDone (p i : Nat) (v : BitVec 256) : (s.setObj p i v).mergesDone = s.mergesDone := rfl
@[simp] theorem State.setObj_images (p i : Nat) (v : BitVec 256) : (s.setObj p i v).images = s.images := rfl
@[simp] theorem State.setObj_kindles (p i : Nat) (v : BitVec 256) : (s.setObj p i v).kindles = s.kindles := rfl
@[simp] theorem State.setObj_arrayHclk (p i : Nat) (v : BitVec 256) : (s.setObj p i v).arrayHclk = s.arrayHclk := rfl
@[simp] theorem State.setObj_arrayUsed (p i : Nat) (v : BitVec 256) : (s.setObj p i v).arrayUsed = s.arrayUsed := rfl
@[simp] theorem State.setObj_scrub (p i : Nat) (v : BitVec 256) : (s.setObj p i v).scrub = s.scrub := rfl
@[simp] theorem State.setObj_conns (p i : Nat) (v : BitVec 256) : (s.setObj p i v).conns = s.conns := rfl
@[simp] theorem State.setObj_ports (p i : Nat) (v : BitVec 256) : (s.setObj p i v).ports = s.ports := rfl
@[simp] theorem State.setObj_up (p i : Nat) (v : BitVec 256) : (s.setObj p i v).up = s.up := rfl
@[simp] theorem State.setObj_waykeys (p i : Nat) (v : BitVec 256) : (s.setObj p i v).waykeys = s.waykeys := rfl
@[simp] theorem State.setObj_wkLive (p i : Nat) (v : BitVec 256) : (s.setObj p i v).wkLive = s.wkLive := rfl
@[simp] theorem State.setObj_vioLog (p i : Nat) (v : BitVec 256) : (s.setObj p i v).vioLog = s.vioLog := rfl
@[simp] theorem State.setObj_shapers (p i : Nat) (v : BitVec 256) : (s.setObj p i v).shapers = s.shapers := rfl
@[simp] theorem State.setObj_shChanges (p i : Nat) (v : BitVec 256) : (s.setObj p i v).shChanges = s.shChanges := rfl
@[simp] theorem State.setObj_acctPackets (p i : Nat) (v : BitVec 256) : (s.setObj p i v).acctPackets = s.acctPackets := rfl
@[simp] theorem State.setObj_drrs (p i : Nat) (v : BitVec 256) : (s.setObj p i v).drrs = s.drrs := rfl
@[simp] theorem State.setObj_replies (p i : Nat) (v : BitVec 256) : (s.setObj p i v).replies = s.replies := rfl
@[simp] theorem State.setObj_attest (p i : Nat) (v : BitVec 256) : (s.setObj p i v).attest = s.attest := rfl
@[simp] theorem State.setObj_meters (p i : Nat) (v : BitVec 256) : (s.setObj p i v).meters = s.meters := rfl
@[simp] theorem State.setObj_staging (p i : Nat) (v : BitVec 256) : (s.setObj p i v).staging = s.staging := rfl
@[simp] theorem State.setObj_probe (p i : Nat) (v : BitVec 256) : (s.setObj p i v).probe = s.probe := rfl
@[simp] theorem State.setObj_fenceRec (p i : Nat) (v : BitVec 256) : (s.setObj p i v).fenceRec = s.fenceRec := rfl
@[simp] theorem State.setObj_suspects (p i : Nat) (v : BitVec 256) : (s.setObj p i v).suspects = s.suspects := rfl
@[simp] theorem State.setObj_sharedFaults (p i : Nat) (v : BitVec 256) : (s.setObj p i v).sharedFaults = s.sharedFaults := rfl
@[simp] theorem State.setObj_flits (p i : Nat) (v : BitVec 256) : (s.setObj p i v).flits = s.flits := rfl
@[simp] theorem State.setObj_wdogValue (p i : Nat) (v : BitVec 256) : (s.setObj p i v).wdogValue = s.wdogValue := rfl
@[simp] theorem State.setObj_wdogAt (p i : Nat) (v : BitVec 256) : (s.setObj p i v).wdogAt = s.wdogAt := rfl
@[simp] theorem State.setObj_rebuilds (p i : Nat) (v : BitVec 256) : (s.setObj p i v).rebuilds = s.rebuilds := rfl
@[simp] theorem State.setObj_forwards (p i : Nat) (v : BitVec 256) : (s.setObj p i v).forwards = s.forwards := rfl
@[simp] theorem State.setObj_lodge (p i : Nat) (v : BitVec 256) : (s.setObj p i v).lodge = s.lodge := rfl
@[simp] theorem State.setObj_resets (p i : Nat) (v : BitVec 256) : (s.setObj p i v).resets = s.resets := rfl
@[simp] theorem State.setObj_engResets (p i : Nat) (v : BitVec 256) : (s.setObj p i v).engResets = s.engResets := rfl
@[simp] theorem State.setObj_flash (p i : Nat) (v : BitVec 256) : (s.setObj p i v).flash = s.flash := rfl
@[simp] theorem State.setObj_repairDirty (p i : Nat) (v : BitVec 256) : (s.setObj p i v).repairDirty = s.repairDirty := rfl
@[simp] theorem State.setObj_mpeers (p i : Nat) (v : BitVec 256) : (s.setObj p i v).mpeers = s.mpeers := rfl
@[simp] theorem State.setObj_mgmt (p i : Nat) (v : BitVec 256) : (s.setObj p i v).mgmt = s.mgmt := rfl
@[simp] theorem State.setObj_rcvWriting (p i : Nat) (v : BitVec 256) : (s.setObj p i v).rcvWriting = s.rcvWriting := rfl
@[simp] theorem State.setObj_i3c (p i : Nat) (v : BitVec 256) : (s.setObj p i v).i3c = s.i3c := rfl
@[simp] theorem State.setObj_therm (p i : Nat) (v : BitVec 256) : (s.setObj p i v).therm = s.therm := rfl
@[simp] theorem State.setObj_volt (p i : Nat) (v : BitVec 256) : (s.setObj p i v).volt = s.volt := rfl
@[simp] theorem State.setObj_jtag (p i : Nat) (v : BitVec 256) : (s.setObj p i v).jtag = s.jtag := rfl

/-! `State.setWm`. -/

@[simp] theorem State.setWm_pending (p w : Nat) (v : Pair 64) : (s.setWm p w v).pending = s.pending := rfl
@[simp] theorem State.setWm_out (p w : Nat) (v : Pair 64) : (s.setWm p w v).out = s.out := rfl
@[simp] theorem State.setWm_draws (p w : Nat) (v : Pair 64) : (s.setWm p w v).draws = s.draws := rfl
@[simp] theorem State.setWm_nextId (p w : Nat) (v : Pair 64) : (s.setWm p w v).nextId = s.nextId := rfl
@[simp] theorem State.setWm_posted (p w : Nat) (v : Pair 64) : (s.setWm p w v).posted = s.posted := rfl
@[simp] theorem State.setWm_regs (p w : Nat) (v : Pair 64) : (s.setWm p w v).regs = s.regs := rfl
@[simp] theorem State.setWm_mem (p w : Nat) (v : Pair 64) : (s.setWm p w v).mem = s.mem := rfl
@[simp] theorem State.setWm_stale (p w : Nat) (v : Pair 64) : (s.setWm p w v).stale = s.stale := rfl
@[simp] theorem State.setWm_ecc (p w : Nat) (v : Pair 64) : (s.setWm p w v).ecc = s.ecc := rfl
@[simp] theorem State.setWm_scratch (p w : Nat) (v : Pair 64) : (s.setWm p w v).scratch = s.scratch := rfl
@[simp] theorem State.setWm_scratchEcc (p w : Nat) (v : Pair 64) : (s.setWm p w v).scratchEcc = s.scratchEcc := rfl
@[simp] theorem State.setWm_arbs (p w : Nat) (v : Pair 64) : (s.setWm p w v).arbs = s.arbs := rfl
@[simp] theorem State.setWm_recode (p w : Nat) (v : Pair 64) : (s.setWm p w v).recode = s.recode := rfl
@[simp] theorem State.setWm_acts (p w : Nat) (v : Pair 64) : (s.setWm p w v).acts = s.acts := rfl
@[simp] theorem State.setWm_trr (p w : Nat) (v : Pair 64) : (s.setWm p w v).trr = s.trr := rfl
@[simp] theorem State.setWm_corrected (p w : Nat) (v : Pair 64) : (s.setWm p w v).corrected = s.corrected := rfl
@[simp] theorem State.setWm_spares (p w : Nat) (v : Pair 64) : (s.setWm p w v).spares = s.spares := rfl
@[simp] theorem State.setWm_remapDue (p w : Nat) (v : Pair 64) : (s.setWm p w v).remapDue = s.remapDue := rfl
@[simp] theorem State.setWm_ft (p w : Nat) (v : Pair 64) : (s.setWm p w v).ft = s.ft := rfl
@[simp] theorem State.setWm_gated (p w : Nat) (v : Pair 64) : (s.setWm p w v).gated = s.gated := rfl
@[simp] theorem State.setWm_life (p w : Nat) (v : Pair 64) : (s.setWm p w v).life = s.life := rfl
@[simp] theorem State.setWm_standbyWanted (p w : Nat) (v : Pair 64) : (s.setWm p w v).standbyWanted = s.standbyWanted := rfl
@[simp] theorem State.setWm_power (p w : Nat) (v : Pair 64) : (s.setWm p w v).power = s.power := rfl
@[simp] theorem State.setWm_powerWant (p w : Nat) (v : Pair 64) : (s.setWm p w v).powerWant = s.powerWant := rfl
@[simp] theorem State.setWm_powerNext (p w : Nat) (v : Pair 64) : (s.setWm p w v).powerNext = s.powerNext := rfl
@[simp] theorem State.setWm_saving (p w : Nat) (v : Pair 64) : (s.setWm p w v).saving = s.saving := rfl
@[simp] theorem State.setWm_pwrGood (p w : Nat) (v : Pair 64) : (s.setWm p w v).pwrGood = s.pwrGood := rfl
@[simp] theorem State.setWm_thermTripped (p w : Nat) (v : Pair 64) : (s.setWm p w v).thermTripped = s.thermTripped := rfl
@[simp] theorem State.setWm_straps (p w : Nat) (v : Pair 64) : (s.setWm p w v).straps = s.straps := rfl
@[simp] theorem State.setWm_cause (p w : Nat) (v : Pair 64) : (s.setWm p w v).cause = s.cause := rfl
@[simp] theorem State.setWm_charter (p w : Nat) (v : Pair 64) : (s.setWm p w v).charter = s.charter := rfl
@[simp] theorem State.setWm_identity (p w : Nat) (v : Pair 64) : (s.setWm p w v).identity = s.identity := rfl
@[simp] theorem State.setWm_entries (p w : Nat) (v : Pair 64) : (s.setWm p w v).entries = s.entries := rfl
@[simp] theorem State.setWm_partState (p w : Nat) (v : Pair 64) : (s.setWm p w v).partState = s.partState := rfl
@[simp] theorem State.setWm_lastLock (p w : Nat) (v : Pair 64) : (s.setWm p w v).lastLock = s.lastLock := rfl
@[simp] theorem State.setWm_releasing (p w : Nat) (v : Pair 64) : (s.setWm p w v).releasing = s.releasing := rfl
@[simp] theorem State.setWm_objs (p w : Nat) (v : Pair 64) : (s.setWm p w v).objs = s.objs := rfl
@[simp] theorem State.setWm_objStage (p w : Nat) (v : Pair 64) : (s.setWm p w v).objStage = s.objStage := rfl
@[simp] theorem State.setWm_far (p w : Nat) (v : Pair 64) : (s.setWm p w v).far = s.far := rfl
@[simp] theorem State.setWm_dir (p w : Nat) (v : Pair 64) : (s.setWm p w v).dir = s.dir := rfl
@[simp] theorem State.setWm_dirGen (p w : Nat) (v : Pair 64) : (s.setWm p w v).dirGen = s.dirGen := rfl
@[simp] theorem State.setWm_lookup (p w : Nat) (v : Pair 64) : (s.setWm p w v).lookup = s.lookup := rfl
@[simp] theorem State.setWm_slots (p w : Nat) (v : Pair 64) : (s.setWm p w v).slots = s.slots := rfl
@[simp] theorem State.setWm_moves (p w : Nat) (v : Pair 64) : (s.setWm p w v).moves = s.moves := rfl
@[simp] theorem State.setWm_heat (p w : Nat) (v : Pair 64) : (s.setWm p w v).heat = s.heat := rfl
@[simp] theorem State.setWm_bg (p w : Nat) (v : Pair 64) : (s.setWm p w v).bg = s.bg := rfl
@[simp] theorem State.setWm_cmds (p w : Nat) (v : Pair 64) : (s.setWm p w v).cmds = s.cmds := rfl
@[simp] theorem State.setWm_rings (p w : Nat) (v : Pair 64) : (s.setWm p w v).rings = s.rings := rfl
@[simp] theorem State.setWm_links (p w : Nat) (v : Pair 64) : (s.setWm p w v).links = s.links := rfl
@[simp] theorem State.setWm_inq (p w : Nat) (v : Pair 64) : (s.setWm p w v).inq = s.inq := rfl
@[simp] theorem State.setWm_turns (p w : Nat) (v : Pair 64) : (s.setWm p w v).turns = s.turns := rfl
@[simp] theorem State.setWm_wmLatch (p w : Nat) (v : Pair 64) : (s.setWm p w v).wmLatch = s.wmLatch := rfl
@[simp] theorem State.setWm_holds (p w : Nat) (v : Pair 64) : (s.setWm p w v).holds = s.holds := rfl
@[simp] theorem State.setWm_hauls (p w : Nat) (v : Pair 64) : (s.setWm p w v).hauls = s.hauls := rfl
@[simp] theorem State.setWm_rows (p w : Nat) (v : Pair 64) : (s.setWm p w v).rows = s.rows := rfl
@[simp] theorem State.setWm_reqs (p w : Nat) (v : Pair 64) : (s.setWm p w v).reqs = s.reqs := rfl
@[simp] theorem State.setWm_plan (p w : Nat) (v : Pair 64) : (s.setWm p w v).plan = s.plan := rfl
@[simp] theorem State.setWm_planBase (p w : Nat) (v : Pair 64) : (s.setWm p w v).planBase = s.planBase := rfl
@[simp] theorem State.setWm_sent (p w : Nat) (v : Pair 64) : (s.setWm p w v).sent = s.sent := rfl
@[simp] theorem State.setWm_emberNums (p w : Nat) (v : Pair 64) : (s.setWm p w v).emberNums = s.emberNums := rfl
@[simp] theorem State.setWm_recv (p w : Nat) (v : Pair 64) : (s.setWm p w v).recv = s.recv := rfl
@[simp] theorem State.setWm_merges (p w : Nat) (v : Pair 64) : (s.setWm p w v).merges = s.merges := rfl
@[simp] theorem State.setWm_mergesDone (p w : Nat) (v : Pair 64) : (s.setWm p w v).mergesDone = s.mergesDone := rfl
@[simp] theorem State.setWm_images (p w : Nat) (v : Pair 64) : (s.setWm p w v).images = s.images := rfl
@[simp] theorem State.setWm_kindles (p w : Nat) (v : Pair 64) : (s.setWm p w v).kindles = s.kindles := rfl
@[simp] theorem State.setWm_arrayHclk (p w : Nat) (v : Pair 64) : (s.setWm p w v).arrayHclk = s.arrayHclk := rfl
@[simp] theorem State.setWm_arrayUsed (p w : Nat) (v : Pair 64) : (s.setWm p w v).arrayUsed = s.arrayUsed := rfl
@[simp] theorem State.setWm_scrub (p w : Nat) (v : Pair 64) : (s.setWm p w v).scrub = s.scrub := rfl
@[simp] theorem State.setWm_conns (p w : Nat) (v : Pair 64) : (s.setWm p w v).conns = s.conns := rfl
@[simp] theorem State.setWm_ports (p w : Nat) (v : Pair 64) : (s.setWm p w v).ports = s.ports := rfl
@[simp] theorem State.setWm_up (p w : Nat) (v : Pair 64) : (s.setWm p w v).up = s.up := rfl
@[simp] theorem State.setWm_waykeys (p w : Nat) (v : Pair 64) : (s.setWm p w v).waykeys = s.waykeys := rfl
@[simp] theorem State.setWm_wkLive (p w : Nat) (v : Pair 64) : (s.setWm p w v).wkLive = s.wkLive := rfl
@[simp] theorem State.setWm_vioLog (p w : Nat) (v : Pair 64) : (s.setWm p w v).vioLog = s.vioLog := rfl
@[simp] theorem State.setWm_shapers (p w : Nat) (v : Pair 64) : (s.setWm p w v).shapers = s.shapers := rfl
@[simp] theorem State.setWm_shChanges (p w : Nat) (v : Pair 64) : (s.setWm p w v).shChanges = s.shChanges := rfl
@[simp] theorem State.setWm_acctPackets (p w : Nat) (v : Pair 64) : (s.setWm p w v).acctPackets = s.acctPackets := rfl
@[simp] theorem State.setWm_drrs (p w : Nat) (v : Pair 64) : (s.setWm p w v).drrs = s.drrs := rfl
@[simp] theorem State.setWm_replies (p w : Nat) (v : Pair 64) : (s.setWm p w v).replies = s.replies := rfl
@[simp] theorem State.setWm_attest (p w : Nat) (v : Pair 64) : (s.setWm p w v).attest = s.attest := rfl
@[simp] theorem State.setWm_meters (p w : Nat) (v : Pair 64) : (s.setWm p w v).meters = s.meters := rfl
@[simp] theorem State.setWm_staging (p w : Nat) (v : Pair 64) : (s.setWm p w v).staging = s.staging := rfl
@[simp] theorem State.setWm_probe (p w : Nat) (v : Pair 64) : (s.setWm p w v).probe = s.probe := rfl
@[simp] theorem State.setWm_fenceRec (p w : Nat) (v : Pair 64) : (s.setWm p w v).fenceRec = s.fenceRec := rfl
@[simp] theorem State.setWm_suspects (p w : Nat) (v : Pair 64) : (s.setWm p w v).suspects = s.suspects := rfl
@[simp] theorem State.setWm_sharedFaults (p w : Nat) (v : Pair 64) : (s.setWm p w v).sharedFaults = s.sharedFaults := rfl
@[simp] theorem State.setWm_flits (p w : Nat) (v : Pair 64) : (s.setWm p w v).flits = s.flits := rfl
@[simp] theorem State.setWm_wdogValue (p w : Nat) (v : Pair 64) : (s.setWm p w v).wdogValue = s.wdogValue := rfl
@[simp] theorem State.setWm_wdogAt (p w : Nat) (v : Pair 64) : (s.setWm p w v).wdogAt = s.wdogAt := rfl
@[simp] theorem State.setWm_rebuilds (p w : Nat) (v : Pair 64) : (s.setWm p w v).rebuilds = s.rebuilds := rfl
@[simp] theorem State.setWm_forwards (p w : Nat) (v : Pair 64) : (s.setWm p w v).forwards = s.forwards := rfl
@[simp] theorem State.setWm_lodge (p w : Nat) (v : Pair 64) : (s.setWm p w v).lodge = s.lodge := rfl
@[simp] theorem State.setWm_resets (p w : Nat) (v : Pair 64) : (s.setWm p w v).resets = s.resets := rfl
@[simp] theorem State.setWm_engResets (p w : Nat) (v : Pair 64) : (s.setWm p w v).engResets = s.engResets := rfl
@[simp] theorem State.setWm_flash (p w : Nat) (v : Pair 64) : (s.setWm p w v).flash = s.flash := rfl
@[simp] theorem State.setWm_repairDirty (p w : Nat) (v : Pair 64) : (s.setWm p w v).repairDirty = s.repairDirty := rfl
@[simp] theorem State.setWm_mpeers (p w : Nat) (v : Pair 64) : (s.setWm p w v).mpeers = s.mpeers := rfl
@[simp] theorem State.setWm_mgmt (p w : Nat) (v : Pair 64) : (s.setWm p w v).mgmt = s.mgmt := rfl
@[simp] theorem State.setWm_rcvWriting (p w : Nat) (v : Pair 64) : (s.setWm p w v).rcvWriting = s.rcvWriting := rfl
@[simp] theorem State.setWm_i3c (p w : Nat) (v : Pair 64) : (s.setWm p w v).i3c = s.i3c := rfl
@[simp] theorem State.setWm_therm (p w : Nat) (v : Pair 64) : (s.setWm p w v).therm = s.therm := rfl
@[simp] theorem State.setWm_volt (p w : Nat) (v : Pair 64) : (s.setWm p w v).volt = s.volt := rfl
@[simp] theorem State.setWm_jtag (p w : Nat) (v : Pair 64) : (s.setWm p w v).jtag = s.jtag := rfl

/-! `State.setFar`. -/

@[simp] theorem State.setFar_pending (k : Nat) (v : Pair 128) : (s.setFar k v).pending = s.pending := rfl
@[simp] theorem State.setFar_out (k : Nat) (v : Pair 128) : (s.setFar k v).out = s.out := rfl
@[simp] theorem State.setFar_draws (k : Nat) (v : Pair 128) : (s.setFar k v).draws = s.draws := rfl
@[simp] theorem State.setFar_nextId (k : Nat) (v : Pair 128) : (s.setFar k v).nextId = s.nextId := rfl
@[simp] theorem State.setFar_posted (k : Nat) (v : Pair 128) : (s.setFar k v).posted = s.posted := rfl
@[simp] theorem State.setFar_regs (k : Nat) (v : Pair 128) : (s.setFar k v).regs = s.regs := rfl
@[simp] theorem State.setFar_mem (k : Nat) (v : Pair 128) : (s.setFar k v).mem = s.mem := rfl
@[simp] theorem State.setFar_stale (k : Nat) (v : Pair 128) : (s.setFar k v).stale = s.stale := rfl
@[simp] theorem State.setFar_ecc (k : Nat) (v : Pair 128) : (s.setFar k v).ecc = s.ecc := rfl
@[simp] theorem State.setFar_scratch (k : Nat) (v : Pair 128) : (s.setFar k v).scratch = s.scratch := rfl
@[simp] theorem State.setFar_scratchEcc (k : Nat) (v : Pair 128) : (s.setFar k v).scratchEcc = s.scratchEcc := rfl
@[simp] theorem State.setFar_arbs (k : Nat) (v : Pair 128) : (s.setFar k v).arbs = s.arbs := rfl
@[simp] theorem State.setFar_recode (k : Nat) (v : Pair 128) : (s.setFar k v).recode = s.recode := rfl
@[simp] theorem State.setFar_acts (k : Nat) (v : Pair 128) : (s.setFar k v).acts = s.acts := rfl
@[simp] theorem State.setFar_trr (k : Nat) (v : Pair 128) : (s.setFar k v).trr = s.trr := rfl
@[simp] theorem State.setFar_corrected (k : Nat) (v : Pair 128) : (s.setFar k v).corrected = s.corrected := rfl
@[simp] theorem State.setFar_spares (k : Nat) (v : Pair 128) : (s.setFar k v).spares = s.spares := rfl
@[simp] theorem State.setFar_remapDue (k : Nat) (v : Pair 128) : (s.setFar k v).remapDue = s.remapDue := rfl
@[simp] theorem State.setFar_ft (k : Nat) (v : Pair 128) : (s.setFar k v).ft = s.ft := rfl
@[simp] theorem State.setFar_gated (k : Nat) (v : Pair 128) : (s.setFar k v).gated = s.gated := rfl
@[simp] theorem State.setFar_life (k : Nat) (v : Pair 128) : (s.setFar k v).life = s.life := rfl
@[simp] theorem State.setFar_standbyWanted (k : Nat) (v : Pair 128) : (s.setFar k v).standbyWanted = s.standbyWanted := rfl
@[simp] theorem State.setFar_power (k : Nat) (v : Pair 128) : (s.setFar k v).power = s.power := rfl
@[simp] theorem State.setFar_powerWant (k : Nat) (v : Pair 128) : (s.setFar k v).powerWant = s.powerWant := rfl
@[simp] theorem State.setFar_powerNext (k : Nat) (v : Pair 128) : (s.setFar k v).powerNext = s.powerNext := rfl
@[simp] theorem State.setFar_saving (k : Nat) (v : Pair 128) : (s.setFar k v).saving = s.saving := rfl
@[simp] theorem State.setFar_pwrGood (k : Nat) (v : Pair 128) : (s.setFar k v).pwrGood = s.pwrGood := rfl
@[simp] theorem State.setFar_thermTripped (k : Nat) (v : Pair 128) : (s.setFar k v).thermTripped = s.thermTripped := rfl
@[simp] theorem State.setFar_straps (k : Nat) (v : Pair 128) : (s.setFar k v).straps = s.straps := rfl
@[simp] theorem State.setFar_cause (k : Nat) (v : Pair 128) : (s.setFar k v).cause = s.cause := rfl
@[simp] theorem State.setFar_charter (k : Nat) (v : Pair 128) : (s.setFar k v).charter = s.charter := rfl
@[simp] theorem State.setFar_identity (k : Nat) (v : Pair 128) : (s.setFar k v).identity = s.identity := rfl
@[simp] theorem State.setFar_entries (k : Nat) (v : Pair 128) : (s.setFar k v).entries = s.entries := rfl
@[simp] theorem State.setFar_partState (k : Nat) (v : Pair 128) : (s.setFar k v).partState = s.partState := rfl
@[simp] theorem State.setFar_lastLock (k : Nat) (v : Pair 128) : (s.setFar k v).lastLock = s.lastLock := rfl
@[simp] theorem State.setFar_releasing (k : Nat) (v : Pair 128) : (s.setFar k v).releasing = s.releasing := rfl
@[simp] theorem State.setFar_objs (k : Nat) (v : Pair 128) : (s.setFar k v).objs = s.objs := rfl
@[simp] theorem State.setFar_objStage (k : Nat) (v : Pair 128) : (s.setFar k v).objStage = s.objStage := rfl
@[simp] theorem State.setFar_dir (k : Nat) (v : Pair 128) : (s.setFar k v).dir = s.dir := rfl
@[simp] theorem State.setFar_dirGen (k : Nat) (v : Pair 128) : (s.setFar k v).dirGen = s.dirGen := rfl
@[simp] theorem State.setFar_lookup (k : Nat) (v : Pair 128) : (s.setFar k v).lookup = s.lookup := rfl
@[simp] theorem State.setFar_slots (k : Nat) (v : Pair 128) : (s.setFar k v).slots = s.slots := rfl
@[simp] theorem State.setFar_moves (k : Nat) (v : Pair 128) : (s.setFar k v).moves = s.moves := rfl
@[simp] theorem State.setFar_heat (k : Nat) (v : Pair 128) : (s.setFar k v).heat = s.heat := rfl
@[simp] theorem State.setFar_bg (k : Nat) (v : Pair 128) : (s.setFar k v).bg = s.bg := rfl
@[simp] theorem State.setFar_cmds (k : Nat) (v : Pair 128) : (s.setFar k v).cmds = s.cmds := rfl
@[simp] theorem State.setFar_rings (k : Nat) (v : Pair 128) : (s.setFar k v).rings = s.rings := rfl
@[simp] theorem State.setFar_links (k : Nat) (v : Pair 128) : (s.setFar k v).links = s.links := rfl
@[simp] theorem State.setFar_inq (k : Nat) (v : Pair 128) : (s.setFar k v).inq = s.inq := rfl
@[simp] theorem State.setFar_turns (k : Nat) (v : Pair 128) : (s.setFar k v).turns = s.turns := rfl
@[simp] theorem State.setFar_wms (k : Nat) (v : Pair 128) : (s.setFar k v).wms = s.wms := rfl
@[simp] theorem State.setFar_wmLatch (k : Nat) (v : Pair 128) : (s.setFar k v).wmLatch = s.wmLatch := rfl
@[simp] theorem State.setFar_holds (k : Nat) (v : Pair 128) : (s.setFar k v).holds = s.holds := rfl
@[simp] theorem State.setFar_hauls (k : Nat) (v : Pair 128) : (s.setFar k v).hauls = s.hauls := rfl
@[simp] theorem State.setFar_rows (k : Nat) (v : Pair 128) : (s.setFar k v).rows = s.rows := rfl
@[simp] theorem State.setFar_reqs (k : Nat) (v : Pair 128) : (s.setFar k v).reqs = s.reqs := rfl
@[simp] theorem State.setFar_plan (k : Nat) (v : Pair 128) : (s.setFar k v).plan = s.plan := rfl
@[simp] theorem State.setFar_planBase (k : Nat) (v : Pair 128) : (s.setFar k v).planBase = s.planBase := rfl
@[simp] theorem State.setFar_sent (k : Nat) (v : Pair 128) : (s.setFar k v).sent = s.sent := rfl
@[simp] theorem State.setFar_emberNums (k : Nat) (v : Pair 128) : (s.setFar k v).emberNums = s.emberNums := rfl
@[simp] theorem State.setFar_recv (k : Nat) (v : Pair 128) : (s.setFar k v).recv = s.recv := rfl
@[simp] theorem State.setFar_merges (k : Nat) (v : Pair 128) : (s.setFar k v).merges = s.merges := rfl
@[simp] theorem State.setFar_mergesDone (k : Nat) (v : Pair 128) : (s.setFar k v).mergesDone = s.mergesDone := rfl
@[simp] theorem State.setFar_images (k : Nat) (v : Pair 128) : (s.setFar k v).images = s.images := rfl
@[simp] theorem State.setFar_kindles (k : Nat) (v : Pair 128) : (s.setFar k v).kindles = s.kindles := rfl
@[simp] theorem State.setFar_arrayHclk (k : Nat) (v : Pair 128) : (s.setFar k v).arrayHclk = s.arrayHclk := rfl
@[simp] theorem State.setFar_arrayUsed (k : Nat) (v : Pair 128) : (s.setFar k v).arrayUsed = s.arrayUsed := rfl
@[simp] theorem State.setFar_scrub (k : Nat) (v : Pair 128) : (s.setFar k v).scrub = s.scrub := rfl
@[simp] theorem State.setFar_conns (k : Nat) (v : Pair 128) : (s.setFar k v).conns = s.conns := rfl
@[simp] theorem State.setFar_ports (k : Nat) (v : Pair 128) : (s.setFar k v).ports = s.ports := rfl
@[simp] theorem State.setFar_up (k : Nat) (v : Pair 128) : (s.setFar k v).up = s.up := rfl
@[simp] theorem State.setFar_waykeys (k : Nat) (v : Pair 128) : (s.setFar k v).waykeys = s.waykeys := rfl
@[simp] theorem State.setFar_wkLive (k : Nat) (v : Pair 128) : (s.setFar k v).wkLive = s.wkLive := rfl
@[simp] theorem State.setFar_vioLog (k : Nat) (v : Pair 128) : (s.setFar k v).vioLog = s.vioLog := rfl
@[simp] theorem State.setFar_shapers (k : Nat) (v : Pair 128) : (s.setFar k v).shapers = s.shapers := rfl
@[simp] theorem State.setFar_shChanges (k : Nat) (v : Pair 128) : (s.setFar k v).shChanges = s.shChanges := rfl
@[simp] theorem State.setFar_acctPackets (k : Nat) (v : Pair 128) : (s.setFar k v).acctPackets = s.acctPackets := rfl
@[simp] theorem State.setFar_drrs (k : Nat) (v : Pair 128) : (s.setFar k v).drrs = s.drrs := rfl
@[simp] theorem State.setFar_replies (k : Nat) (v : Pair 128) : (s.setFar k v).replies = s.replies := rfl
@[simp] theorem State.setFar_attest (k : Nat) (v : Pair 128) : (s.setFar k v).attest = s.attest := rfl
@[simp] theorem State.setFar_meters (k : Nat) (v : Pair 128) : (s.setFar k v).meters = s.meters := rfl
@[simp] theorem State.setFar_staging (k : Nat) (v : Pair 128) : (s.setFar k v).staging = s.staging := rfl
@[simp] theorem State.setFar_probe (k : Nat) (v : Pair 128) : (s.setFar k v).probe = s.probe := rfl
@[simp] theorem State.setFar_fenceRec (k : Nat) (v : Pair 128) : (s.setFar k v).fenceRec = s.fenceRec := rfl
@[simp] theorem State.setFar_suspects (k : Nat) (v : Pair 128) : (s.setFar k v).suspects = s.suspects := rfl
@[simp] theorem State.setFar_sharedFaults (k : Nat) (v : Pair 128) : (s.setFar k v).sharedFaults = s.sharedFaults := rfl
@[simp] theorem State.setFar_flits (k : Nat) (v : Pair 128) : (s.setFar k v).flits = s.flits := rfl
@[simp] theorem State.setFar_wdogValue (k : Nat) (v : Pair 128) : (s.setFar k v).wdogValue = s.wdogValue := rfl
@[simp] theorem State.setFar_wdogAt (k : Nat) (v : Pair 128) : (s.setFar k v).wdogAt = s.wdogAt := rfl
@[simp] theorem State.setFar_rebuilds (k : Nat) (v : Pair 128) : (s.setFar k v).rebuilds = s.rebuilds := rfl
@[simp] theorem State.setFar_forwards (k : Nat) (v : Pair 128) : (s.setFar k v).forwards = s.forwards := rfl
@[simp] theorem State.setFar_lodge (k : Nat) (v : Pair 128) : (s.setFar k v).lodge = s.lodge := rfl
@[simp] theorem State.setFar_resets (k : Nat) (v : Pair 128) : (s.setFar k v).resets = s.resets := rfl
@[simp] theorem State.setFar_engResets (k : Nat) (v : Pair 128) : (s.setFar k v).engResets = s.engResets := rfl
@[simp] theorem State.setFar_flash (k : Nat) (v : Pair 128) : (s.setFar k v).flash = s.flash := rfl
@[simp] theorem State.setFar_repairDirty (k : Nat) (v : Pair 128) : (s.setFar k v).repairDirty = s.repairDirty := rfl
@[simp] theorem State.setFar_mpeers (k : Nat) (v : Pair 128) : (s.setFar k v).mpeers = s.mpeers := rfl
@[simp] theorem State.setFar_mgmt (k : Nat) (v : Pair 128) : (s.setFar k v).mgmt = s.mgmt := rfl
@[simp] theorem State.setFar_rcvWriting (k : Nat) (v : Pair 128) : (s.setFar k v).rcvWriting = s.rcvWriting := rfl
@[simp] theorem State.setFar_i3c (k : Nat) (v : Pair 128) : (s.setFar k v).i3c = s.i3c := rfl
@[simp] theorem State.setFar_therm (k : Nat) (v : Pair 128) : (s.setFar k v).therm = s.therm := rfl
@[simp] theorem State.setFar_volt (k : Nat) (v : Pair 128) : (s.setFar k v).volt = s.volt := rfl
@[simp] theorem State.setFar_jtag (k : Nat) (v : Pair 128) : (s.setFar k v).jtag = s.jtag := rfl

/-! `State.setMeter`. -/

@[simp] theorem State.setMeter_pending (p : Nat) (m : Meter) : (s.setMeter p m).pending = s.pending := rfl
@[simp] theorem State.setMeter_out (p : Nat) (m : Meter) : (s.setMeter p m).out = s.out := rfl
@[simp] theorem State.setMeter_draws (p : Nat) (m : Meter) : (s.setMeter p m).draws = s.draws := rfl
@[simp] theorem State.setMeter_nextId (p : Nat) (m : Meter) : (s.setMeter p m).nextId = s.nextId := rfl
@[simp] theorem State.setMeter_posted (p : Nat) (m : Meter) : (s.setMeter p m).posted = s.posted := rfl
@[simp] theorem State.setMeter_regs (p : Nat) (m : Meter) : (s.setMeter p m).regs = s.regs := rfl
@[simp] theorem State.setMeter_mem (p : Nat) (m : Meter) : (s.setMeter p m).mem = s.mem := rfl
@[simp] theorem State.setMeter_stale (p : Nat) (m : Meter) : (s.setMeter p m).stale = s.stale := rfl
@[simp] theorem State.setMeter_ecc (p : Nat) (m : Meter) : (s.setMeter p m).ecc = s.ecc := rfl
@[simp] theorem State.setMeter_scratch (p : Nat) (m : Meter) : (s.setMeter p m).scratch = s.scratch := rfl
@[simp] theorem State.setMeter_scratchEcc (p : Nat) (m : Meter) : (s.setMeter p m).scratchEcc = s.scratchEcc := rfl
@[simp] theorem State.setMeter_arbs (p : Nat) (m : Meter) : (s.setMeter p m).arbs = s.arbs := rfl
@[simp] theorem State.setMeter_recode (p : Nat) (m : Meter) : (s.setMeter p m).recode = s.recode := rfl
@[simp] theorem State.setMeter_acts (p : Nat) (m : Meter) : (s.setMeter p m).acts = s.acts := rfl
@[simp] theorem State.setMeter_trr (p : Nat) (m : Meter) : (s.setMeter p m).trr = s.trr := rfl
@[simp] theorem State.setMeter_corrected (p : Nat) (m : Meter) : (s.setMeter p m).corrected = s.corrected := rfl
@[simp] theorem State.setMeter_spares (p : Nat) (m : Meter) : (s.setMeter p m).spares = s.spares := rfl
@[simp] theorem State.setMeter_remapDue (p : Nat) (m : Meter) : (s.setMeter p m).remapDue = s.remapDue := rfl
@[simp] theorem State.setMeter_ft (p : Nat) (m : Meter) : (s.setMeter p m).ft = s.ft := rfl
@[simp] theorem State.setMeter_gated (p : Nat) (m : Meter) : (s.setMeter p m).gated = s.gated := rfl
@[simp] theorem State.setMeter_life (p : Nat) (m : Meter) : (s.setMeter p m).life = s.life := rfl
@[simp] theorem State.setMeter_standbyWanted (p : Nat) (m : Meter) : (s.setMeter p m).standbyWanted = s.standbyWanted := rfl
@[simp] theorem State.setMeter_power (p : Nat) (m : Meter) : (s.setMeter p m).power = s.power := rfl
@[simp] theorem State.setMeter_powerWant (p : Nat) (m : Meter) : (s.setMeter p m).powerWant = s.powerWant := rfl
@[simp] theorem State.setMeter_powerNext (p : Nat) (m : Meter) : (s.setMeter p m).powerNext = s.powerNext := rfl
@[simp] theorem State.setMeter_saving (p : Nat) (m : Meter) : (s.setMeter p m).saving = s.saving := rfl
@[simp] theorem State.setMeter_pwrGood (p : Nat) (m : Meter) : (s.setMeter p m).pwrGood = s.pwrGood := rfl
@[simp] theorem State.setMeter_thermTripped (p : Nat) (m : Meter) : (s.setMeter p m).thermTripped = s.thermTripped := rfl
@[simp] theorem State.setMeter_straps (p : Nat) (m : Meter) : (s.setMeter p m).straps = s.straps := rfl
@[simp] theorem State.setMeter_cause (p : Nat) (m : Meter) : (s.setMeter p m).cause = s.cause := rfl
@[simp] theorem State.setMeter_charter (p : Nat) (m : Meter) : (s.setMeter p m).charter = s.charter := rfl
@[simp] theorem State.setMeter_identity (p : Nat) (m : Meter) : (s.setMeter p m).identity = s.identity := rfl
@[simp] theorem State.setMeter_entries (p : Nat) (m : Meter) : (s.setMeter p m).entries = s.entries := rfl
@[simp] theorem State.setMeter_partState (p : Nat) (m : Meter) : (s.setMeter p m).partState = s.partState := rfl
@[simp] theorem State.setMeter_lastLock (p : Nat) (m : Meter) : (s.setMeter p m).lastLock = s.lastLock := rfl
@[simp] theorem State.setMeter_releasing (p : Nat) (m : Meter) : (s.setMeter p m).releasing = s.releasing := rfl
@[simp] theorem State.setMeter_objs (p : Nat) (m : Meter) : (s.setMeter p m).objs = s.objs := rfl
@[simp] theorem State.setMeter_objStage (p : Nat) (m : Meter) : (s.setMeter p m).objStage = s.objStage := rfl
@[simp] theorem State.setMeter_far (p : Nat) (m : Meter) : (s.setMeter p m).far = s.far := rfl
@[simp] theorem State.setMeter_dir (p : Nat) (m : Meter) : (s.setMeter p m).dir = s.dir := rfl
@[simp] theorem State.setMeter_dirGen (p : Nat) (m : Meter) : (s.setMeter p m).dirGen = s.dirGen := rfl
@[simp] theorem State.setMeter_lookup (p : Nat) (m : Meter) : (s.setMeter p m).lookup = s.lookup := rfl
@[simp] theorem State.setMeter_slots (p : Nat) (m : Meter) : (s.setMeter p m).slots = s.slots := rfl
@[simp] theorem State.setMeter_moves (p : Nat) (m : Meter) : (s.setMeter p m).moves = s.moves := rfl
@[simp] theorem State.setMeter_heat (p : Nat) (m : Meter) : (s.setMeter p m).heat = s.heat := rfl
@[simp] theorem State.setMeter_bg (p : Nat) (m : Meter) : (s.setMeter p m).bg = s.bg := rfl
@[simp] theorem State.setMeter_cmds (p : Nat) (m : Meter) : (s.setMeter p m).cmds = s.cmds := rfl
@[simp] theorem State.setMeter_rings (p : Nat) (m : Meter) : (s.setMeter p m).rings = s.rings := rfl
@[simp] theorem State.setMeter_links (p : Nat) (m : Meter) : (s.setMeter p m).links = s.links := rfl
@[simp] theorem State.setMeter_inq (p : Nat) (m : Meter) : (s.setMeter p m).inq = s.inq := rfl
@[simp] theorem State.setMeter_turns (p : Nat) (m : Meter) : (s.setMeter p m).turns = s.turns := rfl
@[simp] theorem State.setMeter_wms (p : Nat) (m : Meter) : (s.setMeter p m).wms = s.wms := rfl
@[simp] theorem State.setMeter_wmLatch (p : Nat) (m : Meter) : (s.setMeter p m).wmLatch = s.wmLatch := rfl
@[simp] theorem State.setMeter_holds (p : Nat) (m : Meter) : (s.setMeter p m).holds = s.holds := rfl
@[simp] theorem State.setMeter_hauls (p : Nat) (m : Meter) : (s.setMeter p m).hauls = s.hauls := rfl
@[simp] theorem State.setMeter_rows (p : Nat) (m : Meter) : (s.setMeter p m).rows = s.rows := rfl
@[simp] theorem State.setMeter_reqs (p : Nat) (m : Meter) : (s.setMeter p m).reqs = s.reqs := rfl
@[simp] theorem State.setMeter_plan (p : Nat) (m : Meter) : (s.setMeter p m).plan = s.plan := rfl
@[simp] theorem State.setMeter_planBase (p : Nat) (m : Meter) : (s.setMeter p m).planBase = s.planBase := rfl
@[simp] theorem State.setMeter_sent (p : Nat) (m : Meter) : (s.setMeter p m).sent = s.sent := rfl
@[simp] theorem State.setMeter_emberNums (p : Nat) (m : Meter) : (s.setMeter p m).emberNums = s.emberNums := rfl
@[simp] theorem State.setMeter_recv (p : Nat) (m : Meter) : (s.setMeter p m).recv = s.recv := rfl
@[simp] theorem State.setMeter_merges (p : Nat) (m : Meter) : (s.setMeter p m).merges = s.merges := rfl
@[simp] theorem State.setMeter_mergesDone (p : Nat) (m : Meter) : (s.setMeter p m).mergesDone = s.mergesDone := rfl
@[simp] theorem State.setMeter_images (p : Nat) (m : Meter) : (s.setMeter p m).images = s.images := rfl
@[simp] theorem State.setMeter_kindles (p : Nat) (m : Meter) : (s.setMeter p m).kindles = s.kindles := rfl
@[simp] theorem State.setMeter_arrayHclk (p : Nat) (m : Meter) : (s.setMeter p m).arrayHclk = s.arrayHclk := rfl
@[simp] theorem State.setMeter_arrayUsed (p : Nat) (m : Meter) : (s.setMeter p m).arrayUsed = s.arrayUsed := rfl
@[simp] theorem State.setMeter_scrub (p : Nat) (m : Meter) : (s.setMeter p m).scrub = s.scrub := rfl
@[simp] theorem State.setMeter_conns (p : Nat) (m : Meter) : (s.setMeter p m).conns = s.conns := rfl
@[simp] theorem State.setMeter_ports (p : Nat) (m : Meter) : (s.setMeter p m).ports = s.ports := rfl
@[simp] theorem State.setMeter_up (p : Nat) (m : Meter) : (s.setMeter p m).up = s.up := rfl
@[simp] theorem State.setMeter_waykeys (p : Nat) (m : Meter) : (s.setMeter p m).waykeys = s.waykeys := rfl
@[simp] theorem State.setMeter_wkLive (p : Nat) (m : Meter) : (s.setMeter p m).wkLive = s.wkLive := rfl
@[simp] theorem State.setMeter_vioLog (p : Nat) (m : Meter) : (s.setMeter p m).vioLog = s.vioLog := rfl
@[simp] theorem State.setMeter_shapers (p : Nat) (m : Meter) : (s.setMeter p m).shapers = s.shapers := rfl
@[simp] theorem State.setMeter_shChanges (p : Nat) (m : Meter) : (s.setMeter p m).shChanges = s.shChanges := rfl
@[simp] theorem State.setMeter_acctPackets (p : Nat) (m : Meter) : (s.setMeter p m).acctPackets = s.acctPackets := rfl
@[simp] theorem State.setMeter_drrs (p : Nat) (m : Meter) : (s.setMeter p m).drrs = s.drrs := rfl
@[simp] theorem State.setMeter_replies (p : Nat) (m : Meter) : (s.setMeter p m).replies = s.replies := rfl
@[simp] theorem State.setMeter_attest (p : Nat) (m : Meter) : (s.setMeter p m).attest = s.attest := rfl
@[simp] theorem State.setMeter_staging (p : Nat) (m : Meter) : (s.setMeter p m).staging = s.staging := rfl
@[simp] theorem State.setMeter_probe (p : Nat) (m : Meter) : (s.setMeter p m).probe = s.probe := rfl
@[simp] theorem State.setMeter_fenceRec (p : Nat) (m : Meter) : (s.setMeter p m).fenceRec = s.fenceRec := rfl
@[simp] theorem State.setMeter_suspects (p : Nat) (m : Meter) : (s.setMeter p m).suspects = s.suspects := rfl
@[simp] theorem State.setMeter_sharedFaults (p : Nat) (m : Meter) : (s.setMeter p m).sharedFaults = s.sharedFaults := rfl
@[simp] theorem State.setMeter_flits (p : Nat) (m : Meter) : (s.setMeter p m).flits = s.flits := rfl
@[simp] theorem State.setMeter_wdogValue (p : Nat) (m : Meter) : (s.setMeter p m).wdogValue = s.wdogValue := rfl
@[simp] theorem State.setMeter_wdogAt (p : Nat) (m : Meter) : (s.setMeter p m).wdogAt = s.wdogAt := rfl
@[simp] theorem State.setMeter_rebuilds (p : Nat) (m : Meter) : (s.setMeter p m).rebuilds = s.rebuilds := rfl
@[simp] theorem State.setMeter_forwards (p : Nat) (m : Meter) : (s.setMeter p m).forwards = s.forwards := rfl
@[simp] theorem State.setMeter_lodge (p : Nat) (m : Meter) : (s.setMeter p m).lodge = s.lodge := rfl
@[simp] theorem State.setMeter_resets (p : Nat) (m : Meter) : (s.setMeter p m).resets = s.resets := rfl
@[simp] theorem State.setMeter_engResets (p : Nat) (m : Meter) : (s.setMeter p m).engResets = s.engResets := rfl
@[simp] theorem State.setMeter_flash (p : Nat) (m : Meter) : (s.setMeter p m).flash = s.flash := rfl
@[simp] theorem State.setMeter_repairDirty (p : Nat) (m : Meter) : (s.setMeter p m).repairDirty = s.repairDirty := rfl
@[simp] theorem State.setMeter_mpeers (p : Nat) (m : Meter) : (s.setMeter p m).mpeers = s.mpeers := rfl
@[simp] theorem State.setMeter_mgmt (p : Nat) (m : Meter) : (s.setMeter p m).mgmt = s.mgmt := rfl
@[simp] theorem State.setMeter_rcvWriting (p : Nat) (m : Meter) : (s.setMeter p m).rcvWriting = s.rcvWriting := rfl
@[simp] theorem State.setMeter_i3c (p : Nat) (m : Meter) : (s.setMeter p m).i3c = s.i3c := rfl
@[simp] theorem State.setMeter_therm (p : Nat) (m : Meter) : (s.setMeter p m).therm = s.therm := rfl
@[simp] theorem State.setMeter_volt (p : Nat) (m : Meter) : (s.setMeter p m).volt = s.volt := rfl
@[simp] theorem State.setMeter_jtag (p : Nat) (m : Meter) : (s.setMeter p m).jtag = s.jtag := rfl

/-! `State.wake`. -/

@[simp] theorem State.wake_pending (u : GateUnit) : (s.wake u).pending = s.pending := rfl
@[simp] theorem State.wake_out (u : GateUnit) : (s.wake u).out = s.out := rfl
@[simp] theorem State.wake_draws (u : GateUnit) : (s.wake u).draws = s.draws := rfl
@[simp] theorem State.wake_nextId (u : GateUnit) : (s.wake u).nextId = s.nextId := rfl
@[simp] theorem State.wake_posted (u : GateUnit) : (s.wake u).posted = s.posted := rfl
@[simp] theorem State.wake_regs (u : GateUnit) : (s.wake u).regs = s.regs := rfl
@[simp] theorem State.wake_mem (u : GateUnit) : (s.wake u).mem = s.mem := rfl
@[simp] theorem State.wake_stale (u : GateUnit) : (s.wake u).stale = s.stale := rfl
@[simp] theorem State.wake_ecc (u : GateUnit) : (s.wake u).ecc = s.ecc := rfl
@[simp] theorem State.wake_scratch (u : GateUnit) : (s.wake u).scratch = s.scratch := rfl
@[simp] theorem State.wake_scratchEcc (u : GateUnit) : (s.wake u).scratchEcc = s.scratchEcc := rfl
@[simp] theorem State.wake_arbs (u : GateUnit) : (s.wake u).arbs = s.arbs := rfl
@[simp] theorem State.wake_recode (u : GateUnit) : (s.wake u).recode = s.recode := rfl
@[simp] theorem State.wake_acts (u : GateUnit) : (s.wake u).acts = s.acts := rfl
@[simp] theorem State.wake_trr (u : GateUnit) : (s.wake u).trr = s.trr := rfl
@[simp] theorem State.wake_corrected (u : GateUnit) : (s.wake u).corrected = s.corrected := rfl
@[simp] theorem State.wake_spares (u : GateUnit) : (s.wake u).spares = s.spares := rfl
@[simp] theorem State.wake_remapDue (u : GateUnit) : (s.wake u).remapDue = s.remapDue := rfl
@[simp] theorem State.wake_ft (u : GateUnit) : (s.wake u).ft = s.ft := rfl
@[simp] theorem State.wake_life (u : GateUnit) : (s.wake u).life = s.life := rfl
@[simp] theorem State.wake_standbyWanted (u : GateUnit) : (s.wake u).standbyWanted = s.standbyWanted := rfl
@[simp] theorem State.wake_power (u : GateUnit) : (s.wake u).power = s.power := rfl
@[simp] theorem State.wake_powerWant (u : GateUnit) : (s.wake u).powerWant = s.powerWant := rfl
@[simp] theorem State.wake_powerNext (u : GateUnit) : (s.wake u).powerNext = s.powerNext := rfl
@[simp] theorem State.wake_saving (u : GateUnit) : (s.wake u).saving = s.saving := rfl
@[simp] theorem State.wake_pwrGood (u : GateUnit) : (s.wake u).pwrGood = s.pwrGood := rfl
@[simp] theorem State.wake_thermTripped (u : GateUnit) : (s.wake u).thermTripped = s.thermTripped := rfl
@[simp] theorem State.wake_straps (u : GateUnit) : (s.wake u).straps = s.straps := rfl
@[simp] theorem State.wake_cause (u : GateUnit) : (s.wake u).cause = s.cause := rfl
@[simp] theorem State.wake_charter (u : GateUnit) : (s.wake u).charter = s.charter := rfl
@[simp] theorem State.wake_identity (u : GateUnit) : (s.wake u).identity = s.identity := rfl
@[simp] theorem State.wake_entries (u : GateUnit) : (s.wake u).entries = s.entries := rfl
@[simp] theorem State.wake_partState (u : GateUnit) : (s.wake u).partState = s.partState := rfl
@[simp] theorem State.wake_lastLock (u : GateUnit) : (s.wake u).lastLock = s.lastLock := rfl
@[simp] theorem State.wake_releasing (u : GateUnit) : (s.wake u).releasing = s.releasing := rfl
@[simp] theorem State.wake_objs (u : GateUnit) : (s.wake u).objs = s.objs := rfl
@[simp] theorem State.wake_objStage (u : GateUnit) : (s.wake u).objStage = s.objStage := rfl
@[simp] theorem State.wake_far (u : GateUnit) : (s.wake u).far = s.far := rfl
@[simp] theorem State.wake_dir (u : GateUnit) : (s.wake u).dir = s.dir := rfl
@[simp] theorem State.wake_dirGen (u : GateUnit) : (s.wake u).dirGen = s.dirGen := rfl
@[simp] theorem State.wake_lookup (u : GateUnit) : (s.wake u).lookup = s.lookup := rfl
@[simp] theorem State.wake_slots (u : GateUnit) : (s.wake u).slots = s.slots := rfl
@[simp] theorem State.wake_moves (u : GateUnit) : (s.wake u).moves = s.moves := rfl
@[simp] theorem State.wake_heat (u : GateUnit) : (s.wake u).heat = s.heat := rfl
@[simp] theorem State.wake_bg (u : GateUnit) : (s.wake u).bg = s.bg := rfl
@[simp] theorem State.wake_cmds (u : GateUnit) : (s.wake u).cmds = s.cmds := rfl
@[simp] theorem State.wake_rings (u : GateUnit) : (s.wake u).rings = s.rings := rfl
@[simp] theorem State.wake_links (u : GateUnit) : (s.wake u).links = s.links := rfl
@[simp] theorem State.wake_inq (u : GateUnit) : (s.wake u).inq = s.inq := rfl
@[simp] theorem State.wake_turns (u : GateUnit) : (s.wake u).turns = s.turns := rfl
@[simp] theorem State.wake_wms (u : GateUnit) : (s.wake u).wms = s.wms := rfl
@[simp] theorem State.wake_wmLatch (u : GateUnit) : (s.wake u).wmLatch = s.wmLatch := rfl
@[simp] theorem State.wake_holds (u : GateUnit) : (s.wake u).holds = s.holds := rfl
@[simp] theorem State.wake_hauls (u : GateUnit) : (s.wake u).hauls = s.hauls := rfl
@[simp] theorem State.wake_rows (u : GateUnit) : (s.wake u).rows = s.rows := rfl
@[simp] theorem State.wake_reqs (u : GateUnit) : (s.wake u).reqs = s.reqs := rfl
@[simp] theorem State.wake_plan (u : GateUnit) : (s.wake u).plan = s.plan := rfl
@[simp] theorem State.wake_planBase (u : GateUnit) : (s.wake u).planBase = s.planBase := rfl
@[simp] theorem State.wake_sent (u : GateUnit) : (s.wake u).sent = s.sent := rfl
@[simp] theorem State.wake_emberNums (u : GateUnit) : (s.wake u).emberNums = s.emberNums := rfl
@[simp] theorem State.wake_recv (u : GateUnit) : (s.wake u).recv = s.recv := rfl
@[simp] theorem State.wake_merges (u : GateUnit) : (s.wake u).merges = s.merges := rfl
@[simp] theorem State.wake_mergesDone (u : GateUnit) : (s.wake u).mergesDone = s.mergesDone := rfl
@[simp] theorem State.wake_images (u : GateUnit) : (s.wake u).images = s.images := rfl
@[simp] theorem State.wake_kindles (u : GateUnit) : (s.wake u).kindles = s.kindles := rfl
@[simp] theorem State.wake_arrayHclk (u : GateUnit) : (s.wake u).arrayHclk = s.arrayHclk := rfl
@[simp] theorem State.wake_arrayUsed (u : GateUnit) : (s.wake u).arrayUsed = s.arrayUsed := rfl
@[simp] theorem State.wake_scrub (u : GateUnit) : (s.wake u).scrub = s.scrub := rfl
@[simp] theorem State.wake_conns (u : GateUnit) : (s.wake u).conns = s.conns := rfl
@[simp] theorem State.wake_ports (u : GateUnit) : (s.wake u).ports = s.ports := rfl
@[simp] theorem State.wake_up (u : GateUnit) : (s.wake u).up = s.up := rfl
@[simp] theorem State.wake_waykeys (u : GateUnit) : (s.wake u).waykeys = s.waykeys := rfl
@[simp] theorem State.wake_wkLive (u : GateUnit) : (s.wake u).wkLive = s.wkLive := rfl
@[simp] theorem State.wake_vioLog (u : GateUnit) : (s.wake u).vioLog = s.vioLog := rfl
@[simp] theorem State.wake_shapers (u : GateUnit) : (s.wake u).shapers = s.shapers := rfl
@[simp] theorem State.wake_shChanges (u : GateUnit) : (s.wake u).shChanges = s.shChanges := rfl
@[simp] theorem State.wake_acctPackets (u : GateUnit) : (s.wake u).acctPackets = s.acctPackets := rfl
@[simp] theorem State.wake_drrs (u : GateUnit) : (s.wake u).drrs = s.drrs := rfl
@[simp] theorem State.wake_replies (u : GateUnit) : (s.wake u).replies = s.replies := rfl
@[simp] theorem State.wake_attest (u : GateUnit) : (s.wake u).attest = s.attest := rfl
@[simp] theorem State.wake_meters (u : GateUnit) : (s.wake u).meters = s.meters := rfl
@[simp] theorem State.wake_staging (u : GateUnit) : (s.wake u).staging = s.staging := rfl
@[simp] theorem State.wake_probe (u : GateUnit) : (s.wake u).probe = s.probe := rfl
@[simp] theorem State.wake_fenceRec (u : GateUnit) : (s.wake u).fenceRec = s.fenceRec := rfl
@[simp] theorem State.wake_suspects (u : GateUnit) : (s.wake u).suspects = s.suspects := rfl
@[simp] theorem State.wake_sharedFaults (u : GateUnit) : (s.wake u).sharedFaults = s.sharedFaults := rfl
@[simp] theorem State.wake_flits (u : GateUnit) : (s.wake u).flits = s.flits := rfl
@[simp] theorem State.wake_wdogValue (u : GateUnit) : (s.wake u).wdogValue = s.wdogValue := rfl
@[simp] theorem State.wake_wdogAt (u : GateUnit) : (s.wake u).wdogAt = s.wdogAt := rfl
@[simp] theorem State.wake_rebuilds (u : GateUnit) : (s.wake u).rebuilds = s.rebuilds := rfl
@[simp] theorem State.wake_forwards (u : GateUnit) : (s.wake u).forwards = s.forwards := rfl
@[simp] theorem State.wake_lodge (u : GateUnit) : (s.wake u).lodge = s.lodge := rfl
@[simp] theorem State.wake_resets (u : GateUnit) : (s.wake u).resets = s.resets := rfl
@[simp] theorem State.wake_engResets (u : GateUnit) : (s.wake u).engResets = s.engResets := rfl
@[simp] theorem State.wake_flash (u : GateUnit) : (s.wake u).flash = s.flash := rfl
@[simp] theorem State.wake_repairDirty (u : GateUnit) : (s.wake u).repairDirty = s.repairDirty := rfl
@[simp] theorem State.wake_mpeers (u : GateUnit) : (s.wake u).mpeers = s.mpeers := rfl
@[simp] theorem State.wake_mgmt (u : GateUnit) : (s.wake u).mgmt = s.mgmt := rfl
@[simp] theorem State.wake_rcvWriting (u : GateUnit) : (s.wake u).rcvWriting = s.rcvWriting := rfl
@[simp] theorem State.wake_i3c (u : GateUnit) : (s.wake u).i3c = s.i3c := rfl
@[simp] theorem State.wake_therm (u : GateUnit) : (s.wake u).therm = s.therm := rfl
@[simp] theorem State.wake_volt (u : GateUnit) : (s.wake u).volt = s.volt := rfl
@[simp] theorem State.wake_jtag (u : GateUnit) : (s.wake u).jtag = s.jtag := rfl

/-! `State.setWaykey`. -/

@[simp] theorem State.setWaykey_pending (i : Nat) (v : Pair 256) : (s.setWaykey i v).pending = s.pending := rfl
@[simp] theorem State.setWaykey_out (i : Nat) (v : Pair 256) : (s.setWaykey i v).out = s.out := rfl
@[simp] theorem State.setWaykey_draws (i : Nat) (v : Pair 256) : (s.setWaykey i v).draws = s.draws := rfl
@[simp] theorem State.setWaykey_nextId (i : Nat) (v : Pair 256) : (s.setWaykey i v).nextId = s.nextId := rfl
@[simp] theorem State.setWaykey_posted (i : Nat) (v : Pair 256) : (s.setWaykey i v).posted = s.posted := rfl
@[simp] theorem State.setWaykey_regs (i : Nat) (v : Pair 256) : (s.setWaykey i v).regs = s.regs := rfl
@[simp] theorem State.setWaykey_mem (i : Nat) (v : Pair 256) : (s.setWaykey i v).mem = s.mem := rfl
@[simp] theorem State.setWaykey_stale (i : Nat) (v : Pair 256) : (s.setWaykey i v).stale = s.stale := rfl
@[simp] theorem State.setWaykey_ecc (i : Nat) (v : Pair 256) : (s.setWaykey i v).ecc = s.ecc := rfl
@[simp] theorem State.setWaykey_scratch (i : Nat) (v : Pair 256) : (s.setWaykey i v).scratch = s.scratch := rfl
@[simp] theorem State.setWaykey_scratchEcc (i : Nat) (v : Pair 256) : (s.setWaykey i v).scratchEcc = s.scratchEcc := rfl
@[simp] theorem State.setWaykey_arbs (i : Nat) (v : Pair 256) : (s.setWaykey i v).arbs = s.arbs := rfl
@[simp] theorem State.setWaykey_recode (i : Nat) (v : Pair 256) : (s.setWaykey i v).recode = s.recode := rfl
@[simp] theorem State.setWaykey_acts (i : Nat) (v : Pair 256) : (s.setWaykey i v).acts = s.acts := rfl
@[simp] theorem State.setWaykey_trr (i : Nat) (v : Pair 256) : (s.setWaykey i v).trr = s.trr := rfl
@[simp] theorem State.setWaykey_corrected (i : Nat) (v : Pair 256) : (s.setWaykey i v).corrected = s.corrected := rfl
@[simp] theorem State.setWaykey_spares (i : Nat) (v : Pair 256) : (s.setWaykey i v).spares = s.spares := rfl
@[simp] theorem State.setWaykey_remapDue (i : Nat) (v : Pair 256) : (s.setWaykey i v).remapDue = s.remapDue := rfl
@[simp] theorem State.setWaykey_ft (i : Nat) (v : Pair 256) : (s.setWaykey i v).ft = s.ft := rfl
@[simp] theorem State.setWaykey_gated (i : Nat) (v : Pair 256) : (s.setWaykey i v).gated = s.gated := rfl
@[simp] theorem State.setWaykey_life (i : Nat) (v : Pair 256) : (s.setWaykey i v).life = s.life := rfl
@[simp] theorem State.setWaykey_standbyWanted (i : Nat) (v : Pair 256) : (s.setWaykey i v).standbyWanted = s.standbyWanted := rfl
@[simp] theorem State.setWaykey_power (i : Nat) (v : Pair 256) : (s.setWaykey i v).power = s.power := rfl
@[simp] theorem State.setWaykey_powerWant (i : Nat) (v : Pair 256) : (s.setWaykey i v).powerWant = s.powerWant := rfl
@[simp] theorem State.setWaykey_powerNext (i : Nat) (v : Pair 256) : (s.setWaykey i v).powerNext = s.powerNext := rfl
@[simp] theorem State.setWaykey_saving (i : Nat) (v : Pair 256) : (s.setWaykey i v).saving = s.saving := rfl
@[simp] theorem State.setWaykey_pwrGood (i : Nat) (v : Pair 256) : (s.setWaykey i v).pwrGood = s.pwrGood := rfl
@[simp] theorem State.setWaykey_thermTripped (i : Nat) (v : Pair 256) : (s.setWaykey i v).thermTripped = s.thermTripped := rfl
@[simp] theorem State.setWaykey_straps (i : Nat) (v : Pair 256) : (s.setWaykey i v).straps = s.straps := rfl
@[simp] theorem State.setWaykey_cause (i : Nat) (v : Pair 256) : (s.setWaykey i v).cause = s.cause := rfl
@[simp] theorem State.setWaykey_charter (i : Nat) (v : Pair 256) : (s.setWaykey i v).charter = s.charter := rfl
@[simp] theorem State.setWaykey_identity (i : Nat) (v : Pair 256) : (s.setWaykey i v).identity = s.identity := rfl
@[simp] theorem State.setWaykey_entries (i : Nat) (v : Pair 256) : (s.setWaykey i v).entries = s.entries := rfl
@[simp] theorem State.setWaykey_partState (i : Nat) (v : Pair 256) : (s.setWaykey i v).partState = s.partState := rfl
@[simp] theorem State.setWaykey_lastLock (i : Nat) (v : Pair 256) : (s.setWaykey i v).lastLock = s.lastLock := rfl
@[simp] theorem State.setWaykey_releasing (i : Nat) (v : Pair 256) : (s.setWaykey i v).releasing = s.releasing := rfl
@[simp] theorem State.setWaykey_objs (i : Nat) (v : Pair 256) : (s.setWaykey i v).objs = s.objs := rfl
@[simp] theorem State.setWaykey_objStage (i : Nat) (v : Pair 256) : (s.setWaykey i v).objStage = s.objStage := rfl
@[simp] theorem State.setWaykey_far (i : Nat) (v : Pair 256) : (s.setWaykey i v).far = s.far := rfl
@[simp] theorem State.setWaykey_dir (i : Nat) (v : Pair 256) : (s.setWaykey i v).dir = s.dir := rfl
@[simp] theorem State.setWaykey_dirGen (i : Nat) (v : Pair 256) : (s.setWaykey i v).dirGen = s.dirGen := rfl
@[simp] theorem State.setWaykey_lookup (i : Nat) (v : Pair 256) : (s.setWaykey i v).lookup = s.lookup := rfl
@[simp] theorem State.setWaykey_slots (i : Nat) (v : Pair 256) : (s.setWaykey i v).slots = s.slots := rfl
@[simp] theorem State.setWaykey_moves (i : Nat) (v : Pair 256) : (s.setWaykey i v).moves = s.moves := rfl
@[simp] theorem State.setWaykey_heat (i : Nat) (v : Pair 256) : (s.setWaykey i v).heat = s.heat := rfl
@[simp] theorem State.setWaykey_bg (i : Nat) (v : Pair 256) : (s.setWaykey i v).bg = s.bg := rfl
@[simp] theorem State.setWaykey_cmds (i : Nat) (v : Pair 256) : (s.setWaykey i v).cmds = s.cmds := rfl
@[simp] theorem State.setWaykey_rings (i : Nat) (v : Pair 256) : (s.setWaykey i v).rings = s.rings := rfl
@[simp] theorem State.setWaykey_links (i : Nat) (v : Pair 256) : (s.setWaykey i v).links = s.links := rfl
@[simp] theorem State.setWaykey_inq (i : Nat) (v : Pair 256) : (s.setWaykey i v).inq = s.inq := rfl
@[simp] theorem State.setWaykey_turns (i : Nat) (v : Pair 256) : (s.setWaykey i v).turns = s.turns := rfl
@[simp] theorem State.setWaykey_wms (i : Nat) (v : Pair 256) : (s.setWaykey i v).wms = s.wms := rfl
@[simp] theorem State.setWaykey_wmLatch (i : Nat) (v : Pair 256) : (s.setWaykey i v).wmLatch = s.wmLatch := rfl
@[simp] theorem State.setWaykey_holds (i : Nat) (v : Pair 256) : (s.setWaykey i v).holds = s.holds := rfl
@[simp] theorem State.setWaykey_hauls (i : Nat) (v : Pair 256) : (s.setWaykey i v).hauls = s.hauls := rfl
@[simp] theorem State.setWaykey_rows (i : Nat) (v : Pair 256) : (s.setWaykey i v).rows = s.rows := rfl
@[simp] theorem State.setWaykey_reqs (i : Nat) (v : Pair 256) : (s.setWaykey i v).reqs = s.reqs := rfl
@[simp] theorem State.setWaykey_plan (i : Nat) (v : Pair 256) : (s.setWaykey i v).plan = s.plan := rfl
@[simp] theorem State.setWaykey_planBase (i : Nat) (v : Pair 256) : (s.setWaykey i v).planBase = s.planBase := rfl
@[simp] theorem State.setWaykey_sent (i : Nat) (v : Pair 256) : (s.setWaykey i v).sent = s.sent := rfl
@[simp] theorem State.setWaykey_emberNums (i : Nat) (v : Pair 256) : (s.setWaykey i v).emberNums = s.emberNums := rfl
@[simp] theorem State.setWaykey_recv (i : Nat) (v : Pair 256) : (s.setWaykey i v).recv = s.recv := rfl
@[simp] theorem State.setWaykey_merges (i : Nat) (v : Pair 256) : (s.setWaykey i v).merges = s.merges := rfl
@[simp] theorem State.setWaykey_mergesDone (i : Nat) (v : Pair 256) : (s.setWaykey i v).mergesDone = s.mergesDone := rfl
@[simp] theorem State.setWaykey_images (i : Nat) (v : Pair 256) : (s.setWaykey i v).images = s.images := rfl
@[simp] theorem State.setWaykey_kindles (i : Nat) (v : Pair 256) : (s.setWaykey i v).kindles = s.kindles := rfl
@[simp] theorem State.setWaykey_arrayHclk (i : Nat) (v : Pair 256) : (s.setWaykey i v).arrayHclk = s.arrayHclk := rfl
@[simp] theorem State.setWaykey_arrayUsed (i : Nat) (v : Pair 256) : (s.setWaykey i v).arrayUsed = s.arrayUsed := rfl
@[simp] theorem State.setWaykey_scrub (i : Nat) (v : Pair 256) : (s.setWaykey i v).scrub = s.scrub := rfl
@[simp] theorem State.setWaykey_conns (i : Nat) (v : Pair 256) : (s.setWaykey i v).conns = s.conns := rfl
@[simp] theorem State.setWaykey_ports (i : Nat) (v : Pair 256) : (s.setWaykey i v).ports = s.ports := rfl
@[simp] theorem State.setWaykey_up (i : Nat) (v : Pair 256) : (s.setWaykey i v).up = s.up := rfl
@[simp] theorem State.setWaykey_wkLive (i : Nat) (v : Pair 256) : (s.setWaykey i v).wkLive = s.wkLive := rfl
@[simp] theorem State.setWaykey_vioLog (i : Nat) (v : Pair 256) : (s.setWaykey i v).vioLog = s.vioLog := rfl
@[simp] theorem State.setWaykey_shapers (i : Nat) (v : Pair 256) : (s.setWaykey i v).shapers = s.shapers := rfl
@[simp] theorem State.setWaykey_shChanges (i : Nat) (v : Pair 256) : (s.setWaykey i v).shChanges = s.shChanges := rfl
@[simp] theorem State.setWaykey_acctPackets (i : Nat) (v : Pair 256) : (s.setWaykey i v).acctPackets = s.acctPackets := rfl
@[simp] theorem State.setWaykey_drrs (i : Nat) (v : Pair 256) : (s.setWaykey i v).drrs = s.drrs := rfl
@[simp] theorem State.setWaykey_replies (i : Nat) (v : Pair 256) : (s.setWaykey i v).replies = s.replies := rfl
@[simp] theorem State.setWaykey_attest (i : Nat) (v : Pair 256) : (s.setWaykey i v).attest = s.attest := rfl
@[simp] theorem State.setWaykey_meters (i : Nat) (v : Pair 256) : (s.setWaykey i v).meters = s.meters := rfl
@[simp] theorem State.setWaykey_staging (i : Nat) (v : Pair 256) : (s.setWaykey i v).staging = s.staging := rfl
@[simp] theorem State.setWaykey_probe (i : Nat) (v : Pair 256) : (s.setWaykey i v).probe = s.probe := rfl
@[simp] theorem State.setWaykey_fenceRec (i : Nat) (v : Pair 256) : (s.setWaykey i v).fenceRec = s.fenceRec := rfl
@[simp] theorem State.setWaykey_suspects (i : Nat) (v : Pair 256) : (s.setWaykey i v).suspects = s.suspects := rfl
@[simp] theorem State.setWaykey_sharedFaults (i : Nat) (v : Pair 256) : (s.setWaykey i v).sharedFaults = s.sharedFaults := rfl
@[simp] theorem State.setWaykey_flits (i : Nat) (v : Pair 256) : (s.setWaykey i v).flits = s.flits := rfl
@[simp] theorem State.setWaykey_wdogValue (i : Nat) (v : Pair 256) : (s.setWaykey i v).wdogValue = s.wdogValue := rfl
@[simp] theorem State.setWaykey_wdogAt (i : Nat) (v : Pair 256) : (s.setWaykey i v).wdogAt = s.wdogAt := rfl
@[simp] theorem State.setWaykey_rebuilds (i : Nat) (v : Pair 256) : (s.setWaykey i v).rebuilds = s.rebuilds := rfl
@[simp] theorem State.setWaykey_forwards (i : Nat) (v : Pair 256) : (s.setWaykey i v).forwards = s.forwards := rfl
@[simp] theorem State.setWaykey_lodge (i : Nat) (v : Pair 256) : (s.setWaykey i v).lodge = s.lodge := rfl
@[simp] theorem State.setWaykey_resets (i : Nat) (v : Pair 256) : (s.setWaykey i v).resets = s.resets := rfl
@[simp] theorem State.setWaykey_engResets (i : Nat) (v : Pair 256) : (s.setWaykey i v).engResets = s.engResets := rfl
@[simp] theorem State.setWaykey_flash (i : Nat) (v : Pair 256) : (s.setWaykey i v).flash = s.flash := rfl
@[simp] theorem State.setWaykey_repairDirty (i : Nat) (v : Pair 256) : (s.setWaykey i v).repairDirty = s.repairDirty := rfl
@[simp] theorem State.setWaykey_mpeers (i : Nat) (v : Pair 256) : (s.setWaykey i v).mpeers = s.mpeers := rfl
@[simp] theorem State.setWaykey_mgmt (i : Nat) (v : Pair 256) : (s.setWaykey i v).mgmt = s.mgmt := rfl
@[simp] theorem State.setWaykey_rcvWriting (i : Nat) (v : Pair 256) : (s.setWaykey i v).rcvWriting = s.rcvWriting := rfl
@[simp] theorem State.setWaykey_i3c (i : Nat) (v : Pair 256) : (s.setWaykey i v).i3c = s.i3c := rfl
@[simp] theorem State.setWaykey_therm (i : Nat) (v : Pair 256) : (s.setWaykey i v).therm = s.therm := rfl
@[simp] theorem State.setWaykey_volt (i : Nat) (v : Pair 256) : (s.setWaykey i v).volt = s.volt := rfl
@[simp] theorem State.setWaykey_jtag (i : Nat) (v : Pair 256) : (s.setWaykey i v).jtag = s.jtag := rfl

/-! `State.setScratch`. -/

@[simp] theorem State.setScratch_pending (c : Nat) (x : Scratch) : (s.setScratch c x).pending = s.pending := rfl
@[simp] theorem State.setScratch_out (c : Nat) (x : Scratch) : (s.setScratch c x).out = s.out := rfl
@[simp] theorem State.setScratch_draws (c : Nat) (x : Scratch) : (s.setScratch c x).draws = s.draws := rfl
@[simp] theorem State.setScratch_nextId (c : Nat) (x : Scratch) : (s.setScratch c x).nextId = s.nextId := rfl
@[simp] theorem State.setScratch_posted (c : Nat) (x : Scratch) : (s.setScratch c x).posted = s.posted := rfl
@[simp] theorem State.setScratch_regs (c : Nat) (x : Scratch) : (s.setScratch c x).regs = s.regs := rfl
@[simp] theorem State.setScratch_mem (c : Nat) (x : Scratch) : (s.setScratch c x).mem = s.mem := rfl
@[simp] theorem State.setScratch_stale (c : Nat) (x : Scratch) : (s.setScratch c x).stale = s.stale := rfl
@[simp] theorem State.setScratch_ecc (c : Nat) (x : Scratch) : (s.setScratch c x).ecc = s.ecc := rfl
@[simp] theorem State.setScratch_scratchEcc (c : Nat) (x : Scratch) : (s.setScratch c x).scratchEcc = s.scratchEcc := rfl
@[simp] theorem State.setScratch_arbs (c : Nat) (x : Scratch) : (s.setScratch c x).arbs = s.arbs := rfl
@[simp] theorem State.setScratch_recode (c : Nat) (x : Scratch) : (s.setScratch c x).recode = s.recode := rfl
@[simp] theorem State.setScratch_acts (c : Nat) (x : Scratch) : (s.setScratch c x).acts = s.acts := rfl
@[simp] theorem State.setScratch_trr (c : Nat) (x : Scratch) : (s.setScratch c x).trr = s.trr := rfl
@[simp] theorem State.setScratch_corrected (c : Nat) (x : Scratch) : (s.setScratch c x).corrected = s.corrected := rfl
@[simp] theorem State.setScratch_spares (c : Nat) (x : Scratch) : (s.setScratch c x).spares = s.spares := rfl
@[simp] theorem State.setScratch_remapDue (c : Nat) (x : Scratch) : (s.setScratch c x).remapDue = s.remapDue := rfl
@[simp] theorem State.setScratch_ft (c : Nat) (x : Scratch) : (s.setScratch c x).ft = s.ft := rfl
@[simp] theorem State.setScratch_gated (c : Nat) (x : Scratch) : (s.setScratch c x).gated = s.gated := rfl
@[simp] theorem State.setScratch_life (c : Nat) (x : Scratch) : (s.setScratch c x).life = s.life := rfl
@[simp] theorem State.setScratch_standbyWanted (c : Nat) (x : Scratch) : (s.setScratch c x).standbyWanted = s.standbyWanted := rfl
@[simp] theorem State.setScratch_power (c : Nat) (x : Scratch) : (s.setScratch c x).power = s.power := rfl
@[simp] theorem State.setScratch_powerWant (c : Nat) (x : Scratch) : (s.setScratch c x).powerWant = s.powerWant := rfl
@[simp] theorem State.setScratch_powerNext (c : Nat) (x : Scratch) : (s.setScratch c x).powerNext = s.powerNext := rfl
@[simp] theorem State.setScratch_saving (c : Nat) (x : Scratch) : (s.setScratch c x).saving = s.saving := rfl
@[simp] theorem State.setScratch_pwrGood (c : Nat) (x : Scratch) : (s.setScratch c x).pwrGood = s.pwrGood := rfl
@[simp] theorem State.setScratch_thermTripped (c : Nat) (x : Scratch) : (s.setScratch c x).thermTripped = s.thermTripped := rfl
@[simp] theorem State.setScratch_straps (c : Nat) (x : Scratch) : (s.setScratch c x).straps = s.straps := rfl
@[simp] theorem State.setScratch_cause (c : Nat) (x : Scratch) : (s.setScratch c x).cause = s.cause := rfl
@[simp] theorem State.setScratch_charter (c : Nat) (x : Scratch) : (s.setScratch c x).charter = s.charter := rfl
@[simp] theorem State.setScratch_identity (c : Nat) (x : Scratch) : (s.setScratch c x).identity = s.identity := rfl
@[simp] theorem State.setScratch_entries (c : Nat) (x : Scratch) : (s.setScratch c x).entries = s.entries := rfl
@[simp] theorem State.setScratch_partState (c : Nat) (x : Scratch) : (s.setScratch c x).partState = s.partState := rfl
@[simp] theorem State.setScratch_lastLock (c : Nat) (x : Scratch) : (s.setScratch c x).lastLock = s.lastLock := rfl
@[simp] theorem State.setScratch_releasing (c : Nat) (x : Scratch) : (s.setScratch c x).releasing = s.releasing := rfl
@[simp] theorem State.setScratch_objs (c : Nat) (x : Scratch) : (s.setScratch c x).objs = s.objs := rfl
@[simp] theorem State.setScratch_objStage (c : Nat) (x : Scratch) : (s.setScratch c x).objStage = s.objStage := rfl
@[simp] theorem State.setScratch_far (c : Nat) (x : Scratch) : (s.setScratch c x).far = s.far := rfl
@[simp] theorem State.setScratch_dir (c : Nat) (x : Scratch) : (s.setScratch c x).dir = s.dir := rfl
@[simp] theorem State.setScratch_dirGen (c : Nat) (x : Scratch) : (s.setScratch c x).dirGen = s.dirGen := rfl
@[simp] theorem State.setScratch_lookup (c : Nat) (x : Scratch) : (s.setScratch c x).lookup = s.lookup := rfl
@[simp] theorem State.setScratch_slots (c : Nat) (x : Scratch) : (s.setScratch c x).slots = s.slots := rfl
@[simp] theorem State.setScratch_moves (c : Nat) (x : Scratch) : (s.setScratch c x).moves = s.moves := rfl
@[simp] theorem State.setScratch_heat (c : Nat) (x : Scratch) : (s.setScratch c x).heat = s.heat := rfl
@[simp] theorem State.setScratch_bg (c : Nat) (x : Scratch) : (s.setScratch c x).bg = s.bg := rfl
@[simp] theorem State.setScratch_cmds (c : Nat) (x : Scratch) : (s.setScratch c x).cmds = s.cmds := rfl
@[simp] theorem State.setScratch_rings (c : Nat) (x : Scratch) : (s.setScratch c x).rings = s.rings := rfl
@[simp] theorem State.setScratch_links (c : Nat) (x : Scratch) : (s.setScratch c x).links = s.links := rfl
@[simp] theorem State.setScratch_inq (c : Nat) (x : Scratch) : (s.setScratch c x).inq = s.inq := rfl
@[simp] theorem State.setScratch_turns (c : Nat) (x : Scratch) : (s.setScratch c x).turns = s.turns := rfl
@[simp] theorem State.setScratch_wms (c : Nat) (x : Scratch) : (s.setScratch c x).wms = s.wms := rfl
@[simp] theorem State.setScratch_wmLatch (c : Nat) (x : Scratch) : (s.setScratch c x).wmLatch = s.wmLatch := rfl
@[simp] theorem State.setScratch_holds (c : Nat) (x : Scratch) : (s.setScratch c x).holds = s.holds := rfl
@[simp] theorem State.setScratch_hauls (c : Nat) (x : Scratch) : (s.setScratch c x).hauls = s.hauls := rfl
@[simp] theorem State.setScratch_rows (c : Nat) (x : Scratch) : (s.setScratch c x).rows = s.rows := rfl
@[simp] theorem State.setScratch_reqs (c : Nat) (x : Scratch) : (s.setScratch c x).reqs = s.reqs := rfl
@[simp] theorem State.setScratch_plan (c : Nat) (x : Scratch) : (s.setScratch c x).plan = s.plan := rfl
@[simp] theorem State.setScratch_planBase (c : Nat) (x : Scratch) : (s.setScratch c x).planBase = s.planBase := rfl
@[simp] theorem State.setScratch_sent (c : Nat) (x : Scratch) : (s.setScratch c x).sent = s.sent := rfl
@[simp] theorem State.setScratch_emberNums (c : Nat) (x : Scratch) : (s.setScratch c x).emberNums = s.emberNums := rfl
@[simp] theorem State.setScratch_recv (c : Nat) (x : Scratch) : (s.setScratch c x).recv = s.recv := rfl
@[simp] theorem State.setScratch_merges (c : Nat) (x : Scratch) : (s.setScratch c x).merges = s.merges := rfl
@[simp] theorem State.setScratch_mergesDone (c : Nat) (x : Scratch) : (s.setScratch c x).mergesDone = s.mergesDone := rfl
@[simp] theorem State.setScratch_images (c : Nat) (x : Scratch) : (s.setScratch c x).images = s.images := rfl
@[simp] theorem State.setScratch_kindles (c : Nat) (x : Scratch) : (s.setScratch c x).kindles = s.kindles := rfl
@[simp] theorem State.setScratch_arrayHclk (c : Nat) (x : Scratch) : (s.setScratch c x).arrayHclk = s.arrayHclk := rfl
@[simp] theorem State.setScratch_arrayUsed (c : Nat) (x : Scratch) : (s.setScratch c x).arrayUsed = s.arrayUsed := rfl
@[simp] theorem State.setScratch_scrub (c : Nat) (x : Scratch) : (s.setScratch c x).scrub = s.scrub := rfl
@[simp] theorem State.setScratch_conns (c : Nat) (x : Scratch) : (s.setScratch c x).conns = s.conns := rfl
@[simp] theorem State.setScratch_ports (c : Nat) (x : Scratch) : (s.setScratch c x).ports = s.ports := rfl
@[simp] theorem State.setScratch_up (c : Nat) (x : Scratch) : (s.setScratch c x).up = s.up := rfl
@[simp] theorem State.setScratch_waykeys (c : Nat) (x : Scratch) : (s.setScratch c x).waykeys = s.waykeys := rfl
@[simp] theorem State.setScratch_wkLive (c : Nat) (x : Scratch) : (s.setScratch c x).wkLive = s.wkLive := rfl
@[simp] theorem State.setScratch_vioLog (c : Nat) (x : Scratch) : (s.setScratch c x).vioLog = s.vioLog := rfl
@[simp] theorem State.setScratch_shapers (c : Nat) (x : Scratch) : (s.setScratch c x).shapers = s.shapers := rfl
@[simp] theorem State.setScratch_shChanges (c : Nat) (x : Scratch) : (s.setScratch c x).shChanges = s.shChanges := rfl
@[simp] theorem State.setScratch_acctPackets (c : Nat) (x : Scratch) : (s.setScratch c x).acctPackets = s.acctPackets := rfl
@[simp] theorem State.setScratch_drrs (c : Nat) (x : Scratch) : (s.setScratch c x).drrs = s.drrs := rfl
@[simp] theorem State.setScratch_replies (c : Nat) (x : Scratch) : (s.setScratch c x).replies = s.replies := rfl
@[simp] theorem State.setScratch_attest (c : Nat) (x : Scratch) : (s.setScratch c x).attest = s.attest := rfl
@[simp] theorem State.setScratch_meters (c : Nat) (x : Scratch) : (s.setScratch c x).meters = s.meters := rfl
@[simp] theorem State.setScratch_staging (c : Nat) (x : Scratch) : (s.setScratch c x).staging = s.staging := rfl
@[simp] theorem State.setScratch_probe (c : Nat) (x : Scratch) : (s.setScratch c x).probe = s.probe := rfl
@[simp] theorem State.setScratch_fenceRec (c : Nat) (x : Scratch) : (s.setScratch c x).fenceRec = s.fenceRec := rfl
@[simp] theorem State.setScratch_suspects (c : Nat) (x : Scratch) : (s.setScratch c x).suspects = s.suspects := rfl
@[simp] theorem State.setScratch_sharedFaults (c : Nat) (x : Scratch) : (s.setScratch c x).sharedFaults = s.sharedFaults := rfl
@[simp] theorem State.setScratch_flits (c : Nat) (x : Scratch) : (s.setScratch c x).flits = s.flits := rfl
@[simp] theorem State.setScratch_wdogValue (c : Nat) (x : Scratch) : (s.setScratch c x).wdogValue = s.wdogValue := rfl
@[simp] theorem State.setScratch_wdogAt (c : Nat) (x : Scratch) : (s.setScratch c x).wdogAt = s.wdogAt := rfl
@[simp] theorem State.setScratch_rebuilds (c : Nat) (x : Scratch) : (s.setScratch c x).rebuilds = s.rebuilds := rfl
@[simp] theorem State.setScratch_forwards (c : Nat) (x : Scratch) : (s.setScratch c x).forwards = s.forwards := rfl
@[simp] theorem State.setScratch_lodge (c : Nat) (x : Scratch) : (s.setScratch c x).lodge = s.lodge := rfl
@[simp] theorem State.setScratch_resets (c : Nat) (x : Scratch) : (s.setScratch c x).resets = s.resets := rfl
@[simp] theorem State.setScratch_engResets (c : Nat) (x : Scratch) : (s.setScratch c x).engResets = s.engResets := rfl
@[simp] theorem State.setScratch_flash (c : Nat) (x : Scratch) : (s.setScratch c x).flash = s.flash := rfl
@[simp] theorem State.setScratch_repairDirty (c : Nat) (x : Scratch) : (s.setScratch c x).repairDirty = s.repairDirty := rfl
@[simp] theorem State.setScratch_mpeers (c : Nat) (x : Scratch) : (s.setScratch c x).mpeers = s.mpeers := rfl
@[simp] theorem State.setScratch_mgmt (c : Nat) (x : Scratch) : (s.setScratch c x).mgmt = s.mgmt := rfl
@[simp] theorem State.setScratch_rcvWriting (c : Nat) (x : Scratch) : (s.setScratch c x).rcvWriting = s.rcvWriting := rfl
@[simp] theorem State.setScratch_i3c (c : Nat) (x : Scratch) : (s.setScratch c x).i3c = s.i3c := rfl
@[simp] theorem State.setScratch_therm (c : Nat) (x : Scratch) : (s.setScratch c x).therm = s.therm := rfl
@[simp] theorem State.setScratch_volt (c : Nat) (x : Scratch) : (s.setScratch c x).volt = s.volt := rfl
@[simp] theorem State.setScratch_jtag (c : Nat) (x : Scratch) : (s.setScratch c x).jtag = s.jtag := rfl

/-! `State.setScratchEcc`. -/

@[simp] theorem State.setScratchEcc_pending (c w : Nat) (e : Ecc) : (s.setScratchEcc c w e).pending = s.pending := rfl
@[simp] theorem State.setScratchEcc_out (c w : Nat) (e : Ecc) : (s.setScratchEcc c w e).out = s.out := rfl
@[simp] theorem State.setScratchEcc_draws (c w : Nat) (e : Ecc) : (s.setScratchEcc c w e).draws = s.draws := rfl
@[simp] theorem State.setScratchEcc_nextId (c w : Nat) (e : Ecc) : (s.setScratchEcc c w e).nextId = s.nextId := rfl
@[simp] theorem State.setScratchEcc_posted (c w : Nat) (e : Ecc) : (s.setScratchEcc c w e).posted = s.posted := rfl
@[simp] theorem State.setScratchEcc_regs (c w : Nat) (e : Ecc) : (s.setScratchEcc c w e).regs = s.regs := rfl
@[simp] theorem State.setScratchEcc_mem (c w : Nat) (e : Ecc) : (s.setScratchEcc c w e).mem = s.mem := rfl
@[simp] theorem State.setScratchEcc_stale (c w : Nat) (e : Ecc) : (s.setScratchEcc c w e).stale = s.stale := rfl
@[simp] theorem State.setScratchEcc_ecc (c w : Nat) (e : Ecc) : (s.setScratchEcc c w e).ecc = s.ecc := rfl
@[simp] theorem State.setScratchEcc_scratch (c w : Nat) (e : Ecc) : (s.setScratchEcc c w e).scratch = s.scratch := rfl
@[simp] theorem State.setScratchEcc_arbs (c w : Nat) (e : Ecc) : (s.setScratchEcc c w e).arbs = s.arbs := rfl
@[simp] theorem State.setScratchEcc_recode (c w : Nat) (e : Ecc) : (s.setScratchEcc c w e).recode = s.recode := rfl
@[simp] theorem State.setScratchEcc_acts (c w : Nat) (e : Ecc) : (s.setScratchEcc c w e).acts = s.acts := rfl
@[simp] theorem State.setScratchEcc_trr (c w : Nat) (e : Ecc) : (s.setScratchEcc c w e).trr = s.trr := rfl
@[simp] theorem State.setScratchEcc_corrected (c w : Nat) (e : Ecc) : (s.setScratchEcc c w e).corrected = s.corrected := rfl
@[simp] theorem State.setScratchEcc_spares (c w : Nat) (e : Ecc) : (s.setScratchEcc c w e).spares = s.spares := rfl
@[simp] theorem State.setScratchEcc_remapDue (c w : Nat) (e : Ecc) : (s.setScratchEcc c w e).remapDue = s.remapDue := rfl
@[simp] theorem State.setScratchEcc_ft (c w : Nat) (e : Ecc) : (s.setScratchEcc c w e).ft = s.ft := rfl
@[simp] theorem State.setScratchEcc_gated (c w : Nat) (e : Ecc) : (s.setScratchEcc c w e).gated = s.gated := rfl
@[simp] theorem State.setScratchEcc_life (c w : Nat) (e : Ecc) : (s.setScratchEcc c w e).life = s.life := rfl
@[simp] theorem State.setScratchEcc_standbyWanted (c w : Nat) (e : Ecc) : (s.setScratchEcc c w e).standbyWanted = s.standbyWanted := rfl
@[simp] theorem State.setScratchEcc_power (c w : Nat) (e : Ecc) : (s.setScratchEcc c w e).power = s.power := rfl
@[simp] theorem State.setScratchEcc_powerWant (c w : Nat) (e : Ecc) : (s.setScratchEcc c w e).powerWant = s.powerWant := rfl
@[simp] theorem State.setScratchEcc_powerNext (c w : Nat) (e : Ecc) : (s.setScratchEcc c w e).powerNext = s.powerNext := rfl
@[simp] theorem State.setScratchEcc_saving (c w : Nat) (e : Ecc) : (s.setScratchEcc c w e).saving = s.saving := rfl
@[simp] theorem State.setScratchEcc_pwrGood (c w : Nat) (e : Ecc) : (s.setScratchEcc c w e).pwrGood = s.pwrGood := rfl
@[simp] theorem State.setScratchEcc_thermTripped (c w : Nat) (e : Ecc) : (s.setScratchEcc c w e).thermTripped = s.thermTripped := rfl
@[simp] theorem State.setScratchEcc_straps (c w : Nat) (e : Ecc) : (s.setScratchEcc c w e).straps = s.straps := rfl
@[simp] theorem State.setScratchEcc_cause (c w : Nat) (e : Ecc) : (s.setScratchEcc c w e).cause = s.cause := rfl
@[simp] theorem State.setScratchEcc_charter (c w : Nat) (e : Ecc) : (s.setScratchEcc c w e).charter = s.charter := rfl
@[simp] theorem State.setScratchEcc_identity (c w : Nat) (e : Ecc) : (s.setScratchEcc c w e).identity = s.identity := rfl
@[simp] theorem State.setScratchEcc_entries (c w : Nat) (e : Ecc) : (s.setScratchEcc c w e).entries = s.entries := rfl
@[simp] theorem State.setScratchEcc_partState (c w : Nat) (e : Ecc) : (s.setScratchEcc c w e).partState = s.partState := rfl
@[simp] theorem State.setScratchEcc_lastLock (c w : Nat) (e : Ecc) : (s.setScratchEcc c w e).lastLock = s.lastLock := rfl
@[simp] theorem State.setScratchEcc_releasing (c w : Nat) (e : Ecc) : (s.setScratchEcc c w e).releasing = s.releasing := rfl
@[simp] theorem State.setScratchEcc_objs (c w : Nat) (e : Ecc) : (s.setScratchEcc c w e).objs = s.objs := rfl
@[simp] theorem State.setScratchEcc_objStage (c w : Nat) (e : Ecc) : (s.setScratchEcc c w e).objStage = s.objStage := rfl
@[simp] theorem State.setScratchEcc_far (c w : Nat) (e : Ecc) : (s.setScratchEcc c w e).far = s.far := rfl
@[simp] theorem State.setScratchEcc_dir (c w : Nat) (e : Ecc) : (s.setScratchEcc c w e).dir = s.dir := rfl
@[simp] theorem State.setScratchEcc_dirGen (c w : Nat) (e : Ecc) : (s.setScratchEcc c w e).dirGen = s.dirGen := rfl
@[simp] theorem State.setScratchEcc_lookup (c w : Nat) (e : Ecc) : (s.setScratchEcc c w e).lookup = s.lookup := rfl
@[simp] theorem State.setScratchEcc_slots (c w : Nat) (e : Ecc) : (s.setScratchEcc c w e).slots = s.slots := rfl
@[simp] theorem State.setScratchEcc_moves (c w : Nat) (e : Ecc) : (s.setScratchEcc c w e).moves = s.moves := rfl
@[simp] theorem State.setScratchEcc_heat (c w : Nat) (e : Ecc) : (s.setScratchEcc c w e).heat = s.heat := rfl
@[simp] theorem State.setScratchEcc_bg (c w : Nat) (e : Ecc) : (s.setScratchEcc c w e).bg = s.bg := rfl
@[simp] theorem State.setScratchEcc_cmds (c w : Nat) (e : Ecc) : (s.setScratchEcc c w e).cmds = s.cmds := rfl
@[simp] theorem State.setScratchEcc_rings (c w : Nat) (e : Ecc) : (s.setScratchEcc c w e).rings = s.rings := rfl
@[simp] theorem State.setScratchEcc_links (c w : Nat) (e : Ecc) : (s.setScratchEcc c w e).links = s.links := rfl
@[simp] theorem State.setScratchEcc_inq (c w : Nat) (e : Ecc) : (s.setScratchEcc c w e).inq = s.inq := rfl
@[simp] theorem State.setScratchEcc_turns (c w : Nat) (e : Ecc) : (s.setScratchEcc c w e).turns = s.turns := rfl
@[simp] theorem State.setScratchEcc_wms (c w : Nat) (e : Ecc) : (s.setScratchEcc c w e).wms = s.wms := rfl
@[simp] theorem State.setScratchEcc_wmLatch (c w : Nat) (e : Ecc) : (s.setScratchEcc c w e).wmLatch = s.wmLatch := rfl
@[simp] theorem State.setScratchEcc_holds (c w : Nat) (e : Ecc) : (s.setScratchEcc c w e).holds = s.holds := rfl
@[simp] theorem State.setScratchEcc_hauls (c w : Nat) (e : Ecc) : (s.setScratchEcc c w e).hauls = s.hauls := rfl
@[simp] theorem State.setScratchEcc_rows (c w : Nat) (e : Ecc) : (s.setScratchEcc c w e).rows = s.rows := rfl
@[simp] theorem State.setScratchEcc_reqs (c w : Nat) (e : Ecc) : (s.setScratchEcc c w e).reqs = s.reqs := rfl
@[simp] theorem State.setScratchEcc_plan (c w : Nat) (e : Ecc) : (s.setScratchEcc c w e).plan = s.plan := rfl
@[simp] theorem State.setScratchEcc_planBase (c w : Nat) (e : Ecc) : (s.setScratchEcc c w e).planBase = s.planBase := rfl
@[simp] theorem State.setScratchEcc_sent (c w : Nat) (e : Ecc) : (s.setScratchEcc c w e).sent = s.sent := rfl
@[simp] theorem State.setScratchEcc_emberNums (c w : Nat) (e : Ecc) : (s.setScratchEcc c w e).emberNums = s.emberNums := rfl
@[simp] theorem State.setScratchEcc_recv (c w : Nat) (e : Ecc) : (s.setScratchEcc c w e).recv = s.recv := rfl
@[simp] theorem State.setScratchEcc_merges (c w : Nat) (e : Ecc) : (s.setScratchEcc c w e).merges = s.merges := rfl
@[simp] theorem State.setScratchEcc_mergesDone (c w : Nat) (e : Ecc) : (s.setScratchEcc c w e).mergesDone = s.mergesDone := rfl
@[simp] theorem State.setScratchEcc_images (c w : Nat) (e : Ecc) : (s.setScratchEcc c w e).images = s.images := rfl
@[simp] theorem State.setScratchEcc_kindles (c w : Nat) (e : Ecc) : (s.setScratchEcc c w e).kindles = s.kindles := rfl
@[simp] theorem State.setScratchEcc_arrayHclk (c w : Nat) (e : Ecc) : (s.setScratchEcc c w e).arrayHclk = s.arrayHclk := rfl
@[simp] theorem State.setScratchEcc_arrayUsed (c w : Nat) (e : Ecc) : (s.setScratchEcc c w e).arrayUsed = s.arrayUsed := rfl
@[simp] theorem State.setScratchEcc_scrub (c w : Nat) (e : Ecc) : (s.setScratchEcc c w e).scrub = s.scrub := rfl
@[simp] theorem State.setScratchEcc_conns (c w : Nat) (e : Ecc) : (s.setScratchEcc c w e).conns = s.conns := rfl
@[simp] theorem State.setScratchEcc_ports (c w : Nat) (e : Ecc) : (s.setScratchEcc c w e).ports = s.ports := rfl
@[simp] theorem State.setScratchEcc_up (c w : Nat) (e : Ecc) : (s.setScratchEcc c w e).up = s.up := rfl
@[simp] theorem State.setScratchEcc_waykeys (c w : Nat) (e : Ecc) : (s.setScratchEcc c w e).waykeys = s.waykeys := rfl
@[simp] theorem State.setScratchEcc_wkLive (c w : Nat) (e : Ecc) : (s.setScratchEcc c w e).wkLive = s.wkLive := rfl
@[simp] theorem State.setScratchEcc_vioLog (c w : Nat) (e : Ecc) : (s.setScratchEcc c w e).vioLog = s.vioLog := rfl
@[simp] theorem State.setScratchEcc_shapers (c w : Nat) (e : Ecc) : (s.setScratchEcc c w e).shapers = s.shapers := rfl
@[simp] theorem State.setScratchEcc_shChanges (c w : Nat) (e : Ecc) : (s.setScratchEcc c w e).shChanges = s.shChanges := rfl
@[simp] theorem State.setScratchEcc_acctPackets (c w : Nat) (e : Ecc) : (s.setScratchEcc c w e).acctPackets = s.acctPackets := rfl
@[simp] theorem State.setScratchEcc_drrs (c w : Nat) (e : Ecc) : (s.setScratchEcc c w e).drrs = s.drrs := rfl
@[simp] theorem State.setScratchEcc_replies (c w : Nat) (e : Ecc) : (s.setScratchEcc c w e).replies = s.replies := rfl
@[simp] theorem State.setScratchEcc_attest (c w : Nat) (e : Ecc) : (s.setScratchEcc c w e).attest = s.attest := rfl
@[simp] theorem State.setScratchEcc_meters (c w : Nat) (e : Ecc) : (s.setScratchEcc c w e).meters = s.meters := rfl
@[simp] theorem State.setScratchEcc_staging (c w : Nat) (e : Ecc) : (s.setScratchEcc c w e).staging = s.staging := rfl
@[simp] theorem State.setScratchEcc_probe (c w : Nat) (e : Ecc) : (s.setScratchEcc c w e).probe = s.probe := rfl
@[simp] theorem State.setScratchEcc_fenceRec (c w : Nat) (e : Ecc) : (s.setScratchEcc c w e).fenceRec = s.fenceRec := rfl
@[simp] theorem State.setScratchEcc_suspects (c w : Nat) (e : Ecc) : (s.setScratchEcc c w e).suspects = s.suspects := rfl
@[simp] theorem State.setScratchEcc_sharedFaults (c w : Nat) (e : Ecc) : (s.setScratchEcc c w e).sharedFaults = s.sharedFaults := rfl
@[simp] theorem State.setScratchEcc_flits (c w : Nat) (e : Ecc) : (s.setScratchEcc c w e).flits = s.flits := rfl
@[simp] theorem State.setScratchEcc_wdogValue (c w : Nat) (e : Ecc) : (s.setScratchEcc c w e).wdogValue = s.wdogValue := rfl
@[simp] theorem State.setScratchEcc_wdogAt (c w : Nat) (e : Ecc) : (s.setScratchEcc c w e).wdogAt = s.wdogAt := rfl
@[simp] theorem State.setScratchEcc_rebuilds (c w : Nat) (e : Ecc) : (s.setScratchEcc c w e).rebuilds = s.rebuilds := rfl
@[simp] theorem State.setScratchEcc_forwards (c w : Nat) (e : Ecc) : (s.setScratchEcc c w e).forwards = s.forwards := rfl
@[simp] theorem State.setScratchEcc_lodge (c w : Nat) (e : Ecc) : (s.setScratchEcc c w e).lodge = s.lodge := rfl
@[simp] theorem State.setScratchEcc_resets (c w : Nat) (e : Ecc) : (s.setScratchEcc c w e).resets = s.resets := rfl
@[simp] theorem State.setScratchEcc_engResets (c w : Nat) (e : Ecc) : (s.setScratchEcc c w e).engResets = s.engResets := rfl
@[simp] theorem State.setScratchEcc_flash (c w : Nat) (e : Ecc) : (s.setScratchEcc c w e).flash = s.flash := rfl
@[simp] theorem State.setScratchEcc_repairDirty (c w : Nat) (e : Ecc) : (s.setScratchEcc c w e).repairDirty = s.repairDirty := rfl
@[simp] theorem State.setScratchEcc_mpeers (c w : Nat) (e : Ecc) : (s.setScratchEcc c w e).mpeers = s.mpeers := rfl
@[simp] theorem State.setScratchEcc_mgmt (c w : Nat) (e : Ecc) : (s.setScratchEcc c w e).mgmt = s.mgmt := rfl
@[simp] theorem State.setScratchEcc_rcvWriting (c w : Nat) (e : Ecc) : (s.setScratchEcc c w e).rcvWriting = s.rcvWriting := rfl
@[simp] theorem State.setScratchEcc_i3c (c w : Nat) (e : Ecc) : (s.setScratchEcc c w e).i3c = s.i3c := rfl
@[simp] theorem State.setScratchEcc_therm (c w : Nat) (e : Ecc) : (s.setScratchEcc c w e).therm = s.therm := rfl
@[simp] theorem State.setScratchEcc_volt (c w : Nat) (e : Ecc) : (s.setScratchEcc c w e).volt = s.volt := rfl
@[simp] theorem State.setScratchEcc_jtag (c w : Nat) (e : Ecc) : (s.setScratchEcc c w e).jtag = s.jtag := rfl

/-! `State.clearScratch`. -/

@[simp] theorem State.clearScratch_pending (p : Nat → Bool) : (s.clearScratch p).pending = s.pending := rfl
@[simp] theorem State.clearScratch_out (p : Nat → Bool) : (s.clearScratch p).out = s.out := rfl
@[simp] theorem State.clearScratch_draws (p : Nat → Bool) : (s.clearScratch p).draws = s.draws := rfl
@[simp] theorem State.clearScratch_nextId (p : Nat → Bool) : (s.clearScratch p).nextId = s.nextId := rfl
@[simp] theorem State.clearScratch_posted (p : Nat → Bool) : (s.clearScratch p).posted = s.posted := rfl
@[simp] theorem State.clearScratch_regs (p : Nat → Bool) : (s.clearScratch p).regs = s.regs := rfl
@[simp] theorem State.clearScratch_mem (p : Nat → Bool) : (s.clearScratch p).mem = s.mem := rfl
@[simp] theorem State.clearScratch_stale (p : Nat → Bool) : (s.clearScratch p).stale = s.stale := rfl
@[simp] theorem State.clearScratch_ecc (p : Nat → Bool) : (s.clearScratch p).ecc = s.ecc := rfl
@[simp] theorem State.clearScratch_arbs (p : Nat → Bool) : (s.clearScratch p).arbs = s.arbs := rfl
@[simp] theorem State.clearScratch_recode (p : Nat → Bool) : (s.clearScratch p).recode = s.recode := rfl
@[simp] theorem State.clearScratch_acts (p : Nat → Bool) : (s.clearScratch p).acts = s.acts := rfl
@[simp] theorem State.clearScratch_trr (p : Nat → Bool) : (s.clearScratch p).trr = s.trr := rfl
@[simp] theorem State.clearScratch_corrected (p : Nat → Bool) : (s.clearScratch p).corrected = s.corrected := rfl
@[simp] theorem State.clearScratch_spares (p : Nat → Bool) : (s.clearScratch p).spares = s.spares := rfl
@[simp] theorem State.clearScratch_remapDue (p : Nat → Bool) : (s.clearScratch p).remapDue = s.remapDue := rfl
@[simp] theorem State.clearScratch_ft (p : Nat → Bool) : (s.clearScratch p).ft = s.ft := rfl
@[simp] theorem State.clearScratch_gated (p : Nat → Bool) : (s.clearScratch p).gated = s.gated := rfl
@[simp] theorem State.clearScratch_life (p : Nat → Bool) : (s.clearScratch p).life = s.life := rfl
@[simp] theorem State.clearScratch_standbyWanted (p : Nat → Bool) : (s.clearScratch p).standbyWanted = s.standbyWanted := rfl
@[simp] theorem State.clearScratch_power (p : Nat → Bool) : (s.clearScratch p).power = s.power := rfl
@[simp] theorem State.clearScratch_powerWant (p : Nat → Bool) : (s.clearScratch p).powerWant = s.powerWant := rfl
@[simp] theorem State.clearScratch_powerNext (p : Nat → Bool) : (s.clearScratch p).powerNext = s.powerNext := rfl
@[simp] theorem State.clearScratch_saving (p : Nat → Bool) : (s.clearScratch p).saving = s.saving := rfl
@[simp] theorem State.clearScratch_pwrGood (p : Nat → Bool) : (s.clearScratch p).pwrGood = s.pwrGood := rfl
@[simp] theorem State.clearScratch_thermTripped (p : Nat → Bool) : (s.clearScratch p).thermTripped = s.thermTripped := rfl
@[simp] theorem State.clearScratch_straps (p : Nat → Bool) : (s.clearScratch p).straps = s.straps := rfl
@[simp] theorem State.clearScratch_cause (p : Nat → Bool) : (s.clearScratch p).cause = s.cause := rfl
@[simp] theorem State.clearScratch_charter (p : Nat → Bool) : (s.clearScratch p).charter = s.charter := rfl
@[simp] theorem State.clearScratch_identity (p : Nat → Bool) : (s.clearScratch p).identity = s.identity := rfl
@[simp] theorem State.clearScratch_entries (p : Nat → Bool) : (s.clearScratch p).entries = s.entries := rfl
@[simp] theorem State.clearScratch_partState (p : Nat → Bool) : (s.clearScratch p).partState = s.partState := rfl
@[simp] theorem State.clearScratch_lastLock (p : Nat → Bool) : (s.clearScratch p).lastLock = s.lastLock := rfl
@[simp] theorem State.clearScratch_releasing (p : Nat → Bool) : (s.clearScratch p).releasing = s.releasing := rfl
@[simp] theorem State.clearScratch_objs (p : Nat → Bool) : (s.clearScratch p).objs = s.objs := rfl
@[simp] theorem State.clearScratch_objStage (p : Nat → Bool) : (s.clearScratch p).objStage = s.objStage := rfl
@[simp] theorem State.clearScratch_far (p : Nat → Bool) : (s.clearScratch p).far = s.far := rfl
@[simp] theorem State.clearScratch_dir (p : Nat → Bool) : (s.clearScratch p).dir = s.dir := rfl
@[simp] theorem State.clearScratch_dirGen (p : Nat → Bool) : (s.clearScratch p).dirGen = s.dirGen := rfl
@[simp] theorem State.clearScratch_lookup (p : Nat → Bool) : (s.clearScratch p).lookup = s.lookup := rfl
@[simp] theorem State.clearScratch_slots (p : Nat → Bool) : (s.clearScratch p).slots = s.slots := rfl
@[simp] theorem State.clearScratch_moves (p : Nat → Bool) : (s.clearScratch p).moves = s.moves := rfl
@[simp] theorem State.clearScratch_heat (p : Nat → Bool) : (s.clearScratch p).heat = s.heat := rfl
@[simp] theorem State.clearScratch_bg (p : Nat → Bool) : (s.clearScratch p).bg = s.bg := rfl
@[simp] theorem State.clearScratch_cmds (p : Nat → Bool) : (s.clearScratch p).cmds = s.cmds := rfl
@[simp] theorem State.clearScratch_rings (p : Nat → Bool) : (s.clearScratch p).rings = s.rings := rfl
@[simp] theorem State.clearScratch_links (p : Nat → Bool) : (s.clearScratch p).links = s.links := rfl
@[simp] theorem State.clearScratch_inq (p : Nat → Bool) : (s.clearScratch p).inq = s.inq := rfl
@[simp] theorem State.clearScratch_turns (p : Nat → Bool) : (s.clearScratch p).turns = s.turns := rfl
@[simp] theorem State.clearScratch_wms (p : Nat → Bool) : (s.clearScratch p).wms = s.wms := rfl
@[simp] theorem State.clearScratch_wmLatch (p : Nat → Bool) : (s.clearScratch p).wmLatch = s.wmLatch := rfl
@[simp] theorem State.clearScratch_holds (p : Nat → Bool) : (s.clearScratch p).holds = s.holds := rfl
@[simp] theorem State.clearScratch_hauls (p : Nat → Bool) : (s.clearScratch p).hauls = s.hauls := rfl
@[simp] theorem State.clearScratch_rows (p : Nat → Bool) : (s.clearScratch p).rows = s.rows := rfl
@[simp] theorem State.clearScratch_reqs (p : Nat → Bool) : (s.clearScratch p).reqs = s.reqs := rfl
@[simp] theorem State.clearScratch_plan (p : Nat → Bool) : (s.clearScratch p).plan = s.plan := rfl
@[simp] theorem State.clearScratch_planBase (p : Nat → Bool) : (s.clearScratch p).planBase = s.planBase := rfl
@[simp] theorem State.clearScratch_sent (p : Nat → Bool) : (s.clearScratch p).sent = s.sent := rfl
@[simp] theorem State.clearScratch_emberNums (p : Nat → Bool) : (s.clearScratch p).emberNums = s.emberNums := rfl
@[simp] theorem State.clearScratch_recv (p : Nat → Bool) : (s.clearScratch p).recv = s.recv := rfl
@[simp] theorem State.clearScratch_merges (p : Nat → Bool) : (s.clearScratch p).merges = s.merges := rfl
@[simp] theorem State.clearScratch_mergesDone (p : Nat → Bool) : (s.clearScratch p).mergesDone = s.mergesDone := rfl
@[simp] theorem State.clearScratch_images (p : Nat → Bool) : (s.clearScratch p).images = s.images := rfl
@[simp] theorem State.clearScratch_kindles (p : Nat → Bool) : (s.clearScratch p).kindles = s.kindles := rfl
@[simp] theorem State.clearScratch_arrayHclk (p : Nat → Bool) : (s.clearScratch p).arrayHclk = s.arrayHclk := rfl
@[simp] theorem State.clearScratch_arrayUsed (p : Nat → Bool) : (s.clearScratch p).arrayUsed = s.arrayUsed := rfl
@[simp] theorem State.clearScratch_scrub (p : Nat → Bool) : (s.clearScratch p).scrub = s.scrub := rfl
@[simp] theorem State.clearScratch_conns (p : Nat → Bool) : (s.clearScratch p).conns = s.conns := rfl
@[simp] theorem State.clearScratch_ports (p : Nat → Bool) : (s.clearScratch p).ports = s.ports := rfl
@[simp] theorem State.clearScratch_up (p : Nat → Bool) : (s.clearScratch p).up = s.up := rfl
@[simp] theorem State.clearScratch_waykeys (p : Nat → Bool) : (s.clearScratch p).waykeys = s.waykeys := rfl
@[simp] theorem State.clearScratch_wkLive (p : Nat → Bool) : (s.clearScratch p).wkLive = s.wkLive := rfl
@[simp] theorem State.clearScratch_vioLog (p : Nat → Bool) : (s.clearScratch p).vioLog = s.vioLog := rfl
@[simp] theorem State.clearScratch_shapers (p : Nat → Bool) : (s.clearScratch p).shapers = s.shapers := rfl
@[simp] theorem State.clearScratch_shChanges (p : Nat → Bool) : (s.clearScratch p).shChanges = s.shChanges := rfl
@[simp] theorem State.clearScratch_acctPackets (p : Nat → Bool) : (s.clearScratch p).acctPackets = s.acctPackets := rfl
@[simp] theorem State.clearScratch_drrs (p : Nat → Bool) : (s.clearScratch p).drrs = s.drrs := rfl
@[simp] theorem State.clearScratch_replies (p : Nat → Bool) : (s.clearScratch p).replies = s.replies := rfl
@[simp] theorem State.clearScratch_attest (p : Nat → Bool) : (s.clearScratch p).attest = s.attest := rfl
@[simp] theorem State.clearScratch_meters (p : Nat → Bool) : (s.clearScratch p).meters = s.meters := rfl
@[simp] theorem State.clearScratch_staging (p : Nat → Bool) : (s.clearScratch p).staging = s.staging := rfl
@[simp] theorem State.clearScratch_probe (p : Nat → Bool) : (s.clearScratch p).probe = s.probe := rfl
@[simp] theorem State.clearScratch_fenceRec (p : Nat → Bool) : (s.clearScratch p).fenceRec = s.fenceRec := rfl
@[simp] theorem State.clearScratch_suspects (p : Nat → Bool) : (s.clearScratch p).suspects = s.suspects := rfl
@[simp] theorem State.clearScratch_sharedFaults (p : Nat → Bool) : (s.clearScratch p).sharedFaults = s.sharedFaults := rfl
@[simp] theorem State.clearScratch_flits (p : Nat → Bool) : (s.clearScratch p).flits = s.flits := rfl
@[simp] theorem State.clearScratch_wdogValue (p : Nat → Bool) : (s.clearScratch p).wdogValue = s.wdogValue := rfl
@[simp] theorem State.clearScratch_wdogAt (p : Nat → Bool) : (s.clearScratch p).wdogAt = s.wdogAt := rfl
@[simp] theorem State.clearScratch_rebuilds (p : Nat → Bool) : (s.clearScratch p).rebuilds = s.rebuilds := rfl
@[simp] theorem State.clearScratch_forwards (p : Nat → Bool) : (s.clearScratch p).forwards = s.forwards := rfl
@[simp] theorem State.clearScratch_lodge (p : Nat → Bool) : (s.clearScratch p).lodge = s.lodge := rfl
@[simp] theorem State.clearScratch_resets (p : Nat → Bool) : (s.clearScratch p).resets = s.resets := rfl
@[simp] theorem State.clearScratch_engResets (p : Nat → Bool) : (s.clearScratch p).engResets = s.engResets := rfl
@[simp] theorem State.clearScratch_flash (p : Nat → Bool) : (s.clearScratch p).flash = s.flash := rfl
@[simp] theorem State.clearScratch_repairDirty (p : Nat → Bool) : (s.clearScratch p).repairDirty = s.repairDirty := rfl
@[simp] theorem State.clearScratch_mpeers (p : Nat → Bool) : (s.clearScratch p).mpeers = s.mpeers := rfl
@[simp] theorem State.clearScratch_mgmt (p : Nat → Bool) : (s.clearScratch p).mgmt = s.mgmt := rfl
@[simp] theorem State.clearScratch_rcvWriting (p : Nat → Bool) : (s.clearScratch p).rcvWriting = s.rcvWriting := rfl
@[simp] theorem State.clearScratch_i3c (p : Nat → Bool) : (s.clearScratch p).i3c = s.i3c := rfl
@[simp] theorem State.clearScratch_therm (p : Nat → Bool) : (s.clearScratch p).therm = s.therm := rfl
@[simp] theorem State.clearScratch_volt (p : Nat → Bool) : (s.clearScratch p).volt = s.volt := rfl
@[simp] theorem State.clearScratch_jtag (p : Nat → Bool) : (s.clearScratch p).jtag = s.jtag := rfl

/-! `State.setRelease`. -/

@[simp] theorem State.setRelease_pending (p : Nat) (x : ReleaseStep) : (s.setRelease p x).pending = s.pending := rfl
@[simp] theorem State.setRelease_out (p : Nat) (x : ReleaseStep) : (s.setRelease p x).out = s.out := rfl
@[simp] theorem State.setRelease_draws (p : Nat) (x : ReleaseStep) : (s.setRelease p x).draws = s.draws := rfl
@[simp] theorem State.setRelease_nextId (p : Nat) (x : ReleaseStep) : (s.setRelease p x).nextId = s.nextId := rfl
@[simp] theorem State.setRelease_posted (p : Nat) (x : ReleaseStep) : (s.setRelease p x).posted = s.posted := rfl
@[simp] theorem State.setRelease_regs (p : Nat) (x : ReleaseStep) : (s.setRelease p x).regs = s.regs := rfl
@[simp] theorem State.setRelease_mem (p : Nat) (x : ReleaseStep) : (s.setRelease p x).mem = s.mem := rfl
@[simp] theorem State.setRelease_stale (p : Nat) (x : ReleaseStep) : (s.setRelease p x).stale = s.stale := rfl
@[simp] theorem State.setRelease_ecc (p : Nat) (x : ReleaseStep) : (s.setRelease p x).ecc = s.ecc := rfl
@[simp] theorem State.setRelease_scratch (p : Nat) (x : ReleaseStep) : (s.setRelease p x).scratch = s.scratch := rfl
@[simp] theorem State.setRelease_scratchEcc (p : Nat) (x : ReleaseStep) : (s.setRelease p x).scratchEcc = s.scratchEcc := rfl
@[simp] theorem State.setRelease_arbs (p : Nat) (x : ReleaseStep) : (s.setRelease p x).arbs = s.arbs := rfl
@[simp] theorem State.setRelease_recode (p : Nat) (x : ReleaseStep) : (s.setRelease p x).recode = s.recode := rfl
@[simp] theorem State.setRelease_acts (p : Nat) (x : ReleaseStep) : (s.setRelease p x).acts = s.acts := rfl
@[simp] theorem State.setRelease_trr (p : Nat) (x : ReleaseStep) : (s.setRelease p x).trr = s.trr := rfl
@[simp] theorem State.setRelease_corrected (p : Nat) (x : ReleaseStep) : (s.setRelease p x).corrected = s.corrected := rfl
@[simp] theorem State.setRelease_spares (p : Nat) (x : ReleaseStep) : (s.setRelease p x).spares = s.spares := rfl
@[simp] theorem State.setRelease_remapDue (p : Nat) (x : ReleaseStep) : (s.setRelease p x).remapDue = s.remapDue := rfl
@[simp] theorem State.setRelease_ft (p : Nat) (x : ReleaseStep) : (s.setRelease p x).ft = s.ft := rfl
@[simp] theorem State.setRelease_gated (p : Nat) (x : ReleaseStep) : (s.setRelease p x).gated = s.gated := rfl
@[simp] theorem State.setRelease_life (p : Nat) (x : ReleaseStep) : (s.setRelease p x).life = s.life := rfl
@[simp] theorem State.setRelease_standbyWanted (p : Nat) (x : ReleaseStep) : (s.setRelease p x).standbyWanted = s.standbyWanted := rfl
@[simp] theorem State.setRelease_power (p : Nat) (x : ReleaseStep) : (s.setRelease p x).power = s.power := rfl
@[simp] theorem State.setRelease_powerWant (p : Nat) (x : ReleaseStep) : (s.setRelease p x).powerWant = s.powerWant := rfl
@[simp] theorem State.setRelease_powerNext (p : Nat) (x : ReleaseStep) : (s.setRelease p x).powerNext = s.powerNext := rfl
@[simp] theorem State.setRelease_saving (p : Nat) (x : ReleaseStep) : (s.setRelease p x).saving = s.saving := rfl
@[simp] theorem State.setRelease_pwrGood (p : Nat) (x : ReleaseStep) : (s.setRelease p x).pwrGood = s.pwrGood := rfl
@[simp] theorem State.setRelease_thermTripped (p : Nat) (x : ReleaseStep) : (s.setRelease p x).thermTripped = s.thermTripped := rfl
@[simp] theorem State.setRelease_straps (p : Nat) (x : ReleaseStep) : (s.setRelease p x).straps = s.straps := rfl
@[simp] theorem State.setRelease_cause (p : Nat) (x : ReleaseStep) : (s.setRelease p x).cause = s.cause := rfl
@[simp] theorem State.setRelease_charter (p : Nat) (x : ReleaseStep) : (s.setRelease p x).charter = s.charter := rfl
@[simp] theorem State.setRelease_identity (p : Nat) (x : ReleaseStep) : (s.setRelease p x).identity = s.identity := rfl
@[simp] theorem State.setRelease_entries (p : Nat) (x : ReleaseStep) : (s.setRelease p x).entries = s.entries := rfl
@[simp] theorem State.setRelease_partState (p : Nat) (x : ReleaseStep) : (s.setRelease p x).partState = s.partState := rfl
@[simp] theorem State.setRelease_lastLock (p : Nat) (x : ReleaseStep) : (s.setRelease p x).lastLock = s.lastLock := rfl
@[simp] theorem State.setRelease_objs (p : Nat) (x : ReleaseStep) : (s.setRelease p x).objs = s.objs := rfl
@[simp] theorem State.setRelease_objStage (p : Nat) (x : ReleaseStep) : (s.setRelease p x).objStage = s.objStage := rfl
@[simp] theorem State.setRelease_far (p : Nat) (x : ReleaseStep) : (s.setRelease p x).far = s.far := rfl
@[simp] theorem State.setRelease_dir (p : Nat) (x : ReleaseStep) : (s.setRelease p x).dir = s.dir := rfl
@[simp] theorem State.setRelease_dirGen (p : Nat) (x : ReleaseStep) : (s.setRelease p x).dirGen = s.dirGen := rfl
@[simp] theorem State.setRelease_lookup (p : Nat) (x : ReleaseStep) : (s.setRelease p x).lookup = s.lookup := rfl
@[simp] theorem State.setRelease_slots (p : Nat) (x : ReleaseStep) : (s.setRelease p x).slots = s.slots := rfl
@[simp] theorem State.setRelease_moves (p : Nat) (x : ReleaseStep) : (s.setRelease p x).moves = s.moves := rfl
@[simp] theorem State.setRelease_heat (p : Nat) (x : ReleaseStep) : (s.setRelease p x).heat = s.heat := rfl
@[simp] theorem State.setRelease_bg (p : Nat) (x : ReleaseStep) : (s.setRelease p x).bg = s.bg := rfl
@[simp] theorem State.setRelease_cmds (p : Nat) (x : ReleaseStep) : (s.setRelease p x).cmds = s.cmds := rfl
@[simp] theorem State.setRelease_rings (p : Nat) (x : ReleaseStep) : (s.setRelease p x).rings = s.rings := rfl
@[simp] theorem State.setRelease_links (p : Nat) (x : ReleaseStep) : (s.setRelease p x).links = s.links := rfl
@[simp] theorem State.setRelease_inq (p : Nat) (x : ReleaseStep) : (s.setRelease p x).inq = s.inq := rfl
@[simp] theorem State.setRelease_turns (p : Nat) (x : ReleaseStep) : (s.setRelease p x).turns = s.turns := rfl
@[simp] theorem State.setRelease_wms (p : Nat) (x : ReleaseStep) : (s.setRelease p x).wms = s.wms := rfl
@[simp] theorem State.setRelease_wmLatch (p : Nat) (x : ReleaseStep) : (s.setRelease p x).wmLatch = s.wmLatch := rfl
@[simp] theorem State.setRelease_holds (p : Nat) (x : ReleaseStep) : (s.setRelease p x).holds = s.holds := rfl
@[simp] theorem State.setRelease_hauls (p : Nat) (x : ReleaseStep) : (s.setRelease p x).hauls = s.hauls := rfl
@[simp] theorem State.setRelease_rows (p : Nat) (x : ReleaseStep) : (s.setRelease p x).rows = s.rows := rfl
@[simp] theorem State.setRelease_reqs (p : Nat) (x : ReleaseStep) : (s.setRelease p x).reqs = s.reqs := rfl
@[simp] theorem State.setRelease_plan (p : Nat) (x : ReleaseStep) : (s.setRelease p x).plan = s.plan := rfl
@[simp] theorem State.setRelease_planBase (p : Nat) (x : ReleaseStep) : (s.setRelease p x).planBase = s.planBase := rfl
@[simp] theorem State.setRelease_sent (p : Nat) (x : ReleaseStep) : (s.setRelease p x).sent = s.sent := rfl
@[simp] theorem State.setRelease_emberNums (p : Nat) (x : ReleaseStep) : (s.setRelease p x).emberNums = s.emberNums := rfl
@[simp] theorem State.setRelease_recv (p : Nat) (x : ReleaseStep) : (s.setRelease p x).recv = s.recv := rfl
@[simp] theorem State.setRelease_merges (p : Nat) (x : ReleaseStep) : (s.setRelease p x).merges = s.merges := rfl
@[simp] theorem State.setRelease_mergesDone (p : Nat) (x : ReleaseStep) : (s.setRelease p x).mergesDone = s.mergesDone := rfl
@[simp] theorem State.setRelease_images (p : Nat) (x : ReleaseStep) : (s.setRelease p x).images = s.images := rfl
@[simp] theorem State.setRelease_kindles (p : Nat) (x : ReleaseStep) : (s.setRelease p x).kindles = s.kindles := rfl
@[simp] theorem State.setRelease_arrayHclk (p : Nat) (x : ReleaseStep) : (s.setRelease p x).arrayHclk = s.arrayHclk := rfl
@[simp] theorem State.setRelease_arrayUsed (p : Nat) (x : ReleaseStep) : (s.setRelease p x).arrayUsed = s.arrayUsed := rfl
@[simp] theorem State.setRelease_scrub (p : Nat) (x : ReleaseStep) : (s.setRelease p x).scrub = s.scrub := rfl
@[simp] theorem State.setRelease_conns (p : Nat) (x : ReleaseStep) : (s.setRelease p x).conns = s.conns := rfl
@[simp] theorem State.setRelease_ports (p : Nat) (x : ReleaseStep) : (s.setRelease p x).ports = s.ports := rfl
@[simp] theorem State.setRelease_up (p : Nat) (x : ReleaseStep) : (s.setRelease p x).up = s.up := rfl
@[simp] theorem State.setRelease_waykeys (p : Nat) (x : ReleaseStep) : (s.setRelease p x).waykeys = s.waykeys := rfl
@[simp] theorem State.setRelease_wkLive (p : Nat) (x : ReleaseStep) : (s.setRelease p x).wkLive = s.wkLive := rfl
@[simp] theorem State.setRelease_vioLog (p : Nat) (x : ReleaseStep) : (s.setRelease p x).vioLog = s.vioLog := rfl
@[simp] theorem State.setRelease_shapers (p : Nat) (x : ReleaseStep) : (s.setRelease p x).shapers = s.shapers := rfl
@[simp] theorem State.setRelease_shChanges (p : Nat) (x : ReleaseStep) : (s.setRelease p x).shChanges = s.shChanges := rfl
@[simp] theorem State.setRelease_acctPackets (p : Nat) (x : ReleaseStep) : (s.setRelease p x).acctPackets = s.acctPackets := rfl
@[simp] theorem State.setRelease_drrs (p : Nat) (x : ReleaseStep) : (s.setRelease p x).drrs = s.drrs := rfl
@[simp] theorem State.setRelease_replies (p : Nat) (x : ReleaseStep) : (s.setRelease p x).replies = s.replies := rfl
@[simp] theorem State.setRelease_attest (p : Nat) (x : ReleaseStep) : (s.setRelease p x).attest = s.attest := rfl
@[simp] theorem State.setRelease_meters (p : Nat) (x : ReleaseStep) : (s.setRelease p x).meters = s.meters := rfl
@[simp] theorem State.setRelease_staging (p : Nat) (x : ReleaseStep) : (s.setRelease p x).staging = s.staging := rfl
@[simp] theorem State.setRelease_probe (p : Nat) (x : ReleaseStep) : (s.setRelease p x).probe = s.probe := rfl
@[simp] theorem State.setRelease_fenceRec (p : Nat) (x : ReleaseStep) : (s.setRelease p x).fenceRec = s.fenceRec := rfl
@[simp] theorem State.setRelease_suspects (p : Nat) (x : ReleaseStep) : (s.setRelease p x).suspects = s.suspects := rfl
@[simp] theorem State.setRelease_sharedFaults (p : Nat) (x : ReleaseStep) : (s.setRelease p x).sharedFaults = s.sharedFaults := rfl
@[simp] theorem State.setRelease_flits (p : Nat) (x : ReleaseStep) : (s.setRelease p x).flits = s.flits := rfl
@[simp] theorem State.setRelease_wdogValue (p : Nat) (x : ReleaseStep) : (s.setRelease p x).wdogValue = s.wdogValue := rfl
@[simp] theorem State.setRelease_wdogAt (p : Nat) (x : ReleaseStep) : (s.setRelease p x).wdogAt = s.wdogAt := rfl
@[simp] theorem State.setRelease_rebuilds (p : Nat) (x : ReleaseStep) : (s.setRelease p x).rebuilds = s.rebuilds := rfl
@[simp] theorem State.setRelease_forwards (p : Nat) (x : ReleaseStep) : (s.setRelease p x).forwards = s.forwards := rfl
@[simp] theorem State.setRelease_lodge (p : Nat) (x : ReleaseStep) : (s.setRelease p x).lodge = s.lodge := rfl
@[simp] theorem State.setRelease_resets (p : Nat) (x : ReleaseStep) : (s.setRelease p x).resets = s.resets := rfl
@[simp] theorem State.setRelease_engResets (p : Nat) (x : ReleaseStep) : (s.setRelease p x).engResets = s.engResets := rfl
@[simp] theorem State.setRelease_flash (p : Nat) (x : ReleaseStep) : (s.setRelease p x).flash = s.flash := rfl
@[simp] theorem State.setRelease_repairDirty (p : Nat) (x : ReleaseStep) : (s.setRelease p x).repairDirty = s.repairDirty := rfl
@[simp] theorem State.setRelease_mpeers (p : Nat) (x : ReleaseStep) : (s.setRelease p x).mpeers = s.mpeers := rfl
@[simp] theorem State.setRelease_mgmt (p : Nat) (x : ReleaseStep) : (s.setRelease p x).mgmt = s.mgmt := rfl
@[simp] theorem State.setRelease_rcvWriting (p : Nat) (x : ReleaseStep) : (s.setRelease p x).rcvWriting = s.rcvWriting := rfl
@[simp] theorem State.setRelease_i3c (p : Nat) (x : ReleaseStep) : (s.setRelease p x).i3c = s.i3c := rfl
@[simp] theorem State.setRelease_therm (p : Nat) (x : ReleaseStep) : (s.setRelease p x).therm = s.therm := rfl
@[simp] theorem State.setRelease_volt (p : Nat) (x : ReleaseStep) : (s.setRelease p x).volt = s.volt := rfl
@[simp] theorem State.setRelease_jtag (p : Nat) (x : ReleaseStep) : (s.setRelease p x).jtag = s.jtag := rfl

/-! `State.setFences`. -/

@[simp] theorem State.setFences_pending (l : List Nat) : (s.setFences l).pending = s.pending := rfl
@[simp] theorem State.setFences_out (l : List Nat) : (s.setFences l).out = s.out := rfl
@[simp] theorem State.setFences_draws (l : List Nat) : (s.setFences l).draws = s.draws := rfl
@[simp] theorem State.setFences_nextId (l : List Nat) : (s.setFences l).nextId = s.nextId := rfl
@[simp] theorem State.setFences_posted (l : List Nat) : (s.setFences l).posted = s.posted := rfl
@[simp] theorem State.setFences_regs (l : List Nat) : (s.setFences l).regs = s.regs := rfl
@[simp] theorem State.setFences_mem (l : List Nat) : (s.setFences l).mem = s.mem := rfl
@[simp] theorem State.setFences_stale (l : List Nat) : (s.setFences l).stale = s.stale := rfl
@[simp] theorem State.setFences_ecc (l : List Nat) : (s.setFences l).ecc = s.ecc := rfl
@[simp] theorem State.setFences_scratch (l : List Nat) : (s.setFences l).scratch = s.scratch := rfl
@[simp] theorem State.setFences_scratchEcc (l : List Nat) : (s.setFences l).scratchEcc = s.scratchEcc := rfl
@[simp] theorem State.setFences_arbs (l : List Nat) : (s.setFences l).arbs = s.arbs := rfl
@[simp] theorem State.setFences_recode (l : List Nat) : (s.setFences l).recode = s.recode := rfl
@[simp] theorem State.setFences_acts (l : List Nat) : (s.setFences l).acts = s.acts := rfl
@[simp] theorem State.setFences_trr (l : List Nat) : (s.setFences l).trr = s.trr := rfl
@[simp] theorem State.setFences_corrected (l : List Nat) : (s.setFences l).corrected = s.corrected := rfl
@[simp] theorem State.setFences_spares (l : List Nat) : (s.setFences l).spares = s.spares := rfl
@[simp] theorem State.setFences_remapDue (l : List Nat) : (s.setFences l).remapDue = s.remapDue := rfl
@[simp] theorem State.setFences_ft (l : List Nat) : (s.setFences l).ft = s.ft := rfl
@[simp] theorem State.setFences_gated (l : List Nat) : (s.setFences l).gated = s.gated := rfl
@[simp] theorem State.setFences_life (l : List Nat) : (s.setFences l).life = s.life := rfl
@[simp] theorem State.setFences_standbyWanted (l : List Nat) : (s.setFences l).standbyWanted = s.standbyWanted := rfl
@[simp] theorem State.setFences_power (l : List Nat) : (s.setFences l).power = s.power := rfl
@[simp] theorem State.setFences_powerWant (l : List Nat) : (s.setFences l).powerWant = s.powerWant := rfl
@[simp] theorem State.setFences_powerNext (l : List Nat) : (s.setFences l).powerNext = s.powerNext := rfl
@[simp] theorem State.setFences_saving (l : List Nat) : (s.setFences l).saving = s.saving := rfl
@[simp] theorem State.setFences_pwrGood (l : List Nat) : (s.setFences l).pwrGood = s.pwrGood := rfl
@[simp] theorem State.setFences_thermTripped (l : List Nat) : (s.setFences l).thermTripped = s.thermTripped := rfl
@[simp] theorem State.setFences_straps (l : List Nat) : (s.setFences l).straps = s.straps := rfl
@[simp] theorem State.setFences_cause (l : List Nat) : (s.setFences l).cause = s.cause := rfl
@[simp] theorem State.setFences_charter (l : List Nat) : (s.setFences l).charter = s.charter := rfl
@[simp] theorem State.setFences_identity (l : List Nat) : (s.setFences l).identity = s.identity := rfl
@[simp] theorem State.setFences_entries (l : List Nat) : (s.setFences l).entries = s.entries := rfl
@[simp] theorem State.setFences_partState (l : List Nat) : (s.setFences l).partState = s.partState := rfl
@[simp] theorem State.setFences_lastLock (l : List Nat) : (s.setFences l).lastLock = s.lastLock := rfl
@[simp] theorem State.setFences_releasing (l : List Nat) : (s.setFences l).releasing = s.releasing := rfl
@[simp] theorem State.setFences_objs (l : List Nat) : (s.setFences l).objs = s.objs := rfl
@[simp] theorem State.setFences_objStage (l : List Nat) : (s.setFences l).objStage = s.objStage := rfl
@[simp] theorem State.setFences_far (l : List Nat) : (s.setFences l).far = s.far := rfl
@[simp] theorem State.setFences_dir (l : List Nat) : (s.setFences l).dir = s.dir := rfl
@[simp] theorem State.setFences_dirGen (l : List Nat) : (s.setFences l).dirGen = s.dirGen := rfl
@[simp] theorem State.setFences_lookup (l : List Nat) : (s.setFences l).lookup = s.lookup := rfl
@[simp] theorem State.setFences_slots (l : List Nat) : (s.setFences l).slots = s.slots := rfl
@[simp] theorem State.setFences_moves (l : List Nat) : (s.setFences l).moves = s.moves := rfl
@[simp] theorem State.setFences_heat (l : List Nat) : (s.setFences l).heat = s.heat := rfl
@[simp] theorem State.setFences_bg (l : List Nat) : (s.setFences l).bg = s.bg := rfl
@[simp] theorem State.setFences_cmds (l : List Nat) : (s.setFences l).cmds = s.cmds := rfl
@[simp] theorem State.setFences_rings (l : List Nat) : (s.setFences l).rings = s.rings := rfl
@[simp] theorem State.setFences_links (l : List Nat) : (s.setFences l).links = s.links := rfl
@[simp] theorem State.setFences_inq (l : List Nat) : (s.setFences l).inq = s.inq := rfl
@[simp] theorem State.setFences_turns (l : List Nat) : (s.setFences l).turns = s.turns := rfl
@[simp] theorem State.setFences_wms (l : List Nat) : (s.setFences l).wms = s.wms := rfl
@[simp] theorem State.setFences_wmLatch (l : List Nat) : (s.setFences l).wmLatch = s.wmLatch := rfl
@[simp] theorem State.setFences_holds (l : List Nat) : (s.setFences l).holds = s.holds := rfl
@[simp] theorem State.setFences_hauls (l : List Nat) : (s.setFences l).hauls = s.hauls := rfl
@[simp] theorem State.setFences_rows (l : List Nat) : (s.setFences l).rows = s.rows := rfl
@[simp] theorem State.setFences_reqs (l : List Nat) : (s.setFences l).reqs = s.reqs := rfl
@[simp] theorem State.setFences_plan (l : List Nat) : (s.setFences l).plan = s.plan := rfl
@[simp] theorem State.setFences_planBase (l : List Nat) : (s.setFences l).planBase = s.planBase := rfl
@[simp] theorem State.setFences_sent (l : List Nat) : (s.setFences l).sent = s.sent := rfl
@[simp] theorem State.setFences_emberNums (l : List Nat) : (s.setFences l).emberNums = s.emberNums := rfl
@[simp] theorem State.setFences_recv (l : List Nat) : (s.setFences l).recv = s.recv := rfl
@[simp] theorem State.setFences_merges (l : List Nat) : (s.setFences l).merges = s.merges := rfl
@[simp] theorem State.setFences_mergesDone (l : List Nat) : (s.setFences l).mergesDone = s.mergesDone := rfl
@[simp] theorem State.setFences_images (l : List Nat) : (s.setFences l).images = s.images := rfl
@[simp] theorem State.setFences_kindles (l : List Nat) : (s.setFences l).kindles = s.kindles := rfl
@[simp] theorem State.setFences_arrayHclk (l : List Nat) : (s.setFences l).arrayHclk = s.arrayHclk := rfl
@[simp] theorem State.setFences_arrayUsed (l : List Nat) : (s.setFences l).arrayUsed = s.arrayUsed := rfl
@[simp] theorem State.setFences_scrub (l : List Nat) : (s.setFences l).scrub = s.scrub := rfl
@[simp] theorem State.setFences_conns (l : List Nat) : (s.setFences l).conns = s.conns := rfl
@[simp] theorem State.setFences_ports (l : List Nat) : (s.setFences l).ports = s.ports := rfl
@[simp] theorem State.setFences_up (l : List Nat) : (s.setFences l).up = s.up := rfl
@[simp] theorem State.setFences_waykeys (l : List Nat) : (s.setFences l).waykeys = s.waykeys := rfl
@[simp] theorem State.setFences_wkLive (l : List Nat) : (s.setFences l).wkLive = s.wkLive := rfl
@[simp] theorem State.setFences_vioLog (l : List Nat) : (s.setFences l).vioLog = s.vioLog := rfl
@[simp] theorem State.setFences_shapers (l : List Nat) : (s.setFences l).shapers = s.shapers := rfl
@[simp] theorem State.setFences_shChanges (l : List Nat) : (s.setFences l).shChanges = s.shChanges := rfl
@[simp] theorem State.setFences_acctPackets (l : List Nat) : (s.setFences l).acctPackets = s.acctPackets := rfl
@[simp] theorem State.setFences_drrs (l : List Nat) : (s.setFences l).drrs = s.drrs := rfl
@[simp] theorem State.setFences_replies (l : List Nat) : (s.setFences l).replies = s.replies := rfl
@[simp] theorem State.setFences_attest (l : List Nat) : (s.setFences l).attest = s.attest := rfl
@[simp] theorem State.setFences_meters (l : List Nat) : (s.setFences l).meters = s.meters := rfl
@[simp] theorem State.setFences_staging (l : List Nat) : (s.setFences l).staging = s.staging := rfl
@[simp] theorem State.setFences_probe (l : List Nat) : (s.setFences l).probe = s.probe := rfl
@[simp] theorem State.setFences_suspects (l : List Nat) : (s.setFences l).suspects = s.suspects := rfl
@[simp] theorem State.setFences_sharedFaults (l : List Nat) : (s.setFences l).sharedFaults = s.sharedFaults := rfl
@[simp] theorem State.setFences_flits (l : List Nat) : (s.setFences l).flits = s.flits := rfl
@[simp] theorem State.setFences_wdogValue (l : List Nat) : (s.setFences l).wdogValue = s.wdogValue := rfl
@[simp] theorem State.setFences_wdogAt (l : List Nat) : (s.setFences l).wdogAt = s.wdogAt := rfl
@[simp] theorem State.setFences_rebuilds (l : List Nat) : (s.setFences l).rebuilds = s.rebuilds := rfl
@[simp] theorem State.setFences_forwards (l : List Nat) : (s.setFences l).forwards = s.forwards := rfl
@[simp] theorem State.setFences_lodge (l : List Nat) : (s.setFences l).lodge = s.lodge := rfl
@[simp] theorem State.setFences_resets (l : List Nat) : (s.setFences l).resets = s.resets := rfl
@[simp] theorem State.setFences_engResets (l : List Nat) : (s.setFences l).engResets = s.engResets := rfl
@[simp] theorem State.setFences_flash (l : List Nat) : (s.setFences l).flash = s.flash := rfl
@[simp] theorem State.setFences_repairDirty (l : List Nat) : (s.setFences l).repairDirty = s.repairDirty := rfl
@[simp] theorem State.setFences_mpeers (l : List Nat) : (s.setFences l).mpeers = s.mpeers := rfl
@[simp] theorem State.setFences_mgmt (l : List Nat) : (s.setFences l).mgmt = s.mgmt := rfl
@[simp] theorem State.setFences_rcvWriting (l : List Nat) : (s.setFences l).rcvWriting = s.rcvWriting := rfl
@[simp] theorem State.setFences_i3c (l : List Nat) : (s.setFences l).i3c = s.i3c := rfl
@[simp] theorem State.setFences_therm (l : List Nat) : (s.setFences l).therm = s.therm := rfl
@[simp] theorem State.setFences_volt (l : List Nat) : (s.setFences l).volt = s.volt := rfl
@[simp] theorem State.setFences_jtag (l : List Nat) : (s.setFences l).jtag = s.jtag := rfl

/-! `State.setRemaps`. -/

@[simp] theorem State.setRemaps_pending (l : List Nat) : (s.setRemaps l).pending = s.pending := rfl
@[simp] theorem State.setRemaps_out (l : List Nat) : (s.setRemaps l).out = s.out := rfl
@[simp] theorem State.setRemaps_draws (l : List Nat) : (s.setRemaps l).draws = s.draws := rfl
@[simp] theorem State.setRemaps_nextId (l : List Nat) : (s.setRemaps l).nextId = s.nextId := rfl
@[simp] theorem State.setRemaps_posted (l : List Nat) : (s.setRemaps l).posted = s.posted := rfl
@[simp] theorem State.setRemaps_regs (l : List Nat) : (s.setRemaps l).regs = s.regs := rfl
@[simp] theorem State.setRemaps_mem (l : List Nat) : (s.setRemaps l).mem = s.mem := rfl
@[simp] theorem State.setRemaps_stale (l : List Nat) : (s.setRemaps l).stale = s.stale := rfl
@[simp] theorem State.setRemaps_ecc (l : List Nat) : (s.setRemaps l).ecc = s.ecc := rfl
@[simp] theorem State.setRemaps_scratch (l : List Nat) : (s.setRemaps l).scratch = s.scratch := rfl
@[simp] theorem State.setRemaps_scratchEcc (l : List Nat) : (s.setRemaps l).scratchEcc = s.scratchEcc := rfl
@[simp] theorem State.setRemaps_arbs (l : List Nat) : (s.setRemaps l).arbs = s.arbs := rfl
@[simp] theorem State.setRemaps_recode (l : List Nat) : (s.setRemaps l).recode = s.recode := rfl
@[simp] theorem State.setRemaps_acts (l : List Nat) : (s.setRemaps l).acts = s.acts := rfl
@[simp] theorem State.setRemaps_trr (l : List Nat) : (s.setRemaps l).trr = s.trr := rfl
@[simp] theorem State.setRemaps_corrected (l : List Nat) : (s.setRemaps l).corrected = s.corrected := rfl
@[simp] theorem State.setRemaps_remapDue (l : List Nat) : (s.setRemaps l).remapDue = s.remapDue := rfl
@[simp] theorem State.setRemaps_ft (l : List Nat) : (s.setRemaps l).ft = s.ft := rfl
@[simp] theorem State.setRemaps_gated (l : List Nat) : (s.setRemaps l).gated = s.gated := rfl
@[simp] theorem State.setRemaps_life (l : List Nat) : (s.setRemaps l).life = s.life := rfl
@[simp] theorem State.setRemaps_standbyWanted (l : List Nat) : (s.setRemaps l).standbyWanted = s.standbyWanted := rfl
@[simp] theorem State.setRemaps_power (l : List Nat) : (s.setRemaps l).power = s.power := rfl
@[simp] theorem State.setRemaps_powerWant (l : List Nat) : (s.setRemaps l).powerWant = s.powerWant := rfl
@[simp] theorem State.setRemaps_powerNext (l : List Nat) : (s.setRemaps l).powerNext = s.powerNext := rfl
@[simp] theorem State.setRemaps_saving (l : List Nat) : (s.setRemaps l).saving = s.saving := rfl
@[simp] theorem State.setRemaps_pwrGood (l : List Nat) : (s.setRemaps l).pwrGood = s.pwrGood := rfl
@[simp] theorem State.setRemaps_thermTripped (l : List Nat) : (s.setRemaps l).thermTripped = s.thermTripped := rfl
@[simp] theorem State.setRemaps_straps (l : List Nat) : (s.setRemaps l).straps = s.straps := rfl
@[simp] theorem State.setRemaps_cause (l : List Nat) : (s.setRemaps l).cause = s.cause := rfl
@[simp] theorem State.setRemaps_charter (l : List Nat) : (s.setRemaps l).charter = s.charter := rfl
@[simp] theorem State.setRemaps_identity (l : List Nat) : (s.setRemaps l).identity = s.identity := rfl
@[simp] theorem State.setRemaps_entries (l : List Nat) : (s.setRemaps l).entries = s.entries := rfl
@[simp] theorem State.setRemaps_partState (l : List Nat) : (s.setRemaps l).partState = s.partState := rfl
@[simp] theorem State.setRemaps_lastLock (l : List Nat) : (s.setRemaps l).lastLock = s.lastLock := rfl
@[simp] theorem State.setRemaps_releasing (l : List Nat) : (s.setRemaps l).releasing = s.releasing := rfl
@[simp] theorem State.setRemaps_objs (l : List Nat) : (s.setRemaps l).objs = s.objs := rfl
@[simp] theorem State.setRemaps_objStage (l : List Nat) : (s.setRemaps l).objStage = s.objStage := rfl
@[simp] theorem State.setRemaps_far (l : List Nat) : (s.setRemaps l).far = s.far := rfl
@[simp] theorem State.setRemaps_dir (l : List Nat) : (s.setRemaps l).dir = s.dir := rfl
@[simp] theorem State.setRemaps_dirGen (l : List Nat) : (s.setRemaps l).dirGen = s.dirGen := rfl
@[simp] theorem State.setRemaps_lookup (l : List Nat) : (s.setRemaps l).lookup = s.lookup := rfl
@[simp] theorem State.setRemaps_slots (l : List Nat) : (s.setRemaps l).slots = s.slots := rfl
@[simp] theorem State.setRemaps_moves (l : List Nat) : (s.setRemaps l).moves = s.moves := rfl
@[simp] theorem State.setRemaps_heat (l : List Nat) : (s.setRemaps l).heat = s.heat := rfl
@[simp] theorem State.setRemaps_bg (l : List Nat) : (s.setRemaps l).bg = s.bg := rfl
@[simp] theorem State.setRemaps_cmds (l : List Nat) : (s.setRemaps l).cmds = s.cmds := rfl
@[simp] theorem State.setRemaps_rings (l : List Nat) : (s.setRemaps l).rings = s.rings := rfl
@[simp] theorem State.setRemaps_links (l : List Nat) : (s.setRemaps l).links = s.links := rfl
@[simp] theorem State.setRemaps_inq (l : List Nat) : (s.setRemaps l).inq = s.inq := rfl
@[simp] theorem State.setRemaps_turns (l : List Nat) : (s.setRemaps l).turns = s.turns := rfl
@[simp] theorem State.setRemaps_wms (l : List Nat) : (s.setRemaps l).wms = s.wms := rfl
@[simp] theorem State.setRemaps_wmLatch (l : List Nat) : (s.setRemaps l).wmLatch = s.wmLatch := rfl
@[simp] theorem State.setRemaps_holds (l : List Nat) : (s.setRemaps l).holds = s.holds := rfl
@[simp] theorem State.setRemaps_hauls (l : List Nat) : (s.setRemaps l).hauls = s.hauls := rfl
@[simp] theorem State.setRemaps_rows (l : List Nat) : (s.setRemaps l).rows = s.rows := rfl
@[simp] theorem State.setRemaps_reqs (l : List Nat) : (s.setRemaps l).reqs = s.reqs := rfl
@[simp] theorem State.setRemaps_plan (l : List Nat) : (s.setRemaps l).plan = s.plan := rfl
@[simp] theorem State.setRemaps_planBase (l : List Nat) : (s.setRemaps l).planBase = s.planBase := rfl
@[simp] theorem State.setRemaps_sent (l : List Nat) : (s.setRemaps l).sent = s.sent := rfl
@[simp] theorem State.setRemaps_emberNums (l : List Nat) : (s.setRemaps l).emberNums = s.emberNums := rfl
@[simp] theorem State.setRemaps_recv (l : List Nat) : (s.setRemaps l).recv = s.recv := rfl
@[simp] theorem State.setRemaps_merges (l : List Nat) : (s.setRemaps l).merges = s.merges := rfl
@[simp] theorem State.setRemaps_mergesDone (l : List Nat) : (s.setRemaps l).mergesDone = s.mergesDone := rfl
@[simp] theorem State.setRemaps_images (l : List Nat) : (s.setRemaps l).images = s.images := rfl
@[simp] theorem State.setRemaps_kindles (l : List Nat) : (s.setRemaps l).kindles = s.kindles := rfl
@[simp] theorem State.setRemaps_arrayHclk (l : List Nat) : (s.setRemaps l).arrayHclk = s.arrayHclk := rfl
@[simp] theorem State.setRemaps_arrayUsed (l : List Nat) : (s.setRemaps l).arrayUsed = s.arrayUsed := rfl
@[simp] theorem State.setRemaps_scrub (l : List Nat) : (s.setRemaps l).scrub = s.scrub := rfl
@[simp] theorem State.setRemaps_conns (l : List Nat) : (s.setRemaps l).conns = s.conns := rfl
@[simp] theorem State.setRemaps_ports (l : List Nat) : (s.setRemaps l).ports = s.ports := rfl
@[simp] theorem State.setRemaps_up (l : List Nat) : (s.setRemaps l).up = s.up := rfl
@[simp] theorem State.setRemaps_waykeys (l : List Nat) : (s.setRemaps l).waykeys = s.waykeys := rfl
@[simp] theorem State.setRemaps_wkLive (l : List Nat) : (s.setRemaps l).wkLive = s.wkLive := rfl
@[simp] theorem State.setRemaps_vioLog (l : List Nat) : (s.setRemaps l).vioLog = s.vioLog := rfl
@[simp] theorem State.setRemaps_shapers (l : List Nat) : (s.setRemaps l).shapers = s.shapers := rfl
@[simp] theorem State.setRemaps_shChanges (l : List Nat) : (s.setRemaps l).shChanges = s.shChanges := rfl
@[simp] theorem State.setRemaps_acctPackets (l : List Nat) : (s.setRemaps l).acctPackets = s.acctPackets := rfl
@[simp] theorem State.setRemaps_drrs (l : List Nat) : (s.setRemaps l).drrs = s.drrs := rfl
@[simp] theorem State.setRemaps_replies (l : List Nat) : (s.setRemaps l).replies = s.replies := rfl
@[simp] theorem State.setRemaps_attest (l : List Nat) : (s.setRemaps l).attest = s.attest := rfl
@[simp] theorem State.setRemaps_meters (l : List Nat) : (s.setRemaps l).meters = s.meters := rfl
@[simp] theorem State.setRemaps_staging (l : List Nat) : (s.setRemaps l).staging = s.staging := rfl
@[simp] theorem State.setRemaps_probe (l : List Nat) : (s.setRemaps l).probe = s.probe := rfl
@[simp] theorem State.setRemaps_fenceRec (l : List Nat) : (s.setRemaps l).fenceRec = s.fenceRec := rfl
@[simp] theorem State.setRemaps_suspects (l : List Nat) : (s.setRemaps l).suspects = s.suspects := rfl
@[simp] theorem State.setRemaps_sharedFaults (l : List Nat) : (s.setRemaps l).sharedFaults = s.sharedFaults := rfl
@[simp] theorem State.setRemaps_flits (l : List Nat) : (s.setRemaps l).flits = s.flits := rfl
@[simp] theorem State.setRemaps_wdogValue (l : List Nat) : (s.setRemaps l).wdogValue = s.wdogValue := rfl
@[simp] theorem State.setRemaps_wdogAt (l : List Nat) : (s.setRemaps l).wdogAt = s.wdogAt := rfl
@[simp] theorem State.setRemaps_rebuilds (l : List Nat) : (s.setRemaps l).rebuilds = s.rebuilds := rfl
@[simp] theorem State.setRemaps_forwards (l : List Nat) : (s.setRemaps l).forwards = s.forwards := rfl
@[simp] theorem State.setRemaps_lodge (l : List Nat) : (s.setRemaps l).lodge = s.lodge := rfl
@[simp] theorem State.setRemaps_resets (l : List Nat) : (s.setRemaps l).resets = s.resets := rfl
@[simp] theorem State.setRemaps_engResets (l : List Nat) : (s.setRemaps l).engResets = s.engResets := rfl
@[simp] theorem State.setRemaps_flash (l : List Nat) : (s.setRemaps l).flash = s.flash := rfl
@[simp] theorem State.setRemaps_repairDirty (l : List Nat) : (s.setRemaps l).repairDirty = s.repairDirty := rfl
@[simp] theorem State.setRemaps_mpeers (l : List Nat) : (s.setRemaps l).mpeers = s.mpeers := rfl
@[simp] theorem State.setRemaps_mgmt (l : List Nat) : (s.setRemaps l).mgmt = s.mgmt := rfl
@[simp] theorem State.setRemaps_rcvWriting (l : List Nat) : (s.setRemaps l).rcvWriting = s.rcvWriting := rfl
@[simp] theorem State.setRemaps_i3c (l : List Nat) : (s.setRemaps l).i3c = s.i3c := rfl
@[simp] theorem State.setRemaps_therm (l : List Nat) : (s.setRemaps l).therm = s.therm := rfl
@[simp] theorem State.setRemaps_volt (l : List Nat) : (s.setRemaps l).volt = s.volt := rfl
@[simp] theorem State.setRemaps_jtag (l : List Nat) : (s.setRemaps l).jtag = s.jtag := rfl

/-! `State.setDrr`. -/

@[simp] theorem State.setDrr_pending (k : Nat) (d : Drr) : (s.setDrr k d).pending = s.pending := rfl
@[simp] theorem State.setDrr_out (k : Nat) (d : Drr) : (s.setDrr k d).out = s.out := rfl
@[simp] theorem State.setDrr_draws (k : Nat) (d : Drr) : (s.setDrr k d).draws = s.draws := rfl
@[simp] theorem State.setDrr_nextId (k : Nat) (d : Drr) : (s.setDrr k d).nextId = s.nextId := rfl
@[simp] theorem State.setDrr_posted (k : Nat) (d : Drr) : (s.setDrr k d).posted = s.posted := rfl
@[simp] theorem State.setDrr_regs (k : Nat) (d : Drr) : (s.setDrr k d).regs = s.regs := rfl
@[simp] theorem State.setDrr_mem (k : Nat) (d : Drr) : (s.setDrr k d).mem = s.mem := rfl
@[simp] theorem State.setDrr_stale (k : Nat) (d : Drr) : (s.setDrr k d).stale = s.stale := rfl
@[simp] theorem State.setDrr_ecc (k : Nat) (d : Drr) : (s.setDrr k d).ecc = s.ecc := rfl
@[simp] theorem State.setDrr_scratch (k : Nat) (d : Drr) : (s.setDrr k d).scratch = s.scratch := rfl
@[simp] theorem State.setDrr_scratchEcc (k : Nat) (d : Drr) : (s.setDrr k d).scratchEcc = s.scratchEcc := rfl
@[simp] theorem State.setDrr_arbs (k : Nat) (d : Drr) : (s.setDrr k d).arbs = s.arbs := rfl
@[simp] theorem State.setDrr_recode (k : Nat) (d : Drr) : (s.setDrr k d).recode = s.recode := rfl
@[simp] theorem State.setDrr_acts (k : Nat) (d : Drr) : (s.setDrr k d).acts = s.acts := rfl
@[simp] theorem State.setDrr_trr (k : Nat) (d : Drr) : (s.setDrr k d).trr = s.trr := rfl
@[simp] theorem State.setDrr_corrected (k : Nat) (d : Drr) : (s.setDrr k d).corrected = s.corrected := rfl
@[simp] theorem State.setDrr_spares (k : Nat) (d : Drr) : (s.setDrr k d).spares = s.spares := rfl
@[simp] theorem State.setDrr_remapDue (k : Nat) (d : Drr) : (s.setDrr k d).remapDue = s.remapDue := rfl
@[simp] theorem State.setDrr_ft (k : Nat) (d : Drr) : (s.setDrr k d).ft = s.ft := rfl
@[simp] theorem State.setDrr_gated (k : Nat) (d : Drr) : (s.setDrr k d).gated = s.gated := rfl
@[simp] theorem State.setDrr_life (k : Nat) (d : Drr) : (s.setDrr k d).life = s.life := rfl
@[simp] theorem State.setDrr_standbyWanted (k : Nat) (d : Drr) : (s.setDrr k d).standbyWanted = s.standbyWanted := rfl
@[simp] theorem State.setDrr_power (k : Nat) (d : Drr) : (s.setDrr k d).power = s.power := rfl
@[simp] theorem State.setDrr_powerWant (k : Nat) (d : Drr) : (s.setDrr k d).powerWant = s.powerWant := rfl
@[simp] theorem State.setDrr_powerNext (k : Nat) (d : Drr) : (s.setDrr k d).powerNext = s.powerNext := rfl
@[simp] theorem State.setDrr_saving (k : Nat) (d : Drr) : (s.setDrr k d).saving = s.saving := rfl
@[simp] theorem State.setDrr_pwrGood (k : Nat) (d : Drr) : (s.setDrr k d).pwrGood = s.pwrGood := rfl
@[simp] theorem State.setDrr_thermTripped (k : Nat) (d : Drr) : (s.setDrr k d).thermTripped = s.thermTripped := rfl
@[simp] theorem State.setDrr_straps (k : Nat) (d : Drr) : (s.setDrr k d).straps = s.straps := rfl
@[simp] theorem State.setDrr_cause (k : Nat) (d : Drr) : (s.setDrr k d).cause = s.cause := rfl
@[simp] theorem State.setDrr_charter (k : Nat) (d : Drr) : (s.setDrr k d).charter = s.charter := rfl
@[simp] theorem State.setDrr_identity (k : Nat) (d : Drr) : (s.setDrr k d).identity = s.identity := rfl
@[simp] theorem State.setDrr_entries (k : Nat) (d : Drr) : (s.setDrr k d).entries = s.entries := rfl
@[simp] theorem State.setDrr_partState (k : Nat) (d : Drr) : (s.setDrr k d).partState = s.partState := rfl
@[simp] theorem State.setDrr_lastLock (k : Nat) (d : Drr) : (s.setDrr k d).lastLock = s.lastLock := rfl
@[simp] theorem State.setDrr_releasing (k : Nat) (d : Drr) : (s.setDrr k d).releasing = s.releasing := rfl
@[simp] theorem State.setDrr_objs (k : Nat) (d : Drr) : (s.setDrr k d).objs = s.objs := rfl
@[simp] theorem State.setDrr_objStage (k : Nat) (d : Drr) : (s.setDrr k d).objStage = s.objStage := rfl
@[simp] theorem State.setDrr_far (k : Nat) (d : Drr) : (s.setDrr k d).far = s.far := rfl
@[simp] theorem State.setDrr_dir (k : Nat) (d : Drr) : (s.setDrr k d).dir = s.dir := rfl
@[simp] theorem State.setDrr_dirGen (k : Nat) (d : Drr) : (s.setDrr k d).dirGen = s.dirGen := rfl
@[simp] theorem State.setDrr_lookup (k : Nat) (d : Drr) : (s.setDrr k d).lookup = s.lookup := rfl
@[simp] theorem State.setDrr_slots (k : Nat) (d : Drr) : (s.setDrr k d).slots = s.slots := rfl
@[simp] theorem State.setDrr_moves (k : Nat) (d : Drr) : (s.setDrr k d).moves = s.moves := rfl
@[simp] theorem State.setDrr_heat (k : Nat) (d : Drr) : (s.setDrr k d).heat = s.heat := rfl
@[simp] theorem State.setDrr_bg (k : Nat) (d : Drr) : (s.setDrr k d).bg = s.bg := rfl
@[simp] theorem State.setDrr_cmds (k : Nat) (d : Drr) : (s.setDrr k d).cmds = s.cmds := rfl
@[simp] theorem State.setDrr_rings (k : Nat) (d : Drr) : (s.setDrr k d).rings = s.rings := rfl
@[simp] theorem State.setDrr_links (k : Nat) (d : Drr) : (s.setDrr k d).links = s.links := rfl
@[simp] theorem State.setDrr_inq (k : Nat) (d : Drr) : (s.setDrr k d).inq = s.inq := rfl
@[simp] theorem State.setDrr_turns (k : Nat) (d : Drr) : (s.setDrr k d).turns = s.turns := rfl
@[simp] theorem State.setDrr_wms (k : Nat) (d : Drr) : (s.setDrr k d).wms = s.wms := rfl
@[simp] theorem State.setDrr_wmLatch (k : Nat) (d : Drr) : (s.setDrr k d).wmLatch = s.wmLatch := rfl
@[simp] theorem State.setDrr_holds (k : Nat) (d : Drr) : (s.setDrr k d).holds = s.holds := rfl
@[simp] theorem State.setDrr_hauls (k : Nat) (d : Drr) : (s.setDrr k d).hauls = s.hauls := rfl
@[simp] theorem State.setDrr_rows (k : Nat) (d : Drr) : (s.setDrr k d).rows = s.rows := rfl
@[simp] theorem State.setDrr_reqs (k : Nat) (d : Drr) : (s.setDrr k d).reqs = s.reqs := rfl
@[simp] theorem State.setDrr_plan (k : Nat) (d : Drr) : (s.setDrr k d).plan = s.plan := rfl
@[simp] theorem State.setDrr_planBase (k : Nat) (d : Drr) : (s.setDrr k d).planBase = s.planBase := rfl
@[simp] theorem State.setDrr_sent (k : Nat) (d : Drr) : (s.setDrr k d).sent = s.sent := rfl
@[simp] theorem State.setDrr_emberNums (k : Nat) (d : Drr) : (s.setDrr k d).emberNums = s.emberNums := rfl
@[simp] theorem State.setDrr_recv (k : Nat) (d : Drr) : (s.setDrr k d).recv = s.recv := rfl
@[simp] theorem State.setDrr_merges (k : Nat) (d : Drr) : (s.setDrr k d).merges = s.merges := rfl
@[simp] theorem State.setDrr_mergesDone (k : Nat) (d : Drr) : (s.setDrr k d).mergesDone = s.mergesDone := rfl
@[simp] theorem State.setDrr_images (k : Nat) (d : Drr) : (s.setDrr k d).images = s.images := rfl
@[simp] theorem State.setDrr_kindles (k : Nat) (d : Drr) : (s.setDrr k d).kindles = s.kindles := rfl
@[simp] theorem State.setDrr_arrayHclk (k : Nat) (d : Drr) : (s.setDrr k d).arrayHclk = s.arrayHclk := rfl
@[simp] theorem State.setDrr_arrayUsed (k : Nat) (d : Drr) : (s.setDrr k d).arrayUsed = s.arrayUsed := rfl
@[simp] theorem State.setDrr_scrub (k : Nat) (d : Drr) : (s.setDrr k d).scrub = s.scrub := rfl
@[simp] theorem State.setDrr_conns (k : Nat) (d : Drr) : (s.setDrr k d).conns = s.conns := rfl
@[simp] theorem State.setDrr_ports (k : Nat) (d : Drr) : (s.setDrr k d).ports = s.ports := rfl
@[simp] theorem State.setDrr_up (k : Nat) (d : Drr) : (s.setDrr k d).up = s.up := rfl
@[simp] theorem State.setDrr_waykeys (k : Nat) (d : Drr) : (s.setDrr k d).waykeys = s.waykeys := rfl
@[simp] theorem State.setDrr_wkLive (k : Nat) (d : Drr) : (s.setDrr k d).wkLive = s.wkLive := rfl
@[simp] theorem State.setDrr_vioLog (k : Nat) (d : Drr) : (s.setDrr k d).vioLog = s.vioLog := rfl
@[simp] theorem State.setDrr_shapers (k : Nat) (d : Drr) : (s.setDrr k d).shapers = s.shapers := rfl
@[simp] theorem State.setDrr_shChanges (k : Nat) (d : Drr) : (s.setDrr k d).shChanges = s.shChanges := rfl
@[simp] theorem State.setDrr_acctPackets (k : Nat) (d : Drr) : (s.setDrr k d).acctPackets = s.acctPackets := rfl
@[simp] theorem State.setDrr_replies (k : Nat) (d : Drr) : (s.setDrr k d).replies = s.replies := rfl
@[simp] theorem State.setDrr_attest (k : Nat) (d : Drr) : (s.setDrr k d).attest = s.attest := rfl
@[simp] theorem State.setDrr_meters (k : Nat) (d : Drr) : (s.setDrr k d).meters = s.meters := rfl
@[simp] theorem State.setDrr_staging (k : Nat) (d : Drr) : (s.setDrr k d).staging = s.staging := rfl
@[simp] theorem State.setDrr_probe (k : Nat) (d : Drr) : (s.setDrr k d).probe = s.probe := rfl
@[simp] theorem State.setDrr_fenceRec (k : Nat) (d : Drr) : (s.setDrr k d).fenceRec = s.fenceRec := rfl
@[simp] theorem State.setDrr_suspects (k : Nat) (d : Drr) : (s.setDrr k d).suspects = s.suspects := rfl
@[simp] theorem State.setDrr_sharedFaults (k : Nat) (d : Drr) : (s.setDrr k d).sharedFaults = s.sharedFaults := rfl
@[simp] theorem State.setDrr_flits (k : Nat) (d : Drr) : (s.setDrr k d).flits = s.flits := rfl
@[simp] theorem State.setDrr_wdogValue (k : Nat) (d : Drr) : (s.setDrr k d).wdogValue = s.wdogValue := rfl
@[simp] theorem State.setDrr_wdogAt (k : Nat) (d : Drr) : (s.setDrr k d).wdogAt = s.wdogAt := rfl
@[simp] theorem State.setDrr_rebuilds (k : Nat) (d : Drr) : (s.setDrr k d).rebuilds = s.rebuilds := rfl
@[simp] theorem State.setDrr_forwards (k : Nat) (d : Drr) : (s.setDrr k d).forwards = s.forwards := rfl
@[simp] theorem State.setDrr_lodge (k : Nat) (d : Drr) : (s.setDrr k d).lodge = s.lodge := rfl
@[simp] theorem State.setDrr_resets (k : Nat) (d : Drr) : (s.setDrr k d).resets = s.resets := rfl
@[simp] theorem State.setDrr_engResets (k : Nat) (d : Drr) : (s.setDrr k d).engResets = s.engResets := rfl
@[simp] theorem State.setDrr_flash (k : Nat) (d : Drr) : (s.setDrr k d).flash = s.flash := rfl
@[simp] theorem State.setDrr_repairDirty (k : Nat) (d : Drr) : (s.setDrr k d).repairDirty = s.repairDirty := rfl
@[simp] theorem State.setDrr_mpeers (k : Nat) (d : Drr) : (s.setDrr k d).mpeers = s.mpeers := rfl
@[simp] theorem State.setDrr_mgmt (k : Nat) (d : Drr) : (s.setDrr k d).mgmt = s.mgmt := rfl
@[simp] theorem State.setDrr_rcvWriting (k : Nat) (d : Drr) : (s.setDrr k d).rcvWriting = s.rcvWriting := rfl
@[simp] theorem State.setDrr_i3c (k : Nat) (d : Drr) : (s.setDrr k d).i3c = s.i3c := rfl
@[simp] theorem State.setDrr_therm (k : Nat) (d : Drr) : (s.setDrr k d).therm = s.therm := rfl
@[simp] theorem State.setDrr_volt (k : Nat) (d : Drr) : (s.setDrr k d).volt = s.volt := rfl
@[simp] theorem State.setDrr_jtag (k : Nat) (d : Drr) : (s.setDrr k d).jtag = s.jtag := rfl

/-! `State.setShaper`. -/

@[simp] theorem State.setShaper_pending (p l : Nat) (v : Pair 128) : (s.setShaper p l v).pending = s.pending := rfl
@[simp] theorem State.setShaper_out (p l : Nat) (v : Pair 128) : (s.setShaper p l v).out = s.out := rfl
@[simp] theorem State.setShaper_draws (p l : Nat) (v : Pair 128) : (s.setShaper p l v).draws = s.draws := rfl
@[simp] theorem State.setShaper_nextId (p l : Nat) (v : Pair 128) : (s.setShaper p l v).nextId = s.nextId := rfl
@[simp] theorem State.setShaper_posted (p l : Nat) (v : Pair 128) : (s.setShaper p l v).posted = s.posted := rfl
@[simp] theorem State.setShaper_regs (p l : Nat) (v : Pair 128) : (s.setShaper p l v).regs = s.regs := rfl
@[simp] theorem State.setShaper_mem (p l : Nat) (v : Pair 128) : (s.setShaper p l v).mem = s.mem := rfl
@[simp] theorem State.setShaper_stale (p l : Nat) (v : Pair 128) : (s.setShaper p l v).stale = s.stale := rfl
@[simp] theorem State.setShaper_ecc (p l : Nat) (v : Pair 128) : (s.setShaper p l v).ecc = s.ecc := rfl
@[simp] theorem State.setShaper_scratch (p l : Nat) (v : Pair 128) : (s.setShaper p l v).scratch = s.scratch := rfl
@[simp] theorem State.setShaper_scratchEcc (p l : Nat) (v : Pair 128) : (s.setShaper p l v).scratchEcc = s.scratchEcc := rfl
@[simp] theorem State.setShaper_arbs (p l : Nat) (v : Pair 128) : (s.setShaper p l v).arbs = s.arbs := rfl
@[simp] theorem State.setShaper_recode (p l : Nat) (v : Pair 128) : (s.setShaper p l v).recode = s.recode := rfl
@[simp] theorem State.setShaper_acts (p l : Nat) (v : Pair 128) : (s.setShaper p l v).acts = s.acts := rfl
@[simp] theorem State.setShaper_trr (p l : Nat) (v : Pair 128) : (s.setShaper p l v).trr = s.trr := rfl
@[simp] theorem State.setShaper_corrected (p l : Nat) (v : Pair 128) : (s.setShaper p l v).corrected = s.corrected := rfl
@[simp] theorem State.setShaper_spares (p l : Nat) (v : Pair 128) : (s.setShaper p l v).spares = s.spares := rfl
@[simp] theorem State.setShaper_remapDue (p l : Nat) (v : Pair 128) : (s.setShaper p l v).remapDue = s.remapDue := rfl
@[simp] theorem State.setShaper_ft (p l : Nat) (v : Pair 128) : (s.setShaper p l v).ft = s.ft := rfl
@[simp] theorem State.setShaper_gated (p l : Nat) (v : Pair 128) : (s.setShaper p l v).gated = s.gated := rfl
@[simp] theorem State.setShaper_life (p l : Nat) (v : Pair 128) : (s.setShaper p l v).life = s.life := rfl
@[simp] theorem State.setShaper_standbyWanted (p l : Nat) (v : Pair 128) : (s.setShaper p l v).standbyWanted = s.standbyWanted := rfl
@[simp] theorem State.setShaper_power (p l : Nat) (v : Pair 128) : (s.setShaper p l v).power = s.power := rfl
@[simp] theorem State.setShaper_powerWant (p l : Nat) (v : Pair 128) : (s.setShaper p l v).powerWant = s.powerWant := rfl
@[simp] theorem State.setShaper_powerNext (p l : Nat) (v : Pair 128) : (s.setShaper p l v).powerNext = s.powerNext := rfl
@[simp] theorem State.setShaper_saving (p l : Nat) (v : Pair 128) : (s.setShaper p l v).saving = s.saving := rfl
@[simp] theorem State.setShaper_pwrGood (p l : Nat) (v : Pair 128) : (s.setShaper p l v).pwrGood = s.pwrGood := rfl
@[simp] theorem State.setShaper_thermTripped (p l : Nat) (v : Pair 128) : (s.setShaper p l v).thermTripped = s.thermTripped := rfl
@[simp] theorem State.setShaper_straps (p l : Nat) (v : Pair 128) : (s.setShaper p l v).straps = s.straps := rfl
@[simp] theorem State.setShaper_cause (p l : Nat) (v : Pair 128) : (s.setShaper p l v).cause = s.cause := rfl
@[simp] theorem State.setShaper_charter (p l : Nat) (v : Pair 128) : (s.setShaper p l v).charter = s.charter := rfl
@[simp] theorem State.setShaper_identity (p l : Nat) (v : Pair 128) : (s.setShaper p l v).identity = s.identity := rfl
@[simp] theorem State.setShaper_entries (p l : Nat) (v : Pair 128) : (s.setShaper p l v).entries = s.entries := rfl
@[simp] theorem State.setShaper_partState (p l : Nat) (v : Pair 128) : (s.setShaper p l v).partState = s.partState := rfl
@[simp] theorem State.setShaper_lastLock (p l : Nat) (v : Pair 128) : (s.setShaper p l v).lastLock = s.lastLock := rfl
@[simp] theorem State.setShaper_releasing (p l : Nat) (v : Pair 128) : (s.setShaper p l v).releasing = s.releasing := rfl
@[simp] theorem State.setShaper_objs (p l : Nat) (v : Pair 128) : (s.setShaper p l v).objs = s.objs := rfl
@[simp] theorem State.setShaper_objStage (p l : Nat) (v : Pair 128) : (s.setShaper p l v).objStage = s.objStage := rfl
@[simp] theorem State.setShaper_far (p l : Nat) (v : Pair 128) : (s.setShaper p l v).far = s.far := rfl
@[simp] theorem State.setShaper_dir (p l : Nat) (v : Pair 128) : (s.setShaper p l v).dir = s.dir := rfl
@[simp] theorem State.setShaper_dirGen (p l : Nat) (v : Pair 128) : (s.setShaper p l v).dirGen = s.dirGen := rfl
@[simp] theorem State.setShaper_lookup (p l : Nat) (v : Pair 128) : (s.setShaper p l v).lookup = s.lookup := rfl
@[simp] theorem State.setShaper_slots (p l : Nat) (v : Pair 128) : (s.setShaper p l v).slots = s.slots := rfl
@[simp] theorem State.setShaper_moves (p l : Nat) (v : Pair 128) : (s.setShaper p l v).moves = s.moves := rfl
@[simp] theorem State.setShaper_heat (p l : Nat) (v : Pair 128) : (s.setShaper p l v).heat = s.heat := rfl
@[simp] theorem State.setShaper_bg (p l : Nat) (v : Pair 128) : (s.setShaper p l v).bg = s.bg := rfl
@[simp] theorem State.setShaper_cmds (p l : Nat) (v : Pair 128) : (s.setShaper p l v).cmds = s.cmds := rfl
@[simp] theorem State.setShaper_rings (p l : Nat) (v : Pair 128) : (s.setShaper p l v).rings = s.rings := rfl
@[simp] theorem State.setShaper_links (p l : Nat) (v : Pair 128) : (s.setShaper p l v).links = s.links := rfl
@[simp] theorem State.setShaper_inq (p l : Nat) (v : Pair 128) : (s.setShaper p l v).inq = s.inq := rfl
@[simp] theorem State.setShaper_turns (p l : Nat) (v : Pair 128) : (s.setShaper p l v).turns = s.turns := rfl
@[simp] theorem State.setShaper_wms (p l : Nat) (v : Pair 128) : (s.setShaper p l v).wms = s.wms := rfl
@[simp] theorem State.setShaper_wmLatch (p l : Nat) (v : Pair 128) : (s.setShaper p l v).wmLatch = s.wmLatch := rfl
@[simp] theorem State.setShaper_holds (p l : Nat) (v : Pair 128) : (s.setShaper p l v).holds = s.holds := rfl
@[simp] theorem State.setShaper_hauls (p l : Nat) (v : Pair 128) : (s.setShaper p l v).hauls = s.hauls := rfl
@[simp] theorem State.setShaper_rows (p l : Nat) (v : Pair 128) : (s.setShaper p l v).rows = s.rows := rfl
@[simp] theorem State.setShaper_reqs (p l : Nat) (v : Pair 128) : (s.setShaper p l v).reqs = s.reqs := rfl
@[simp] theorem State.setShaper_plan (p l : Nat) (v : Pair 128) : (s.setShaper p l v).plan = s.plan := rfl
@[simp] theorem State.setShaper_planBase (p l : Nat) (v : Pair 128) : (s.setShaper p l v).planBase = s.planBase := rfl
@[simp] theorem State.setShaper_sent (p l : Nat) (v : Pair 128) : (s.setShaper p l v).sent = s.sent := rfl
@[simp] theorem State.setShaper_emberNums (p l : Nat) (v : Pair 128) : (s.setShaper p l v).emberNums = s.emberNums := rfl
@[simp] theorem State.setShaper_recv (p l : Nat) (v : Pair 128) : (s.setShaper p l v).recv = s.recv := rfl
@[simp] theorem State.setShaper_merges (p l : Nat) (v : Pair 128) : (s.setShaper p l v).merges = s.merges := rfl
@[simp] theorem State.setShaper_mergesDone (p l : Nat) (v : Pair 128) : (s.setShaper p l v).mergesDone = s.mergesDone := rfl
@[simp] theorem State.setShaper_images (p l : Nat) (v : Pair 128) : (s.setShaper p l v).images = s.images := rfl
@[simp] theorem State.setShaper_kindles (p l : Nat) (v : Pair 128) : (s.setShaper p l v).kindles = s.kindles := rfl
@[simp] theorem State.setShaper_arrayHclk (p l : Nat) (v : Pair 128) : (s.setShaper p l v).arrayHclk = s.arrayHclk := rfl
@[simp] theorem State.setShaper_arrayUsed (p l : Nat) (v : Pair 128) : (s.setShaper p l v).arrayUsed = s.arrayUsed := rfl
@[simp] theorem State.setShaper_scrub (p l : Nat) (v : Pair 128) : (s.setShaper p l v).scrub = s.scrub := rfl
@[simp] theorem State.setShaper_conns (p l : Nat) (v : Pair 128) : (s.setShaper p l v).conns = s.conns := rfl
@[simp] theorem State.setShaper_ports (p l : Nat) (v : Pair 128) : (s.setShaper p l v).ports = s.ports := rfl
@[simp] theorem State.setShaper_up (p l : Nat) (v : Pair 128) : (s.setShaper p l v).up = s.up := rfl
@[simp] theorem State.setShaper_waykeys (p l : Nat) (v : Pair 128) : (s.setShaper p l v).waykeys = s.waykeys := rfl
@[simp] theorem State.setShaper_wkLive (p l : Nat) (v : Pair 128) : (s.setShaper p l v).wkLive = s.wkLive := rfl
@[simp] theorem State.setShaper_vioLog (p l : Nat) (v : Pair 128) : (s.setShaper p l v).vioLog = s.vioLog := rfl
@[simp] theorem State.setShaper_shChanges (p l : Nat) (v : Pair 128) : (s.setShaper p l v).shChanges = s.shChanges := rfl
@[simp] theorem State.setShaper_acctPackets (p l : Nat) (v : Pair 128) : (s.setShaper p l v).acctPackets = s.acctPackets := rfl
@[simp] theorem State.setShaper_drrs (p l : Nat) (v : Pair 128) : (s.setShaper p l v).drrs = s.drrs := rfl
@[simp] theorem State.setShaper_replies (p l : Nat) (v : Pair 128) : (s.setShaper p l v).replies = s.replies := rfl
@[simp] theorem State.setShaper_attest (p l : Nat) (v : Pair 128) : (s.setShaper p l v).attest = s.attest := rfl
@[simp] theorem State.setShaper_meters (p l : Nat) (v : Pair 128) : (s.setShaper p l v).meters = s.meters := rfl
@[simp] theorem State.setShaper_staging (p l : Nat) (v : Pair 128) : (s.setShaper p l v).staging = s.staging := rfl
@[simp] theorem State.setShaper_probe (p l : Nat) (v : Pair 128) : (s.setShaper p l v).probe = s.probe := rfl
@[simp] theorem State.setShaper_fenceRec (p l : Nat) (v : Pair 128) : (s.setShaper p l v).fenceRec = s.fenceRec := rfl
@[simp] theorem State.setShaper_suspects (p l : Nat) (v : Pair 128) : (s.setShaper p l v).suspects = s.suspects := rfl
@[simp] theorem State.setShaper_sharedFaults (p l : Nat) (v : Pair 128) : (s.setShaper p l v).sharedFaults = s.sharedFaults := rfl
@[simp] theorem State.setShaper_flits (p l : Nat) (v : Pair 128) : (s.setShaper p l v).flits = s.flits := rfl
@[simp] theorem State.setShaper_wdogValue (p l : Nat) (v : Pair 128) : (s.setShaper p l v).wdogValue = s.wdogValue := rfl
@[simp] theorem State.setShaper_wdogAt (p l : Nat) (v : Pair 128) : (s.setShaper p l v).wdogAt = s.wdogAt := rfl
@[simp] theorem State.setShaper_rebuilds (p l : Nat) (v : Pair 128) : (s.setShaper p l v).rebuilds = s.rebuilds := rfl
@[simp] theorem State.setShaper_forwards (p l : Nat) (v : Pair 128) : (s.setShaper p l v).forwards = s.forwards := rfl
@[simp] theorem State.setShaper_lodge (p l : Nat) (v : Pair 128) : (s.setShaper p l v).lodge = s.lodge := rfl
@[simp] theorem State.setShaper_resets (p l : Nat) (v : Pair 128) : (s.setShaper p l v).resets = s.resets := rfl
@[simp] theorem State.setShaper_engResets (p l : Nat) (v : Pair 128) : (s.setShaper p l v).engResets = s.engResets := rfl
@[simp] theorem State.setShaper_flash (p l : Nat) (v : Pair 128) : (s.setShaper p l v).flash = s.flash := rfl
@[simp] theorem State.setShaper_repairDirty (p l : Nat) (v : Pair 128) : (s.setShaper p l v).repairDirty = s.repairDirty := rfl
@[simp] theorem State.setShaper_mpeers (p l : Nat) (v : Pair 128) : (s.setShaper p l v).mpeers = s.mpeers := rfl
@[simp] theorem State.setShaper_mgmt (p l : Nat) (v : Pair 128) : (s.setShaper p l v).mgmt = s.mgmt := rfl
@[simp] theorem State.setShaper_rcvWriting (p l : Nat) (v : Pair 128) : (s.setShaper p l v).rcvWriting = s.rcvWriting := rfl
@[simp] theorem State.setShaper_i3c (p l : Nat) (v : Pair 128) : (s.setShaper p l v).i3c = s.i3c := rfl
@[simp] theorem State.setShaper_therm (p l : Nat) (v : Pair 128) : (s.setShaper p l v).therm = s.therm := rfl
@[simp] theorem State.setShaper_volt (p l : Nat) (v : Pair 128) : (s.setShaper p l v).volt = s.volt := rfl
@[simp] theorem State.setShaper_jtag (p l : Nat) (v : Pair 128) : (s.setShaper p l v).jtag = s.jtag := rfl

end Sys2Proof.Machine
end

