-- ==== Sys2Proof/Laws/Table.lean ====
section
/-!
SUPPORT. The laws of the sparse tables: a read after a write, and the canonical form, which every update keeps.
-/

namespace Sys2Proof.Machine

variable {α : Type} (d : Nat → α)

/-- A removed address reads as an unlisted one. -/
theorem tget_terase_same (t : List (Nat × α)) (k : Nat) : tget d (terase t k) k = d k := by
  induction t with
  | nil => rfl
  | cons e t ih =>
    by_cases h : e.1 = k
    · simpa [terase, h] using ih
    · simpa [terase, h, tget] using ih

/-- Removing an address leaves the others. -/
theorem tget_terase_other (t : List (Nat × α)) {k j : Nat} (h : j ≠ k) : tget d (terase t k) j = tget d t j := by
  induction t with
  | nil => rfl
  | cons e t ih =>
    by_cases hk : e.1 = k
    · have hj : e.1 ≠ j := fun x => h (x.symm.trans hk)
      have : terase (e :: t) k = terase t k := by simp [terase, hk]
      rw [this, ih, tget, if_neg hj]
    · have : terase (e :: t) k = e :: terase t k := by simp [terase, hk]
      rw [this, tget, tget, ih]

/-- An inserted address reads as its value where nothing listed it before. -/
theorem tget_tinsert_same (t : List (Nat × α)) {k : Nat} (v : α) (h : ∀ e ∈ t, e.1 ≠ k) :
    tget d (tinsert k v t) k = v := by
  induction t with
  | nil => simp [tinsert, tget]
  | cons e t ih =>
    have he : e.1 ≠ k := h e (by simp)
    by_cases hk : k < e.1
    · simp [tinsert, hk, tget]
    · simpa [tinsert, hk, tget, he] using ih fun x hx => h x (by simp [hx])

/-- Inserting an address leaves the others. -/
theorem tget_tinsert_other (t : List (Nat × α)) {k j : Nat} (v : α) (h : j ≠ k) :
    tget d (tinsert k v t) j = tget d t j := by
  induction t with
  | nil => simp [tinsert, tget, h.symm]
  | cons e t ih =>
    by_cases hk : k < e.1
    · simp [tinsert, hk, tget, h.symm]
    · rw [tinsert, if_neg hk, tget, tget, ih]

/-- A table without an address lists it nowhere. -/
theorem ne_of_mem_terase {t : List (Nat × α)} {k : Nat} {e : Nat × α} (h : e ∈ terase t k) : e.1 ≠ k := by
  simp only [terase, List.mem_filter, bne_iff_ne] at h
  exact h.2

variable [DecidableEq α]

/-- A stored value is read back. -/
@[simp] theorem tget_tput_same (t : List (Nat × α)) (k : Nat) (v : α) : tget d (tput d t k v) k = v := by
  by_cases h : v = d k
  · simp [tput, h, tget_terase_same]
  · simpa [tput, h] using tget_tinsert_same d _ v fun e he => ne_of_mem_terase he

/-- Storing at one address leaves the others. -/
theorem tget_tput_other (t : List (Nat × α)) {k j : Nat} (v : α) (h : j ≠ k) : tget d (tput d t k v) j = tget d t j := by
  by_cases hv : v = d k
  · simp [tput, hv, tget_terase_other d t h]
  · simp [tput, hv, tget_tinsert_other d _ v h, tget_terase_other d t h]

/-- A read after a write. -/
theorem tget_tput (t : List (Nat × α)) (k j : Nat) (v : α) :
    tget d (tput d t k v) j = if j = k then v else tget d t j := by
  by_cases h : j = k
  · simp [h]
  · simp [h, tget_tput_other d t v h]

omit [DecidableEq α] in
/-- Removing an inserted address undoes the insertion. -/
theorem terase_tinsert (t : List (Nat × α)) {k : Nat} (v : α) (h : ∀ e ∈ t, e.1 ≠ k) :
    terase (tinsert k v t) k = t := by
  induction t with
  | nil => simp [tinsert, terase]
  | cons e t ih =>
    have he : e.1 ≠ k := h e (by simp)
    have ht : ∀ x ∈ t, x.1 ≠ k := fun x hx => h x (by simp [hx])
    by_cases hk : k < e.1
    · simp only [tinsert, hk, if_true, terase]
      simp [he, List.filter_eq_self]
      exact fun a b hab => ht (a, b) hab
    · simpa [tinsert, hk, terase, he] using ih ht

/-- The second of two stores at one address stands. -/
@[simp] theorem tput_tput (t : List (Nat × α)) (k : Nat) (v w : α) : tput d (tput d t k v) k w = tput d t k w := by
  have e : terase (tput d t k v) k = terase t k := by
    by_cases h : v = d k
    · simp [tput, h, terase]
    · simp only [tput, h, if_false]
      exact terase_tinsert _ v fun e he => ne_of_mem_terase he
  rw [tput, e, tput]

/-! The canonical form. -/

omit [DecidableEq α] in
theorem tsorted_filter (p : Nat × α → Bool) (t : List (Nat × α)) (h : tsorted t = true) : tsorted (t.filter p) = true := by
  induction t with
  | nil => rfl
  | cons e t ih =>
    simp only [tsorted, Bool.and_eq_true, List.all_eq_true, decide_eq_true_eq] at h
    by_cases hp : p e
    · simp only [List.filter, hp, tsorted, Bool.and_eq_true, List.all_eq_true, decide_eq_true_eq]
      exact ⟨fun x hx => h.1 x (List.mem_of_mem_filter hx), ih h.2⟩
    · simpa [List.filter, hp] using ih h.2

omit [DecidableEq α] in
theorem mem_tinsert {t : List (Nat × α)} {k : Nat} {v : α} {e : Nat × α} :
    e ∈ tinsert k v t ↔ e = (k, v) ∨ e ∈ t := by
  induction t with
  | nil => simp [tinsert]
  | cons x t ih =>
    by_cases h : k < x.1
    · simp [tinsert, h]
    · simp only [tinsert, h, if_false, List.mem_cons, ih]
      tauto

omit [DecidableEq α] in
theorem tsorted_tinsert (t : List (Nat × α)) {k : Nat} (v : α) (hs : tsorted t = true) (h : ∀ e ∈ t, e.1 ≠ k) :
    tsorted (tinsert k v t) = true := by
  induction t with
  | nil => simp [tinsert, tsorted]
  | cons e t ih =>
    simp only [tsorted, Bool.and_eq_true, List.all_eq_true, decide_eq_true_eq] at hs
    have he : e.1 ≠ k := h e (by simp)
    by_cases hk : k < e.1
    · simp only [tinsert, hk, if_true, tsorted, Bool.and_eq_true, List.all_eq_true, decide_eq_true_eq, List.mem_cons]
      refine ⟨?_, hs.1, hs.2⟩
      rintro x (rfl | hx)
      · exact hk
      · exact hk.trans (hs.1 x hx)
    · simp only [tinsert, hk, if_false, tsorted, Bool.and_eq_true, List.all_eq_true, decide_eq_true_eq]
      refine ⟨fun x hx => ?_, ih hs.2 fun x hx => h x (by simp [hx])⟩
      rcases mem_tinsert.1 hx with rfl | hx
      · exact lt_of_le_of_ne (not_lt.1 hk) he
      · exact hs.1 x hx

theorem twf_filter (p : Nat × α → Bool) {t : List (Nat × α)} (h : twf d t = true) : twf d (t.filter p) = true := by
  simp only [twf, Bool.and_eq_true, List.all_eq_true] at h ⊢
  exact ⟨tsorted_filter p t h.1, fun e he => h.2 e (List.mem_of_mem_filter he)⟩

/-- Removing an address keeps the canonical form. -/
theorem twf_terase {t : List (Nat × α)} (k : Nat) (h : twf d t = true) : twf d (terase t k) = true := twf_filter d _ h

/-- Keeping some addresses keeps the canonical form. -/
theorem twf_tkeep (p : Nat → Bool) {t : List (Nat × α)} (h : twf d t = true) : twf d (tkeep p t) = true := twf_filter d _ h

/-- Storing keeps the canonical form. -/
theorem twf_tput {t : List (Nat × α)} (k : Nat) (v : α) (h : twf d t = true) : twf d (tput d t k v) = true := by
  by_cases hv : v = d k
  · simpa [tput, hv] using twf_terase d k h
  · have ht := twf_terase d k h
    simp only [tput, hv, if_false]
    simp only [twf, Bool.and_eq_true, List.all_eq_true, decide_eq_true_eq] at ht ⊢
    refine ⟨tsorted_tinsert _ v ht.1 fun e he => ne_of_mem_terase he, fun e he => ?_⟩
    rcases mem_tinsert.1 he with rfl | he
    · exact hv
    · exact ht.2 e he

omit [DecidableEq α] in
/-- What a table holds once only some addresses are kept. -/
theorem tget_tkeep (p : Nat → Bool) (t : List (Nat × α)) (k : Nat) :
    tget d (tkeep p t) k = if p k then tget d t k else d k := by
  induction t with
  | nil => simp [tkeep, tget]
  | cons e t ih =>
    rcases e with ⟨a, v⟩
    by_cases hp : p a
    · by_cases ha : a = k
      · subst ha; simp [tkeep, hp, tget]
      · simpa [tkeep, hp, tget, ha] using ih
    · by_cases ha : a = k
      · subst ha; simpa [tkeep, hp, tget] using ih
      · simpa [tkeep, hp, tget, ha] using ih

end Sys2Proof.Machine
end

