-- ==== Sys2Proof/Laws/Ops.lean ====
section
/-!
SUPPORT. What the shared operations of Machine/Ops.lean leave and answer: registers and counters, complement pairs, bytes
of memory and its canonical form, and the lookups after an update.
-/

namespace Sys2Proof.Machine

variable (s : State)

/-! Registers. -/

/-- Places of the register file of different offsets of one function differ. -/
theorem regKey_inj {fn a b : Nat} : regKey fn a = regKey fn b ↔ a = b := by simp [regKey]

/-- A written register is read back. -/
@[simp] theorem State.reg_setReg_same (fn off : Nat) (v : Word) : (s.setReg fn off v).reg fn off = v :=
  tget_tput_same regReset s.regs (regKey fn off) v

/-- A write leaves the registers at other places. -/
theorem State.reg_setReg_other {fn off fn' off' : Nat} (v : Word) (h : regKey fn' off' ≠ regKey fn off) :
    (s.setReg fn off v).reg fn' off' = s.reg fn' off' :=
  tget_tput_other regReset s.regs v h

/-- The register after a set bit. -/
@[simp] theorem State.reg_setRegB_same (fn off i : Nat) (b : Bool) :
    (s.setRegB fn off i b).reg fn off = setB (s.reg fn off) i b := State.reg_setReg_same s fn off _

/-- A set bit leaves the other registers. -/
theorem State.reg_setRegB_other {fn off fn' off' : Nat} (i : Nat) (b : Bool) (h : regKey fn' off' ≠ regKey fn off) :
    (s.setRegB fn off i b).reg fn' off' = s.reg fn' off' := State.reg_setReg_other s _ h

/-- A set bit is read back. -/
@[simp] theorem State.regB_setRegB_same (fn off i : Nat) (b : Bool) (h : i < 32) :
    (s.setRegB fn off i b).regB fn off i = b := by
  rw [State.regB, State.reg_setRegB_same, getB_setB_same _ _ _ h]

/-- The register after a replaced field. -/
@[simp] theorem State.reg_setRegF_same (fn off lo w x : Nat) :
    (s.setRegF fn off lo w x).reg fn off = setF (s.reg fn off) lo w x := State.reg_setReg_same s fn off _

/-- A replaced field leaves the other registers. -/
theorem State.reg_setRegF_other {fn off fn' off' : Nat} (lo w x : Nat) (h : regKey fn' off' ≠ regKey fn off) :
    (s.setRegF fn off lo w x).reg fn' off' = s.reg fn' off' := State.reg_setReg_other s _ h

/-- A counter saturates at its largest value (R453). -/
theorem State.reg_count_same (fn off n : Nat) :
    ((s.count fn off n).reg fn off).toNat = min 0xFFFFFFFF ((s.reg fn off).toNat + n) := by
  have e : (s.count fn off n).reg fn off = BitVec.ofNat 32 (min maxCount ((s.reg fn off).toNat + n)) :=
    State.reg_setReg_same s fn off _
  rw [e, BitVec.toNat_ofNat, maxCount]
  omega

/-- A counter leaves the other registers. -/
theorem State.reg_count_other {fn off fn' off' : Nat} (n : Nat) (h : regKey fn' off' ≠ regKey fn off) :
    (s.count fn off n).reg fn' off' = s.reg fn' off' := State.reg_setReg_other s _ h

/-- A high-water mark leaves the other registers. -/
theorem State.reg_hwm_other {fn off fn' off' : Nat} (v : Nat) (h : regKey fn' off' ≠ regKey fn off) :
    (s.hwm fn off v).reg fn' off' = s.reg fn' off' := State.reg_setReg_other s _ h

/-! Complement pairs (R63). -/

/-- A pair made of a value is valid. -/
@[simp] theorem pairOf_ok {n : Nat} (v : BitVec n) : (pairOf v).ok = true := by
  have : v ^^^ ~~~v = BitVec.allOnes n := by ext i hi; simp
  simp [pairOf, Pair.ok, this]

/-- A pair made of a value holds it. -/
@[simp] theorem pairOf_val {n : Nat} (v : BitVec n) : (pairOf v).val = v := rfl

/-- A pair made of a value yields it. -/
@[simp] theorem pairOf_get {n : Nat} (v : BitVec n) : (pairOf v).get? = some v := by simp [Pair.get?]

/-- A valid pair is made of its value. -/
theorem Pair.eq_pairOf {n : Nat} {p : Pair n} (h : p.ok = true) : p = pairOf p.val := by
  rcases p with ⟨v, c⟩
  have e : v ^^^ c = BitVec.allOnes n := by simpa [Pair.ok] using h
  have : c = ~~~v := by
    rw [← BitVec.xor_allOnes (x := v), ← e, ← BitVec.xor_assoc, BitVec.xor_self, BitVec.zero_xor]
  rw [pairOf, this]

/-! Memory (R41). -/

/-- Bytes stored past an address leave it. -/
theorem tget_storeMem_other (m : List Host.Cell) (a : Nat) (bs : List Byte) {k : Nat}
    (h : ∀ j, j < bs.length → k ≠ native (a + j)) :
    tget memDefault (storeMem m a bs) k = tget memDefault m k := by
  induction bs generalizing m a with
  | nil => rfl
  | cons b bs ih =>
    rw [storeMem, ih]
    · exact tget_tput_other memDefault m b (by simpa using h 0 (by simp))
    · intro j hj
      have := h (j + 1) (by simp; omega)
      rwa [Nat.add_right_comm, ← Nat.add_assoc] at *

/-- A stored byte is read back, unless a later one names the same storage. -/
theorem tget_storeMem_at (m : List Host.Cell) (a : Nat) (bs : List Byte) {j : Nat} (hj : j < bs.length)
    (h : ∀ i, j < i → i < bs.length → native (a + j) ≠ native (a + i)) :
    tget memDefault (storeMem m a bs) (native (a + j)) = bs.getD j 0 := by
  induction bs generalizing m a j with
  | nil => simp at hj
  | cons b bs ih =>
    cases j with
    | zero =>
      rw [storeMem, tget_storeMem_other]
      · simp
      · intro i hi
        have := h (i + 1) (by omega) (by simp; omega)
        rwa [show a + 1 + i = a + (i + 1) by omega]
    | succ j =>
      have e : a + (j + 1) = a + 1 + j := by omega
      rw [storeMem, e, ih]
      · simp
      · simpa using hj
      · intro i h1 h2
        have := h (i + 1) (by omega) (by simp; omega)
        rwa [← e, show a + 1 + i = a + (i + 1) by omega]

/-- Storing keeps the canonical form. -/
theorem twf_storeMem (m : List Host.Cell) (a : Nat) (bs : List Byte) (h : twf memDefault m = true) :
    twf memDefault (storeMem m a bs) = true := by
  induction bs generalizing m a with
  | nil => exact h
  | cons b bs ih => exact ih _ _ (twf_tput memDefault _ _ h)

/-- A store leaves the bytes that it does not name. -/
theorem State.byte_store_other (a : Nat) (bs : List Byte) {k : Nat}
    (h : ∀ j, j < bs.length → native k ≠ native (a + j)) : (s.store a bs).byte k = s.byte k :=
  tget_storeMem_other s.mem a bs h

/-- A stored byte is read back, unless a later one names the same storage. -/
theorem State.byte_store_at (a : Nat) (bs : List Byte) {j : Nat} (hj : j < bs.length)
    (h : ∀ i, j < i → i < bs.length → native (a + j) ≠ native (a + i)) :
    (s.store a bs).byte (a + j) = bs.getD j 0 :=
  tget_storeMem_at s.mem a bs hj h

/-- The memory after an engine write is the memory after the store of its bytes. -/
@[simp] theorem State.engineWrite_mem (part cmd a : Nat) (bs : List Byte) :
    (s.engineWrite part cmd a bs).mem = storeMem s.mem a bs := rfl

/-! Tables of the state, after an update. -/

/-- A stored connection entry is read back. -/
@[simp] theorem State.conn_setConn_same (i : Nat) (c : Conn) : (s.setConn i c).conn i = c :=
  tget_tput_same _ s.conns i c

/-- Storing a connection entry leaves the others. -/
theorem State.conn_setConn_other {i j : Nat} (c : Conn) (h : j ≠ i) : (s.setConn i c).conn j = s.conn j :=
  tget_tput_other _ s.conns c h

/-- The second of two stores of one connection entry stands. -/
@[simp] theorem State.setConn_setConn (i : Nat) (c c' : Conn) : (s.setConn i c).setConn i c' = s.setConn i c' := by
  simp only [State.setConn, tput_tput]

/-- A stored waykey is read back. -/
@[simp] theorem State.waykey_setWaykey_same (i : Nat) (v : Pair 256) : (s.setWaykey i v).waykey i = v :=
  tget_tput_same _ s.waykeys i v

/-- Storing a waykey leaves the others. -/
theorem State.waykey_setWaykey_other {i j : Nat} (v : Pair 256) (h : j ≠ i) : (s.setWaykey i v).waykey j = s.waykey j :=
  tget_tput_other _ s.waykeys v h

/-- A stored ring pair is read back. -/
@[simp] theorem State.ring_setRing_same (p e : Nat) (r : Ring) : (s.setRing p e r).ring p e = r :=
  tget_tput_same _ s.rings (p * 8 + e) r

/-- Storing a ring pair leaves the others. -/
theorem State.ring_setRing_other {p e p' e' : Nat} (r : Ring) (h : p' * 8 + e' ≠ p * 8 + e) :
    (s.setRing p e r).ring p' e' = s.ring p' e' :=
  tget_tput_other _ s.rings r h

/-- The pair of a partition state after it is stored. -/
@[simp] theorem State.partPair_setPart_same (p : Nat) (x : PartState) :
    (s.setPart p x).partPair p = pairOf (BitVec.ofNat 8 x.code) :=
  tget_tput_same _ s.partState p _

/-- A stored partition state is read back. -/
@[simp] theorem State.part_setPart_same (p : Nat) (x : PartState) : (s.setPart p x).part p = x := by
  rw [State.part, State.partPair_setPart_same, pairOf_get]
  cases x <;> decide

/-- Storing a partition state leaves the others. -/
theorem State.part_setPart_other {p q : Nat} (x : PartState) (h : q ≠ p) : (s.setPart p x).part q = s.part q := by
  have e : (s.setPart p x).partPair q = s.partPair q := tget_tput_other _ s.partState _ h
  rw [State.part, e, State.part]

/-- A stored step of a release is read back. -/
@[simp] theorem State.releaseStep_setRelease_same (p : Nat) (x : ReleaseStep) : (s.setRelease p x).releaseStep p = some x := by
  have e : ((s.setRelease p x).releasing.find? fun r => r.1 == p) = some (p, pairOf (BitVec.ofNat 8 x.code)) := by
    simp [State.setRelease, List.find?_append, List.find?_eq_none.2]
  rw [State.releaseStep, e]
  cases x <;> simp [ReleaseStep.code]

/-- A value kept twice is read back. -/
@[simp] theorem twinOf_get {n : Nat} (v : BitVec n) : (twinOf v).get? = some v := by simp [twinOf, Twin.get?]

/-- A stored far window entry is read back. -/
@[simp] theorem State.farEntry_setFar_same (k : Nat) (v : Pair 128) : (s.setFar k v).farEntry k = v :=
  tget_tput_same _ s.far k v

/-- Storing a far window entry leaves the others. -/
theorem State.farEntry_setFar_other {k j : Nat} (v : Pair 128) (h : j ≠ k) : (s.setFar k v).farEntry j = s.farEntry j :=
  tget_tput_other _ s.far v h

/-- A stored waymark is read back. -/
@[simp] theorem State.wm_setWm_same (p w : Nat) (v : Pair 64) : (s.setWm p w v).wm p w = v :=
  tget_tput_same _ s.wms (p * 4096 + w) v

/-- A stored object is read back. -/
@[simp] theorem State.obj_setObj_same (p i : Nat) (v : BitVec 256) : (s.setObj p i v).obj p i = v :=
  tget_tput_same _ s.objs (p * 1024 + i) v

/-- A stored shaper is read back. -/
@[simp] theorem State.shaper_setShaper_same (p l : Nat) (v : Pair 128) : (s.setShaper p l v).shaper p l = v :=
  tget_tput_same _ s.shapers (p * 16 + l) v

/-- A stored meter is read back. -/
@[simp] theorem State.meter_setMeter_same (p : Nat) (m : Meter) : (s.setMeter p m).meter p = m :=
  tget_tput_same _ s.meters p m

/-- The first element that satisfies a test, in a list mapped so that the test does not change. -/
theorem find_map_of {α : Type} (l : List α) (p : α → Bool) (f : α → α) (h : ∀ a, p (f a) = p a) :
    (l.map f).find? p = (l.find? p).map f := by
  induction l with
  | nil => rfl
  | cons a t ih =>
    by_cases ha : p a
    · simp [h, ha]
    · simp [h, ha, ih]

/-- The command of a number after a change that keeps numbers. -/
theorem State.cmd_setCmd (id k : Nat) (f : Cmd → Cmd) (h : ∀ c, (f c).id = c.id) :
    (s.setCmd id f).cmd? k = (s.cmd? k).map fun c => if c.id = id then f c else c :=
  find_map_of s.cmds _ _ fun c => by by_cases hc : c.id = id <;> simp [hc, h]

/-- The directory entry of a key after a change that keeps keys. -/
theorem State.dir_setDir (k j : DirKey) (f : Dir → Dir) (h : ∀ d, (f d).key = d.key) :
    (s.setDir k f).dir? j = (s.dir? j).map fun d => if d.key = k then f d else d :=
  find_map_of s.dir _ _ fun d => by by_cases hd : d.key = k <;> simp [hd, h]

/-- A command of a body that has not ended ends with the status and result given. -/
theorem State.cmd_endCmd {id st : Nat} {r : Word} {c : Cmd} (h : s.cmd? id = some c) (hp : c.phase ≠ .ended) :
    (s.endCmd id st r).cmd? id = some { c with phase := .ended, status := st, result := r } := by
  have hid : c.id = id := by simpa [State.cmd?] using List.find?_some h
  have e : (s.served id).cmd? id = some c := by rw [State.cmd?, State.served_cmds]; exact h
  rw [State.endCmd, State.cmd_setCmd _ _ _ _ (fun c => by by_cases hc : c.phase = .ended <;> simp [hc]), e]
  simp [hid, hp]

end Sys2Proof.Machine
end

