-- ==== Sys2Proof/WellFormed.lean ====
section
/-!
DEFINITION. Which commands can arrive at all: the operands that the outside world brings lie in the ranges that the
manual gives ports, functions, engines, columns, partitions and the lengths of what it carries.
-/

namespace Sys2Proof

/-- PF0 or one of 64 VFs (R439). -/
def fnOk (fn : Nat) : Bool := decide (fn ≤ 64)

/-- One of 64 partitions (R334). -/
def partOk (p : Nat) : Bool := decide (p < 64)

/-- One of the six engines (R248). -/
def engOk (e : Nat) : Bool := decide (e < 6)

/-- A logical port number (R279): RP0 to RP7 and their second halves. -/
def lportOk (l : Nat) : Bool := decide (l < 16)

/-- One of 8,192 connection entries (R290). -/
def connOk (c : Nat) : Bool := decide (c < 8192)

/-- One of 512 Flue columns (R107). -/
def colOk (c : Nat) : Bool := decide (c < 512)

/-- A waymark number (R265). -/
def wmOk (w : Nat) : Bool := decide (w < 4096)

/-- A queue exists. -/
def Queue.wf : Queue → Bool
  | .host p e => partOk p && engOk e
  | .inbound c e => connOk c && engOk e

/-- A gated unit exists (R36). -/
def GateUnit.wf : GateUnit → Bool
  | .column c => colOk c
  | .slice h => decide (h < 4)
  | .port l => lportOk l

/-- A record exists (R66, R364, R367): a scrub is that of a column, of the warm tier or of the firebox. -/
def RecRef.wf : RecRef → Bool
  | .dir p s l => partOk p && decide (s < 2 ^ 64 ∧ l < 2 ^ 16)
  | .lease p s l => partOk p && decide (s < 2 ^ 64 ∧ l < 2 ^ 16)
  | .waymark p w => partOk p && wmOk w
  | .waykey i => decide (i < 65536)
  | .shaper p l => partOk p && lportOk l
  | .entry p => partOk p
  | .far k => decide (k < 256)
  | .ember id => decide (id < 2 ^ 64)
  | .lock k => decide (k < 64)
  | .fenceList => true
  | .spare k => decide (k < 131056)
  | .partState p => partOk p
  | .release p => partOk p
  | .probeRun k => decide (k < 512)
  | .scrub c => decide (c < 514)

/-- A disturbance lies in storage. -/
def Upset.wf : Upset → Bool
  | .sector a _ => decide (a < 2 ^ 48)
  | .scratch c w _ => colOk c && decide (w < 32768)
  | .pair r n => r.wf && decide (n ≤ 2)

/-- A page slot names a partition, a 64-bit sequence and a page-aligned position. -/
def PageRef.wf (p : PageRef) : Bool :=
  partOk p.part && decide (p.seq < 2 ^ 64 ∧ p.layer < 2 ^ 16 ∧ p.kv < 2 ^ 16 ∧ p.firstPos < 2 ^ 32)

/-- A key names a partition and a 64-bit sequence. -/
def DirKey.wf (k : DirKey) : Bool := partOk k.part && decide (k.seq < 2 ^ 64 ∧ k.layer < 2 ^ 16)

/-- The command can arrive. -/
def Instr.wf : Instr → Bool
  | .beacon p _ tc _ body => decide (p < 8 ∧ tc < 4 ∧ body.length = 32)
  | .milestoneBoundary e => e.upsets.all Upset.wf
  | .revocationDrainLimit k => decide (k < 65536)
  | .unitGate u => u.wf
  | .hostRead fn _ len _ => fnOk fn && decide (0 < len)
  | .hostWrite fn _ data _ => fnOk fn && decide (0 < data.length)
  | .objectWindowWrite fn _ data => fnOk fn && decide (0 < data.length)
  | .reencodeBurst c | .refreshDue c | .writeBackBurst c | .scrubBurst c | .relocateBurst c => colOk c
  | .flueBurstEnd c _ => colOk c
  | .closeFree k | .grantResend k | .renewTimer k | .leaseExpire k | .leaseReclaim k => k.wf
  | .pageCode p | .codedOldSlotFree p => p.wf
  | .emberReceived c t _ _ _ _ | .verdictReceived c t _ _ => c.all connOk && decide (t < 65536)
  | .unbindClear p _ | .arrayOperation p _ | .backgroundDropping p | .unitFree p _ _ => partOk p
  | .doorbellSub fn e _ | .doorbellCpl fn e _ => fnOk fn && engOk e
  | .ringEnable fn e | .ringDisable fn e => fnOk fn && engOk e
  | .descriptorTake q _ => q.wf
  | .descriptorReadFail p e _ => partOk p && engOk e
  | .wmZero fn w | .wmClearPoison fn w | .wmValueRead fn w _ | .wmAdd fn w _ => fnOk fn && wmOk w
  | .watchArm fn _ | .connOpen fn | .connClose fn | .waykeyCreate fn | .waykeyRevoke fn _ | .waykeyRead fn
  | .attestGo fn _ | .attestDone fn | .leaseGrant fn | .leaseTwin fn | .leaseTake fn | .leaseRead fn
  | .rebuildStart fn | .rebuildAbort fn | .rebuildImage fn _ | .engineReset fn _ | .functionLevelReset fn
  | .counterRead fn _ _ | .registerWrite fn _ _ | .connWindowWrite fn _ _ => fnOk fn
  | .arpSolicit l _ | .ortPacket l _ _ | .linkDown l | .linkUp l => lportOk l
  | .packetPlace c _ | .readResp c _ _ _ | .cpl c _ | .ack c _ | .ackDelayExpire c | .report c _ | .accept c _
  | .reject c _ | .ctrlClose c | .closeAck c | .probe c _ | .probeAck c _ | .packetTransmit c _ | .rtoExpire c _
  | .probeTimer c _ | .keepaliveExpire c _ | .deadTimeExpire c | .connectRetry c | .connectTimeout c
  | .closingTimeout c => connOk c
  | .connect t _ => decide (t < 65536)
  | .portCfgWrite n _ | .portReset n => decide (n < 8)
  | .revocationComplete k => decide (k < 65536)
  | .release p | .releaseScrub p | .scrubVerify p _ | .activate p | .preset p | .partitionResetEnd p
  | .engineResetEnd p => partOk p
  | .complementReread r => r.wf
  | .vfEnable n _ => decide (n ≤ 64)
  | .powerOnReset e => decide (e.strapBoot < 4 ∧ e.strapSlot < 256) && e.scrubFails.all partOk
  | .dhcpTimeout p | .dhcpReply p _ => decide (p < 2)
  | .i3cSetdasa a => decide (a < 128)
  | .i3cPrivateWrite i => decide (i < 256)
  | .stallEnd | .adriftEnter | .refLoss | .refReturn | .slew | .sealDeadline _ | .ftSetGo _ | .ftSrcIdWrite _
  | .ftNowRead | .spanJobOverrun _ _ | .farWrite | .farRead | .haul _ _ | .haulTile _ _ | .haulFarError _ _
  | .append _ | .openSeq _ | .closeSeq _ | .appendRelease _ | .appendHoldTimeout _ | .dirLookup | .dirLookupDone
  | .row _ | .wearWindowStart | .attend _ | .spanJob _ _ | .spanJobEnd _ _ | .tallyCheckEnd _ _ _ _
  | .emberEmit _ _ _ | .sealEmber _ | .attendComplete _ | .verdictTimeout _ | .merge _ | .orphanExpire _
  | .mergeResultSend _ _ | .mergeWaitTimeout _ | .kindle _ | .bind _ | .unbind _ | .internalRequestDone _ _ _
  | .kindleCollectTimeout _ | .kindlePublish _ | .waitSatisfied _ | .waitTimeout _ | .nop _
  | .descriptorComplete _ | .cplWriteFail _ _ | .portTableWrite _ _ | .shaperWrite | .shaperRead
  | .partitionReset _ | .flitCrcFail _ | .wdogService _ | .wdogWarn | .wdogExpire | .probeArm | .probeSession
  | .probeStop | .probeResult _ | .grant _ | .renew _ | .final _ | .deny _ | .service | .drain | .standby
  | .standbyEnter | .hold | .reboot _ | .lodgeReset _ | .perstRelease | .powerTarget _ | .dStateChange _
  | .powerStateChange | .pwrGoodLow _ | .recoveryCommit _ | .recoveryWriteDone _ | .tftpWrite _ _ | .tftpReboot
  | .tftpRead | .stagingWrite _ _ _ | .i3cEnecDisec _ | .i3cPrivateRead _ | .trayResetCommand _
  | .trayResetWindowExpire | .alertClear _ | .thermalDecision | .pmbusScan _ | .vrAlert _ | .avsNack _ | .thermtrip
  | .jtagInstruction _ | .pwThermWrite _ | .lodgeLinkUp | .fireboxSaveDone | .repairRecordWrite _ => true

end Sys2Proof
end

