-- ==== Sys2Proof/Laws/PerInstr.lean ====
section
/-!
SUPPORT. What a well-formed command guarantees of its operands, command by command: every function that it names is PF0 or
one of 64 VFs (R439), every connection one of 8,192 (R290), and every partition one of 64 (R334).
-/

namespace Sys2Proof

/-- The function that a command names. -/
def Instr.fn? : Instr → Option Nat
  | .hostRead x _ _ _ | .hostWrite x _ _ _ | .objectWindowWrite x _ _ | .doorbellSub x _ _ | .doorbellCpl x _ _
  | .ringEnable x _ | .ringDisable x _ | .wmZero x _ | .wmClearPoison x _ | .wmAdd x _ _ | .wmValueRead x _ _
  | .watchArm x _ | .connOpen x | .connClose x | .connWindowWrite x _ _ | .waykeyCreate x | .waykeyRevoke x _
  | .waykeyRead x | .attestGo x _ | .attestDone x | .leaseGrant x | .leaseTwin x | .leaseTake x | .leaseRead x
  | .rebuildStart x | .rebuildAbort x | .rebuildImage x _ | .engineReset x _ | .functionLevelReset x
  | .counterRead x _ _ | .registerWrite x _ _ => some x
  | _ => none

/-- The connection that a command names. -/
def Instr.conn? : Instr → Option Nat
  | .packetPlace x _ | .readResp x _ _ _ | .cpl x _ | .ack x _ | .ackDelayExpire x | .report x _ | .accept x _
  | .reject x _ | .ctrlClose x | .closeAck x | .probe x _ | .probeAck x _ | .packetTransmit x _
  | .rtoExpire x _ | .probeTimer x _ | .keepaliveExpire x _ | .deadTimeExpire x | .connectRetry x
  | .connectTimeout x | .closingTimeout x => some x
  | _ => none

/-- The partition that a command names. -/
def Instr.part? : Instr → Option Nat
  | .unbindClear x _ | .arrayOperation x _ | .backgroundDropping x | .unitFree x _ _
  | .descriptorReadFail x _ _ | .release x | .releaseScrub x | .scrubVerify x _ | .activate x | .preset x
  | .partitionResetEnd x | .engineResetEnd x => some x
  | _ => none

namespace Laws.WellFormed

/-- The functions, connections and partitions that a well-formed command names exist. -/
def Statement (i : Instr) : Prop :=
  i.wf = true → (∀ fn, i.fn? = some fn → fn ≤ 64) ∧ (∀ c, i.conn? = some c → c < 8192) ∧ ∀ p, i.part? = some p → p < 64

/-- The first of two checks that both hold. -/
theorem left {a b : Bool} (h : (a && b) = true) : a = true := ((Bool.and_eq_true a b).mp h).1

/-- A command that names none of them. -/
theorem ofNone {i : Instr} (hf : i.fn? = none) (hc : i.conn? = none) (hp : i.part? = none) : Statement i :=
  fun _ => ⟨fun x e => (Option.some_ne_none x (e.symm.trans hf)).elim, fun x e => (Option.some_ne_none x (e.symm.trans hc)).elim,
    fun x e => (Option.some_ne_none x (e.symm.trans hp)).elim⟩

/-- A command that names a function. -/
theorem ofFn {i : Instr} {fn : Nat} (hf : i.fn? = some fn) (hc : i.conn? = none) (hp : i.part? = none)
    (h : i.wf = true → fnOk fn = true) : Statement i :=
  fun w => ⟨fun _ e => Option.some.inj (hf.symm.trans e) ▸ of_decide_eq_true (h w), fun x e => (Option.some_ne_none x (e.symm.trans hc)).elim,
    fun x e => (Option.some_ne_none x (e.symm.trans hp)).elim⟩

/-- A command that names a connection. -/
theorem ofConn {i : Instr} {c : Nat} (hf : i.fn? = none) (hc : i.conn? = some c) (hp : i.part? = none)
    (h : i.wf = true → connOk c = true) : Statement i :=
  fun w => ⟨fun x e => (Option.some_ne_none x (e.symm.trans hf)).elim, fun _ e => Option.some.inj (hc.symm.trans e) ▸ of_decide_eq_true (h w),
    fun x e => (Option.some_ne_none x (e.symm.trans hp)).elim⟩

/-- A command that names a partition. -/
theorem ofPart {i : Instr} {p : Nat} (hf : i.fn? = none) (hc : i.conn? = none) (hp : i.part? = some p)
    (h : i.wf = true → partOk p = true) : Statement i :=
  fun w => ⟨fun x e => (Option.some_ne_none x (e.symm.trans hf)).elim, fun x e => (Option.some_ne_none x (e.symm.trans hc)).elim,
    fun _ e => Option.some.inj (hp.symm.trans e) ▸ of_decide_eq_true (h w)⟩

theorem beacon (port : Nat) (ns : Nat) (tc : Nat) (gateOk : Bool) (body : List Byte) : Statement (.beacon port ns tc gateOk body) :=
  ofNone rfl rfl rfl
theorem stallEnd : Statement (.stallEnd) := ofNone rfl rfl rfl
theorem adriftEnter : Statement (.adriftEnter) := ofNone rfl rfl rfl
theorem refLoss : Statement (.refLoss) := ofNone rfl rfl rfl
theorem refReturn : Statement (.refReturn) := ofNone rfl rfl rfl
theorem slew : Statement (.slew) := ofNone rfl rfl rfl
theorem milestoneBoundary (env : Env) : Statement (.milestoneBoundary env) := ofNone rfl rfl rfl
theorem sealDeadline (ember : Nat) : Statement (.sealDeadline ember) := ofNone rfl rfl rfl
theorem revocationDrainLimit (key : Nat) : Statement (.revocationDrainLimit key) := ofNone rfl rfl rfl
theorem ftSetGo (v : Word) : Statement (.ftSetGo v) := ofNone rfl rfl rfl
theorem ftSrcIdWrite (v : Word) : Statement (.ftSrcIdWrite v) := ofNone rfl rfl rfl
theorem ftNowRead : Statement (.ftNowRead) := ofNone rfl rfl rfl
theorem unitGate (u : GateUnit) : Statement (.unitGate u) := ofNone rfl rfl rfl
theorem spanJobOverrun (cmd span : Nat) : Statement (.spanJobOverrun cmd span) := ofNone rfl rfl rfl
theorem hostRead (fn off len : Nat) (atomicOp : Bool) : Statement (.hostRead fn off len atomicOp) :=
  ofFn rfl rfl rfl fun h => left h
theorem hostWrite (fn off : Nat) (data : List Byte) (atomicOp : Bool) : Statement (.hostWrite fn off data atomicOp) :=
  ofFn rfl rfl rfl fun h => left h
theorem farWrite : Statement (.farWrite) := ofNone rfl rfl rfl
theorem farRead : Statement (.farRead) := ofNone rfl rfl rfl
theorem objectWindowWrite (fn off : Nat) (data : List Byte) : Statement (.objectWindowWrite fn off data) :=
  ofFn rfl rfl rfl fun h => left h
theorem reencodeBurst (col : Nat) : Statement (.reencodeBurst col) := ofNone rfl rfl rfl
theorem haul (cmd : Nat) (hostData : List Byte) : Statement (.haul cmd hostData) := ofNone rfl rfl rfl
theorem haulTile (cmd : Nat) (hostData : List Byte) : Statement (.haulTile cmd hostData) := ofNone rfl rfl rfl
theorem haulFarError (cmd : Nat) (e : FarErr) : Statement (.haulFarError cmd e) := ofNone rfl rfl rfl
theorem append (cmd : Nat) : Statement (.append cmd) := ofNone rfl rfl rfl
theorem openSeq (cmd : Nat) : Statement (.openSeq cmd) := ofNone rfl rfl rfl
theorem closeSeq (cmd : Nat) : Statement (.closeSeq cmd) := ofNone rfl rfl rfl
theorem closeFree (key : DirKey) : Statement (.closeFree key) := ofNone rfl rfl rfl
theorem appendRelease (cmd : Nat) : Statement (.appendRelease cmd) := ofNone rfl rfl rfl
theorem appendHoldTimeout (cmd : Nat) : Statement (.appendHoldTimeout cmd) := ofNone rfl rfl rfl
theorem pageCode (page : PageRef) : Statement (.pageCode page) := ofNone rfl rfl rfl
theorem codedOldSlotFree (page : PageRef) : Statement (.codedOldSlotFree page) := ofNone rfl rfl rfl
theorem dirLookup : Statement (.dirLookup) := ofNone rfl rfl rfl
theorem dirLookupDone : Statement (.dirLookupDone) := ofNone rfl rfl rfl
theorem row (cmd : Nat) : Statement (.row cmd) := ofNone rfl rfl rfl
theorem flueBurstEnd (col waitNs : Nat) : Statement (.flueBurstEnd col waitNs) := ofNone rfl rfl rfl
theorem refreshDue (col : Nat) : Statement (.refreshDue col) := ofNone rfl rfl rfl
theorem wearWindowStart : Statement (.wearWindowStart) := ofNone rfl rfl rfl
theorem writeBackBurst (col : Nat) : Statement (.writeBackBurst col) := ofNone rfl rfl rfl
theorem scrubBurst (col : Nat) : Statement (.scrubBurst col) := ofNone rfl rfl rfl
theorem relocateBurst (col : Nat) : Statement (.relocateBurst col) := ofNone rfl rfl rfl
theorem attend (cmd : Nat) : Statement (.attend cmd) := ofNone rfl rfl rfl
theorem spanJob (cmd span : Nat) : Statement (.spanJob cmd span) := ofNone rfl rfl rfl
theorem spanJobEnd (cmd span : Nat) : Statement (.spanJobEnd cmd span) := ofNone rfl rfl rfl
theorem tallyCheckEnd (cmd span : Nat) (stage : CheckStage) (disturbed : Bool) : Statement (.tallyCheckEnd cmd span stage disturbed) :=
  ofNone rfl rfl rfl
theorem emberEmit (cmd block : Nat) (mergeFails : Nat) : Statement (.emberEmit cmd block mergeFails) :=
  ofNone rfl rfl rfl
theorem sealEmber (ember : Nat) : Statement (.sealEmber ember) := ofNone rfl rfl rfl
theorem attendComplete (cmd : Nat) : Statement (.attendComplete cmd) := ofNone rfl rfl rfl
theorem emberReceived (conn : Option Nat) (tenant : Nat) (hdr cmp : BitVec 256) (body : List Byte) (mergeFails : Nat) : Statement (.emberReceived conn tenant hdr cmp body mergeFails) :=
  ofNone rfl rfl rfl
theorem verdictReceived (conn : Option Nat) (tenant : Nat) (hdr cmp : BitVec 256) : Statement (.verdictReceived conn tenant hdr cmp) :=
  ofNone rfl rfl rfl
theorem verdictTimeout (ember : Nat) : Statement (.verdictTimeout ember) := ofNone rfl rfl rfl
theorem merge (cmd : Nat) : Statement (.merge cmd) := ofNone rfl rfl rfl
theorem orphanExpire (ember : Nat) : Statement (.orphanExpire ember) := ofNone rfl rfl rfl
theorem mergeResultSend (cmd : Nat) (mergeFails : Nat) : Statement (.mergeResultSend cmd mergeFails) :=
  ofNone rfl rfl rfl
theorem mergeWaitTimeout (cmd : Nat) : Statement (.mergeWaitTimeout cmd) := ofNone rfl rfl rfl
theorem kindle (cmd : Nat) : Statement (.kindle cmd) := ofNone rfl rfl rfl
theorem bind (cmd : Nat) : Statement (.bind cmd) := ofNone rfl rfl rfl
theorem unbind (cmd : Nat) : Statement (.unbind cmd) := ofNone rfl rfl rfl
theorem unbindClear (part slot : Nat) : Statement (.unbindClear part slot) := ofPart rfl rfl rfl fun h => h
theorem arrayOperation (part rows : Nat) : Statement (.arrayOperation part rows) := ofPart rfl rfl rfl fun h => h
theorem internalRequestDone (cmd tag : Nat) (status : Nat) : Statement (.internalRequestDone cmd tag status) :=
  ofNone rfl rfl rfl
theorem kindleCollectTimeout (cmd : Nat) : Statement (.kindleCollectTimeout cmd) := ofNone rfl rfl rfl
theorem kindlePublish (cmd : Nat) : Statement (.kindlePublish cmd) := ofNone rfl rfl rfl
theorem backgroundDropping (part : Nat) : Statement (.backgroundDropping part) := ofPart rfl rfl rfl fun h => h
theorem unitFree (part seq span : Nat) : Statement (.unitFree part seq span) := ofPart rfl rfl rfl fun h => h
theorem doorbellSub (fn engine : Nat) (v : Word) : Statement (.doorbellSub fn engine v) :=
  ofFn rfl rfl rfl fun h => left h
theorem doorbellCpl (fn engine : Nat) (v : Word) : Statement (.doorbellCpl fn engine v) :=
  ofFn rfl rfl rfl fun h => left h
theorem descriptorTake (q : Queue) (desc : BitVec 512) : Statement (.descriptorTake q desc) := ofNone rfl rfl rfl
theorem descriptorReadFail (part engine : Nat) (e : HostErr) : Statement (.descriptorReadFail part engine e) :=
  ofPart rfl rfl rfl fun h => left h
theorem waitSatisfied (cmd : Nat) : Statement (.waitSatisfied cmd) := ofNone rfl rfl rfl
theorem waitTimeout (cmd : Nat) : Statement (.waitTimeout cmd) := ofNone rfl rfl rfl
theorem nop (cmd : Nat) : Statement (.nop cmd) := ofNone rfl rfl rfl
theorem descriptorComplete (cmd : Nat) : Statement (.descriptorComplete cmd) := ofNone rfl rfl rfl
theorem cplWriteFail (cmd : Nat) (e : HostErr) : Statement (.cplWriteFail cmd e) := ofNone rfl rfl rfl
theorem ringEnable (fn engine : Nat) : Statement (.ringEnable fn engine) := ofFn rfl rfl rfl fun h => left h
theorem ringDisable (fn engine : Nat) : Statement (.ringDisable fn engine) := ofFn rfl rfl rfl fun h => left h
theorem wmZero (fn wm : Nat) : Statement (.wmZero fn wm) := ofFn rfl rfl rfl fun h => left h
theorem wmClearPoison (fn wm : Nat) : Statement (.wmClearPoison fn wm) := ofFn rfl rfl rfl fun h => left h
theorem wmAdd (fn wm : Nat) (v : BitVec 64) : Statement (.wmAdd fn wm v) := ofFn rfl rfl rfl fun h => left h
theorem wmValueRead (fn wm : Nat) (wide : Bool) : Statement (.wmValueRead fn wm wide) :=
  ofFn rfl rfl rfl fun h => left h
theorem watchArm (fn : Nat) (v : Word) : Statement (.watchArm fn v) := ofFn rfl rfl rfl fun h => h
theorem arpSolicit (lport : Nat) (frame : List Byte) : Statement (.arpSolicit lport frame) := ofNone rfl rfl rfl
theorem ortPacket (lport : Nat) (frame : List Byte) (fcsOk : Bool) : Statement (.ortPacket lport frame fcsOk) :=
  ofNone rfl rfl rfl
theorem packetPlace (conn psn : Nat) : Statement (.packetPlace conn psn) := ofConn rfl rfl rfl fun h => h
theorem readResp (conn msg off : Nat) (data : List Byte) : Statement (.readResp conn msg off data) :=
  ofConn rfl rfl rfl fun h => h
theorem cpl (conn : Nat) (record : List Byte) : Statement (.cpl conn record) := ofConn rfl rfl rfl fun h => h
theorem ack (conn : Nat) (ext : List Byte) : Statement (.ack conn ext) := ofConn rfl rfl rfl fun h => h
theorem ackDelayExpire (conn : Nat) : Statement (.ackDelayExpire conn) := ofConn rfl rfl rfl fun h => h
theorem report (conn : Nat) (ext : List Byte) : Statement (.report conn ext) := ofConn rfl rfl rfl fun h => h
theorem connect (tenant : Nat) (ext : List Byte) : Statement (.connect tenant ext) := ofNone rfl rfl rfl
theorem accept (conn : Nat) (ext : List Byte) : Statement (.accept conn ext) := ofConn rfl rfl rfl fun h => h
theorem reject (conn : Nat) (ext : List Byte) : Statement (.reject conn ext) := ofConn rfl rfl rfl fun h => h
theorem ctrlClose (conn : Nat) : Statement (.ctrlClose conn) := ofConn rfl rfl rfl fun h => h
theorem closeAck (conn : Nat) : Statement (.closeAck conn) := ofConn rfl rfl rfl fun h => h
theorem probe (conn path : Nat) : Statement (.probe conn path) := ofConn rfl rfl rfl fun h => h
theorem probeAck (conn path : Nat) : Statement (.probeAck conn path) := ofConn rfl rfl rfl fun h => h
theorem packetTransmit (conn tc : Nat) : Statement (.packetTransmit conn tc) := ofConn rfl rfl rfl fun h => h
theorem rtoExpire (conn psn : Nat) : Statement (.rtoExpire conn psn) := ofConn rfl rfl rfl fun h => h
theorem probeTimer (conn path : Nat) : Statement (.probeTimer conn path) := ofConn rfl rfl rfl fun h => h
theorem keepaliveExpire (conn path : Nat) : Statement (.keepaliveExpire conn path) := ofConn rfl rfl rfl fun h => h
theorem deadTimeExpire (conn : Nat) : Statement (.deadTimeExpire conn) := ofConn rfl rfl rfl fun h => h
theorem connOpen (fn : Nat) : Statement (.connOpen fn) := ofFn rfl rfl rfl fun h => h
theorem connClose (fn : Nat) : Statement (.connClose fn) := ofFn rfl rfl rfl fun h => h
theorem connectRetry (conn : Nat) : Statement (.connectRetry conn) := ofConn rfl rfl rfl fun h => h
theorem connectTimeout (conn : Nat) : Statement (.connectTimeout conn) := ofConn rfl rfl rfl fun h => h
theorem closingTimeout (conn : Nat) : Statement (.closingTimeout conn) := ofConn rfl rfl rfl fun h => h
theorem connWindowWrite (fn off : Nat) (data : List Byte) : Statement (.connWindowWrite fn off data) :=
  ofFn rfl rfl rfl fun h => h
theorem portTableWrite (off : Nat) (data : List Byte) : Statement (.portTableWrite off data) := ofNone rfl rfl rfl
theorem portCfgWrite (n : Nat) (v : Word) : Statement (.portCfgWrite n v) := ofNone rfl rfl rfl
theorem portReset (n : Nat) : Statement (.portReset n) := ofNone rfl rfl rfl
theorem linkDown (lport : Nat) : Statement (.linkDown lport) := ofNone rfl rfl rfl
theorem linkUp (lport : Nat) : Statement (.linkUp lport) := ofNone rfl rfl rfl
theorem waykeyCreate (fn : Nat) : Statement (.waykeyCreate fn) := ofFn rfl rfl rfl fun h => h
theorem waykeyRevoke (fn : Nat) (v : Word) : Statement (.waykeyRevoke fn v) := ofFn rfl rfl rfl fun h => h
theorem waykeyRead (fn : Nat) : Statement (.waykeyRead fn) := ofFn rfl rfl rfl fun h => h
theorem revocationComplete (key : Nat) : Statement (.revocationComplete key) := ofNone rfl rfl rfl
theorem shaperWrite : Statement (.shaperWrite) := ofNone rfl rfl rfl
theorem shaperRead : Statement (.shaperRead) := ofNone rfl rfl rfl
theorem attestGo (fn : Nat) (v : Word) : Statement (.attestGo fn v) := ofFn rfl rfl rfl fun h => h
theorem attestDone (fn : Nat) : Statement (.attestDone fn) := ofFn rfl rfl rfl fun h => h
theorem release (part : Nat) : Statement (.release part) := ofPart rfl rfl rfl fun h => h
theorem releaseScrub (part : Nat) : Statement (.releaseScrub part) := ofPart rfl rfl rfl fun h => h
theorem scrubVerify (part : Nat) (failed : Bool) : Statement (.scrubVerify part failed) :=
  ofPart rfl rfl rfl fun h => h
theorem activate (part : Nat) : Statement (.activate part) := ofPart rfl rfl rfl fun h => h
theorem partitionReset (addr : Nat) : Statement (.partitionReset addr) := ofNone rfl rfl rfl
theorem complementReread (r : RecRef) : Statement (.complementReread r) := ofNone rfl rfl rfl
theorem flitCrcFail (link : Nat) : Statement (.flitCrcFail link) := ofNone rfl rfl rfl
theorem wdogService (v : Word) : Statement (.wdogService v) := ofNone rfl rfl rfl
theorem wdogWarn : Statement (.wdogWarn) := ofNone rfl rfl rfl
theorem wdogExpire : Statement (.wdogExpire) := ofNone rfl rfl rfl
theorem probeArm : Statement (.probeArm) := ofNone rfl rfl rfl
theorem probeSession : Statement (.probeSession) := ofNone rfl rfl rfl
theorem probeStop : Statement (.probeStop) := ofNone rfl rfl rfl
theorem probeResult (output : List Byte) : Statement (.probeResult output) := ofNone rfl rfl rfl
theorem leaseGrant (fn : Nat) : Statement (.leaseGrant fn) := ofFn rfl rfl rfl fun h => h
theorem leaseTwin (fn : Nat) : Statement (.leaseTwin fn) := ofFn rfl rfl rfl fun h => h
theorem leaseTake (fn : Nat) : Statement (.leaseTake fn) := ofFn rfl rfl rfl fun h => h
theorem leaseRead (fn : Nat) : Statement (.leaseRead fn) := ofFn rfl rfl rfl fun h => h
theorem grant (msg : List Byte) : Statement (.grant msg) := ofNone rfl rfl rfl
theorem renew (msg : List Byte) : Statement (.renew msg) := ofNone rfl rfl rfl
theorem final (msg : List Byte) : Statement (.final msg) := ofNone rfl rfl rfl
theorem deny (msg : List Byte) : Statement (.deny msg) := ofNone rfl rfl rfl
theorem grantResend (key : DirKey) : Statement (.grantResend key) := ofNone rfl rfl rfl
theorem renewTimer (key : DirKey) : Statement (.renewTimer key) := ofNone rfl rfl rfl
theorem leaseExpire (key : DirKey) : Statement (.leaseExpire key) := ofNone rfl rfl rfl
theorem leaseReclaim (key : DirKey) : Statement (.leaseReclaim key) := ofNone rfl rfl rfl
theorem rebuildStart (fn : Nat) : Statement (.rebuildStart fn) := ofFn rfl rfl rfl fun h => h
theorem rebuildAbort (fn : Nat) : Statement (.rebuildAbort fn) := ofFn rfl rfl rfl fun h => h
theorem rebuildImage (fn : Nat) (img : RbImage) : Statement (.rebuildImage fn img) := ofFn rfl rfl rfl fun h => h
theorem service : Statement (.service) := ofNone rfl rfl rfl
theorem drain : Statement (.drain) := ofNone rfl rfl rfl
theorem standby : Statement (.standby) := ofNone rfl rfl rfl
theorem standbyEnter : Statement (.standbyEnter) := ofNone rfl rfl rfl
theorem hold : Statement (.hold) := ofNone rfl rfl rfl
theorem reboot (rcv : Bool) : Statement (.reboot rcv) := ofNone rfl rfl rfl
theorem preset (part : Nat) : Statement (.preset part) := ofPart rfl rfl rfl fun h => h
theorem engineReset (fn : Nat) (v : Word) : Statement (.engineReset fn v) := ofFn rfl rfl rfl fun h => h
theorem functionLevelReset (fn : Nat) : Statement (.functionLevelReset fn) := ofFn rfl rfl rfl fun h => h
theorem lodgeReset (cause : LodgeCause) : Statement (.lodgeReset cause) := ofNone rfl rfl rfl
theorem perstRelease : Statement (.perstRelease) := ofNone rfl rfl rfl
theorem vfEnable (numVfs : Nat) (enable : Bool) : Statement (.vfEnable numVfs enable) := ofNone rfl rfl rfl
theorem powerTarget (v : Word) : Statement (.powerTarget v) := ofNone rfl rfl rfl
theorem dStateChange (d3hot : Bool) : Statement (.dStateChange d3hot) := ofNone rfl rfl rfl
theorem powerStateChange : Statement (.powerStateChange) := ofNone rfl rfl rfl
theorem powerOnReset (env : BootEnv) : Statement (.powerOnReset env) := ofNone rfl rfl rfl
theorem pwrGoodLow (ns : Nat) : Statement (.pwrGoodLow ns) := ofNone rfl rfl rfl
theorem recoveryCommit (v : Word) : Statement (.recoveryCommit v) := ofNone rfl rfl rfl
theorem recoveryWriteDone (ok : Bool) : Statement (.recoveryWriteDone ok) := ofNone rfl rfl rfl
theorem tftpWrite (file : RcvFile) (data : List Byte) : Statement (.tftpWrite file data) := ofNone rfl rfl rfl
theorem tftpReboot : Statement (.tftpReboot) := ofNone rfl rfl rfl
theorem tftpRead : Statement (.tftpRead) := ofNone rfl rfl rfl
theorem dhcpTimeout (port : Nat) : Statement (.dhcpTimeout port) := ofNone rfl rfl rfl
theorem stagingWrite (recovery : Bool) (off : Nat) (data : List Byte) : Statement (.stagingWrite recovery off data) :=
  ofNone rfl rfl rfl
theorem i3cSetdasa (addr : Nat) : Statement (.i3cSetdasa addr) := ofNone rfl rfl rfl
theorem i3cEnecDisec (enable : Bool) : Statement (.i3cEnecDisec enable) := ofNone rfl rfl rfl
theorem i3cPrivateWrite (index : Nat) : Statement (.i3cPrivateWrite index) := ofNone rfl rfl rfl
theorem i3cPrivateRead (len : Nat) : Statement (.i3cPrivateRead len) := ofNone rfl rfl rfl
theorem trayResetCommand (b : Byte) : Statement (.trayResetCommand b) := ofNone rfl rfl rfl
theorem trayResetWindowExpire : Statement (.trayResetWindowExpire) := ofNone rfl rfl rfl
theorem alertClear (b : Byte) : Statement (.alertClear b) := ofNone rfl rfl rfl
theorem thermalDecision : Statement (.thermalDecision) := ofNone rfl rfl rfl
theorem pmbusScan (readings : List (Option (Nat × Nat))) : Statement (.pmbusScan readings) := ofNone rfl rfl rfl
theorem vrAlert (low : Bool) : Statement (.vrAlert low) := ofNone rfl rfl rfl
theorem avsNack (resendOk : Bool) : Statement (.avsNack resendOk) := ofNone rfl rfl rfl
theorem thermtrip : Statement (.thermtrip) := ofNone rfl rfl rfl
theorem jtagInstruction (code : Nat) : Statement (.jtagInstruction code) := ofNone rfl rfl rfl
theorem pwThermWrite (v : Word) : Statement (.pwThermWrite v) := ofNone rfl rfl rfl
theorem counterRead (fn bar off : Nat) : Statement (.counterRead fn bar off) := ofFn rfl rfl rfl fun h => h
theorem registerWrite (fn off : Nat) (v : Word) : Statement (.registerWrite fn off v) := ofFn rfl rfl rfl fun h => h
theorem lodgeLinkUp : Statement (.lodgeLinkUp) := ofNone rfl rfl rfl
theorem partitionResetEnd (part : Nat) : Statement (.partitionResetEnd part) := ofPart rfl rfl rfl fun h => h
theorem engineResetEnd (part : Nat) : Statement (.engineResetEnd part) := ofPart rfl rfl rfl fun h => h
theorem fireboxSaveDone : Statement (.fireboxSaveDone) := ofNone rfl rfl rfl
theorem repairRecordWrite (ok : Bool) : Statement (.repairRecordWrite ok) := ofNone rfl rfl rfl
theorem dhcpReply (port : Nat) (ip : Word) : Statement (.dhcpReply port ip) := ofNone rfl rfl rfl

end Laws.WellFormed

end Sys2Proof
end

