-- ==== Sys2Proof/Tests/Slice0.lean ====
section
/-!
SUPPORT. Small checks of the model: ill-formed commands that each well-formedness check refuses, one step on small
states with results computed by hand from the rules, and for every obligation with hypotheses a witness, theorem
`witness_<Name>`, of concrete values that meet the hypotheses of each of its clauses together.
-/

open Sys2Proof Sys2Proof.Machine

namespace Sys2Proof.Tests

set_option Elab.async false

/-- A record of `n` bits with values at byte offsets. -/
def record (n : Nat) (fs : List (Nat × Nat)) : BitVec n := BitVec.ofNat n (fs.map fun f => f.2 * 2 ^ (8 * f.1)).sum

/-- A state with registers written: function, offset and value. -/
def withRegs (s : State) (rs : List (Nat × Nat × Nat)) : State :=
  rs.foldl (fun (s : State) (r : Nat × Nat × Nat) => s.setReg r.1 r.2.1 (BitVec.ofNat 32 r.2.2)) s

/-- A partition entry: tenant 5, columns 0 to 3, the first GiB of the warm tier, 64 MiB of firebox on each Hearth die,
lanes, and its limits. -/
def entry0 : BitVec 512 :=
  record 512 [(0, 0), (2, 5), (8, 0), (10, 4), (12, 0), (14, 1), (16, 64), (18, 64), (20, 64), (22, 64), (24, 8),
    (26, 8), (28, 8), (30, 8), (36, 256), (40, 256), (44, 256), (48, 256), (52, 4), (54, 1), (56, 1), (58, 8), (60, 8)]

/-- A powered node in SERVICE at the start of milestone 5, with partition 0 ACTIVE and served by VF 1. -/
def live : State :=
  withRegs { State.reset with
      pwrGood := true, life := .service, ft := { Ft.reset with now := 10240 },
      lodge := { linkUp := true, perst := false, numVfs := 2, vfEnable := true, d3hot := false },
      entries := [(0, pairOf entry0)], partState := [(0, pairOf 1)] }
    [(0, Reg.RT_NODE_ID, 7), (0, Reg.RT_PORT_CFG, 0x90000000), (0, Reg.FT_SRC_ID, 9)]

/-- Fabric time set to a nanosecond. -/
def at_ (s : State) (t : Nat) : State := { s with ft := { s.ft with now := BitVec.ofNat 64 t } }

/-- A beacon body (R10) of source 9 in domain 0. -/
def beaconBody (seq origin corr : Nat) : List Byte :=
  [1, 0] ++ beBytes 2 9 ++ beBytes 4 seq ++ beBytes 8 origin ++ beBytes 4 corr ++ List.replicate 12 0

/-- A node that follows source 9, 40 ns ahead of a beacon that it receives now. -/
def follower : State :=
  { at_ live (32768 + 40) with ft := { (at_ live (32768 + 40)).ft with selected := some 9 } }

/-- A span-job of span 0 on column 0. -/
def job0 : Job :=
  { span := 0, col := 0, pages := [], planEnd := 1000, phase := .planned, res := ⟨[], none⟩, scoreOk := false, valueOk := false,
    weightOk := false, rerun := false, notBefore := 0, overrun := false }

/-- A block of one span, not yet sent. -/
def blk0 : Blk := { level := 0, first := 0, spans := [0], num := 0, slot := 0, units := 1, sent := false }

/-- A dispatched request of command 1 with one running span-job. -/
def req0 : Req :=
  { id := 1, kindle := none, part := 0, seq := 3, layer := 0, kv := 0, g := 1, fmt := 0, posFirst := 0, posLast := 4,
    scale := 0, queries := [], tag := 0, repro := true, isSealed := true, bare := false, conn := some 1,
    unreachable := false, stride := some 5, accepted := 4, deferred := false, retried := false, tailExcluded := false,
    missingAny := false, snapshot := 8, extFirst := 0, extLast := 4, jobs := [{ job0 with phase := .running }],
    missing := [], blks := [blk0], emitted := 0, outcome := 8 }

/-- An early ember of request 1, which left in milestone 5, without a verdict. -/
def sent0 : Sent :=
  { id := 1, req := 1, part := 0, conn := some 1, hdr := pairOf 0, spans := [0], early := true, msg := 0, left := 5,
    verdict := none }

/-- A taken command of partition 0 from its host ring of an engine. -/
def cmdOf (id eng : Nat) (phase : Phase) (d : BitVec 512) (payload : List Byte) : Cmd :=
  { id := id, q := .host 0 eng, index := 0, msg := 0, gen := 0, part := 0, eng := eng, desc := d, payload := payload,
    phase := phase, status := 0, result := 0, detail := 0, linkAbort := false, poisoned := false, waited := false,
    fences := true, refused := false, discard := false, waitFrom := 4, started := 0 }

/-- The live node with one command. -/
def liveCmd (c : Cmd) : State := { live with cmds := [c], nextId := 9 }

/-- The live node with an ACTIVE ring of engine 4 whose tail is 3 ahead and whose sizes are 16. -/
def liveRing : State :=
  (withRegs live [(1, Reg.CQ_RING_CFG + 0x100, 0x404)]).setRing 0 4
    { st := .active, subHead := 0, subTail := 3, cplHead := 0, cplTail := 2 }

/-- A command of engine 4 that waits for waymark 6 to reach 10. -/
def waiter : Cmd := cmdOf 1 4 .waiting (record 512 [(0, 4), (1, 1), (2, 6), (8, 10)]) []

/-- The state after a command. -/
def after (s : State) (c : Instr) : State := match exec c s with | .next t => t | _ => s

/-- A hot-tier object of partition 0: KIND, BASE and SIZE. -/
def objOf (kind base size : Nat) : BitVec 256 := record 256 [(0, base), (6, kind), (8, size)]

/-- The live node with VF 1 opening its apertures onto column 0. -/
def aperture : State := withRegs live [(1, Reg.BW_AP, 0x80000000 + 0x100000)]

/-- Body fields of an APPEND, OPEN or CLOSE of sequence 3, layer 0, one KV head: OP, FLAGS, CLASS, POSITION and COUNT. -/
def apDesc (op flags cls pos count : Nat) : BitVec 512 :=
  record 512 [(0, 1), (16, op), (17, flags), (20, if op = 2 then 0 else 1), (21, cls), (24, 3), (32, pos), (36, count),
    (48, if op = 0 then 0x3F800000 else 0), (52, if op = 0 then 0x3F800000 else 0)]

/-- A node with a page arena of 1 MiB on column 0, and a quota of 16 units of 64 KiB for partition 0. -/
def arena : State :=
  (withRegs live [(0, Reg.PG_CLASS, 1), (0, Reg.PR_QUOTA, 16)]).setObj 0 0 (objOf 0 0x10000000000 0x100000)

/-- Its directory entry of sequence 3, layer 0: PUBLISHED and STATE, owned by this node without an end. -/
def entryOf (pub state : Nat) : BitVec 256 := deMake 3 0 0 1 0 state 0 0 0 pub 0 4095 0 0
def ownOf (state : Nat) : BitVec 128 := owMake 1 7 7 0 noEnd state
def dirOf (v : BitVec 256) (o : BitVec 128) : Dir :=
  { key := ⟨0, 3, 0⟩, a := pairOf v, b := pairOf v, oa := pairOf o, ob := pairOf o, dropped := [], closer := none,
    sentAt := 0, final := false, twin := none }

/-- The node with that sequence open and one command. -/
def opened (c : Cmd) (pub : Nat) : State :=
  { arena with cmds := [c], nextId := 9, dir := [dirOf (entryOf pub 1) (ownOf 1)] }

/-- A remote APPEND that carries its rows: one token of zeros. -/
def apCmd (phase : Phase) (pos : Nat) : Cmd :=
  { cmdOf 1 1 phase (apDesc 0 1 0 pos 1) (List.replicate (2 * rowBytes 0 (headDim 0)) 0) with q := .inbound 2 1 }

/-- That APPEND in the hold queue. -/
def hold0 : Hold := { cmd := 1, key := ⟨0, 3, 0⟩, pos := 0, arrived := 5, queued := true, units := [], replay := false, held := true, behind := false }

/-- The slots that an APPEND needs can be had. -/
theorem allocates {a : Alloc} (h : (match a with | .got _ _ => true | _ => false) = true) : ∃ s' xs, a = .got s' xs := by
  cases a <;> first | exact ⟨_, _, rfl⟩ | exact Bool.noConfusion h

/-- Nothing of an empty list. -/
theorem noneOf {α : Type} {p : α → Prop} {l : List α} (h : l = []) : ∀ x ∈ l, p x := by
  subst h; exact fun _ h => nomatch h

/-- No burst waits where no sector errs, no ROW runs and no request is in flight. -/
theorem noBursts {s : State} (he : s.ecc = []) (hr : s.rows = []) (hq : s.reqs = []) (col : Nat) :
    s.burstWaits col = false := by
  simp [State.burstWaits, State.awaitingOn, State.rowOn, State.attendOn, he, hr, hq]

theorem fits0 : (((opened (apCmd .ready 0) 0).runCmd 1).appendHead (apCmd .ready 0)).1.endMoves.appendFits (apCmd .ready 0)
    (entryOf 0 1) :=
  by
  refine ⟨?_, ?_, ?_, by decide +kernel, ?_, ?_, ?_, noneOf ?_, noneOf ?_, ?_, ?_, allocates ?_⟩ <;> decide +kernel

theorem fits1 : { { opened (apCmd .running 0) 0 with holds := [hold0] } with
      holds := [hold0].filter (·.cmd != 1) }.endMoves.appendFits (apCmd .running 0) (entryOf 0 1) :=
  by
  refine ⟨?_, ?_, ?_, by decide +kernel, ?_, ?_, ?_, noneOf ?_, noneOf ?_, ?_, ?_, allocates ?_⟩ <;> decide +kernel

/-- A full raw page of sequence 3, layer 0, KV head 0: class 0, format 0, 2,048 data bytes and a trailer. -/
def slot0 : Slot :=
  { part := 0, seq := 3, layer := 0, kv := 0, firstPos := 0, addr := 0x10000000000, size := 2560, obj := 0, use := .live,
    full := some 5 }
def trailer0 : Trailer :=
  { coded := false, fmt := 0, dimCode := 0, cls := 0, kv := 0, layer := 0, gen := 0, seq := 3, firstPos := 0, valid := 16,
    dataGran := 8, kScale := 0x3F800000, vScale := 0x3F800000 }
def paged : State := { (opened (cmdOf 1 1 .ended 0 []) 16).store 0x10000000800 trailer0.bytes with slots := [slot0] }

/-- A node whose unit 0 of sequence 3 may be dropped: full in every layer, with a kindling record of 1,024 tokens kept
here, at node 8 and at node 9. -/
def droppy : State :=
  let r : List Byte := leBytes 4 0x1CB ++ leBytes 2 0 ++ leBytes 2 1024 ++ leBytes 8 3 ++ leBytes 2 7 ++ leBytes 2 8 ++
    leBytes 2 9 ++ leBytes 2 0 ++ leBytes 8 2797812426771984549
  { ((withRegs (opened (cmdOf 1 1 .ended 0 []) 1024) [(0, Reg.PR_CFG, 0x0400), (0, Reg.PR_KLG, 0x80000001)]).setObj 0 1
      (objOf 2 0x10000200000 4352)).store 0x10000200000 r with slots := [slot0] }

/-- Two objects of 512 and 1,024 bytes in the hot tier; the second has rows of 256 bytes and tiles of one row. -/
def hauler (c : Cmd) : State :=
  (((liveCmd c).setObj 0 2 (objOf 3 0x10000300000 512)).setObj 0 3
    (record 256 [(0, 0x10000400000), (6, 3), (8, 1024), (20, 4), (24, 256), (28, 1)])).store 0x10000400000 [1, 2, 3]

/-- A HAUL of engine 4 from object 3 to object 2: MODE and LENGTH. -/
def haulDesc (mode len : Nat) : BitVec 512 :=
  record 512 [(0, 4), (16, 3), (18, 2), (20, mode), (21, 2), (40, len), (48, 1), (50, 2)]

/-- That HAUL in tile mode, with no tile started. -/
def haul0 : Haul :=
  { cmd := 1, src := (hauler (cmdOf 1 4 .running (haulDesc 2 768) [])).obj 0 3,
    dst := (hauler (cmdOf 1 4 .running (haulDesc 2 768) [])).obj 0 2, srcFar := [], dstFar := [], tile := true,
    tileBytes := 256, started := 0, moved := 0, tiles := 0, baseFree := 0, reads := [], writes := [] }

/-- A ROW of engine 5 that fills one row of column 0 with a pattern. -/
def rowCmd (phase : Phase) : Cmd :=
  cmdOf 1 5 phase (record 512 [(0, 5), (16, 1), (20, 1), (24, 0x10000500000), (48, 0x0102030405060708)]) []

/-- The CRC register after 64 zero bytes, and the last of a run of registers. -/
def crcRun (a : Nat) : Nat := (List.replicate 64 (0 : Byte)).foldl crcByte a
def crcLast : Nat → List Nat → Nat
  | a, [] => a
  | _, b :: t => crcLast b t

/-- Each number is the CRC register after 64 more zero bytes. -/
def crcRuns : Nat → List Nat → Bool
  | _, [] => true
  | a, b :: t => crcRun a == b && crcRuns b t

theorem crcRuns_foldl (t : List Nat) (a : Nat) (h : crcRuns a t = true) :
    (List.replicate (64 * t.length) (0 : Byte)).foldl crcByte a = crcLast a t := by
  induction t generalizing a with
  | nil => rfl
  | cons b t ih =>
    rw [crcRuns, Bool.and_eq_true, beq_iff_eq, crcRun] at h
    have e : 64 * (b :: t).length = 64 + 64 * t.length := by rw [List.length_cons, Nat.mul_add, Nat.add_comm]
    rw [e, List.replicate_add, List.foldl_append, h.1, ih b h.2, crcLast]

/-- The CRC registers of 4,096 zero bytes. -/
def zeroRuns : List Nat :=
    [2426179449785408509, 3493267268554412736, 5946974514329938206, 3398761635058823459, 8325185826590150457,
      3456759911475647313, 11597512605005840373, 10839342818974237587, 8726320034287549797, 13555653108256884821,
      14274614239017402451, 3252346084032325268, 2597638076134831069, 15444344853847078756, 5326121062951345166,
      4361626738373351667, 8996270453265492247, 17045745674945394663, 135239626773128587, 3302102010988452115,
      18417722791001841201, 8925596046746075543, 13533373239992408279, 8365877195271935003, 2036134887580364440,
      16846903921345749133, 12692861004827204299, 12270306824508327781, 10958576876104635787, 18348746132022386190,
      2569407108447354646, 14340754135536114872, 6498085738649217598, 17223493312813262289, 13742929767997730043,
      13633586796316015121, 7730414410391308164, 1844325216601210068, 12724169980465520137, 297189542354023654,
      7863773939921727875, 11314668197080590451, 7778122949092446117, 3936447038636132199, 9872482609638799040,
      12864749299788308322, 1422861707080538770, 2520315413209728509, 17217408847673462802, 7027928587347496688,
      16889946486049988018, 12355946965121845208, 7949540493207192645, 15067234419979684763, 683358292218628235,
      8190359419457751365, 9901767478467569917, 8575270775754063760, 9422345119132850268, 245815292209479579,
      4461082131079048939, 2338964580872092373, 12687694730385895464, 15648931646937567066]

/-- The CRC of 4,096 zero bytes, as its register runs through them. -/
theorem crc_zeros : crc64 (List.replicate 4096 0) = 2797812426771984549 := by
  have h := crcRuns_foldl zeroRuns 0xFFFFFFFFFFFFFFFF (by decide +kernel)
  have e : 64 * zeroRuns.length = 4096 := by decide +kernel
  rw [e] at h
  rw [crc64, h]; decide +kernel

/-- A coded page of zeros (R97 to R102): one bit for each byte. -/
theorem counts_zeros : byteCounts (List.replicate 2048 0) = 2048 :: List.replicate 255 0 := by
  simp only [byteCounts, List.countP_replicate]; decide +kernel

theorem lens_zeros : builtLens (List.replicate 2048 0) = 1 :: List.replicate 255 0 := by
  simp only [builtLens, counts_zeros, List.length_replicate]; decide +kernel

theorem body_zeros : (codeBody (1 :: List.replicate 255 0) (List.replicate 2048 0)).length = 264 := by decide +kernel

theorem stream_zeros : (cinderBuilt 0 (List.replicate 2048 0)).length = 408 := by
  simp only [cinderBuilt, lens_zeros, List.length_append, body_zeros]; decide +kernel

/-- Memory reads zero outside its listed bytes. -/
theorem bytes_outside (s : State) (a n : Nat) (hm : (s.mem.all fun e => decide (e.1 < a ∨ a + n ≤ e.1)) = true)
    (ha : a + n ≤ 0x030000000000) : s.bytes a n = List.replicate n 0 := by
  have hg : ∀ (l : List Host.Cell) (k : Nat), (l.all fun e => decide (e.1 < a ∨ a + n ≤ e.1)) = true → a ≤ k → k < a + n →
      tget memDefault l k = 0 := by
    intro l k h hk hn
    induction l with
    | nil => rfl
    | cons e l ih =>
      simp only [List.all_cons, Bool.and_eq_true, decide_eq_true_eq] at h
      rw [tget, if_neg (by omega), ih h.2]
  refine List.ext_getElem (by simp [State.bytes]) fun i h1 h2 => ?_
  simp only [State.bytes, List.length_map, List.length_range] at h1
  simp only [State.bytes, List.getElem_map, List.getElem_range, List.getElem_replicate, State.byte]
  rw [native, if_neg (by omega)]
  exact hg s.mem (a + i) hm (by omega) (by omega)

/-- A read of `m + n` bytes is two reads. -/
theorem bytes_split (s : State) (a m n : Nat) : s.bytes a (m + n) = s.bytes a m ++ s.bytes (a + m) n := by
  simp [State.bytes, List.range_add, Nat.add_assoc]

/-- The kindling record in the droppy node's store: a header of 256 bytes and 4,096 zero bytes. -/
def krecHead : List Byte := droppy.bytes 0x10000200000 256
def krec0 : List Byte := krecHead ++ List.replicate 4096 0

theorem krec0_bytes : droppy.bytes 0x10000200000 4352 = krec0 := by
  rw [show 4352 = 256 + 4096 from rfl, bytes_split, bytes_outside droppy (0x10000200000 + 256) 4096 (by decide +kernel)
    (by decide +kernel)]
  rfl

theorem krecHead_length : krecHead.length = 256 := by decide +kernel

theorem krec0_tail (k : Nat) : byteAt krec0 (256 + k) = 0 := by
  simp only [byteAt, krec0, List.getD_eq_getElem?_getD, List.getElem?_append_right (by rw [krecHead_length]; omega :
    krecHead.length ≤ 256 + k), krecHead_length, Nat.add_sub_cancel_left, List.getElem?_replicate]
  by_cases h : k < 4096
  · simp [h]
  · simp [h]

theorem krec0_ok : krecOk krec0 3 0 = true := by
  have ht : leAt krec0 6 2 = 1024 := by decide +kernel
  have hd : krec0.drop 256 = List.replicate 4096 0 := by
    rw [krec0, List.drop_append_of_le_length (Nat.le_of_eq krecHead_length.symm), ← krecHead_length, List.drop_length]; rfl
  have hz : sliceB krec0 256 4096 = List.replicate 4096 0 := by
    simp only [sliceB, hd, List.take_replicate, Nat.min_self, List.length_replicate, Nat.sub_self, List.replicate_zero,
      List.append_nil]
  have h3 : ((List.range 1024).all fun t => byteAt krec0 (256 + 4 * t + 3) == 0) = true := by
    simp only [Nat.add_assoc, krec0_tail, List.all_eq_true, beq_self_eq_true, implies_true]
  have h4 : zerosAt krec0 (256 + 4096) (4 * (1024 - 1024)) = true := rfl
  unfold krecOk
  simp only [ht, hz, crc_zeros, show 4 * 1024 = 4096 from rfl, h3, h4, Bool.and_true]
  decide +kernel

theorem krec0_addr : droppy.recordAddr 0 3 0 = some 0x10000200000 := by decide +kernel

theorem krec0_found (k : Nat) : droppy.localRecord 0 3 0 k = some krec0 := by
  have h2 : tierOf 0x10000200000 ≠ some .far := by decide
  have h5 : droppy.hasUE 0x10000200000 4352 = false := by decide +kernel
  have h6 : krecCopies krec0 droppy.nodeId = true := by decide +kernel
  simp only [State.localRecord, krec0_addr, State.recordBytes, if_neg h2, beq_eq_false_iff_ne.mpr h2, h5, krec0_bytes,
    krec0_ok, h6, Bool.and_false, Bool.not_false, Bool.true_or, Bool.and_self, if_true]

theorem droppy_ranked : insertUnit (droppy.rank 0 3 0) [] = [⟨3, 0, [268435456, 0, 0, 3, 4096], 2560, [(0, 2560)]⟩] := by
  decide +kernel

theorem droppy_candidates : droppy.candidates 0 = [⟨3, 0, [268435456, 0, 0, 3, 4096], 2560, [(0, 2560)]⟩] := by
  have hu : droppy.unitsOf 0 = [(3, 0)] := by decide +kernel
  have hd : droppy.droppable 0 3 0 = true := by decide +kernel
  have ht : leAt krec0 6 2 = 1024 := by decide +kernel
  have hr : droppy.recordValid 0 3 0 0 true = true := by
    rw [State.recordValid, krec0_found]; exact (by rw [ht]; rfl : (!true || leAt krec0 6 2 == 1024) = true)
  have hm : List.mapIdx (fun (i : Nat) (u : Nat × Nat) => (i, u)) [(3, 0)] = [(0, 3, 0)] := rfl
  simp only [State.candidates, hu, hm, List.filter_cons, List.filter_nil, hd, hr, Bool.and_self, if_true]
  exact droppy_ranked

/-- The node whose page is coded, and its page of zeros. -/
def coder : State := paged.setReg 0 Reg.PG_CINDER_CFG 1

theorem page_zeros : coder.bytes slot0.addr (2 * 16 * 64) = List.replicate 2048 0 :=
  bytes_outside coder slot0.addr 2048 (by decide +kernel) (by decide +kernel)

/-- Path entry on logical port 0 over IPv4, and a connection entry to node 8 of one path: ROLE, PAYLOAD 0, 64 ember
units, staging of 64 KiB for TC1 and TC3, and inbound queues of 16. -/
def path0 : List Byte := [0x80, 4] ++ leBytes 2 49152 ++ [0, 0] ++ [2, 0, 0, 0, 0, 0xBB] ++ leBytes 4 0 ++ [10, 0, 0, 2] ++
  List.replicate 12 0
def centry (role : Nat) : List Byte := leBytes 2 8 ++ leBytes 1 role ++ leBytes 1 0 ++ leBytes 1 1 ++ leBytes 1 0 ++
  leBytes 2 64 ++ leBytes 4 256 ++ leBytes 4 256 ++ leBytes 3 0x444444 ++ leBytes 45 0

/-- A fresh path with nothing in flight, and one connection of partition 0 to node 8. -/
def livePath : PathSt :=
  { up := true, win := 65536, inflight := 0, timeouts := 0, probes := 0, usedAt := 5, probedAt := 5, cutAt := none }
def connOf (st : ConnSt) : Conn :=
  { connNone with owner := some 0, entry := centry 0, paths := [path0], st := st, gen := 1, since := 5, peerConn := 3,
                  peerNode := 8, peerEmberUnits := 64, peerTc1 := 256, peerTc3 := 256, peerInq := 0x444444,
                  live := [livePath] }

/-- A state with connection 1. -/
def linked (s : State) (st : ConnSt) : State := { s with conns := [(1, connOf st)] }

/-- Body fields of an ATTEND of sequence 3: FLAGS, the last position, and the query source inline at 0; its command,
which came over connection 2. -/
def atDesc (flags last : Nat) : BitVec 512 :=
  record 512 [(0, 0), (16, flags), (17, 1), (24, 3), (36, last), (40, 0x3F800000), (56, 0x77)]
def atCmd (phase : Phase) (last : Nat) : Cmd :=
  { cmdOf 1 0 phase (atDesc 7 last) (List.replicate 64 0) with q := .inbound 2 0 }

/-- An empty ember body with tag 0x99 and a header: KIND, VERDICT. -/
def emBody : List Byte := bodyBytes 0 0xFF 0 3 8 1 0 0x99 [] []
def emHdr (kind verdict : Nat) : BitVec 256 := ehMake 0x0008_0000_0050_0000 (crc64 emBody) 7 5 0 1 24 0 kind verdict 0

/-- That ember in the ember buffer since milestone 1. -/
def recv0 (verdict : Nat) : Recv :=
  { recvNew none (emHdr 1 verdict) 1 with hdr := some (pairOf (emHdr 1 verdict)), body := emBody }

/-- A MERGE of tag 0x99 from engine 2 of VF 1: WAIT 2, and the place of its result. -/
def mgDesc (g : Nat) : BitVec 512 :=
  record 512 [(0, 2), (16, 1), (17, g), (21, 1), (22, 2), (36, 1023), (48, 0x99), (56, 0x10000600000)]
def merge0 (outcome : Nat) (conn : Option Nat) : Merge :=
  { id := 1, kindle := none, part := 0, repro := true, g := 1, fmt := 0, sources := 1, wait := 2, posFirst := 0,
    posLast := 1023, conn := conn, unreachable := false, resAddr := 0, toHost := false, tag := 0x99, accepted := some 1,
    num := 0, slot := 0, units := 3, inputs := [], values := [], missing := [], dedup := false, retried := false,
    outcome := outcome }
def merging (outcome : Nat) (conn : Option Nat) : State :=
  { linked (liveCmd (cmdOf 1 2 .running (mgDesc 1) [])) .opened with merges := [merge0 outcome conn] }

/-- The first 448 bytes of a model image of one layer: WFMT 0, KV format 0, one head each, hidden 32, FFN 32, a
vocabulary of 16, and one device. -/
def imHdr : List Byte :=
  [0xC7, 1, 0, 0] ++ leBytes 2 1 ++ leBytes 2 1 ++ leBytes 2 1 ++ [2, 0] ++ leBytes 4 32 ++ leBytes 4 32 ++
  leBytes 4 16 ++ leBytes 4 0x3F800000 ++ leBytes 4 1 ++ List.replicate 16 0 ++ leBytes 8 1318944 ++
  leBytes 8 1318944 ++ List.replicate 384 0
def img0 : Image := { part := 0, slot := 0, obj := 5, unbinders := [], hdr := imHdr }

/-- A KINDLE of sequence 3 on image 0: TAG, records in object 1, activations in object 2. -/
def kdDesc (spans : Nat) : BitVec 512 :=
  record 512 [(0, 3), (19, spans), (22, 1), (24, 3), (44, 2), (48, 0x500000)]
def kdCmd (phase : Phase) (spans : Nat) : Cmd := cmdOf 1 3 phase (kdDesc spans) []

/-- The node with that image and command; span 0 of the sequence is dropped or not. The array is partition 0's. -/
def kindler (c : Cmd) (dropped : List Nat) : State :=
  let s := withRegs (opened c 1024) [(0, Reg.SHP_SLOT_FRAME, 0x0101), (0, Reg.SHP_SLOT_ARRAY, 0x7F7F7F00)]
  { ((s.setObj 0 1 (objOf 2 0x10000200000 4352)).setObj 0 2 (objOf 3 0x50000400000 0x70000)) with
      images := [img0], dir := [{ dirOf (entryOf 1024 1) (ownOf 1) with dropped := dropped }] }

/-- An executing KINDLE of two rows at the K projection, and the checks of a new one. -/
def kindle0 : Kindle :=
  { cmd := 1, part := 0, seq := 3, slot := 0, first := 0, count := 1, spans := [0], layersOf := [(0, [0])], ctx := [],
    tokens := [1, 2], work := 0, tagBase := 0, joins := none, executing := true, layer := 0, stage := .k, tile := 0,
    rowDone := 0, x := [], a := [List.replicate 32 0, List.replicate 32 0], kOut := [], qOut := [], gOut := [], y := [],
    todo := [], internals := [], counter := 0, gathered := [], waitsSlots := false, waitUnits := [], resent := false, published := 0 }
def internal0 (count req first : Nat) (remote : Bool) : Internal :=
  { count := count, req := req, remote := remote, kv := 0, row := 0, rows := if remote then 1 else 0, resent := false,
    first := first, msgs := [] }
def kindling (k : Kindle) : State := { kindler (kdCmd .running 1) [0] with kindles := [k] }

/-- The row that operation 0 of that KINDLE has streamed. -/
def streamed : Except Nat Kindle :=
  ((((kindling kindle0).arrayBusy 0 1184).workWritten kindle0).streamRows img0 kindle0 (2, 32, 64) 1).2
def kindle1 : Kindle := match streamed with | .ok k => k | .error _ => kindle0

/-- The BIND of slot 1 from object 6 to object 7, and UNBIND of slot 0. -/
def bindDesc : BitVec 512 := record 512 [(0, 3), (16, 1), (18, 1), (40, 6), (42, 7)]
def unbindDesc (slot : Nat) : BitVec 512 := record 512 [(0, 3), (16, 2), (18, slot)]
def binder : State :=
  (((liveCmd (cmdOf 1 3 .ready bindDesc [])).setObj 0 6 (objOf 3 0x50000000000 0x180000)).setObj 0 7
    (objOf 1 0x50000200000 0x180000)).store 0x50000000000 (imHdr.take 64)

/-- The node with logical port 0 up, MAC address 02-00-00-00-00-AA and IPv4 address 10.0.0.1, and connection 1, which
VF 1 selects. -/
def road (c : Conn) : State :=
  { withRegs live [(1, Reg.RT_CONN_SEL, 1)] with
      up := [0], ports := [(0, 2), (5, 0xAA), (6, 1), (8, 10), (11, 1)], conns := [(1, c)] }
def unopened (role : Nat) : Conn := { connNone with owner := some 0, entry := centry role, paths := [path0] }
def listening : Conn := { unopened 1 with st := .listen }

/-- The extension of a CONNECT or ACCEPT of node 8, connection ID 8195. -/
def ctrlOf (sub : Nat) : List Byte :=
  beBytes 1 sub ++ beBytes 3 0 ++ beBytes 3 8195 ++ [0] ++ beBytes 2 8 ++ beBytes 2 0 ++ beBytes 2 64 ++
  beBytes 3 0x444444 ++ beBytes 3 0 ++ beBytes 4 256 ++ beBytes 4 256 ++ List.replicate 36 0
def rejectExt : List Byte := [3, 4] ++ List.replicate 62 0

/-- A TC2 message of 100 bytes that waits, the packet that starts it, and that packet once sent. -/
def msg0 : TxMsg :=
  { num := 0, op := 5, tc := 2, waykey := 0, base := 0, len := 100, ext := [], data := List.replicate 100 0, cut := 0,
    owner := .nobody, failed := false, charged := false, via := none, ready := 10240 }
def next0 : NextPkt := { lost := none, msg := some msg0, op := 5, payload := List.replicate 100 0, ext := [], ready := 10240 }
def pkt0 (lost : Bool) : TxPkt :=
  { psn := 0, op := 5, tc := 2, msg := 0, msgLen := 100, waykey := 0, offset := 0, ext := [], data := List.replicate 100 0,
    path := 0, sentAt := 0, order := 0, retx := 0, rto := 1, lost := lost, passed := 0, ready := 0 }
def sender : State := road { connOf .opened with tx := [msg0] }
def inFlight0 (lost : Bool) (retx : Nat) : Conn :=
  { connOf .opened with pkts := [{ pkt0 lost with retx := retx }], nextPsn := 1, sends := 1 }

/-- Waykey 2 of partition 0: read and write of 4,096 bytes of its hot tier over any connection. -/
def wkVal (st : Nat) : BitVec 256 :=
  setF (setF (setF (setF (setF (setF (0 : BitVec 256) 208 48 0x10000A00000) 160 48 4096) 136 24 0xFFFFFF) 134 2 3) 96 32
    0x10002) 94 2 st
def roadKey : State := (road (connOf .opened)).setWaykey 2 (pairOf (wkVal 1))

/-- A WRITE of 64 bytes through that waykey as a frame of node 8, and the packet past the tollgate. -/
def ort0 : List Byte := ortHeader 1 3 0 true false 5 8193 0 0 64 0x10002 128 ++ List.replicate 64 0xA5
def frameFrom (ort : List Byte) : List Byte :=
  ethBytes [2, 0, 0, 0, 0, 0xAA] [2, 0, 0, 0, 0, 0xBB] none 0x0800
    (ipv4Bytes [10, 0, 0, 2] [10, 0, 0, 1] 0 17 (udpBytes [10, 0, 0, 2] [10, 0, 0, 1] 49152 (live.regF 0 Reg.RT_CFG 0 16) ort))
def dgram0 : Dgram := ⟨[10, 0, 0, 2], false, live.regF 0 Reg.RT_CFG 0 16, ort0⟩
def placing0 : Placing :=
  { psn := 0, op := 1, msg := 0, msgLen := 64, waykey := 0x10002, offset := 128, ext := [], data := List.replicate 64 0xA5 }

/-- An ARP request for 10.0.0.1. -/
def arp0 : List Byte :=
  ethBytes (List.replicate 6 0xFF) [2, 0, 0, 0, 0, 0xBB] none 0x0806
    (beBytes 2 1 ++ beBytes 2 0x0800 ++ beBytes 2 0x0604 ++ beBytes 2 1 ++ [2, 0, 0, 0, 0, 0xBB] ++ [10, 0, 0, 2] ++
      List.replicate 6 0 ++ [10, 0, 0, 1])

/-- A HAUL whose read over connection 1 and a HAUL whose write over it is in flight. -/
def far0 : Haul :=
  { haul0 with tile := false, reads := [{ conn := 1, msg := 0, off := 0, len := 512, parts := [] }] }
def far1 : Haul :=
  { haul0 with tile := false, writes := [{ conn := 1, msg := 0, off := 0, len := 512, parts := [] }] }
def farHauler (h : Haul) : State :=
  { linked (hauler (cmdOf 1 4 .running (haulDesc 1 512) [])) .opened with hauls := [h] }

/-- A REPORT of reason 5 on the WRITE of message 0. -/
def report0 : List Byte := [5, 0x13, 0, 0] ++ beBytes 4 0 ++ beBytes 4 0 ++ beBytes 4 0 ++ beBytes 4 0x10002 ++
  beBytes 6 128 ++ List.replicate 6 0

/-- The completion record with INDEX 0 of a command sent over connection 1. -/
def record0 (status : Nat) : List Byte := recordBytes 0 status 1 0 0 0 0 0 0

/-- VF 1 with a waykey in RT_WK_W0–7: read and write of `n` bytes of its hot tier. -/
def wkAsked (n : Nat) : State :=
  withRegs live [(1, Reg.RT_WK_W + 16, 0xFFFFFFC0), (1, Reg.RT_WK_W + 20, n), (1, Reg.RT_WK_W + 28, 0x010000A0)]
def wkHeld (st : Nat) : State := (withRegs live [(1, Reg.RT_WK_SEL, 2)]).setWaykey 2 (pairOf (wkVal st))

/-- The node with sequence 3 open, its ownership record, the management peer 8 and connection 1 to it; VF 1 selects the
key and a node. -/
def ownAt (holder grantor endMs st : Nat) : BitVec 128 := owMake 1 holder grantor 0 endMs st
def leased (o : BitVec 128) (dst : Nat) : State :=
  let s := withRegs (opened (cmdOf 1 1 .ended 0 []) 1024) [(1, Reg.FX_LEASE_SEL, dst * 256), (1, Reg.FX_LEASE_SEQ_LO, 3),
    (1, Reg.FX_RB_CFG, 8), (1, Reg.FX_RB_STAGE, 0x80000000)]
  { s with dir := [dirOf (entryOf 1024 1) o], slots := [slot0], mpeers := [(0, (0x00010008, 0x0A000008))],
           conns := [(1, connOf .opened)] }
def leasedDir (o : BitVec 128) : Dir := dirOf (entryOf 1024 1) o
def leaseMsg (kind epoch endMs : Nat) : List Byte := leaseBytes kind 8 7 5 3 0 epoch endMs 0 4095

/-- A spare that receives the rebuild of sequence 3 and awaits unit 0. -/
def rebuild0 : Rebuild :=
  { mode := 2, done := false, unitFail := false, units := 0, seq := 3, left := [0], again := [], limits := [(0, 1024)],
    conn := some 1 }
def spare : State := { leased (ownAt 8 8 noEnd 4) 0 with rebuilds := [(0, rebuild0)] }

/-- A MERGE whose result goes to node 8. -/
def mgOut : Cmd :=
  cmdOf 1 2 .ready (record 512 [(0, 2), (16, 1), (17, 1), (21, 1), (22, 2), (36, 1023), (40, 8), (48, 0x99)]) []

/-- A MERGE that has its one input, with its value at block (0, 0). -/
def head0 : Head := { m := 0, l := 0x3F800000, o := List.replicate 64 0 }
def mergeBody : List Byte := bodyBytes 0 0 0 3 8 1 0 0x99 [head0] []
def mergedIn : State :=
  { merging 8 (some 1) with
      merges := [{ merge0 8 (some 1) with inputs := [0x0008_0000_0050_0000], values := [⟨0, 0, [head0]⟩] }],
      recv := [{ recv0 3 with body := mergeBody, merge := some 1 }] }

/-- The packet that starts the waiting TC2 message on path 0. -/
def lead0 : Lead := { conn := 1, tc := 2, pkt := next0, path := 0, port := 0, bytes := (sender.conn 1).frameLen 0 next0 }

/-- An ACK that waits. -/
def ackMsg : TxMsg :=
  { num := 0, op := 7, tc := 0, waykey := 0, base := 0, len := 0, ext := List.replicate 160 0, data := [], cut := 0,
    owner := .nobody, failed := false, charged := false, via := none, ready := 10240 }
def acker : State := road { connOf .opened with tx := [ackMsg] }
/-! Ill-formed commands: each check refuses one. -/

theorem test_wf_function : Instr.wf (.counterRead 65 0 0) = false := by decide
theorem test_wf_partition : Instr.wf (.release 64) = false := by decide
theorem test_wf_engine : Instr.wf (.ringEnable 1 6) = false := by decide
theorem test_wf_logical_port : Instr.wf (.linkUp 16) = false := by decide
theorem test_wf_road_port : Instr.wf (.portReset 8) = false := by decide
theorem test_wf_connection : Instr.wf (.connectRetry 8192) = false := by decide
theorem test_wf_column : Instr.wf (.refreshDue 512) = false := by decide
theorem test_wf_waymark : Instr.wf (.wmZero 1 4096) = false := by decide
theorem test_wf_waykey : Instr.wf (.revocationComplete 65536) = false := by decide
theorem test_wf_drain_limit : Instr.wf (.revocationDrainLimit 65536) = false := by decide
theorem test_wf_queue : Instr.wf (.descriptorTake (.inbound 8192 0) 0) = false := by decide
theorem test_wf_gated_unit : Instr.wf (.unitGate (.slice 4)) = false := by decide
theorem test_wf_record : Instr.wf (.complementReread (.far 256)) = false := by decide
theorem test_wf_upset : Instr.wf (.milestoneBoundary ⟨0, 0, [.sector (2 ^ 48) true]⟩) = false := by decide
theorem test_wf_page : Instr.wf (.pageCode ⟨0, 0, 0, 0, 2 ^ 32⟩) = false := by decide
theorem test_wf_key : Instr.wf (.closeFree ⟨0, 2 ^ 64, 0⟩) = false := by decide
theorem test_wf_beacon_body : Instr.wf (.beacon 0 0 0 true [0]) = false := by decide
theorem test_wf_read_length : Instr.wf (.hostRead 1 0 0 false) = false := by decide
theorem test_wf_write_length : Instr.wf (.hostWrite 1 0 [] false) = false := by decide
theorem test_wf_window_length : Instr.wf (.objectWindowWrite 1 0 []) = false := by decide
theorem test_wf_tenant : Instr.wf (.connect 65536 []) = false := by decide
theorem test_wf_ember : Instr.wf (.emberReceived none 65536 0 0 [] 0) = false := by decide
theorem test_wf_vfs : Instr.wf (.vfEnable 65 true) = false := by decide
theorem test_wf_straps : Instr.wf (.powerOnReset ⟨4, 0, 0, true, none, []⟩) = false := by decide
theorem test_wf_management_port : Instr.wf (.dhcpReply 2 0) = false := by decide
theorem test_wf_tray_address : Instr.wf (.i3cSetdasa 128) = false := by decide
theorem test_wf_tray_index : Instr.wf (.i3cPrivateWrite 256) = false := by decide
theorem test_wf_accepts : Instr.wf (.doorbellSub 1 5 0) = true := by decide

/-! The manual's worked examples, and results computed by hand from its rules. -/

/-- Worked example of the chapter on memory: a compatibility address, and the next granule in the neighbour column. -/
theorem test_compatibility_address :
    native 0x036001234A40 = 0x017000091A40 ∧ native 0x036001234B00 = 0x017100091A00 ∧
      compatOf 0x017000091A40 = 0x036001234A40 := by decide

/-- The CRC of R117 on the nine digits: the check value of its parameters. -/
theorem test_crc64 : crc64 [0x31, 0x32, 0x33, 0x34, 0x35, 0x36, 0x37, 0x38, 0x39] = 0x995DC9BBDF1939FA := by
  decide +kernel

/-- Worked examples of the chapters on ATTEND and MERGE: 2 to the power −1.5 and −1.625, and their weights. -/
theorem test_exp2 : exp2Fixed 0xBFC00000 = 0x3EB504F3 ∧ exp2Fixed 0xBFD00000 = 0x3EA5FED7 ∧ exp2Fixed 0 = 0x3F800000 := by
  decide +kernel
theorem test_weight : e4m3OfFp32 0x43800000 = 0x78 ∧ e4m3OfFp32 0x42B504F3 = 0x6B := by decide +kernel

/-- Worked example of the chapter on pages: class 16, FP8, head dimension 128. -/
theorem test_page_slot : slotRaw 16 128 128 = 4608 := by decide

/-- Worked example of the chapter on fabric time: the beacon at node 0x0112 on RP3. -/
def beaconNode : State :=
  let s := withRegs live [(0, Reg.FT_TRIM, 1250), (0, Reg.FT_PORT_DELAY + 12, 0x19C0), (0, Reg.FT_CFG, 0x00020002),
    (0, Reg.RT_PORT_CFG + 12, 0x90000000)]
  { s with ft := { s.ft with now := 13421773281, selected := some 9 } }
def beaconNext : State := after beaconNode (.beacon 3 481 0 true (beaconBody 1 0x320000000 0x2D00))
theorem test_beacon_trim : (beaconNext.reg 0 Reg.FT_TRIM).toInt = 750 ∧ beaconNext.ft.nextSlew = some (-24) := by
  decide +kernel

/-- Worked example of the chapter on shaping: the refill at milestone 9,500,001, and the change at 9,500,002. -/
def shaperOf (tokens : Int) (rate : Nat) : BitVec 128 :=
  shWith (setF (setF (setF (setF shReset 76 20 rate) 52 24 65536) 13 1 1) 14 1 1) tokens
theorem test_shaper_refill :
    shTokens (({ live with acctPackets := false }.setShaper 5 6 (pairOf (shaperOf (-1792) 25600))).shaperTick.shaper 5
      6).val = 23808 := by decide +kernel
theorem test_shaper_change :
    shTokens (({ live with acctPackets := false, shChanges := [⟨5, 6, shaperOf 0 12800⟩] }.setShaper 5 6
      (pairOf (shaperOf 7040 25600))).shaperTick.shaper 5 6).val = 12800 := by decide +kernel

/-- Worked example of the chapter on pins: the thermal indexes of the three decisions. -/
theorem test_thermal_index : thermIndex 964 [92, 96, 100] 3 0 = 2 ∧ thermIndex 945 [92, 96, 100] 3 2 = 2 ∧
    thermIndex 928 [92, 96, 100] 3 2 = 1 := by decide

/-- Worked example of the chapter on faults: the reclaim of a grant that never arrived (R380). -/
def granting (ms : Nat) : State := at_ (leased (owMake 4 8 7 0 9704096 2) 0) (2048 * ms)
theorem test_reclaim :
    ((after (granting 9704098) (.leaseReclaim ⟨0, 3, 0⟩)).dir.map fun d => d.own?.map owEpoch) = [some 5] ∧
    after (granting 9704097) (.leaseReclaim ⟨0, 3, 0⟩) = granting 9704097 := by decide +kernel

/-- SERVICE from STANDBY while the node is COLD sets LS_ERR_STAT[0], and the life state stays (R393). -/
theorem test_service_cold :
    (after { live with life := .standby } .service).life = .standby ∧
    (after { live with life := .standby } .service).regB 0 Reg.LS_ERR_STAT 0 = true := by decide +kernel

/-- A write of a doorbell register of VF 1 takes effect on its own ring alone, modulo its size (R257). -/
theorem test_doorbell :
    ((after liveRing (.doorbellSub 1 4 5)).ring 0 4).subTail = 5 ∧
    ((after liveRing (.doorbellSub 1 4 5)).ring 0 4).subHead = 0 := by decide +kernel

/-- An empty queue lets one nanosecond pass, and a queue gives its front command (R7; log entry 11). -/
theorem test_idle : (match step live with | .next t => t.ft.now | _ => 0) = 10241 := by decide +kernel
theorem test_front : (match step { live with pending := [.refLoss, .slew] } with | .next t => t.pending | _ => []) =
    [.slew] := by decide +kernel

/-! For every obligation with hypotheses, values that meet the hypotheses of each of its clauses. -/

theorem witness_StepRunsTheFrontCommand :
    (∃ (s : State) (c : Instr) (rest : List Instr),
    s.pending = c :: rest) ∧
    (∃ (s : State),
    s.pending = []) :=
  ⟨⟨{ live with pending := [.slew] }, .slew, [], by decide +kernel⟩,
   ⟨live, by decide +kernel⟩⟩

theorem witness_EveryStepKeepsMemoryCanonical :
    (∃ (s : State) (t : State),
    s.memOk ∧ step s = .next t) :=
  ⟨live, { live with ft := { live.ft with now := 10241 } }, by unfold State.memOk; decide +kernel, rfl⟩

theorem witness_PilotCountsFabricTime :
    (∃ (s : State),
    s.pending = [] ∧ s.pwrGood = true ∧ s.ns ≠ 2047 ∧ s.ns ≠ 1024) ∧
    (∃ (s : State),
    s.pending = [] ∧ s.pwrGood = false) :=
  ⟨⟨live, by decide +kernel⟩,
   ⟨State.reset, by decide +kernel⟩⟩

theorem witness_SlewRepeatsOrOmitsOneCount :
    (∃ (s : State),
    s.pwrGood = true ∧ s.ft.slewedAt ≠ some s.ms ∧ s.ns ≤ 1024 ∧ s.ft.slew < 0) ∧
    (∃ (s : State),
    s.pwrGood = true ∧ s.ft.slewedAt ≠ some s.ms ∧ s.ns ≤ 1024 ∧ 0 < s.ft.slew) ∧
    (∃ (s : State),
    (s.ft.slew = 0 ∨ s.ft.slewedAt = some s.ms)) :=
  ⟨⟨{ live with ft := { live.ft with slew := -3 } }, by decide +kernel⟩,
   ⟨{ live with ft := { live.ft with slew := 3 } }, by decide +kernel⟩,
   ⟨live, by decide +kernel⟩⟩

theorem witness_BeaconChecksCount :
    (∃ (s : State) (port : Nat) (ns : Nat) (tc : Nat) (gateOk : Bool) (body : List Byte),
    s.pwrGood = true ∧ port < 8 ∧ ns ≤ s.ns ∧ s.regB 0 Reg.FT_CFG 0 = false ∧ s.regB 0 (Reg.RT_PORT_CFG + 4 * port) 28
      = true ∧ (tc ≠ 0 ∨ gateOk = false ∨ beAt body 0 1 ≠ 1 ∨ beAt body 1 1 ≠ s.regF 0 Reg.FT_CFG 24 8 ∨ beAt body 8 8
      % 32768 ≠ 0)) ∧
    (∃ (s : State) (ns : Nat),
    ns ≤ s.ns ∧ s.regB 0 Reg.FT_CFG 0 = true) :=
  ⟨⟨live, 0, 0, 1, true, [], by decide +kernel⟩,
   ⟨live.setReg 0 Reg.FT_CFG 1, 0, by decide +kernel⟩⟩

theorem witness_AcceptedBeaconDisciplinesTime :
    (∃ (s : State) (port : Nat) (ns : Nat) (body : List Byte) (e : Int),
    s.pwrGood = true ∧ port < 8 ∧ ns ≤ s.ns ∧ s.regB 0 Reg.FT_CFG 0 = false ∧ s.regB 0 (Reg.RT_PORT_CFG + 4 * port) 28
      = true ∧ beAt body 0 1 = 1 ∧ beAt body 1 1 = s.regF 0 Reg.FT_CFG 24 8 ∧ beAt body 8 8 % 32768 = 0 ∧ s.regF 0
      Reg.FT_SRC_ID 0 16 = beAt body 2 2 ∧ beAt body 2 2 ≠ 0xFFFF ∧ s.ft.selected = some (beAt body 2 2) ∧ (∀ q,
      s.ft.lastSeq = some q → 1 ≤ (beAt body 4 4 + 2 ^ 32 - q) % 2 ^ 32 ∧ (beAt body 4 4 + 2 ^ 32 - q) % 2 ^ 32 ≤ 2 ^
      31) ∧ bcStep body = false ∧ e = 256 * (s.ft.now.toNat : Int) - (256 * (beAt body 8 8 : Int) + (BitVec.ofNat 32
      (beAt body 16 4)).toInt + 16 * (s.regF 0 (Reg.FT_PORT_DELAY + 4 * port) 0 20 : Int)) ∧ e.natAbs ≤ 256 * s.regF 0
      Reg.FT_STEP_THRESH 0 15) :=
  by refine ⟨follower, 0, 0, beaconBody 4 32768 0,
    256 * ((follower).ft.now.toNat : Int) - (256 * (beAt (beaconBody 4 32768 0) 8 8 : Int) + (BitVec.ofNat 32 (beAt (beaconBody 4 32768 0) 16 4)).toInt + 16 * ((follower).regF 0 (Reg.FT_PORT_DELAY + 4 * (0)) 0 20 : Int)),
    ?_, ?_, ?_, ?_, ?_, by decide +kernel, ?_, ?_, ?_, ?_, ?_, nofun, ?_⟩ <;> decide +kernel

theorem witness_LargeOffsetStepsOrStalls :
    (∃ (s : State) (port : Nat) (ns : Nat) (body : List Byte) (e : Int),
    s.pwrGood = true ∧ port < 8 ∧ ns ≤ s.ns ∧ s.regB 0 Reg.FT_CFG 0 = false ∧ s.regB 0 (Reg.RT_PORT_CFG + 4 * port) 28
      = true ∧ beAt body 0 1 = 1 ∧ beAt body 1 1 = s.regF 0 Reg.FT_CFG 24 8 ∧ beAt body 8 8 % 32768 = 0 ∧ s.regF 0
      Reg.FT_SRC_ID 0 16 = beAt body 2 2 ∧ beAt body 2 2 ≠ 0xFFFF ∧ s.ft.selected = some (beAt body 2 2) ∧
      s.ft.lastSeq = none ∧ ((s.life ≠ .service ∧ s.life ≠ .drain) ∨ s.regB 0 Reg.FT_STAT 2 = true) ∧ e = 256 *
      (s.ft.now.toNat : Int) - (256 * (beAt body 8 8 : Int) + (BitVec.ofNat 32 (beAt body 16 4)).toInt + 16 * (s.regF
      0 (Reg.FT_PORT_DELAY + 4 * port) 0 20 : Int)) ∧ 256 * s.regF 0 Reg.FT_STEP_THRESH 0 15 < e.natAbs ∧ 128 ≤
      e.natAbs) :=
  ⟨{ at_ follower (32768 + 40000) with life := .standby }, 0, 0, beaconBody 4 32768 0,
    256 * (({ at_ follower (32768 + 40000) with life := .standby }).ft.now.toNat : Int) - (256 * (beAt (beaconBody 4 32768 0) 8 8 : Int) + (BitVec.ofNat 32 (beAt (beaconBody 4 32768 0) 16 4)).toInt + 16 * (({ at_ follower (32768 + 40000) with life := .standby }).regF 0 (Reg.FT_PORT_DELAY + 4 * (0)) 0 20 : Int)),
    by decide +kernel⟩

theorem witness_FabricTimeNeverDecreases :
    (∃ (s : State) (t : State),
    s.ft.now.toNat + 2 ^ 40 ≤ 2 ^ 64 ∧ (∀ port ns tc ok body rest, s.pending = .beacon port ns tc ok body :: rest →
      beAt body 8 8 + 2 ^ 40 ≤ 2 ^ 64) ∧ step s = .next t) :=
  by refine ⟨live, { live with ft := { live.ft with now := 10241 } }, ?_, nofun, rfl⟩ <;> decide +kernel

theorem witness_SetTimeRegisters :
    (∃ (s : State) (v : Word),
    s.pf0 = true ∧ getB v 0 = true ∧ (s.life = .standby ∨ s.regB 0 Reg.FT_CFG 0 = true) ∧ s.ft.now.toNat ≤ (s.reg 0
      Reg.FT_SET_HI).toNat * 2 ^ 32 + (s.reg 0 Reg.FT_SET_LO).toNat) ∧
    (∃ (s : State) (v : Word),
    s.pf0 = true ∧ getB v 0 = true ∧ ((s.life ≠ .boot ∧ s.life ≠ .recovery ∧ s.life ≠ .standby ∧ s.regB 0 Reg.FT_CFG 0
      = false) ∨ (s.reg 0 Reg.FT_SET_HI).toNat * 2 ^ 32 + (s.reg 0 Reg.FT_SET_LO).toNat < s.ft.now.toNat)) ∧
    (∃ (v : Word),
    getB v 0 = false) ∧
    (∃ (s : State),
    s.pf0 = true) ∧
    (∃ (s : State),
    s.pf0 = true) :=
  ⟨⟨{ withRegs live [(0, Reg.FT_SET_LO, 20000)] with life := .standby }, 1, by decide +kernel⟩,
   ⟨live, 1, by decide +kernel⟩,
   ⟨0, by decide +kernel⟩,
   ⟨live, by decide +kernel⟩,
   ⟨live, by decide +kernel⟩⟩

theorem witness_ReferenceHoldoverAndGating :
    (∃ (s : State),
    s.regF 0 Reg.FT_CFG 8 2 ≠ 0) ∧
    (∃ (s : State),
    s.regF 0 Reg.FT_CFG 8 2 = 0) ∧
    (∃ (s : State),
    s.regF 0 Reg.FT_HOLD 0 17 = 65536 ∧ s.regB 0 Reg.FT_STAT 2 = false ∧ s.regB 0 Reg.FT_CFG 0 = false) ∧
    (∃ (s : State),
    s.regF 0 Reg.FT_HOLD 0 17 ≠ 65536) ∧
    (∃ (s : State),
    s.ft.stalled = true) ∧
    (∃ (s : State) (h : Nat),
    s.pwrGood = true ∧ h < 4 ∧ s.regB 0 Reg.FT_GATE_CFG 1 = true ∧ .slice h ∉ s.gated ∧ (∀ k ∈ s.kindles, k.executing
      = true → k.part ≠ s.arrayOwner s.ms)) ∧
    (∃ (s : State) (c : Nat),
    s.pwrGood = true ∧ c < 512 ∧ s.regB 0 Reg.FT_GATE_CFG 0 = true ∧ s.flueWork c = false ∧ .column c ∉ s.gated) ∧
    (∃ (s : State) (cmd : Nat) (span : Nat) (r : Req) (j : Job),
    s.req? cmd = some r ∧ r.job? span = some j ∧ j.phase = .running ∧ j.overrun = false) :=
  ⟨⟨live.setReg 0 Reg.FT_CFG 0x100, by decide +kernel⟩,
   ⟨live, by decide +kernel⟩,
   ⟨live.setReg 0 Reg.FT_HOLD 65536, by decide +kernel⟩,
   ⟨live, by decide +kernel⟩,
   ⟨{ live with ft := { live.ft with stalled := true } }, by decide +kernel⟩,
   ⟨live.setReg 0 Reg.FT_GATE_CFG 3, 0, by decide +kernel⟩,
   ⟨live.setReg 0 Reg.FT_GATE_CFG 3, 0, by decide +kernel⟩,
   ⟨{ live with reqs := [req0] }, 1, 0, req0, { job0 with phase := .running }, by decide +kernel⟩⟩

theorem witness_BoundaryBeginsTheNextMilestone :
    (∃ (s : State),
    s.pwrGood = true ∧ s.ft.stalled = false) ∧
    (∃ (s : State),
    s.ft.stalled = true) ∧
    (∃ (s : State) (i : Nat) (e : Sent),
    s.sent.find? (fun e => e.id == i && e.early && e.verdict.isNone) = some e ∧ s.ms < e.left + 2) ∧
    (∃ (s : State) (i : Nat) (e : Sent),
    s.sent.find? (fun e => e.id == i && e.early && e.verdict.isNone) = some e ∧ e.left + 2 ≤ s.ms) :=
  ⟨⟨live, by decide +kernel⟩,
   ⟨{ live with ft := { live.ft with stalled := true } }, by decide +kernel⟩,
   ⟨{ live with sent := [sent0] }, 1, sent0, by decide +kernel⟩,
   ⟨at_ { live with sent := [sent0] } 20480, 1, sent0, by decide +kernel⟩⟩

theorem witness_DoorbellsAreValidated :
    (∃ (s : State) (fn : Nat) (e : Nat) (v : Word),
    fn ≠ 0 ∧ e < 6 ∧ s.fnServed fn = true ∧ (s.ring (fn - 1) e).st ≠ .disabled ∧ (v - (s.ring (fn - 1)
      e).subHead).toNat ≤ 2 ^ s.regF fn (Reg.CQ_RING_CFG + 0x40 * e) 0 5) ∧
    (∃ (s : State) (fn : Nat) (e : Nat) (v : Word),
    fn ≠ 0 ∧ e < 6 ∧ s.fnServed fn = true ∧ (s.ring (fn - 1) e).st ≠ .disabled ∧ (v - (s.ring (fn - 1)
      e).cplHead).toNat ≤ ((s.ring (fn - 1) e).cplTail - (s.ring (fn - 1) e).cplHead).toNat) ∧
    (∃ (s : State) (fn : Nat) (e : Nat) (v : Word) (c : Instr),
    fn ≠ 0 ∧ e < 6 ∧ s.fnServed fn = true ∧ (s.ring (fn - 1) e).st ≠ .disabled ∧ (c = .doorbellSub fn e v ∧ 2 ^ s.regF
      fn (Reg.CQ_RING_CFG + 0x40 * e) 0 5 < (v - (s.ring (fn - 1) e).subHead).toNat ∨ c = .doorbellCpl fn e v ∧
      ((s.ring (fn - 1) e).cplTail - (s.ring (fn - 1) e).cplHead).toNat < (v - (s.ring (fn - 1) e).cplHead).toNat)) ∧
    (∃ (s : State) (fn : Nat) (e : Nat),
    s.fnServed fn = true ∧ (s.ring (fn - 1) e).st = .disabled) ∧
    (∃ (s : State) (fn : Nat),
    s.fnServed fn = false ∧ s.barAnswers fn = true) :=
  ⟨⟨liveRing, 1, 4, 16, by decide +kernel⟩,
   ⟨liveRing, 1, 4, 2, by decide +kernel⟩,
   ⟨liveRing, 1, 4, 17, .doorbellSub 1 4 17, by decide +kernel⟩,
   ⟨live, 1, 4, by decide +kernel⟩,
   ⟨{ live with partState := [] }, 1, by decide +kernel⟩⟩

theorem witness_RingStatesFollowEnable :
    (∃ (s : State) (fn : Nat) (e : Nat),
    fn ≠ 0 ∧ e < 6 ∧ s.fnServed fn = true) ∧
    (∃ (s : State) (fn : Nat) (e : Nat),
    fn ≠ 0 ∧ e < 6 ∧ s.fnServed fn = true) :=
  ⟨⟨live, 1, 4, by decide +kernel⟩,
   ⟨liveRing, 1, 4, by decide +kernel⟩⟩

theorem witness_DescriptorsAreTakenInOrder :
    (∃ (s : State) (p : Nat) (e : Nat),
    (s.ring p e).st = .active ∧ (s.ring p e).subHead ≠ (s.ring p e).subTail ∧ s.takenFrom p e + ((s.ring p e).cplTail
      - (s.ring p e).cplHead).toNat < 2 ^ s.cplLog p e ∧ s.taking p e = true ∧ s.queueBusy (.host p e) = false ∧
      s.engineFull p e = false) ∧
    (∃ (s : State) (p : Nat) (e : Nat),
    (s.ring p e).st ≠ .active ∨ (s.ring p e).subHead = (s.ring p e).subTail ∨ s.part p ≠ .active) ∧
    (∃ (s : State) (i : Nat) (e : Nat) (d : BitVec 512) (x : InDesc),
    s.inq.find? (fun d => d.conn == i && d.eng == e) = some x ∧ s.taking x.part e = true ∧ s.queueBusy (.inbound i e)
      = false ∧ s.engineFull x.part e = false) ∧
    (∃ (s : State) (p : Nat) (e : Nat),
    e < 6 ∧ (s.ring p e).st = .active ∧ (s.ring p e).subHead ≠ (s.ring p e).subTail) ∧
    (∃ (s : State) (p : Nat) (e : Nat),
    e < 6 ∧ (s.ring p e).st ≠ .active) :=
  ⟨⟨liveRing, 0, 4, by decide +kernel⟩,
   ⟨live, 0, 4, by decide +kernel⟩,
   ⟨{ live with inq := [⟨2, 4, 7, 0, 0, true, record 512 [(0, 4)], []⟩] }, 2, 4, 0,
    ⟨2, 4, 7, 0, 0, true, record 512 [(0, 4)], []⟩, by decide +kernel⟩,
   ⟨liveRing, 0, 4, by decide +kernel⟩,
   ⟨live, 0, 4, by decide +kernel⟩⟩

theorem witness_WaitsEndAsR266Says :
    (∃ (s : State) (id : Nat) (c : Cmd),
    s.cmd? id = some c ∧ c.phase = .waiting ∧ (s.wm c.part (dWaitWm c.desc)).ok = true ∧ wmCount (s.wm c.part (dWaitWm
      c.desc)).val < dWaitValue c.desc) ∧
    (∃ (s : State) (id : Nat) (c : Cmd),
    s.cmd? id = some c ∧ c.phase = .waiting ∧ (s.wm c.part (dWaitWm c.desc)).ok = true ∧ dWaitValue c.desc ≤ wmCount
      (s.wm c.part (dWaitWm c.desc)).val ∧ wmPoison (s.wm c.part (dWaitWm c.desc)).val = false ∧ c.refused = false) ∧
    (∃ (s : State) (id : Nat) (c : Cmd),
    s.cmd? id = some c ∧ c.phase = .waiting ∧ (s.wm c.part (dWaitWm c.desc)).ok = true ∧ dWaitValue c.desc ≤ wmCount
      (s.wm c.part (dWaitWm c.desc)).val ∧ wmPoison (s.wm c.part (dWaitWm c.desc)).val = true) ∧
    (∃ (s : State) (id : Nat) (c : Cmd),
    s.cmd? id = some c ∧ c.phase = .waiting ∧ (s.wm c.part (dWaitWm c.desc)).ok = false) ∧
    (∃ (s : State) (id : Nat) (c : Cmd),
    s.cmd? id = some c ∧ c.phase = .waiting ∧ (s.wm c.part (dWaitWm c.desc)).ok = true ∧ wmCount (s.wm c.part (dWaitWm
      c.desc)).val < dWaitValue c.desc ∧ s.regF (c.part + 1) Reg.CQ_CFG 0 16 ≠ 0 ∧ c.waitFrom + s.regF (c.part + 1)
      Reg.CQ_CFG 0 16 ≤ s.ms) ∧
    (∃ (s : State) (id : Nat) (c : Cmd),
    s.cmd? id = some c ∧ s.bodyReady c = true ∧ dNop c.desc = true) :=
  ⟨⟨liveCmd waiter, 1, waiter, by decide +kernel⟩,
   ⟨(liveCmd waiter).setWm 0 6 (pairOf 10), 1, waiter, by decide +kernel⟩,
   ⟨(liveCmd waiter).setWm 0 6 (pairOf (wmMake 10 true)), 1, waiter, by decide +kernel⟩,
   ⟨(liveCmd waiter).setWm 0 6 ⟨0, 0⟩, 1, waiter, by decide +kernel⟩,
   ⟨(liveCmd waiter).setReg 1 Reg.CQ_CFG 1, 1, waiter, by decide +kernel⟩,
   ⟨liveCmd (cmdOf 1 4 .ready (record 512 [(0, 4), (1, 16)]) []), 1,
    cmdOf 1 4 .ready (record 512 [(0, 4), (1, 16)]) [], by decide +kernel⟩⟩

theorem witness_CompletionPostsTheRecord :
    (∃ (s : State) (id : Nat) (c : Cmd) (p : Nat) (e : Nat),
    s.done? id = some c ∧ c.q = .host p e ∧ c.discard = false) ∧
    (∃ (s : State) (id : Nat) (c : Cmd) (p : Nat) (e : Nat),
    s.done? id = some c ∧ c.q = .host p e ∧ c.discard = false) :=
  ⟨⟨{ liveRing with cmds := [cmdOf 1 4 .ended (record 512 [(0, 4), (1, 4)]) []] }, 1,
    cmdOf 1 4 .ended (record 512 [(0, 4), (1, 4)]) [], 0, 4, by decide +kernel⟩,
   ⟨{ liveRing with cmds := [cmdOf 1 4 .ended (record 512 [(0, 4), (1, 4)]) []] }, 1,
    cmdOf 1 4 .ended (record 512 [(0, 4), (1, 4)]) [], 0, 4, by decide +kernel⟩⟩

theorem witness_WaymarksFromTheHost :
    (∃ (s : State) (fn : Nat) (w : Nat),
    fn ≠ 0 ∧ w < 4096 ∧ s.fnServed fn = true) ∧
    (∃ (s : State) (fn : Nat) (w : Nat),
    fn ≠ 0 ∧ w < 4096 ∧ s.fnServed fn = true ∧ (s.wm (fn - 1) w).ok = true) ∧
    (∃ (s : State) (fn : Nat) (w : Nat),
    fn ≠ 0 ∧ w < 4096 ∧ s.fnServed fn = true ∧ (s.wm (fn - 1) w).ok = true) ∧
    (∃ (s : State) (fn : Nat) (w : Nat) (x : BitVec 64) (c : Instr),
    fn ≠ 0 ∧ w < 4096 ∧ s.fnServed fn = true ∧ (s.wm (fn - 1) w).ok = false ∧ (c = .wmClearPoison fn w ∨ c = .wmAdd fn
      w x)) ∧
    (∃ (s : State) (fn : Nat) (w : Nat),
    fn ≠ 0 ∧ w < 4096 ∧ s.fnServed fn = true) ∧
    (∃ (s : State) (fn : Nat) (v : Word) (w : Pair 64),
    fn ≠ 0 ∧ s.fnServed fn = true ∧ getB v 31 = true ∧ w = s.wm (fn - 1) (getF v 0 12) ∧ w.ok = true) :=
  ⟨⟨live, 1, 3, by decide +kernel⟩,
   ⟨live.setWm 0 3 (pairOf (wmMake 8 true)), 1, 3, by decide +kernel⟩,
   ⟨live.setWm 0 3 (pairOf (wmMake (2 ^ 63 - 2) true)), 1, 3, by decide +kernel⟩,
   ⟨live.setWm 0 3 ⟨0, 0⟩, 1, 3, 5, .wmAdd 1 3 5, by decide +kernel⟩,
   ⟨live.setWm 0 3 (pairOf 77), 1, 3, by decide +kernel⟩,
   ⟨live.setReg 1 Reg.CQ_WATCH_LO 5, 1, 0x80000003, pairOf 0, by decide +kernel⟩⟩

theorem witness_HostWritesStayInsideThePartition :
    (∃ (s : State) (t : State) (fn : Nat) (off : Nat) (data : List Byte) (atomicOp : Bool) (b : Nat),
    exec (.hostWrite fn off data atomicOp) s = .next t ∧ t.byte b ≠ s.byte b ∧ (t.byte b ≠ (s.hostTurns (s.apAddr fn
      off) data.length).byte b ∨ ∀ col, s.burstWaits col = false)) ∧
    (∃ (s : State) (t : State) (fn : Nat) (off : Nat) (data : List Byte) (atomicOp : Bool),
    exec (.hostWrite fn off data atomicOp) s = .next t ∧ (atomicOp = true ∨ s.regB fn (Reg.BW_AP + 4 * (off / 2 ^ 30))
      31 = false ∨ (cut .far (s.apAddr fn off) data.length).2 ≠ 0 ∨ s.inArena (s.apAddr fn off) data.length = true ∨
      s.inImage (s.apAddr fn off) data.length = true)) :=
  ⟨by refine ⟨aperture, after aperture (.hostWrite 1 5 [7, 8] false), 1, 5, [7, 8], false, 0x10000000006, rfl, ?_,
    Or.inl (by decide +kernel)⟩ <;> decide +kernel,
   by refine ⟨aperture, after aperture (.hostWrite 1 5 [7, 8] true), 1, 5, [7, 8], true, rfl, ?_⟩ <;> decide +kernel⟩

theorem witness_HostAccessesThroughApertures :
    (∃ (s : State) (fn : Nat) (off : Nat) (data : List Byte),
    fn ≠ 0 ∧ s.fnServed fn = true ∧ off + data.length ≤ 2 ^ 34 ∧ s.barRefusal fn off data.length true false = 0 ∧
      s.ecc = [] ∧ (∀ col, s.burstWaits col = false)) ∧
    (∃ (s : State) (fn : Nat) (off : Nat) (len : Nat),
    fn ≠ 0 ∧ s.fnServed fn = true ∧ off + len ≤ 2 ^ 34 ∧ s.barRefusal fn off len false false = 0 ∧ s.ecc = [] ∧
      s.stale = [] ∧ (∀ col, s.burstWaits col = false)) ∧
    (∃ (s : State) (fn : Nat) (off : Nat) (data : List Byte) (c : Instr),
    fn ≠ 0 ∧ s.fnServed fn = true ∧ off + data.length ≤ 2 ^ 34 ∧ (s.mapped (s.apAddr fn off) data.length = false ∨
      s.owned (fn - 1) (s.apAddr fn off) data.length = false) ∧ (c = .hostWrite fn off data false ∨ c = .hostRead fn
      off data.length false)) :=
  ⟨by refine ⟨aperture, 1, 61, [1, 2, 3, 4, 5], ?_, ?_, ?_, ?_, ?_,
    noBursts (by decide +kernel) (by decide +kernel) (by decide +kernel)⟩ <;> decide +kernel,
   by refine ⟨aperture.store 0x10000000040 [1, 2, 3], 1, 60, 6, ?_, ?_, ?_, ?_, ?_, by decide +kernel,
    noBursts (by decide +kernel) (by decide +kernel) (by decide +kernel)⟩ <;> decide +kernel,
   ⟨withRegs live [(1, Reg.BW_AP, 0x80000000 + 0x600000)], 1, 60, [1], .hostWrite 1 60 [1] false,
    by decide +kernel⟩⟩

theorem witness_CompatDecodingIsOneToOne :
    (∃ (a : Nat),
    0x030000000000 ≤ a ∧ a < 0x050000000000) ∧
    (∃ (b : Nat),
    0x010000000000 ≤ b ∧ b < 0x030000000000) ∧
    (∃ (a : Nat),
    0x030000000000 ≤ a ∧ a < 0x050000000000) :=
  ⟨⟨0x036001234A40, by decide +kernel⟩,
   ⟨0x017000091A40, by decide +kernel⟩,
   ⟨0x036001234A40, by decide +kernel⟩⟩

theorem witness_ObjectTableWindow :
    (∃ (s : State) (fn : Nat) (off : Nat) (bs : List Byte) (v : BitVec 256),
    fn ≠ 0 ∧ s.fnServed fn = true ∧ (bs.length = 4 ∨ bs.length = 8) ∧ off % bs.length = 0 ∧ off + bs.length ≤ 0x8000 ∧
      v = BitVec.ofNat 256 (leNat (patch (leBytes 32
      (match s.objStage.find? (fun e : Nat × (Nat × BitVec 256) => e.1 == fn) with | some (_, j, w) => if j = off / 32 then w else s.obj (fn - 1) (off / 32) | none => s.obj (fn - 1) (off / 32)).toNat)
      (off % 32) bs))) :=
  by refine ⟨live, 1, 60, [1, 2, 3, 4], _, ?_, ?_, ?_, ?_, ?_, rfl⟩ <;> decide +kernel

theorem witness_FarWindowEntries :
    (∃ (s : State),
    s.pf0 = true ∧ farBad s.farWords = true) ∧
    (∃ (s : State),
    s.pf0 = true ∧ farBad s.farWords = false) ∧
    (∃ (s : State) (j : Nat),
    s.pf0 = true ∧ j < 4 ∧ (s.farEntry (s.regF 0 Reg.MT_FAR_SEL 0 8)).ok = true) ∧
    (∃ (s : State) (j : Nat),
    s.pf0 = true ∧ j < 4 ∧ (s.farEntry (s.regF 0 Reg.MT_FAR_SEL 0 8)).ok = false) :=
  ⟨⟨live.setReg 0 Reg.MT_FAR_W 0x300, by decide +kernel⟩,
   ⟨withRegs live [(0, Reg.MT_FAR_W, 0x100), (0, Reg.MT_FAR_SEL, 4)], by decide +kernel⟩,
   ⟨live.setFar 0 (pairOf 0x123456789ABCDEF0100), 1, by decide +kernel⟩,
   ⟨live.setFar 0 ⟨1, 0⟩, 1, by decide +kernel⟩⟩

theorem witness_SequencesOpenAndClose :
    (∃ (s : State) (id : Nat) (c : Cmd),
    s.starting? id 1 = some c ∧ dOp c.desc = 1 ∧ s.awake = true ∧ openOk c.desc = true ∧ s.adrift = false ∧ apPos
      c.desc < 4194304 ∧ apPos c.desc / 1024 + apCount c.desc ≤ 4096 ∧ s.dir? c.key = none ∧ s.classAllowed c.part
      (s.classFor c.part (apClass c.desc)) = true ∧ s.resident (some c.part) < 16 * recField (s.entryVal c.part) 56 2
      ∧ s.resident none < 65536) ∧
    (∃ (s : State) (id : Nat) (c : Cmd),
    s.starting? id 1 = some c ∧ dOp c.desc = 1 ∧ s.awake = true ∧ openOk c.desc = true ∧ s.adrift = true) ∧
    (∃ (s : State) (id : Nat) (c : Cmd) (v : BitVec 256),
    s.starting? id 1 = some c ∧ dOp c.desc = 2 ∧ s.awake = true ∧ closeOk c.desc = true ∧ apZeros c.desc = true ∧
      s.adrift = false ∧ s.openEntry c.key = some v ∧ (∀ h ∈ s.holds, h.key ≠ c.key) ∧ s.kindles = []) ∧
    (∃ (s : State) (k : DirKey) (d : Dir) (v : BitVec 256) (id : Nat) (c : Cmd),
    s.dir? k = some d ∧ d.val? = some v ∧ deState v = 2 ∧ d.closer = some id ∧ s.cmd? id = some c ∧ c.phase ≠ .ended ∧
      s.keyBusy k = false) ∧
    (∃ (s : State) (k : DirKey),
    s.keyBusy k = true) :=
  ⟨⟨{ arena with cmds := [cmdOf 1 1 .ready (apDesc 1 0 15 0 0) []] }, 1,
    cmdOf 1 1 .ready (apDesc 1 0 15 0 0) [], by decide +kernel⟩,
   ⟨{ arena.setReg 0 Reg.FT_STAT 4 with cmds := [cmdOf 1 1 .ready (apDesc 1 0 15 0 0) []] }, 1,
    cmdOf 1 1 .ready (apDesc 1 0 15 0 0) [], by decide +kernel⟩,
   ⟨opened (cmdOf 1 1 .ready (apDesc 2 0 0 0 0) []) 0, 1, cmdOf 1 1 .ready (apDesc 2 0 0 0 0) [], entryOf 0 1,
    by decide +kernel⟩,
   ⟨{ opened (cmdOf 1 1 .running (apDesc 2 0 0 0 0) []) 0 with dir := [{ dirOf (entryOf 0 2) (ownOf 1) with closer := some 1 }] },
    ⟨0, 3, 0⟩, { dirOf (entryOf 0 2) (ownOf 1) with closer := some 1 }, entryOf 0 2, 1,
    cmdOf 1 1 .running (apDesc 2 0 0 0 0) [], by decide +kernel⟩,
   ⟨{ live with reqs := [req0] }, ⟨0, 3, 0⟩, by decide +kernel⟩⟩

theorem witness_AppendsPublishInOrder :
    (∃ (s : State) (u : State) (id : Nat) (c : Cmd) (v : BitVec 256),
    s.starting? id 1 = some c ∧ dOp c.desc = 0 ∧ s.awake = true ∧ (∀ h ∈ s.holds, h.key ≠ c.key) ∧ (s.runCmd
      id).appendHead c = (u, 0, v) ∧ u.endMoves.appendFits c v) ∧
    (∃ (s : State) (u : State) (id : Nat) (c : Cmd) (v : BitVec 256),
    s.starting? id 1 = some c ∧ dOp c.desc = 0 ∧ s.awake = true ∧ (∀ h ∈ s.holds, h.key ≠ c.key) ∧ (s.runCmd
      id).appendHead c = (u, 0, v) ∧ dePub v < apPos c.desc) ∧
    (∃ (s : State) (u : State) (id : Nat) (c : Cmd) (v : BitVec 256),
    s.starting? id 1 = some c ∧ dOp c.desc = 0 ∧ s.awake = true ∧ (∀ h ∈ s.holds, h.key ≠ c.key) ∧ (s.runCmd
      id).appendHead c = (u, 0, v) ∧ apPos c.desc ≤ dePub v ∧ (∃ f ∈ pagesOf 1024 (apPos c.desc) (apPos c.desc +
      apCount c.desc), u.droppedIn c.key (f / 1024) = true)) ∧
    (∃ (s : State) (id : Nat) (c : Cmd),
    s.starting? id 1 = some c ∧ dOp c.desc = 0 ∧ s.awake = true ∧ (∀ h ∈ s.holds, h.key ≠ c.key) ∧ apOk c = false) ∧
    (∃ (s : State) (id : Nat) (c : Cmd),
    s.starting? id 1 = some c ∧ dOp c.desc = 0 ∧ s.awake = true ∧ (∀ h ∈ s.holds, h.key ≠ c.key) ∧ apOk c = true ∧
      apFlags c.desc = 1 ∧ s.adrift = true) ∧
    (∃ (s : State) (id : Nat) (c : Cmd) (h : Hold) (d : Dir) (v : BitVec 256),
    s.holds.find? (fun h => h.cmd == id) = some h ∧ s.cmd? id = some c ∧ c.id = id ∧ h.key = c.key ∧ h.queued = true ∧
      h.behind = false ∧ s.mayRelease h = true ∧ s.awake = true ∧ c.phase = .running ∧ s.dir? c.key = some d ∧ d.a.ok
      = true ∧ d.b.ok = true ∧ d.a.val = v ∧ deState v = 1 ∧ { s with holds := s.holds.filter (·.cmd != id)
      }.endMoves.appendFits c v) ∧
    (∃ (s : State) (id : Nat) (c : Cmd) (h : Hold),
    s.holds.find? (fun h => h.cmd == id) = some h ∧ s.cmd? id = some c ∧ s.mayRelease h = false) ∧
    (∃ (s : State) (id : Nat) (c : Cmd) (h : Hold),
    s.holds.find? (fun h => h.cmd == id) = some h ∧ s.cmd? id = some c ∧ c.phase = .running ∧ h.queued = true ∧
      h.arrived + 64 ≤ s.ms) :=
  ⟨by refine ⟨opened (apCmd .ready 0) 0, (((opened (apCmd .ready 0) 0).runCmd 1).appendHead (apCmd .ready 0)).1, 1,
    apCmd .ready 0, entryOf 0 1, ?_, ?_, ?_, ?_, ?_, fits0⟩ <;> decide +kernel,
   ⟨opened (apCmd .ready 8) 0, (((opened (apCmd .ready 8) 0).runCmd 1).appendHead (apCmd .ready 8)).1, 1,
    apCmd .ready 8, entryOf 0 1, by decide +kernel⟩,
   ⟨{ opened (apCmd .ready 0) 0 with dir := [{ dirOf (entryOf 8 1) (ownOf 1) with dropped := [0] }] },
    (({ opened (apCmd .ready 0) 0 with dir := [{ dirOf (entryOf 8 1) (ownOf 1) with dropped := [0] }] }.runCmd 1).appendHead (apCmd .ready 0)).1,
    1, apCmd .ready 0, entryOf 8 1, by decide +kernel⟩,
   ⟨opened (cmdOf 1 1 .ready (apDesc 0 1 0 0 1) []) 0, 1, cmdOf 1 1 .ready (apDesc 0 1 0 0 1) [],
    by decide +kernel⟩,
   ⟨(opened (apCmd .ready 0) 0).setReg 0 Reg.FT_STAT 4, 1, apCmd .ready 0, by decide +kernel⟩,
   by refine ⟨{ opened (apCmd .running 0) 0 with holds := [hold0] }, 1, apCmd .running 0, hold0,
    dirOf (entryOf 0 1) (ownOf 1), entryOf 0 1, ?_, ?_, ?_, ?_, ?_, by decide +kernel, ?_, ?_, ?_, ?_, ?_,
    by decide +kernel, ?_, ?_, fits1⟩ <;> decide +kernel,
   ⟨{ opened (apCmd .running 8) 0 with holds := [{ hold0 with pos := 8 }] }, 1, apCmd .running 8,
    { hold0 with pos := 8 }, by decide +kernel⟩,
   ⟨at_ { opened (apCmd .running 8) 0 with holds := [{ hold0 with pos := 8 }] } (70 * 2048), 1,
    apCmd .running 8, { hold0 with pos := 8 }, by decide +kernel⟩⟩

theorem witness_PagesAreCodedFreedAndDropped :
    (∃ (s : State) (p : PageRef) (x : Slot) (v : BitVec 256) (t0 : Trailer) (m : Nat),
    s.liveSlot p.part p.seq p.layer p.kv p.firstPos = some x ∧ s.openEntry ⟨p.part, p.seq, p.layer⟩ = some v ∧ x.full
      = some m ∧ s.trailer x = some t0 ∧ t0.coded = false ∧ s.awake = true ∧ s.regB 0 Reg.PG_CINDER_CFG 0 = false) ∧
    (∃ (s : State) (p : PageRef) (x : Slot) (v : BitVec 256) (t0 : Trailer) (m : Nat) (a : Nat) (o : Nat) (str : List
      Byte) (n : Nat) (d : Nat) (w : Nat),
    s.liveSlot p.part p.seq p.layer p.kv p.firstPos = some x ∧ s.openEntry ⟨p.part, p.seq, p.layer⟩ = some v ∧ x.full
      = some m ∧ s.trailer x = some t0 ∧ t0.coded = false ∧ s.awake = true ∧ s.regB 0 Reg.PG_CINDER_CFG 0 = true ∧
      s.ecc = [] ∧ n = classTokens (deClass v) ∧ d = headDim (deDim v) ∧ w = rowBytes (deFmt v) d ∧ str = cinderBuilt
      0 (s.bytes x.addr (2 * n * w)) ∧ ceilDiv str.length 256 + s.regF 0 Reg.PG_CINDER_CFG 8 8 ≤ dataRaw n w / 256 ∧
      s.usage p.part + (256 * ceilDiv str.length 256 + bandBytes n d + 512) ≤ s.quota p.part ∧ s.moves = [] ∧
      s.slotBusy x = false ∧ (s.opens x.addr x.size).takeArea p.part (256 * ceilDiv str.length 256 + bandBytes n d +
      512) (areaOf x.addr) = some (s.opens x.addr x.size, a, o)) ∧
    (∃ (s : State) (p : PageRef),
    (∀ x ∈ s.slots, x.part = p.part → x.seq = p.seq → x.use = .old → s.slotBusy x = false)) ∧
    (∃ (s : State) (p : Nat) (q : Nat),
    (∀ x ∈ s.slots, x.part = p → x.seq = q → x.use = .condemned → s.slotBusy x = false)) ∧
    (∃ (s : State) (p : Nat) (q : Nat) (n : Nat) (x : Slot),
    x ∈ s.slots ∧ x.part = p ∧ x.seq = q ∧ x.firstPos / 1024 = n ∧ x.use = .condemned ∧ s.slotBusy x = true) ∧
    (∃ (s : State) (p : Nat),
    s.bg = [] ∧ (s.usage p * 256 ≤ s.quota p * s.regF 0 Reg.PR_CFG 24 8 ∨ s.regF 0 Reg.PR_CFG 8 8 = 0)) ∧
    (∃ (s : State) (p : Nat) (u : Unit') (us : List Unit'),
    s.bg = [] ∧ 0 < s.regF 0 Reg.PR_CFG 8 8 ∧ s.quota p * s.regF 0 Reg.PR_CFG 24 8 < s.usage p * 256 ∧ s.quota p *
      s.regF 0 Reg.PR_CFG 16 8 < s.usageKept p * 256 ∧ s.candidates p = u :: us) ∧
    (∃ (s : State),
    s.pf0 = true) ∧
    (∃ (s : State) (k : DirKey) (d : Dir) (j : Nat),
    s.lookup = some ⟨k⟩ ∧ s.dir? k = some d ∧ d.a.ok = true ∧ d.b.ok = true ∧ j < 8) ∧
    (∃ (s : State) (k : DirKey) (j : Nat),
    s.lookup = some ⟨k⟩ ∧ s.dir? k = none ∧ j < 8) :=
  ⟨⟨paged.setReg 0 Reg.PG_CINDER_CFG 0, ⟨0, 3, 0, 0, 0⟩, slot0, entryOf 16 1, trailer0, 5, by decide +kernel⟩,
   by refine ⟨coder, ⟨0, 3, 0, 0, 0⟩, slot0, entryOf 16 1, trailer0, 5, 0x10000000A00, 0,
    cinderBuilt 0 (List.replicate 2048 0), 16, 64, 64, ?_, ?_, ?_, ?_, ?_, by decide +kernel, ?_, ?_, ?_, ?_,
    ?_, congrArg (cinderBuilt 0) page_zeros.symm, by rw [stream_zeros]; decide +kernel,
    by rw [stream_zeros]; decide +kernel, ?_, ?_, by rw [stream_zeros]; decide +kernel⟩ <;> decide +kernel,
   ⟨paged, ⟨0, 3, 0, 0, 0⟩, by decide +kernel⟩,
   ⟨paged, 0, 3, by decide +kernel⟩,
   ⟨{ paged with slots := [{ slot0 with use := .condemned }], reqs := [{ req0 with jobs := [{ job0 with phase := .running, pages := [slot0] }] }] },
    0, 3, 0, { slot0 with use := .condemned }, by decide +kernel⟩,
   ⟨paged, 0, by decide +kernel⟩,
   by refine ⟨droppy, 0, ⟨3, 0, [268435456, 0, 0, 3, 4096], 2560, [(0, 2560)]⟩, [], ?_, ?_, ?_, ?_, droppy_candidates⟩ <;> decide +kernel,
   ⟨live, by decide +kernel⟩,
   ⟨{ paged with lookup := some ⟨⟨0, 3, 0⟩⟩ }, ⟨0, 3, 0⟩, dirOf (entryOf 16 1) (ownOf 1), 6, by decide +kernel⟩,
   ⟨{ paged with lookup := some ⟨⟨0, 4, 0⟩⟩ }, ⟨0, 4, 0⟩, 6, by decide +kernel⟩⟩

theorem witness_HaulMovesBytes :
    (∃ (s : State) (u : State) (id : Nat) (c : Cmd) (so : BitVec 256) (dO : BitVec 256),
    s.starting? id 4 = some c ∧ s.awake = true ∧ s.ecc = [] ∧ (s.runCmd id).haulCheck c = (u, 0) ∧ so = s.obj c.part
      (haSrcObj c.desc) ∧ dO = s.obj c.part (haDstObj c.desc) ∧ haulMode (haMode c.desc) (haBufs c.desc) (tileSize so)
      (objSize dO - haDstOff c.desc) (haLen c.desc) = 1 ∧ (cut .far (objBase so + haSrcOff c.desc) (haLen c.desc)).2 =
      0 ∧ (cut .far (objBase dO + haDstOff c.desc) (min (objSize dO - haDstOff c.desc) (haLen c.desc))).2 = 0) ∧
    (∃ (s : State) (u : State) (id : Nat) (c : Cmd) (st : Nat),
    s.starting? id 4 = some c ∧ s.awake = true ∧ (s.runCmd id).haulCheck c = (u, st) ∧ st ≠ 0) ∧
    (∃ (s : State) (u : State) (id : Nat) (c : Cmd) (so : BitVec 256) (dO : BitVec 256),
    s.starting? id 4 = some c ∧ s.awake = true ∧ (s.runCmd id).haulCheck c = (u, 0) ∧ so = s.obj c.part (haSrcObj
      c.desc) ∧ dO = s.obj c.part (haDstObj c.desc) ∧ haulMode (haMode c.desc) (haBufs c.desc) (tileSize so) (objSize
      dO - haDstOff c.desc) (haLen c.desc) = 2) ∧
    (∃ (s : State) (id : Nat) (c : Cmd) (h : Haul),
    s.haul? id = some h ∧ s.cmd? id = some c ∧ h.tile = true ∧ h.started < haLen c.desc ∧ h.reads = [] ∧ h.writes = []
      ∧ h.srcFar = [] ∧ h.dstFar = [] ∧ h.started % h.tileBytes = 0 ∧ 0 < h.tileBytes ∧ s.ecc = [] ∧ (s.wm c.part
      (haFree c.desc)).ok = true ∧ h.baseFree + h.started / h.tileBytes + 1 ≤ wmCount (s.wm c.part (haFree
      c.desc)).val + haBufs c.desc) ∧
    (∃ (s : State) (id : Nat) (c : Cmd) (h : Haul),
    s.haul? id = some h ∧ s.cmd? id = some c ∧ h.tile = true ∧ h.started % h.tileBytes = 0 ∧ (s.wm c.part (haFree
      c.desc)).ok = true ∧ wmCount (s.wm c.part (haFree c.desc)).val + haBufs c.desc < h.baseFree + h.started /
      h.tileBytes + 1) ∧
    (∃ (s : State) (id : Nat) (c : Cmd) (h : Haul),
    s.haul? id = some h ∧ s.cmd? id = some c ∧ c.phase ≠ .ended ∧ (h.srcFar ≠ [] ∨ h.dstFar ≠ [])) :=
  ⟨⟨hauler (cmdOf 1 4 .ready (haulDesc 1 512) []),
    (((hauler (cmdOf 1 4 .ready (haulDesc 1 512) [])).runCmd 1).haulCheck (cmdOf 1 4 .ready (haulDesc 1 512) [])).1,
    1, cmdOf 1 4 .ready (haulDesc 1 512) [],
    (hauler (cmdOf 1 4 .ready (haulDesc 1 512) [])).obj (cmdOf 1 4 .ready (haulDesc 1 512) []).part (haSrcObj (cmdOf 1 4 .ready (haulDesc 1 512) []).desc),
    (hauler (cmdOf 1 4 .ready (haulDesc 1 512) [])).obj (cmdOf 1 4 .ready (haulDesc 1 512) []).part (haDstObj (cmdOf 1 4 .ready (haulDesc 1 512) []).desc),
    by decide +kernel⟩,
   ⟨hauler (cmdOf 1 4 .ready (haulDesc 1 768) []),
    (((hauler (cmdOf 1 4 .ready (haulDesc 1 768) [])).runCmd 1).haulCheck (cmdOf 1 4 .ready (haulDesc 1 768) [])).1,
    1, cmdOf 1 4 .ready (haulDesc 1 768) [], 0x0D, by decide +kernel⟩,
   ⟨hauler (cmdOf 1 4 .ready (haulDesc 2 768) []),
    (((hauler (cmdOf 1 4 .ready (haulDesc 2 768) [])).runCmd 1).haulCheck (cmdOf 1 4 .ready (haulDesc 2 768) [])).1,
    1, cmdOf 1 4 .ready (haulDesc 2 768) [],
    (hauler (cmdOf 1 4 .ready (haulDesc 2 768) [])).obj (cmdOf 1 4 .ready (haulDesc 2 768) []).part (haSrcObj (cmdOf 1 4 .ready (haulDesc 2 768) []).desc),
    (hauler (cmdOf 1 4 .ready (haulDesc 2 768) [])).obj (cmdOf 1 4 .ready (haulDesc 2 768) []).part (haDstObj (cmdOf 1 4 .ready (haulDesc 2 768) []).desc),
    by decide +kernel⟩,
   ⟨{ hauler (cmdOf 1 4 .running (haulDesc 2 768) []) with hauls := [haul0] }, 1,
    cmdOf 1 4 .running (haulDesc 2 768) [], haul0, by decide +kernel⟩,
   ⟨{ hauler (cmdOf 1 4 .running (haulDesc 2 768) []) with hauls := [{ haul0 with started := 512 }] }, 1,
    cmdOf 1 4 .running (haulDesc 2 768) [], { haul0 with started := 512 }, by decide +kernel⟩,
   ⟨{ hauler (cmdOf 1 4 .running (haulDesc 2 768) []) with hauls := [{ haul0 with srcFar := [(0, 0)] }] }, 1,
    cmdOf 1 4 .running (haulDesc 2 768) [], { haul0 with srcFar := [(0, 0)] }, by decide +kernel⟩⟩

theorem witness_RowsAndBurstsOfTheColumns :
    (∃ (s : State) (u : State) (id : Nat) (c : Cmd) (st : Nat),
    s.starting? id 5 = some c ∧ s.awake = true ∧ s.rowCheck c = (u, st) ∧ st ≠ 0) ∧
    (∃ (s : State) (u : State) (id : Nat) (c : Cmd),
    s.starting? id 5 = some c ∧ s.awake = true ∧ s.rowCheck c = (u, 0) ∧ s.rowWaits c.desc = false) ∧
    (∃ (s : State) (col : Nat) (i : Nat) (j : RowJob) (c : Cmd),
    s.awake = true ∧ s.rows = [j] ∧ s.cmd? j.cmd = some c ∧ c.phase = .running ∧ j.left = [i] ∧ homeColumn (roDst
      c.desc + 1024 * i) = col ∧ roRaw c.desc = false ∧ roCrc c.desc = false ∧ j.failed = false ∧ s.ecc = [] ∧
      s.rowTurn col = true) ∧
    (∃ (s : State) (col : Nat) (k : Nat),
    s.awake = true ∧ s.awaitingOn col = some k) ∧
    (∃ (s : State) (col : Nat) (j : RowJob),
    s.awake = true ∧ s.awaitingOn col = none ∧ s.rowOn col = some j ∧ s.rowTurn col = false) ∧
    (∃ (s : State) (col : Nat),
    s.burstWaits col = false) ∧
    (∃ (s : State) (col : Nat),
    s.awake = true ∧ s.planEmpty col = true ∧ s.rowTurn col = true) ∧
    (∃ (s : State) (col : Nat),
    (s.planEmpty col = false ∨ s.rowTurn col = false)) ∧
    (∃ (s : State) (col : Nat) (k : Nat),
    s.awake = true ∧ s.awaitingOn col = some k) ∧
    (∃ (s : State) (col : Nat) (b : Scrub),
    s.awake = true ∧ s.scrub.find? (fun x => x.1 == col) = some (col, b) ∧ 0 < b.left ∧ s.fenced col = false ∧
      b.row.ok = true ∧ s.remapDue = [] ∧ s.ecc = [] ∧ s.rowTurn col = true) ∧
    (∃ (s : State) (col : Nat) (m : Move) (x : Slot),
    s.awake = true ∧ s.rowTurn col = true ∧ s.ecc = [] ∧ (s.moves.find? (fun m => m.col == col) = some m ∨
      s.moves.find? (fun m => m.col == col) = none ∧ s.nextMove col = some m) ∧ s.moveOf m = some x ∧ m.done ≤ x.size
      ∧ x.size ≤ m.done + moveLimit (m.src + m.done)) ∧
    (∃ (s : State) (col : Nat) (m : Move) (x : Slot),
    s.awake = true ∧ s.rowTurn col = true ∧ s.ecc = [] ∧ (s.moves.find? (fun m => m.col == col) = some m ∨
      s.moves.find? (fun m => m.col == col) = none ∧ s.nextMove col = some m) ∧ s.moveOf m = some x ∧ m.done +
      moveLimit (m.src + m.done) < x.size) ∧
    (∃ (s : State) (col : Nat),
    s.rowTurn col = false) :=
  ⟨⟨liveCmd (cmdOf 1 5 .ready (record 512 [(0, 5), (16, 9)]) []),
    ((liveCmd (cmdOf 1 5 .ready (record 512 [(0, 5), (16, 9)]) [])).rowCheck (cmdOf 1 5 .ready (record 512 [(0, 5), (16, 9)]) [])).1,
    1, cmdOf 1 5 .ready (record 512 [(0, 5), (16, 9)]) [], 0x0C, by decide +kernel⟩,
   ⟨liveCmd (rowCmd .ready), ((liveCmd (rowCmd .ready)).rowCheck (rowCmd .ready)).1, 1, rowCmd .ready,
    by decide +kernel⟩,
   ⟨{ liveCmd (rowCmd .running) with rows := [⟨1, [0], 0, false, false⟩] }, 0, 0, ⟨1, [0], 0, false, false⟩,
    rowCmd .running, by decide +kernel⟩,
   ⟨{ live with ecc := [(0x10000000000 / 8, .awaiting)] }, 0, 0x10000000000 / 8, by decide +kernel⟩,
   ⟨{ liveCmd (rowCmd .running) with rows := [⟨1, [0], 0, false, false⟩], reqs := [req0] }, 0,
    ⟨1, [0], 0, false, false⟩, by decide +kernel⟩,
   ⟨live, 0, by decide +kernel⟩,
   ⟨{ live with recode := [3, 5, 4194309] }, 0, by decide +kernel⟩,
   ⟨{ live with reqs := [req0] }, 0, by decide +kernel⟩,
   ⟨{ live with ecc := [(0x10000000000 / 8, .awaiting)] }, 0, 0x10000000000 / 8, by decide +kernel⟩,
   ⟨{ live with scrub := [(0, ⟨pairOf 8, 2⟩)] }, 0, ⟨pairOf 8, 2⟩, by decide +kernel⟩,
   by refine ⟨{ paged with moves := [⟨0, 0x10000000000, 0x10000004000, 0⟩] }, 0, ⟨0, 0x10000000000, 0x10000004000, 0⟩,
    slot0, ?_, ?_, ?_, Or.inl (by decide +kernel), ?_⟩ <;> decide +kernel,
   by refine ⟨{ paged with slots := [{ slot0 with size := 16384 }], moves := [⟨0, 0x10000000000, 0x10000008000, 0⟩] },
    0, ⟨0, 0x10000000000, 0x10000008000, 0⟩, { slot0 with size := 16384 }, ?_, ?_, ?_,
    Or.inl (by decide +kernel), ?_⟩ <;> decide +kernel,
   ⟨{ live with reqs := [req0] }, 0, by decide +kernel⟩⟩

theorem witness_AttendIsAcceptedAndAnswered :
    (∃ (s : State) (u : State) (id : Nat) (c : Cmd) (st : Nat),
    s.starting? id 0 = some c ∧ (s.runCmd id).attendCheck c = (u, st) ∧ st ≠ 0) ∧
    (∃ (s : State) (u : State) (id : Nat) (c : Cmd),
    s.starting? id 0 = some c ∧ (s.runCmd id).attendCheck c = (u, 0) ∧ atFlags c.desc % 2 = 1 ∧ (∀ q ∈ cutRows
      (queryWidth (atFmt c.desc)) (atGroup c.desc) (sliceB c.payload (atAddr c.desc) (atLen c.desc)), rowFinite
      (queryFmt (atFmt c.desc % 8)) (headDim (atFmt c.desc / 8)) q = true)) ∧
    (∃ (s : State) (id : Nat) (r : Req) (c : Cmd),
    s.req? id = some r ∧ s.cmd? id = some c ∧ c.id = id ∧ r.kindle = none ∧ c.phase = .running ∧ s.reqDone r = true) ∧
    (∃ (s : State) (id : Nat) (r : Req),
    s.req? id = some r ∧ s.reqDone r = false) :=
  ⟨⟨opened { atCmd .ready 4 with desc := atDesc 8 4 } 16,
    (((opened { atCmd .ready 4 with desc := atDesc 8 4 } 16).runCmd 1).attendCheck { atCmd .ready 4 with desc := atDesc 8 4 }).1,
    1, { atCmd .ready 4 with desc := atDesc 8 4 }, 0x0C, by decide +kernel⟩,
   ⟨opened (atCmd .ready 4) 16, (((opened (atCmd .ready 4) 16).runCmd 1).attendCheck (atCmd .ready 4)).1, 1,
    atCmd .ready 4, by decide +kernel⟩,
   ⟨{ liveCmd (atCmd .running 4) with reqs := [{ req0 with jobs := [{ job0 with phase := .done, scoreOk := true, valueOk := true, weightOk := true }], blks := [{ blk0 with sent := true }] }] },
    1,
    { req0 with jobs := [{ job0 with phase := .done, scoreOk := true, valueOk := true, weightOk := true }], blks := [{ blk0 with sent := true }] },
    atCmd .running 4, by decide +kernel⟩,
   ⟨{ live with reqs := [req0] }, 1, req0, by decide +kernel⟩⟩

theorem witness_SpanJobsRunAndAreChecked :
    (∃ (s : State) (id : Nat) (span : Nat) (r : Req) (j : Job),
    s.req? id = some r ∧ r.job? span = some j ∧ s.awake = true ∧ r.stride.isSome = true ∧ j.phase = .planned ∧
      j.notBefore ≤ s.ms ∧ s.columnReady r j = true ∧ s.ecc = [] ∧ s.scratchEcc = []) ∧
    (∃ (s : State) (id : Nat) (span : Nat) (r : Req) (j : Job),
    s.req? id = some r ∧ r.job? span = some j ∧ (s.ms < j.notBefore ∨ s.columnReady r j = false ∨ r.stride = none)) ∧
    (∃ (s : State) (id : Nat) (span : Nat) (r : Req) (j : Job) (st : CheckStage),
    s.req? id = some r ∧ r.job? span = some j ∧ j.phase = .running ∧ j.before st = true ∧ j.res.event = none ∧ j.rerun
      = false ∧ s.scratchEcc = []) ∧
    (∃ (s : State) (id : Nat) (span : Nat) (r : Req) (j : Job) (st : CheckStage),
    s.req? id = some r ∧ r.job? span = some j ∧ j.phase = .running ∧ j.before st = true ∧ j.rerun = false ∧
      s.scratchEcc = [] ∧ r.isSealed = true ∧ j.overrun = false) ∧
    (∃ (s : State) (id : Nat) (span : Nat) (r : Req) (j : Job),
    s.req? id = some r ∧ r.job? span = some j ∧ j.phase = .running ∧ j.res.event = none ∧ (j.scoreOk = true ∨
      r.isSealed = false) ∧ j.overrun = false ∧ s.scratchEcc = []) ∧
    (∃ (s : State) (id : Nat) (span : Nat) (r : Req) (j : Job),
    s.req? id = some r ∧ r.job? span = some j ∧ j.phase ≠ .running) :=
  ⟨⟨{ paged with reqs := [{ req0 with jobs := [job0] }] }, 1, 0, { req0 with jobs := [job0] }, job0,
    by decide +kernel⟩,
   ⟨{ paged with reqs := [{ req0 with jobs := [{ job0 with notBefore := 9 }] }] }, 1, 0,
    { req0 with jobs := [{ job0 with notBefore := 9 }] }, { job0 with notBefore := 9 }, by decide +kernel⟩,
   ⟨{ live with reqs := [req0] }, 1, 0, req0, { job0 with phase := .running }, .score, by decide +kernel⟩,
   ⟨{ live with reqs := [req0] }, 1, 0, req0, { job0 with phase := .running }, .score, by decide +kernel⟩,
   ⟨{ live with reqs := [{ req0 with jobs := [{ job0 with phase := .running, scoreOk := true }] }] }, 1, 0,
    { req0 with jobs := [{ job0 with phase := .running, scoreOk := true }] },
    { job0 with phase := .running, scoreOk := true }, by decide +kernel⟩,
   ⟨{ live with reqs := [{ req0 with jobs := [job0] }] }, 1, 0, { req0 with jobs := [job0] }, job0,
    by decide +kernel⟩⟩

theorem witness_EmbersLeaveAndAreSealed :
    (∃ (s : State) (id : Nat) (i : Nat) (k : Nat) (r : Req) (b : Blk),
    s.req? id = some r ∧ r.blks[i]? = some b ∧ b.sent = false ∧ r.outcome = 8 ∧ r.stride.isSome = true ∧ b.spans.all
      r.spanReady = true ∧ r.conn = some k ∧ (s.conn k).st = .opened ∧ ((r.blockValue b s.draws).settle 0).2 = 0) ∧
    (∃ (s : State) (id : Nat) (i : Nat) (r : Req) (b : Blk),
    s.req? id = some r ∧ r.blks[i]? = some b ∧ (b.sent = true ∨ b.spans.all r.spanReady = false)) ∧
    (∃ (s : State) (n : Nat) (e : Sent) (r : Req) (k : Nat),
    s.sent.find? (fun e => e.id == n && e.early && e.verdict.isNone) = some e ∧ s.req? e.req = some r ∧ (∀ t ∈
      e.spans, ∃ j, r.job? t = some j ∧ j.phase = .done ∧ j.rerun = false ∧ j.scoreOk = true ∧ j.valueOk = true ∧
      j.weightOk = true) ∧ s.ms < e.left + 2 ∧ e.conn = some k ∧ e.hdr.ok = true) ∧
    (∃ (s : State) (n : Nat) (e : Sent) (r : Req) (j : Job),
    s.sent.find? (fun e => e.id == n && e.early && e.verdict.isNone) = some e ∧ s.req? e.req = some r ∧ (∃ t ∈
      e.spans, r.job? t = some j ∧ (j.phase ≠ .done ∨ j.rerun = true ∨ j.weightOk = false))) :=
  ⟨⟨{ linked live .opened with reqs := [{ req0 with jobs := [{ job0 with phase := .done, scoreOk := true, valueOk := true, weightOk := true }] }] },
    1, 0, 1,
    { req0 with jobs := [{ job0 with phase := .done, scoreOk := true, valueOk := true, weightOk := true }] },
    blk0, by decide +kernel⟩,
   ⟨{ linked live .opened with reqs := [req0] }, 1, 0, req0, blk0, by decide +kernel⟩,
   by refine ⟨{ linked live .opened with sent := [sent0], reqs := [{ req0 with isSealed := false, jobs := [{ job0 with phase := .done, scoreOk := true, valueOk := true, weightOk := true }] }] },
    1, sent0,
    { req0 with isSealed := false, jobs := [{ job0 with phase := .done, scoreOk := true, valueOk := true, weightOk := true }] },
    1, ?_, ?_,
    fun t h => ⟨{ job0 with phase := .done, scoreOk := true, valueOk := true, weightOk := true }, by simp [sent0] at h; subst h; decide +kernel⟩,
    ?_⟩ <;> decide +kernel,
   by refine ⟨{ linked live .opened with sent := [sent0], reqs := [{ req0 with isSealed := false }] }, 1, sent0,
    { req0 with isSealed := false }, { job0 with phase := .running }, ?_, ?_, ⟨0, by decide +kernel⟩⟩ <;> decide +kernel⟩

theorem witness_EmbersAndVerdictsArrive :
    (∃ (s : State) (tn : Nat) (h : BitVec 256) (body : List Byte),
    s.life ≠ .held ∧ ehTenant h = tn ∧ (ehKind h = 1 ∨ ehKind h = 2) ∧ ehVerdict h ≤ 3 ∧ (∀ r ∈ s.recv, r.id ≠ ehId h)
      ∧ s.mergeFor (ehTenant h) (ebTag body) = none ∧ (ehTenant h, ebTag body) ∉ s.mergesDone) ∧
    (∃ (s : State) (tn : Nat) (h : BitVec 256) (body : List Byte),
    s.life ≠ .held ∧ ehTenant h = tn ∧ (ehKind h = 1 ∨ ehKind h = 2) ∧ ehVerdict h = 3 ∧ (∀ r ∈ s.recv, r.id ≠ ehId h)
      ∧ s.mergeFor (ehTenant h) (ebTag body) = none ∧ (ehTenant h, ebTag body) ∈ s.mergesDone) ∧
    (∃ (h : BitVec 256) (c : BitVec 256),
    (⟨h, c⟩ : Pair 256).ok = false) ∧
    (∃ (s : State) (cn : Option Nat) (tn : Nat) (h : BitVec 256),
    s.life ≠ .held ∧ ehTenant h = tn ∧ ehKind h = 3 ∧ (ehVerdict h = 1 ∨ ehVerdict h = 2) ∧ s.recv? cn (ehId h) =
      none) ∧
    (∃ (s : State) (cn : Option Nat) (tn : Nat) (h : BitVec 256) (g : BitVec 256) (r : Recv),
    s.life ≠ .held ∧ ehTenant h = tn ∧ ehKind h = 3 ∧ ehVerdict h = 1 ∧ s.recv? cn (ehId h) = some r ∧ r.header? =
      some g ∧ ehVerdict g = 0 ∧ ehDigest g = ehDigest h ∧ r.verdict = none ∧ r.recalled = false ∧ r.discarded = false
      ∧ s.waitOver r = false) ∧
    (∃ (s : State) (cn : Option Nat) (tn : Nat) (h : BitVec 256) (g : BitVec 256) (r : Recv),
    s.life ≠ .held ∧ ehTenant h = tn ∧ ehKind h = 3 ∧ ehVerdict h = 1 ∧ s.recv? cn (ehId h) = some r ∧ r.header? =
      some g ∧ ehVerdict g = 0 ∧ r.verdict = none ∧ r.recalled = false ∧ r.discarded = false ∧ s.waitOver r = true) ∧
    (∃ (s : State) (n : Nat) (r : Recv),
    s.recv.find? (fun r => r.id == n && r.awaits && !r.recalled && s.waitOver r) = some r) ∧
    (∃ (s : State) (n : Nat) (r : Recv),
    s.recv.find? (fun r => r.id == n && r.hdr.isSome && r.merge.isNone && !r.discarded && decide (r.arrived + s.regF 0
      Reg.MG_CFG 8 8 ≤ s.ms)) = some r) :=
  ⟨by refine ⟨live, 5, emHdr 1 3, emBody, ?_, ?_, ?_, ?_, noneOf (by decide +kernel), ?_⟩ <;> decide +kernel,
   by refine ⟨{ live with mergesDone := [(5, 0x99)] }, 5, emHdr 1 3, emBody, ?_, ?_, ?_, ?_, noneOf (by decide +kernel),
    ?_⟩ <;> decide +kernel,
   ⟨emHdr 1 3, 0, by decide +kernel⟩,
   ⟨live, none, 5, emHdr 3 1, by decide +kernel⟩,
   ⟨{ live with recv := [{ recv0 0 with arrived := 5 }] }, none, 5, emHdr 3 1, emHdr 1 0,
    { recv0 0 with arrived := 5 }, by decide +kernel⟩,
   ⟨{ at_ live 1000000 with recv := [recv0 0] }, none, 5, emHdr 3 1, emHdr 1 0, recv0 0, by decide +kernel⟩,
   ⟨{ at_ live 1000000 with recv := [recv0 0] }, 0x0008_0000_0050_0000, recv0 0, by decide +kernel⟩,
   ⟨{ at_ live 1000000 with recv := [recv0 3] }, 0x0008_0000_0050_0000, recv0 3, by decide +kernel⟩⟩

theorem witness_MergesAreAcceptedAndFinish :
    (∃ (s : State) (u : State) (id : Nat) (c : Cmd) (st : Nat),
    s.starting? id 2 = some c ∧ (s.runCmd id).mergeCheck c = (u, st) ∧ st ≠ 0) ∧
    (∃ (s : State) (u : State) (id : Nat) (c : Cmd),
    s.starting? id 2 = some c ∧ (s.runCmd id).mergeCheck c = (u, 0) ∧ c.resHere = true ∧ (∀ m ∈ s.merges, m.id ≠ id) ∧
      s.numsUsed c.part s.ms < 16384 ∧ s.recv = []) ∧
    (∃ (s : State) (u : State) (id : Nat) (k : Nat) (c : Cmd) (x : Conn × List Nat),
    s.starting? id 2 = some c ∧ (s.runCmd id).mergeCheck c = (u, 0) ∧ c.resHere = false ∧ s.route c (mgDest c.desc) =
      (some k, false) ∧ (s.conn k).takeUnits [emberUnits (mgRoom c.desc)] [] = some x ∧ (∀ m ∈ s.merges, m.id ≠ id) ∧
      s.numsUsed c.part s.ms < 16384 ∧ s.recv = []) ∧
    (∃ (s : State) (u : State) (id : Nat) (c : Cmd),
    s.starting? id 2 = some c ∧ (s.runCmd id).mergeCheck c = (u, 0) ∧ c.resHere = false ∧ (s.route c (mgDest
      c.desc)).2 = true ∧ (∀ m ∈ s.merges, m.id ≠ id)) ∧
    (∃ (s : State) (id : Nat) (m : Merge) (a : Nat),
    s.merge? id = some m ∧ m.accepted = some a ∧ m.kindle = none ∧ s.mergeOpen m = true ∧ a + m.wait ≤ s.ms ∧
      hasInputs m (s.inputsOf m) = false) ∧
    (∃ (s : State) (id : Nat) (m : Merge) (a : Nat),
    s.merge? id = some m ∧ m.accepted = some a ∧ s.ms < a + m.wait) ∧
    (∃ (s : State) (id : Nat) (k : Nat) (m : Merge),
    s.merge? id = some m ∧ m.kindle = none ∧ s.mergeOpen m = true ∧ m.outcome < 6 ∧ m.inputs = [] ∧ m.toHost = false ∧
      m.conn = some k) ∧
    (∃ (s : State) (id : Nat) (k : Nat) (m : Merge) (ins : List Recv) (hs : List Head),
    s.merge? id = some m ∧ m.kindle = none ∧ s.mergeOpen m = true ∧ 6 ≤ m.outcome ∧ ins = s.inputsOf m ∧ hasInputs m
      ins = true ∧ (∀ r ∈ ins, r.sealedOk = true) ∧ (mergeMissing m ins).1 = [] ∧ (mergeMissing m ins).2 = [] ∧
      ((mergeFinal m ins).1.settle 0).2 = 0 ∧ (mergeFinal m ins).1.val = some hs ∧ m.toHost = false ∧ m.conn = some k)
      ∧
    (∃ (s : State) (id : Nat) (m : Merge),
    s.merge? id = some m ∧ 6 ≤ m.outcome ∧ hasInputs m (s.inputsOf m) = false) :=
  ⟨⟨liveCmd (cmdOf 1 2 .ready (mgDesc 17) []),
    (((liveCmd (cmdOf 1 2 .ready (mgDesc 17) [])).runCmd 1).mergeCheck (cmdOf 1 2 .ready (mgDesc 17) [])).1,
    1, cmdOf 1 2 .ready (mgDesc 17) [], 0x0C, by decide +kernel⟩,
   ⟨((liveCmd (cmdOf 1 2 .ready (mgDesc 1) [])).setObj 0 0 (objOf 3 0x10000600000 4096)),
    ((((liveCmd (cmdOf 1 2 .ready (mgDesc 1) [])).setObj 0 0 (objOf 3 0x10000600000 4096)).runCmd 1).mergeCheck (cmdOf 1 2 .ready (mgDesc 1) [])).1,
    1, cmdOf 1 2 .ready (mgDesc 1) [], by decide +kernel⟩,
   ⟨linked (liveCmd mgOut) .opened, (((linked (liveCmd mgOut) .opened).runCmd 1).mergeCheck mgOut).1, 1, 1,
    mgOut,
    (((linked (liveCmd mgOut) .opened).conn 1).takeUnits [emberUnits (mgRoom mgOut.desc)] []).getD (connNone, []),
    by decide +kernel⟩,
   ⟨liveCmd mgOut, (((liveCmd mgOut).runCmd 1).mergeCheck mgOut).1, 1, mgOut, by decide +kernel⟩,
   ⟨at_ (merging 8 none) 1000000, 1, merge0 8 none, 1, by decide +kernel⟩,
   ⟨{ merging 8 none with merges := [{ merge0 8 none with accepted := some 4 }] }, 1,
    { merge0 8 none with accepted := some 4 }, 4, by decide +kernel⟩,
   ⟨merging 5 (some 1), 1, 1, merge0 5 (some 1), by decide +kernel⟩,
   ⟨mergedIn, 1, 1, { merge0 8 (some 1) with inputs := [0x0008_0000_0050_0000], values := [⟨0, 0, [head0]⟩] },
    (mergedIn).inputsOf ({ merge0 8 (some 1) with inputs := [0x0008_0000_0050_0000], values := [⟨0, 0, [head0]⟩] }),
    [head0], by decide +kernel⟩,
   ⟨merging 8 none, 1, merge0 8 none, by decide +kernel⟩⟩

theorem witness_KindleRunsAndPublishes :
    (∃ (s : State) (u : State) (id : Nat) (c : Cmd) (e : Nat),
    s.starting? id 3 = some c ∧ dOp c.desc = 0 ∧ (s.runCmd id).kindleCheck c = (u, .refused e)) ∧
    (∃ (s : State) (u : State) (id : Nat) (c : Cmd),
    s.starting? id 3 = some c ∧ dOp c.desc = 0 ∧ (s.runCmd id).kindleCheck c = (u, .already)) ∧
    (∃ (s : State) (u : State) (id : Nat) (c : Cmd) (spans : List Nat) (toks : List (Nat × List Nat)) (ctx : List (Nat
      × Nat × Nat)),
    s.starting? id 3 = some c ∧ dOp c.desc = 0 ∧ (s.runCmd id).kindleCheck c = (u, .accepted spans toks ctx) ∧ (∃ k ∈
      s.kindles, k.part = c.part ∧ k.executing = true) ∧ (∀ k ∈ s.kindles, k.seq ≠ kdSeq c.desc)) ∧
    (∃ (s : State) (u : State) (id : Nat) (c : Cmd) (spans : List Nat) (toks : List (Nat × List Nat)) (ctx : List (Nat
      × Nat × Nat)),
    s.starting? id 3 = some c ∧ dOp c.desc = 0 ∧ (s.runCmd id).kindleCheck c = (u, .accepted spans toks ctx) ∧ (∀ k ∈
      s.kindles, k.part ≠ c.part)) ∧
    (∃ (s : State) (p : Nat) (rows : Nat) (k : Kindle) (k' : Kindle) (m : Image) (call : Nat × Nat × Nat),
    s.kindles.find? (fun k => k.part == p && k.executing) = some k ∧ s.image? p k.slot = some m ∧ k.waitsSlots = false
      ∧ stageCall m.hdr k.stage = some call ∧ 0 < rows ∧ s.power = .lit ∧ s.arrayOwner s.ms = p ∧ s.ecc = [] ∧
      k.rowDone + rows < k.rows ∧ (((s.arrayBusy p (if k.rowDone = 0 then max k.rows 1024 + 160 else
      1024)).workWritten k).streamRows m k call rows).2 = .ok k') ∧
    (∃ (s : State) (p : Nat),
    (s.power ≠ .lit ∨ s.arrayOwner s.ms ≠ p) ∧ (∀ k ∈ s.kindles, k.waitsSlots = false)) ∧
    (∃ (s : State) (id : Nat) (tag : Nat) (st : Nat) (k : Kindle) (e : Internal) (m : Image) (vals : List (Nat × Nat ×
      List TreeVal)),
    s.kindle? id = some k ∧ k.cmd = id ∧ k.internals.find? (fun e => (k.tag e.count).toNat == tag) = some e ∧ s.image?
      k.part k.slot = some m ∧ s.internalState k (imGroup m.hdr) e st = some (0, none, vals) ∧ k.todo = [] ∧
      k.internals.filter (fun x => x.count != e.count) ≠ []) ∧
    (∃ (s : State) (id : Nat) (tag : Nat) (st : Nat) (k : Kindle) (e : Internal) (m : Image),
    s.kindle? id = some k ∧ k.internals.find? (fun e => (k.tag e.count).toNat == tag) = some e ∧ s.image? k.part
      k.slot = some m ∧ s.internalState k (imGroup m.hdr) e st = none) ∧
    (∃ (s : State) (id : Nat) (k : Kindle) (c : Cmd),
    s.kindle? id = some k ∧ k.cmd = id ∧ s.cmd? id = some c ∧ c.phase = .running ∧ (∃ e ∈ k.internals, e.remote = true
      ∧ e.first + s.regF 0 Reg.KN_CFG 16 8 ≤ s.ms)) ∧
    (∃ (s : State) (id : Nat) (k : Kindle),
    s.kindle? id = some k ∧ (∀ e ∈ k.internals, s.ms < e.first + s.regF 0 Reg.KN_CFG 16 8)) ∧
    (∃ (s : State) (id : Nat) (span : Nat) (k : Kindle),
    s.kindle? id = some k ∧ k.cmd = id ∧ k.stage = .written ∧ k.executing = true ∧ k.spans[k.published]? = some span)
      :=
  ⟨⟨kindler (kdCmd .ready 0) [0], (((kindler (kdCmd .ready 0) [0]).runCmd 1).kindleCheck (kdCmd .ready 0)).1,
    1, kdCmd .ready 0, 0x0C, by decide +kernel⟩,
   ⟨kindler (kdCmd .ready 1) [], (((kindler (kdCmd .ready 1) []).runCmd 1).kindleCheck (kdCmd .ready 1)).1, 1,
    kdCmd .ready 1, by decide +kernel⟩,
   ⟨{ kindler (kdCmd .ready 1) [0] with kindles := [{ kindle0 with cmd := 2, seq := 4 }] },
    ((({ kindler (kdCmd .ready 1) [0] with kindles := [{ kindle0 with cmd := 2, seq := 4 }] }).runCmd 1).kindleCheck (kdCmd .ready 1)).1,
    1, kdCmd .ready 1, [0], [(0, [])], [], by decide +kernel⟩,
   ⟨kindler (kdCmd .ready 1) [0], (((kindler (kdCmd .ready 1) [0]).runCmd 1).kindleCheck (kdCmd .ready 1)).1,
    1, kdCmd .ready 1, [0], [(0, [])], [], by decide +kernel⟩,
   by refine ⟨kindling kindle0, 0, 1, kindle0, kindle1, img0, (2, 32, 64), by decide +kernel, ?_⟩ <;> decide +kernel,
   ⟨{ live with power := .damped }, 0, by decide +kernel⟩,
   by refine ⟨{ kindling { kindle0 with stage := .attention, internals := [internal0 1 5 5 false, internal0 2 6 5 false] } with reqs := [{ req0 with id := 5, kindle := some 1, bare := true, jobs := [], blks := [] }] },
    1, 1, 0,
    { kindle0 with stage := .attention, internals := [internal0 1 5 5 false, internal0 2 6 5 false] },
    internal0 1 5 5 false, img0, [(0, 0, [])], by decide +kernel, ?_, ?_, ?_, by rfl, ?_⟩ <;> decide +kernel,
   ⟨kindling { kindle0 with stage := .attention, internals := [internal0 1 5 5 false] }, 1, 1, 0,
    { kindle0 with stage := .attention, internals := [internal0 1 5 5 false] }, internal0 1 5 5 false, img0,
    by decide +kernel⟩,
   ⟨at_ (kindling { kindle0 with stage := .attention, internals := [internal0 1 5 0 true] }) 2000000, 1,
    { kindle0 with stage := .attention, internals := [internal0 1 5 0 true] }, kdCmd .running 1,
    by decide +kernel⟩,
   ⟨kindling { kindle0 with stage := .attention, internals := [internal0 1 5 5 true] }, 1,
    { kindle0 with stage := .attention, internals := [internal0 1 5 5 true] }, by decide +kernel⟩,
   by refine ⟨kindling { kindle0 with stage := .written }, 1, 0, { kindle0 with stage := .written }, by decide +kernel,
    ?_, ?_, ?_, rfl⟩ <;> decide +kernel⟩

theorem witness_ImagesAreBoundAndUnbound :
    (∃ (s : State) (u : State) (id : Nat) (c : Cmd) (so : BitVec 256) (dO : BitVec 256) (h : List Byte) (img : List
      Byte) (ct : List Byte),
    s.starting? id 3 = some c ∧ dOp c.desc = 1 ∧ s.awake = true ∧ (s.runCmd id).bindHead c = (u, 0) ∧ so = s.obj
      c.part (bdSrc c.desc) ∧ dO = s.obj c.part (bdDst c.desc) ∧ s.ecc = [] ∧ tierOf (objBase so) ≠ some .far ∧ tierOf
      (objBase so + imCipherAt img) ≠ some .far ∧ h = s.bytes (objBase so) 448 ∧ imDevices h ≤ 256 ∧ 448 ≤ objSize so
      ∧ imCipherAt h ≤ objSize so ∧ img = s.bytes (objBase so) (imCipherAt h) ∧ 512 ≤ img.length ∧ imageShapeOk img =
      true ∧ imCipherAt img + imPayLen img ≤ objSize so ∧ imPlainLen img ≤ objSize dO ∧ ct = s.bytes (objBase so +
      imCipherAt img) (imPayLen img)) ∧
    (∃ (s : State) (id : Nat) (c : Cmd),
    s.starting? id 3 = some c ∧ dOp c.desc = 2 ∧ s.awake = true ∧ bindOk c.desc = true ∧ s.adrift = false ∧ s.image?
      c.part (kdImage c.desc) = none) ∧
    (∃ (s : State) (id : Nat) (c : Cmd) (m : Image),
    s.starting? id 3 = some c ∧ dOp c.desc = 2 ∧ s.awake = true ∧ bindOk c.desc = true ∧ s.adrift = false ∧ s.image?
      c.part (kdImage c.desc) = some m) ∧
    (∃ (s : State) (p : Nat) (slot : Nat) (id : Nat) (m : Image) (c : Cmd),
    s.image? p slot = some m ∧ m.part = p ∧ m.slot = slot ∧ m.unbinders = [id] ∧ s.cmd? id = some c ∧ c.phase =
      .running ∧ (∀ k ∈ s.kindles, k.part = p → k.slot = slot → k.executing = false)) ∧
    (∃ (s : State) (p : Nat) (slot : Nat) (k : Kindle),
    k ∈ s.kindles ∧ k.part = p ∧ k.slot = slot ∧ k.executing = true) :=
  ⟨by refine ⟨binder, ((binder.runCmd 1).bindHead (cmdOf 1 3 .ready bindDesc [])).1, 1, cmdOf 1 3 .ready bindDesc [],
    binder.obj 0 6, binder.obj 0 7, imHdr, binder.bytes 0x50000000000 768,
    (binder).bytes (objBase (binder.obj 0 6) + imCipherAt (binder.bytes 0x50000000000 768)) (imPayLen (binder.bytes 0x50000000000 768)),
    ?_, ?_, ?_, ?_, rfl, rfl, ?_, ?_, ?_, ?_, ?_, by decide +kernel, ?_, ?_, ?_, ?_, ?_, by decide +kernel,
    rfl⟩ <;> decide +kernel,
   ⟨liveCmd (cmdOf 1 3 .ready (unbindDesc 0) []), 1, cmdOf 1 3 .ready (unbindDesc 0) [], by decide +kernel⟩,
   ⟨{ liveCmd (cmdOf 1 3 .ready (unbindDesc 0) []) with images := [img0] }, 1,
    cmdOf 1 3 .ready (unbindDesc 0) [], img0, by decide +kernel⟩,
   ⟨({ liveCmd (cmdOf 1 3 .running (unbindDesc 0) []) with images := [{ img0 with unbinders := [1] }] }).setObj 0 5 (objOf 1 0x10000200000 256),
    0, 0, 1, { img0 with unbinders := [1] }, cmdOf 1 3 .running (unbindDesc 0) [], by decide +kernel⟩,
   by refine ⟨kindling kindle0, 0, 0, kindle0, by decide +kernel, ?_⟩ <;> decide +kernel⟩

theorem witness_ConnectionsOpenRetryAndClose :
    (∃ (s : State) (fn : Nat) (i : Nat) (c : Conn),
    fn ≠ 0 ∧ s.fnServed fn = true ∧ i = s.connSel fn ∧ c = s.conn i ∧ c.owner = some (fn - 1) ∧ c.st = .idle ∧
      s.openCheck (fn - 1) i ≠ 0) ∧
    (∃ (s : State) (fn : Nat) (i : Nat) (c : Conn),
    fn ≠ 0 ∧ s.fnServed fn = true ∧ i = s.connSel fn ∧ c = s.conn i ∧ c.owner = some (fn - 1) ∧ c.st = .idle ∧
      s.openCheck (fn - 1) i = 0) ∧
    (∃ (s : State) (fn : Nat),
    s.fnServed fn = true ∧ (s.conn (s.connSel fn)).st ≠ .idle) ∧
    (∃ (s : State) (i : Nat) (c : Conn),
    c = s.conn i ∧ c.st = .connecting ∧ c.since + 16 * c.attempts ≤ s.ms) ∧
    (∃ (s : State) (i : Nat),
    ((s.conn i).st ≠ .connecting ∨ s.ms < (s.conn i).since + 16 * (s.conn i).attempts)) ∧
    (∃ (s : State) (i : Nat),
    (s.conn i).st = .connecting ∧ (s.conn i).since + 4096 ≤ s.ms) ∧
    (∃ (s : State) (i : Nat),
    (s.conn i).st = .closing ∧ (s.conn i).since + 4096 ≤ s.ms) ∧
    (∃ (s : State) (i : Nat),
    s.ms < (s.conn i).since + 4096) ∧
    (∃ (s : State) (fn : Nat) (i : Nat) (c : Conn),
    fn ≠ 0 ∧ s.fnServed fn = true ∧ i = s.connSel fn ∧ c = s.conn i ∧ c.owner = some (fn - 1) ∧ (c.st = .listen ∨ c.st
      = .connecting ∨ c.st = .failed)) ∧
    (∃ (s : State) (fn : Nat),
    s.fnServed fn = true ∧ ((s.conn (s.connSel fn)).st = .idle ∨ (s.conn (s.connSel fn)).st = .closing)) ∧
    (∃ (s : State) (fn : Nat) (i : Nat) (c : Conn),
    fn ≠ 0 ∧ s.fnServed fn = true ∧ i = s.connSel fn ∧ c = s.conn i ∧ c.owner = some (fn - 1) ∧ c.st = .opened ∧
      c.closeSent = false ∧ c.closeGot = false ∧ c.ackSent = false) ∧
    (∃ (s : State) (i : Nat) (c : Conn),
    c = s.conn i ∧ c.st = .opened ∧ c.closeSent = false ∧ c.ackSent = false) ∧
    (∃ (s : State) (i : Nat) (c : Conn),
    c = s.conn i ∧ c.st = .closing ∧ c.closeSent = true ∧ c.ackSent = true ∧ (∀ m ∈ c.tx, m.op = 8 → ctSub m.ext ≠ 5))
      ∧
    (∃ (s : State) (i : Nat) (c : Conn),
    c = s.conn i ∧ c.st = .closing ∧ c.closeSent = true ∧ c.closeGot = false ∧ c.ackSent = false) ∧
    (∃ (s : State) (i : Nat),
    ((s.conn i).st ≠ .closing ∨ (s.conn i).closeSent = false)) :=
  ⟨⟨road { unopened 0 with entry := List.replicate 64 0 }, 1,
    (road { unopened 0 with entry := List.replicate 64 0 }).connSel (1),
    (road { unopened 0 with entry := List.replicate 64 0 }).conn ((road { unopened 0 with entry := List.replicate 64 0 }).connSel (1)),
    by decide +kernel⟩,
   ⟨road (unopened 0), 1, (road (unopened 0)).connSel (1),
    (road (unopened 0)).conn ((road (unopened 0)).connSel (1)), by decide +kernel⟩,
   ⟨road (connOf .opened), 1, by decide +kernel⟩,
   ⟨at_ (road { connOf .connecting with attempts := 1 }) 65536, 1,
    (at_ (road { connOf .connecting with attempts := 1 }) 65536).conn (1), by decide +kernel⟩,
   ⟨road { connOf .connecting with attempts := 1 }, 1, by decide +kernel⟩,
   ⟨at_ (road { connOf .connecting with attempts := 1 }) 10000000, 1, by decide +kernel⟩,
   ⟨at_ (road (connOf .closing)) 10000000, 1, by decide +kernel⟩,
   ⟨road (connOf .closing), 1, by decide +kernel⟩,
   ⟨road (connOf .failed), 1, (road (connOf .failed)).connSel (1),
    (road (connOf .failed)).conn ((road (connOf .failed)).connSel (1)), by decide +kernel⟩,
   ⟨road (unopened 0), 1, by decide +kernel⟩,
   ⟨road (connOf .opened), 1, (road (connOf .opened)).connSel (1),
    (road (connOf .opened)).conn ((road (connOf .opened)).connSel (1)), by decide +kernel⟩,
   ⟨road (connOf .opened), 1, (road (connOf .opened)).conn (1), by decide +kernel⟩,
   ⟨road { connOf .closing with closeSent := true, ackSent := true }, 1,
    (road { connOf .closing with closeSent := true, ackSent := true }).conn (1), by decide +kernel⟩,
   ⟨road { connOf .closing with closeSent := true }, 1,
    (road { connOf .closing with closeSent := true }).conn (1), by decide +kernel⟩,
   ⟨road (connOf .opened), 1, by decide +kernel⟩⟩

theorem witness_HandshakesAreAnswered :
    (∃ (s : State) (tenant : Nat) (r : Nat) (x : List Byte),
    (s.life = .held ∧ r = 0x0F ∨ s.life ≠ .held ∧ r = 0x04 ∧ s.conns.find? (fun e => s.alreadyOpen tenant x e.2) =
      none ∧ s.conns.find? (fun e => s.listens tenant x e.2) = none ∨ s.life ≠ .held ∧ r = 0x0D ∧ s.conns.find? (fun e
      => s.alreadyOpen tenant x e.2) = none ∧ ∃ i c, s.conns.find? (fun e => s.listens tenant x e.2) = some (i, c) ∧
      s.grantsOk (c.owner.getD 0) i c.entry = false)) ∧
    (∃ (s : State) (tenant : Nat) (i : Nat) (x : List Byte) (c : Conn),
    s.life ≠ .held ∧ s.conns.find? (fun e => s.alreadyOpen tenant x e.2) = some (i, c)) ∧
    (∃ (s : State) (tenant : Nat) (i : Nat) (x : List Byte) (c : Conn),
    s.life ≠ .held ∧ s.conns.find? (fun e => s.alreadyOpen tenant x e.2) = none ∧ s.conns.find? (fun e => s.listens
      tenant x e.2) = some (i, c) ∧ s.grantsOk (c.owner.getD 0) i c.entry = true) ∧
    (∃ (s : State) (i : Nat),
    (s.conn i).st = .connecting) ∧
    (∃ (s : State) (i : Nat),
    (s.conn i).st = .connecting) ∧
    (∃ (s : State) (i : Nat),
    (s.conn i).st ≠ .connecting) :=
  ⟨⟨road (unopened 0), 5, 4, ctrlOf 1, Or.inr (Or.inl (by decide +kernel))⟩,
   ⟨road { connOf .opened with entry := centry 1, peerConn := 8195 }, 5, 1, ctrlOf 1,
    { connOf .opened with entry := centry 1, peerConn := 8195 }, by decide +kernel⟩,
   ⟨road listening, 5, 1, ctrlOf 1, listening, by decide +kernel⟩,
   ⟨road (connOf .connecting), 1, by decide +kernel⟩,
   ⟨road (connOf .connecting), 1, by decide +kernel⟩,
   ⟨road (connOf .opened), 1, by decide +kernel⟩⟩

theorem witness_PathsAndTheirTimers :
    (∃ (s : State) (i : Nat) (p : Nat),
    ((s.conn i).st = .opened ∨ (s.conn i).st = .closing) ∧ p < (s.conn i).live.length) ∧
    (∃ (s : State) (i : Nat) (p : Nat),
    ((s.conn i).st = .opened ∨ (s.conn i).st = .closing) ∧ p < (s.conn i).live.length ∧ s.hasSlot ((s.conn
      i).owner.getD 0) ((s.conn i).port p) = true) ∧
    (∃ (s : State) (i : Nat) (p : Nat),
    s.hasSlot ((s.conn i).owner.getD 0) ((s.conn i).port p) = false) ∧
    (∃ (s : State) (i : Nat),
    (s.conn i).st ≠ .opened ∧ (s.conn i).st ≠ .closing) ∧
    (∃ (s : State) (i : Nat) (p : Nat),
    (s.conn i).hasPath p = true ∧ ((s.conn i).path p).up = false ∧ s.pathUsable ((s.conn i).owner.getD 0) ((s.conn
      i).entryOf p) = true ∧ ((s.conn i).path p).probedAt + 16 ≤ s.ms) ∧
    (∃ (s : State) (i : Nat) (p : Nat),
    (((s.conn i).path p).up = true ∨ s.ms < ((s.conn i).path p).probedAt + 16 ∨ s.pathUsable ((s.conn i).owner.getD 0)
      ((s.conn i).entryOf p) = false)) ∧
    (∃ (s : State) (i : Nat) (p : Nat),
    (s.conn i).hasPath p = true ∧ ((s.conn i).path p).up = true ∧ ((s.conn i).path p).usedAt + max 1 (s.regF 0
      Reg.RT_LIVE 0 16) ≤ s.ms ∧ ((s.conn i).path p).probedAt + max 1 (s.regF 0 Reg.RT_LIVE 0 16) ≤ s.ms) ∧
    (∃ (s : State) (i : Nat) (p : Nat),
    s.ms < ((s.conn i).path p).usedAt + max 1 (s.regF 0 Reg.RT_LIVE 0 16)) ∧
    (∃ (s : State) (i : Nat),
    ((s.conn i).st = .opened ∨ (s.conn i).st = .closing) ∧ (s.conn i).rxAt + max 64 (s.regF 0 Reg.RT_LIVE 16 16) ≤
      s.ms) ∧
    (∃ (s : State) (i : Nat),
    s.ms < (s.conn i).rxAt + max 64 (s.regF 0 Reg.RT_LIVE 16 16)) ∧
    (∃ (s : State) (i : Nat) (psn : Nat) (k : TxPkt),
    ((s.conn i).st = .opened ∨ (s.conn i).st = .closing) ∧ (s.conn i).pkts.find? (fun k => k.psn == psn) = some k ∧
      k.sentAt + 2048 * k.rto ≤ s.ft.now.toNat ∧ k.lost = false ∧ k.retx < s.regF 0 Reg.RT_TIMER 24 8) ∧
    (∃ (s : State) (i : Nat) (psn : Nat) (k : TxPkt),
    ((s.conn i).st = .opened ∨ (s.conn i).st = .closing) ∧ (s.conn i).pkts.find? (fun k => k.psn == psn) = some k ∧
      k.sentAt + 2048 * k.rto ≤ s.ft.now.toNat ∧ k.lost = false ∧ s.regF 0 Reg.RT_TIMER 24 8 ≤ k.retx) ∧
    (∃ (s : State) (i : Nat) (psn : Nat) (k : TxPkt),
    (s.conn i).pkts.find? (fun k => k.psn == psn) = some k ∧ s.ft.now.toNat < k.sentAt + 2048 * k.rto) :=
  ⟨⟨road (connOf .opened), 1, 0, by decide +kernel⟩,
   ⟨road { connOf .opened with live := [{ livePath with up := false, probes := 2 }] }, 1, 0, by decide +kernel⟩,
   ⟨withRegs (road (connOf .opened)) [(0, Reg.SHP_PORT_MODE, 1)], 1, 0, by decide +kernel⟩,
   ⟨road (connOf .connecting), 1, by decide +kernel⟩,
   ⟨at_ (road { connOf .opened with live := [{ livePath with up := false }] }) 65536, 1, 0, by decide +kernel⟩,
   ⟨road (connOf .opened), 1, 0, by decide +kernel⟩,
   ⟨at_ (road (connOf .opened)) 100000000, 1, 0, by decide +kernel⟩,
   ⟨road (connOf .opened), 1, 0, by decide +kernel⟩,
   ⟨at_ (road (connOf .opened)) 1000000000, 1, by decide +kernel⟩,
   ⟨road (connOf .opened), 1, by decide +kernel⟩,
   ⟨road (inFlight0 false 0), 1, 0, pkt0 false, by decide +kernel⟩,
   ⟨road (inFlight0 false 200), 1, 0, { pkt0 false with retx := 200 }, by decide +kernel⟩,
   ⟨at_ (road (inFlight0 false 0)) 100, 1, 0, pkt0 false, by decide +kernel⟩⟩

theorem witness_PacketsStartAndAreAcknowledged :
    (∃ (s : State) (i : Nat) (tc : Nat) (x : Lead) (m : TxMsg),
    s.picked i tc = some x ∧ (tc ≠ 0 ∨ (s.conn i).st ≠ .closing) ∧ x.pkt.lost = none ∧ x.pkt.msg = some m ∧
      x.pkt.tracked = true) ∧
    (∃ (s : State) (i : Nat) (x : Lead) (m : TxMsg),
    s.picked i 0 = some x ∧ (s.conn i).st ≠ .closing ∧ x.pkt.lost = none ∧ x.pkt.msg = some m ∧ x.pkt.tracked = false)
      ∧
    (∃ (s : State) (i : Nat) (tc : Nat) (x : Lead) (l : TxPkt),
    s.picked i tc = some x ∧ (tc ≠ 0 ∨ (s.conn i).st ≠ .closing) ∧ x.pkt.lost = some l) ∧
    (∃ (s : State) (i : Nat) (tc : Nat) (x : Lead),
    s.picked i tc = none ∧ s.leadsOf i tc = [x] ∧ s.tokensFor ((s.conn i).owner.getD 0) x = false) ∧
    (∃ (s : State) (i : Nat) (tc : Nat) (x : Lead),
    s.picked i tc = none ∧ s.leadsOf i tc = [x] ∧ s.tokensFor ((s.conn i).owner.getD 0) x = true ∧ s.slotFor ((s.conn
      i).owner.getD 0) x = false) ∧
    (∃ (s : State) (i : Nat) (tc : Nat),
    s.leadsOf i tc = []) ∧
    (∃ (s : State) (i : Nat) (x : List Byte) (cum : Nat),
    ((s.conn i).st = .opened ∨ (s.conn i).st = .closing) ∧ cum = unwrap32 ((s.conn i).pkts.foldl (fun a (p : TxPkt) =>
      min a p.psn) (s.conn i).nextPsn) (beAt x 0 4) ∧ cum ≤ (s.conn i).nextPsn) ∧
    (∃ (s : State) (i : Nat),
    (s.conn i).st ≠ .opened ∧ (s.conn i).st ≠ .closing) ∧
    (∃ (s : State) (i : Nat),
    ((s.conn i).st = .opened ∨ (s.conn i).st = .closing) ∧ (s.conn i).unacked ≠ 0 ∧ (∀ m ∈ (s.conn i).tx, m.op ≠ 7)) ∧
    (∃ (s : State) (i : Nat),
    ((s.conn i).unacked = 0 ∨ ∃ m ∈ (s.conn i).tx, m.op = 7)) :=
  ⟨⟨sender, 1, 2, lead0, msg0, by decide +kernel⟩,
   ⟨acker, 1, (acker.leadsOf 1 0).headD lead0, ackMsg, by decide +kernel⟩,
   ⟨road (inFlight0 true 0), 1, 2, ((road (inFlight0 true 0)).leadsOf 1 2).headD lead0, pkt0 true,
    by decide +kernel⟩,
   ⟨sender.setShaper 0 0 (pairOf (setF shReset 13 1 1)), 1, 2, lead0, by decide +kernel⟩,
   ⟨withRegs sender [(0, Reg.SHP_PORT_MODE, 1)], 1, 2, lead0, by decide +kernel⟩,
   ⟨sender, 1, 0, by decide +kernel⟩,
   ⟨road (inFlight0 false 0), 1, beBytes 4 1 ++ List.replicate 156 0,
    unwrap32 (((road (inFlight0 false 0)).conn (1)).pkts.foldl (fun a (p : TxPkt) => min a p.psn) ((road (inFlight0 false 0)).conn (1)).nextPsn) (beAt (beBytes 4 1 ++ List.replicate 156 0) 0 4),
    by decide +kernel⟩,
   ⟨road (connOf .connecting), 1, by decide +kernel⟩,
   ⟨road { connOf .opened with unacked := 1 }, 1, by decide +kernel⟩,
   ⟨road (connOf .opened), 1, by decide +kernel⟩⟩

theorem witness_PacketsPassTheTollgate :
    (∃ (s : State) (l : Nat),
    s.portUp l = true) ∧
    (∃ (s : State) (l : Nat),
    s.portUp l = false) ∧
    (∃ (s : State) (l : Nat) (i : Nat) (psn : Nat) (msg : Nat) (f : List Byte) (d : Dgram) (o : Ort) (c : Conn),
    s.portUp l = true ∧ s.frameDgram l f true = some d ∧ ortOk d.body = true ∧ o = parseOrt d.body ∧ o.op ≤ 6 ∧ i =
      o.conn % 8192 ∧ c = s.conn i ∧ o.conn / 8192 = c.gen ∧ (c.st = .opened ∨ c.st = .closing) ∧ c.used?.any (fun pt
      => ptIp pt == d.src) = true ∧ o.tenant = s.tenant (c.owner.getD 0) ∧ psn = unwrap32 c.cumPsn o.psn ∧ msg =
      c.msgOf o ∧ c.hasPsn psn = false ∧ psn ≤ c.cumPsn + 1024 ∧ (framed o.op = true → c.frontier ≤ msg ∧ msg <
      c.frontier + 256 ∧ ∀ m ∈ c.rx, m.num = msg → m.failed = false) ∧ lengthsOk c.P o = true ∧ (o.op = 1 ∨ o.op = 5 →
      c.spanOk o msg = true) ∧ failKey o.op msg psn ∉ c.reported ∧ s.targetReason i o = 0) ∧
    (∃ (s : State) (l : Nat) (i : Nat) (psn : Nat) (f : List Byte) (d : Dgram) (o : Ort) (c : Conn),
    s.portUp l = true ∧ s.frameDgram l f true = some d ∧ ortOk d.body = true ∧ o = parseOrt d.body ∧ (o.op = 1 ∨ o.op
      = 2 ∨ o.op = 5) ∧ i = o.conn % 8192 ∧ c = s.conn i ∧ o.conn / 8192 = c.gen ∧ (c.st = .opened ∨ c.st = .closing)
      ∧ c.used?.any (fun pt => ptIp pt == d.src) = true ∧ o.tenant = s.tenant (c.owner.getD 0) ∧ psn = unwrap32
      c.cumPsn o.psn ∧ c.hasPsn psn = false ∧ lengthsOk c.P o = true ∧ s.targetReason i o ≠ 0) ∧
    (∃ (s : State) (i : Nat) (psn : Nat) (k : Placing),
    (s.conn i).placing.find? (fun k => k.psn == psn) = some k ∧ s.awake = true ∧ k.op = 1 ∧ (s.waykey (k.waykey %
      65536)).ok = true ∧ wkKey (s.waykey (k.waykey % 65536)).val = k.waykey ∧ s.ecc = [] ∧ k.data.length ≤ 8192 ∧
      ((s.conn i).rx = [] ∧ storedForm k.data = k.data ∨ k.msg ≠ (s.conn i).frontier ∧ ∀ m ∈ (s.conn i).rx, m.num ≠
      (s.conn i).frontier)) ∧
    (∃ (s : State) (i : Nat) (psn : Nat),
    (∀ k ∈ (s.conn i).placing, k.psn ≠ psn)) ∧
    (∃ (s : State) (l : Nat) (f : List Byte) (r : List Byte),
    s.portUp l = true ∧ (arpReply (s.portEntry l) (parseEth f) = some r ∨ (arpReply (s.portEntry l) (parseEth f) =
      none ∧ ndReply (s.portEntry l) (parseEth f) = some r))) ∧
    (∃ (s : State) (l : Nat) (f : List Byte),
    s.portUp l = true ∧ arpReply (s.portEntry l) (parseEth f) = none ∧ ndReply (s.portEntry l) (parseEth f) = none) :=
  ⟨⟨road (connOf .opened), 0, by decide +kernel⟩,
   ⟨live, 0, by decide +kernel⟩,
   ⟨roadKey, 0, (parseOrt (dgram0).body).conn % 8192,
    unwrap32 ((roadKey).conn ((parseOrt (dgram0).body).conn % 8192)).cumPsn (parseOrt (dgram0).body).psn,
    ((roadKey).conn ((parseOrt (dgram0).body).conn % 8192)).msgOf (parseOrt (dgram0).body), frameFrom ort0,
    dgram0, parseOrt (dgram0).body, (roadKey).conn ((parseOrt (dgram0).body).conn % 8192), by decide +kernel⟩,
   ⟨road (connOf .opened), 0, (parseOrt (dgram0).body).conn % 8192,
    unwrap32 ((road (connOf .opened)).conn ((parseOrt (dgram0).body).conn % 8192)).cumPsn (parseOrt (dgram0).body).psn,
    frameFrom ort0, dgram0, parseOrt (dgram0).body,
    (road (connOf .opened)).conn ((parseOrt (dgram0).body).conn % 8192), by decide +kernel⟩,
   ⟨(road { connOf .opened with placing := [placing0] }).setWaykey 2 (pairOf (wkVal 1)), 1, 0, placing0,
    by decide +kernel⟩,
   ⟨roadKey, 1, 0, by decide +kernel⟩,
   by refine ⟨road (connOf .opened), 0, arp0, (arpReply ((road (connOf .opened)).portEntry 0) (parseEth arp0)).getD [],
    ?_, Or.inl (by decide +kernel)⟩ <;> decide +kernel,
   ⟨road (connOf .opened), 0, frameFrom ort0, by decide +kernel⟩⟩

theorem witness_AnswersReachTheirCommands :
    (∃ (s : State) (i : Nat) (msg : Nat) (off : Nat) (bs : List Byte) (body : List Byte) (h : Haul) (c : Cmd) (r :
      HaulMsg),
    s.awake = true ∧ s.hauls.find? (fun h => h.reads.any fun r => r.conn == i && r.msg == msg) = some h ∧ s.cmd? h.cmd
      = some c ∧ h.reads.find? (fun r => r.conn == i && r.msg == msg) = some r ∧ body = storedForm (joinParts 0
      (insertPart (off, bs) r.parts))) ∧
    (∃ (s : State) (i : Nat) (msg : Nat),
    (∀ h ∈ s.hauls, ∀ r ∈ h.reads, r.conn ≠ i ∨ r.msg ≠ msg)) ∧
    (∃ (s : State) (i : Nat) (n : Nat) (e : Nat) (left : Nat) (b : List Byte),
    ((s.conn i).st = .opened ∨ (s.conn i).st = .closing) ∧ b.length = 32 ∧ s.forwards = [] ∧ s.kindles = [] ∧ (s.conn
      i).cmdSent.find? (fun t => t.1 % 2 ^ 28 == leAt b 0 4 / 16) = some (n, e, left) ∧ e < (s.conn i).descs.length) ∧
    (∃ (s : State) (i : Nat) (b : List Byte) (f : Forward),
    ((s.conn i).st = .opened ∨ (s.conn i).st = .closing) ∧ b.length = 32 ∧ s.forwards = [f] ∧ f.conn = i ∧ f.msg % 2 ^
      28 = leAt b 0 4 / 16 ∧ leAt b 4 1 ≠ 0) ∧
    (∃ (s : State) (i : Nat) (p : Nat),
    ((s.conn i).st = .opened ∨ (s.conn i).st = .closing) ∧ p = (s.conn i).owner.getD 0) ∧
    (∃ (s : State) (i : Nat) (msg : Nat) (x : List Byte) (h : Haul) (c : Cmd) (w : HaulMsg),
    ((s.conn i).st = .opened ∨ (s.conn i).st = .closing) ∧ leAt x 1 1 / 16 = 1 ∧ msg = unwrap32 (s.conn i).nextMsg
      (beAt x 12 4) ∧ h ∈ s.hauls ∧ w ∈ h.writes ∧ w.conn = i ∧ w.msg = msg ∧ s.cmd? h.cmd = some c ∧ c.id = h.cmd ∧
      c.phase = .running) ∧
    (∃ (s : State) (i : Nat),
    (s.conn i).st ≠ .opened ∧ (s.conn i).st ≠ .closing) :=
  ⟨⟨farHauler far0, 1, 0, 64, [1, 2, 3], storedForm (joinParts 0 (insertPart (64, [1, 2, 3]) [])), far0,
    cmdOf 1 4 .running (haulDesc 1 512) [], { conn := 1, msg := 0, off := 0, len := 512, parts := [] },
    by decide +kernel⟩,
   ⟨farHauler far0, 1, 7, by decide +kernel⟩,
   ⟨road { connOf .opened with cmdSent := [(0, 1, 2)], descs := [0, 2, 0, 0, 0, 0] }, 1, 0, 1, 2, record0 0,
    by decide +kernel⟩,
   ⟨{ road (connOf .opened) with forwards := [{ cmd := 1, key := ⟨0, 3, 0⟩, conn := 1, msg := 0 }] }, 1,
    record0 4, { cmd := 1, key := ⟨0, 3, 0⟩, conn := 1, msg := 0 }, by decide +kernel⟩,
   ⟨road (connOf .opened), 1, ((road (connOf .opened)).conn (1)).owner.getD 0, by decide +kernel⟩,
   ⟨farHauler far1, 1, unwrap32 ((farHauler far1).conn (1)).nextMsg (beAt (report0) 12 4), report0, far1,
    cmdOf 1 4 .running (haulDesc 1 512) [], { conn := 1, msg := 0, off := 0, len := 512, parts := [] },
    by decide +kernel⟩,
   ⟨road (connOf .connecting), 1, by decide +kernel⟩⟩

theorem witness_WindowsAndPorts :
    (∃ (s : State) (fn : Nat) (off : Nat) (i : Nat) (bs : List Byte) (c : Conn),
    fn ≠ 0 ∧ s.fnServed fn = true ∧ i = s.connSel fn ∧ c = s.conn i ∧ off + bs.length ≤ 0x840 ∧ c.st = .idle ∧
      (c.owner = some (fn - 1) ∨ c.owner = none ∧ s.claims (fn - 1) + 1 ≤ recField (s.entryVal (fn - 1)) 52 2)) ∧
    (∃ (s : State) (fn : Nat) (off : Nat) (bs : List Byte) (c : Conn),
    fn ≠ 0 ∧ s.fnServed fn = true ∧ c = s.conn (s.connSel fn) ∧ off + bs.length ≤ 0x840 ∧ (c.st ≠ .idle ∨ (∃ q,
      c.owner = some q ∧ q ≠ fn - 1))) ∧
    (∃ (s : State) (off : Nat) (bs : List Byte),
    s.fnServed 0 = true ∧ s.life ≠ .recovery ∧ off + bs.length ≤ 768 ∧ s.regB 0 (Reg.RT_PORT_CFG + 4 * (off / 48 / 2))
      31 = false) ∧
    (∃ (s : State) (off : Nat) (bs : List Byte),
    s.fnServed 0 = true ∧ s.life ≠ .recovery ∧ off + bs.length ≤ 768 ∧ s.regB 0 (Reg.RT_PORT_CFG + 4 * (off / 48 / 2))
      31 = true) ∧
    (∃ (s : State) (n : Nat) (v : Word),
    n < 8 ∧ s.pf0 = true ∧ s.regB 0 (Reg.RT_PORT_CFG + 4 * n) 31 = false ∧ getF v 29 2 < 2 ∧ getF v 16 2 < 3 ∧ getB v
      27 = false) ∧
    (∃ (s : State) (n : Nat) (v : Word),
    n < 8 ∧ s.pf0 = true ∧ s.regB 0 (Reg.RT_PORT_CFG + 4 * n) 31 = true ∧ getF v 29 2 < 2 ∧ getF v 29 2 ≠ s.regF 0
      (Reg.RT_PORT_CFG + 4 * n) 29 2) ∧
    (∃ (s : State) (n : Nat) (v : Word),
    n < 8 ∧ s.pf0 = true ∧ s.regB 0 (Reg.RT_PORT_CFG + 4 * n) 31 = true ∧ getB v 31 = false) ∧
    (∃ (s : State) (n : Nat),
    n < 8 ∧ s.pf0 = true) ∧
    (∃ (s : State) (l : Nat),
    s.lportExists l = true ∧ s.regB 0 (Reg.RT_PORT_CFG + 4 * (l / 2)) 31 = true ∧ l ∉ s.up) ∧
    (∃ (s : State) (l : Nat),
    (s.lportExists l = false ∨ s.regB 0 (Reg.RT_PORT_CFG + 4 * (l / 2)) 31 = false)) :=
  ⟨⟨road connNone, 1, 2, (road connNone).connSel (1), [1, 2],
    (road connNone).conn ((road connNone).connSel (1)), by decide +kernel⟩,
   by refine ⟨road (connOf .opened), 1, 2, [1, 2], (road (connOf .opened)).conn ((road (connOf .opened)).connSel (1)),
    ?_, ?_, ?_, ?_, Or.inl (by decide +kernel)⟩ <;> decide +kernel,
   ⟨{ withRegs live [(0, Reg.RT_PORT_CFG, 0)] with ports := [(0, 2), (5, 0xAA)] }, 4, [9, 0], by decide +kernel⟩,
   ⟨live, 4, [9, 0], by decide +kernel⟩,
   ⟨live, 1, 0x80010000, by decide +kernel⟩,
   ⟨live, 0, 0xA0000000, by decide +kernel⟩,
   ⟨road (connOf .opened), 0, 0x10000000, by decide +kernel⟩,
   ⟨road (connOf .opened), 0, by decide +kernel⟩,
   ⟨live, 0, by decide +kernel⟩,
   ⟨live, 2, by decide +kernel⟩⟩

theorem witness_WaykeysAreCreatedAndRevoked :
    (∃ (s : State) (fn : Nat) (i : Nat),
    fn ≠ 0 ∧ fn ≤ 64 ∧ s.fnServed fn = true ∧ s.wkBad (fn - 1) (s.wkWords fn) = false ∧ s.wkOwn (fn - 1) < 16 *
      recField (s.entryVal (fn - 1)) 54 2 ∧ s.wkTake (fn - 1) = some i ∧ i < 65536) ∧
    (∃ (s : State) (fn : Nat),
    fn ≠ 0 ∧ s.fnServed fn = true ∧ s.wkBad (fn - 1) (s.wkWords fn) = true) ∧
    (∃ (s : State) (fn : Nat),
    fn ≠ 0 ∧ s.fnServed fn = true ∧ s.wkBad (fn - 1) (s.wkWords fn) = false ∧ 16 * recField (s.entryVal (fn - 1)) 54 2
      ≤ s.wkOwn (fn - 1)) ∧
    (∃ (s : State) (fn : Nat) (i : Nat),
    fn ≠ 0 ∧ s.fnServed fn = true ∧ i = s.regF fn Reg.RT_WK_SEL 0 16 ∧ (s.waykey i).ok = true ∧ wkState (s.waykey
      i).val = 1 ∧ wkPart (s.waykey i).val = fn - 1) ∧
    (∃ (s : State) (fn : Nat) (i : Nat),
    fn ≠ 0 ∧ s.fnServed fn = true ∧ i = s.regF fn Reg.RT_WK_SEL 0 16 ∧ (s.waykey i).ok = true ∧ (wkState (s.waykey
      i).val ≠ 1 ∨ wkPart (s.waykey i).val ≠ fn - 1)) ∧
    (∃ (s : State) (fn : Nat) (i : Nat) (j : Nat),
    fn ≠ 0 ∧ s.fnServed fn = true ∧ i = s.regF fn Reg.RT_WK_SEL 0 16 ∧ j < 8) ∧
    (∃ (s : State) (i : Nat),
    (s.waykey i).ok = true ∧ wkState (s.waykey i).val = 2 ∧ s.wkInflight i = 0) ∧
    (∃ (s : State) (i : Nat),
    (wkState (s.waykey i).val ≠ 2 ∨ s.wkInflight i ≠ 0)) ∧
    (∃ (s : State) (i : Nat),
    (s.waykey i).ok = true ∧ wkState (s.waykey i).val = 2 ∧ wkMs (s.waykey i).val + 8 ≤ s.ms) ∧
    (∃ (s : State) (i : Nat),
    (wkState (s.waykey i).val ≠ 2 ∨ s.ms < wkMs (s.waykey i).val + 8)) :=
  ⟨⟨wkAsked 4096, 1, 0, by decide +kernel⟩,
   ⟨wkAsked 4097, 1, by decide +kernel⟩,
   ⟨{ wkAsked 4096 with waykeys := (List.range 16).map fun k => (k, pairOf (wkVal 1)) }, 1, by decide +kernel⟩,
   ⟨wkHeld 1, 1, (wkHeld 1).regF (1) Reg.RT_WK_SEL 0 16, by decide +kernel⟩,
   ⟨wkHeld 3, 1, (wkHeld 3).regF (1) Reg.RT_WK_SEL 0 16, by decide +kernel⟩,
   ⟨wkHeld 1, 1, (wkHeld 1).regF (1) Reg.RT_WK_SEL 0 16, 3, by decide +kernel⟩,
   ⟨wkHeld 2, 2, by decide +kernel⟩,
   ⟨wkHeld 1, 2, by decide +kernel⟩,
   ⟨at_ (wkHeld 2) 65536, 2, by decide +kernel⟩,
   ⟨wkHeld 2, 2, by decide +kernel⟩⟩

theorem witness_ShaperCommands :
    (∃ (s : State),
    s.pf0 = true ∧ (shBurst s.shWords = 0 ∨ shPktBurst s.shWords = 0 ∨ getF s.shWords 0 13 ≠ 0 ∨ s.lportExists (s.regF
      0 Reg.SHP_SEL 0 4) = false)) ∧
    (∃ (s : State) (v : BitVec 128),
    s.pf0 = true ∧ v = BitVec.ofNat 128 ((s.reg 0 Reg.SHP_W).toNat + (s.reg 0 (Reg.SHP_W + 4)).toNat * 2 ^ 32 + (s.reg
      0 (Reg.SHP_W + 8)).toNat * 2 ^ 64) ∧ shBurst v ≠ 0 ∧ shPktBurst v ≠ 0 ∧ getF v 0 13 = 0 ∧ s.lportExists (s.regF
      0 Reg.SHP_SEL 0 4) = true) ∧
    (∃ (v : BitVec 128),
    shBurst v < 2 ^ 24) ∧
    (∃ (s : State) (j : Nat),
    s.pf0 = true ∧ j < 4) ∧
    (∃ (s : State) (p : Nat) (x : Lead),
    (s.shaper p x.port).ok = false) :=
  ⟨⟨live, by decide +kernel⟩,
   ⟨withRegs live [(0, Reg.SHP_W, 0x00800000), (0, Reg.SHP_W + 4, 0x00100000)],
    BitVec.ofNat 128 (((withRegs live [(0, Reg.SHP_W, 0x00800000), (0, Reg.SHP_W + 4, 0x00100000)]).reg 0 Reg.SHP_W).toNat + ((withRegs live [(0, Reg.SHP_W, 0x00800000), (0, Reg.SHP_W + 4, 0x00100000)]).reg 0 (Reg.SHP_W + 4)).toNat * 2 ^ 32 + ((withRegs live [(0, Reg.SHP_W, 0x00800000), (0, Reg.SHP_W + 4, 0x00100000)]).reg 0 (Reg.SHP_W + 8)).toNat * 2 ^ 64),
    by decide +kernel⟩,
   ⟨shReset, by decide +kernel⟩,
   ⟨live, 1, by decide +kernel⟩,
   ⟨sender.setShaper 0 0 ⟨0, 0⟩, 0, lead0, by decide +kernel⟩⟩

theorem witness_ShapersRefillAtTheBoundary :
    (∃ (s : State) (p : Nat) (l : Nat) (v : BitVec 128),
    s.acctWanted = s.acctPackets ∧ s.shChanges = [] ∧ (s.shapers.map Prod.fst).Nodup ∧ l < 16 ∧ p * 16 + l ∈
      s.shapers.map Prod.fst ∧ s.shaper p l = ⟨v, ~~~v⟩ ∧ shEn v = true) ∧
    (∃ (s : State) (p : Nat) (l : Nat) (v : BitVec 128),
    s.acctWanted = s.acctPackets ∧ s.shChanges = [] ∧ l < 16 ∧ s.shaper p l = ⟨v, ~~~v⟩ ∧ shEn v = false) ∧
    (∃ (s : State) (p : Nat) (l : Nat) (n : Nat) (v : BitVec 128),
    s.shaper p l = ⟨v, ~~~v⟩ ∧ n < 2 ^ 16 ∧ -2147418112 ≤ shTokens v) :=
  ⟨⟨{ live with acctPackets := false }.setShaper 0 0 (pairOf (setF shReset 13 1 1)), 0, 0,
    setF shReset 13 1 1, by decide +kernel⟩,
   ⟨{ live with acctPackets := false }, 0, 0, shReset, by decide +kernel⟩,
   ⟨live, 0, 0, 100, shReset, by decide +kernel⟩⟩

theorem witness_PartitionsAreReleasedAndActivated :
    (∃ (s : State) (p : Nat),
    s.pf0 = true ∧ p < 64 ∧ s.part p = .active ∧ (∀ r ∈ s.resets, r.part ≠ p)) ∧
    (∃ (s : State) (p : Nat),
    s.pf0 = true ∧ p < 64 ∧ s.part p = .active ∧ (∃ r ∈ s.resets, r.part = p) ∧ (∀ r ∈ s.releasing, r.1 ≠ p)) ∧
    (∃ (s : State) (p : Nat) (c : Instr),
    s.pf0 = true ∧ p < 64 ∧ (s.partPair p).ok = true ∧ (c = .release p ∧ s.part p ≠ .active ∨ c = .activate p ∧ s.part
      p ≠ .released)) ∧
    (∃ (s : State) (p : Nat),
    s.releaseStep p = some .draining ∧ (∀ c ∈ s.cmds, c.part ≠ p) ∧ (∀ e ∈ s.waykeys, wkState e.2.val ≠ 2 ∨ wkPart
      e.2.val ≠ p)) ∧
    (∃ (s : State) (p : Nat),
    (s.releaseStep p ≠ some .draining ∨ ∃ c ∈ s.cmds, c.part = p)) ∧
    (∃ (s : State) (p : Nat),
    s.releaseStep p = some .scrubbed) ∧
    (∃ (s : State) (p : Nat),
    s.pf0 = true ∧ p < 64 ∧ s.part p = .released) ∧
    (∃ (s : State) (fn : Nat) (v : Word),
    s.fnServed fn = true ∧ s.life ≠ .recovery ∧ getB v 0 = true ∧ s.regB fn Reg.PT_ATT_STAT 0 = false) ∧
    (∃ (s : State) (fn : Nat) (v : Word),
    s.fnServed fn = true ∧ s.life ≠ .recovery ∧ getB v 0 = true ∧ s.regB fn Reg.PT_ATT_STAT 0 = true) ∧
    (∃ (s : State) (fn : Nat) (a : Attest),
    s.attest.find? (fun a => a.fn == fn) = some a) :=
  ⟨⟨live, 0, by decide +kernel⟩,
   by refine ⟨{ live with resets := [⟨0, [], 5⟩] }, 0, ?_, ?_, ?_, ⟨⟨0, [], 5⟩, by decide +kernel⟩, ?_⟩ <;> decide +kernel,
   by refine ⟨live, 0, .activate 0, ?_, ?_, ?_, Or.inr (by decide +kernel)⟩ <;> decide +kernel,
   ⟨{ (live.setPart 0 .releasing) with releasing := [(0, pairOf 2)], mem := [(0x10000000000, 1)] }, 0,
    by decide +kernel⟩,
   ⟨live, 0, Or.inl (by decide +kernel)⟩,
   ⟨{ (live.setPart 0 .releasing) with releasing := [(0, pairOf 3)] }, 0, by decide +kernel⟩,
   ⟨live.setPart 0 .released, 0, by decide +kernel⟩,
   ⟨live, 1, 1, by decide +kernel⟩,
   ⟨withRegs live [(1, Reg.PT_ATT_STAT, 1)], 1, 1, by decide +kernel⟩,
   ⟨{ withRegs live [(1, Reg.PT_ATT_STAT, 1)] with attest := [⟨1, 1, 0⟩] }, 1, ⟨1, 1, 0⟩, by decide +kernel⟩⟩

theorem witness_ResetsOfPartitionsAndEngines :
    (∃ (s : State) (p : Nat),
    s.pf0 = true ∧ p < 64 ∧ s.part p = .active ∧ (∀ r ∈ s.resets, r.part ≠ p)) ∧
    (∃ (s : State) (p : Nat),
    (s.part p ≠ .active ∨ ∃ r ∈ s.resets, r.part = p)) ∧
    (∃ (s : State) (fn : Nat) (p : Nat) (v : Word),
    s.fnServed fn = true ∧ s.life ≠ .recovery ∧ p = (if fn = 0 then getF v 8 6 else fn - 1) ∧ engineMask v ≠ [] ∧
      s.part p = .active) ∧
    (∃ (s : State) (fn : Nat) (p : Nat) (st : Nat) (v : Word) (i : Instr) (c : Cmd),
    s.pf0 = true ∧ p < 64 ∧ s.part p = .active ∧ (i = .preset p ∧ st = 0x09 ∧ (∀ r ∈ s.resets, r.part ≠ p) ∨ i =
      .engineReset fn v ∧ st = 0x0A ∧ s.fnServed fn = true ∧ p = (if fn = 0 then getF v 8 6 else fn - 1) ∧ c.eng ∈
      engineMask v) ∧ s.cmd? c.id = some c ∧ c.part = p ∧ c.phase ≠ .ended ∧ s.req? c.id = none ∧ s.merge? c.id = none
      ∧ s.haul? c.id = none ∧ (∀ h ∈ s.holds, h.cmd ≠ c.id) ∧ s.kindle? c.id = none ∧ (∀ j ∈ s.rows, j.cmd ≠ c.id)) ∧
    (∃ (s : State) (p : Nat),
    (∃ r ∈ s.resets, r.part = p) ∧ (∀ c ∈ s.cmds, c.part ≠ p) ∧ s.releaseStep p ≠ some .delayed) ∧
    (∃ (s : State) (p : Nat),
    (∃ r ∈ s.resets, r.part = p) ∧ (∀ c ∈ s.cmds, c.part ≠ p) ∧ s.releaseStep p = some .delayed) ∧
    (∃ (s : State) (p : Nat),
    ((∀ r ∈ s.resets, r.part ≠ p) ∨ ∃ c ∈ s.cmds, c.part = p)) ∧
    (∃ (s : State) (p : Nat),
    (∀ c ∈ s.cmds, c.part = p → c.phase ≠ .ended)) ∧
    (∃ (s : State) (p : Nat) (r : Reset) (c : Cmd),
    r ∈ s.engResets ∧ r.part = p ∧ c ∈ s.cmds ∧ c.part = p ∧ c.eng ∈ r.engines ∧ c.phase = .ended) ∧
    (∃ (s : State) (a : Nat) (p : Nat),
    s.hasUE a 1 = true ∧ inReserved a 1 = false ∧ s.ownerOf a = some p ∧ s.part p = .active ∧ (∀ r ∈ s.resets, r.part
      ≠ p) ∧ (∀ x ∈ s.slots, x.part = p → sharesStorage a 1 x.addr x.size = false)) ∧
    (∃ (s : State) (a : Nat),
    s.hasUE a 1 = true ∧ inReserved a 1 = true ∧ (s.life = .standby ∨ s.life = .service ∨ s.life = .drain)) ∧
    (∃ (s : State) (a : Nat) (p : Nat),
    s.hasUE a 1 = false ∧ s.scratchHit a = some p ∧ s.part p = .active ∧ (∀ r ∈ s.resets, r.part ≠ p)) ∧
    (∃ (s : State) (a : Nat),
    s.hasUE a 1 = false ∧ s.scratchHit a = none) ∧
    (∃ (s : State) (r : RecRef) (x : Suspect),
    s.suspects.find? (fun x => x.what == r) = some x ∧ s.ft.now.toNat < x.at_ + 1000) ∧
    (∃ (s : State) (r : RecRef) (x : Suspect),
    s.suspects.find? (fun x => x.what == r) = some x ∧ x.at_ + 1000 ≤ s.ft.now.toNat) :=
  ⟨⟨live, 0, by decide +kernel⟩,
   ⟨{ live with resets := [⟨0, [], 5⟩] }, 0, Or.inr ⟨⟨0, [], 5⟩, by decide +kernel⟩⟩,
   ⟨live, 1, 0, 0x12, by decide +kernel⟩,
   by refine ⟨liveCmd waiter, 0, 0, 0x09, 0, .preset 0, waiter, ?_, ?_, ?_, Or.inl (by decide +kernel), ?_⟩ <;> decide +kernel,
   by refine ⟨{ live with resets := [⟨0, [], 5⟩] }, 0, ⟨⟨0, [], 5⟩, by decide +kernel⟩, ?_⟩ <;> decide +kernel,
   by refine ⟨{ live with resets := [⟨0, [], 5⟩], releasing := [(0, pairOf 1)] }, 0, ⟨⟨0, [], 5⟩, by decide +kernel⟩,
    ?_⟩ <;> decide +kernel,
   ⟨live, 0, Or.inl (by decide +kernel)⟩,
   ⟨{ liveCmd waiter with engResets := [⟨0, [4], 5⟩] }, 0, by decide +kernel⟩,
   ⟨{ liveCmd { waiter with phase := .ended } with engResets := [⟨0, [4], 5⟩] }, 0, ⟨0, [4], 5⟩,
    { waiter with phase := .ended }, by decide +kernel⟩,
   ⟨{ live with ecc := [(0x10000000000 / 8, .uncorrectable)] }, 0x10000000000, 0, by decide +kernel⟩,
   ⟨{ live with ecc := [(0x17000000 / 8, .uncorrectable)] }, 0x17000000, by decide +kernel⟩,
   ⟨{ live with scratchEcc := [(5, .uncorrectable)] }, 0x10000000000, 0, by decide +kernel⟩,
   ⟨live, 0x10000000000, by decide +kernel⟩,
   ⟨{ live with suspects := [⟨.waykey 2, 10000⟩] }, .waykey 2, ⟨.waykey 2, 10000⟩, by decide +kernel⟩,
   ⟨{ live.setWaykey 2 ⟨0, 0⟩ with suspects := [⟨.waykey 2, 0⟩] }, .waykey 2, ⟨.waykey 2, 0⟩, by decide +kernel⟩⟩

theorem witness_WatchdogLinksAndProbes :
    (∃ (s : State),
    s.pwrGood = true) ∧
    (∃ (s : State) (v : Word),
    v ≠ ~~~s.wdogValue) ∧
    (∃ (s : State),
    s.pwrGood = true ∧ s.wdogAt + 128 ≤ s.ms ∧ s.regB 0 Reg.FX_STAT 3 = false) ∧
    (∃ (s : State),
    s.pwrGood = true ∧ s.wdogAt + 256 ≤ s.ms ∧ (s.life = .standby ∨ s.life = .service ∨ s.life = .drain)) ∧
    (∃ (s : State) (l : Nat),
    tget (fun _ => 0) s.flits l < 7) ∧
    (∃ (s : State) (l : Nat),
    7 ≤ tget (fun _ => 0) s.flits l) ∧
    (∃ (s : State) (b : List Byte),
    s.pf0 = true ∧ b = s.staged 0 (min 16777216 (leNat (s.staged 32 8)))) ∧
    (∃ (s : State) (p : Probe),
    s.pf0 = true ∧ s.probe = some p) ∧
    (∃ (s : State) (p : Probe) (r : ProbeRun) (rest : List ProbeRun) (out : List Byte),
    s.probe = some p ∧ p.running = r :: rest ∧ p.session = false ∧ crc64 out = leAt (pkRecord p.pack r.record) 16 8) ∧
    (∃ (s : State) (p : Probe) (r : ProbeRun) (rest : List ProbeRun) (out : List Byte),
    s.probe = some p ∧ p.running = r :: rest ∧ p.session = false ∧ crc64 out ≠ leAt (pkRecord p.pack r.record) 16 8 ∧
      r.second.get? ≠ some 1) ∧
    (∃ (s : State) (p : Probe) (r : ProbeRun) (rest : List ProbeRun) (out : List Byte),
    s.probe = some p ∧ p.running = r :: rest ∧ p.session = false ∧ crc64 out ≠ leAt (pkRecord p.pack r.record) 16 8 ∧
      r.second.get? = some 1) ∧
    (∃ (s : State),
    s.probe = none) :=
  ⟨⟨live, by decide +kernel⟩,
   ⟨live, 0, by decide +kernel⟩,
   ⟨at_ live 1000000, by decide +kernel⟩,
   ⟨at_ live 1000000, by decide +kernel⟩,
   ⟨live, 3, by decide +kernel⟩,
   ⟨{ live with flits := [(3, 7)] }, 3, by decide +kernel⟩,
   ⟨live, (live).staged 0 (min 16777216 (leNat ((live).staged 32 8))), by decide +kernel⟩,
   ⟨{ live with probe := some ⟨[], false, 0, [], []⟩ }, ⟨[], false, 0, [], []⟩, by decide +kernel⟩,
   ⟨{ live with probe := some ⟨[], false, 1, [], [⟨0, 0, 2, pairOf 0⟩]⟩ },
    ⟨[], false, 1, [], [⟨0, 0, 2, pairOf 0⟩]⟩, ⟨0, 0, 2, pairOf 0⟩, [], [], by decide +kernel⟩,
   ⟨{ live with probe := some ⟨[], false, 1, [], [⟨0, 0, 2, pairOf 0⟩]⟩ },
    ⟨[], false, 1, [], [⟨0, 0, 2, pairOf 0⟩]⟩, ⟨0, 0, 2, pairOf 0⟩, [], [1], by decide +kernel⟩,
   ⟨{ live with probe := some ⟨[], false, 1, [], [⟨0, 0, 2, pairOf 1⟩]⟩ },
    ⟨[], false, 1, [], [⟨0, 0, 2, pairOf 1⟩]⟩, ⟨0, 0, 2, pairOf 1⟩, [], [1], by decide +kernel⟩,
   ⟨live, by decide +kernel⟩⟩

theorem witness_LeaseCommandsFollowTheirRules :
    (∃ (s : State) (fn : Nat) (dst : Nat) (k : DirKey) (d : Dir) (v : BitVec 256) (o : BitVec 128),
    fn ≠ 0 ∧ s.fnServed fn = true ∧ k = s.leaseSel fn ∧ dst = s.regF fn Reg.FX_LEASE_SEL 8 16 ∧ s.dir? k = some d ∧
      s.openEntry k = some v ∧ d.own? = some o ∧ owState o = 1 ∧ dst ≠ 0 ∧ dst ≠ 0xFFFF ∧ dst ≠ s.nodeId) ∧
    (∃ (s : State) (fn : Nat) (dst : Nat) (k : DirKey) (d : Dir) (v : BitVec 256) (o : BitVec 128),
    fn ≠ 0 ∧ s.fnServed fn = true ∧ k = s.leaseSel fn ∧ dst = s.regF fn Reg.FX_LEASE_SEL 8 16 ∧ s.dir? k = some d ∧
      s.openEntry k = some v ∧ d.own? = some o ∧ owState o = 1 ∧ dst ≠ 0 ∧ dst ≠ 0xFFFF ∧ dst ≠ s.nodeId) ∧
    (∃ (s : State) (fn : Nat) (k : DirKey) (d : Dir) (v : BitVec 256) (o : BitVec 128),
    fn ≠ 0 ∧ s.fnServed fn = true ∧ k = s.leaseSel fn ∧ s.dir? k = some d ∧ s.openEntry k = some v ∧ d.own? = some o ∧
      (owState o = 3 ∨ owState o = 4) ∧ (owEnd o = 2 ^ 40 - 1 ∨ s.endMs o + 2 ≤ s.ms)) ∧
    (∃ (s : State) (fn : Nat) (dst : Nat) (k : DirKey) (d : Dir) (v : BitVec 256) (o : BitVec 128) (c : Instr),
    fn ≠ 0 ∧ s.fnServed fn = true ∧ k = s.leaseSel fn ∧ dst = s.regF fn Reg.FX_LEASE_SEL 8 16 ∧ s.dir? k = some d ∧
      s.openEntry k = some v ∧ d.own? = some o ∧ ((c = .leaseGrant fn ∨ c = .leaseTwin fn) ∧ (owState o ≠ 1 ∨ dst = 0
      ∨ dst = 0xFFFF ∨ dst = s.nodeId) ∨ c = .leaseTake fn ∧ ((owState o ≠ 3 ∧ owState o ≠ 4) ∨ (owEnd o ≠ 2 ^ 40 - 1
      ∧ s.ms < s.endMs o + 2)))) ∧
    (∃ (s : State) (fn : Nat),
    fn ≠ 0 ∧ s.fnServed fn = true ∧ s.dir? (s.leaseSel fn) = none) ∧
    (∃ (s : State) (fn : Nat) (j : Nat) (k : DirKey) (d : Dir) (v : BitVec 256) (o : BitVec 128),
    fn ≠ 0 ∧ s.fnServed fn = true ∧ k = s.leaseSel fn ∧ s.dir? k = some d ∧ s.openEntry k = some v ∧ d.own? = some o ∧
      j < 4) :=
  ⟨⟨leased (ownAt 7 7 noEnd 1) 8, 1, (leased (ownAt 7 7 noEnd 1) 8).regF (1) Reg.FX_LEASE_SEL 8 16,
    (leased (ownAt 7 7 noEnd 1) 8).leaseSel (1), leasedDir (ownAt 7 7 noEnd 1), entryOf 1024 1,
    ownAt 7 7 noEnd 1, by decide +kernel⟩,
   ⟨leased (ownAt 7 7 noEnd 1) 8, 1, (leased (ownAt 7 7 noEnd 1) 8).regF (1) Reg.FX_LEASE_SEL 8 16,
    (leased (ownAt 7 7 noEnd 1) 8).leaseSel (1), leasedDir (ownAt 7 7 noEnd 1), entryOf 1024 1,
    ownAt 7 7 noEnd 1, by decide +kernel⟩,
   ⟨leased (ownAt 8 7 noEnd 3) 0, 1, (leased (ownAt 8 7 noEnd 3) 0).leaseSel (1),
    leasedDir (ownAt 8 7 noEnd 3), entryOf 1024 1, ownAt 8 7 noEnd 3, by decide +kernel⟩,
   ⟨leased (ownAt 7 7 noEnd 1) 7, 1, (leased (ownAt 7 7 noEnd 1) 7).regF (1) Reg.FX_LEASE_SEL 8 16,
    (leased (ownAt 7 7 noEnd 1) 7).leaseSel (1), leasedDir (ownAt 7 7 noEnd 1), entryOf 1024 1,
    ownAt 7 7 noEnd 1, .leaseGrant 1, by decide +kernel⟩,
   ⟨live, 1, by decide +kernel⟩,
   ⟨leased (ownAt 7 7 noEnd 1) 8, 1, 2, (leased (ownAt 7 7 noEnd 1) 8).leaseSel (1),
    leasedDir (ownAt 7 7 noEnd 1), entryOf 1024 1, ownAt 7 7 noEnd 1, by decide +kernel⟩⟩

theorem witness_LeaseMessagesAndTimers :
    (∃ (s : State) (n : Nat) (m : List Byte) (c : Instr),
    (lmKind m = n ∨ lmKind m = 0 ∨ 4 < lmKind m) ∧ (n = 1 ∧ c = .grant m ∨ n = 2 ∧ c = .renew m ∨ n = 3 ∧ c = .final m
      ∨ n = 4 ∧ c = .deny m) ∧ (s.leaseForm m = false ∨ s.leaseKey? m = none)) ∧
    (∃ (s : State) (m : List Byte) (k : DirKey) (d : Dir) (o : BitVec 128),
    lmKind m = 1 ∧ s.leaseForm m = true ∧ s.leaseKey? m = some k ∧ s.dir? k = some d ∧ d.own? = some o ∧ (owState o =
      0 ∨ owState o = 3 ∨ owState o = 4) ∧ owEpoch o < lmEpoch m ∧ s.ms < lmEnd m) ∧
    (∃ (s : State) (m : List Byte) (k : DirKey) (d : Dir) (o : BitVec 128),
    lmKind m = 2 ∧ s.leaseForm m = true ∧ s.leaseKey? m = some k ∧ s.dir? k = some d ∧ d.own? = some o ∧ lmEpoch m =
      owEpoch o ∧ (owState o = 2 ∨ (owState o = 3 ∧ owGrantor o = s.nodeId))) ∧
    (∃ (s : State) (m : List Byte) (k : DirKey) (d : Dir) (o : BitVec 128),
    lmKind m = 3 ∧ s.leaseForm m = true ∧ s.leaseKey? m = some k ∧ s.dir? k = some d ∧ d.own? = some o ∧ lmEpoch m =
      owEpoch o ∧ owState o = 1) ∧
    (∃ (s : State) (m : List Byte) (k : DirKey) (d : Dir) (o : BitVec 128),
    lmKind m = 4 ∧ s.leaseForm m = true ∧ s.leaseKey? m = some k ∧ s.dir? k = some d ∧ d.own? = some o) ∧
    (∃ (s : State) (k : DirKey) (d : Dir) (o : BitVec 128) (n : Nat) (due : Nat) (dst : Nat) (c : Instr),
    s.dir? k = some d ∧ d.own? = some o ∧ s.ms < s.endMs o ∧ (c = .grantResend k ∧ n = 1 ∧ owState o = 2 ∧ due = 16 ∧
      dst = owHolder o ∨ c = .renewTimer k ∧ n = 2 ∧ owState o = 1 ∧ owEnd o ≠ 2 ^ 40 - 1 ∧ d.final = false ∧ due =
      max 1 (s.leaseTerm / 4) ∧ dst = owGrantor o)) ∧
    (∃ (s : State) (k : DirKey) (d : Dir) (o : BitVec 128),
    s.dir? k = some d ∧ d.own? = some o ∧ owState o = 1 ∧ owEnd o ≠ 2 ^ 40 - 1 ∧ s.endMs o ≤ s.ms) ∧
    (∃ (s : State) (k : DirKey) (d : Dir) (o : BitVec 128),
    s.dir? k = some d ∧ d.own? = some o ∧ owState o = 2 ∧ s.endMs o + 2 ≤ s.ms ∧ s.adrift = false) ∧
    (∃ (s : State) (k : DirKey) (d : Dir) (o : BitVec 128) (c : Instr),
    s.dir? k = some d ∧ d.own? = some o ∧ (c = .leaseExpire k ∧ (owState o ≠ 1 ∨ owEnd o = 2 ^ 40 - 1 ∨ s.ms < s.endMs
      o) ∨ c = .leaseReclaim k ∧ (owState o ≠ 2 ∨ s.ms < s.endMs o + 2 ∨ s.adrift = true))) :=
  ⟨⟨live, 1, leaseMsg 1 2 1000, .grant (leaseMsg 1 2 1000), by decide +kernel⟩,
   ⟨leased (ownAt 8 8 noEnd 3) 0, leaseMsg 1 2 1000, ⟨0, 3, 0⟩, leasedDir (ownAt 8 8 noEnd 3),
    ownAt 8 8 noEnd 3, by decide +kernel⟩,
   ⟨leased (ownAt 8 7 1000 2) 0, leaseMsg 2 1 1000, ⟨0, 3, 0⟩, leasedDir (ownAt 8 7 1000 2), ownAt 8 7 1000 2,
    by decide +kernel⟩,
   ⟨leased (ownAt 7 8 1000 1) 0, leaseMsg 3 1 1000, ⟨0, 3, 0⟩, leasedDir (ownAt 7 8 1000 1), ownAt 7 8 1000 1,
    by decide +kernel⟩,
   ⟨leased (ownAt 7 7 noEnd 1) 0, leaseMsg 4 3 1000, ⟨0, 3, 0⟩, leasedDir (ownAt 7 7 noEnd 1),
    ownAt 7 7 noEnd 1, by decide +kernel⟩,
   ⟨at_ (leased (ownAt 8 7 1000 2) 0) 65536, ⟨0, 3, 0⟩, leasedDir (ownAt 8 7 1000 2), ownAt 8 7 1000 2, 1, 16,
    8, .grantResend ⟨0, 3, 0⟩, by decide +kernel⟩,
   ⟨leased (ownAt 7 8 4 1) 0, ⟨0, 3, 0⟩, leasedDir (ownAt 7 8 4 1), ownAt 7 8 4 1, by decide +kernel⟩,
   ⟨leased (ownAt 8 7 3 2) 0, ⟨0, 3, 0⟩, leasedDir (ownAt 8 7 3 2), ownAt 8 7 3 2, by decide +kernel⟩,
   ⟨leased (ownAt 8 7 4 2) 0, ⟨0, 3, 0⟩, leasedDir (ownAt 8 7 4 2), ownAt 8 7 4 2, .leaseReclaim ⟨0, 3, 0⟩,
    by decide +kernel⟩⟩

theorem witness_RebuildsAndRegisters :
    (∃ (s : State) (fn : Nat) (seq : Nat) (i : Nat),
    fn ≠ 0 ∧ s.fnServed fn = true ∧ s.awake = true ∧ s.life ≠ .held ∧ seq = s.reg64 fn Reg.FX_LEASE_SEQ_LO
      Reg.FX_LEASE_SEQ_HI ∧ s.heldLayers (fn - 1) seq ≠ [] ∧ 8 * (s.heldLayers (fn - 1) seq).length + 64 ≤ 33554432 ∧
      (∀ r ∈ s.rebuilds, r.1 = fn - 1 → r.2.mode ≠ 1 ∧ r.2.mode ≠ 2) ∧ s.connTo (fn - 1) (s.regF fn Reg.FX_RB_CFG 0
      16) = some i) ∧
    (∃ (s : State) (fn : Nat),
    s.fnServed fn = true ∧ s.connTo (fn - 1) (s.regF fn Reg.FX_RB_CFG 0 16) = none) ∧
    (∃ (s : State) (fn : Nat),
    fn ≠ 0 ∧ s.fnServed fn = true) ∧
    (∃ (s : State) (fn : Nat) (epoch : Nat) (seq : Nat) (layer : Nat) (pub : Nat) (x0 : Nat) (x1 : Nat) (d : Dir) (v :
      BitVec 256) (o : BitVec 128),
    fn ≠ 0 ∧ s.part (fn - 1) = .active ∧ s.regB fn Reg.FX_RB_STAGE 31 = true ∧ s.awake = true ∧ s.life ≠ .held ∧
      s.rebuildable (fn - 1) seq (layer, pub, x0, x1) = true ∧ pub < 2 ^ 24 ∧ epoch < 2 ^ 32 ∧ s.dir? ⟨fn - 1, seq,
      layer⟩ = some d ∧ d.val? = some v ∧ d.own? = some o) ∧
    (∃ (s : State) (fn : Nat) (seq : Nat) (span : Nat) (pages : List (Nat × Nat × List Byte)) (r : Rebuild) (x : Nat ×
      Nat × List Byte),
    fn ≠ 0 ∧ s.part (fn - 1) = .active ∧ s.regB fn Reg.FX_RB_STAGE 31 = true ∧ s.awake = true ∧ s.life ≠ .held ∧
      s.rebuilds.find? (fun r => r.1 == fn - 1 && r.2.mode == 2 && r.2.seq == seq) = some (fn - 1, r) ∧ span ∈ r.left
      ∧ x ∈ pages ∧ s.pageImage (fn - 1) r.seq x = none) ∧
    (∃ (s : State) (fn : Nat) (seq : Nat) (r : Rebuild),
    fn ≠ 0 ∧ s.part (fn - 1) = .active ∧ s.regB fn Reg.FX_RB_STAGE 31 = true ∧ s.awake = true ∧ s.life ≠ .held ∧
      s.rebuilds.find? (fun r => r.1 == fn - 1 && r.2.mode == 2 && r.2.seq == seq) = some (fn - 1, r)) ∧
    (∃ (s : State) (off : Nat) (m : Word),
    s.pf0 = true ∧ (off, m) ∈ [(Reg.MT_ERR_STAT, (0x7 : Word)), (Reg.PG_ERR_STAT, 0xF), (Reg.FL_ERR_STAT, 0x7),
      (Reg.AT_ERR_STAT, 0xF), (Reg.MG_ERR_STAT, 0x7F), (Reg.KN_ERR_STAT, 0xF), (Reg.PR_ERR_STAT, 0x3),
      (Reg.RT_ERR_STAT, 0x1), (Reg.SHP_ERR_STAT, 0x7), (Reg.PT_ERR_STAT, 0x3), (Reg.FX_ERR_STAT, 0x1F),
      (Reg.LS_ERR_STAT, 0x1)]) ∧
    (∃ (s : State) (fn : Nat) (e : Nat) (off : Nat),
    fn ≠ 0 ∧ s.fnServed fn = true ∧ s.life ≠ .recovery ∧ e < 6 ∧ off = Reg.CQ_RING_CFG + 0x40 * e) ∧
    (∃ (s : State) (fn : Nat),
    s.lodgeAnswers = true ∧ s.fnExists fn = true ∧ s.fnServed fn = false) ∧
    (∃ (s : State) (off : Nat),
    s.pf0 = true ∧ off ∈ [Reg.FT_BCN_ACC, Reg.FT_BCN_DISC, Reg.FT_OVERRUN_CNT, Reg.MT_UNMAPPED_CNT,
      Reg.MT_CPL_FAULT_CNT, Reg.PG_APPEND_CNT, Reg.FL_CE_CNT, Reg.AT_REQ_CNT, Reg.MG_SEAL_CNT, Reg.RT_RX_DISC_CNT,
      Reg.FX_PRESET_CNT, Reg.LS_FLR_CNT]) ∧
    (∃ (s : State) (fn : Nat) (off : Nat),
    s.fnServed fn = true ∧ s.hasReg fn off = false) :=
  ⟨⟨leased (ownAt 7 7 noEnd 1) 0, 1, 3, 1, by decide +kernel⟩,
   ⟨live, 1, by decide +kernel⟩,
   ⟨leased (ownAt 7 7 noEnd 1) 0, 1, by decide +kernel⟩,
   ⟨{ leased (ownAt 8 8 noEnd 3) 0 with dir := [dirOf (entryOf 0 1) (ownAt 8 8 noEnd 3)], slots := [] }, 1, 2,
    3, 0, 1024, 0, 4095, dirOf (entryOf 0 1) (ownAt 8 8 noEnd 3), entryOf 0 1, ownAt 8 8 noEnd 3,
    by decide +kernel⟩,
   ⟨spare, 1, 3, 0, [(0, 0, [])], rebuild0, (0, 0, []), by decide +kernel⟩,
   ⟨spare, 1, 3, rebuild0, by decide +kernel⟩,
   ⟨withRegs live [(0, Reg.MT_ERR_STAT, 7)], Reg.MT_ERR_STAT, 7, by decide +kernel⟩,
   ⟨live, 1, 2, Reg.CQ_RING_CFG + 0x40 * (2), by decide +kernel⟩,
   ⟨live.setPart 0 .released, 1, by decide +kernel⟩,
   ⟨withRegs live [(0, Reg.PG_APPEND_CNT, 9)], Reg.PG_APPEND_CNT, by decide +kernel⟩,
   ⟨live, 1, 0x1FFF0, by decide +kernel⟩⟩

theorem witness_LifeRequestsFollowTheTable :
    (∃ (s : State),
    s.fnServed 0 = true ∧ s.standbyWanted = false ∧ (s.life = .standby ∨ s.life = .drain) ∧ s.regB 0 Reg.FT_STAT 8 =
      false) ∧
    (∃ (s : State),
    s.fnServed 0 = true ∧ s.standbyWanted = false ∧ ((s.life ≠ .standby ∧ s.life ≠ .drain) ∨ s.regB 0 Reg.FT_STAT 8 =
      true)) ∧
    (∃ (s : State),
    s.fnServed 0 = true ∧ s.standbyWanted = false ∧ s.life = .service) ∧
    (∃ (s : State),
    s.fnServed 0 = true ∧ s.standbyWanted = false ∧ s.life ≠ .service) ∧
    (∃ (s : State),
    s.fnServed 0 = true ∧ s.standbyWanted = false ∧ (s.life = .service ∨ s.life = .drain)) ∧
    (∃ (s : State),
    s.fnServed 0 = true ∧ s.standbyWanted = false ∧ s.life ≠ .service ∧ s.life ≠ .drain) ∧
    (∃ (s : State),
    s.standbyWanted = true ∧ s.life ≠ .standby ∧ s.cmds = [] ∧ (∀ e ∈ s.sent, e.early = true → e.verdict.isSome =
      true)) ∧
    (∃ (s : State),
    s.cmds ≠ []) ∧
    (∃ (s : State),
    s.fnServed 0 = true ∧ (s.life = .standby ∨ s.life = .service ∨ s.life = .drain)) ∧
    (∃ (s : State),
    s.fnServed 0 = true ∧ s.life ≠ .standby ∧ s.life ≠ .service ∧ s.life ≠ .drain) :=
  ⟨⟨{ withRegs live [(0, Reg.FT_STAT, 0)] with life := .standby }, by decide +kernel⟩,
   ⟨{ live with life := .held }, by decide +kernel⟩,
   ⟨live, by decide +kernel⟩,
   ⟨{ live with life := .standby }, by decide +kernel⟩,
   ⟨live, by decide +kernel⟩,
   ⟨{ live with life := .held }, by decide +kernel⟩,
   ⟨{ live with standbyWanted := true }, by decide +kernel⟩,
   ⟨liveCmd waiter, by decide +kernel⟩,
   ⟨live, by decide +kernel⟩,
   ⟨{ live with life := .held }, by decide +kernel⟩⟩

theorem witness_ResetsKeepWhatTheyMayKeep :
    (∃ (s : State),
    s.fnServed 0 = true) ∧
    (∃ (s : State),
    s.life = .recovery) ∧
    (∃ (s : State),
    s.pwrGood = true ∧ s.i3c.armed = true) ∧
    (∃ (s : State) (b : Byte),
    s.pwrGood = true ∧ (b ≠ 0x5A ∨ s.i3c.armed = false)) ∧
    (∃ (ns : Nat),
    ns < 1000) ∧
    (∃ (ns : Nat),
    1000 ≤ ns) ∧
    (∃ (s : State),
    s.pwrGood = true) :=
  ⟨⟨{ live with mem := [(0x10000000000, 1)] }, by decide +kernel⟩,
   ⟨{ live with life := .recovery }, by decide +kernel⟩,
   ⟨{ live with i3c := { live.i3c with armed := true } }, by decide +kernel⟩,
   ⟨live, 0x5A, by decide +kernel⟩,
   ⟨999, by decide +kernel⟩,
   ⟨1000, by decide +kernel⟩,
   ⟨live, by decide +kernel⟩⟩

theorem witness_BootEndsInOneOfThreeStates :
    (∃ (s : State),
    s.life = .boot ∧ s.thermTripped = false) ∧
    (∃ (s : State),
    (s.life ≠ .boot ∨ s.thermTripped = true)) :=
  ⟨⟨State.reset, by decide +kernel⟩,
   ⟨live, by decide +kernel⟩⟩

theorem witness_LodgeAndFunctions :
    (∃ (s : State) (c : LodgeCause),
    (c ≠ .perst → s.lodge.linkUp = true) ∧ (c = .perst → s.lodge.perst = false)) ∧
    (∃ (s : State),
    s.pwrGood = true ∧ s.lodge.perst = false ∧ getF s.straps 2 2 ≠ 3) ∧
    (∃ (s : State),
    (getF s.straps 2 2 = 3 ∨ s.lodge.perst = true)) ∧
    (∃ (s : State) (n : Nat),
    s.lodgeAnswers = true ∧ n ≤ 64 ∧ s.lodge.vfEnable = false) ∧
    (∃ (s : State) (fn : Nat),
    s.lodgeAnswers = true ∧ s.fnExists fn = true ∧ fn ≠ 0) :=
  ⟨⟨live, .hotReset, by decide +kernel⟩,
   ⟨{ live with lodge := { live.lodge with linkUp := false } }, by decide +kernel⟩,
   ⟨State.reset, by decide +kernel⟩,
   ⟨{ live with lodge := { live.lodge with vfEnable := false } }, 3, by decide +kernel⟩,
   ⟨liveRing, 1, by decide +kernel⟩⟩

theorem witness_PowerStatesChangeAtTheirBoundary :
    (∃ (s : State) (v : Word),
    s.pf0 = true ∧ getF v 0 2 ≠ 3) ∧
    (∃ (s : State) (v : Word),
    s.pf0 = true ∧ getF v 0 2 = 3) ∧
    (∃ (s : State),
    s.lodgeAnswers = true) ∧
    (∃ (s : State),
    (s.ms % 64 ≠ 0 ∨ s.ns ≠ 0)) ∧
    (∃ (s : State),
    s.ms % 64 = 0 ∧ s.ns = 0 ∧ s.powerNext = none ∧ s.power = .lit ∧ s.powerWant = .damped ∧ (∀ k ∈ s.kindles,
      k.executing = false)) ∧
    (∃ (s : State),
    s.ms % 64 = 0 ∧ s.ns = 0 ∧ s.powerNext = none ∧ s.power = .lit ∧ s.powerWant = .banked ∧ s.life ≠ .boot ∧ s.life ≠
      .recovery ∧ s.enginesIdle = true) ∧
    (∃ (s : State),
    s.saving = true) ∧
    (∃ (s : State) (p : Power),
    s.ms % 64 = 0 ∧ s.ns = 0 ∧ s.powerNext = some p ∧ s.power ≠ .banked ∧ s.saving = false) ∧
    (∃ (s : State) (p : Power),
    s.powerNext = some p ∧ s.saving = true) :=
  ⟨⟨live, 1, by decide +kernel⟩,
   ⟨live, 3, by decide +kernel⟩,
   ⟨live, by decide +kernel⟩,
   ⟨live, by decide +kernel⟩,
   ⟨{ at_ live 131072 with powerWant := .damped }, by decide +kernel⟩,
   ⟨{ at_ live 131072 with powerWant := .banked }, by decide +kernel⟩,
   ⟨{ live with saving := true, powerNext := some .banked }, by decide +kernel⟩,
   ⟨{ at_ live 131072 with powerWant := .banked, powerNext := some .banked }, .banked, by decide +kernel⟩,
   ⟨{ live with saving := true, powerNext := some .banked }, .banked, by decide +kernel⟩⟩

theorem witness_RecoveryWritesTheFlash :
    (∃ (s : State) (v : Word),
    s.fnServed 0 = true ∧ getB v 0 = true ∧ s.life ≠ .recovery) ∧
    (∃ (s : State) (v : Word) (f : RcvFile) (b : List Byte),
    s.fnServed 0 = true ∧ getB v 0 = true ∧ s.life = .recovery ∧ s.rcvWriting = none ∧ getF v 8 2 = (if f = .firmware
      then 0 else 1) ∧ b = s.staged 0 (s.regF 0 Reg.LS_RCV_LEN 0 25)) ∧
    (∃ (s : State) (f : RcvFile) (b : List Byte),
    s.rcvWriting = some (f, b)) ∧
    (∃ (s : State) (f : RcvFile) (b : List Byte),
    s.rcvWriting = some (f, b)) ∧
    (∃ (s : State) (r : Bool) (off : Nat) (data : List Byte),
    s.fnServed 0 = true ∧ r = (s.life == .recovery) ∧ off + data.length ≤ 16777216) ∧
    (∃ (s : State) (data : List Byte),
    s.life = .recovery ∧ s.rcvWriting = none ∧ data.length ≤ 16777216) ∧
    (∃ (s : State),
    s.life = .recovery) ∧
    (∃ (s : State),
    s.life ≠ .recovery) ∧
    (∃ (s : State) (port : Nat),
    s.life = .recovery ∧ s.mgmt = [(0, ⟨none, true⟩), (1, ⟨none, true⟩)] ∧ port < 2) ∧
    (∃ (s : State) (port : Nat),
    s.life = .recovery ∧ s.mgmt = [(0, ⟨none, true⟩), (1, ⟨none, true⟩)] ∧ port < 2) ∧
    (∃ (s : State),
    s.repairDirty.isSome = true) ∧
    (∃ (s : State),
    s.repairDirty = none) :=
  ⟨⟨live, 1, by decide +kernel⟩,
   ⟨{ live with life := .recovery }, 1, .firmware,
    ({ live with life := .recovery }).staged 0 (({ live with life := .recovery }).regF 0 Reg.LS_RCV_LEN 0 25),
    by decide +kernel⟩,
   ⟨{ live with rcvWriting := some (.charter, [1, 2]) }, .charter, [1, 2], by decide +kernel⟩,
   ⟨{ live with rcvWriting := some (.charter, [1, 2]) }, .charter, [1, 2], by decide +kernel⟩,
   ⟨live, false, 3, [7, 0, 9], by decide +kernel⟩,
   ⟨{ live with life := .recovery }, [1], by decide +kernel⟩,
   ⟨{ live with life := .recovery }, by decide +kernel⟩,
   ⟨live, by decide +kernel⟩,
   ⟨{ live with life := .recovery, mgmt := [(0, ⟨none, true⟩), (1, ⟨none, true⟩)] }, 1, by decide +kernel⟩,
   ⟨{ live with life := .recovery, mgmt := [(0, ⟨none, true⟩), (1, ⟨none, true⟩)] }, 0, by decide +kernel⟩,
   ⟨{ live with repairDirty := some 3 }, by decide +kernel⟩,
   ⟨live, by decide +kernel⟩⟩

theorem witness_TrayInterfaceAndAlerts :
    (∃ (s : State) (a : Nat),
    s.pwrGood = true ∧ a < 128) ∧
    (∃ (s : State),
    s.pwrGood = true) ∧
    (∃ (s : State) (i : Nat),
    s.pwrGood = true ∧ i < 256) ∧
    (∃ (s : State),
    s.pwrGood = true) ∧
    (∃ (s : State) (i : Nat),
    s.pwrGood = true ∧ i < 8) :=
  ⟨⟨live, 9, by decide +kernel⟩,
   ⟨live, by decide +kernel⟩,
   ⟨live, 8, by decide +kernel⟩,
   ⟨live, by decide +kernel⟩,
   ⟨withRegs live [(0, Reg.PW_ALERT_STAT, 0x24)], 5, by decide +kernel⟩⟩

theorem witness_ThermalAndSupplyControl :
    (∃ (s : State),
    s.pwrGood = true ∧ s.ms % 64 = 32 ∧ s.therm.decidedAt ≠ some s.ms) ∧
    (∃ (s : State),
    (s.ms % 64 ≠ 32 ∨ s.therm.decidedAt = some s.ms)) ∧
    (∃ (s : State) (v : Word),
    s.pf0 = true ∧ min 104 (getF v 0 8) < min 104 (getF v 8 8) ∧ min 104 (getF v 8 8) < min 104 (getF v 16 8)) ∧
    (∃ (s : State) (v : Word),
    s.pf0 = true ∧ (min 104 (getF v 8 8) ≤ min 104 (getF v 0 8) ∨ min 104 (getF v 16 8) ≤ min 104 (getF v 8 8))) ∧
    (∃ (s : State) (rs : List (Option (Nat × Nat))) (r : Nat) (mv : Nat) (i : Nat),
    s.pwrGood = true ∧ r < 15 ∧ rs.getD r none = some (mv, i) ∧ mv < 65536 ∧ i < 65536) ∧
    (∃ (s : State),
    s.pwrGood = true) ∧
    (∃ (s : State),
    s.pwrGood = true) ∧
    (∃ (s : State),
    s.pwrGood = true) ∧
    (∃ (n : Nat),
    n < 256) :=
  ⟨⟨at_ live 65536, by decide +kernel⟩,
   ⟨live, by decide +kernel⟩,
   ⟨live, 0x025C5A58, by decide +kernel⟩,
   ⟨live, 0x02585A5C, by decide +kernel⟩,
   ⟨live, [some (750, 40)], 0, 750, 40, by decide +kernel⟩,
   ⟨live, by decide +kernel⟩,
   ⟨live, by decide +kernel⟩,
   ⟨live, by decide +kernel⟩,
   ⟨2, by decide +kernel⟩⟩

end Sys2Proof.Tests
end

section
/-!
PROOFS. Fabric time. First, what leaves the fabric-time unit: one lemma for each function of the model that answers a
state, file by file, tagged for simp. The functions that act on the unit stand apart, in the second part.
-/

namespace Sys2Proof.Machine

/-- The outcome of a command on a state leaves the fabric-time unit as it was. -/
def KeepsFt (s : State) (o : Host.Outcome State Fault Refusal) : Prop := ∀ t, o = .next t → t.ft = s.ft

@[simp] theorem keepsFt_next (s t : State) : KeepsFt s (.next t) ↔ t.ft = s.ft :=
  ⟨fun h => h t rfl, fun h u e => by cases e; exact h⟩

@[simp] theorem ite_ft (c : Prop) [Decidable c] (s t : State) :
    (if c then s else t).ft = if c then s.ft else t.ft := apply_ite State.ft c s t

/-- A fold whose every step leaves the fabric-time unit leaves it. -/
theorem foldl_ft {α : Type} {f : State → α → State} (h : ∀ s a, (f s a).ft = s.ft) (l : List α) (s : State) :
    (l.foldl f s).ft = s.ft := by
  induction l generalizing s with
  | nil => rfl
  | cons a l ih => rw [List.foldl_cons, ih, h]

/-- The same of a fold that carries more than the state. -/
theorem foldl_fst_ft {α β : Type} {f : State × β → α → State × β} (h : ∀ x a, (f x a).1.ft = x.1.ft) (l : List α)
    (x : State × β) : (l.foldl f x).1.ft = x.1.ft := by
  induction l generalizing x with
  | nil => rfl
  | cons a l ih => rw [List.foldl_cons, ih, h]

/-! ### Machine/Ops.lean -/

@[simp] theorem State.cplFault_ft (s : State) (r : RecRef) : (s.cplFault r).ft = s.ft := by simp [State.cplFault]

@[simp] theorem State.countEcc_ft (s : State) (a : Nat) (ue : Bool) : (s.countEcc a ue).ft = s.ft := by
  simp [State.countEcc]

@[simp] theorem State.wantRemap_ft (s : State) (r : Nat) : (s.wantRemap r).ft = s.ft := by simp [State.wantRemap]

@[simp] theorem State.noteCorrected_ft (s : State) (r : Nat) : (s.noteCorrected r).ft = s.ft := by
  simp [State.noteCorrected]

@[simp] theorem State.meetSector_ft (s : State) (k : Nat) : (s.meetSector k).ft = s.ft := by
  unfold State.meetSector
  split <;> simp

@[simp] theorem State.scanned_ft (s : State) (a n : Nat) : (s.scanned a n).ft = s.ft := by
  simp [State.scanned, foldl_ft]

@[simp] theorem State.activate_ft (s : State) (r : Nat) : (s.activate r).ft = s.ft := by simp [State.activate]

@[simp] theorem State.opens_ft (s : State) (a n : Nat) : (s.opens a n).ft = s.ft := by simp [State.opens, foldl_ft]

@[simp] theorem State.scratchRead_ft (s : State) (c lo hi : Nat) : (s.scratchRead c lo hi).ft = s.ft := by
  simp [State.scratchRead, foldl_ft]

@[simp] theorem State.scratchWrite_ft (s : State) (c lo hi : Nat) : (s.scratchWrite c lo hi).ft = s.ft := by
  simp [State.scratchWrite]

@[simp] theorem State.setArb_ft (s : State) (c : Nat) (x : Arb) : (s.setArb c x).ft = s.ft := by simp [State.setArb]

@[simp] theorem State.halfFault_ft (s : State) : s.halfFault.ft = s.ft := by simp [State.halfFault]

/-! ### Machine/Flags.lean -/

@[simp] theorem State.msix_ft (s : State) (fn v : Nat) : (s.msix fn v).ft = s.ft := by simp [State.msix]

@[simp] theorem State.cqError_ft (s : State) (part : Nat) (bits : List Nat) : (s.cqError part bits).ft = s.ft := by
  simp [State.cqError]

@[simp] theorem State.alertFrom_ft (s : State) (before : Bool) : (s.alertFrom before).ft = s.ft := by
  simp only [State.alertFrom]
  (repeat' split) <;> simp

@[simp] theorem State.alert_ft (s : State) (cause : Nat) : (s.alert cause).ft = s.ft := by simp [State.alert]

@[simp] theorem State.setLife_ft (s : State) (l : Life) : (s.setLife l).ft = s.ft := by simp [State.setLife]

@[simp] theorem State.ownerError_ft (s : State) : s.ownerError.ft = s.ft := by simp [State.ownerError]

@[simp] theorem State.unmappedError_ft (s : State) : s.unmappedError.ft = s.ft := by simp [State.unmappedError]

@[simp] theorem State.unserved_ft (s : State) (fn : Nat) : (s.unserved fn).ft = s.ft := by simp [State.unserved]

/-! ### Machine/Operands.lean -/

@[simp] theorem State.ownCheck_ft (s : State) (p a n : Nat) : (s.ownCheck p a n).1.ft = s.ft := by
  unfold State.ownCheck
  (repeat' split) <;> simp

@[simp] theorem State.codedWrite_ft (s : State) (part cmd a : Nat) (bs : List Byte) :
    (s.codedWrite part cmd a bs).ft = s.ft := by simp [State.codedWrite, foldl_ft]

@[simp] theorem State.wakeRange_ft (s : State) (a n : Nat) : (s.wakeRange a n).ft = s.ft := by
  rw [State.wakeRange, foldl_ft]; exact fun _ _ => rfl

/-! ### Machine/Queue.lean -/

@[simp] theorem State.depthMark_ft (s : State) (p tc : Nat) : (s.depthMark p tc).ft = s.ft := by
  simp [State.depthMark]

@[simp] theorem State.enqueued_ft (s : State) (i tc : Nat) : (s.enqueued i tc).ft = s.ft := by
  rw [State.enqueued, foldl_ft]
  · exact State.hwm_ft s _ _ _
  · intro t ex
    split <;> simp

/-! ### Machine/Send.lean -/

@[simp] theorem State.sendMsg_ft (s : State) (i op waykey base len : Nat) (ext data : List Byte) (owner : Owner)
    (num : Option Nat) :
    (s.sendMsg i op waykey base len ext data owner num).ft = s.ft := by simp [State.sendMsg]

@[simp] theorem State.remoteRecord_ft (s : State) (i gen msg pos status eng flags part result tag detail : Nat)
    (cmd : Nat) :
    (s.remoteRecord i gen msg pos status eng flags part result tag detail cmd).ft = s.ft := by
  simp [State.remoteRecord]

/-! ### Machine/Commands.lean -/

@[simp] theorem State.watchFire_ft (s : State) (p : Nat) : (s.watchFire p).ft = s.ft := by simp [State.watchFire]

@[simp] theorem State.wmIncrease_ft (s : State) (p w n : Nat) (poison : Bool) :
    (s.wmIncrease p w n poison).ft = s.ft := by simp [State.wmIncrease]

@[simp] theorem State.signal_ft (s : State) (p w : Nat) (poison : Bool) : (s.signal p w poison).ft = s.ft := by
  simp [State.signal]

@[simp] theorem State.stopRing_ft (s : State) (p e : Nat) : (s.stopRing p e).ft = s.ft := by simp [State.stopRing]

@[simp] theorem State.ringFault_ft (s : State) (p : Nat) (es bits : List Nat) : (s.ringFault p es bits).ft = s.ft := by
  simp [State.ringFault, foldl_ft]

@[simp] theorem State.drainRing_ft (s : State) (p e : Nat) : (s.drainRing p e).ft = s.ft := by simp [State.drainRing]

@[simp] theorem State.enterBody_ft (s : State) (id : Nat) : (s.enterBody id).ft = s.ft := by
  unfold State.enterBody
  split <;> simp

@[simp] theorem State.enterWait_ft (s : State) (id : Nat) : (s.enterWait id).ft = s.ft := by
  unfold State.enterWait
  split <;> simp

@[simp] theorem State.abortLinked_ft (s : State) (id : Nat) : (s.abortLinked id).ft = s.ft := by
  unfold State.abortLinked
  split <;> simp

@[simp] theorem State.releaseLinks_ft (s : State) (id : Nat) (failed : Bool) :
    (s.releaseLinks id failed).ft = s.ft := by simp [State.releaseLinks, foldl_ft]

@[simp] theorem State.take_ft (s : State) (q : Queue) (eng part msg gen : Nat) (index : BitVec 32) (last : Bool)
    (d : BitVec 512) (payload : List Byte) :
    (s.take q eng part msg gen index last d payload).ft = s.ft := by
  simp only [State.take]
  (repeat' split) <;> simp

@[simp] theorem State.takeHost_ft (s : State) (p e : Nat) (d : BitVec 512) : (s.takeHost p e d).ft = s.ft := by
  simp [State.takeHost]

@[simp] theorem State.takeInbound_ft (s : State) (i e : Nat) : (s.takeInbound i e).ft = s.ft := by
  unfold State.takeInbound
  split <;> simp

@[simp] theorem execDescriptorTake_ft (q : Queue) (desc : BitVec 512) (s : State) :
    KeepsFt s (execDescriptorTake q desc s) := by
  unfold execDescriptorTake
  split <;> simp

@[simp] theorem execDescriptorReadFail_ft (part engine : Nat) (_e : HostErr) (s : State) :
    KeepsFt s (execDescriptorReadFail part engine _e s) := by simp [execDescriptorReadFail]

@[simp] theorem execWaitSatisfied_ft (cmd : Nat) (s : State) : KeepsFt s (execWaitSatisfied cmd s) := by
  unfold execWaitSatisfied
  split <;> simp

@[simp] theorem execWaitTimeout_ft (cmd : Nat) (s : State) : KeepsFt s (execWaitTimeout cmd s) := by
  unfold execWaitTimeout
  split <;> simp

@[simp] theorem execNop_ft (cmd : Nat) (s : State) : KeepsFt s (execNop cmd s) := by
  unfold execNop
  split <;> simp

@[simp] theorem State.flush_ft (s : State) (c : Cmd) : (s.flush c).ft = s.ft := by simp [State.flush]

@[simp] theorem State.fence_ft (s : State) (c : Cmd) : (s.fence c).ft = s.ft := by simp [State.fence]

@[simp] theorem State.countDone_ft (s : State) (c : Cmd) : (s.countDone c).ft = s.ft := by
  unfold State.countDone
  (repeat' split) <;> simp

@[simp] theorem State.dropCmd_ft (s : State) (id : Nat) : (s.dropCmd id).ft = s.ft := by simp [State.dropCmd]

@[simp] theorem State.postedNow_ft (s : State) (id : Nat) : (s.postedNow id).ft = s.ft := by simp [State.postedNow]

@[simp] theorem State.postHost_ft (s : State) (c : Cmd) (p e : Nat) : (s.postHost c p e).ft = s.ft := by
  simp [State.postHost]

@[simp] theorem State.post_ft (s : State) (c : Cmd) (lost : Bool) : (s.post c lost).ft = s.ft := by
  unfold State.post
  split <;> simp

@[simp] theorem State.complete_ft (s : State) (c : Cmd) (lost : Bool) : (s.complete c lost).ft = s.ft := by
  unfold State.complete
  split <;> simp

@[simp] theorem execDescriptorComplete_ft (cmd : Nat) (s : State) : KeepsFt s (execDescriptorComplete cmd s) := by
  unfold execDescriptorComplete
  split <;> simp

@[simp] theorem execCplWriteFail_ft (cmd : Nat) (_e : HostErr) (s : State) : KeepsFt s (execCplWriteFail cmd _e s) := by
  unfold execCplWriteFail
  (repeat' split) <;> simp

@[simp] theorem State.badDoorbell_ft (s : State) (p e : Nat) : (s.badDoorbell p e).ft = s.ft := by
  simp [State.badDoorbell]

@[simp] theorem execDoorbellSub_ft (fn engine : Nat) (v : Word) (s : State) :
    KeepsFt s (execDoorbellSub fn engine v s) := by simp [execDoorbellSub]

@[simp] theorem execDoorbellCpl_ft (fn engine : Nat) (v : Word) (s : State) :
    KeepsFt s (execDoorbellCpl fn engine v s) := by simp [execDoorbellCpl]

@[simp] theorem State.ringEnable_ft (s : State) (fn e : Nat) : (s.ringEnable fn e).ft = s.ft := by
  unfold State.ringEnable
  split
  · exact s.unserved_ft fn
  · extract_lets t
    have ht : t.ft = s.ft := s.setReg_ft _ _ _
    split
    · exact (t.setRing_ft (fn - 1) e ⟨.active, 0, 0, 0, 0⟩).trans ht
    · exact ht

@[simp] theorem State.ringDisable_ft (s : State) (fn e : Nat) : (s.ringDisable fn e).ft = s.ft := by
  unfold State.ringDisable
  extract_lets r t
  split
  · exact s.unserved_ft fn
  · have ht : t.ft = s.ft := s.setReg_ft _ _ _
    split
    · rw [State.drainRing_ft, State.setRing_ft, ht]
    · exact ht

@[simp] theorem execRingEnable_ft (fn engine : Nat) (s : State) : KeepsFt s (execRingEnable fn engine s) := by
  simp [execRingEnable]

@[simp] theorem execRingDisable_ft (fn engine : Nat) (s : State) : KeepsFt s (execRingDisable fn engine s) := by
  simp [execRingDisable]

@[simp] theorem State.wmZero_ft (s : State) (fn w : Nat) : (s.wmZero fn w).ft = s.ft := by simp [State.wmZero]

@[simp] theorem State.wmClearPoison_ft (s : State) (fn w : Nat) : (s.wmClearPoison fn w).ft = s.ft := by
  simp [State.wmClearPoison]

@[simp] theorem State.wmAdd_ft (s : State) (fn w : Nat) (v : BitVec 64) : (s.wmAdd fn w v).ft = s.ft := by
  simp [State.wmAdd]

@[simp] theorem State.wmSeen_ft (s : State) (fn w : Nat) : (s.wmSeen fn w).ft = s.ft := by simp [State.wmSeen]

@[simp] theorem execWmZero_ft (fn wm : Nat) (s : State) : KeepsFt s (execWmZero fn wm s) := by simp [execWmZero]

@[simp] theorem execWmClearPoison_ft (fn wm : Nat) (s : State) : KeepsFt s (execWmClearPoison fn wm s) := by
  simp [execWmClearPoison]

@[simp] theorem execWmAdd_ft (fn wm : Nat) (v : BitVec 64) (s : State) : KeepsFt s (execWmAdd fn wm v s) := by
  simp [execWmAdd]

@[simp] theorem execWmValueRead_ft (fn wm : Nat) (wide : Bool) (s : State) :
    KeepsFt s (execWmValueRead fn wm wide s) := by simp [execWmValueRead]

@[simp] theorem State.watchArm_ft (s : State) (fn : Nat) (v : Word) : (s.watchArm fn v).ft = s.ft := by
  simp [State.watchArm]

@[simp] theorem execWatchArm_ft (fn : Nat) (v : Word) (s : State) : KeepsFt s (execWatchArm fn v s) := by
  simp [execWatchArm]

/-! ### Machine/Pages.lean -/

@[simp] theorem State.dirSeen_ft (s : State) (k : DirKey) : (s.dirSeen k).ft = s.ft := by
  unfold State.dirSeen
  (repeat' split) <;> simp

@[simp] theorem State.ownSeen_ft (s : State) (k : DirKey) : (s.ownSeen k).ft = s.ft := by
  unfold State.ownSeen
  (repeat' split) <;> simp

@[simp] theorem State.moveBytes_ft (s : State) (src dst n : Nat) : (s.moveBytes src dst n).ft = s.ft := by
  simp only [State.moveBytes]
  rw [foldl_ft]
  · simp
  · exact fun _ _ => rfl

@[simp] theorem State.redirect_ft (s : State) (src dst obj : Nat) : (s.redirect src dst obj).ft = s.ft := by
  simp [State.redirect]

@[simp] theorem State.moveSlot_ft (s : State) (x : Slot) (dst : Nat) : (s.moveSlot x dst).ft = s.ft := by
  simp [State.moveSlot]

@[simp] theorem State.moveOn_ft (s : State) (m : Move) (n : Nat) : (s.moveOn m n).ft = s.ft := by
  unfold State.moveOn
  split <;> simp

@[simp] theorem State.endMoves_ft (s : State) : s.endMoves.ft = s.ft := by simp [State.endMoves, foldl_ft]

@[simp] theorem State.compact_ft (s : State) (p : Nat) (r : Region) : (s.compact p r).ft = s.ft := by
  rw [State.compact, foldl_fst_ft]
  intro x a
  split <;> simp

theorem State.takeIn_ft {s : State} {p need : Nat} {r : Region} {x : State × Nat} (h : s.takeIn p need r = some x) :
    x.1.ft = s.ft := by
  simp only [State.takeIn] at h
  split at h
  · cases h; rfl
  · split at h
    · cases h
    · obtain ⟨a, -, rfl⟩ := Option.map_eq_some_iff.1 h
      simp

theorem State.takeFirst_ft {s : State} {p need : Nat} {rs : List Region} {x : State × Nat × Nat}
    (h : s.takeFirst p need rs = some x) : x.1.ft = s.ft := by
  induction rs with
  | nil => cases h
  | cons r t ih =>
    rw [State.takeFirst] at h
    split at h
    case h_1 heq => cases h; exact State.takeIn_ft heq
    case h_2 => exact ih h

@[simp] theorem State.makeRoom_ft (s : State) (p need : Nat) (r : Region) (others : List Region) :
    (s.makeRoom p need r others).ft = s.ft := by
  unfold State.makeRoom
  split
  · rfl
  · rw [foldl_ft]
    intro t x
    split
    · rfl
    · split
      case h_1 heq => simpa using State.takeFirst_ft heq
      case h_2 => rfl

theorem State.takeArea_ft {s : State} {p need area : Nat} {x : State × Nat × Nat}
    (h : s.takeArea p need area = some x) : x.1.ft = s.ft := by
  simp only [State.takeArea] at h
  split at h
  case h_1 heq => cases h; exact State.takeFirst_ft heq
  case h_2 =>
    split at h
    · cases h
    · obtain ⟨r, -, hr⟩ := List.mem_filterMap.1 (List.mem_of_mem_head? h)
      obtain ⟨y, hy, rfl⟩ := Option.map_eq_some_iff.1 hr
      simpa using State.takeIn_ft hy

@[simp] theorem State.recordRead_ft (s : State) (p seq span : Nat) : (s.recordRead p seq span).ft = s.ft := by
  unfold State.recordRead
  split <;> simp

@[simp] theorem State.ranked_ft (s : State) (p : Nat) : (s.ranked p).ft = s.ft := by simp [State.ranked, foldl_ft]

@[simp] theorem State.condemn_ft (s : State) (p seq span : Nat) (fg damaged : Bool) :
    (s.condemn p seq span fg damaged).ft = s.ft := by simp [State.condemn]

@[simp] theorem State.dropDamaged_ft (s : State) (p seq span : Nat) : (s.dropDamaged p seq span).ft = s.ft := by
  simp [State.dropDamaged]

theorem State.allocAll_ft {s t : State} {p : Nat} {use : SlotUse} {plan : List (Need × Option Nat)}
    {got got' : List Slot}
    (h : s.allocAll p use plan got = .ok (t, got')) : t.ft = s.ft := by
  induction plan generalizing s got with
  | nil => cases h; rfl
  | cons x plan ih =>
    obtain ⟨n, area⟩ := x
    simp only [State.allocAll] at h
    split at h
    · cases h
    · split at h
      · cases h
      case h_2 heq => exact (ih h).trans (State.takeArea_ft heq)

/-- The state that an allocation leaves, whatever it answers. -/
def Alloc.state : Alloc → State
  | .got s _ => s
  | .waits s _ => s
  | .fails s => s

@[simp] theorem Alloc.state_got (s : State) (xs : List Slot) : (Alloc.got s xs).state = s := rfl
@[simp] theorem Alloc.state_waits (s : State) (us : List (Nat × Nat)) : (Alloc.waits s us).state = s := rfl
@[simp] theorem Alloc.state_fails (s : State) : (Alloc.fails s).state = s := rfl

@[simp] theorem State.dropFor_ft (s : State) (p q : Nat) (areas : List (Nat × Nat)) :
    (s.dropFor p q areas).state.ft = s.ft := by
  unfold State.dropFor
  split <;> simp [foldl_ft]

@[simp] theorem State.allocate_ft (s : State) (p : Nat) (use : SlotUse) (needs : List Need) :
    (s.allocate p use needs).state.ft = s.ft := by
  unfold State.allocate
  extract_lets s' plan total q areas noCap
  have hs : s'.ft = s.ft := State.endMoves_ft s
  split
  · simp [noCap, hs]
  · split
    · split
      case h_1 heq => simpa [hs] using State.allocAll_ft heq
      case h_2 => split <;> simp [hs]
    · simp [hs]

theorem State.allocate_got_ft {s t : State} {p : Nat} {use : SlotUse} {needs : List Need} {xs : List Slot}
    (h : s.allocate p use needs = .got t xs) : t.ft = s.ft := by
  simpa [h] using s.allocate_ft p use needs

theorem State.allocate_waits_ft {s t : State} {p : Nat} {use : SlotUse} {needs : List Need} {us : List (Nat × Nat)}
    (h : s.allocate p use needs = .waits t us) : t.ft = s.ft := by
  simpa [h] using s.allocate_ft p use needs

theorem State.allocate_fails_ft {s t : State} {p : Nat} {use : SlotUse} {needs : List Need}
    (h : s.allocate p use needs = .fails t) : t.ft = s.ft := by
  simpa [h] using s.allocate_ft p use needs

@[simp] theorem execUnitFree_ft (part seq span : Nat) (s : State) : KeepsFt s (execUnitFree part seq span s) := by
  simp [execUnitFree]

@[simp] theorem execBackgroundDropping_ft (part : Nat) (s : State) : KeepsFt s (execBackgroundDropping part s) := by
  simp [execBackgroundDropping, foldl_ft]

@[simp] theorem State.writePage_ft (s : State) (cmd : Nat) (x : Slot) (v : BitVec 256) (kScale vScale : Word)
    (k : Nat) (ks vs : List (List Byte)) :
    (s.writePage cmd x v kScale vScale k ks vs).ft = s.ft := by simp [State.writePage]

/-! ### Machine/Append.lean -/

@[simp] theorem State.readFor_ft (s : State) (a n : Nat) : (s.readFor a n).2.ft = s.ft := by
  unfold State.readFor
  split <;> simp

@[simp] theorem State.endAppend_ft (s : State) (c : Cmd) (status : Nat) (replay held : Bool) :
    (s.endAppend c status replay held).ft = s.ft := by simp [State.endAppend]

@[simp] theorem State.appendHead_ft (s : State) (c : Cmd) : (s.appendHead c).1.ft = s.ft := by
  simp only [State.appendHead]
  (repeat' split) <;> simp

@[simp] theorem State.writeHead_ft (s : State) (c : Cmd) (v : BitVec 256) (kv lo hi : Nat)
    (src : List (List Byte) × List (List Byte)) : (s.writeHead c v kv lo hi src).ft = s.ft := by
  simp only [State.writeHead]
  rw [foldl_ft]
  intro t f
  split <;> simp

@[simp] theorem State.heatBuilt_ft (s : State) (p seq lo hi : Nat) : (s.heatBuilt p seq lo hi).ft = s.ft := by
  simp [State.heatBuilt, foldl_ft]

@[simp] theorem State.forwardAppend_ft (s : State) (c : Cmd) (src : List Byte) : (s.forwardAppend c src).ft = s.ft := by
  unfold State.forwardAppend
  (repeat' split) <;> simp

@[simp] theorem State.appendBody_ft (s : State) (c : Cmd) (v : BitVec 256) (held : Bool) :
    (s.appendBody c v held).ft = s.ft := by
  unfold State.appendBody
  extract_lets d k pos hi pub n dim w replay rhi s₁ inline srcUE
  have h₁ : s₁.ft = s.ft := State.endMoves_ft s
  split
  · simp [h₁]
  · split
    rename_i src s₂ heq
    have h₂ : s₂.ft = s.ft := by
      split at heq
      · cases heq; exact h₁
      · rw [← h₁, ← s₁.readFor_ft (apSrc d) (apLen d), heq]
    extract_lets pages ranges s₃ rows
    have h₃ : s₃.ft = s.ft := (foldl_ft (fun t r => by simp) _ _).trans h₂
    split
    · simp [h₃]
    split
    · simp [h₃]
    split
    · simp [h₃]
    split
    · simp [h₃]
    split
    · simp [h₃]
    split
    · simp [h₃]
    split
    case h_1 ha => simpa [h₃] using State.allocate_fails_ft ha
    case h_2 ha => simpa [h₃] using State.allocate_waits_ft ha
    case h_3 ha =>
      simp only [State.endAppend_ft, State.forwardAppend_ft, State.heatBuilt_ft, State.setDir_ft]
      rw [foldl_ft, State.allocate_got_ft ha, h₃]
      intro t r
      simp

@[simp] theorem State.appendStart_ft (s : State) (c : Cmd) (arrived : Nat) : (s.appendStart c arrived).ft = s.ft := by
  simp [State.appendStart]

@[simp] theorem execAppend_ft (cmd : Nat) (s : State) : KeepsFt s (execAppend cmd s) := by
  unfold execAppend
  split <;> simp

@[simp] theorem execAppendRelease_ft (cmd : Nat) (s : State) : KeepsFt s (execAppendRelease cmd s) := by
  simp only [execAppendRelease]
  (repeat' split) <;> simp

@[simp] theorem execAppendHoldTimeout_ft (cmd : Nat) (s : State) : KeepsFt s (execAppendHoldTimeout cmd s) := by
  unfold execAppendHoldTimeout
  split <;> simp

@[simp] theorem State.endPending_ft (s : State) (k : DirKey) (status : Nat) : (s.endPending k status).ft = s.ft := by
  rw [State.endPending, foldl_ft]
  intro t h
  split <;> simp

@[simp] theorem State.openBody_ft (s : State) (c : Cmd) : (s.openBody c).ft = s.ft := by
  simp only [State.openBody]
  (repeat' split) <;> simp

@[simp] theorem execOpenSeq_ft (cmd : Nat) (s : State) : KeepsFt s (execOpenSeq cmd s) := by
  unfold execOpenSeq
  split <;> simp

@[simp] theorem State.freeEntry_ft (s : State) (key : DirKey) : (s.freeEntry key).ft = s.ft := by
  simp [State.freeEntry]

@[simp] theorem execCloseFree_ft (key : DirKey) (s : State) : KeepsFt s (execCloseFree key s) := by
  simp only [execCloseFree]
  (repeat' split) <;> simp

@[simp] theorem execPageCode_ft (page : PageRef) (s : State) : KeepsFt s (execPageCode page s) := by
  simp only [execPageCode, keepsFt_next]
  split
  · split
    · split
      · rfl
      · split
        · rfl
        · split
          · simp
          · split
            · simp
            · split
              · simp
              case h_2 heq =>
                have h := State.takeArea_ft heq
                simp at h
                split <;> simp [h]
    · rfl
  · rfl

@[simp] theorem execCodedOldSlotFree_ft (page : PageRef) (s : State) : KeepsFt s (execCodedOldSlotFree page s) := by
  simp [execCodedOldSlotFree]

@[simp] theorem State.dirLookup_ft (s : State) : s.dirLookup.ft = s.ft := by simp [State.dirLookup]

@[simp] theorem execDirLookup_ft (s : State) : KeepsFt s (execDirLookup s) := by simp [execDirLookup]

@[simp] theorem State.setWords_ft (s : State) (fn off n : Nat) (v : Nat) : (s.setWords fn off n v).ft = s.ft := by
  simp [State.setWords, foldl_ft]

@[simp] theorem execDirLookupDone_ft (s : State) : KeepsFt s (execDirLookupDone s) := by
  simp only [execDirLookupDone]
  (repeat' split) <;> simp

/-! ### Machine/Haul.lean -/

@[simp] theorem State.haulCheck_ft (s : State) (c : Cmd) : (s.haulCheck c).1.ft = s.ft := by
  simp only [State.haulCheck]
  (repeat' split) <;> simp

@[simp] theorem State.endHaul_ft (s : State) (h : Haul) (status : Nat) : (s.endHaul h status).ft = s.ft := by
  simp [State.endHaul]

@[simp] theorem State.haulWrite_ft (s : State) (c : Cmd) (h : Haul) (off : Nat) (bs : List Byte) :
    (s.haulWrite c h off bs).1.ft = s.ft := by
  simp only [State.haulWrite]
  (repeat' split) <;> simp

@[simp] theorem State.haulMove_ft (s : State) (c : Cmd) (h : Haul) (n : Nat) (hostData : List Byte) :
    (s.haulMove c h n hostData).1.ft = s.ft := by
  simp only [State.haulMove]
  (repeat' split) <;> simp

@[simp] theorem State.haulStep_ft (s : State) (c : Cmd) (h : Haul) (ended : Nat) :
    (s.haulStep c h ended).ft = s.ft := by simp [State.haulStep]

@[simp] theorem execHaul_ft (cmd : Nat) (hostData : List Byte) (s : State) : KeepsFt s (execHaul cmd hostData s) := by
  unfold execHaul
  split <;> simp

@[simp] theorem execHaulTile_ft (cmd : Nat) (hostData : List Byte) (s : State) :
    KeepsFt s (execHaulTile cmd hostData s) := by
  unfold execHaulTile
  split <;> simp

@[simp] theorem execHaulFarError_ft (cmd : Nat) (e : FarErr) (s : State) : KeepsFt s (execHaulFarError cmd e s) := by
  unfold execHaulFarError
  split <;> simp

@[simp] theorem State.haulArrive_ft (s : State) (i msg off : Nat) (bs : List Byte) :
    (s.haulArrive i msg off bs).ft = s.ft := by
  unfold State.haulArrive
  (repeat' split) <;> simp

@[simp] theorem State.haulWritten_ft (s : State) (cmd i msg : Nat) : (s.haulWritten cmd i msg).ft = s.ft := by
  unfold State.haulWritten
  (repeat' split) <;> simp

/-! ### Machine/Flue.lean -/

@[simp] theorem State.rowCheck_ft (s : State) (c : Cmd) : (s.rowCheck c).1.ft = s.ft := by
  unfold State.rowCheck
  extract_lets d n ops crcN crcA r r'
  have hr : r.1.ft = s.ft := foldl_fst_ft (fun x a => by split <;> simp) ops (s, 0)
  have hr' : r'.1.ft = s.ft := by simp only [r']; split <;> simp [hr]
  split
  · rfl
  split
  · simp
  split
  · rfl
  split
  · exact hr'
  (repeat' split) <;> simp

@[simp] theorem execRow_ft (cmd : Nat) (s : State) : KeepsFt s (execRow cmd s) := by
  unfold execRow
  split <;> simp

@[simp] theorem State.rowOne_ft (s : State) (c : Cmd) (j : RowJob) (col i : Nat) :
    (s.rowOne c j col i).1.ft = s.ft := by
  simp only [State.rowOne]
  (repeat' split) <;> simp [foldl_ft]

@[simp] theorem State.stageRows_ft (s : State) (d : BitVec 512) (col : Nat) (rows : List Nat) :
    (s.stageRows d col rows).ft = s.ft := by simp [State.stageRows]

@[simp] theorem State.rowBurst_ft (s : State) (c : Cmd) (j : RowJob) (col : Nat) : (s.rowBurst c j col).ft = s.ft := by
  simp only [State.rowBurst]
  split
  · simp
  · split
    · simp
      rw [foldl_fst_ft]
      · simp
      · intro x i; split <;> simp
    · simp
      rw [foldl_fst_ft]
      · simp
      · intro x i; split <;> simp

@[simp] theorem State.rowRan_ft (s : State) (col : Nat) : (s.rowRan col).ft = s.ft := by simp [State.rowRan]

@[simp] theorem State.writeBack_ft (s : State) (col k : Nat) : (s.writeBack col k).ft = s.ft := by
  simp [State.writeBack]

@[simp] theorem State.nextBurst_ft (s : State) (col : Nat) : (s.nextBurst col).ft = s.ft := by
  unfold State.nextBurst
  (repeat' split) <;> simp

@[simp] theorem execFlueBurstEnd_ft (col waitNs : Nat) (s : State) : KeepsFt s (execFlueBurstEnd col waitNs s) := by
  simp [execFlueBurstEnd]

@[simp] theorem State.hostTurn_ft (s : State) (col : Nat) : (s.hostTurn col).ft = s.ft := by simp [State.hostTurn]

@[simp] theorem State.hostTurns_ft (s : State) (a n : Nat) : (s.hostTurns a n).ft = s.ft := by
  simp [State.hostTurns, foldl_ft]

@[simp] theorem State.showRecode_ft (s : State) : s.showRecode.ft = s.ft := by simp [State.showRecode]

@[simp] theorem State.recodeRows_ft (s : State) (p a n : Nat) : (s.recodeRows p a n).ft = s.ft := by
  simp [State.recodeRows]

@[simp] theorem State.unitRaw_ft (s : State) (k : Nat) : (s.unitRaw k).ft = s.ft := by
  unfold State.unitRaw
  split <;> simp

@[simp] theorem State.rowsRaw_ft (s : State) (rs : List Nat) : (s.rowsRaw rs).ft = s.ft := by
  simp [State.rowsRaw, foldl_ft]

@[simp] theorem execReencodeBurst_ft (col : Nat) (s : State) : KeepsFt s (execReencodeBurst col s) := by
  simp [execReencodeBurst, foldl_ft]

@[simp] theorem execRefreshDue_ft (col : Nat) (s : State) : KeepsFt s (execRefreshDue col s) := by
  simp [execRefreshDue]

@[simp] theorem execWearWindowStart_ft (s : State) : KeepsFt s (execWearWindowStart s) := by
  simp [execWearWindowStart]

@[simp] theorem State.showFences_ft (s : State) : s.showFences.ft = s.ft := by simp [State.showFences, foldl_ft]

@[simp] theorem State.fenceColumn_ft (s : State) (col : Nat) : (s.fenceColumn col).ft = s.ft := by
  simp [State.fenceColumn, foldl_ft]

@[simp] theorem State.remapRow_ft (s : State) (r : Nat) : (s.remapRow r).ft = s.ft := by simp [State.remapRow]

@[simp] theorem execWriteBackBurst_ft (col : Nat) (s : State) : KeepsFt s (execWriteBackBurst col s) := by
  unfold execWriteBackBurst
  (repeat' split) <;> simp

@[simp] theorem State.scrubRow_ft (s : State) (r : Nat) : (s.scrubRow r).ft = s.ft := by simp [State.scrubRow]

@[simp] theorem execScrubBurst_ft (col : Nat) (s : State) : KeepsFt s (execScrubBurst col s) := by
  unfold execScrubBurst
  split <;> simp [foldl_ft]

@[simp] theorem execRelocateBurst_ft (col : Nat) (s : State) : KeepsFt s (execRelocateBurst col s) := by
  unfold execRelocateBurst
  (repeat' split) <;> simp

/-! ### Machine/Report.lean -/

@[simp] theorem State.logViolation_ft (s : State) (p : Nat) (r : List Byte) : (s.logViolation p r).ft = s.ft := by
  simp [State.logViolation]

@[simp] theorem State.refuse_ft (s : State) (i op tenant psn msg waykey off reason : Nat) :
    (s.refuse i op tenant psn msg waykey off reason).ft = s.ft := by simp [State.refuse]

@[simp] theorem State.unitsMark_ft (s : State) : s.unitsMark.ft = s.ft := by simp [State.unitsMark]

theorem State.takeOwn_ft {s t : State} {p : Nat} {es : List (Nat × Nat)} {slots xs : List Nat}
    (h : s.takeOwn p es slots = some (t, xs)) : t.ft = s.ft := by
  induction es generalizing s slots with
  | nil => cases h; simp
  | cons e es ih =>
    rw [State.takeOwn] at h
    split at h
    · cases h
    · exact (ih h :)

theorem State.takePlaces_ft {s : State} {p : Nat} {conn : Option Nat} {es : List (Nat × Nat)} {x : State × List Nat}
    (h : s.takePlaces p conn es = some x) : x.1.ft = s.ft := by
  unfold State.takePlaces at h
  split at h
  · exact State.takeOwn_ft h
  · split at h
    · cases h; rfl
    · cases h

@[simp] theorem State.dropPlace_ft (s : State) (conn : Option Nat) (id slot u : Nat) :
    (s.dropPlace conn id slot u).ft = s.ft := by
  unfold State.dropPlace
  split <;> simp

@[simp] theorem State.sendEmber_ft (s : State) (i off id : Nat) (bs : List Byte) :
    (s.sendEmber i off id bs).ft = s.ft := by simp [State.sendEmber]

/-! ### Machine/Partial.lean -/

@[simp] theorem State.mergeCounted_ft (s : State) (r : Nat × Nat) : (s.mergeCounted r).ft = s.ft := by
  simp [State.mergeCounted]

/-! ### Machine/Merge.lean -/

theorem State.takeNums_ft {s : State} {p ms n : Nat} {x : State × Nat} (h : s.takeNums p ms n = some x) :
    x.1.ft = s.ft := by
  simp only [State.takeNums] at h
  split at h
  · cases h
  · cases h; rfl

@[simp] theorem State.setRecv_ft (s : State) (conn : Option Nat) (id : Nat) (f : Recv → Recv) :
    (s.setRecv conn id f).ft = s.ft := by simp [State.setRecv]

@[simp] theorem State.freeRecv_ft (s : State) (r : Recv) : (s.freeRecv r).ft = s.ft := by
  unfold State.freeRecv
  split <;> simp

@[simp] theorem State.dropRecv_ft (s : State) (r : Recv) : (s.dropRecv r).ft = s.ft := by simp [State.dropRecv]

@[simp] theorem State.dedup_ft (s : State) (m : Merge) (r : Recv) : (s.dedup m r).ft = s.ft := by simp [State.dedup]

@[simp] theorem State.mergeOutcome_ft (s : State) (id n : Nat) : (s.mergeOutcome id n).ft = s.ft := by
  simp [State.mergeOutcome]

@[simp] theorem State.mergeValue_ft (s : State) (m : Merge) (b : List Byte) (dist : Nat) :
    (s.mergeValue m b dist).ft = s.ft := by simp [State.mergeValue]

@[simp] theorem State.accept_ft (s : State) (m : Merge) (r : Recv) : (s.accept m r).ft = s.ft := by
  simp [State.accept]

@[simp] theorem State.offer_ft (s : State) (m : Merge) (r : Recv) (dist : Nat) : (s.offer m r dist).ft = s.ft := by
  simp only [State.offer]
  (repeat' split) <;> simp

@[simp] theorem State.headerFault_ft (s : State) : s.headerFault.ft = s.ft := by simp [State.headerFault]

@[simp] theorem State.emberRefused_ft (s : State) (conn : Option Nat) (tenant : Nat) (h : BitVec 256) :
    (s.emberRefused conn tenant h).ft = s.ft := by
  unfold State.emberRefused
  (repeat' split) <;> simp

@[simp] theorem State.sinkHeld_ft (s : State) (conn : Option Nat) (units : Nat) :
    (s.sinkHeld conn units).ft = s.ft := by
  unfold State.sinkHeld
  split <;> simp

@[simp] theorem State.placeEmber_ft (s : State) (conn : Option Nat) (hdr : BitVec 256) (body : List Byte)
    (dist : Nat) (r : Recv) :
    (s.placeEmber conn hdr body dist r).ft = s.ft := by
  simp only [State.placeEmber]
  (repeat' split) <;> simp

@[simp] theorem State.emberIn_ft (s : State) (conn : Option Nat) (tenant : Nat) (hdr cmp : BitVec 256)
    (body : List Byte) (dist : Nat) :
    (s.emberIn conn tenant hdr cmp body dist).ft = s.ft := by
  unfold State.emberIn
  (repeat' split) <;> simp

@[simp] theorem execEmberReceived_ft (conn : Option Nat) (tenant : Nat) (hdr cmp : BitVec 256) (body : List Byte)
    (mergeFails : Nat) (s : State) :
    KeepsFt s (execEmberReceived conn tenant hdr cmp body mergeFails s) := by simp [execEmberReceived]

@[simp] theorem State.recallInput_ft (s : State) (r : Recv) : (s.recallInput r).ft = s.ft := by
  unfold State.recallInput
  split <;> simp

@[simp] theorem State.verdictLate_ft (s : State) (r : Recv) : (s.verdictLate r).ft = s.ft := by
  simp [State.verdictLate]

@[simp] theorem State.headerLost_ft (s : State) (r : Recv) : (s.headerLost r).ft = s.ft := by
  unfold State.headerLost
  split <;> simp

@[simp] theorem State.verdictIn_ft (s : State) (conn : Option Nat) (tenant : Nat) (hdr cmp : BitVec 256) :
    (s.verdictIn conn tenant hdr cmp).ft = s.ft := by
  unfold State.verdictIn
  (repeat' split) <;> simp

@[simp] theorem execVerdictReceived_ft (conn : Option Nat) (tenant : Nat) (hdr cmp : BitVec 256) (s : State) :
    KeepsFt s (execVerdictReceived conn tenant hdr cmp s) := by simp [execVerdictReceived]

@[simp] theorem execVerdictTimeout_ft (ember : Nat) (s : State) : KeepsFt s (execVerdictTimeout ember s) := by
  unfold execVerdictTimeout
  split <;> simp

@[simp] theorem State.orphanGone_ft (s : State) (r : Recv) : (s.orphanGone r).ft = s.ft := by simp [State.orphanGone]

@[simp] theorem execOrphanExpire_ft (ember : Nat) (s : State) : KeepsFt s (execOrphanExpire ember s) := by
  unfold execOrphanExpire
  split <;> simp

@[simp] theorem State.mergeCheck_ft (s : State) (c : Cmd) : (s.mergeCheck c).1.ft = s.ft := by
  simp only [State.mergeCheck]
  (repeat' split) <;> simp

@[simp] theorem State.mergePast_ft (s : State) (m : Merge) : (s.mergePast m).ft = s.ft := by
  simp [State.mergePast, foldl_ft]

@[simp] theorem State.endMerge_ft (s : State) (m : Merge) (status : Nat) : (s.endMerge m status).ft = s.ft := by
  simp [State.endMerge]

@[simp] theorem State.mergeReserve_ft (s : State) (id : Nat) : (s.mergeReserve id).ft = s.ft := by
  simp only [State.mergeReserve]
  split
  · rfl
  · split
    · rfl
    · split
      · simp
      · split
        · rfl
        case h_2 t num hn =>
          have ht : t.ft = s.ft := State.takeNums_ft hn
          split
          · rfl
          case h_2 hp =>
            rw [foldl_ft]
            · split at hp
              · cases hp; simpa using ht
              · simpa [ht] using State.takePlaces_ft hp
            · intro t r
              split
              · split
                · simp
                · split <;> simp
              · rfl

@[simp] theorem execMerge_ft (cmd : Nat) (s : State) : KeepsFt s (execMerge cmd s) := by
  unfold execMerge
  split <;> simp

@[simp] theorem State.sendResult_ft (s : State) (m : Merge) (status level first snapshot : Nat) (tail : Bool)
    (hs : List Head) (miss : List (Nat × Nat)) :
    (s.sendResult m status level first snapshot tail hs miss).ft = s.ft := by
  simp only [State.sendResult]
  (repeat' split) <;> simp

@[simp] theorem State.reportMerge_ft (s : State) (m : Merge) (status : Nat) (miss : List (Nat × Nat)) :
    (s.reportMerge m status miss).ft = s.ft := by simp [State.reportMerge]

@[simp] theorem State.finishMerge_ft (s : State) (m : Merge) (dist : Nat) : (s.finishMerge m dist).ft = s.ft := by
  simp only [State.finishMerge]
  (repeat' split) <;> simp [foldl_ft]

@[simp] theorem execMergeResultSend_ft (cmd mergeFails : Nat) (s : State) :
    KeepsFt s (execMergeResultSend cmd mergeFails s) := by
  unfold execMergeResultSend
  split <;> simp

@[simp] theorem execMergeWaitTimeout_ft (cmd : Nat) (s : State) : KeepsFt s (execMergeWaitTimeout cmd s) := by
  unfold execMergeWaitTimeout
  split <;> simp

/-! ### Machine/Attend.lean -/

@[simp] theorem State.attendEntry_ft (s : State) (k : DirKey) (fmt kv first last : Nat) (scale : Word) :
    (s.attendEntry k fmt kv first last scale).1.ft = s.ft := by
  unfold State.attendEntry
  (repeat' split) <;> simp

@[simp] theorem State.attendCheck_ft (s : State) (c : Cmd) : (s.attendCheck c).1.ft = s.ft := by
  simp only [State.attendCheck]
  (repeat' split) <;> simp

@[simp] theorem State.endAttend_ft (s : State) (c : Cmd) (status result : Nat) :
    (s.endAttend c status result).ft = s.ft := by simp [State.endAttend]

@[simp] theorem execAttend_ft (cmd : Nat) (s : State) : KeepsFt s (execAttend cmd s) := by
  simp only [execAttend]
  (repeat' split) <;> simp

theorem State.reserveBlks_ft {s : State} {r : Req} {ts : List (Nat × Nat × List Nat)} {x : State × List Blk}
    (h : s.reserveBlks r ts = some x) : x.1.ft = s.ft := by
  simp only [State.reserveBlks] at h
  split at h
  · cases h
  case h_2 h1 =>
    split at h
    case h_1 h2 =>
      cases h
      exact (State.takePlaces_ft h2).trans (State.takeNums_ft h1)
    case h_2 => cases h

@[simp] theorem State.dropBlks_ft (s : State) (r : Req) : (s.dropBlks r).ft = s.ft := by
  simp [State.dropBlks, foldl_ft]

@[simp] theorem State.sendVerdict_ft (s : State) (e : Sent) (v reason : Nat) :
    (s.sendVerdict e v reason).ft = s.ft := by
  unfold State.sendVerdict
  (repeat' split) <;> simp

@[simp] theorem State.failReq_ft (s : State) (id order reason : Nat) (spans : Option (List Nat)) :
    (s.failReq id order reason spans).ft = s.ft := by simp [State.failReq, foldl_ft]

@[simp] theorem State.heated_ft (s : State) (p seq span : Nat) : (s.heated p seq span).ft = s.ft := by
  simp [State.heated]

@[simp] theorem State.setPlan_ft (s : State) (ends : List (Nat × Nat)) : (s.setPlan ends).ft = s.ft := by
  simp [State.setPlan]

@[simp] theorem State.setJob_ft (s : State) (id span : Nat) (f : Job → Job) : (s.setJob id span f).ft = s.ft := by
  simp [State.setJob]

@[simp] theorem State.putCtx_ft (s : State) (c i : Nat) (v : JobCtx) : (s.putCtx c i v).ft = s.ft := by
  simp [State.putCtx]

@[simp] theorem State.loadJob_ft (s : State) (r : Req) (j : Job) (i : Nat) : (s.loadJob r j i).ft = s.ft := by
  simp [State.loadJob]

@[simp] theorem State.loadNext_ft (s : State) (c : Nat) : (s.loadNext c).ft = s.ft := by
  unfold State.loadNext
  split <;> simp

@[simp] theorem State.dispatchReq_ft (s : State) (r : Req) : (s.dispatchReq r).ft = s.ft := by
  simp only [State.dispatchReq]
  split
  · simp
  · split
    · simp
    · split
      · simp
      · split
        · simp
        case h_2 hb =>
          rw [foldl_ft, foldl_ft]
          · split at hb
            · cases hb; simp
            · simpa using State.reserveBlks_ft hb
          · intro t j; simp
          · intro t w; simp

@[simp] theorem State.strideDispatch_ft (s : State) : s.strideDispatch.ft = s.ft := by
  simp [State.strideDispatch, foldl_ft]

@[simp] theorem State.jobLost_ft (s : State) (r : Req) (j : Job) : (s.jobLost r j).ft = s.ft := by
  simp [State.jobLost]

@[simp] theorem State.startJob_ft (s : State) (r : Req) (j : Job) : (s.startJob r j).ft = s.ft := by
  simp [State.startJob, foldl_ft]

@[simp] theorem execSpanJob_ft (cmd span : Nat) (s : State) : KeepsFt s (execSpanJob cmd span s) := by
  unfold execSpanJob
  (repeat' split) <;> simp

@[simp] theorem State.freeColumn_ft (s : State) (j : Job) : (s.freeColumn j).ft = s.ft := by simp [State.freeColumn]

@[simp] theorem execSpanJobOverrun_ft (cmd span : Nat) (s : State) : KeepsFt s (execSpanJobOverrun cmd span s) := by
  unfold execSpanJobOverrun
  (repeat' split) <;> simp

@[simp] theorem State.relayout_ft (s : State) (id : Nat) : (s.relayout id).ft = s.ft := by
  simp only [State.relayout]
  split
  · rfl
  · split
    case h_1 hb => simpa using State.reserveBlks_ft hb
    case h_2 => simp

@[simp] theorem State.damageSpan_ft (s : State) (r : Req) (j : Job) : (s.damageSpan r j).ft = s.ft := by
  simp [State.damageSpan]

@[simp] theorem State.checkFailed_ft (s : State) (r : Req) (j : Job) : (s.checkFailed r j).ft = s.ft := by
  simp [State.checkFailed]

@[simp] theorem execTallyCheckEnd_ft (cmd span : Nat) (stage : CheckStage) (disturbed : Bool) (s : State) :
    KeepsFt s (execTallyCheckEnd cmd span stage disturbed s) := by
  simp only [execTallyCheckEnd]
  (repeat' split) <;> simp

@[simp] theorem execSpanJobEnd_ft (cmd span : Nat) (s : State) : KeepsFt s (execSpanJobEnd cmd span s) := by
  unfold execSpanJobEnd
  (repeat' split) <;> simp

@[simp] theorem State.emit1_ft (s : State) (r : Req) (i : Nat) (b : Blk) (hs : List Head) :
    (s.emit1 r i b hs).ft = s.ft := by
  unfold State.emit1
  (repeat' split) <;> simp

@[simp] theorem execEmberEmit_ft (cmd block mergeFails : Nat) (s : State) :
    KeepsFt s (execEmberEmit cmd block mergeFails s) := by
  unfold execEmberEmit
  (repeat' split) <;> simp

@[simp] theorem execSealEmber_ft (ember : Nat) (s : State) : KeepsFt s (execSealEmber ember s) := by
  unfold execSealEmber
  (repeat' split) <;> simp

@[simp] theorem State.lateSeal_ft (s : State) (e : Sent) : (s.lateSeal e).ft = s.ft := by
  simp [State.lateSeal, foldl_ft]

@[simp] theorem execSealDeadline_ft (ember : Nat) (s : State) : KeepsFt s (execSealDeadline ember s) := by
  unfold execSealDeadline
  split <;> simp

@[simp] theorem State.sealDeadlines_ft (s : State) : s.sealDeadlines.ft = s.ft := by
  rw [State.sealDeadlines, foldl_ft]
  intro t i
  split <;> simp

@[simp] theorem execAttendComplete_ft (cmd : Nat) (s : State) : KeepsFt s (execAttendComplete cmd s) := by
  unfold execAttendComplete
  split <;> simp

/-! ### Machine/Shaping.lean -/

@[simp] theorem State.charge_ft (s : State) (p l bytes : Nat) : (s.charge p l bytes).ft = s.ft := by
  simp [State.charge]

@[simp] theorem State.shaperWrite_ft (s : State) : s.shaperWrite.ft = s.ft := by simp [State.shaperWrite]

@[simp] theorem execShaperWrite_ft (s : State) : KeepsFt s (execShaperWrite s) := by simp [execShaperWrite]

@[simp] theorem State.loadWords_ft (s : State) (fn off n v : Nat) : (s.loadWords fn off n v).ft = s.ft := by
  simp [State.loadWords, foldl_ft]

@[simp] theorem State.shaperRead_ft (s : State) : s.shaperRead.ft = s.ft := by simp [State.shaperRead]

@[simp] theorem execShaperRead_ft (s : State) : KeepsFt s (execShaperRead s) := by simp [execShaperRead]

@[simp] theorem State.shaperTick_ft (s : State) : s.shaperTick.ft = s.ft := by
  simp only [State.shaperTick]
  rw [foldl_ft, foldl_ft]
  · dsimp only
    split
    · rfl
    · rw [foldl_ft]
      intro t k; simp
  · exact fun _ _ => rfl
  · intro t k; simp

/-! ### Machine/Kindle.lean -/

@[simp] theorem State.showImages_ft (s : State) (p : Nat) : (s.showImages p).ft = s.ft := by simp [State.showImages]

@[simp] theorem State.layersCheck_ft (s : State) (p seq : Nat) (spans ls : List Nat) :
    (s.layersCheck p seq spans ls).1.ft = s.ft := by
  induction ls generalizing s with
  | nil => rfl
  | cons l t ih =>
    simp only [State.layersCheck]
    (repeat' split) <;> simp [ih]

@[simp] theorem State.leasesCheck_ft (s : State) (p seq : Nat) (ls : List Nat) :
    (s.leasesCheck p seq ls).1.ft = s.ft := by
  induction ls generalizing s with
  | nil => rfl
  | cons l t ih =>
    simp only [State.leasesCheck]
    (repeat' split) <;> simp [ih]

@[simp] theorem State.kindleCheck_ft (s : State) (c : Cmd) : (s.kindleCheck c).1.ft = s.ft := by
  fun_cases State.kindleCheck
  case case13 =>
    refine (foldl_fst_ft (fun x r => ?_) _ (_, 0)).trans ?_
    · split <;> simp
    · grind [State.readFor_ft, State.layersCheck_ft, State.leasesCheck_ft]
  all_goals grind [State.readFor_ft, State.layersCheck_ft, State.leasesCheck_ft, State.unmappedError_ft]

@[simp] theorem State.dropKindle_ft (s : State) (id : Nat) : (s.dropKindle id).ft = s.ft := by
  simp [State.dropKindle, foldl_ft]

@[simp] theorem State.finishKindle_ft (s : State) (k : Kindle) (status : Nat) (already : Bool) (missing : Option Nat) :
    (s.finishKindle k status already missing).ft = s.ft := by simp [State.finishKindle, foldl_ft]

@[simp] theorem State.imgRead_ft (s : State) (m : Image) (off n : Nat) : (s.imgRead m off n).1.ft = s.ft := by
  simp [State.imgRead]

@[simp] theorem State.normRows_ft (s : State) (m : Image) (tensor : Nat) (x : List (List Word)) :
    (s.normRows m tensor x).1.ft = s.ft := by
  simp only [State.normRows]
  (repeat' split) <;> simp

@[simp] theorem State.embedRows_ft (s : State) (m : Image) (ts : List Nat) : (s.embedRows m ts).1.ft = s.ft := by
  induction ts generalizing s with
  | nil => rfl
  | cons t ts ih =>
    simp only [State.embedRows]
    split
    · simp
    · split <;> simp [ih]

@[simp] theorem State.layerStart_ft (s : State) (m : Image) (k : Kindle) : (s.layerStart m k).1.ft = s.ft := by
  simp [State.layerStart]

@[simp] theorem State.beginKindle_ft (s : State) (k : Kindle) : (s.beginKindle k).1.ft = s.ft := by
  simp only [State.beginKindle]
  (repeat' split) <;> simp

@[simp] theorem State.putKindle_ft (s : State) (k : Kindle) : (s.putKindle k).ft = s.ft := by simp [State.putKindle]

@[simp] theorem State.nonfinite_ft (s : State) (status : Nat) : (s.nonfinite status).ft = s.ft := by
  simp [State.nonfinite]

@[simp] theorem State.startNext_ft (s : State) (p n : Nat) : (s.startNext p n).ft = s.ft := by
  induction n generalizing s with
  | zero => rfl
  | succ n ih =>
    unfold State.startNext
    split
    · rfl
    split
    · rfl
    split
    · simp [ih]
    rename_i k _ m _
    extract_lets k'
    have h := s.beginKindle_ft k'
    split
    · simp [ih]
    · split <;> simp_all

@[simp] theorem State.endKindle_ft (s : State) (k : Kindle) (status : Nat) (missing : Option Nat) :
    (s.endKindle k status missing).ft = s.ft := by simp [State.endKindle]

@[simp] theorem State.endKindles_ft (s : State) (f : Kindle → Bool) (status : Nat) :
    (s.endKindles f status).ft = s.ft := by
  simp only [State.endKindles]
  rw [foldl_ft, foldl_ft]
  · intro t k
    split <;> simp
  · intro t p
    simp

@[simp] theorem execKindle_ft (cmd : Nat) (s : State) : KeepsFt s (execKindle cmd s) := by
  unfold execKindle
  rw [keepsFt_next]
  split
  · rfl
  rename_i c _
  split
  · split <;> simp
  extract_lets s₁ d
  have h := s₁.kindleCheck_ft c
  split <;> simp_all [s₁]

@[simp] theorem State.issueTo_ft (s : State) (k : Kindle) (h : List Byte) (mid kv g : Nat) (scale : Word) (qs : List
    (List Byte)) (tag : BitVec 64) (node : Nat) :
    (s.issueTo k h mid kv g scale qs tag node).1.ft = s.ft := by
  unfold State.issueTo
  (repeat' split) <;> simp

@[simp] theorem State.internalCheck_ft (s : State) (k : Kindle) (h : List Byte) (kv g first last : Nat)
    (scale : Word) (qs : List (List Byte)) :
    (s.internalCheck k h kv g first last scale qs).1.ft = s.ft := by
  simp only [State.internalCheck]
  (repeat' split) <;> simp

@[simp] theorem State.issueOne_ft (s : State) (k : Kindle) (h : List Byte) (t : Nat × Nat × Nat) (resent : Bool)
    (first : Nat) : (s.issueOne k h t resent first).1.ft = s.ft := by
  unfold State.issueOne
  extract_lets gf d f grp a scale n qs tag used qs' id s₁ e issued nodes chk s₂ m s₃ held s₄ r
  have h₁ : s₁.ft = s.ft := rfl
  have h₂ : s₂.ft = s.ft := by
    change chk.1.ft = s₁.ft
    simp only [chk]
    split
    · simp
    · split <;> simp
  have h₄ : s₄.ft = s.ft := (foldl_ft (fun t r => by split <;> simp) held s₃).trans h₂
  have hr : r.1.ft = s.ft := (foldl_fst_ft (fun x node => by simp) nodes (s₄, [])).trans h₄
  split
  · rfl
  split
  · exact h₂
  split
  · exact h₂
  · exact hr

@[simp] theorem State.issueAll_ft (s : State) (k : Kindle) (h : List Byte) (n : Nat) :
    (s.issueAll k h n).1.ft = s.ft := by
  induction n generalizing s k with
  | zero => rfl
  | succ n ih =>
    unfold State.issueAll
    split
    · rfl
    rename_i t rest _
    split
    · rfl
    have hi := s.issueOne_ft { k with todo := rest } h t false s.ms
    split <;> simp_all

@[simp] theorem State.writeKindled_ft (s : State) (k : Kindle) (v : BitVec 256) (x : Slot) :
    (s.writeKindled k v x).1.ft = s.ft := by
  simp only [State.writeKindled]
  (repeat' split) <;> simp

@[simp] theorem State.writeLayer_ft (s : State) (k : Kindle) : (s.writeLayer k).1.ft = s.ft := by
  unfold State.writeLayer
  split
  · rfl
  rename_i v _
  extract_lets needs
  split
  · rfl
  split
  · rfl
  split
  case h_1 ha => exact State.allocate_fails_ft ha
  case h_2 ha => exact State.allocate_waits_ft ha
  case h_3 t got ha =>
    extract_lets r
    have hr : r.1.ft = s.ft :=
      (foldl_fst_ft (fun x a => by simp) got (t, true)).trans (State.allocate_got_ft ha)
    split <;> exact hr

@[simp] theorem State.ropeRows_ft (s : State) (m : Image) (k : Kindle) (rows : List (List Word)) :
    (s.ropeRows m k rows).1.ft = s.ft := by
  unfold State.ropeRows
  extract_lets d w
  rw [foldl_fst_ft]
  intro x rv
  split
  · rfl
  · extract_lets p c f
    split <;> simp [f, c]

@[simp] theorem State.stageDone_ft (s : State) (m : Image) (k : Kindle) : (s.stageDone m k).1.ft = s.ft := by
  simp only [State.stageDone]
  (repeat' split) <;> simp

@[simp] theorem State.streamRows_ft (s : State) (m : Image) (k : Kindle) (call : Nat × Nat × Nat) (rows : Nat) :
    (s.streamRows m k call rows).1.ft = s.ft := by
  simp only [State.streamRows]
  (repeat' split) <;> simp

@[simp] theorem State.arrayBusy_ft (s : State) (p hclk : Nat) : (s.arrayBusy p hclk).ft = s.ft := by
  simp [State.arrayBusy]

@[simp] theorem State.workWritten_ft (s : State) (k : Kindle) : (s.workWritten k).ft = s.ft := by
  simp [State.workWritten]

@[simp] theorem execArrayOperation_ft (part rows : Nat) (s : State) : KeepsFt s (execArrayOperation part rows s) := by
  simp only [execArrayOperation]
  (repeat' split) <;> simp

@[simp] theorem State.dropInternal_ft (s : State) (k : Kindle) (e : Internal) : (s.dropInternal k e).ft = s.ft := by
  simp only [State.dropInternal]
  (repeat' split) <;> simp [foldl_ft]

@[simp] theorem State.internalDone_ft (s : State) (cmd tag status : Nat) :
    (s.internalDone cmd tag status).ft = s.ft := by
  unfold State.internalDone
  split
  · rfl
  split
  case h_2 => rfl
  rename_i k _ _ e m _ _
  split
  · rfl
  rename_i st missing vals _
  extract_lets s₁ k₁ settle k₂ s₂
  have hset : ∀ r, (settle r).ft = r.1.ft := fun r => by simp only [settle]; split <;> simp
  have h₁ : s₁.ft = s.ft := by simp [s₁]
  split
  · have h := s₁.issueAll_ft k₂ m.hdr k₂.todo.length
    split <;> simp_all
  · (repeat' split) <;> simp [hset, h₁, s₂]

@[simp] theorem State.issueMore_ft (s : State) (cmd : Nat) : (s.issueMore cmd).ft = s.ft := by
  unfold State.issueMore
  split
  · rfl
  rename_i k _
  split
  · rfl
  split
  · rfl
  rename_i m _
  have h := s.issueAll_ft k m.hdr k.todo.length
  split <;> simp_all

@[simp] theorem execInternalRequestDone_ft (cmd tag status : Nat) (s : State) :
    KeepsFt s (execInternalRequestDone cmd tag status s) := by simp [execInternalRequestDone]

@[simp] theorem execKindleCollectTimeout_ft (cmd : Nat) (s : State) : KeepsFt s (execKindleCollectTimeout cmd s) := by
  unfold execKindleCollectTimeout
  split <;> simp

@[simp] theorem State.publishUnit_ft (s : State) (k : Kindle) (span : Nat) : (s.publishUnit k span).ft = s.ft := by
  simp [State.publishUnit]

@[simp] theorem execKindlePublish_ft (cmd : Nat) (s : State) : KeepsFt s (execKindlePublish cmd s) := by
  unfold execKindlePublish
  (repeat' split) <;> simp

@[simp] theorem execCloseSeq_ft (cmd : Nat) (s : State) : KeepsFt s (execCloseSeq cmd s) := by
  simp only [execCloseSeq]
  (repeat' split) <;> simp

/-! ### Machine/Bind.lean -/

@[simp] theorem State.bindFails_ft (s : State) (cmd status : Nat) : (s.bindFails cmd status).ft = s.ft := by
  simp [State.bindFails]

@[simp] theorem State.bindHead_ft (s : State) (c : Cmd) : (s.bindHead c).1.ft = s.ft := by
  simp only [State.bindHead]
  (repeat' split) <;> simp

@[simp] theorem State.bindRead_ft (s : State) (a n : Nat) : (s.bindRead a n).2.ft = s.ft := by
  simp [State.bindRead]

@[simp] theorem State.bindPayload_ft (s : State) (c : Cmd) (img key : List Byte) :
    (s.bindPayload c img key).ft = s.ft := by
  unfold State.bindPayload
  extract_lets so dO
  have h := s.bindRead_ft (objBase so + imCipherAt img) (imPayLen img)
  split
  · simp_all
  · split <;> simp_all

@[simp] theorem State.bindImage_ft (s : State) (c : Cmd) (n : Nat) (img : List Byte) :
    (s.bindImage c n img).ft = s.ft := by
  unfold State.bindImage
  (repeat' split) <;> simp

@[simp] theorem execBind_ft (cmd : Nat) (s : State) : KeepsFt s (execBind cmd s) := by
  unfold execBind
  rw [keepsFt_next]
  split
  · rfl
  rename_i c _
  split
  · rfl
  extract_lets s₁
  have h₁ := s₁.bindHead_ft c
  split
  case h_2 => simp_all [s₁]
  rename_i s₂ hh
  extract_lets so n
  have h₂ := s₂.bindRead_ft (objBase so) (min n 448)
  split
  · simp_all [s₁]
  rename_i hd s₃ _
  extract_lets more
  have h₃ := s₃.bindRead_ft (objBase so) more
  split <;> simp_all [s₁]

@[simp] theorem execUnbind_ft (cmd : Nat) (s : State) : KeepsFt s (execUnbind cmd s) := by
  simp only [execUnbind]
  (repeat' split) <;> simp

@[simp] theorem State.unbindSlot_ft (s : State) (m : Image) (cmd : Nat) : (s.unbindSlot m cmd).ft = s.ft := by
  simp [State.unbindSlot]

@[simp] theorem execUnbindClear_ft (part slot : Nat) (s : State) : KeepsFt s (execUnbindClear part slot s) := by
  unfold execUnbindClear
  split <;> simp [foldl_ft]

/-! ### Machine/Frame.lean -/

@[simp] theorem State.leaves_ft (s : State) (p l tc bytes ready : Nat) : (s.leaves p l tc bytes ready).ft = s.ft := by
  simp [State.leaves]

@[simp] theorem State.sendReply_ft (s : State) (r : Reply) : (s.sendReply r).ft = s.ft := by
  unfold State.sendReply
  extract_lets t
  have ht : t.ft = s.ft := by
    simp only [t]
    split
    · exact State.leaves_ft ..
    · rfl
  exact ht

@[simp] theorem State.reply_ft (s : State) (r : Reply) : (s.reply r).ft = s.ft := by
  unfold State.reply
  split
  · exact s.sendReply_ft r
  split
  · rfl
  · extract_lets t
    have ht : t.ft = s.ft := by
      simp only [t]
      split
      · split <;> exact State.count_ft s _ _ _
      · rfl
    exact ht

@[simp] theorem State.repliesOut_ft (s : State) : s.repliesOut.ft = s.ft := by simp [State.repliesOut, foldl_ft]

@[simp] theorem State.arpIn_ft (s : State) (l : Nat) (f : List Byte) : (s.arpIn l f).ft = s.ft := by
  simp only [State.arpIn]
  (repeat' split) <;> simp

@[simp] theorem execArpSolicit_ft (lport : Nat) (frame : List Byte) (s : State) :
    KeepsFt s (execArpSolicit lport frame s) := by simp [execArpSolicit]

/-! ### Machine/Conns.lean -/

@[simp] theorem State.sendCtrl_ft (s : State) (i sub reason : Nat) (via : Option Nat) :
    (s.sendCtrl i sub reason via).ft = s.ft := by simp [State.sendCtrl]

@[simp] theorem State.sendAck_ft (s : State) (i : Nat) : (s.sendAck i).ft = s.ft := by simp [State.sendAck]

@[simp] theorem State.twinLost_ft (s : State) (k : DirKey) : (s.twinLost k).ft = s.ft := by simp [State.twinLost]

@[simp] theorem State.ownerLost_ft (s : State) (p : Nat) : (s.ownerLost p).ft = s.ft := by
  unfold State.ownerLost
  split <;> simp

@[simp] theorem State.abandon_ft (s : State) (i : Nat) : (s.abandon i).ft = s.ft := by
  simp only [State.abandon]
  (repeat' split) <;> simp [foldl_ft]

@[simp] theorem State.connFail_ft (s : State) (i reason : Nat) : (s.connFail i reason).ft = s.ft := by
  simp [State.connFail]

@[simp] theorem State.connIdle_ft (s : State) (i reason : Nat) : (s.connIdle i reason).ft = s.ft := by
  simp [State.connIdle]

@[simp] theorem State.connOpened_ft (s : State) (i : Nat) (x : List Byte) : (s.connOpened i x).ft = s.ft := by
  simp [State.connOpened]

@[simp] theorem State.openConn_ft (s : State) (fn : Nat) : (s.openConn fn).ft = s.ft := by simp [State.openConn]

@[simp] theorem execConnOpen_ft (fn : Nat) (s : State) : KeepsFt s (execConnOpen fn s) := by simp [execConnOpen]

@[simp] theorem execConnectRetry_ft (conn : Nat) (s : State) : KeepsFt s (execConnectRetry conn s) := by
  simp [execConnectRetry]

@[simp] theorem execConnectTimeout_ft (conn : Nat) (s : State) : KeepsFt s (execConnectTimeout conn s) := by
  simp [execConnectTimeout]

@[simp] theorem execClosingTimeout_ft (conn : Nat) (s : State) : KeepsFt s (execClosingTimeout conn s) := by
  simp [execClosingTimeout]

@[simp] theorem State.rejectPacket_ft (s : State) (a : Arrival) (tenant : Nat) (x : List Byte) (reason : Nat) :
    (s.rejectPacket a tenant x reason).ft = s.ft := by simp [State.rejectPacket]

@[simp] theorem State.connectIn_ft (s : State) (a : Arrival) (tenant : Nat) (x : List Byte) :
    (s.connectIn a tenant x).ft = s.ft := by
  unfold State.connectIn
  (repeat' split) <;> simp

@[simp] theorem execConnect_ft (tenant : Nat) (ext : List Byte) (s : State) : KeepsFt s (execConnect tenant ext s) := by
  simp [execConnect]

@[simp] theorem State.acceptIn_ft (s : State) (i : Nat) (x : List Byte) : (s.acceptIn i x).ft = s.ft := by
  simp [State.acceptIn]

@[simp] theorem execAccept_ft (conn : Nat) (ext : List Byte) (s : State) : KeepsFt s (execAccept conn ext s) := by
  simp [execAccept]

@[simp] theorem State.rejectIn_ft (s : State) (i : Nat) (x : List Byte) : (s.rejectIn i x).ft = s.ft := by
  simp [State.rejectIn]

@[simp] theorem execReject_ft (conn : Nat) (ext : List Byte) (s : State) : KeepsFt s (execReject conn ext s) := by
  simp [execReject]

@[simp] theorem State.closeStep_ft (s : State) (i : Nat) : (s.closeStep i).ft = s.ft := by simp [State.closeStep]

@[simp] theorem State.closing_ft (s : State) (i : Nat) : (s.closing i).ft = s.ft := by simp [State.closing]

@[simp] theorem State.closeIn_ft (s : State) (i : Nat) : (s.closeIn i).ft = s.ft := by simp [State.closeIn]

@[simp] theorem execCtrlClose_ft (conn : Nat) (s : State) : KeepsFt s (execCtrlClose conn s) := by
  simp [execCtrlClose]

@[simp] theorem State.closeAckIn_ft (s : State) (i : Nat) : (s.closeAckIn i).ft = s.ft := by simp [State.closeAckIn]

@[simp] theorem execCloseAck_ft (conn : Nat) (s : State) : KeepsFt s (execCloseAck conn s) := by simp [execCloseAck]

@[simp] theorem State.closeConn_ft (s : State) (fn : Nat) : (s.closeConn fn).ft = s.ft := by
  simp only [State.closeConn]
  (repeat' split) <;> simp

@[simp] theorem execConnClose_ft (fn : Nat) (s : State) : KeepsFt s (execConnClose fn s) := by simp [execConnClose]

@[simp] theorem State.connWindow_ft (s : State) (fn off : Nat) (bs : List Byte) :
    (s.connWindow fn off bs).ft = s.ft := by simp [State.connWindow]

@[simp] theorem execConnWindowWrite_ft (fn off : Nat) (data : List Byte) (s : State) :
    KeepsFt s (execConnWindowWrite fn off data s) := by simp [execConnWindowWrite]

/-! ### Machine/Waykeys.lean -/

@[simp] theorem State.wkLoad_ft (s : State) (fn : Nat) (v : BitVec 256) : (s.wkLoad fn v).ft = s.ft := by
  simp [State.wkLoad]

@[simp] theorem State.wkCreate_ft (s : State) (fn : Nat) : (s.wkCreate fn).ft = s.ft := by
  simp only [State.wkCreate]
  (repeat' split) <;> simp

@[simp] theorem execWaykeyCreate_ft (fn : Nat) (s : State) : KeepsFt s (execWaykeyCreate fn s) := by
  simp [execWaykeyCreate]

@[simp] theorem State.wkRevoked_ft (s : State) (i : Nat) : (s.wkRevoked i).ft = s.ft := by
  simp only [State.wkRevoked]
  (repeat' split) <;> simp

@[simp] theorem State.wkSettle_ft (s : State) (i : Nat) : (s.wkSettle i).ft = s.ft := by simp [State.wkSettle]

@[simp] theorem State.wkRevoke_ft (s : State) (fn : Nat) (v : Word) : (s.wkRevoke fn v).ft = s.ft := by
  simp [State.wkRevoke]

@[simp] theorem execWaykeyRevoke_ft (fn : Nat) (v : Word) (s : State) : KeepsFt s (execWaykeyRevoke fn v s) := by
  simp [execWaykeyRevoke]

@[simp] theorem State.wkReadOut_ft (s : State) (fn : Nat) : (s.wkReadOut fn).ft = s.ft := by simp [State.wkReadOut]

@[simp] theorem execWaykeyRead_ft (fn : Nat) (s : State) : KeepsFt s (execWaykeyRead fn s) := by simp [execWaykeyRead]

@[simp] theorem State.wkControl_ft (s : State) (fn : Nat) (v : Word) : (s.wkControl fn v).ft = s.ft := by
  unfold State.wkControl
  split <;> simp

@[simp] theorem execRevocationComplete_ft (key : Nat) (s : State) : KeepsFt s (execRevocationComplete key s) := by
  simp [execRevocationComplete]

@[simp] theorem State.abandonedWrite_ft (s : State) (part cmd a : Nat) (bs : List Byte) :
    (s.abandonedWrite part cmd a bs).ft = s.ft := by simp [State.abandonedWrite, foldl_ft]

@[simp] theorem State.readOut_ft (s : State) (a n : Nat) : (s.readOut a n).2.ft = s.ft := by
  unfold State.readOut
  split <;> simp

/-! ### Machine/Rebuild.lean -/

@[simp] theorem State.freeBytes_ft (s : State) (n : Nat) : (s.freeBytes n).2.ft = s.ft := by simp [State.freeBytes]

@[simp] theorem State.sendImage_ft (s : State) (p i key : Nat) (bs : List Byte) :
    (s.sendImage p i key bs).ft = s.ft := by simp [State.sendImage, foldl_ft]

@[simp] theorem State.unitBytes_ft (s : State) (xs : List Slot) : (s.unitBytes xs).2.ft = s.ft := by
  induction xs generalizing s with
  | nil => rfl
  | cons x t ih => simp [State.unitBytes, ih]

@[simp] theorem State.setSender_ft (s : State) (p : Nat) (f : Rebuild → Rebuild) : (s.setSender p f).ft = s.ft := by
  simp [State.setSender]

@[simp] theorem State.rebuildNext_ft (s : State) (p : Nat) : (s.rebuildNext p).ft = s.ft := by
  simp only [State.rebuildNext]
  (repeat' split) <;> simp

@[simp] theorem State.rebuildStart_ft (s : State) (fn : Nat) : (s.rebuildStart fn).ft = s.ft := by
  simp only [State.rebuildStart]
  (repeat' split) <;> simp

@[simp] theorem execRebuildStart_ft (fn : Nat) (s : State) : KeepsFt s (execRebuildStart fn s) := by
  simp [execRebuildStart]

@[simp] theorem State.rebuildAbort_ft (s : State) (fn : Nat) : (s.rebuildAbort fn).ft = s.ft := by
  simp [State.rebuildAbort]

@[simp] theorem execRebuildAbort_ft (fn : Nat) (s : State) : KeepsFt s (execRebuildAbort fn s) := by
  simp [execRebuildAbort]

/-! ### Machine/Tx.lean -/

theorem State.pick_ft {s : State} {l : Nat} {x : Lead × State} (h : s.pick l = some x) : x.2.ft = s.ft := by
  unfold State.pick at h
  split at h
  · cases h; rfl
  extract_lets bs chosen at h
  have hc : ∀ p t, chosen p t = some x → x.2.ft = t.ft := fun p t h => by
    obtain ⟨b, -, rfl⟩ := Option.map_eq_some_iff.1 h
    rfl
  clear_value chosen bs
  split at h
  · split at h
    · exact hc _ _ h
    · cases h
  · split at h
    · simpa using hc _ _ h
    · cases h

@[simp] theorem State.emberLeft_ft (s : State) (k : NextPkt) : (s.emberLeft k).ft = s.ft := by
  unfold State.emberLeft
  (repeat' split) <;> simp

@[simp] theorem State.startPkt_ft (s : State) (x : Lead) : (s.startPkt x).ft = s.ft := by simp [State.startPkt]

@[simp] theorem State.waitsTokens_ft (s : State) (x : Lead) : (s.waitsTokens x).ft = s.ft := by
  simp [State.waitsTokens]

@[simp] theorem State.waitsSlot_ft (s : State) (x : Lead) : (s.waitsSlot x).ft = s.ft := by simp [State.waitsSlot]

@[simp] theorem State.waits_ft (s : State) (x : Lead) : (s.waits x).ft = s.ft := by simp [State.waits]

@[simp] theorem execPacketTransmit_ft (conn tc : Nat) (s : State) : KeepsFt s (execPacketTransmit conn tc s) := by
  unfold execPacketTransmit
  rw [keepsFt_next]
  split
  case h_2 => simp [foldl_ft]
  case h_1 t h =>
    obtain ⟨x, -, hx⟩ := List.exists_of_findSome?_eq_some h
    split at hx
    case h_2 => cases hx
    case h_1 hp =>
      split at hx
      · cases hx; simpa using State.pick_ft hp
      · cases hx

@[simp] theorem State.txSettle_ft (s : State) (i : Nat) : (s.txSettle i).ft = s.ft := by
  unfold State.txSettle
  extract_lets c done t
  rw [foldl_ft]
  · rfl
  · intro t m
    split
    · split <;> simp
    · simp
    · rfl

@[simp] theorem State.ackIn_ft (s : State) (i : Nat) (ext : List Byte) : (s.ackIn i ext).ft = s.ft := by
  simp [State.ackIn, foldl_ft]

@[simp] theorem execAck_ft (conn : Nat) (ext : List Byte) (s : State) : KeepsFt s (execAck conn ext s) := by
  simp [execAck]

@[simp] theorem execAckDelayExpire_ft (conn : Nat) (s : State) : KeepsFt s (execAckDelayExpire conn s) := by
  simp [execAckDelayExpire]

@[simp] theorem State.rtoExpire_ft (s : State) (i psn : Nat) : (s.rtoExpire i psn).ft = s.ft := by
  simp only [State.rtoExpire]
  (repeat' split) <;> simp

@[simp] theorem execRtoExpire_ft (conn psn : Nat) (s : State) : KeepsFt s (execRtoExpire conn psn s) := by
  simp [execRtoExpire]

@[simp] theorem State.sendProbe_ft (s : State) (i p : Nat) : (s.sendProbe i p).ft = s.ft := by simp [State.sendProbe]

@[simp] theorem execProbeTimer_ft (conn path : Nat) (s : State) : KeepsFt s (execProbeTimer conn path s) := by
  simp [execProbeTimer]

@[simp] theorem execKeepaliveExpire_ft (conn path : Nat) (s : State) : KeepsFt s (execKeepaliveExpire conn path s) := by
  simp [execKeepaliveExpire]

@[simp] theorem execDeadTimeExpire_ft (conn : Nat) (s : State) : KeepsFt s (execDeadTimeExpire conn s) := by
  simp [execDeadTimeExpire]

/-! ### Machine/Rx.lean -/

@[simp] theorem State.ackDue_ft (s : State) (i : Nat) (now : Bool) : (s.ackDue i now).ft = s.ft := by
  simp [State.ackDue]

@[simp] theorem State.received_ft (s : State) (i psn : Nat) (o : Ort) : (s.received i psn o).ft = s.ft := by
  simp [State.received]

@[simp] theorem State.refuseDescs_ft (s : State) (i : Nat) (m : RxMsg) (b : List Byte) (n eng status : Nat) :
    (s.refuseDescs i m b n eng status).ft = s.ft := by simp [State.refuseDescs, foldl_ft]

@[simp] theorem State.cmdVisible_ft (s : State) (i : Nat) (m : RxMsg) : (s.cmdVisible i m).ft = s.ft := by
  simp [State.cmdVisible]

@[simp] theorem State.serveRead_ft (s : State) (i : Nat) (m : RxMsg) : (s.serveRead i m).ft = s.ft := by
  simp [State.serveRead]

@[simp] theorem State.writeDone_ft (s : State) (m : RxMsg) : (s.writeDone m).ft = s.ft := by simp [State.writeDone]

@[simp] theorem State.visible_ft (s : State) (i : Nat) (m : RxMsg) : (s.visible i m).ft = s.ft := by
  unfold State.visible
  (repeat' split) <;> simp

@[simp] theorem State.frontierOn_ft (s : State) (i n : Nat) : (s.frontierOn i n).ft = s.ft := by
  induction n generalizing s with
  | zero => rfl
  | succ n ih =>
    simp only [State.frontierOn]
    split <;> simp [ih]

@[simp] theorem State.advance_ft (s : State) (i : Nat) : (s.advance i).ft = s.ft := by simp [State.advance]

@[simp] theorem State.failMsg_ft (s : State) (i : Nat) (o : Ort) (msg : Nat) : (s.failMsg i o msg).ft = s.ft := by
  simp [State.failMsg]

@[simp] theorem State.refusePkt_ft (s : State) (i : Nat) (o : Ort) (psn reason : Nat) :
    (s.refusePkt i o psn reason).ft = s.ft := by simp [State.refusePkt]

@[simp] theorem State.probeIn_ft (s : State) (i p : Nat) : (s.probeIn i p).ft = s.ft := by simp [State.probeIn]

@[simp] theorem State.probeAckIn_ft (s : State) (i p : Nat) : (s.probeAckIn i p).ft = s.ft := by
  simp [State.probeAckIn]

@[simp] theorem execProbe_ft (conn path : Nat) (s : State) : KeepsFt s (execProbe conn path s) := by simp [execProbe]

@[simp] theorem execProbeAck_ft (conn path : Nat) (s : State) : KeepsFt s (execProbeAck conn path s) := by
  simp [execProbeAck]

@[simp] theorem State.emberReported_ft (s : State) (e : Sent) (reason : Nat) :
    (s.emberReported e reason).ft = s.ft := by simp [State.emberReported]

@[simp] theorem State.reportIn_ft (s : State) (i : Nat) (x : List Byte) : (s.reportIn i x).ft = s.ft := by
  simp only [State.reportIn]
  (repeat' split) <;> simp [foldl_ft]

@[simp] theorem execReport_ft (conn : Nat) (ext : List Byte) (s : State) : KeepsFt s (execReport conn ext s) := by
  simp [execReport]

@[simp] theorem State.recordIn_ft (s : State) (i : Nat) (b : List Byte) : (s.recordIn i b).ft = s.ft := by
  simp only [State.recordIn]
  (repeat' split) <;> simp

@[simp] theorem State.cplIn_ft (s : State) (i : Nat) (b : List Byte) : (s.cplIn i b).ft = s.ft := by
  simp [State.cplIn, foldl_ft]

@[simp] theorem execCpl_ft (conn : Nat) (record : List Byte) (s : State) : KeepsFt s (execCpl conn record s) := by
  simp [execCpl]

@[simp] theorem execReadResp_ft (conn msg off : Nat) (data : List Byte) (s : State) :
    KeepsFt s (execReadResp conn msg off data s) := by simp [execReadResp]

@[simp] theorem State.tc2Done_ft (s : State) (i : Nat) (m : RxMsg) : (s.tc2Done i m).ft = s.ft := by
  simp [State.tc2Done]

@[simp] theorem State.placePkt_ft (s : State) (i : Nat) (k : Placing) : (s.placePkt i k).ft = s.ft := by
  simp only [State.placePkt]
  (repeat' split) <;> simp

@[simp] theorem execPacketPlace_ft (conn psn : Nat) (s : State) : KeepsFt s (execPacketPlace conn psn s) := by
  unfold execPacketPlace
  split <;> simp

@[simp] theorem State.wkDrain_ft (s : State) (i : Nat) : (s.wkDrain i).ft = s.ft := by simp [State.wkDrain, foldl_ft]

@[simp] theorem execRevocationDrainLimit_ft (key : Nat) (s : State) : KeepsFt s (execRevocationDrainLimit key s) := by
  simp [execRevocationDrainLimit]

@[simp] theorem State.drainLimits_ft (s : State) : s.drainLimits.ft = s.ft := by simp [State.drainLimits, foldl_ft]

@[simp] theorem State.tc0In_ft (s : State) (i : Nat) (o : Ort) : (s.tc0In i o).ft = s.ft := by
  unfold State.tc0In
  (repeat' split) <;> simp

@[simp] theorem State.checked_ft (s : State) (i : Nat) (o : Ort) : (s.checked i o).ft = s.ft := by
  simp [State.checked]

@[simp] theorem State.connPkt_ft (s : State) (o : Ort) (src : List Byte) (ce : Bool) :
    (s.connPkt o src ce).ft = s.ft := by simp [State.connPkt]

@[simp] theorem State.frameIn_ft (s : State) (l : Nat) (f : List Byte) (fcsOk : Bool) :
    (s.frameIn l f fcsOk).ft = s.ft := by
  unfold State.frameIn
  split <;> simp

@[simp] theorem execOrtPacket_ft (lport : Nat) (frame : List Byte) (fcsOk : Bool) (s : State) :
    KeepsFt s (execOrtPacket lport frame fcsOk s) := by simp [execOrtPacket]

/-! ### Machine/Ports.lean -/

@[simp] theorem State.linkOff_ft (s : State) (l : Nat) : (s.linkOff l).ft = s.ft := by simp [State.linkOff]

@[simp] theorem execLinkDown_ft (lport : Nat) (s : State) : KeepsFt s (execLinkDown lport s) := by simp [execLinkDown]

@[simp] theorem execLinkUp_ft (lport : Nat) (s : State) : KeepsFt s (execLinkUp lport s) := by simp [execLinkUp]

@[simp] theorem State.portReset_ft (s : State) (n : Nat) : (s.portReset n).ft = s.ft := by simp [State.portReset]

@[simp] theorem execPortReset_ft (n : Nat) (s : State) : KeepsFt s (execPortReset n s) := by simp [execPortReset]

@[simp] theorem State.portCfg_ft (s : State) (n : Nat) (v : Word) : (s.portCfg n v).ft = s.ft := by
  simp [State.portCfg]

@[simp] theorem execPortCfgWrite_ft (n : Nat) (v : Word) (s : State) : KeepsFt s (execPortCfgWrite n v s) := by
  simp [execPortCfgWrite]

@[simp] theorem State.portTable_ft (s : State) (off : Nat) (bs : List Byte) : (s.portTable off bs).ft = s.ft := by
  simp [State.portTable]

@[simp] theorem execPortTableWrite_ft (off : Nat) (data : List Byte) (s : State) :
    KeepsFt s (execPortTableWrite off data s) := by simp [execPortTableWrite]

/-! ### Machine/Endings.lean -/

@[simp] theorem State.cutCmd_ft (s : State) (c : Cmd) (status reason : Nat) : (s.cutCmd c status reason).ft = s.ft := by
  simp only [State.cutCmd]
  (repeat' split) <;> simp

@[simp] theorem State.cutCmds_ft (s : State) (f : Cmd → Bool) (status reason : Nat) :
    (s.cutCmds f status reason).ft = s.ft := by simp [State.cutCmds, foldl_ft]

@[simp] theorem State.refuseInq_ft (s : State) (f : InDesc → Bool) (status : Nat) :
    (s.refuseInq f status).ft = s.ft := by simp [State.refuseInq, foldl_ft]

@[simp] theorem State.enterHeld_ft (s : State) (cause : Nat) : (s.enterHeld cause).ft = s.ft := by
  simp [State.enterHeld]

@[simp] theorem State.sharedFault_ft (s : State) (cause : Nat) : (s.sharedFault cause).ft = s.ft := by
  simp [State.sharedFault]

@[simp] theorem State.resetRegs_ft (s : State) (fn : Nat) : (s.resetRegs fn).ft = s.ft := by simp [State.resetRegs]

@[simp] theorem State.ringsOff_ft (s : State) (p : Nat) : (s.ringsOff p).ft = s.ft := by simp [State.ringsOff]

/-! ### Machine/Partitions.lean -/

@[simp] theorem State.loadBytes_ft (s : State) (fn off : Nat) (bs : List Byte) : (s.loadBytes fn off bs).ft = s.ft := by
  simp [State.loadBytes, foldl_ft]

@[simp] theorem State.attestGo_ft (s : State) (fn : Nat) (v : Word) : (s.attestGo fn v).ft = s.ft := by
  simp [State.attestGo]

@[simp] theorem execAttestGo_ft (fn : Nat) (v : Word) (s : State) : KeepsFt s (execAttestGo fn v s) := by
  simp [execAttestGo]

@[simp] theorem execAttestDone_ft (fn : Nat) (s : State) : KeepsFt s (execAttestDone fn s) := by
  unfold execAttestDone
  split <;> simp

@[simp] theorem State.releaseBegin_ft (s : State) (p : Nat) : (s.releaseBegin p).ft = s.ft := by
  simp [State.releaseBegin, foldl_ft]

@[simp] theorem State.release_ft (s : State) (p : Nat) : (s.release p).ft = s.ft := by simp [State.release]

@[simp] theorem execRelease_ft (part : Nat) (s : State) : KeepsFt s (execRelease part s) := by simp [execRelease]

@[simp] theorem State.wipe_ft (s : State) (own : Nat → Bool) : (s.wipe own).ft = s.ft := by simp [State.wipe]

@[simp] theorem State.closeAll_ft (s : State) (p : Nat) : (s.closeAll p).ft = s.ft := by simp [State.closeAll]

@[simp] theorem State.scrubPart_ft (s : State) (p : Nat) : (s.scrubPart p).ft = s.ft := by simp [State.scrubPart]

@[simp] theorem execReleaseScrub_ft (part : Nat) (s : State) : KeepsFt s (execReleaseScrub part s) := by
  simp [execReleaseScrub]

@[simp] theorem State.readBack_ft (s : State) (p : Nat) : (s.readBack p).1.ft = s.ft := by
  simp [State.readBack, foldl_ft]

@[simp] theorem execScrubVerify_ft (part : Nat) (failed : Bool) (s : State) :
    KeepsFt s (execScrubVerify part failed s) := by
  unfold execScrubVerify
  rw [keepsFt_next]
  split
  · rfl
  split
  rename_i s₁ dirty heq
  extract_lets s₂ mine none s₃ s₄
  have h₁ : s₁.ft = s.ft := by rw [← s.readBack_ft part, heq]
  have h₂ : s₂.ft = s.ft := by simp only [s₂]; split <;> simp [h₁]
  have h₃ : s₃.ft = s.ft := (foldl_ft (fun _ _ => by rfl) mine s₂).trans h₂
  have h₄ : s₄.ft = s.ft := h₃
  split <;> simp [h₄]

@[simp] theorem State.activatePart_ft (s : State) (p : Nat) : (s.activatePart p).ft = s.ft := by
  simp [State.activatePart]

@[simp] theorem execActivate_ft (part : Nat) (s : State) : KeepsFt s (execActivate part s) := by simp [execActivate]

/-! ### Machine/Faults.lean -/

@[simp] theorem State.failedGranule_ft (s : State) (p a : Nat) : (s.failedGranule p a).ft = s.ft := by
  unfold State.failedGranule
  split <;> simp

@[simp] theorem State.resetPart_ft (s : State) (p : Nat) : (s.resetPart p).ft = s.ft := by simp [State.resetPart]

@[simp] theorem execPartitionReset_ft (addr : Nat) (s : State) : KeepsFt s (execPartitionReset addr s) := by
  unfold execPartitionReset
  (repeat' split) <;> simp

@[simp] theorem State.entryLost_ft (s : State) (k : DirKey) : (s.entryLost k).ft = s.ft := by simp [State.entryLost]

@[simp] theorem State.emberLost_ft (s : State) (id : Nat) : (s.emberLost id).ft = s.ft := by
  simp [State.emberLost, foldl_ft]

@[simp] theorem State.persists_ft (s : State) (r : RecRef) : (s.persists r).ft = s.ft := by
  unfold State.persists
  split <;> simp

@[simp] theorem execComplementReread_ft (r : RecRef) (s : State) : KeepsFt s (execComplementReread r s) := by
  unfold execComplementReread
  split <;> simp

@[simp] theorem execFlitCrcFail_ft (link : Nat) (s : State) : KeepsFt s (execFlitCrcFail link s) := by
  simp [execFlitCrcFail]

@[simp] theorem execWdogService_ft (v : Word) (s : State) : KeepsFt s (execWdogService v s) := by
  simp [execWdogService]

@[simp] theorem execWdogWarn_ft (s : State) : KeepsFt s (execWdogWarn s) := by simp [execWdogWarn]

@[simp] theorem execWdogExpire_ft (s : State) : KeepsFt s (execWdogExpire s) := by simp [execWdogExpire]

@[simp] theorem State.probeRefused_ft (s : State) : s.probeRefused.ft = s.ft := by simp [State.probeRefused]

@[simp] theorem State.showProbe_ft (s : State) (id : Nat) (armed session : Bool) :
    (s.showProbe id armed session).ft = s.ft := by simp [State.showProbe]

@[simp] theorem State.armPack_ft (s : State) (session : Bool) : (s.armPack session).ft = s.ft := by
  simp [State.armPack]

@[simp] theorem State.disarm_ft (s : State) : s.disarm.ft = s.ft := by
  unfold State.disarm
  split <;> simp

@[simp] theorem execProbeArm_ft (s : State) : KeepsFt s (execProbeArm s) := by simp [execProbeArm]

@[simp] theorem execProbeSession_ft (s : State) : KeepsFt s (execProbeSession s) := by simp [execProbeSession]

@[simp] theorem execProbeStop_ft (s : State) : KeepsFt s (execProbeStop s) := by simp [execProbeStop]

@[simp] theorem State.sessionEnd_ft (s : State) : s.sessionEnd.ft = s.ft := by
  unfold State.sessionEnd
  split <;> simp

@[simp] theorem State.packExpire_ft (s : State) : s.packExpire.ft = s.ft := by
  unfold State.packExpire
  split <;> simp

@[simp] theorem State.probeSlot_ft (s : State) : s.probeSlot.ft = s.ft := by
  unfold State.probeSlot
  split <;> simp [foldl_ft]

@[simp] theorem State.unitFault_ft (s : State) (r : ProbeRun) : (s.unitFault r).ft = s.ft := by simp [State.unitFault]

@[simp] theorem State.probeFailed_ft (s : State) : s.probeFailed.ft = s.ft := by simp [State.probeFailed]

@[simp] theorem execProbeResult_ft (output : List Byte) (s : State) : KeepsFt s (execProbeResult output s) := by
  unfold execProbeResult
  (repeat' split) <;> simp

/-! ### Machine/Leases.lean -/

@[simp] theorem State.leaseSend_ft (s : State) (k : DirKey) (kind dst epoch endMs : Nat) :
    (s.leaseSend k kind dst epoch endMs).ft = s.ft := by
  unfold State.leaseSend
  (repeat' split) <;> simp

@[simp] theorem State.leaseLost_ft (s : State) (k : DirKey) : (s.leaseLost k).ft = s.ft := by simp [State.leaseLost]

@[simp] theorem State.setOwn_ft (s : State) (k : DirKey) (o : BitVec 128) : (s.setOwn k o).ft = s.ft := by
  simp [State.setOwn]

@[simp] theorem State.leaseSent_ft (s : State) (k : DirKey) : (s.leaseSent k).ft = s.ft := by simp [State.leaseSent]

@[simp] theorem State.grantTaken_ft (s : State) (k : DirKey) (o : BitVec 128) (m : List Byte) :
    (s.grantTaken k o m).ft = s.ft := by simp [State.grantTaken]

@[simp] theorem State.overruled_ft (s : State) (k : DirKey) (o : BitVec 128) (m : List Byte) :
    (s.overruled k o m).ft = s.ft := by simp [State.overruled]

@[simp] theorem State.leaseAct_ft (s : State) (k : DirKey) (o : BitVec 128) (m : List Byte) :
    (s.leaseAct k o m).ft = s.ft := by simp [State.leaseAct]

@[simp] theorem State.leaseIn_ft (s : State) (kind : Nat) (m : List Byte) : (s.leaseIn kind m).ft = s.ft := by
  simp only [State.leaseIn]
  (repeat' split) <;> simp

@[simp] theorem execGrant_ft (msg : List Byte) (s : State) : KeepsFt s (execGrant msg s) := by simp [execGrant]

@[simp] theorem execRenew_ft (msg : List Byte) (s : State) : KeepsFt s (execRenew msg s) := by simp [execRenew]

@[simp] theorem execFinal_ft (msg : List Byte) (s : State) : KeepsFt s (execFinal msg s) := by simp [execFinal]

@[simp] theorem execDeny_ft (msg : List Byte) (s : State) : KeepsFt s (execDeny msg s) := by simp [execDeny]

@[simp] theorem State.ownRead_ft (s : State) (k : DirKey) : (s.ownRead k).1.ft = s.ft := by
  simp only [State.ownRead]
  (repeat' split) <;> simp

@[simp] theorem State.leaseBad_ft (s : State) (fn : Nat) : (s.leaseBad fn).ft = s.ft := by simp [State.leaseBad]

@[simp] theorem State.leaseGrant_ft (s : State) (fn : Nat) : (s.leaseGrant fn).ft = s.ft := by
  unfold State.leaseGrant
  extract_lets k dst
  have h := s.ownRead_ft k
  split
  · simp
  · split
    · simp_all
    · split <;> simp_all

@[simp] theorem execLeaseGrant_ft (fn : Nat) (s : State) : KeepsFt s (execLeaseGrant fn s) := by simp [execLeaseGrant]

@[simp] theorem State.leaseTwin_ft (s : State) (fn : Nat) : (s.leaseTwin fn).ft = s.ft := by
  unfold State.leaseTwin
  extract_lets k dst
  have h := s.ownRead_ft k
  split
  · simp
  · split
    · simp_all
    · split <;> simp_all

@[simp] theorem execLeaseTwin_ft (fn : Nat) (s : State) : KeepsFt s (execLeaseTwin fn s) := by simp [execLeaseTwin]

@[simp] theorem State.leaseTake_ft (s : State) (fn : Nat) : (s.leaseTake fn).ft = s.ft := by
  unfold State.leaseTake
  extract_lets k
  have h := s.ownRead_ft k
  split
  · simp
  · split
    · simp_all
    · split <;> simp_all

@[simp] theorem execLeaseTake_ft (fn : Nat) (s : State) : KeepsFt s (execLeaseTake fn s) := by simp [execLeaseTake]

@[simp] theorem State.leaseRead_ft (s : State) (fn : Nat) : (s.leaseRead fn).ft = s.ft := by
  unfold State.leaseRead
  extract_lets k bad
  have h := s.ownRead_ft k
  split
  · simp
  · split
    · simp_all
    · split <;> simp_all

@[simp] theorem execLeaseRead_ft (fn : Nat) (s : State) : KeepsFt s (execLeaseRead fn s) := by simp [execLeaseRead]

@[simp] theorem State.ownNow_ft (s : State) (k : DirKey) : (s.ownNow k).1.ft = s.ft := by
  unfold State.ownNow
  split <;> simp

@[simp] theorem execGrantResend_ft (key : DirKey) (s : State) : KeepsFt s (execGrantResend key s) := by
  unfold execGrantResend
  rw [keepsFt_next]
  have h := s.ownNow_ft key
  split
  · rfl
  · split
    · split <;> simp_all
    · simp_all

@[simp] theorem execRenewTimer_ft (key : DirKey) (s : State) : KeepsFt s (execRenewTimer key s) := by
  unfold execRenewTimer
  rw [keepsFt_next]
  have h := s.ownNow_ft key
  split
  · rfl
  · split
    · split <;> simp_all
    · simp_all

@[simp] theorem execLeaseExpire_ft (key : DirKey) (s : State) : KeepsFt s (execLeaseExpire key s) := by
  unfold execLeaseExpire
  rw [keepsFt_next]
  have h := s.ownNow_ft key
  split
  · split <;> simp_all
  · simp_all

@[simp] theorem execLeaseReclaim_ft (key : DirKey) (s : State) : KeepsFt s (execLeaseReclaim key s) := by
  unfold execLeaseReclaim
  rw [keepsFt_next]
  have h := s.ownNow_ft key
  split
  · split <;> simp_all
  · simp_all

@[simp] theorem State.rebuildOpen_ft (s : State) (p conn epoch seq : Nat) (layers : List (Nat × Nat × Nat × Nat)) :
    (s.rebuildOpen p conn epoch seq layers).ft = s.ft := by
  unfold State.rebuildOpen
  extract_lets node good s₁ spans r
  exact foldl_ft (fun _ _ => by rfl) good s

@[simp] theorem State.setReceiver_ft (s : State) (p : Nat) (f : Rebuild → Rebuild) : (s.setReceiver p f).ft = s.ft := by
  simp [State.setReceiver]

@[simp] theorem State.placeImage_ft (s : State) (x : Slot) (g : PageImage) : (s.placeImage x g).ft = s.ft := by
  simp [State.placeImage]

@[simp] theorem State.mergeImage_ft (s : State) (x : Slot) (g : PageImage) : (s.mergeImage x g).ft = s.ft := by
  simp [State.mergeImage]

@[simp] theorem State.unitFailed_ft (s : State) (p span : Nat) : (s.unitFailed p span).ft = s.ft := by
  simp [State.unitFailed]

@[simp] theorem State.rebuildUnit_ft (s : State) (p : Nat) (r : Rebuild) (span : Nat)
    (pages : List (Nat × Nat × List Byte)) : (s.rebuildUnit p r span pages).ft = s.ft := by
  unfold State.rebuildUnit
  extract_lets got want all got' here new
  split
  · simp
  split
  case h_1 ha => simpa using State.allocate_fails_ft ha
  case h_2 ha => simpa using State.allocate_waits_ft ha
  case h_3 t _ ha =>
    extract_lets t₁ t₂ t₃
    have h₁ : t₁.ft = t.ft := foldl_ft (fun u g => by
      split
      · rfl
      · split <;> simp) got' t
    have h₃ : t₃.ft = t₁.ft := by simp [t₃, t₂]
    exact (h₃.trans h₁).trans (State.allocate_got_ft ha)

@[simp] theorem execRebuildImage_ft (fn : Nat) (img : RbImage) (s : State) : KeepsFt s (execRebuildImage fn img s) := by
  simp only [execRebuildImage]
  (repeat' split) <;> simp

/-! ### Machine/Boot.lean -/

@[simp] theorem State.bootScrub_ft (s : State) (new : List (BitVec 512)) : (s.bootScrub new).ft = s.ft := by
  simp only [State.bootScrub]
  (repeat' split) <;> simp

@[simp] theorem State.loadSlots_ft (s : State) (c : List Byte) : (s.loadSlots c).ft = s.ft := by
  simp [State.loadSlots, foldl_ft]

@[simp] theorem State.lock_ft (s : State) (c : List Byte) (faulted : List Nat) : (s.lock c faulted).ft = s.ft := by
  unfold State.lock
  extract_lets es s₁ s₂ s₃ s₄ s₅ s₆ s₇ s₈
  have h₂ : s₂.ft = s.ft := by simp [s₂, s₁]
  have h₃ : s₃.ft = s₂.ft := foldl_ft (fun t v => by simp) es s₂
  have h₅ : s₅.ft = s₃.ft := by simp [s₅, s₄]
  have h₇ : s₇.ft = s₆.ft := foldl_ft (fun _ _ => by rfl) es s₆
  have h₈ : s₈.ft = s₇.ft := by simp only [s₈]; split <;> simp
  rw [State.setRegB_ft, h₈, h₇, ← h₂, ← h₃, ← h₅]

@[simp] theorem State.toRecovery_ft (s : State) (cause : Nat) : (s.toRecovery cause).ft = s.ft := by
  simp [State.toRecovery]

@[simp] theorem State.bootCharter_ft (s : State) (env : BootEnv) : (s.bootCharter env).ft = s.ft := by
  simp only [State.bootCharter]
  (repeat' split) <;> simp

@[simp] theorem State.bootTrain_ft (s : State) (env : BootEnv) : (s.bootTrain env).ft = s.ft := by
  unfold State.bootTrain
  split <;> simp

@[simp] theorem State.deriveKeys_ft (s : State) (seed : BitVec 256) : (s.deriveKeys seed).ft = s.ft := by
  simp [State.deriveKeys]

@[simp] theorem State.bootIdentity_ft (s : State) (env : BootEnv) : (s.bootIdentity env).ft = s.ft := by
  simp [State.bootIdentity]

@[simp] theorem State.bootFirmware_ft (s : State) (env : BootEnv) : (s.bootFirmware env).ft = s.ft := by
  simp [State.bootFirmware]

@[simp] theorem State.bootStart_ft (s : State) (env : BootEnv) : (s.bootStart env).ft = s.ft := by
  simp [State.bootStart]

@[simp] theorem execPowerOnReset_ft (env : BootEnv) (s : State) : KeepsFt s (execPowerOnReset env s) := by
  simp [execPowerOnReset]

/-! ### Machine/Life.lean -/

@[simp] theorem State.lifeBad_ft (s : State) : s.lifeBad.ft = s.ft := by simp [State.lifeBad]

@[simp] theorem State.toService_ft (s : State) : s.toService.ft = s.ft := by simp [State.toService]

@[simp] theorem State.toDrain_ft (s : State) : s.toDrain.ft = s.ft := by simp [State.toDrain]

@[simp] theorem State.toStandby_ft (s : State) : s.toStandby.ft = s.ft := by simp [State.toStandby]

@[simp] theorem State.toHold_ft (s : State) : s.toHold.ft = s.ft := by simp [State.toHold]

@[simp] theorem execService_ft (s : State) : KeepsFt s (execService s) := by simp [execService]

@[simp] theorem execDrain_ft (s : State) : KeepsFt s (execDrain s) := by simp [execDrain]

@[simp] theorem execStandby_ft (s : State) : KeepsFt s (execStandby s) := by simp [execStandby]

@[simp] theorem execStandbyEnter_ft (s : State) : KeepsFt s (execStandbyEnter s) := by simp [execStandbyEnter]

@[simp] theorem execHold_ft (s : State) : KeepsFt s (execHold s) := by simp [execHold]

@[simp] theorem execPreset_ft (part : Nat) (s : State) : KeepsFt s (execPreset part s) := by simp [execPreset]

@[simp] theorem State.clearJobs_ft (s : State) : s.clearJobs.ft = s.ft := by simp [State.clearJobs, foldl_ft]

@[simp] theorem State.engineResetWrite_ft (s : State) (fn : Nat) (v : Word) : (s.engineResetWrite fn v).ft = s.ft := by
  simp [State.engineResetWrite]

@[simp] theorem execEngineReset_ft (fn : Nat) (v : Word) (s : State) : KeepsFt s (execEngineReset fn v s) := by
  simp [execEngineReset]

@[simp] theorem execPartitionResetEnd_ft (part : Nat) (s : State) : KeepsFt s (execPartitionResetEnd part s) := by
  simp [execPartitionResetEnd]

@[simp] theorem execEngineResetEnd_ft (part : Nat) (s : State) : KeepsFt s (execEngineResetEnd part s) := by
  simp [execEngineResetEnd]

@[simp] theorem State.closeHostWindows_ft (s : State) (f : Nat → Bool) : (s.closeHostWindows f).ft = s.ft := by
  unfold State.closeHostWindows
  extract_lets ks s₁
  have h₁ : s₁.ft = s.ft := foldl_ft (fun _ _ => by rfl) ks s
  exact (foldl_ft (fun t h => by simp) _ s₁).trans h₁

@[simp] theorem State.discardRecords_ft (s : State) (f : Nat → Bool) : (s.discardRecords f).ft = s.ft := by
  simp [State.discardRecords]

@[simp] theorem State.vfReset_ft (s : State) (p : Nat) : (s.vfReset p).ft = s.ft := by simp [State.vfReset]

@[simp] theorem execFunctionLevelReset_ft (fn : Nat) (s : State) : KeepsFt s (execFunctionLevelReset fn s) := by
  simp [execFunctionLevelReset, foldl_ft]

@[simp] theorem execVfEnable_ft (numVfs : Nat) (enable : Bool) (s : State) :
    KeepsFt s (execVfEnable numVfs enable s) := by simp [execVfEnable, foldl_ft]

@[simp] theorem State.busyFell_ft (s : State) (before : Bool) : (s.busyFell before).ft = s.ft := by
  simp [State.busyFell]

@[simp] theorem State.retarget_ft (s : State) : s.retarget.ft = s.ft := by simp [State.retarget]

@[simp] theorem State.powerWrite_ft (s : State) (v : Word) : (s.powerWrite v).ft = s.ft := by simp [State.powerWrite]

@[simp] theorem execPowerTarget_ft (v : Word) (s : State) : KeepsFt s (execPowerTarget v s) := by
  simp [execPowerTarget]

@[simp] theorem execDStateChange_ft (d3hot : Bool) (s : State) : KeepsFt s (execDStateChange d3hot s) := by
  simp [execDStateChange]

@[simp] theorem State.applyOpp_ft (s : State) : s.applyOpp.ft = s.ft := by simp [State.applyOpp]

@[simp] theorem State.powerStep_ft (s : State) : s.powerStep.ft = s.ft := by
  unfold State.powerStep
  split <;> simp

@[simp] theorem execPowerStateChange_ft (s : State) : KeepsFt s (execPowerStateChange s) := by
  simp [execPowerStateChange]

@[simp] theorem execFireboxSaveDone_ft (s : State) : KeepsFt s (execFireboxSaveDone s) := by
  simp [execFireboxSaveDone]

@[simp] theorem State.lodgeDown_ft (s : State) : s.lodgeDown.ft = s.ft := by simp [State.lodgeDown, foldl_ft]

@[simp] theorem execLodgeReset_ft (cause : LodgeCause) (s : State) : KeepsFt s (execLodgeReset cause s) := by
  unfold execLodgeReset
  split <;> simp

@[simp] theorem execPerstRelease_ft (s : State) : KeepsFt s (execPerstRelease s) := by simp [execPerstRelease]

@[simp] theorem execLodgeLinkUp_ft (s : State) : KeepsFt s (execLodgeLinkUp s) := by simp [execLodgeLinkUp]

@[simp] theorem State.rcvStat_ft (s : State) (st code : Nat) : (s.rcvStat st code).ft = s.ft := by
  simp [State.rcvStat]

@[simp] theorem State.commitFile_ft (s : State) (f : RcvFile) (b : List Byte) : (s.commitFile f b).ft = s.ft := by
  simp [State.commitFile]

@[simp] theorem State.commitWrite_ft (s : State) (v : Word) : (s.commitWrite v).ft = s.ft := by
  unfold State.commitWrite
  (repeat' split) <;> simp

@[simp] theorem execRecoveryCommit_ft (v : Word) (s : State) : KeepsFt s (execRecoveryCommit v s) := by
  simp [execRecoveryCommit]

@[simp] theorem execRecoveryWriteDone_ft (ok : Bool) (s : State) : KeepsFt s (execRecoveryWriteDone ok s) := by
  unfold execRecoveryWriteDone
  split <;> simp

@[simp] theorem State.tftpRefuse_ft (s : State) : s.tftpRefuse.ft = s.ft := by simp [State.tftpRefuse]

@[simp] theorem execTftpWrite_ft (file : RcvFile) (data : List Byte) (s : State) :
    KeepsFt s (execTftpWrite file data s) := by simp [execTftpWrite]

@[simp] theorem execTftpRead_ft (s : State) : KeepsFt s (execTftpRead s) := by simp [execTftpRead]

@[simp] theorem State.takeIp_ft (s : State) (port : Nat) (ip : Word) : (s.takeIp port ip).ft = s.ft := by
  simp [State.takeIp]

@[simp] theorem execDhcpTimeout_ft (port : Nat) (s : State) : KeepsFt s (execDhcpTimeout port s) := by
  simp [execDhcpTimeout]

@[simp] theorem execDhcpReply_ft (port : Nat) (ip : Word) (s : State) : KeepsFt s (execDhcpReply port ip s) := by
  simp [execDhcpReply]

@[simp] theorem State.stage_ft (s : State) (recovery : Bool) (off : Nat) (bs : List Byte) :
    (s.stage recovery off bs).ft = s.ft := by simp [State.stage]

@[simp] theorem execStagingWrite_ft (recovery : Bool) (off : Nat) (data : List Byte) (s : State) :
    KeepsFt s (execStagingWrite recovery off data s) := by simp [execStagingWrite]

@[simp] theorem execRepairRecordWrite_ft (ok : Bool) (s : State) : KeepsFt s (execRepairRecordWrite ok s) := by
  simp [execRepairRecordWrite]

/-! ### Machine/Pins.lean -/

@[simp] theorem execI3cSetdasa_ft (addr : Nat) (s : State) : KeepsFt s (execI3cSetdasa addr s) := by
  simp [execI3cSetdasa]

@[simp] theorem execI3cEnecDisec_ft (enable : Bool) (s : State) : KeepsFt s (execI3cEnecDisec enable s) := by
  simp [execI3cEnecDisec]

@[simp] theorem State.i3cIndex_ft (s : State) (i : Nat) : (s.i3cIndex i).ft = s.ft := by simp [State.i3cIndex]

@[simp] theorem execI3cPrivateWrite_ft (index : Nat) (s : State) : KeepsFt s (execI3cPrivateWrite index s) := by
  simp [execI3cPrivateWrite]

@[simp] theorem execI3cPrivateRead_ft (len : Nat) (s : State) : KeepsFt s (execI3cPrivateRead len s) := by
  simp [execI3cPrivateRead]

@[simp] theorem execTrayResetWindowExpire_ft (s : State) : KeepsFt s (execTrayResetWindowExpire s) := by
  simp [execTrayResetWindowExpire]

@[simp] theorem State.alertClear_ft (s : State) (v : Word) : (s.alertClear v).ft = s.ft := by
  simp [State.alertClear, foldl_ft]

@[simp] theorem execAlertClear_ft (b : Byte) (s : State) : KeepsFt s (execAlertClear b s) := by simp [execAlertClear]

@[simp] theorem State.alertMask_ft (s : State) (v : Word) : (s.alertMask v).ft = s.ft := by simp [State.alertMask]

@[simp] theorem State.sensed_ft (s : State) (n : Nat) (logic dram : Nat) : (s.sensed n logic dram).ft = s.ft := by
  simp [State.sensed]

@[simp] theorem State.raiseVoltage_ft (s : State) : s.raiseVoltage.ft = s.ft := by simp [State.raiseVoltage]

@[simp] theorem State.thermalStep_ft (s : State) : s.thermalStep.ft = s.ft := by simp [State.thermalStep]

@[simp] theorem execThermalDecision_ft (s : State) : KeepsFt s (execThermalDecision s) := by
  simp [execThermalDecision]

@[simp] theorem State.thermWrite_ft (s : State) (v : Word) : (s.thermWrite v).ft = s.ft := by simp [State.thermWrite]

@[simp] theorem execPwThermWrite_ft (v : Word) (s : State) : KeepsFt s (execPwThermWrite v s) := by
  simp [execPwThermWrite]

@[simp] theorem State.rail_ft (s : State) (r : Nat) (x : Option (Nat × Nat)) : (s.rail r x).ft = s.ft := by
  unfold State.rail
  split <;> simp

@[simp] theorem State.statusWords_ft (s : State) : s.statusWords.ft = s.ft := by
  unfold State.statusWords
  split
  · exact foldl_ft (fun _ _ => by rfl) _ s
  · rfl

@[simp] theorem execPmbusScan_ft (readings : List (Option (Nat × Nat))) (s : State) :
    KeepsFt s (execPmbusScan readings s) := by simp [execPmbusScan, foldl_ft]

@[simp] theorem execVrAlert_ft (low : Bool) (s : State) : KeepsFt s (execVrAlert low s) := by simp [execVrAlert]

@[simp] theorem execAvsNack_ft (resendOk : Bool) (s : State) : KeepsFt s (execAvsNack resendOk s) := by
  simp [execAvsNack]

@[simp] theorem execJtagInstruction_ft (code : Nat) (s : State) : KeepsFt s (execJtagInstruction code s) := by
  simp [execJtagInstruction]

/-! ### Machine/Boundary.lean -/

@[simp] theorem State.upsetPair_ft (s : State) (r : RecRef) (copies : Nat) : (s.upsetPair r copies).ft = s.ft := by
  unfold State.upsetPair
  (repeat' split) <;> simp

@[simp] theorem State.upsetSector_ft (s : State) (a : Nat) (ue : Bool) : (s.upsetSector a ue).ft = s.ft := by
  simp [State.upsetSector]

@[simp] theorem State.upsetScratch_ft (s : State) (c w : Nat) (ue : Bool) : (s.upsetScratch c w ue).ft = s.ft := by
  simp [State.upsetScratch]

@[simp] theorem State.upset_ft (s : State) (u : Upset) : (s.upset u).ft = s.ft := by
  unfold State.upset
  split <;> simp

@[simp] theorem State.slotBoundary_ft (s : State) (n : Nat) : (s.slotBoundary n).ft = s.ft := by
  unfold State.slotBoundary
  split
  · rfl
  extract_lets s₁ s₂
  have h₁ : s₁.ft = s.ft := foldl_ft (fun _ _ => by rfl) _ s
  have h₂ : s₂.ft = s₁.ft := by simp only [s₂]; split <;> simp
  exact h₂.trans h₁

@[simp] theorem State.strideEvent_ft (s : State) : s.strideEvent.ft = s.ft := by simp [State.strideEvent, foldl_ft]

@[simp] theorem State.scrubStores_ft (s : State) : s.scrubStores.ft = s.ft := by simp [State.scrubStores]

@[simp] theorem State.recordsSeen_ft (s : State) : s.recordsSeen.ft = s.ft := by simp [State.recordsSeen, foldl_ft]

@[simp] theorem State.scrubEvent_ft (s : State) (from_ : Nat) : (s.scrubEvent from_).ft = s.ft := by
  simp [State.scrubEvent]

@[simp] theorem State.meterEvent_ft (s : State) : s.meterEvent.ft = s.ft := by
  unfold State.meterEvent
  exact foldl_ft (fun _ _ => by rfl) _ s

@[simp] theorem State.setHoldCount_ft (s : State) (n : Nat) : (s.setHoldCount n).ft = s.ft := by
  simp [State.setHoldCount]

@[simp] theorem State.reportShared_ft (s : State) : s.reportShared.ft = s.ft := by simp [State.reportShared, foldl_ft]

/-! ### Machine/FabricTime.lean -/

@[simp] theorem State.showOffset_ft (s : State) (r : Int) : (s.showOffset r).ft = s.ft := by simp [State.showOffset]

@[simp] theorem State.trimBy_ft (s : State) (e : Int) : (s.trimBy e).ft = s.ft := by simp [State.trimBy]

@[simp] theorem execRefReturn_ft (s : State) : KeepsFt s (execRefReturn s) := by simp [execRefReturn]

@[simp] theorem execUnitGate_ft (u : GateUnit) (s : State) : KeepsFt s (execUnitGate u s) := by simp [execUnitGate]

/-! ### Machine/HostAccess.lean -/

@[simp] theorem State.barRefused_ft (s : State) (fn why : Nat) : (s.barRefused fn why).ft = s.ft := by
  unfold State.barRefused
  extract_lets t
  have ht : t.ft = s.ft := by simp only [t]; split <;> simp
  rw [State.emit_ft, State.count_ft, State.setRegB_ft, ht]

@[simp] theorem State.hostGranule_ft (s : State) (c : Nat) (x : Nat × Nat) : (s.hostGranule c x).1.ft = s.ft := by
  simp only [State.hostGranule]
  (repeat' split) <;> simp

@[simp] theorem State.hostGranule256_ft (s : State) (x : Nat × Nat) : (s.hostGranule256 x).1.ft = s.ft := by
  unfold State.hostGranule256
  extract_lets n c
  rw [foldl_fst_ft]
  · simp
  · intro acc y; simp

@[simp] theorem State.hostBytes_ft (s : State) (a n : Nat) : (s.hostBytes a n).1.ft = s.ft := by
  unfold State.hostBytes
  split
  rename_i s₁ bs heq
  have h₁ : s₁.ft = s.ft := by
    have h := foldl_fst_ft (f := fun (acc : State × List Byte) x =>
      ((acc.1.hostGranule256 x).1, acc.2 ++ (acc.1.hostGranule256 x).2))
      (fun acc x => by simp) (cutsBy 256 a n) (s.opens a n, [])
    simpa [heq] using h
  extract_lets ps ue t
  have ht : t.ft = s₁.ft := foldl_ft (fun t x => by simp) ps s₁
  split <;> exact ht.trans h₁

@[simp] theorem execHostRead_ft (fn off len : Nat) (atomicOp : Bool) (s : State) :
    KeepsFt s (execHostRead fn off len atomicOp s) := by simp [execHostRead]

@[simp] theorem State.hostStore_ft (s : State) (a : Nat) (bs : List Byte) : (s.hostStore a bs).ft = s.ft := by
  simp [State.hostStore]

@[simp] theorem State.hostPut_ft (s : State) (a : Nat) (bs : List Byte) : (s.hostPut a bs).ft = s.ft := by
  simp [State.hostPut, foldl_ft]

@[simp] theorem execHostWrite_ft (fn off : Nat) (data : List Byte) (atomicOp : Bool) (s : State) :
    KeepsFt s (execHostWrite fn off data atomicOp s) := by simp [execHostWrite]

@[simp] theorem State.objChange_ft (s : State) (p i : Nat) (v : BitVec 256) : (s.objChange p i v).ft = s.ft := by
  simp [State.objChange]

@[simp] theorem State.objCommit_ft (s : State) (p i : Nat) (v : BitVec 256) : (s.objCommit p i v).ft = s.ft := by
  simp [State.objCommit]

@[simp] theorem State.objWindow_ft (s : State) (fn off : Nat) (bs : List Byte) : (s.objWindow fn off bs).ft = s.ft := by
  simp [State.objWindow]

@[simp] theorem execObjectWindowWrite_ft (fn off : Nat) (data : List Byte) (s : State) :
    KeepsFt s (execObjectWindowWrite fn off data s) := by simp [execObjectWindowWrite]

@[simp] theorem State.farWrite_ft (s : State) : s.farWrite.ft = s.ft := by simp [State.farWrite]

@[simp] theorem execFarWrite_ft (s : State) : KeepsFt s (execFarWrite s) := by simp [execFarWrite]

@[simp] theorem State.farRead_ft (s : State) : s.farRead.ft = s.ft := by simp [State.farRead]

@[simp] theorem execFarRead_ft (s : State) : KeepsFt s (execFarRead s) := by simp [execFarRead]

/-! ### Machine/Registers.lean -/

@[simp] theorem State.plainWrite_ft (s : State) (fn off : Nat) (v : Word) : (s.plainWrite fn off v).ft = s.ft := by
  unfold State.plainWrite
  split <;> simp

@[simp] theorem State.writeMT_ft (s : State) (off : Nat) (v : Word) : (s.writeMT off v).ft = s.ft := by
  unfold State.writeMT
  (repeat' split) <;> simp

@[simp] theorem State.writeEngines_ft (s : State) (off : Nat) (v : Word) : (s.writeEngines off v).ft = s.ft := by
  simp [State.writeEngines]

@[simp] theorem State.ringSetup_ft (s : State) (fn off : Nat) (v : Word) : (s.ringSetup fn off v).ft = s.ft := by
  simp [State.ringSetup]

@[simp] theorem State.writeCQ_ft (s : State) (fn off : Nat) (v : Word) : (s.writeCQ fn off v).ft = s.ft := by
  simp [State.writeCQ]

@[simp] theorem State.writeRT_ft (s : State) (fn off : Nat) (v : Word) : (s.writeRT fn off v).ft = s.ft := by
  unfold State.writeRT
  (repeat' split) <;> simp

@[simp] theorem State.writeSHP_ft (s : State) (fn off : Nat) (v : Word) : (s.writeSHP fn off v).ft = s.ft := by
  unfold State.writeSHP
  (repeat' split) <;> simp

@[simp] theorem State.writePT_ft (s : State) (fn off : Nat) (v : Word) : (s.writePT fn off v).ft = s.ft := by
  unfold State.writePT
  (repeat' split) <;> simp

@[simp] theorem State.setMpeer_ft (s : State) (v : Word × Word) : (s.setMpeer v).ft = s.ft := by simp [State.setMpeer]

@[simp] theorem State.writeFX_ft (s : State) (fn off : Nat) (v : Word) : (s.writeFX fn off v).ft = s.ft := by
  unfold State.writeFX
  (repeat' split) <;> simp

@[simp] theorem State.bar2Read_ft (s : State) (fn off : Nat) : (s.bar2Read fn off).1.ft = s.ft := by
  unfold State.bar2Read
  (repeat' split) <;> simp

end Sys2Proof.Machine
end

section
/-!
PROOFS. What acts on the fabric-time unit, and fabric time from step to step (R8, R18, R25 to R27).
-/

namespace Sys2Proof.Machine

/-! ### Updates of the fabric-time unit -/

@[simp] theorem State.setNow_now (s : State) (t : Nat) : (s.setNow t).ft.now = BitVec.ofNat 64 t := rfl
@[simp] theorem State.slewOnce_now (s : State) : s.slewOnce.ft.now = s.ft.now := rfl
@[simp] theorem State.endSlew_now (s : State) : s.endSlew.ft.now = s.ft.now := rfl
@[simp] theorem State.ftTakeUp_now (s : State) : s.ftTakeUp.ft.now = s.ft.now := rfl

/-- Milestone and nanosecond make up fabric time (R7). -/
theorem State.ms_ns (s : State) : s.ms * 2048 + s.ns = s.ft.now.toNat := by
  simp only [State.ms, State.ns]
  omega

theorem State.ns_lt (s : State) : s.ns < 2048 := Nat.mod_lt _ (by decide)

@[simp] theorem State.enterAdrift_now (s : State) : s.enterAdrift.ft.now = s.ft.now := by
  simp only [State.enterAdrift]
  split <;> simp

@[simp] theorem State.holdAdrift_now (s : State) : s.holdAdrift.ft.now = s.ft.now := by
  unfold State.holdAdrift
  split <;> simp

@[simp] theorem State.holdEvent_now (s : State) : s.holdEvent.ft.now = s.ft.now := by
  unfold State.holdEvent
  split <;> simp

/-- The events of a boundary (R30) leave the count. -/
@[simp] theorem State.boundaryEvents_now (s : State) (from_ : Nat) : (s.boundaryEvents from_).ft.now = s.ft.now := by
  unfold State.boundaryEvents
  extract_lets s₀ s₁ s₂ s₃ s₄ s₅
  have h₁ : s₁.ft.now = s.ft.now := by simp [s₁, s₀]
  have h₂ : s₂.ft.now = s₁.ft.now := by simp only [s₂]; split <;> simp
  have h₃ : s₃.ft.now = s₂.ft.now := by simp [s₃]
  have h₄ : s₄.ft.now = s₃.ft.now := by simp only [s₄]; split <;> simp
  have h₅ : s₅.ft.now = s₄.ft.now := by simp only [s₅]; split <;> simp
  simp [h₅, h₄, h₃, h₂, h₁]

/-- A jump lands at the time asked for (R25). -/
@[simp] theorem State.jump_now (s : State) (t : Nat) : (s.jump t).ft.now = BitVec.ofNat 64 t := by
  simp only [State.jump]
  split <;> simp

/-- The count reaches the offset asked for, unless it is past it. -/
theorem State.reachNs_now (s : State) {n : Nat} (hn : n < 2048) :
    (s.reachNs n).ft.now.toNat = max s.ft.now.toNat (s.ms * 2048 + n) := by
  have hms := s.ms_ns
  unfold State.reachNs
  split
  · omega
  · have hlt : s.ms * 2048 + n < 2 ^ 64 := by
      have := s.ft.now.isLt
      have := s.ns_lt
      omega
    rw [State.setNow_now, BitVec.toNat_ofNat, Nat.mod_eq_of_lt hlt]
    omega

/-! ### Fabric time from step to step -/

/-- Fabric time is not below what it was, or the fabric-time unit is at its reset. -/
def TimeKept (s t : State) : Prop := s.ft.now.toNat ≤ t.ft.now.toNat ∨ t.ft = Ft.reset

/-- The outcome of a command on a state keeps fabric time. -/
def KeepsTime (s : State) (o : Host.Outcome State Fault Refusal) : Prop := ∀ t, o = .next t → TimeKept s t

theorem keepsTime_next (s t : State) : KeepsTime s (.next t) ↔ TimeKept s t :=
  ⟨fun h => h t rfl, fun h u e => by cases e; exact h⟩

theorem TimeKept.of_now_eq {s t : State} (h : t.ft.now = s.ft.now) : TimeKept s t := .inl (by rw [h])

theorem TimeKept.refl (s : State) : TimeKept s s := .of_now_eq rfl

theorem TimeKept.of_ft_eq {s t : State} (h : t.ft = s.ft) : TimeKept s t := .of_now_eq (by rw [h])

theorem KeepsFt.keepsTime {s : State} {o : Host.Outcome State Fault Refusal} (h : KeepsFt s o) : KeepsTime s o :=
  fun t ht => .of_ft_eq (h t ht)

/-- A power-on reset puts the fabric-time unit at its reset (R421). -/
@[simp] theorem State.powerCycle_ft (s : State) (keep : Bool) (cause : Nat) (good : Bool) :
    (s.powerCycle keep cause good).ft = Ft.reset := rfl

@[simp] theorem State.rebootNow_ft (s : State) (rcv : Bool) : (s.rebootNow rcv).ft = Ft.reset := rfl

/-- A load of FT_SET that is accepted is not below the present time (R27). -/
theorem State.timeSet_timeKept (s : State) (v : Word) : TimeKept s (s.timeSet v) := by
  unfold State.timeSet
  extract_lets t
  split
  · exact .refl s
  split
  case isTrue h =>
    have ht : t < 2 ^ 64 := by
      have := (s.reg 0 Reg.FT_SET_HI).isLt
      have := (s.reg 0 Reg.FT_SET_LO).isLt
      simp only [t]
      omega
    refine .inl ?_
    rw [State.jump_now, BitVec.toNat_ofNat, Nat.mod_eq_of_lt ht]
    exact h.2
  case isFalse => exact .of_ft_eq (s.setRegB_ft ..)

@[simp] theorem State.ftCfgWrite_now (s : State) (v : Word) : (s.ftCfgWrite v).ft.now = s.ft.now := by
  unfold State.ftCfgWrite
  extract_lets old sel t₁ t₂ t₃ ft
  have h₂ : t₂.ft = s.ft := by simp [t₂, t₁]
  have h₃ : t₃.ft = s.ft := by simp only [t₃]; split <;> simp [h₂]
  split <;> simp [ft, h₃]

@[simp] theorem State.srcIdWrite_now (s : State) (v : Word) : (s.srcIdWrite v).ft.now = s.ft.now := by
  simp [State.srcIdWrite]

@[simp] theorem State.nowRead_now (s : State) : s.nowRead.1.ft.now = s.ft.now := rfl

theorem State.writeFT_timeKept (s : State) (off : Nat) (v : Word) : TimeKept s (s.writeFT off v) := by
  unfold State.writeFT
  split
  · exact .of_now_eq (by simp)
  split
  · exact .of_now_eq (by simp)
  split
  · exact .of_ft_eq (by simp)
  split
  · exact .of_ft_eq (by simp)
  split
  · exact s.timeSet_timeKept v
  split
  · exact .of_ft_eq (by simp)
  · exact .of_ft_eq (by simp)

theorem State.lsControl_timeKept (s : State) (v : Word) : TimeKept s (s.lsControl v) := by
  unfold State.lsControl
  split
  case h_6 => exact .inr (by simp)
  case h_7 => split <;> exact .of_ft_eq (by simp)
  all_goals exact .of_ft_eq (by simp)

theorem State.writeLS_timeKept (s : State) (fn off : Nat) (v : Word) : TimeKept s (s.writeLS fn off v) := by
  unfold State.writeLS
  split
  · exact s.lsControl_timeKept v
  · exact .of_ft_eq (by simp)

theorem State.regWrite_timeKept (s : State) (fn off : Nat) (v : Word) : TimeKept s (s.regWrite fn off v) := by
  unfold State.regWrite
  split
  case h_1 => exact s.writeFT_timeKept off v
  case h_14 => exact s.writeLS_timeKept fn off v
  case h_15 => exact s.writeLS_timeKept fn off v
  all_goals exact .of_ft_eq (by simp)

@[simp] theorem State.regRead_now (s : State) (fn off : Nat) : (s.regRead fn off).1.ft.now = s.ft.now := by
  unfold State.regRead
  split
  · simp
  · extract_lets t
    have ht : t.ft = s.ft := by
      simp only [t]
      split
      · split
        · split <;> simp
        · rfl
      · rfl
    split
    · rw [ht]
    · split
      · split <;> simp [ht]
      · rw [ht]

/-! ### Beacons (R24 to R26) -/

/-- A phase correction goes forward to the time asked for, or leaves the count. -/
theorem State.stepPhase_now (s : State) (off : Int) :
    (s.stepPhase off).ft.now = if off < 0 then BitVec.ofNat 64 (s.ft.now.toNat + off.natAbs) else s.ft.now := by
  unfold State.stepPhase
  split
  · simp
  · split <;> simp

/-- A phase correction that lands below the wrap of the count keeps fabric time. -/
theorem State.correct_now_le (s : State) (e : Int) (step : Bool)
    (h : roundAway e 256 < 0 → s.ft.now.toNat + (roundAway e 256).natAbs < 2 ^ 64) :
    s.ft.now.toNat ≤ (s.correct e step).1.ft.now.toNat := by
  unfold State.correct
  extract_lets thresh large r ft slewed s₁
  have hr : r = roundAway e 256 := rfl
  have h₁ : s₁.ft.now = s.ft.now := by simp only [s₁]; split <;> simp
  have hs : slewed.ft.now = s.ft.now := rfl
  split
  · rw [hs]
  split
  · split <;> simp [hs]
  split
  · rw [hs]
  · simp only
    rw [State.stepPhase_now, h₁]
    split
    case isTrue hneg =>
      rw [BitVec.toNat_ofNat, Nat.mod_eq_of_lt (h hneg)]
      omega
    case isFalse => exact le_rfl

@[simp] theorem State.goodBeacon_now (s : State) (e : Int) (stepped : Bool) :
    (s.goodBeacon e stepped).ft.now = s.ft.now := by
  simp only [State.goodBeacon]
  (repeat' split) <;> simp

@[simp] theorem State.takeRef_now (s : State) : s.takeRef.ft.now = s.ft.now := by
  unfold State.takeRef
  split <;> rfl

@[simp] theorem State.candidate_now (s : State) (x : Cand) : (s.candidate x).ft.now = s.ft.now := by
  simp only [State.candidate]
  (repeat' split) <;> rfl

@[simp] theorem State.select_now (s : State) : s.select.ft.now = s.ft.now := by
  simp only [State.select]
  (repeat' split) <;> rfl

/-- Rounding of an offset in units of 1/256 ns (R14). -/
theorem roundAway_256 (e : Int) :
    roundAway e 256 = if 0 ≤ e then (2 * e + 256) / 512 else -((2 * -e + 256) / 512) := rfl

/-- The rounded offset of R14 of a beacon lies within its correction and its delay of the ORIGIN, so a step forward
lands below the wrap. -/
theorem State.offset256_lands (s : State) (port : Nat) (b : List Byte) (hb : bcOrigin b + 2 ^ 40 ≤ 2 ^ 64)
    (h : roundAway (s.offset256 port b) 256 < 0) :
    s.ft.now.toNat + (roundAway (s.offset256 port b) 256).natAbs < 2 ^ 64 := by
  have hd : s.regF 0 (Reg.FT_PORT_DELAY + 4 * port) 0 20 < 2 ^ 20 := getF_lt _ _ _
  have hc : bcCorrection b < 2 ^ 31 := by
    have := BitVec.toInt_lt (x := BitVec.ofNat 32 (beAt b 16 4))
    simpa [bcCorrection] using this
  simp only [roundAway_256, State.offset256] at *
  omega

theorem State.acceptBeacon_now_le (s : State) (port : Nat) (b : List Byte) (hb : bcOrigin b + 2 ^ 40 ≤ 2 ^ 64) :
    s.ft.now.toNat ≤ (s.acceptBeacon port b).ft.now.toNat := by
  unfold State.acceptBeacon
  extract_lets e ft s₁ s₂ s₃ s₄ r
  have h₃ : s₃.ft.now = s.ft.now := by simp [s₃, s₂, s₁, ft]
  have h₄ : s₄.ft.now = s.ft.now := by simp only [s₄]; split <;> simp [h₃]
  rw [State.goodBeacon_now, ← h₄]
  refine s₄.correct_now_le e _ fun h => ?_
  rw [h₄]
  exact s.offset256_lands port b hb h

theorem State.beaconIn_now_le (s : State) (port : Nat) (b : List Byte) (hb : bcOrigin b + 2 ^ 40 ≤ 2 ^ 64) :
    s.ft.now.toNat ≤ (s.beaconIn port b).ft.now.toNat := by
  unfold State.beaconIn
  extract_lets s₁
  have h₁ : s₁.ft.now = s.ft.now := by simp [s₁]
  have ha : s.ft.now.toNat ≤ (s₁.acceptBeacon port b).ft.now.toNat := h₁ ▸ s₁.acceptBeacon_now_le port b hb
  split
  · rw [h₁]
  split
  · exact ha
  · extract_lets d
    split
    · rw [h₁]
    split
    · rw [State.count_ft, h₁]
    · exact ha

end Sys2Proof.Machine

namespace Sys2Proof.Machine

/-! ### Every command keeps fabric time -/

theorem execBeacon_keepsTime (port ns tc : Nat) (gateOk : Bool) (body : List Byte) (s : State)
    (hb : beAt body 8 8 + 2 ^ 40 ≤ 2 ^ 64) : KeepsTime s (execBeacon port ns tc gateOk body s) := by
  rw [execBeacon, keepsTime_next]
  split
  · exact .refl s
  extract_lets s₁
  have h₁ : s.ft.now.toNat ≤ s₁.ft.now.toNat := by
    rw [s.reachNs_now (by omega)]
    exact Nat.le_max_left ..
  refine .inl (h₁.trans ?_)
  split
  · exact le_rfl
  split
  · rw [State.count_ft]
  · exact s₁.beaconIn_now_le port body hb

theorem execStallEnd_keepsTime (s : State) : KeepsTime s (execStallEnd s) := by
  rw [execStallEnd, keepsTime_next]
  split
  · refine .inl ?_
    change _ ≤ (s.reachNs 2047).ft.now.toNat
    rw [s.reachNs_now (by omega)]
    exact Nat.le_max_left ..
  · exact .refl s

theorem execSlew_keepsTime (s : State) : KeepsTime s (execSlew s) := by
  have hns := s.ms_ns
  have hlt := s.ft.now.isLt
  rw [execSlew, keepsTime_next]
  split
  · exact .refl s
  case isFalse hdue =>
    have hle : s.ns ≤ 1024 := by simp_all [State.slewDue]
    extract_lets s₁
    have h₁ : s₁.ft.now.toNat = s.ms * 2048 + 1024 := by
      simp only [s₁]
      split
      · rw [State.setNow_now, BitVec.toNat_ofNat]
        omega
      · omega
    have hms : s₁.ms = s.ms := by
      simp only [State.ms, h₁]
      omega
    refine .inl ?_
    split
    · rw [State.slewOnce_now, h₁]
      omega
    · rw [State.setNow_now, BitVec.toNat_ofNat, hms]
      omega

theorem execMilestoneBoundary_keepsTime (env : Env) (s : State) (hs : s.ft.now.toNat + 2 ^ 40 ≤ 2 ^ 64) :
    KeepsTime s (execMilestoneBoundary env s) := by
  have hns := s.ms_ns
  have hlt := s.ns_lt
  rw [execMilestoneBoundary, keepsTime_next]
  split
  · exact .refl s
  · extract_lets from_ s₁ s₂
    have h₂ : s₂.ft.now = BitVec.ofNat 64 ((s.ms + 1) * 2048) := by simp [s₂, from_]
    refine .inl ?_
    rw [State.boundaryEvents_now, h₂, BitVec.toNat_ofNat]
    omega

theorem idle_keepsTime (s : State) (hs : s.ft.now.toNat + 2 ^ 40 ≤ 2 ^ 64) : KeepsTime s (idle s) := by
  rw [idle, keepsTime_next]
  split
  · exact .refl s
  split
  · split
    · exact .of_now_eq (s.slewOnce_now)
    · refine .inl ?_
      rw [State.setNow_now, BitVec.toNat_ofNat]
      omega
  · refine .inl ?_
    rw [State.setNow_now, BitVec.toNat_ofNat]
    omega

theorem execRegisterWrite_keepsTime (fn off : Nat) (v : Word) (s : State) :
    KeepsTime s (execRegisterWrite fn off v s) := by
  rw [execRegisterWrite, keepsTime_next]
  split
  · exact .refl s
  split
  · exact .of_ft_eq (s.emit_ft _)
  split
  · exact s.regWrite_timeKept fn off v
  · exact .refl s

theorem execCounterRead_keepsTime (fn bar off : Nat) (s : State) : KeepsTime s (execCounterRead fn bar off s) := by
  rw [execCounterRead, keepsTime_next]
  split
  · exact .refl s
  split
  · exact .of_ft_eq (s.emit_ft _)
  extract_lets r
  have hr : r.1.ft.now = s.ft.now := by
    simp only [r]
    split
    · simp
    · split <;> simp
  exact .of_now_eq hr

theorem execFtSetGo_keepsTime (v : Word) (s : State) : KeepsTime s (execFtSetGo v s) := by
  rw [execFtSetGo, keepsTime_next]
  split
  · exact s.timeSet_timeKept v
  · exact .refl s

end Sys2Proof.Machine

/-- The commands that act on the fabric-time unit. -/
def Sys2Proof.Instr.actsOnFt : Sys2Proof.Instr → Bool
  | .beacon .. | .stallEnd | .adriftEnter | .refLoss | .slew | .milestoneBoundary _ | .ftSetGo _ | .ftSrcIdWrite _
  | .ftNowRead | .registerWrite .. | .counterRead .. | .reboot _ | .tftpReboot | .trayResetCommand _ | .pwrGoodLow _
  | .thermtrip => true
  | _ => false

namespace Sys2Proof.Machine

/-- Every other command leaves it. -/
theorem exec_keepsFt {c : Instr} (h : c.actsOnFt = false) (s : State) : KeepsFt s (exec c s) := by
  cases c <;> cases h
  all_goals
    dsimp only [exec]
    simp

/-- A reset of the node either happens, and resets the unit, or changes nothing. -/
theorem keepsTime_reset {s t u : State} {p : Prop} [Decidable p] (ht : t.ft = Ft.reset) (hu : u.ft = s.ft) :
    KeepsTime s (.next (if p then t else u)) := by
  rw [keepsTime_next]
  split
  · exact .inr ht
  · exact .of_ft_eq hu

theorem exec_keepsTime (c : Instr) (s : State) (hs : s.ft.now.toNat + 2 ^ 40 ≤ 2 ^ 64)
    (hb : ∀ port ns tc ok body, c = .beacon port ns tc ok body → beAt body 8 8 + 2 ^ 40 ≤ 2 ^ 64) :
    KeepsTime s (exec c s) := by
  cases hc : c.actsOnFt with
  | false => exact (exec_keepsFt hc s).keepsTime
  | true =>
    cases c with
    | beacon port ns tc ok body => exact execBeacon_keepsTime port ns tc ok body s (hb _ _ _ _ _ rfl)
    | stallEnd => exact execStallEnd_keepsTime s
    | slew => exact execSlew_keepsTime s
    | milestoneBoundary env => exact execMilestoneBoundary_keepsTime env s hs
    | ftSetGo v => exact execFtSetGo_keepsTime v s
    | registerWrite fn off v => exact execRegisterWrite_keepsTime fn off v s
    | counterRead fn bar off => exact execCounterRead_keepsTime fn bar off s
    | adriftEnter => exact (keepsTime_next ..).2 (.of_now_eq s.holdAdrift_now)
    | refLoss =>
      refine (keepsTime_next ..).2 (.of_now_eq ?_)
      split <;> simp
    | ftSrcIdWrite v =>
      refine (keepsTime_next ..).2 (.of_now_eq ?_)
      split <;> simp
    | ftNowRead =>
      refine (keepsTime_next ..).2 (.of_now_eq ?_)
      split <;> simp
    | reboot rcv => exact keepsTime_reset (s.rebootNow_ft rcv) rfl
    | tftpReboot => exact keepsTime_reset (s.rebootNow_ft false) rfl
    | pwrGoodLow ns => exact keepsTime_reset (s.powerCycle_ft false 0 false) rfl
    | thermtrip => exact keepsTime_reset rfl rfl
    | trayResetCommand b =>
      refine (keepsTime_next ..).2 ?_
      split
      · exact .refl s
      split
      · exact .inr (s.powerCycle_ft true 3 true)
      · exact .of_ft_eq rfl
    | _ => cases hc

/-- Settles O10: with no command waiting the pilot counts on, and every command keeps fabric time. -/
theorem fabricTimeNeverDecreases : Obligations.FabricTimeNeverDecreases := by
  intro s t hs hb h
  unfold step at h
  split at h
  · exact idle_keepsTime s hs t h
  case h_2 c rest hp =>
    exact exec_keepsTime c { s with pending := rest } hs
      (fun port ns tc ok body hc => hb port ns tc ok body rest (hc ▸ hp)) t h

end Sys2Proof.Machine
end

section
/-!
PROOFS. Fabric time between commands (R7, R18), and the checks of a beacon (R11, R28).
-/

namespace Sys2Proof.Machine

/-! ### The pilot counts -/

/-- Settles O5: at a nanosecond that is neither the last one nor the one of the slew, `idle` counts one on. -/
theorem pilotCountsFabricTime : Obligations.PilotCountsFabricTime := by
  constructor
  · intro s hp hg h2047 h1024
    have hone : BitVec.ofNat 64 (s.ft.now.toNat + 1) = s.ft.now + 1 := by
      apply BitVec.eq_of_toNat_eq
      simp [BitVec.toNat_add]
    simp [step, hp, idle, hg, h2047, h1024, State.setNow, hone]
  · intro s hp hg
    simp [step, hp, idle, hg]

/-! ### A slew -/

/-- Fabric time at offset `n` of the present milestone. -/
theorem State.now_eq_of_ns {s : State} {n : Nat} (h : s.ns = n) : s.ft.now = BitVec.ofNat 64 (s.ms * 2048 + n) := by
  rw [← h, State.ms_ns, BitVec.ofNat_toNat, BitVec.setWidth_eq]

@[simp] theorem State.setNow_slew (s : State) (t : Nat) : (s.setNow t).ft.slew = s.ft.slew := rfl

/-- Setting fabric time to the value it has changes nothing. -/
theorem State.setNow_self {s : State} {t : Nat} (h : s.ft.now = BitVec.ofNat 64 t) : s.setNow t = s := by
  rw [State.setNow, ← h]

/-- The milestone of a time set within the present milestone. -/
theorem State.ms_setNow (s : State) {n : Nat} (h : n < 2048) : (s.setNow (s.ms * 2048 + n)).ms = s.ms := by
  have hms := s.ms_ns
  have hlt := s.ft.now.isLt
  have hns := s.ns_lt
  have hsmall : s.ms * 2048 + n < 2 ^ 64 := by omega
  rw [State.ms, State.setNow_now, BitVec.toNat_ofNat, Nat.mod_eq_of_lt hsmall]
  omega

theorem State.slewDue_iff (s : State) :
    s.slewDue = true ↔ s.ft.slew ≠ 0 ∧ s.ft.slewedAt ≠ some s.ms ∧ s.ns ≤ 1024 := by
  simp [State.slewDue, and_assoc]

/-- A slew that is due first reaches offset 1,024. -/
theorem execSlew_of_due {s : State} (hg : s.pwrGood = true) (hdue : s.slewDue = true) :
    execSlew s = .next (if s.ft.slew < 0 then (s.setNow (s.ms * 2048 + 1024)).slewOnce
      else (s.setNow (s.ms * 2048 + 1024)).slewOnce.setNow (s.ms * 2048 + 1025)) := by
  obtain ⟨-, -, hns⟩ := s.slewDue_iff.1 hdue
  have hreach : (if s.ns < 1024 then s.setNow (s.ms * 2048 + 1024) else s) = s.setNow (s.ms * 2048 + 1024) := by
    split
    · rfl
    · exact (State.setNow_self (State.now_eq_of_ns (by omega))).symm
  have hms : (s.setNow (s.ms * 2048 + 1024)).ms = s.ms := s.ms_setNow (by decide)
  rw [execSlew, if_neg (by simp [hg, hdue])]
  simp only [hreach, hms, State.setNow_slew]

/-- Settles O6: a slew that is due reaches offset 1,024 and acts once; one that is not due does nothing. -/
theorem slewRepeatsOrOmitsOneCount : Obligations.SlewRepeatsOrOmitsOneCount := by
  have hms (s : State) : (s.setNow (s.ms * 2048 + 1024)).ms = s.ms := s.ms_setNow (by decide)
  refine ⟨fun s hg hat hns hneg => ?_, fun s hg hat hns hpos => ?_, fun s hnone => ?_⟩
  · have hdue : s.slewDue = true := s.slewDue_iff.2 ⟨by omega, hat, hns⟩
    refine (execSlew_of_due hg hdue).trans ?_
    rw [if_pos hneg, State.slewOnce, hms]
    simp [State.setNow, hneg]
  · have hdue : s.slewDue = true := s.slewDue_iff.2 ⟨by omega, hat, hns⟩
    have hneg : ¬ s.ft.slew < 0 := by omega
    refine (execSlew_of_due hg hdue).trans ?_
    rw [if_neg hneg, State.slewOnce, hms]
    simp [State.setNow, hneg]
  · have hdue : s.slewDue = false := by
      rw [Bool.eq_false_iff, Ne, s.slewDue_iff]
      rintro ⟨hslew, hat, -⟩
      exact hnone.elim hslew hat
    change execSlew s = _
    simp [execSlew, hdue]

/-! ### A beacon that is not taken -/

/-- A beacon that arrives at the present nanosecond or before it leaves the count. -/
theorem State.reachNs_of_le {s : State} {n : Nat} (h : n ≤ s.ns) : s.reachNs n = s := by
  rw [State.reachNs, if_pos h]

/-- What a beacon does that arrives at the present nanosecond or before it. -/
theorem execBeacon_of_le {s : State} {port ns tc : Nat} {gateOk : Bool} {body : List Byte} (h : ns ≤ s.ns) :
    execBeacon port ns tc gateOk body s =
      .next (if !s.pwrGood ∨ 8 ≤ port then s
        else if s.regB 0 Reg.FT_CFG 0 ∨ !s.regB 0 (Reg.RT_PORT_CFG + 4 * port) 28 then s
        else if tc ≠ 0 ∨ !gateOk ∨ !s.bcValid body then s.count 0 Reg.FT_BCN_DISC 1
        else s.beaconIn port body) := by
  have hmin : min ns 2047 ≤ s.ns := (Nat.min_le_left ..).trans h
  simp only [execBeacon, State.reachNs_of_le hmin]

theorem State.bcValid_iff (s : State) (b : List Byte) :
    s.bcValid b = true ↔ beAt b 0 1 = 1 ∧ beAt b 1 1 = s.regF 0 Reg.FT_CFG 24 8 ∧ beAt b 8 8 % 32768 = 0 := by
  simp [State.bcValid, bcDomain, bcOrigin, and_assoc]

/-- Settles O7: the checks of R11 in the order of `execBeacon`. -/
theorem beaconChecksCount : Obligations.BeaconChecksCount := by
  constructor
  · intro s port ns tc gateOk body hg hport hns hfree hen hbad
    have hfail : tc ≠ 0 ∨ !gateOk ∨ !s.bcValid body := by
      simp only [Bool.not_eq_true', ← Bool.not_eq_true, s.bcValid_iff] at hbad ⊢
      tauto
    refine (execBeacon_of_le hns).trans ?_
    rw [if_neg (by simp [hg, hport]), if_neg (by simp [hfree, hen]), if_pos hfail]
    rfl
  · intro s port ns tc gateOk body hns hfree
    refine (execBeacon_of_le hns).trans ?_
    simp [hfree]

end Sys2Proof.Machine
end

section
/-!
PROOFS. The registers that set and read fabric time (R13, R27, R39).
-/

namespace Sys2Proof.Machine

/-- The time that FT_SET_HI and FT_SET_LO hold. -/
theorem State.ftSet_lt (s : State) :
    (s.reg 0 Reg.FT_SET_HI).toNat * 2 ^ 32 + (s.reg 0 Reg.FT_SET_LO).toNat < 2 ^ 64 := by
  have := (s.reg 0 Reg.FT_SET_HI).isLt
  have := (s.reg 0 Reg.FT_SET_LO).isLt
  omega

/-- Time can be set in BOOT, RECOVERY and STANDBY, and in free running (R27). -/
def State.maySetTime (s : State) : Prop :=
  s.life = .boot ∨ s.life = .recovery ∨ s.life = .standby ∨ s.regB 0 Reg.FT_CFG 0 = true

theorem State.timeSet_of_not_go (s : State) {v : Word} (h : getB v 0 = false) : s.timeSet v = s := by
  simp [State.timeSet, h]

/-- A load of FT_SET that is accepted. -/
theorem State.timeSet_accepted {s : State} {v : Word} (hgo : getB v 0 = true) (hmay : s.maySetTime)
    (ht : s.ft.now.toNat ≤ (s.reg 0 Reg.FT_SET_HI).toNat * 2 ^ 32 + (s.reg 0 Reg.FT_SET_LO).toNat) :
    s.timeSet v = (s.setRegB 0 Reg.FT_STAT 8 false).jump
      ((s.reg 0 Reg.FT_SET_HI).toNat * 2 ^ 32 + (s.reg 0 Reg.FT_SET_LO).toNat) := by
  rw [State.timeSet, if_neg (by simp [hgo]), if_pos ⟨hmay, ht⟩]

/-- A load of FT_SET that is refused. -/
theorem State.timeSet_refused {s : State} {v : Word} (hgo : getB v 0 = true)
    (h : ¬ s.maySetTime ∨
      (s.reg 0 Reg.FT_SET_HI).toNat * 2 ^ 32 + (s.reg 0 Reg.FT_SET_LO).toNat < s.ft.now.toNat) :
    s.timeSet v = s.setRegB 0 Reg.FT_STAT 7 true := by
  rw [State.timeSet, if_neg (by simp [hgo]), if_neg]
  rintro ⟨hmay, ht⟩
  exact h.elim (fun hn => hn hmay) (fun hlt => absurd ht hlt.not_ge)

theorem execFtSetGo_of_pf0 {s : State} (v : Word) (h : s.pf0 = true) : exec (.ftSetGo v) s = .next (s.timeSet v) := by
  change execFtSetGo v s = _
  rw [execFtSetGo, if_pos h]

/-- Settles O11: the cases of `timeSet`, and the two other registers by their definitions. -/
theorem setTimeRegisters : Obligations.SetTimeRegisters := by
  refine ⟨fun s v hp hgo hmay ht => ?_, fun s v hp hgo hbad => ?_, fun s v hgo => ?_, fun s v hp => ?_, fun s hp => ?_⟩
  · refine ⟨_, execFtSetGo_of_pf0 v hp, ?_⟩
    rw [State.timeSet_accepted hgo (.inr (.inr hmay)) ht, State.jump_now, BitVec.toNat_ofNat,
      Nat.mod_eq_of_lt s.ftSet_lt]
  · rw [execFtSetGo_of_pf0 v hp, State.timeSet_refused hgo]
    refine hbad.imp_left ?_
    rintro ⟨hboot, hrec, hstandby, hfree⟩
    simp [State.maySetTime, hboot, hrec, hstandby, hfree]
  · change execFtSetGo v s = _
    simp [execFtSetGo, State.timeSet_of_not_go s hgo]
  · change execFtSrcIdWrite v s = _
    rw [execFtSrcIdWrite, if_pos hp, State.srcIdWrite]
  · change execFtNowRead s = _
    rw [execFtNowRead, if_pos hp]
    rfl

end Sys2Proof.Machine
end

section
/-!
PROOFS. What the ending of commands and the sending of verdicts leave: the life state, memory, and the registers and the
count from which Adrift and the alerts are read.
-/

namespace Sys2Proof.Machine

/-- What the endings of KINDLEs and the sending of verdicts leave. -/
structure Quiet where
  life : Life
  mem : List Host.Cell
  sharedFaults : Nat
  ftStat : Word
  alertStat : Word

/-- The part of a state that the endings of KINDLEs and the sending of verdicts leave. -/
def State.quiet (s : State) : Quiet :=
  ⟨s.life, s.mem, s.sharedFaults, s.reg 0 Reg.FT_STAT, s.reg 0 Reg.PW_ALERT_STAT⟩

@[simp] theorem ite_quiet (c : Prop) [Decidable c] (s t : State) :
    (if c then s else t).quiet = if c then s.quiet else t.quiet := apply_ite State.quiet c s t

/-! ### The operations of a state -/

/-- A place of the register file that is neither FT_STAT nor PW_ALERT_STAT of PF0. -/
def quietKey (k : Nat) : Bool := k != regKey 0 Reg.FT_STAT && k != regKey 0 Reg.PW_ALERT_STAT

/-- The registers of the VFs. -/
@[simp] theorem quietKey_vfOf (p off : Nat) : quietKey (regKey (vfOf p) off) = true := by
  have hvf : 0x20000 ≤ regKey (vfOf p) off :=
    Nat.le_add_right_of_le (Nat.le_mul_of_pos_left _ (Nat.succ_pos p))
  have hft : regKey (vfOf p) off ≠ regKey 0 Reg.FT_STAT := (Nat.lt_of_lt_of_le (by decide) hvf).ne'
  have halert : regKey (vfOf p) off ≠ regKey 0 Reg.PW_ALERT_STAT := (Nat.lt_of_lt_of_le (by decide) hvf).ne'
  rw [quietKey, Bool.and_eq_true, bne_iff_ne, bne_iff_ne]
  exact ⟨hft, halert⟩

@[simp] theorem State.setReg_quiet (s : State) (fn off : Nat) (v : Word) (h : quietKey (regKey fn off) = true) :
    (s.setReg fn off v).quiet = s.quiet := by
  rw [quietKey, Bool.and_eq_true, bne_iff_ne, bne_iff_ne] at h
  obtain ⟨hft, halert⟩ := h
  change (⟨_, _, _, (s.setReg fn off v).reg 0 Reg.FT_STAT, (s.setReg fn off v).reg 0 Reg.PW_ALERT_STAT⟩ : Quiet) = _
  rw [s.reg_setReg_other v hft.symm, s.reg_setReg_other v halert.symm]
  rfl

@[simp] theorem State.setRegB_quiet (s : State) (fn off i : Nat) (b : Bool) (h : quietKey (regKey fn off) = true) :
    (s.setRegB fn off i b).quiet = s.quiet := s.setReg_quiet fn off _ h

@[simp] theorem State.count_quiet (s : State) (fn off n : Nat) (h : quietKey (regKey fn off) = true) :
    (s.count fn off n).quiet = s.quiet := s.setReg_quiet fn off _ h

@[simp] theorem State.hwm_quiet (s : State) (fn off v : Nat) (h : quietKey (regKey fn off) = true) :
    (s.hwm fn off v).quiet = s.quiet := s.setReg_quiet fn off _ h

@[simp] theorem State.emit_quiet (s : State) (o : Out) : (s.emit o).quiet = s.quiet := rfl
@[simp] theorem State.drawn_quiet (s : State)  : s.drawn.quiet = s.quiet := rfl
@[simp] theorem State.setEcc_quiet (s : State) (k : Nat) (e : Ecc) : (s.setEcc k e).quiet = s.quiet := rfl
@[simp] theorem State.setCmd_quiet (s : State) (id : Nat) (f : Cmd → Cmd) : (s.setCmd id f).quiet = s.quiet := rfl
@[simp] theorem State.setReq_quiet (s : State) (id : Nat) (f : Req → Req) : (s.setReq id f).quiet = s.quiet := rfl
@[simp] theorem State.setMerge_quiet (s : State) (id : Nat) (f : Merge → Merge) :
    (s.setMerge id f).quiet = s.quiet := rfl
@[simp] theorem State.setKindle_quiet (s : State) (id : Nat) (f : Kindle → Kindle) :
    (s.setKindle id f).quiet = s.quiet := rfl
@[simp] theorem State.setConn_quiet (s : State) (i : Nat) (c : Conn) : (s.setConn i c).quiet = s.quiet := rfl
@[simp] theorem State.wake_quiet (s : State) (u : GateUnit) : (s.wake u).quiet = s.quiet := rfl

@[simp] theorem State.served_quiet (s : State) (id : Nat) : (s.served id).quiet = s.quiet := by
  obtain ⟨_, h⟩ := s.served_turns id
  rw [h]
  rfl

@[simp] theorem State.endCmd_quiet (s : State) (id status : Nat) (result : Word) :
    (s.endCmd id status result).quiet = s.quiet := s.served_quiet id

/-- A fold whose every step leaves the part of a state that `g` reads leaves it. -/
theorem foldl_keeps {α β : Type} (g : State → β) {f : State → α → State} (h : ∀ s a, g (f s a) = g s) (l : List α)
    (s : State) : g (l.foldl f s) = g s := by
  induction l generalizing s with
  | nil => rfl
  | cons a l ih => rw [List.foldl_cons, ih, h]

/-! ### Shared operations, verdicts and the endings of KINDLEs, file by file -/

@[simp] theorem State.cplFault_quiet (s : State) (r : RecRef) : (s.cplFault r).quiet = s.quiet := by
  unfold State.cplFault
  extract_lets t
  have ht : t.quiet = s.quiet := by simp (disch := decide) [t]
  split
  · exact ht
  · exact ht

@[simp] theorem State.countEcc_quiet (s : State) (a : Nat) (ue : Bool) : (s.countEcc a ue).quiet = s.quiet := by
  unfold State.countEcc
  (repeat' split) <;> simp (disch := decide)

@[simp] theorem State.wantRemap_quiet (s : State) (r : Nat) : (s.wantRemap r).quiet = s.quiet := by
  unfold State.wantRemap
  split <;> rfl

@[simp] theorem State.noteCorrected_quiet (s : State) (r : Nat) : (s.noteCorrected r).quiet = s.quiet := by
  unfold State.noteCorrected
  extract_lets pass t
  split
  · exact t.wantRemap_quiet r
  · rfl

@[simp] theorem State.meetSector_quiet (s : State) (k : Nat) : (s.meetSector k).quiet = s.quiet := by
  unfold State.meetSector
  split <;> simp

@[simp] theorem State.scanned_quiet (s : State) (a n : Nat) : (s.scanned a n).quiet = s.quiet := by
  simp [State.scanned, foldl_keeps State.quiet]

@[simp] theorem State.activate_quiet (s : State) (r : Nat) : (s.activate r).quiet = s.quiet := by
  unfold State.activate
  extract_lets n t
  split
  · exact State.count_quiet _ _ _ _ (by decide)
  · rfl

@[simp] theorem State.opens_quiet (s : State) (a n : Nat) : (s.opens a n).quiet = s.quiet := by
  simp [State.opens, foldl_keeps State.quiet]

@[simp] theorem State.depthMark_quiet (s : State) (p tc : Nat) : (s.depthMark p tc).quiet = s.quiet :=
  s.hwm_quiet _ _ _ (quietKey_vfOf ..)

@[simp] theorem State.enqueued_quiet (s : State) (i tc : Nat) : (s.enqueued i tc).quiet = s.quiet := by
  rw [State.enqueued, foldl_keeps State.quiet]
  · exact s.depthMark_quiet _ _
  · intro t ex
    split <;> simp

@[simp] theorem State.sendMsg_quiet (s : State) (i op waykey base len : Nat) (ext data : List Byte) (owner : Owner)
    (num : Option Nat) :
    (s.sendMsg i op waykey base len ext data owner num).quiet = s.quiet := by simp [State.sendMsg]

@[simp] theorem State.logViolation_quiet (s : State) (p : Nat) (r : List Byte) : (s.logViolation p r).quiet = s.quiet :=
  (State.setReg_quiet _ _ _ _ (quietKey_vfOf ..)).trans rfl

@[simp] theorem State.refuse_quiet (s : State) (i op tenant psn msg waykey off reason : Nat) :
    (s.refuse i op tenant psn msg waykey off reason).quiet = s.quiet := by simp [State.refuse]

@[simp] theorem State.unitsMark_quiet (s : State) : s.unitsMark.quiet = s.quiet :=
  s.hwm_quiet _ _ _ (by decide)

@[simp] theorem State.dropPlace_quiet (s : State) (conn : Option Nat) (id slot u : Nat) :
    (s.dropPlace conn id slot u).quiet = s.quiet := by
  unfold State.dropPlace
  split <;> rfl

@[simp] theorem State.sendEmber_quiet (s : State) (i off id : Nat) (bs : List Byte) :
    (s.sendEmber i off id bs).quiet = s.quiet := by simp [State.sendEmber]

@[simp] theorem State.setRecv_quiet (s : State) (conn : Option Nat) (id : Nat) (f : Recv → Recv) :
    (s.setRecv conn id f).quiet = s.quiet := rfl

@[simp] theorem State.freeRecv_quiet (s : State) (r : Recv) : (s.freeRecv r).quiet = s.quiet := by
  unfold State.freeRecv
  extract_lets t
  split <;> rfl

@[simp] theorem State.dropRecv_quiet (s : State) (r : Recv) : (s.dropRecv r).quiet = s.quiet := by simp [State.dropRecv]

@[simp] theorem State.mergeOutcome_quiet (s : State) (id n : Nat) : (s.mergeOutcome id n).quiet = s.quiet := by
  simp [State.mergeOutcome]

@[simp] theorem State.headerFault_quiet (s : State) : s.headerFault.quiet = s.quiet := by
  simp (disch := decide) [State.headerFault]

@[simp] theorem State.emberRefused_quiet (s : State) (conn : Option Nat) (tenant : Nat) (h : BitVec 256) :
    (s.emberRefused conn tenant h).quiet = s.quiet := by
  unfold State.emberRefused
  (repeat' split) <;> simp

@[simp] theorem State.recallInput_quiet (s : State) (r : Recv) : (s.recallInput r).quiet = s.quiet := by
  unfold State.recallInput
  split <;> simp

@[simp] theorem State.verdictLate_quiet (s : State) (r : Recv) : (s.verdictLate r).quiet = s.quiet := by
  simp (disch := decide) [State.verdictLate]

@[simp] theorem State.headerLost_quiet (s : State) (r : Recv) : (s.headerLost r).quiet = s.quiet := by
  unfold State.headerLost
  split <;> simp

@[simp] theorem State.verdictIn_quiet (s : State) (conn : Option Nat) (tenant : Nat) (hdr cmp : BitVec 256) :
    (s.verdictIn conn tenant hdr cmp).quiet = s.quiet := by
  unfold State.verdictIn
  split
  · simp
  split
  · exact s.count_quiet _ _ _ (by decide)
  split
  · simp
  extract_lets v
  split
  · exact (State.unitsMark_quiet _).trans rfl
  split
  · rfl
  split
  · simp
  split
  · exact s.count_quiet _ _ _ (by decide)
  extract_lets t u
  have ht : t.quiet = s.quiet := by
    simp only [t]
    split <;> simp
  have hu : u.quiet = s.quiet := by simp [u, ht]
  (repeat' split) <;> simp [hu]

@[simp] theorem State.mergePast_quiet (s : State) (m : Merge) : (s.mergePast m).quiet = s.quiet :=
  foldl_keeps State.quiet (fun t r => t.dropRecv_quiet r) (s.inputsOf m) s

@[simp] theorem State.dropBlks_quiet (s : State) (r : Req) : (s.dropBlks r).quiet = s.quiet := by
  simp [State.dropBlks, foldl_keeps State.quiet]

@[simp] theorem State.sendVerdict_quiet (s : State) (e : Sent) (v reason : Nat) :
    (s.sendVerdict e v reason).quiet = s.quiet := by
  unfold State.sendVerdict
  extract_lets t u
  have ht : t.quiet = s.quiet := rfl
  have hu : u.quiet = s.quiet := by
    refine (State.count_quiet _ _ _ _ ?_).trans ht
    split <;> decide
  split
  · simp [ht]
  · split <;> simp [hu]

@[simp] theorem State.failReq_quiet (s : State) (id order reason : Nat) (spans : Option (List Nat)) :
    (s.failReq id order reason spans).quiet = s.quiet := by simp [State.failReq, foldl_keeps State.quiet]

@[simp] theorem State.dropKindle_quiet (s : State) (id : Nat) : (s.dropKindle id).quiet = s.quiet := by
  unfold State.dropKindle
  extract_lets ids t u
  have ht : t.quiet = s.quiet := foldl_keeps State.quiet State.dropBlks_quiet _ s
  have hu : u.quiet = t.quiet := foldl_keeps State.quiet State.mergePast_quiet _ t
  exact hu.trans ht

@[simp] theorem State.finishKindle_quiet (s : State) (k : Kindle) (status : Nat) (already : Bool)
    (missing : Option Nat) : (s.finishKindle k status already missing).quiet = s.quiet := by
  unfold State.finishKindle
  extract_lets joined t
  have ht : t.quiet = s.quiet := by simp [t]
  refine (foldl_keeps State.quiet (fun u x => ?_) joined t).trans ht
  exact (State.endCmd_quiet _ _ _ _).trans rfl

@[simp] theorem State.imgRead_quiet (s : State) (m : Image) (off n : Nat) : (s.imgRead m off n).1.quiet = s.quiet := by
  simp [State.imgRead]

@[simp] theorem State.normRows_quiet (s : State) (m : Image) (tensor : Nat) (x : List (List Word)) :
    (s.normRows m tensor x).1.quiet = s.quiet := by
  simp only [State.normRows]
  (repeat' split) <;> simp

@[simp] theorem State.embedRows_quiet (s : State) (m : Image) (ts : List Nat) :
    (s.embedRows m ts).1.quiet = s.quiet := by
  induction ts generalizing s with
  | nil => rfl
  | cons t ts ih =>
    simp only [State.embedRows]
    split
    · simp
    · split <;> simp [ih]

@[simp] theorem State.layerStart_quiet (s : State) (m : Image) (k : Kindle) : (s.layerStart m k).1.quiet = s.quiet := by
  simp [State.layerStart]

@[simp] theorem State.beginKindle_quiet (s : State) (k : Kindle) : (s.beginKindle k).1.quiet = s.quiet := by
  simp only [State.beginKindle]
  (repeat' split) <;> simp

@[simp] theorem State.putKindle_quiet (s : State) (k : Kindle) : (s.putKindle k).quiet = s.quiet := by
  simp [State.putKindle]

@[simp] theorem State.nonfinite_quiet (s : State) (status : Nat) : (s.nonfinite status).quiet = s.quiet := by
  unfold State.nonfinite
  split <;> simp (disch := decide)

@[simp] theorem State.startNext_quiet (s : State) (p n : Nat) : (s.startNext p n).quiet = s.quiet := by
  induction n generalizing s with
  | zero => rfl
  | succ n ih =>
    unfold State.startNext
    split
    · rfl
    split
    · rfl
    split
    · simp [ih]
    rename_i k _ m _
    extract_lets k'
    have h := s.beginKindle_quiet k'
    split
    · simp [ih]
    · split <;> simp_all

@[simp] theorem State.endKindles_quiet (s : State) (f : Kindle → Bool) (status : Nat) :
    (s.endKindles f status).quiet = s.quiet := by
  simp only [State.endKindles]
  rw [foldl_keeps State.quiet, foldl_keeps State.quiet]
  · intro t k
    split <;> simp
  · intro t p
    simp

/-! ### The life state, where commands are cut -/

@[simp] theorem ite_life (c : Prop) [Decidable c] (s t : State) :
    (if c then s else t).life = if c then s.life else t.life := apply_ite State.life c s t

@[simp] theorem State.meetSector_life (s : State) (k : Nat) : (s.meetSector k).life = s.life :=
  congrArg Quiet.life (s.meetSector_quiet k)

@[simp] theorem State.opens_life (s : State) (a n : Nat) : (s.opens a n).life = s.life :=
  congrArg Quiet.life (s.opens_quiet a n)

@[simp] theorem State.sendMsg_life (s : State) (i op waykey base len : Nat) (ext data : List Byte) (owner : Owner)
    (num : Option Nat) :
    (s.sendMsg i op waykey base len ext data owner num).life = s.life :=
  congrArg Quiet.life (s.sendMsg_quiet i op waykey base len ext data owner num)

@[simp] theorem State.setRecv_life (s : State) (conn : Option Nat) (id : Nat) (f : Recv → Recv) :
    (s.setRecv conn id f).life = s.life :=
  congrArg Quiet.life (s.setRecv_quiet conn id f)

@[simp] theorem State.dropRecv_life (s : State) (r : Recv) : (s.dropRecv r).life = s.life :=
  congrArg Quiet.life (s.dropRecv_quiet r)

@[simp] theorem State.mergeOutcome_life (s : State) (id n : Nat) : (s.mergeOutcome id n).life = s.life :=
  congrArg Quiet.life (s.mergeOutcome_quiet id n)

@[simp] theorem State.unitsMark_life (s : State) : s.unitsMark.life = s.life :=
  congrArg Quiet.life (s.unitsMark_quiet)

@[simp] theorem State.headerFault_life (s : State) : s.headerFault.life = s.life :=
  congrArg Quiet.life (s.headerFault_quiet)

@[simp] theorem State.emberRefused_life (s : State) (conn : Option Nat) (tenant : Nat) (h : BitVec 256) :
    (s.emberRefused conn tenant h).life = s.life :=
  congrArg Quiet.life (s.emberRefused_quiet conn tenant h)

@[simp] theorem State.mergePast_life (s : State) (m : Merge) : (s.mergePast m).life = s.life :=
  congrArg Quiet.life (s.mergePast_quiet m)

@[simp] theorem State.sendEmber_life (s : State) (i off id : Nat) (bs : List Byte) :
    (s.sendEmber i off id bs).life = s.life :=
  State.sendMsg_life ..

@[simp] theorem State.dropBlks_life (s : State) (r : Req) : (s.dropBlks r).life = s.life :=
  congrArg Quiet.life (s.dropBlks_quiet r)

@[simp] theorem State.failReq_life (s : State) (id order reason : Nat) (spans : Option (List Nat)) :
    (s.failReq id order reason spans).life = s.life :=
  congrArg Quiet.life (s.failReq_quiet id order reason spans)

@[simp] theorem State.endKindles_life (s : State) (f : Kindle → Bool) (status : Nat) :
    (s.endKindles f status).life = s.life :=
  congrArg Quiet.life (s.endKindles_quiet f status)

@[simp] theorem State.msix_life (s : State) (fn v : Nat) : (s.msix fn v).life = s.life := by simp [State.msix]

@[simp] theorem State.alertFrom_life (s : State) (before : Bool) : (s.alertFrom before).life = s.life := by
  simp only [State.alertFrom]
  (repeat' split) <;> simp

@[simp] theorem State.alert_life (s : State) (cause : Nat) : (s.alert cause).life = s.life := by simp [State.alert]

@[simp] theorem State.codedWrite_life (s : State) (part cmd a : Nat) (bs : List Byte) :
    (s.codedWrite part cmd a bs).life = s.life := by simp [State.codedWrite, foldl_keeps State.life]

@[simp] theorem State.remoteRecord_life (s : State) (i gen msg pos status eng flags part result tag detail : Nat)
    (cmd : Nat) :
    (s.remoteRecord i gen msg pos status eng flags part result tag detail cmd).life = s.life := by
  simp [State.remoteRecord]

@[simp] theorem State.endAppend_life (s : State) (c : Cmd) (status : Nat) (replay held : Bool) :
    (s.endAppend c status replay held).life = s.life := by simp [State.endAppend]

@[simp] theorem State.endHaul_life (s : State) (h : Haul) (status : Nat) : (s.endHaul h status).life = s.life := by
  simp [State.endHaul]

@[simp] theorem State.mergeCounted_life (s : State) (r : Nat × Nat) : (s.mergeCounted r).life = s.life := by
  simp [State.mergeCounted]

@[simp] theorem State.dedup_life (s : State) (m : Merge) (r : Recv) : (s.dedup m r).life = s.life := by
  simp [State.dedup]

@[simp] theorem State.mergeValue_life (s : State) (m : Merge) (b : List Byte) (dist : Nat) :
    (s.mergeValue m b dist).life = s.life := by simp [State.mergeValue]

@[simp] theorem State.accept_life (s : State) (m : Merge) (r : Recv) : (s.accept m r).life = s.life := by
  simp [State.accept]

@[simp] theorem State.offer_life (s : State) (m : Merge) (r : Recv) (dist : Nat) :
    (s.offer m r dist).life = s.life := by
  simp only [State.offer]
  (repeat' split) <;> simp

@[simp] theorem State.sinkHeld_life (s : State) (conn : Option Nat) (units : Nat) :
    (s.sinkHeld conn units).life = s.life := by
  unfold State.sinkHeld
  split <;> simp

@[simp] theorem State.placeEmber_life (s : State) (conn : Option Nat) (hdr : BitVec 256) (body : List Byte)
    (dist : Nat) (r : Recv) :
    (s.placeEmber conn hdr body dist r).life = s.life := by
  simp only [State.placeEmber]
  (repeat' split) <;> simp

@[simp] theorem State.emberIn_life (s : State) (conn : Option Nat) (tenant : Nat) (hdr cmp : BitVec 256)
    (body : List Byte) (dist : Nat) :
    (s.emberIn conn tenant hdr cmp body dist).life = s.life := by
  unfold State.emberIn
  (repeat' split) <;> simp

@[simp] theorem State.endMerge_life (s : State) (m : Merge) (status : Nat) : (s.endMerge m status).life = s.life := by
  simp [State.endMerge]

@[simp] theorem State.sendResult_life (s : State) (m : Merge) (status level first snapshot : Nat) (tail : Bool)
    (hs : List Head) (miss : List (Nat × Nat)) :
    (s.sendResult m status level first snapshot tail hs miss).life = s.life := by
  simp only [State.sendResult]
  (repeat' split) <;> simp

@[simp] theorem State.reportMerge_life (s : State) (m : Merge) (status : Nat) (miss : List (Nat × Nat)) :
    (s.reportMerge m status miss).life = s.life := by simp [State.reportMerge]

@[simp] theorem State.endAttend_life (s : State) (c : Cmd) (status result : Nat) :
    (s.endAttend c status result).life = s.life := by simp [State.endAttend]

@[simp] theorem State.cutCmd_life (s : State) (c : Cmd) (status reason : Nat) :
    (s.cutCmd c status reason).life = s.life := by
  simp only [State.cutCmd]
  (repeat' split) <;> simp

@[simp] theorem State.cutCmds_life (s : State) (f : Cmd → Bool) (status reason : Nat) :
    (s.cutCmds f status reason).life = s.life := by simp [State.cutCmds, foldl_keeps State.life]

@[simp] theorem State.refuseInq_life (s : State) (f : InDesc → Bool) (status : Nat) :
    (s.refuseInq f status).life = s.life := by simp [State.refuseInq, foldl_keeps State.life]

end Sys2Proof.Machine
end

section
/-!
PROOFS. The requests for a life state (R29, R391, R393).
-/

namespace Sys2Proof.Machine

/-! ### A change of the life state -/

/-- An interrupt changes the output alone. -/
theorem State.msix_eq (s : State) (fn v : Nat) : ∃ o, s.msix fn v = { s with out := o } := by
  rw [State.msix]
  split
  · exact ⟨s.out, rfl⟩
  · exact ⟨.msix fn v :: s.out, rfl⟩

/-- A change of the life state raises a vector, and changes the life state and the STANDBY that waits alone. -/
theorem State.setLife_of_ne {s : State} {l : Life} (h : s.life ≠ l) :
    ∃ o, s.setLife l = { s with life := l, standbyWanted := false, out := o } := by
  obtain ⟨o, ho⟩ := State.msix_eq { s with life := l, standbyWanted := false } 0 2
  exact ⟨o, by rw [State.setLife, if_neg h, ho]⟩

@[simp] theorem State.setLife_life (s : State) (l : Life) : (s.setLife l).life = l := by
  by_cases h : s.life = l
  · rw [State.setLife, if_pos h, h]
  · obtain ⟨o, ho⟩ := State.setLife_of_ne h
    rw [ho]

@[simp] theorem State.setLife_mem (s : State) (l : Life) : (s.setLife l).mem = s.mem := by
  by_cases h : s.life = l
  · rw [State.setLife, if_pos h]
  · obtain ⟨o, ho⟩ := State.setLife_of_ne h
    rw [ho]

@[simp] theorem State.setLife_regs (s : State) (l : Life) : (s.setLife l).regs = s.regs := by
  by_cases h : s.life = l
  · rw [State.setLife, if_pos h]
  · obtain ⟨o, ho⟩ := State.setLife_of_ne h
    rw [ho]

theorem State.setLife_standbyWanted {s : State} {l : Life} (h : s.life ≠ l) :
    (s.setLife l).standbyWanted = false := by
  obtain ⟨o, ho⟩ := State.setLife_of_ne h
  rw [ho]

/-- Entry to HELD, from a life state that it is entered from. -/
theorem State.enterHeld_held {s : State} {cause : Nat} (hheld : s.life ≠ .held) (hboot : s.life ≠ .boot)
    (hrec : s.life ≠ .recovery) :
    (s.enterHeld cause).life = .held ∧ (s.enterHeld cause).standbyWanted = false := by
  rw [State.enterHeld, if_neg (by simp [hheld, hboot, hrec])]
  refine ⟨?_, rfl⟩
  simp

/-! ### The requests -/

theorem State.lifeNow_of_not_waiting {s : State} (h : s.standbyWanted = false) : s.lifeNow = s.life := by
  simp [State.lifeNow, h]

/-- Settles O53: each request by its condition in R391, which `lifeNow` reads from the life state where no STANDBY
waits. -/
theorem lifeRequestsFollowTheTable : Obligations.LifeRequestsFollowTheTable := by
  refine ⟨?service, ?serviceBad, ?drain, ?drainBad, ?standby, ?standbyBad, ?enter, ?wait, ?hold, ?holdBad⟩
  case service =>
    intro s hserved hwait hlife hset
    refine ⟨_, congrArg Host.Outcome.next ((if_pos hserved).trans (if_pos ?_)), ?_, ?_, ?_⟩
    · rw [State.lifeNow_of_not_waiting hwait, hset]
      exact ⟨hlife, rfl⟩
    all_goals simp
  case serviceBad =>
    intro s hserved hwait hbad
    refine congrArg Host.Outcome.next ((if_pos hserved).trans (if_neg ?_))
    rw [State.lifeNow_of_not_waiting hwait]
    rintro ⟨hlife, hset⟩
    obtain ⟨hstandby, hdrain⟩ | hunset := hbad
    · exact hlife.elim hstandby hdrain
    · simp [hunset] at hset
  case drain =>
    intro s hserved hwait hlife
    refine ⟨_, congrArg Host.Outcome.next ((if_pos hserved).trans (if_pos ?_)), ?_, ?_, ?_⟩
    · rw [State.lifeNow_of_not_waiting hwait, hlife]
    all_goals simp
  case drainBad =>
    intro s hserved hwait hlife
    refine congrArg Host.Outcome.next ((if_pos hserved).trans (if_neg ?_))
    rwa [State.lifeNow_of_not_waiting hwait]
  case standby =>
    intro s hserved hwait hlife
    refine congrArg Host.Outcome.next ((if_pos hserved).trans (if_pos ?_))
    rwa [State.lifeNow_of_not_waiting hwait]
  case standbyBad =>
    intro s hserved hwait hservice hdrain
    refine congrArg Host.Outcome.next ((if_pos hserved).trans (if_neg ?_))
    rw [State.lifeNow_of_not_waiting hwait]
    exact fun h => h.elim hservice hdrain
  case enter =>
    intro s hwait hlife hcmds hverdicts
    have hdue : s.standbyWanted ∧ s.cmds.isEmpty ∧ !s.sent.any (fun e => e.early && e.verdict.isNone) := by
      refine ⟨hwait, by simp [hcmds], ?_⟩
      simpa [Option.isSome_iff_ne_none] using hverdicts
    refine ⟨_, congrArg Host.Outcome.next (if_pos hdue), ?_, ?_, ?_, ?_⟩
    · simp
    · exact State.setLife_standbyWanted hlife
    all_goals simp
  case wait =>
    intro s hcmds
    refine congrArg Host.Outcome.next (if_neg ?_)
    rintro ⟨-, hempty, -⟩
    exact hcmds (List.isEmpty_iff.1 hempty)
  case hold =>
    intro s hserved hlife
    refine ⟨_, congrArg Host.Outcome.next ((if_pos hserved).trans (if_pos hlife)), ?_⟩
    obtain h | h | h := hlife <;> exact State.enterHeld_held (by simp [h]) (by simp [h]) (by simp [h])
  case holdBad =>
    intro s hserved hstandby hservice hdrain
    refine congrArg Host.Outcome.next ((if_pos hserved).trans (if_neg ?_))
    rintro (h | h | h)
    · exact hstandby h
    · exact hservice h
    · exact hdrain h

end Sys2Proof.Machine
end

section
/-!
PROOFS. An accepted beacon (R11 to R26, R29): what each part of it records, and what it does to fabric time.
-/

namespace Sys2Proof.Machine

/-! ### Candidates and selection -/

/-- A candidate table. -/
def State.withCands (s : State) (cs : List Cand) : State := { s with ft := { s.ft with cands := cs } }

@[simp] theorem State.withCands_reg (s : State) (cs : List Cand) (fn off : Nat) :
    (s.withCands cs).reg fn off = s.reg fn off := rfl

@[simp] theorem State.withCands_regF (s : State) (cs : List Cand) (fn off lo w : Nat) :
    (s.withCands cs).regF fn off lo w = s.regF fn off lo w := rfl

@[simp] theorem State.withCands_ft (s : State) (cs : List Cand) :
    (s.withCands cs).ft = { s.ft with cands := cs } := rfl

@[simp] theorem State.withCands_mem (s : State) (cs : List Cand) : (s.withCands cs).mem = s.mem := rfl

@[simp] theorem State.withCands_slews (s : State) (cs : List Cand) : (s.withCands cs).slews = s.slews := rfl

@[simp] theorem State.withCands_offset256 (s : State) (cs : List Cand) (port : Nat) (b : List Byte) :
    (s.withCands cs).offset256 port b = s.offset256 port b := rfl

theorem State.srcFixed_iff (s : State) : s.srcFixed = true ↔ s.regF 0 Reg.FT_SRC_ID 0 16 ≠ 0xFFFF := by
  simp [State.srcFixed]

/-- While FT_SRC_ID fixes the source, a beacon changes the candidate table alone. -/
theorem State.candidate_of_fixed {s : State} (h : s.srcFixed = true) (x : Cand) :
    ∃ cs, s.candidate x = s.withCands cs := by
  unfold State.candidate
  extract_lets cs
  split
  · exact ⟨_, rfl⟩
  split
  · exact ⟨_, rfl⟩
  split
  · split
    · simp only [h, Bool.true_or, if_true]
      exact ⟨_, rfl⟩
    · exact ⟨s.ft.cands, rfl⟩
  · exact ⟨s.ft.cands, rfl⟩

/-- A selection of the source that FT_SRC_ID fixes stands. -/
theorem State.select_of_fixed {s : State} (h : s.srcFixed = true)
    (hsel : s.ft.selected = some (s.regF 0 Reg.FT_SRC_ID 0 16)) : s.select = s := by
  rw [State.select]
  simp only [s.srcFixed_iff.1 h, hsel, ne_eq, not_false_eq_true, if_true]

/-- A beacon has a later SEQ than the last one accepted, or none was accepted before (check 4 of R11). -/
def seqLater (last : Option Nat) (seq : Nat) : Prop :=
  ∀ q, last = some q → 1 ≤ (seq + 2 ^ 32 - q) % 2 ^ 32 ∧ (seq + 2 ^ 32 - q) % 2 ^ 32 ≤ 2 ^ 31

/-- A beacon of the source that FT_SRC_ID fixes, with a later SEQ, is accepted. -/
theorem State.beaconIn_accepted {s : State} {port : Nat} {b : List Byte} (hfix : s.srcFixed = true)
    (hsrc : s.regF 0 Reg.FT_SRC_ID 0 16 = bcSource b) (hsel : s.ft.selected = some (bcSource b))
    (hseq : seqLater s.ft.lastSeq (bcSeq b)) :
    ∃ cs, s.beaconIn port b = (s.withCands cs).acceptBeacon port b := by
  obtain ⟨cs, hcs⟩ := State.candidate_of_fixed hfix ⟨bcSource b, bcPriority b, s.ms⟩
  refine ⟨cs, ?_⟩
  have hselect : (s.withCands cs).select = s.withCands cs :=
    State.select_of_fixed hfix (hsel.trans (congrArg some hsrc.symm))
  rw [State.beaconIn, hcs, hselect]
  simp only [State.withCands_ft, hsel, ne_eq, not_true_eq_false, if_false]
  split
  · rfl
  next q hq =>
    obtain ⟨hpos, hle⟩ := hseq q hq
    rw [if_neg (by omega), if_neg (by omega)]

/-! ### What a beacon records -/

/-- The reference is taken up or not; nothing else changes. -/
theorem State.takeRef_eq (s : State) :
    ∃ held trim, s.takeRef = { s with ft := { s.ft with refHeld := held, actTrim := trim } } := by
  rw [State.takeRef]
  split
  · exact ⟨_, _, rfl⟩
  · exact ⟨s.ft.refHeld, s.ft.actTrim, rfl⟩

@[simp] theorem State.takeRef_regs (s : State) : s.takeRef.regs = s.regs := by
  obtain ⟨held, trim, h⟩ := s.takeRef_eq
  rw [h]

@[simp] theorem State.takeRef_reg (s : State) (fn off : Nat) : s.takeRef.reg fn off = s.reg fn off := by
  rw [State.reg, s.takeRef_regs, State.reg]

/-- FT_OFFSET is written, and a free value may be drawn; nothing else changes (R14). -/
theorem State.showOffset_eq (s : State) (r : Int) :
    ∃ d v, s.showOffset r = ({ s with draws := d } : State).setReg 0 Reg.FT_OFFSET v := by
  rw [State.showOffset]
  split
  · exact ⟨s.draws, _, rfl⟩
  · exact ⟨_, _, rfl⟩

@[simp] theorem State.showOffset_mem (s : State) (r : Int) : (s.showOffset r).mem = s.mem := by
  obtain ⟨d, v, h⟩ := s.showOffset_eq r
  rw [h]
  rfl

@[simp] theorem State.showOffset_life (s : State) (r : Int) : (s.showOffset r).life = s.life := by
  obtain ⟨d, v, h⟩ := s.showOffset_eq r
  rw [h]
  rfl

theorem State.showOffset_reg_other (s : State) (r : Int) {off : Nat} (h : regKey 0 off ≠ regKey 0 Reg.FT_OFFSET) :
    (s.showOffset r).reg 0 off = s.reg 0 off := by
  obtain ⟨d, v, he⟩ := s.showOffset_eq r
  rw [he, State.reg_setReg_other _ v h]
  rfl

theorem State.showOffset_reg_same (s : State) {r : Int} (h : -2147483648 ≤ r ∧ r < 2147483648) :
    (s.showOffset r).reg 0 Reg.FT_OFFSET = wordOfInt r := by
  rw [State.showOffset, if_pos h, State.reg_setReg_same]

theorem State.setHoldCount_reg_other (s : State) (n : Nat) {off : Nat} (hhold : regKey 0 off ≠ regKey 0 Reg.FT_HOLD)
    (hstat : regKey 0 off ≠ regKey 0 Reg.FT_STAT) : (s.setHoldCount n).reg 0 off = s.reg 0 off := by
  rw [State.setHoldCount, State.reg_setRegB_other _ _ _ hstat, State.reg_setReg_other _ _ hhold]

@[simp] theorem State.setHoldCount_mem (s : State) (n : Nat) : (s.setHoldCount n).mem = s.mem := by
  simp [State.setHoldCount]

@[simp] theorem State.setHoldCount_life (s : State) (n : Nat) : (s.setHoldCount n).life = s.life := by
  simp [State.setHoldCount]

/-- The holdover count is read back. -/
theorem State.setHoldCount_reg (s : State) (n : Nat) : (s.setHoldCount n).reg 0 Reg.FT_HOLD = BitVec.ofNat 32 n := by
  rw [State.setHoldCount, State.reg_setRegB_other _ _ _ (by decide), State.reg_setReg_same]

/-- FT_TRIM is written or not; nothing else changes (R17). -/
theorem State.trimBy_reg_other (s : State) (e : Int) {off : Nat} (h : regKey 0 off ≠ regKey 0 Reg.FT_TRIM) :
    (s.trimBy e).reg 0 off = s.reg 0 off := by
  rw [State.trimBy]
  split
  · exact State.reg_setReg_other _ _ h
  · rfl

theorem State.trimBy_reg_same {s : State} (e : Int)
    (h : s.regF 0 Reg.FT_CFG 8 2 = 0 ∨ s.regB 0 Reg.FT_STAT 5 = true) :
    (s.trimBy e).reg 0 Reg.FT_TRIM = wordOfInt (clampInt (-200000) 200000
      ((s.reg 0 Reg.FT_TRIM).toInt - trimStep e (s.regF 0 Reg.FT_CFG 16 4))) := by
  rw [State.trimBy, if_pos h, State.reg_setReg_same]

@[simp] theorem ite_mem (c : Prop) [Decidable c] (s t : State) :
    (if c then s else t).mem = if c then s.mem else t.mem := apply_ite State.mem c s t

@[simp] theorem State.trimBy_mem (s : State) (e : Int) : (s.trimBy e).mem = s.mem := by simp [State.trimBy]

@[simp] theorem State.trimBy_life (s : State) (e : Int) : (s.trimBy e).life = s.life := by simp [State.trimBy]

@[simp] theorem State.takeRef_mem (s : State) : s.takeRef.mem = s.mem := by
  obtain ⟨held, trim, h⟩ := s.takeRef_eq
  rw [h]

@[simp] theorem State.takeRef_life (s : State) : s.takeRef.life = s.life := by
  obtain ⟨held, trim, h⟩ := s.takeRef_eq
  rw [h]

/-- An accepted beacon up to its trim: SEQ, count, offset, holdover, UNSET and reference. -/
def State.noted (s : State) (port : Nat) (b : List Byte) : State :=
  (((({ s with ft := { s.ft with lastSeq := some (bcSeq b) } }.count 0 Reg.FT_BCN_ACC 1).showOffset
    (roundAway (s.offset256 port b) 256)).setHoldCount 0).setRegB 0 Reg.FT_STAT 8 false).takeRef

/-- The end of SLEW_LARGE, for an offset within FT_STEP_THRESH. -/
def State.nearMarked (s : State) (e : Int) : State :=
  if e.natAbs ≤ 256 * s.regF 0 Reg.FT_STEP_THRESH 0 15 then s.setRegB 0 Reg.FT_STAT 4 false else s

/-- An accepted beacon up to its phase correction. -/
def State.recorded (s : State) (port : Nat) (b : List Byte) : State :=
  ((s.noted port b).trimBy (s.offset256 port b)).nearMarked (s.offset256 port b)

theorem State.acceptBeacon_eq (s : State) (port : Nat) (b : List Byte) :
    s.acceptBeacon port b =
      (((s.recorded port b).correct (s.offset256 port b) (bcStep b)).1).goodBeacon (s.offset256 port b)
        ((s.recorded port b).correct (s.offset256 port b) (bcStep b)).2 := rfl

/-! ### The fields and registers after a beacon is noted -/

/-- In the fabric-time unit, only the last SEQ and the reference change. -/
theorem State.noted_ft (s : State) (port : Nat) (b : List Byte) :
    ∃ held trim, (s.noted port b).ft = { s.ft with lastSeq := some (bcSeq b), refHeld := held, actTrim := trim } := by
  obtain ⟨held, trim, h⟩ := State.takeRef_eq
    (((({ s with ft := { s.ft with lastSeq := some (bcSeq b) } }.count 0 Reg.FT_BCN_ACC 1).showOffset
      (roundAway (s.offset256 port b) 256)).setHoldCount 0).setRegB 0 Reg.FT_STAT 8 false)
  refine ⟨held, trim, ?_⟩
  rw [State.noted, h]
  simp

@[simp] theorem State.noted_mem (s : State) (port : Nat) (b : List Byte) : (s.noted port b).mem = s.mem := by
  simp [State.noted]

@[simp] theorem State.noted_life (s : State) (port : Nat) (b : List Byte) : (s.noted port b).life = s.life := by
  simp [State.noted]

theorem State.noted_reg_other (s : State) (port : Nat) (b : List Byte) {off : Nat}
    (hacc : regKey 0 off ≠ regKey 0 Reg.FT_BCN_ACC) (hoffset : regKey 0 off ≠ regKey 0 Reg.FT_OFFSET)
    (hhold : regKey 0 off ≠ regKey 0 Reg.FT_HOLD) (hstat : regKey 0 off ≠ regKey 0 Reg.FT_STAT) :
    (s.noted port b).reg 0 off = s.reg 0 off := by
  rw [State.noted, State.takeRef_reg, State.reg_setRegB_other _ _ _ hstat, State.setHoldCount_reg_other _ _ hhold hstat,
    State.showOffset_reg_other _ _ hoffset, State.reg_count_other _ _ hacc]
  rfl

theorem State.noted_acc (s : State) (port : Nat) (b : List Byte) :
    ((s.noted port b).reg 0 Reg.FT_BCN_ACC).toNat = min 0xFFFFFFFF ((s.reg 0 Reg.FT_BCN_ACC).toNat + 1) := by
  rw [State.noted, State.takeRef_reg, State.reg_setRegB_other _ _ _ (by decide),
    State.setHoldCount_reg_other _ _ (by decide) (by decide), State.showOffset_reg_other _ _ (by decide),
    State.reg_count_same]
  rfl

theorem State.noted_hold (s : State) (port : Nat) (b : List Byte) : (s.noted port b).reg 0 Reg.FT_HOLD = 0#32 := by
  rw [State.noted, State.takeRef_reg, State.reg_setRegB_other _ _ _ (by decide), State.setHoldCount_reg]

theorem State.noted_offset (s : State) (port : Nat) (b : List Byte)
    (h : -2147483648 ≤ roundAway (s.offset256 port b) 256 ∧ roundAway (s.offset256 port b) 256 < 2147483648) :
    (s.noted port b).reg 0 Reg.FT_OFFSET = wordOfInt (roundAway (s.offset256 port b) 256) := by
  rw [State.noted, State.takeRef_reg, State.reg_setRegB_other _ _ _ (by decide),
    State.setHoldCount_reg_other _ _ (by decide) (by decide), State.showOffset_reg_same _ h]

/-- UNSET is 0, and the holdover bit follows the count. -/
theorem State.noted_stat (s : State) (port : Nat) (b : List Byte) :
    (s.noted port b).reg 0 Reg.FT_STAT = setB (setB (s.reg 0 Reg.FT_STAT) 1 false) 8 false := by
  rw [State.noted, State.takeRef_reg, State.reg_setRegB_same, State.setHoldCount, State.reg_setRegB_same,
    State.reg_setReg_other _ _ (by decide), State.showOffset_reg_other _ _ (by decide),
    State.reg_count_other _ _ (by decide)]
  rfl

theorem State.noted_stat_other (s : State) (port : Nat) (b : List Byte) {i : Nat} (h1 : i ≠ 1) (h8 : i ≠ 8) :
    (s.noted port b).regB 0 Reg.FT_STAT i = s.regB 0 Reg.FT_STAT i := by
  rw [State.regB, s.noted_stat, getB_setB_other _ _ h8, getB_setB_other _ _ h1, State.regB]

/-! ### And after its trim and its mark of a small offset -/

theorem State.nearMarked_reg_other (s : State) (e : Int) {off : Nat} (h : regKey 0 off ≠ regKey 0 Reg.FT_STAT) :
    (s.nearMarked e).reg 0 off = s.reg 0 off := by
  rw [State.nearMarked]
  split
  · exact State.reg_setRegB_other _ _ _ h
  · rfl

theorem State.nearMarked_stat (s : State) (e : Int) {i : Nat} (h : i ≠ 4) :
    (s.nearMarked e).regB 0 Reg.FT_STAT i = s.regB 0 Reg.FT_STAT i := by
  rw [State.nearMarked]
  split
  · rw [State.regB, State.reg_setRegB_same, getB_setB_other _ _ h, State.regB]
  · rfl

theorem State.recorded_ft (s : State) (port : Nat) (b : List Byte) :
    ∃ held trim, (s.recorded port b).ft =
      { s.ft with lastSeq := some (bcSeq b), refHeld := held, actTrim := trim } := by
  obtain ⟨held, trim, h⟩ := s.noted_ft port b
  exact ⟨held, trim, by simp [State.recorded, State.nearMarked, h]⟩

@[simp] theorem State.recorded_mem (s : State) (port : Nat) (b : List Byte) : (s.recorded port b).mem = s.mem := by
  simp [State.recorded, State.nearMarked]

@[simp] theorem State.recorded_life (s : State) (port : Nat) (b : List Byte) : (s.recorded port b).life = s.life := by
  simp [State.recorded, State.nearMarked]

/-- The trim and the mark leave the registers but FT_TRIM and FT_STAT. -/
theorem State.recorded_reg_noted (s : State) (port : Nat) (b : List Byte) {off : Nat}
    (htrim : regKey 0 off ≠ regKey 0 Reg.FT_TRIM) (hstat : regKey 0 off ≠ regKey 0 Reg.FT_STAT) :
    (s.recorded port b).reg 0 off = (s.noted port b).reg 0 off := by
  rw [State.recorded, State.nearMarked_reg_other _ _ hstat, State.trimBy_reg_other _ _ htrim]

theorem State.recorded_stat_noted (s : State) (port : Nat) (b : List Byte) {i : Nat} (h : i ≠ 4) :
    (s.recorded port b).regB 0 Reg.FT_STAT i = (s.noted port b).regB 0 Reg.FT_STAT i := by
  rw [State.recorded, State.nearMarked_stat _ _ h, State.regB, State.trimBy_reg_other _ _ (by decide), State.regB]

theorem State.recorded_stepThresh (s : State) (port : Nat) (b : List Byte) :
    (s.recorded port b).regF 0 Reg.FT_STEP_THRESH 0 15 = s.regF 0 Reg.FT_STEP_THRESH 0 15 := by
  rw [State.regF, s.recorded_reg_noted port b (by decide) (by decide),
    s.noted_reg_other port b (by decide) (by decide) (by decide) (by decide), State.regF]

theorem State.recorded_slews (s : State) (port : Nat) (b : List Byte) : (s.recorded port b).slews = s.slews := by
  rw [State.slews, State.serving, State.adrift, s.recorded_life, s.recorded_stat_noted port b (by decide),
    s.noted_stat_other port b (by decide) (by decide), State.slews, State.serving, State.adrift]

theorem State.recorded_trim {s : State} (port : Nat) (b : List Byte)
    (h : s.regF 0 Reg.FT_CFG 8 2 = 0 ∨ s.regB 0 Reg.FT_STAT 5 = true) :
    (s.recorded port b).reg 0 Reg.FT_TRIM = wordOfInt (clampInt (-200000) 200000
      ((s.reg 0 Reg.FT_TRIM).toInt - trimStep (s.offset256 port b) (s.regF 0 Reg.FT_CFG 16 4))) := by
  have hcfg : (s.noted port b).reg 0 Reg.FT_CFG = s.reg 0 Reg.FT_CFG :=
    s.noted_reg_other port b (by decide) (by decide) (by decide) (by decide)
  have htrim : (s.noted port b).reg 0 Reg.FT_TRIM = s.reg 0 Reg.FT_TRIM :=
    s.noted_reg_other port b (by decide) (by decide) (by decide) (by decide)
  have hfree : (s.noted port b).regF 0 Reg.FT_CFG 8 2 = 0 ∨ (s.noted port b).regB 0 Reg.FT_STAT 5 = true := by
    rwa [State.regF, hcfg, s.noted_stat_other port b (by decide) (by decide)]
  rw [State.recorded, State.nearMarked_reg_other _ _ (by decide), State.trimBy_reg_same _ hfree, htrim, State.regF,
    hcfg, State.regF]

/-! ### Its correction -/

/-- A small offset without STEP is slewed in the next milestone. -/
theorem State.correct_small {s : State} {e : Int} (h : e.natAbs ≤ 256 * s.regF 0 Reg.FT_STEP_THRESH 0 15) :
    s.correct e false = ({ s with ft := { s.ft with nextSlew := some (-(roundAway e 256)) } }, false) := by
  rw [State.correct, decide_eq_false (by omega)]
  rfl

/-- A large offset, where it is not slewed, is corrected at once. -/
theorem State.correct_large {s : State} {e : Int} {step : Bool} (hslews : s.slews = false)
    (h : 256 * s.regF 0 Reg.FT_STEP_THRESH 0 15 < e.natAbs) (hr : roundAway e 256 ≠ 0) :
    s.correct e step = (s.stepPhase (roundAway e 256), true) := by
  rw [State.correct, decide_eq_true h]
  simp [hslews, hr]

/-- Good beacons are counted in the fabric-time unit. -/
theorem State.goodBeacon_ft (s : State) (e : Int) (stepped : Bool) :
    ∃ run drift, (s.goodBeacon e stepped).ft = { s.ft with goodRun := run, driftRun := drift } := by
  unfold State.goodBeacon
  extract_lets near run arun ft t u v
  have hu : u.ft = t.ft := by simp only [u]; split <;> simp
  have hv : v.ft = u.ft := by simp only [v]; split <;> simp
  refine ⟨run, arun, ?_⟩
  rw [ite_ft, State.setRegB_ft, ite_self, hv, hu]

@[simp] theorem State.goodBeacon_mem (s : State) (e : Int) (stepped : Bool) :
    (s.goodBeacon e stepped).mem = s.mem := by simp [State.goodBeacon]

theorem ite_setRegB_reg_other (c : Prop) [Decidable c] (s : State) (fn off i : Nat) (b : Bool) {fn' off' : Nat}
    (h : regKey fn' off' ≠ regKey fn off) :
    (if c then s.setRegB fn off i b else s).reg fn' off' = s.reg fn' off' := by
  split
  · exact s.reg_setRegB_other _ _ h
  · rfl

theorem ite_setRegB_regB_other (c : Prop) [Decidable c] (s : State) (fn off i : Nat) (b : Bool) {j : Nat}
    (h : j ≠ i) : (if c then s.setRegB fn off i b else s).regB fn off j = s.regB fn off j := by
  split
  · rw [State.regB, State.reg_setRegB_same, getB_setB_other _ _ h, State.regB]
  · rfl

theorem State.goodBeacon_reg_other (s : State) (e : Int) (stepped : Bool) {off : Nat}
    (h : regKey 0 off ≠ regKey 0 Reg.FT_STAT) : (s.goodBeacon e stepped).reg 0 off = s.reg 0 off := by
  simp only [State.goodBeacon, ite_setRegB_reg_other _ _ _ _ _ _ h]
  rfl

/-- Good beacons are marked in LOCKED and ADRIFT alone. -/
theorem State.goodBeacon_stat (s : State) (e : Int) (stepped : Bool) {i : Nat} (h0 : i ≠ 0) (h2 : i ≠ 2) :
    (s.goodBeacon e stepped).regB 0 Reg.FT_STAT i = s.regB 0 Reg.FT_STAT i := by
  simp only [State.goodBeacon, ite_setRegB_regB_other _ _ _ _ _ _ h0, ite_setRegB_regB_other _ _ _ _ _ _ h2]
  rfl

/-! ### The beacons of the two obligations -/

/-- A valid beacon of the source that FT_SRC_ID fixes, with a later SEQ, is accepted by a node that does not run
free. -/
theorem exec_beacon_accepted {s : State} {port ns : Nat} {body : List Byte} (hg : s.pwrGood = true) (hport : port < 8)
    (hns : ns ≤ s.ns) (hfree : s.regB 0 Reg.FT_CFG 0 = false)
    (hen : s.regB 0 (Reg.RT_PORT_CFG + 4 * port) 28 = true) (hvalid : s.bcValid body = true)
    (hsrc : s.regF 0 Reg.FT_SRC_ID 0 16 = bcSource body) (hfix : bcSource body ≠ 0xFFFF)
    (hsel : s.ft.selected = some (bcSource body)) (hseq : seqLater s.ft.lastSeq (bcSeq body)) :
    ∃ cs, exec (.beacon port ns 0 true body) s =
      .next ((s.withCands cs).acceptBeacon port body) := by
  obtain ⟨cs, hcs⟩ := State.beaconIn_accepted (port := port) (s.srcFixed_iff.2 (hsrc ▸ hfix)) hsrc hsel hseq
  refine ⟨cs, (execBeacon_of_le hns).trans ?_⟩
  rw [if_neg (by simp [hg, hport]), if_neg (by simp [hfree, hen]), if_neg (by simp [hvalid]), hcs]

/-- The offset shown of an offset within FT_STEP_THRESH fits its register. -/
theorem roundAway_fits {e : Int} {thresh : Nat} (hthresh : thresh < 2 ^ 15) (h : e.natAbs ≤ 256 * thresh) :
    -2147483648 ≤ roundAway e 256 ∧ roundAway e 256 < 2147483648 := by
  rw [roundAway_256]
  split <;> omega

/-- Settles O8: a small offset without STEP leaves the phase to the slew of the next milestone. -/
theorem acceptedBeaconDisciplinesTime : Obligations.AcceptedBeaconDisciplinesTime := by
  intro s port ns body hg hport hns hfree hen hver hdom horigin hsrc hfix hsel hseq hstep e he hsmall
  obtain ⟨cs, hcs⟩ := exec_beacon_accepted hg hport hns hfree hen ((s.bcValid_iff body).2 ⟨hver, hdom, horigin⟩) hsrc
    hfix hsel hseq
  have hoff : s.offset256 port body = e := he.symm
  have hthresh : e.natAbs ≤ 256 * ((s.withCands cs).recorded port body).regF 0 Reg.FT_STEP_THRESH 0 15 := by
    rwa [State.recorded_stepThresh, State.withCands_regF]
  rw [State.acceptBeacon_eq, State.withCands_offset256, hoff, hstep, State.correct_small hthresh] at hcs
  generalize hu : (s.withCands cs).recorded port body = u at hcs
  generalize hv : ({ u with ft := { u.ft with nextSlew := some (-(roundAway e 256)) } } : State) = v at hcs
  obtain ⟨held, trim, hrec⟩ := (s.withCands cs).recorded_ft port body
  obtain ⟨run, drift, hgood⟩ := v.goodBeacon_ft e false
  have hft : (v.goodBeacon e false).ft = { s.ft with
      cands := cs, lastSeq := some (bcSeq body), refHeld := held, actTrim := trim,
      nextSlew := some (-(roundAway e 256)), goodRun := run, driftRun := drift } := by
    rw [hgood, ← hv, ← hu, hrec]
    rfl
  have hreg (off : Nat) (hstat : regKey 0 off ≠ regKey 0 Reg.FT_STAT) :
      (v.goodBeacon e false).reg 0 off = ((s.withCands cs).recorded port body).reg 0 off := by
    rw [v.goodBeacon_reg_other e false hstat, ← hv, hu]
    rfl
  have hnoted (off : Nat) (hstat : regKey 0 off ≠ regKey 0 Reg.FT_STAT) (htrim : regKey 0 off ≠ regKey 0 Reg.FT_TRIM) :
      (v.goodBeacon e false).reg 0 off = ((s.withCands cs).noted port body).reg 0 off := by
    rw [hreg off hstat, State.recorded_reg_noted _ _ _ htrim hstat]
  refine ⟨_, hcs, ?seq, ?acc, ?hold, ?unset, ?offset, ?trim, ?nextSlew, ?slew, ?now, ?mem⟩
  case seq => rw [hft]; rfl
  case acc => rw [hnoted _ (by decide) (by decide), State.noted_acc, State.withCands_reg]
  case hold =>
    rw [State.regF, hnoted _ (by decide) (by decide), State.noted_hold]
    decide
  case unset =>
    have hstat : v.regB 0 Reg.FT_STAT 8 = u.regB 0 Reg.FT_STAT 8 := by rw [← hv]; rfl
    rw [v.goodBeacon_stat e false (by decide) (by decide), hstat, ← hu, State.recorded_stat_noted _ _ _ (by decide),
      State.regB, State.noted_stat, getB_setB_same _ _ _ (by decide)]
  case offset =>
    have hfits := roundAway_fits (getF_lt ..) hsmall
    rw [hnoted _ (by decide) (by decide), State.noted_offset, State.withCands_offset256, hoff]
    rwa [State.withCands_offset256, hoff]
  case trim =>
    intro hsel
    have hfree : (s.withCands cs).regF 0 Reg.FT_CFG 8 2 = 0 ∨ (s.withCands cs).regB 0 Reg.FT_STAT 5 = true := hsel
    rw [hreg _ (by decide), State.recorded_trim port body hfree, State.withCands_offset256, hoff]
    rfl
  case nextSlew => rw [hft]
  case slew => rw [hft]
  case now => rw [hft]
  case mem => rw [State.goodBeacon_mem, ← hv, ← hu, State.recorded_mem, State.withCands_mem]

/-! ### A step keeps the last SEQ -/

@[simp] theorem State.setNow_lastSeq (s : State) (t : Nat) : (s.setNow t).ft.lastSeq = s.ft.lastSeq := rfl
@[simp] theorem State.endSlew_lastSeq (s : State) : s.endSlew.ft.lastSeq = s.ft.lastSeq := rfl
@[simp] theorem State.ftTakeUp_lastSeq (s : State) : s.ftTakeUp.ft.lastSeq = s.ft.lastSeq := rfl

@[simp] theorem State.enterAdrift_lastSeq (s : State) : s.enterAdrift.ft.lastSeq = s.ft.lastSeq := by
  simp only [State.enterAdrift]
  split <;> simp

@[simp] theorem State.holdAdrift_lastSeq (s : State) : s.holdAdrift.ft.lastSeq = s.ft.lastSeq := by
  unfold State.holdAdrift
  split <;> simp

@[simp] theorem State.holdEvent_lastSeq (s : State) : s.holdEvent.ft.lastSeq = s.ft.lastSeq := by
  unfold State.holdEvent
  split <;> simp

@[simp] theorem State.boundaryEvents_lastSeq (s : State) (from_ : Nat) :
    (s.boundaryEvents from_).ft.lastSeq = s.ft.lastSeq := by
  unfold State.boundaryEvents
  extract_lets s₀ s₁ s₂ s₃ s₄ s₅
  have h₁ : s₁.ft.lastSeq = s.ft.lastSeq := by simp [s₁, s₀]
  have h₂ : s₂.ft = s₁.ft := by simp only [s₂]; split <;> simp
  have h₃ : s₃.ft = s₂.ft := by simp [s₃]
  have h₄ : s₄.ft = s₃.ft := by simp only [s₄]; split <;> simp
  have h₅ : s₅.ft = s₄.ft := by simp only [s₅]; split <;> simp
  simp [h₅, h₄, h₃, h₂, h₁]

@[simp] theorem State.jump_lastSeq (s : State) (t : Nat) : (s.jump t).ft.lastSeq = s.ft.lastSeq := by
  simp only [State.jump]
  split <;> simp

/-- A phase correction keeps the last SEQ. -/
@[simp] theorem State.stepPhase_lastSeq (s : State) (off : Int) : (s.stepPhase off).ft.lastSeq = s.ft.lastSeq := by
  unfold State.stepPhase
  split
  · simp
  · split <;> rfl

/-- Local time that is ahead stalls. -/
theorem State.stepPhase_ahead {s : State} {off : Int} (h : 0 < off) :
    s.stepPhase off = { s.endSlew with ft := { s.endSlew.ft with stalled := true } } := by
  rw [State.stepPhase, if_neg (by omega), if_pos h]

/-- A large offset is not slewed outside SERVICE and DRAIN, nor while Adrift (R24). -/
theorem State.slews_eq_false {s : State}
    (h : (s.life ≠ .service ∧ s.life ≠ .drain) ∨ s.regB 0 Reg.FT_STAT 2 = true) : s.slews = false := by
  obtain ⟨hservice, hdrain⟩ | hadrift := h
  · simp [State.slews, State.serving, hservice, hdrain]
  · simp [State.slews, State.adrift, hadrift]

/-- Settles O9: a large offset that is not slewed is corrected by a step or a stall of the rounded offset. -/
theorem largeOffsetStepsOrStalls : Obligations.LargeOffsetStepsOrStalls := by
  intro s port ns body hg hport hns hfree hen hver hdom horigin hsrc hfix hsel hnone hlife e he hlarge hmin
  have hseq : seqLater s.ft.lastSeq (bcSeq body) := fun q hq => by simp [hnone] at hq
  obtain ⟨cs, hcs⟩ := exec_beacon_accepted hg hport hns hfree hen ((s.bcValid_iff body).2 ⟨hver, hdom, horigin⟩) hsrc
    hfix hsel hseq
  have hoff : s.offset256 port body = e := he.symm
  have hthresh : 256 * ((s.withCands cs).recorded port body).regF 0 Reg.FT_STEP_THRESH 0 15 < e.natAbs := by
    rwa [State.recorded_stepThresh, State.withCands_regF]
  have hslews : ((s.withCands cs).recorded port body).slews = false := by
    rw [State.recorded_slews, State.withCands_slews, State.slews_eq_false hlife]
  have hneg : e < 0 ↔ roundAway e 256 < 0 := by
    rw [roundAway_256]
    split <;> omega
  have hpos : 0 < e ↔ 0 < roundAway e 256 := by
    rw [roundAway_256]
    split <;> omega
  rw [State.acceptBeacon_eq, State.withCands_offset256, hoff, State.correct_large hslews hthresh (by omega)] at hcs
  generalize hu : (s.withCands cs).recorded port body = u at hcs
  obtain ⟨held, trim, hrec⟩ := (s.withCands cs).recorded_ft port body
  obtain ⟨run, drift, hgood⟩ := (u.stepPhase (roundAway e 256)).goodBeacon_ft e true
  have hnow : u.ft.now = s.ft.now := by rw [← hu, hrec, State.withCands_ft]
  have hseq' : u.ft.lastSeq = some (bcSeq body) := by rw [← hu, hrec]
  have hmem : u.mem = s.mem := by rw [← hu, State.recorded_mem, State.withCands_mem]
  refine ⟨_, hcs, ?_, fun h => ?_, fun h => ?_⟩
  · rw [hgood]
    exact (u.stepPhase_lastSeq _).trans hseq'
  · rw [State.goodBeacon_now, State.stepPhase_now, if_pos (hneg.1 h), hnow]
  · rw [State.goodBeacon_mem, hgood, State.stepPhase_ahead (hpos.1 h)]
    exact ⟨hnow, rfl, rfl, rfl, hmem⟩

end Sys2Proof.Machine
end

section
/-!
PROOFS. The reference, holdover, the end of a stall, gating, and the overrun of a span-job (R15 to R26, R35, R36).
-/

namespace Sys2Proof.Machine

/-! ### An alert -/

/-- The alert pin and its in-band interrupt change the output alone. -/
theorem State.alertFrom_eq (s : State) (before : Bool) : ∃ o, s.alertFrom before = { s with out := o } := by
  simp only [State.alertFrom]
  split
  · split <;> exact ⟨_, rfl⟩
  · exact ⟨s.out, rfl⟩

/-- An alert whose bit is clear sets it, and raises what it raises; nothing else changes (R422). -/
theorem State.alert_of_clear {s : State} {cause : Nat} (h : s.regB 0 Reg.PW_ALERT_STAT cause = false) :
    ∃ o, s.alert cause = { s.setRegB 0 Reg.PW_ALERT_STAT cause true with out := o } := by
  rw [State.alert, if_neg (by simp [h])]
  extract_lets t
  obtain ⟨o, ho⟩ := t.msix_eq 0 0
  have hif : ∃ o, (if t.regB 0 Reg.PW_ALERT_MASK cause = true then t.msix 0 0 else t) = { t with out := o } := by
    split
    · exact ⟨o, ho⟩
    · exact ⟨t.out, rfl⟩
  obtain ⟨o, ho⟩ := hif
  obtain ⟨o', ho'⟩ := State.alertFrom_eq { t with out := o } s.alertLow
  exact ⟨o', by rw [ho, ho']⟩

theorem State.alert_of_set {s : State} {cause : Nat} (h : s.regB 0 Reg.PW_ALERT_STAT cause = true) :
    s.alert cause = s := by
  rw [State.alert, if_pos h]

theorem State.alert_bit (s : State) {cause : Nat} (hc : cause < 32) :
    (s.alert cause).regB 0 Reg.PW_ALERT_STAT cause = true := by
  cases h : s.regB 0 Reg.PW_ALERT_STAT cause with
  | true => rwa [State.alert_of_set h]
  | false =>
    obtain ⟨o, ho⟩ := State.alert_of_clear h
    rw [ho]
    exact s.regB_setRegB_same 0 Reg.PW_ALERT_STAT cause true hc

theorem State.alert_reg_other (s : State) (cause : Nat) {fn off : Nat}
    (h : regKey fn off ≠ regKey 0 Reg.PW_ALERT_STAT) : (s.alert cause).reg fn off = s.reg fn off := by
  cases hb : s.regB 0 Reg.PW_ALERT_STAT cause with
  | true => rw [State.alert_of_set hb]
  | false =>
    obtain ⟨o, ho⟩ := State.alert_of_clear hb
    rw [ho]
    exact s.reg_setRegB_other cause true h

@[simp] theorem State.alert_mem (s : State) (cause : Nat) : (s.alert cause).mem = s.mem := by
  cases hb : s.regB 0 Reg.PW_ALERT_STAT cause with
  | true => rw [State.alert_of_set hb]
  | false =>
    obtain ⟨o, ho⟩ := State.alert_of_clear hb
    rw [ho]
    exact s.setRegB_mem 0 Reg.PW_ALERT_STAT cause true

@[simp] theorem State.alert_sharedFaults (s : State) (cause : Nat) : (s.alert cause).sharedFaults = s.sharedFaults := by
  cases hb : s.regB 0 Reg.PW_ALERT_STAT cause with
  | true => rw [State.alert_of_set hb]
  | false =>
    obtain ⟨o, ho⟩ := State.alert_of_clear hb
    rw [ho]
    exact s.setRegB_sharedFaults 0 Reg.PW_ALERT_STAT cause true

/-! ### Adrift -/

/-- The node as it becomes Adrift, before the alert and the end of its KINDLEs. -/
def State.adriftMarked (s : State) : State :=
  { (s.setRegB 0 Reg.FT_STAT 2 true).setRegB 0 Reg.FT_STAT 0 false with
    ft := { s.ft with goodRun := 0, driftRun := 0 }
    sharedFaults := s.sharedFaults + 1 }

theorem State.enterAdrift_eq {s : State} (hadrift : s.regB 0 Reg.FT_STAT 2 = false)
    (hfree : s.regB 0 Reg.FT_CFG 0 = false) :
    s.enterAdrift = (s.adriftMarked.alert 0).endKindles (fun _ => true) 0x10 := by
  rw [State.enterAdrift, if_neg (by simp [State.adrift, hadrift, hfree])]
  rfl

theorem State.adriftMarked_stat (s : State) :
    s.adriftMarked.reg 0 Reg.FT_STAT = setB (setB (s.reg 0 Reg.FT_STAT) 2 true) 0 false := by
  have h : s.adriftMarked.reg 0 Reg.FT_STAT =
      ((s.setRegB 0 Reg.FT_STAT 2 true).setRegB 0 Reg.FT_STAT 0 false).reg 0 Reg.FT_STAT := rfl
  rw [h, State.reg_setRegB_same, State.reg_setRegB_same]

theorem State.adriftMarked_mem (s : State) : s.adriftMarked.mem = s.mem := by
  simp [State.adriftMarked]

/-- A node that becomes Adrift: ADRIFT, LOCKED, alert cause 0 and the shared fault; memory is left. -/
theorem State.enterAdrift_facts {s : State} (hadrift : s.regB 0 Reg.FT_STAT 2 = false)
    (hfree : s.regB 0 Reg.FT_CFG 0 = false) :
    s.enterAdrift.regB 0 Reg.FT_STAT 2 = true ∧ s.enterAdrift.regB 0 Reg.FT_STAT 0 = false ∧
      s.enterAdrift.regB 0 Reg.PW_ALERT_STAT 0 = true ∧ s.enterAdrift.sharedFaults = s.sharedFaults + 1 ∧
      s.enterAdrift.mem = s.mem := by
  have hquiet : s.enterAdrift.quiet = (s.adriftMarked.alert 0).quiet := by
    rw [State.enterAdrift_eq hadrift hfree, State.endKindles_quiet]
  have hstat : s.enterAdrift.reg 0 Reg.FT_STAT = setB (setB (s.reg 0 Reg.FT_STAT) 2 true) 0 false := by
    rw [← s.adriftMarked_stat, ← s.adriftMarked.alert_reg_other 0 (by decide)]
    exact congrArg Quiet.ftStat hquiet
  have halert : s.enterAdrift.reg 0 Reg.PW_ALERT_STAT = (s.adriftMarked.alert 0).reg 0 Reg.PW_ALERT_STAT :=
    congrArg Quiet.alertStat hquiet
  refine ⟨?_, ?_, ?_, ?_, ?_⟩
  · rw [State.regB, hstat, getB_setB_other _ _ (by decide), getB_setB_same _ _ _ (by decide)]
  · rw [State.regB, hstat, getB_setB_same _ _ _ (by decide)]
  · rw [State.regB, halert]
    exact s.adriftMarked.alert_bit (by decide)
  · exact (congrArg Quiet.sharedFaults hquiet).trans (s.adriftMarked.alert_sharedFaults 0)
  · exact (congrArg Quiet.mem hquiet).trans ((s.adriftMarked.alert_mem 0).trans s.adriftMarked_mem)

/-! ### The end of a stall -/

/-- The count of an offset changes the fabric-time unit alone. -/
theorem State.reachNs_eq (s : State) (n : Nat) : ∃ ft, s.reachNs n = { s with ft := ft } := by
  rw [State.reachNs]
  split
  · exact ⟨s.ft, rfl⟩
  · split <;> exact ⟨_, rfl⟩

/-- The count reaches the last nanosecond of the milestone. -/
theorem State.reachNs_last (s : State) : (s.reachNs 2047).ft.now = BitVec.ofNat 64 (s.ms * 2048 + 2047) := by
  rw [State.reachNs]
  split
  · exact State.now_eq_of_ns (by have := s.ns_lt; omega)
  · exact State.setNow_now ..

/-! ### The commands -/

/-- Settles O12: each command by its own condition. -/
theorem referenceHoldoverAndGating : Obligations.ReferenceHoldoverAndGating := by
  refine ⟨?refLoss, ?refNone, ?refReturn, ?adrift, ?notAdrift, ?stallEnd, ?slice, ?column, ?overrun⟩
  case refLoss => exact fun s h => congrArg Host.Outcome.next (if_neg h)
  case refNone => exact fun s h => congrArg Host.Outcome.next (if_pos h)
  case refReturn => exact fun s => rfl
  case adrift =>
    intro s hhold hadrift hfree
    obtain ⟨hset, hlocked, halert, hfaults, hmem⟩ := State.enterAdrift_facts hadrift hfree
    exact ⟨_, congrArg Host.Outcome.next (if_pos hhold), hset, hlocked, halert, hfaults, s.enterAdrift_now, hmem⟩
  case notAdrift => exact fun s h => congrArg Host.Outcome.next (if_neg h)
  case stallEnd =>
    intro s hstalled
    obtain ⟨ft, hft⟩ := s.reachNs_eq 2047
    refine ⟨_, congrArg Host.Outcome.next (if_pos hstalled), rfl, s.reachNs_last, ?_, ?_⟩
    all_goals simp only [hft]
  case slice =>
    intro s h hg hlt hen hgated hidle
    have hmay : s.mayGate (.slice h) = true := by
      simpa [State.mayGate, hlt, hen] using hidle
    exact congrArg Host.Outcome.next (if_pos ⟨hg, hmay, by simpa using hgated⟩)
  case column =>
    intro s c hg hlt hen hidle hgated
    have hmay : s.mayGate (.column c) = true := by simp [State.mayGate, hlt, hen, hidle]
    exact congrArg Host.Outcome.next (if_pos ⟨hg, hmay, by simpa using hgated⟩)
  case overrun =>
    intro s cmd span r j hr hj hrunning hfirst
    change execSpanJobOverrun cmd span s = _
    simp [execSpanJobOverrun, hr, hj, hrunning, hfirst]

end Sys2Proof.Machine
end

section
/-!
PROOFS. The boundary of a milestone (R7, R26), and the deadline of a seal (R188).
-/

namespace Sys2Proof.Machine

/-! ### What the path of a verdict leaves of the embers sent -/

@[simp] theorem ite_sent (c : Prop) [Decidable c] (s t : State) :
    (if c then s else t).sent = if c then s.sent else t.sent := apply_ite State.sent c s t

@[simp] theorem State.cplFault_sent (s : State) (r : RecRef) : (s.cplFault r).sent = s.sent := by simp [State.cplFault]
@[simp] theorem State.depthMark_sent (s : State) (p tc : Nat) : (s.depthMark p tc).sent = s.sent := by
  simp [State.depthMark]
@[simp] theorem State.enqueued_sent (s : State) (i tc : Nat) : (s.enqueued i tc).sent = s.sent := by
  rw [State.enqueued, foldl_keeps State.sent]
  · exact State.depthMark_sent s _ _
  · intro t ex
    split <;> simp
@[simp] theorem State.sendMsg_sent (s : State) (i op waykey base len : Nat) (ext data : List Byte) (owner : Owner)
    (num : Option Nat) :
    (s.sendMsg i op waykey base len ext data owner num).sent = s.sent := by simp [State.sendMsg]
@[simp] theorem State.logViolation_sent (s : State) (p : Nat) (r : List Byte) : (s.logViolation p r).sent = s.sent := by
  simp [State.logViolation]
@[simp] theorem State.refuse_sent (s : State) (i op tenant psn msg waykey off reason : Nat) :
    (s.refuse i op tenant psn msg waykey off reason).sent = s.sent := by simp [State.refuse]
@[simp] theorem State.unitsMark_sent (s : State) : s.unitsMark.sent = s.sent := by simp [State.unitsMark]
@[simp] theorem State.sendEmber_sent (s : State) (i off id : Nat) (bs : List Byte) :
    (s.sendEmber i off id bs).sent = s.sent := by simp [State.sendEmber]
@[simp] theorem State.setRecv_sent (s : State) (conn : Option Nat) (id : Nat) (f : Recv → Recv) :
    (s.setRecv conn id f).sent = s.sent := by simp [State.setRecv]
@[simp] theorem State.freeRecv_sent (s : State) (r : Recv) : (s.freeRecv r).sent = s.sent := by
  unfold State.freeRecv
  split <;> simp
@[simp] theorem State.mergeOutcome_sent (s : State) (id n : Nat) : (s.mergeOutcome id n).sent = s.sent := by
  simp [State.mergeOutcome]
@[simp] theorem State.headerFault_sent (s : State) : s.headerFault.sent = s.sent := by simp [State.headerFault]
@[simp] theorem State.emberRefused_sent (s : State) (conn : Option Nat) (tenant : Nat) (h : BitVec 256) :
    (s.emberRefused conn tenant h).sent = s.sent := by
  unfold State.emberRefused
  (repeat' split) <;> simp
@[simp] theorem State.recallInput_sent (s : State) (r : Recv) : (s.recallInput r).sent = s.sent := by
  unfold State.recallInput
  split <;> simp
@[simp] theorem State.verdictLate_sent (s : State) (r : Recv) : (s.verdictLate r).sent = s.sent := by
  simp [State.verdictLate]
@[simp] theorem State.headerLost_sent (s : State) (r : Recv) : (s.headerLost r).sent = s.sent := by
  unfold State.headerLost
  split <;> simp
@[simp] theorem State.verdictIn_sent (s : State) (conn : Option Nat) (tenant : Nat) (hdr cmp : BitVec 256) :
    (s.verdictIn conn tenant hdr cmp).sent = s.sent := by
  unfold State.verdictIn
  (repeat' split) <;> simp

/-! ### The verdict of an ember -/

/-- An ember sent, after a verdict on ember `e`. -/
def Sent.judged (e : Sent) (v : Nat) (x : Sent) : Sent :=
  if x.id = e.id ∧ x.req = e.req then { x with verdict := some v } else x

/-- A verdict marks the ember that it is on, and leaves the others. -/
theorem State.sendVerdict_sent (s : State) (e : Sent) (v reason : Nat) :
    (s.sendVerdict e v reason).sent = s.sent.map (e.judged v) := by
  unfold State.sendVerdict
  extract_lets t u
  have ht : t.sent = s.sent.map (e.judged v) := rfl
  have hu : u.sent = s.sent.map (e.judged v) := (t.count_sent ..).trans ht
  split
  · simp [ht]
  · split <;> simp [hu]

/-- Ember `x` is ember `y` with the verdicts that came after. -/
structure Sent.Follows (x y : Sent) : Prop where
  id : x.id = y.id
  req : x.req = y.req
  early : x.early = y.early
  verdict : y.verdict.isSome = true → x.verdict.isSome = true

theorem Sent.Follows.refl (x : Sent) : x.Follows x := ⟨rfl, rfl, rfl, fun h => h⟩

theorem Sent.Follows.trans {x y z : Sent} (h : x.Follows y) (h' : y.Follows z) : x.Follows z :=
  ⟨h.id.trans h'.id, h.req.trans h'.req, h.early.trans h'.early, h.verdict ∘ h'.verdict⟩

theorem Sent.judged_follows (e : Sent) (v : Nat) (x : Sent) : (e.judged v x).Follows x := by
  unfold Sent.judged
  split
  · exact ⟨rfl, rfl, rfl, fun _ => rfl⟩
  · exact .refl x

/-- The ember that a verdict is on has it. -/
theorem Sent.judged_verdict {e x : Sent} (v : Nat) (hid : x.id = e.id) (hreq : x.req = e.req) :
    (e.judged v x).verdict.isSome = true := by
  rw [Sent.judged, if_pos ⟨hid, hreq⟩]
  rfl

/-- Verdicts on a list of embers: an ember that was sent follows, and one that the list names has a verdict. -/
theorem sent_of_foldl_verdict (l : List Sent) (reason : Sent → Nat) (s : State) {x : Sent}
    (hx : x ∈ (l.foldl (fun s e => s.sendVerdict e 2 (reason e)) s).sent) :
    ∃ y ∈ s.sent, x.Follows y ∧ ∀ e ∈ l, y.id = e.id → y.req = e.req → x.verdict.isSome = true := by
  induction l generalizing s with
  | nil => exact ⟨x, hx, .refl x, fun e he => absurd he List.not_mem_nil⟩
  | cons e l ih =>
    obtain ⟨y, hy, hxy, hl⟩ := ih _ hx
    rw [State.sendVerdict_sent] at hy
    obtain ⟨z, hz, rfl⟩ := List.mem_map.1 hy
    have hyz := e.judged_follows 2 z
    refine ⟨z, hz, hxy.trans hyz, fun f hf hid hreq => ?_⟩
    rcases List.mem_cons.1 hf with rfl | hf
    · exact hxy.verdict (Sent.judged_verdict 2 hid hreq)
    · exact hl f hf (hyz.id.trans hid) (hyz.req.trans hreq)

/-- A failed request owes no verdict. -/
theorem State.failReq_verdicts (s : State) (id order reason : Nat) (spans : Option (List Nat)) {x : Sent}
    (hx : x ∈ (s.failReq id order reason spans).sent) (hreq : x.req = id) (hearly : x.early = true) :
    x.verdict.isSome = true := by
  unfold State.failReq at hx
  extract_lets t at hx
  obtain ⟨y, hy, hxy, hl⟩ := sent_of_foldl_verdict _ _ _ hx
  by_cases hv : y.verdict.isSome = true
  · exact hxy.verdict hv
  · refine hl y (List.mem_filter.2 ⟨hy, ?_⟩) rfl rfl
    simp [← hxy.req, ← hxy.early, hreq, hearly, Option.not_isSome_iff_eq_none.1 hv]

theorem State.overdue_iff (s : State) (e : Sent) :
    s.overdue e = true ↔ e.early = true ∧ e.verdict.isNone = true ∧ e.left + 2 ≤ s.ms := by
  simp [State.overdue, and_assoc]

/-- A seal deadline that has passed leaves memory. -/
theorem State.lateSeal_mem (s : State) (e : Sent) : (s.lateSeal e).mem = s.mem := by
  have hquiet : (s.lateSeal e).quiet = s.quiet := by
    unfold State.lateSeal
    split
    · rw [State.failReq_quiet]
      exact foldl_keeps State.quiet (fun t x => by simp (disch := decide)) _ s
    · rfl
  exact congrArg Quiet.mem hquiet

/-- Settles O13: the boundary lands on the next milestone whatever its events do, and a deadline that has passed fails
its request, which then owes no verdict. -/
theorem boundaryBeginsTheNextMilestone : Obligations.BoundaryBeginsTheNextMilestone := by
  refine ⟨fun s env hg hrun => ?_, fun s env hstalled => ?_, fun s i e he hearly => ?_, fun s i e he hpast => ?_⟩
  · refine ⟨_, congrArg Host.Outcome.next (if_neg (by simp [hg, hrun])), ?_⟩
    simp
  · exact congrArg Host.Outcome.next (if_pos (by simp [hstalled]))
  · change execSealDeadline i s = _
    have hno : ¬ s.overdue e = true := fun h => absurd ((s.overdue_iff e).1 h).2.2 (by omega)
    simp [execSealDeadline, he, State.lateSeal, hno]
  · have hfound := List.find?_some he
    have hdue : s.overdue e = true := by
      simp only [Bool.and_eq_true] at hfound
      exact (s.overdue_iff e).2 ⟨hfound.1.2, hfound.2, hpast⟩
    refine ⟨s.lateSeal e, ?_, s.lateSeal_mem e, fun x hx hreq hearly _ => ?_⟩
    · change execSealDeadline i s = _
      simp only [execSealDeadline, he]
    · rw [State.lateSeal, if_pos hdue] at hx
      exact State.failReq_verdicts _ _ _ _ _ hx hreq hearly

end Sys2Proof.Machine
end

section
/-!
PROOFS. Memory. First, what leaves it: one lemma for each function of the model that answers a state and writes no byte,
file by file, tagged for simp. The functions that store stand apart, in the next part.
-/

namespace Sys2Proof.Machine

/-- The outcome of a command on a state leaves memory as it was. -/
def KeepsMem (s : State) (o : Host.Outcome State Fault Refusal) : Prop := ∀ t, o = .next t → t.mem = s.mem

@[simp] theorem keepsMem_next (s t : State) : KeepsMem s (.next t) ↔ t.mem = s.mem :=
  ⟨fun h => h t rfl, fun h u e => by cases e; exact h⟩

/-- A fold that carries more than the state, whose every step leaves memory, leaves it. -/
theorem foldl_fst_mem {α β : Type} {f : State × β → α → State × β} (h : ∀ x a, (f x a).1.mem = x.1.mem) (l : List α)
    (x : State × β) : (l.foldl f x).1.mem = x.1.mem := by
  induction l generalizing x with
  | nil => rfl
  | cons a l ih => rw [List.foldl_cons, ih, h]

/-! ### Machine/Ops.lean -/

@[simp] theorem State.cplFault_mem (s : State) (r : RecRef) : (s.cplFault r).mem = s.mem := by simp [State.cplFault]

@[simp] theorem State.countEcc_mem (s : State) (a : Nat) (ue : Bool) : (s.countEcc a ue).mem = s.mem := by
  simp [State.countEcc]

@[simp] theorem State.wantRemap_mem (s : State) (r : Nat) : (s.wantRemap r).mem = s.mem := by simp [State.wantRemap]

@[simp] theorem State.noteCorrected_mem (s : State) (r : Nat) : (s.noteCorrected r).mem = s.mem := by
  simp [State.noteCorrected]

@[simp] theorem State.meetSector_mem (s : State) (k : Nat) : (s.meetSector k).mem = s.mem := by
  unfold State.meetSector
  split <;> simp

@[simp] theorem State.scanned_mem (s : State) (a n : Nat) : (s.scanned a n).mem = s.mem := by
  simp [State.scanned, foldl_keeps State.mem]

@[simp] theorem State.activate_mem (s : State) (r : Nat) : (s.activate r).mem = s.mem := by simp [State.activate]

@[simp] theorem State.opens_mem (s : State) (a n : Nat) :
    (s.opens a n).mem = s.mem := by
  simp [State.opens, foldl_keeps State.mem]

@[simp] theorem State.scratchRead_mem (s : State) (c lo hi : Nat) : (s.scratchRead c lo hi).mem = s.mem := by
  simp [State.scratchRead, foldl_keeps State.mem]

@[simp] theorem State.scratchWrite_mem (s : State) (c lo hi : Nat) : (s.scratchWrite c lo hi).mem = s.mem := by
  simp [State.scratchWrite]

@[simp] theorem State.setArb_mem (s : State) (c : Nat) (x : Arb) : (s.setArb c x).mem = s.mem := by simp [State.setArb]

@[simp] theorem State.halfFault_mem (s : State) : s.halfFault.mem = s.mem := by simp [State.halfFault]

/-! ### Machine/Flags.lean -/

@[simp] theorem State.msix_mem (s : State) (fn v : Nat) : (s.msix fn v).mem = s.mem := by simp [State.msix]

@[simp] theorem State.cqError_mem (s : State) (part : Nat) (bits : List Nat) : (s.cqError part bits).mem = s.mem := by
  simp [State.cqError]

@[simp] theorem State.alertFrom_mem (s : State) (before : Bool) : (s.alertFrom before).mem = s.mem := by
  simp only [State.alertFrom]
  (repeat' split) <;> simp

@[simp] theorem State.ownerError_mem (s : State) : s.ownerError.mem = s.mem := by simp [State.ownerError]

@[simp] theorem State.unmappedError_mem (s : State) : s.unmappedError.mem = s.mem := by simp [State.unmappedError]

@[simp] theorem State.unserved_mem (s : State) (fn : Nat) : (s.unserved fn).mem = s.mem := by simp [State.unserved]

/-! ### Machine/Operands.lean -/

@[simp] theorem State.ownCheck_mem (s : State) (p a n : Nat) : (s.ownCheck p a n).1.mem = s.mem := by
  unfold State.ownCheck
  (repeat' split) <;> simp

@[simp] theorem State.wakeRange_mem (s : State) (a n : Nat) : (s.wakeRange a n).mem = s.mem := by
  rw [State.wakeRange, foldl_keeps State.mem]; exact fun _ _ => rfl

/-! ### Machine/Queue.lean -/

@[simp] theorem State.depthMark_mem (s : State) (p tc : Nat) : (s.depthMark p tc).mem = s.mem := by
  simp [State.depthMark]

@[simp] theorem State.enqueued_mem (s : State) (i tc : Nat) : (s.enqueued i tc).mem = s.mem := by
  rw [State.enqueued, foldl_keeps State.mem]
  · exact State.hwm_mem s _ _ _
  · intro t ex
    split <;> simp

/-! ### Machine/Send.lean -/

@[simp] theorem State.sendMsg_mem (s : State) (i op waykey base len : Nat) (ext data : List Byte) (owner : Owner)
    (num : Option Nat) :
    (s.sendMsg i op waykey base len ext data owner num).mem = s.mem := by simp [State.sendMsg]

@[simp] theorem State.remoteRecord_mem (s : State) (i gen msg pos status eng flags part result tag detail : Nat)
    (cmd : Nat) :
    (s.remoteRecord i gen msg pos status eng flags part result tag detail cmd).mem = s.mem := by
  simp [State.remoteRecord]

/-! ### Machine/Commands.lean -/

@[simp] theorem State.watchFire_mem (s : State) (p : Nat) : (s.watchFire p).mem = s.mem := by simp [State.watchFire]

@[simp] theorem State.wmIncrease_mem (s : State) (p w n : Nat) (poison : Bool) :
    (s.wmIncrease p w n poison).mem = s.mem := by simp [State.wmIncrease]

@[simp] theorem State.signal_mem (s : State) (p w : Nat) (poison : Bool) : (s.signal p w poison).mem = s.mem := by
  simp [State.signal]

@[simp] theorem State.stopRing_mem (s : State) (p e : Nat) : (s.stopRing p e).mem = s.mem := by simp [State.stopRing]

@[simp] theorem State.ringFault_mem (s : State) (p : Nat) (es bits : List Nat) :
    (s.ringFault p es bits).mem = s.mem := by
  simp [State.ringFault, foldl_keeps State.mem]

@[simp] theorem State.drainRing_mem (s : State) (p e : Nat) : (s.drainRing p e).mem = s.mem := by simp [State.drainRing]

@[simp] theorem State.enterBody_mem (s : State) (id : Nat) : (s.enterBody id).mem = s.mem := by
  unfold State.enterBody
  split <;> simp

@[simp] theorem State.enterWait_mem (s : State) (id : Nat) : (s.enterWait id).mem = s.mem := by
  unfold State.enterWait
  split <;> simp

@[simp] theorem State.abortLinked_mem (s : State) (id : Nat) : (s.abortLinked id).mem = s.mem := by
  unfold State.abortLinked
  split <;> simp

@[simp] theorem State.releaseLinks_mem (s : State) (id : Nat) (failed : Bool) :
    (s.releaseLinks id failed).mem = s.mem := by simp [State.releaseLinks, foldl_keeps State.mem]

@[simp] theorem State.take_mem (s : State) (q : Queue) (eng part msg gen : Nat) (index : BitVec 32) (last : Bool)
    (d : BitVec 512) (payload : List Byte) :
    (s.take q eng part msg gen index last d payload).mem = s.mem := by
  simp only [State.take]
  (repeat' split) <;> simp

@[simp] theorem State.takeHost_mem (s : State) (p e : Nat) (d : BitVec 512) : (s.takeHost p e d).mem = s.mem := by
  simp [State.takeHost]

@[simp] theorem State.takeInbound_mem (s : State) (i e : Nat) : (s.takeInbound i e).mem = s.mem := by
  unfold State.takeInbound
  split <;> simp

@[simp] theorem execDescriptorTake_mem (q : Queue) (desc : BitVec 512) (s : State) :
    KeepsMem s (execDescriptorTake q desc s) := by
  unfold execDescriptorTake
  split <;> simp

@[simp] theorem execDescriptorReadFail_mem (part engine : Nat) (_e : HostErr) (s : State) :
    KeepsMem s (execDescriptorReadFail part engine _e s) := by simp [execDescriptorReadFail]

@[simp] theorem execWaitSatisfied_mem (cmd : Nat) (s : State) : KeepsMem s (execWaitSatisfied cmd s) := by
  unfold execWaitSatisfied
  split <;> simp

@[simp] theorem execWaitTimeout_mem (cmd : Nat) (s : State) : KeepsMem s (execWaitTimeout cmd s) := by
  unfold execWaitTimeout
  split <;> simp

@[simp] theorem execNop_mem (cmd : Nat) (s : State) : KeepsMem s (execNop cmd s) := by
  unfold execNop
  split <;> simp

@[simp] theorem State.flush_mem (s : State) (c : Cmd) : (s.flush c).mem = s.mem := by simp [State.flush]

@[simp] theorem State.fence_mem (s : State) (c : Cmd) : (s.fence c).mem = s.mem := by simp [State.fence]

@[simp] theorem State.countDone_mem (s : State) (c : Cmd) : (s.countDone c).mem = s.mem := by
  unfold State.countDone
  (repeat' split) <;> simp

@[simp] theorem State.dropCmd_mem (s : State) (id : Nat) : (s.dropCmd id).mem = s.mem := by simp [State.dropCmd]

@[simp] theorem State.postedNow_mem (s : State) (id : Nat) : (s.postedNow id).mem = s.mem := by simp [State.postedNow]

@[simp] theorem State.postHost_mem (s : State) (c : Cmd) (p e : Nat) : (s.postHost c p e).mem = s.mem := by
  simp [State.postHost]

@[simp] theorem State.post_mem (s : State) (c : Cmd) (lost : Bool) : (s.post c lost).mem = s.mem := by
  unfold State.post
  split <;> simp

@[simp] theorem State.complete_mem (s : State) (c : Cmd) (lost : Bool) : (s.complete c lost).mem = s.mem := by
  unfold State.complete
  split <;> simp

@[simp] theorem execDescriptorComplete_mem (cmd : Nat) (s : State) : KeepsMem s (execDescriptorComplete cmd s) := by
  unfold execDescriptorComplete
  split <;> simp

@[simp] theorem execCplWriteFail_mem (cmd : Nat) (_e : HostErr) (s : State) :
    KeepsMem s (execCplWriteFail cmd _e s) := by
  unfold execCplWriteFail
  (repeat' split) <;> simp

@[simp] theorem State.badDoorbell_mem (s : State) (p e : Nat) : (s.badDoorbell p e).mem = s.mem := by
  simp [State.badDoorbell]

@[simp] theorem execDoorbellSub_mem (fn engine : Nat) (v : Word) (s : State) :
    KeepsMem s (execDoorbellSub fn engine v s) := by simp [execDoorbellSub]

@[simp] theorem execDoorbellCpl_mem (fn engine : Nat) (v : Word) (s : State) :
    KeepsMem s (execDoorbellCpl fn engine v s) := by simp [execDoorbellCpl]

@[simp] theorem State.ringEnable_mem (s : State) (fn e : Nat) : (s.ringEnable fn e).mem = s.mem := by
  unfold State.ringEnable
  split
  · exact s.unserved_mem fn
  · extract_lets t
    have ht : t.mem = s.mem := s.setReg_mem _ _ _
    split
    · exact (t.setRing_mem (fn - 1) e ⟨.active, 0, 0, 0, 0⟩).trans ht
    · exact ht

@[simp] theorem State.ringDisable_mem (s : State) (fn e : Nat) : (s.ringDisable fn e).mem = s.mem := by
  unfold State.ringDisable
  extract_lets r t
  split
  · exact s.unserved_mem fn
  · have ht : t.mem = s.mem := s.setReg_mem _ _ _
    split
    · rw [State.drainRing_mem, State.setRing_mem, ht]
    · exact ht

@[simp] theorem execRingEnable_mem (fn engine : Nat) (s : State) : KeepsMem s (execRingEnable fn engine s) := by
  simp [execRingEnable]

@[simp] theorem execRingDisable_mem (fn engine : Nat) (s : State) : KeepsMem s (execRingDisable fn engine s) := by
  simp [execRingDisable]

@[simp] theorem State.wmZero_mem (s : State) (fn w : Nat) : (s.wmZero fn w).mem = s.mem := by simp [State.wmZero]

@[simp] theorem State.wmClearPoison_mem (s : State) (fn w : Nat) : (s.wmClearPoison fn w).mem = s.mem := by
  simp [State.wmClearPoison]

@[simp] theorem State.wmAdd_mem (s : State) (fn w : Nat) (v : BitVec 64) : (s.wmAdd fn w v).mem = s.mem := by
  simp [State.wmAdd]

@[simp] theorem State.wmSeen_mem (s : State) (fn w : Nat) : (s.wmSeen fn w).mem = s.mem := by simp [State.wmSeen]

@[simp] theorem execWmZero_mem (fn wm : Nat) (s : State) : KeepsMem s (execWmZero fn wm s) := by simp [execWmZero]

@[simp] theorem execWmClearPoison_mem (fn wm : Nat) (s : State) : KeepsMem s (execWmClearPoison fn wm s) := by
  simp [execWmClearPoison]

@[simp] theorem execWmAdd_mem (fn wm : Nat) (v : BitVec 64) (s : State) : KeepsMem s (execWmAdd fn wm v s) := by
  simp [execWmAdd]

@[simp] theorem execWmValueRead_mem (fn wm : Nat) (wide : Bool) (s : State) :
    KeepsMem s (execWmValueRead fn wm wide s) := by simp [execWmValueRead]

@[simp] theorem State.watchArm_mem (s : State) (fn : Nat) (v : Word) : (s.watchArm fn v).mem = s.mem := by
  simp [State.watchArm]

@[simp] theorem execWatchArm_mem (fn : Nat) (v : Word) (s : State) : KeepsMem s (execWatchArm fn v s) := by
  simp [execWatchArm]

/-! ### Machine/Pages.lean -/

@[simp] theorem State.dirSeen_mem (s : State) (k : DirKey) : (s.dirSeen k).mem = s.mem := by
  unfold State.dirSeen
  (repeat' split) <;> simp

@[simp] theorem State.ownSeen_mem (s : State) (k : DirKey) : (s.ownSeen k).mem = s.mem := by
  unfold State.ownSeen
  (repeat' split) <;> simp

@[simp] theorem State.redirect_mem (s : State) (src dst obj : Nat) : (s.redirect src dst obj).mem = s.mem := by
  simp [State.redirect]

@[simp] theorem State.recordRead_mem (s : State) (p seq span : Nat) : (s.recordRead p seq span).mem = s.mem := by
  unfold State.recordRead
  split <;> simp

@[simp] theorem State.ranked_mem (s : State) (p : Nat) :
    (s.ranked p).mem = s.mem := by
  simp [State.ranked, foldl_keeps State.mem]

@[simp] theorem State.condemn_mem (s : State) (p seq span : Nat) (fg damaged : Bool) :
    (s.condemn p seq span fg damaged).mem = s.mem := by simp [State.condemn]

@[simp] theorem State.dropDamaged_mem (s : State) (p seq span : Nat) : (s.dropDamaged p seq span).mem = s.mem := by
  simp [State.dropDamaged]

@[simp] theorem State.dropFor_mem (s : State) (p q : Nat) (areas : List (Nat × Nat)) :
    (s.dropFor p q areas).state.mem = s.mem := by
  unfold State.dropFor
  split <;> simp [foldl_keeps State.mem]

@[simp] theorem execUnitFree_mem (part seq span : Nat) (s : State) : KeepsMem s (execUnitFree part seq span s) := by
  simp [execUnitFree]

@[simp] theorem execBackgroundDropping_mem (part : Nat) (s : State) : KeepsMem s (execBackgroundDropping part s) := by
  simp [execBackgroundDropping, foldl_keeps State.mem]

/-! ### Machine/Append.lean -/

@[simp] theorem State.readFor_mem (s : State) (a n : Nat) : (s.readFor a n).2.mem = s.mem := by
  unfold State.readFor
  split <;> simp

@[simp] theorem State.endAppend_mem (s : State) (c : Cmd) (status : Nat) (replay held : Bool) :
    (s.endAppend c status replay held).mem = s.mem := by simp [State.endAppend]

@[simp] theorem State.appendHead_mem (s : State) (c : Cmd) : (s.appendHead c).1.mem = s.mem := by
  simp only [State.appendHead]
  (repeat' split) <;> simp

@[simp] theorem State.heatBuilt_mem (s : State) (p seq lo hi : Nat) : (s.heatBuilt p seq lo hi).mem = s.mem := by
  simp [State.heatBuilt, foldl_keeps State.mem]

@[simp] theorem State.forwardAppend_mem (s : State) (c : Cmd) (src : List Byte) :
    (s.forwardAppend c src).mem = s.mem := by
  unfold State.forwardAppend
  (repeat' split) <;> simp

@[simp] theorem execAppendHoldTimeout_mem (cmd : Nat) (s : State) : KeepsMem s (execAppendHoldTimeout cmd s) := by
  unfold execAppendHoldTimeout
  split <;> simp

@[simp] theorem State.endPending_mem (s : State) (k : DirKey) (status : Nat) : (s.endPending k status).mem = s.mem := by
  rw [State.endPending, foldl_keeps State.mem]
  intro t h
  split <;> simp

@[simp] theorem State.openBody_mem (s : State) (c : Cmd) : (s.openBody c).mem = s.mem := by
  simp only [State.openBody]
  (repeat' split) <;> simp

@[simp] theorem execOpenSeq_mem (cmd : Nat) (s : State) : KeepsMem s (execOpenSeq cmd s) := by
  unfold execOpenSeq
  split <;> simp

@[simp] theorem State.freeEntry_mem (s : State) (key : DirKey) : (s.freeEntry key).mem = s.mem := by
  simp [State.freeEntry]

@[simp] theorem execCloseFree_mem (key : DirKey) (s : State) : KeepsMem s (execCloseFree key s) := by
  simp only [execCloseFree]
  (repeat' split) <;> simp

@[simp] theorem execCodedOldSlotFree_mem (page : PageRef) (s : State) : KeepsMem s (execCodedOldSlotFree page s) := by
  simp [execCodedOldSlotFree]

@[simp] theorem State.dirLookup_mem (s : State) : s.dirLookup.mem = s.mem := by simp [State.dirLookup]

@[simp] theorem execDirLookup_mem (s : State) : KeepsMem s (execDirLookup s) := by simp [execDirLookup]

@[simp] theorem State.setWords_mem (s : State) (fn off n : Nat) (v : Nat) : (s.setWords fn off n v).mem = s.mem := by
  simp [State.setWords, foldl_keeps State.mem]

@[simp] theorem execDirLookupDone_mem (s : State) : KeepsMem s (execDirLookupDone s) := by
  simp only [execDirLookupDone]
  (repeat' split) <;> simp

/-! ### Machine/Haul.lean -/

@[simp] theorem State.haulCheck_mem (s : State) (c : Cmd) : (s.haulCheck c).1.mem = s.mem := by
  simp only [State.haulCheck]
  (repeat' split) <;> simp

@[simp] theorem State.endHaul_mem (s : State) (h : Haul) (status : Nat) : (s.endHaul h status).mem = s.mem := by
  simp [State.endHaul]

@[simp] theorem State.haulStep_mem (s : State) (c : Cmd) (h : Haul) (ended : Nat) :
    (s.haulStep c h ended).mem = s.mem := by simp [State.haulStep]

@[simp] theorem execHaulFarError_mem (cmd : Nat) (e : FarErr) (s : State) : KeepsMem s (execHaulFarError cmd e s) := by
  unfold execHaulFarError
  split <;> simp

@[simp] theorem State.haulWritten_mem (s : State) (cmd i msg : Nat) : (s.haulWritten cmd i msg).mem = s.mem := by
  unfold State.haulWritten
  (repeat' split) <;> simp

/-! ### Machine/Flue.lean -/

@[simp] theorem State.rowCheck_mem (s : State) (c : Cmd) : (s.rowCheck c).1.mem = s.mem := by
  unfold State.rowCheck
  extract_lets d n ops crcN crcA r r'
  have hr : r.1.mem = s.mem := foldl_fst_mem (fun x a => by split <;> simp) ops (s, 0)
  have hr' : r'.1.mem = s.mem := by simp only [r']; split <;> simp [hr]
  split
  · rfl
  split
  · simp
  split
  · rfl
  split
  · exact hr'
  (repeat' split) <;> simp

@[simp] theorem execRow_mem (cmd : Nat) (s : State) : KeepsMem s (execRow cmd s) := by
  unfold execRow
  split <;> simp

@[simp] theorem State.stageRows_mem (s : State) (d : BitVec 512) (col : Nat) (rows : List Nat) :
    (s.stageRows d col rows).mem = s.mem := by simp [State.stageRows]

@[simp] theorem State.rowRan_mem (s : State) (col : Nat) : (s.rowRan col).mem = s.mem := by simp [State.rowRan]

@[simp] theorem State.writeBack_mem (s : State) (col k : Nat) : (s.writeBack col k).mem = s.mem := by
  simp [State.writeBack]

@[simp] theorem State.showRecode_mem (s : State) : s.showRecode.mem = s.mem := by simp [State.showRecode]

@[simp] theorem State.recodeRows_mem (s : State) (p a n : Nat) : (s.recodeRows p a n).mem = s.mem := by
  simp [State.recodeRows]

@[simp] theorem execReencodeBurst_mem (col : Nat) (s : State) : KeepsMem s (execReencodeBurst col s) := by
  simp [execReencodeBurst, foldl_keeps State.mem]

@[simp] theorem execRefreshDue_mem (col : Nat) (s : State) : KeepsMem s (execRefreshDue col s) := by
  simp [execRefreshDue]

@[simp] theorem execWearWindowStart_mem (s : State) : KeepsMem s (execWearWindowStart s) := by
  simp [execWearWindowStart]

@[simp] theorem State.showFences_mem (s : State) :
    s.showFences.mem = s.mem := by
  simp [State.showFences, foldl_keeps State.mem]

@[simp] theorem State.fenceColumn_mem (s : State) (col : Nat) : (s.fenceColumn col).mem = s.mem := by
  simp [State.fenceColumn, foldl_keeps State.mem]

@[simp] theorem State.remapRow_mem (s : State) (r : Nat) : (s.remapRow r).mem = s.mem := by simp [State.remapRow]

@[simp] theorem execWriteBackBurst_mem (col : Nat) (s : State) : KeepsMem s (execWriteBackBurst col s) := by
  unfold execWriteBackBurst
  (repeat' split) <;> simp

@[simp] theorem State.scrubRow_mem (s : State) (r : Nat) : (s.scrubRow r).mem = s.mem := by simp [State.scrubRow]

@[simp] theorem execScrubBurst_mem (col : Nat) (s : State) : KeepsMem s (execScrubBurst col s) := by
  unfold execScrubBurst
  split <;> simp [foldl_keeps State.mem]

/-! ### Machine/Report.lean -/

@[simp] theorem State.logViolation_mem (s : State) (p : Nat) (r : List Byte) : (s.logViolation p r).mem = s.mem := by
  simp [State.logViolation]

@[simp] theorem State.refuse_mem (s : State) (i op tenant psn msg waykey off reason : Nat) :
    (s.refuse i op tenant psn msg waykey off reason).mem = s.mem := by simp [State.refuse]

@[simp] theorem State.unitsMark_mem (s : State) : s.unitsMark.mem = s.mem := by simp [State.unitsMark]

theorem State.takeOwn_mem {s t : State} {p : Nat} {es : List (Nat × Nat)} {slots xs : List Nat}
    (h : s.takeOwn p es slots = some (t, xs)) : t.mem = s.mem := by
  induction es generalizing s slots with
  | nil => cases h; simp
  | cons e es ih =>
    rw [State.takeOwn] at h
    split at h
    · cases h
    · exact (ih h :)

theorem State.takePlaces_mem {s : State} {p : Nat} {conn : Option Nat} {es : List (Nat × Nat)} {x : State × List Nat}
    (h : s.takePlaces p conn es = some x) : x.1.mem = s.mem := by
  unfold State.takePlaces at h
  split at h
  · exact State.takeOwn_mem h
  · split at h
    · cases h; rfl
    · cases h

@[simp] theorem State.dropPlace_mem (s : State) (conn : Option Nat) (id slot u : Nat) :
    (s.dropPlace conn id slot u).mem = s.mem := by
  unfold State.dropPlace
  split <;> simp

@[simp] theorem State.sendEmber_mem (s : State) (i off id : Nat) (bs : List Byte) :
    (s.sendEmber i off id bs).mem = s.mem := by simp [State.sendEmber]

/-! ### Machine/Partial.lean -/

@[simp] theorem State.mergeCounted_mem (s : State) (r : Nat × Nat) : (s.mergeCounted r).mem = s.mem := by
  simp [State.mergeCounted]

/-! ### Machine/Merge.lean -/

theorem State.takeNums_mem {s : State} {p ms n : Nat} {x : State × Nat} (h : s.takeNums p ms n = some x) :
    x.1.mem = s.mem := by
  simp only [State.takeNums] at h
  split at h
  · cases h
  · cases h; rfl

@[simp] theorem State.setRecv_mem (s : State) (conn : Option Nat) (id : Nat) (f : Recv → Recv) :
    (s.setRecv conn id f).mem = s.mem := by simp [State.setRecv]

@[simp] theorem State.freeRecv_mem (s : State) (r : Recv) : (s.freeRecv r).mem = s.mem := by
  unfold State.freeRecv
  split <;> simp

@[simp] theorem State.dropRecv_mem (s : State) (r : Recv) : (s.dropRecv r).mem = s.mem := by simp [State.dropRecv]

@[simp] theorem State.dedup_mem (s : State) (m : Merge) (r : Recv) : (s.dedup m r).mem = s.mem := by simp [State.dedup]

@[simp] theorem State.mergeOutcome_mem (s : State) (id n : Nat) : (s.mergeOutcome id n).mem = s.mem := by
  simp [State.mergeOutcome]

@[simp] theorem State.mergeValue_mem (s : State) (m : Merge) (b : List Byte) (dist : Nat) :
    (s.mergeValue m b dist).mem = s.mem := by simp [State.mergeValue]

@[simp] theorem State.accept_mem (s : State) (m : Merge) (r : Recv) : (s.accept m r).mem = s.mem := by
  simp [State.accept]

@[simp] theorem State.offer_mem (s : State) (m : Merge) (r : Recv) (dist : Nat) : (s.offer m r dist).mem = s.mem := by
  simp only [State.offer]
  (repeat' split) <;> simp

@[simp] theorem State.headerFault_mem (s : State) : s.headerFault.mem = s.mem := by simp [State.headerFault]

@[simp] theorem State.emberRefused_mem (s : State) (conn : Option Nat) (tenant : Nat) (h : BitVec 256) :
    (s.emberRefused conn tenant h).mem = s.mem := by
  unfold State.emberRefused
  (repeat' split) <;> simp

@[simp] theorem State.sinkHeld_mem (s : State) (conn : Option Nat) (units : Nat) :
    (s.sinkHeld conn units).mem = s.mem := by
  unfold State.sinkHeld
  split <;> simp

@[simp] theorem State.placeEmber_mem (s : State) (conn : Option Nat) (hdr : BitVec 256) (body : List Byte)
    (dist : Nat) (r : Recv) :
    (s.placeEmber conn hdr body dist r).mem = s.mem := by
  simp only [State.placeEmber]
  (repeat' split) <;> simp

@[simp] theorem State.emberIn_mem (s : State) (conn : Option Nat) (tenant : Nat) (hdr cmp : BitVec 256)
    (body : List Byte) (dist : Nat) :
    (s.emberIn conn tenant hdr cmp body dist).mem = s.mem := by
  unfold State.emberIn
  (repeat' split) <;> simp

@[simp] theorem execEmberReceived_mem (conn : Option Nat) (tenant : Nat) (hdr cmp : BitVec 256) (body : List Byte)
    (mergeFails : Nat) (s : State) :
    KeepsMem s (execEmberReceived conn tenant hdr cmp body mergeFails s) := by simp [execEmberReceived]

@[simp] theorem State.recallInput_mem (s : State) (r : Recv) : (s.recallInput r).mem = s.mem := by
  unfold State.recallInput
  split <;> simp

@[simp] theorem State.verdictLate_mem (s : State) (r : Recv) : (s.verdictLate r).mem = s.mem := by
  simp [State.verdictLate]

@[simp] theorem State.headerLost_mem (s : State) (r : Recv) : (s.headerLost r).mem = s.mem := by
  unfold State.headerLost
  split <;> simp

@[simp] theorem State.verdictIn_mem (s : State) (conn : Option Nat) (tenant : Nat) (hdr cmp : BitVec 256) :
    (s.verdictIn conn tenant hdr cmp).mem = s.mem := by
  unfold State.verdictIn
  (repeat' split) <;> simp

@[simp] theorem execVerdictReceived_mem (conn : Option Nat) (tenant : Nat) (hdr cmp : BitVec 256) (s : State) :
    KeepsMem s (execVerdictReceived conn tenant hdr cmp s) := by simp [execVerdictReceived]

@[simp] theorem execVerdictTimeout_mem (ember : Nat) (s : State) : KeepsMem s (execVerdictTimeout ember s) := by
  unfold execVerdictTimeout
  split <;> simp

@[simp] theorem State.orphanGone_mem (s : State) (r : Recv) : (s.orphanGone r).mem = s.mem := by simp [State.orphanGone]

@[simp] theorem execOrphanExpire_mem (ember : Nat) (s : State) : KeepsMem s (execOrphanExpire ember s) := by
  unfold execOrphanExpire
  split <;> simp

@[simp] theorem State.mergeCheck_mem (s : State) (c : Cmd) : (s.mergeCheck c).1.mem = s.mem := by
  simp only [State.mergeCheck]
  (repeat' split) <;> simp

@[simp] theorem State.mergePast_mem (s : State) (m : Merge) : (s.mergePast m).mem = s.mem := by
  simp [State.mergePast, foldl_keeps State.mem]

@[simp] theorem State.endMerge_mem (s : State) (m : Merge) (status : Nat) : (s.endMerge m status).mem = s.mem := by
  simp [State.endMerge]

@[simp] theorem State.mergeReserve_mem (s : State) (id : Nat) : (s.mergeReserve id).mem = s.mem := by
  simp only [State.mergeReserve]
  split
  · rfl
  · split
    · rfl
    · split
      · simp
      · split
        · rfl
        case h_2 t num hn =>
          have ht : t.mem = s.mem := State.takeNums_mem hn
          split
          · rfl
          case h_2 hp =>
            rw [foldl_keeps State.mem]
            · split at hp
              · cases hp; simpa using ht
              · simpa [ht] using State.takePlaces_mem hp
            · intro t r
              split
              · split
                · simp
                · split <;> simp
              · rfl

@[simp] theorem execMerge_mem (cmd : Nat) (s : State) : KeepsMem s (execMerge cmd s) := by
  unfold execMerge
  split <;> simp

@[simp] theorem execMergeWaitTimeout_mem (cmd : Nat) (s : State) : KeepsMem s (execMergeWaitTimeout cmd s) := by
  unfold execMergeWaitTimeout
  split <;> simp

/-! ### Machine/Attend.lean -/

@[simp] theorem State.attendEntry_mem (s : State) (k : DirKey) (fmt kv first last : Nat) (scale : Word) :
    (s.attendEntry k fmt kv first last scale).1.mem = s.mem := by
  unfold State.attendEntry
  (repeat' split) <;> simp

@[simp] theorem State.attendCheck_mem (s : State) (c : Cmd) : (s.attendCheck c).1.mem = s.mem := by
  simp only [State.attendCheck]
  (repeat' split) <;> simp

@[simp] theorem State.endAttend_mem (s : State) (c : Cmd) (status result : Nat) :
    (s.endAttend c status result).mem = s.mem := by simp [State.endAttend]

@[simp] theorem execAttend_mem (cmd : Nat) (s : State) : KeepsMem s (execAttend cmd s) := by
  simp only [execAttend]
  (repeat' split) <;> simp

theorem State.reserveBlks_mem {s : State} {r : Req} {ts : List (Nat × Nat × List Nat)} {x : State × List Blk}
    (h : s.reserveBlks r ts = some x) : x.1.mem = s.mem := by
  simp only [State.reserveBlks] at h
  split at h
  · cases h
  case h_2 h1 =>
    split at h
    case h_1 h2 =>
      cases h
      exact (State.takePlaces_mem h2).trans (State.takeNums_mem h1)
    case h_2 => cases h

@[simp] theorem State.dropBlks_mem (s : State) (r : Req) : (s.dropBlks r).mem = s.mem := by
  simp [State.dropBlks, foldl_keeps State.mem]

@[simp] theorem State.sendVerdict_mem (s : State) (e : Sent) (v reason : Nat) :
    (s.sendVerdict e v reason).mem = s.mem := by
  unfold State.sendVerdict
  (repeat' split) <;> simp

@[simp] theorem State.failReq_mem (s : State) (id order reason : Nat) (spans : Option (List Nat)) :
    (s.failReq id order reason spans).mem = s.mem := by simp [State.failReq, foldl_keeps State.mem]

@[simp] theorem State.heated_mem (s : State) (p seq span : Nat) : (s.heated p seq span).mem = s.mem := by
  simp [State.heated]

@[simp] theorem State.setPlan_mem (s : State) (ends : List (Nat × Nat)) : (s.setPlan ends).mem = s.mem := by
  simp [State.setPlan]

@[simp] theorem State.setJob_mem (s : State) (id span : Nat) (f : Job → Job) : (s.setJob id span f).mem = s.mem := by
  simp [State.setJob]

@[simp] theorem State.putCtx_mem (s : State) (c i : Nat) (v : JobCtx) : (s.putCtx c i v).mem = s.mem := by
  simp [State.putCtx]

@[simp] theorem State.loadJob_mem (s : State) (r : Req) (j : Job) (i : Nat) : (s.loadJob r j i).mem = s.mem := by
  simp [State.loadJob]

@[simp] theorem State.loadNext_mem (s : State) (c : Nat) : (s.loadNext c).mem = s.mem := by
  unfold State.loadNext
  split <;> simp

@[simp] theorem State.jobLost_mem (s : State) (r : Req) (j : Job) : (s.jobLost r j).mem = s.mem := by
  simp [State.jobLost]

@[simp] theorem State.startJob_mem (s : State) (r : Req) (j : Job) : (s.startJob r j).mem = s.mem := by
  simp [State.startJob, foldl_keeps State.mem]

@[simp] theorem execSpanJob_mem (cmd span : Nat) (s : State) : KeepsMem s (execSpanJob cmd span s) := by
  unfold execSpanJob
  (repeat' split) <;> simp

@[simp] theorem State.freeColumn_mem (s : State) (j : Job) : (s.freeColumn j).mem = s.mem := by simp [State.freeColumn]

@[simp] theorem execSpanJobOverrun_mem (cmd span : Nat) (s : State) : KeepsMem s (execSpanJobOverrun cmd span s) := by
  unfold execSpanJobOverrun
  (repeat' split) <;> simp

@[simp] theorem State.relayout_mem (s : State) (id : Nat) : (s.relayout id).mem = s.mem := by
  simp only [State.relayout]
  split
  · rfl
  · split
    case h_1 hb => simpa using State.reserveBlks_mem hb
    case h_2 => simp

@[simp] theorem State.damageSpan_mem (s : State) (r : Req) (j : Job) : (s.damageSpan r j).mem = s.mem := by
  simp [State.damageSpan]

@[simp] theorem State.checkFailed_mem (s : State) (r : Req) (j : Job) : (s.checkFailed r j).mem = s.mem := by
  simp [State.checkFailed]

@[simp] theorem execTallyCheckEnd_mem (cmd span : Nat) (stage : CheckStage) (disturbed : Bool) (s : State) :
    KeepsMem s (execTallyCheckEnd cmd span stage disturbed s) := by
  simp only [execTallyCheckEnd]
  (repeat' split) <;> simp

@[simp] theorem execSpanJobEnd_mem (cmd span : Nat) (s : State) : KeepsMem s (execSpanJobEnd cmd span s) := by
  unfold execSpanJobEnd
  (repeat' split) <;> simp

@[simp] theorem State.emit1_mem (s : State) (r : Req) (i : Nat) (b : Blk) (hs : List Head) :
    (s.emit1 r i b hs).mem = s.mem := by
  unfold State.emit1
  (repeat' split) <;> simp

@[simp] theorem execEmberEmit_mem (cmd block mergeFails : Nat) (s : State) :
    KeepsMem s (execEmberEmit cmd block mergeFails s) := by
  unfold execEmberEmit
  (repeat' split) <;> simp

@[simp] theorem execSealEmber_mem (ember : Nat) (s : State) : KeepsMem s (execSealEmber ember s) := by
  unfold execSealEmber
  (repeat' split) <;> simp

@[simp] theorem execSealDeadline_mem (ember : Nat) (s : State) : KeepsMem s (execSealDeadline ember s) := by
  unfold execSealDeadline
  split <;> simp [State.lateSeal_mem]

@[simp] theorem State.sealDeadlines_mem (s : State) : s.sealDeadlines.mem = s.mem := by
  rw [State.sealDeadlines, foldl_keeps State.mem]
  intro t i
  split <;> simp [State.lateSeal_mem]

@[simp] theorem execAttendComplete_mem (cmd : Nat) (s : State) : KeepsMem s (execAttendComplete cmd s) := by
  unfold execAttendComplete
  split <;> simp

/-! ### Machine/Shaping.lean -/

@[simp] theorem State.charge_mem (s : State) (p l bytes : Nat) : (s.charge p l bytes).mem = s.mem := by
  simp [State.charge]

@[simp] theorem State.shaperWrite_mem (s : State) : s.shaperWrite.mem = s.mem := by simp [State.shaperWrite]

@[simp] theorem execShaperWrite_mem (s : State) : KeepsMem s (execShaperWrite s) := by simp [execShaperWrite]

@[simp] theorem State.loadWords_mem (s : State) (fn off n v : Nat) : (s.loadWords fn off n v).mem = s.mem := by
  simp [State.loadWords, foldl_keeps State.mem]

@[simp] theorem State.shaperRead_mem (s : State) : s.shaperRead.mem = s.mem := by simp [State.shaperRead]

@[simp] theorem execShaperRead_mem (s : State) : KeepsMem s (execShaperRead s) := by simp [execShaperRead]

@[simp] theorem State.shaperTick_mem (s : State) : s.shaperTick.mem = s.mem := by
  simp only [State.shaperTick]
  rw [foldl_keeps State.mem, foldl_keeps State.mem]
  · dsimp only
    split
    · rfl
    · rw [foldl_keeps State.mem]
      intro t k; simp
  · exact fun _ _ => rfl
  · intro t k; simp

/-! ### Machine/Kindle.lean -/

@[simp] theorem State.showImages_mem (s : State) (p : Nat) : (s.showImages p).mem = s.mem := by simp [State.showImages]

@[simp] theorem State.layersCheck_mem (s : State) (p seq : Nat) (spans ls : List Nat) :
    (s.layersCheck p seq spans ls).1.mem = s.mem := by
  induction ls generalizing s with
  | nil => rfl
  | cons l t ih =>
    simp only [State.layersCheck]
    (repeat' split) <;> simp [ih]

@[simp] theorem State.leasesCheck_mem (s : State) (p seq : Nat) (ls : List Nat) :
    (s.leasesCheck p seq ls).1.mem = s.mem := by
  induction ls generalizing s with
  | nil => rfl
  | cons l t ih =>
    simp only [State.leasesCheck]
    (repeat' split) <;> simp [ih]

@[simp] theorem State.kindleCheck_mem (s : State) (c : Cmd) : (s.kindleCheck c).1.mem = s.mem := by
  fun_cases State.kindleCheck
  case case13 =>
    refine (foldl_fst_mem (fun x r => ?_) _ (_, 0)).trans ?_
    · split <;> simp
    · grind [State.readFor_mem, State.layersCheck_mem, State.leasesCheck_mem]
  all_goals grind [State.readFor_mem, State.layersCheck_mem, State.leasesCheck_mem, State.unmappedError_mem]

@[simp] theorem State.dropKindle_mem (s : State) (id : Nat) : (s.dropKindle id).mem = s.mem := by
  simp [State.dropKindle, foldl_keeps State.mem]

@[simp] theorem State.finishKindle_mem (s : State) (k : Kindle) (status : Nat) (already : Bool) (missing : Option Nat) :
    (s.finishKindle k status already missing).mem = s.mem := by simp [State.finishKindle, foldl_keeps State.mem]

@[simp] theorem State.imgRead_mem (s : State) (m : Image) (off n : Nat) : (s.imgRead m off n).1.mem = s.mem := by
  simp [State.imgRead]

@[simp] theorem State.normRows_mem (s : State) (m : Image) (tensor : Nat) (x : List (List Word)) :
    (s.normRows m tensor x).1.mem = s.mem := by
  simp only [State.normRows]
  (repeat' split) <;> simp

@[simp] theorem State.embedRows_mem (s : State) (m : Image) (ts : List Nat) : (s.embedRows m ts).1.mem = s.mem := by
  induction ts generalizing s with
  | nil => rfl
  | cons t ts ih =>
    simp only [State.embedRows]
    split
    · simp
    · split <;> simp [ih]

@[simp] theorem State.layerStart_mem (s : State) (m : Image) (k : Kindle) : (s.layerStart m k).1.mem = s.mem := by
  simp [State.layerStart]

@[simp] theorem State.beginKindle_mem (s : State) (k : Kindle) : (s.beginKindle k).1.mem = s.mem := by
  simp only [State.beginKindle]
  (repeat' split) <;> simp

@[simp] theorem State.putKindle_mem (s : State) (k : Kindle) : (s.putKindle k).mem = s.mem := by simp [State.putKindle]

@[simp] theorem State.nonfinite_mem (s : State) (status : Nat) : (s.nonfinite status).mem = s.mem := by
  simp [State.nonfinite]

@[simp] theorem State.startNext_mem (s : State) (p n : Nat) : (s.startNext p n).mem = s.mem := by
  induction n generalizing s with
  | zero => rfl
  | succ n ih =>
    unfold State.startNext
    split
    · rfl
    split
    · rfl
    split
    · simp [ih]
    rename_i k _ m _
    extract_lets k'
    have h := s.beginKindle_mem k'
    split
    · simp [ih]
    · split <;> simp_all

@[simp] theorem State.endKindle_mem (s : State) (k : Kindle) (status : Nat) (missing : Option Nat) :
    (s.endKindle k status missing).mem = s.mem := by simp [State.endKindle]

@[simp] theorem State.endKindles_mem (s : State) (f : Kindle → Bool) (status : Nat) :
    (s.endKindles f status).mem = s.mem := by
  simp only [State.endKindles]
  rw [foldl_keeps State.mem, foldl_keeps State.mem]
  · intro t k
    split <;> simp
  · intro t p
    simp

@[simp] theorem execKindle_mem (cmd : Nat) (s : State) : KeepsMem s (execKindle cmd s) := by
  unfold execKindle
  rw [keepsMem_next]
  split
  · rfl
  rename_i c _
  split
  · split <;> simp
  extract_lets s₁ d
  have h := s₁.kindleCheck_mem c
  split <;> simp_all [s₁]

@[simp] theorem State.issueTo_mem (s : State) (k : Kindle) (h : List Byte) (mid kv g : Nat) (scale : Word) (qs : List
    (List Byte)) (tag : BitVec 64) (node : Nat) :
    (s.issueTo k h mid kv g scale qs tag node).1.mem = s.mem := by
  unfold State.issueTo
  (repeat' split) <;> simp

@[simp] theorem State.internalCheck_mem (s : State) (k : Kindle) (h : List Byte) (kv g first last : Nat)
    (scale : Word) (qs : List (List Byte)) :
    (s.internalCheck k h kv g first last scale qs).1.mem = s.mem := by
  simp only [State.internalCheck]
  (repeat' split) <;> simp

@[simp] theorem State.issueOne_mem (s : State) (k : Kindle) (h : List Byte) (t : Nat × Nat × Nat) (resent : Bool)
    (first : Nat) : (s.issueOne k h t resent first).1.mem = s.mem := by
  unfold State.issueOne
  extract_lets gf d f grp a scale n qs tag used qs' id s₁ e issued nodes chk s₂ m s₃ held s₄ r
  have h₁ : s₁.mem = s.mem := rfl
  have h₂ : s₂.mem = s.mem := by
    change chk.1.mem = s₁.mem
    simp only [chk]
    split
    · simp
    · split <;> simp
  have h₄ : s₄.mem = s.mem := (foldl_keeps State.mem (fun t r => by split <;> simp) held s₃).trans h₂
  have hr : r.1.mem = s.mem := (foldl_fst_mem (fun x node => by simp) nodes (s₄, [])).trans h₄
  split
  · rfl
  split
  · exact h₂
  split
  · exact h₂
  · exact hr

@[simp] theorem State.issueAll_mem (s : State) (k : Kindle) (h : List Byte) (n : Nat) :
    (s.issueAll k h n).1.mem = s.mem := by
  induction n generalizing s k with
  | zero => rfl
  | succ n ih =>
    unfold State.issueAll
    split
    · rfl
    rename_i t rest _
    split
    · rfl
    have hi := s.issueOne_mem { k with todo := rest } h t false s.ms
    split <;> simp_all

@[simp] theorem State.ropeRows_mem (s : State) (m : Image) (k : Kindle) (rows : List (List Word)) :
    (s.ropeRows m k rows).1.mem = s.mem := by
  unfold State.ropeRows
  extract_lets d w
  rw [foldl_fst_mem]
  intro x rv
  split
  · rfl
  · extract_lets p c f
    split <;> simp [f, c]

@[simp] theorem State.arrayBusy_mem (s : State) (p hclk : Nat) : (s.arrayBusy p hclk).mem = s.mem := by
  simp [State.arrayBusy]

@[simp] theorem State.dropInternal_mem (s : State) (k : Kindle) (e : Internal) : (s.dropInternal k e).mem = s.mem := by
  simp only [State.dropInternal]
  (repeat' split) <;> simp [foldl_keeps State.mem]

@[simp] theorem State.internalDone_mem (s : State) (cmd tag status : Nat) :
    (s.internalDone cmd tag status).mem = s.mem := by
  unfold State.internalDone
  split
  · rfl
  split
  case h_2 => rfl
  rename_i k _ _ e m _ _
  split
  · rfl
  rename_i st missing vals _
  extract_lets s₁ k₁ settle k₂ s₂
  have hset : ∀ r, (settle r).mem = r.1.mem := fun r => by simp only [settle]; split <;> simp
  have h₁ : s₁.mem = s.mem := by simp [s₁]
  split
  · have h := s₁.issueAll_mem k₂ m.hdr k₂.todo.length
    split <;> simp_all
  · (repeat' split) <;> simp [hset, h₁, s₂]

@[simp] theorem State.issueMore_mem (s : State) (cmd : Nat) : (s.issueMore cmd).mem = s.mem := by
  unfold State.issueMore
  split
  · rfl
  rename_i k _
  split
  · rfl
  split
  · rfl
  rename_i m _
  have h := s.issueAll_mem k m.hdr k.todo.length
  split <;> simp_all

@[simp] theorem execInternalRequestDone_mem (cmd tag status : Nat) (s : State) :
    KeepsMem s (execInternalRequestDone cmd tag status s) := by simp [execInternalRequestDone]

@[simp] theorem execKindleCollectTimeout_mem (cmd : Nat) (s : State) : KeepsMem s (execKindleCollectTimeout cmd s) := by
  unfold execKindleCollectTimeout
  split <;> simp

@[simp] theorem State.publishUnit_mem (s : State) (k : Kindle) (span : Nat) : (s.publishUnit k span).mem = s.mem := by
  simp [State.publishUnit]

@[simp] theorem execKindlePublish_mem (cmd : Nat) (s : State) : KeepsMem s (execKindlePublish cmd s) := by
  unfold execKindlePublish
  (repeat' split) <;> simp

@[simp] theorem execCloseSeq_mem (cmd : Nat) (s : State) : KeepsMem s (execCloseSeq cmd s) := by
  simp only [execCloseSeq]
  (repeat' split) <;> simp

/-! ### Machine/Bind.lean -/

@[simp] theorem State.bindFails_mem (s : State) (cmd status : Nat) : (s.bindFails cmd status).mem = s.mem := by
  simp [State.bindFails]

@[simp] theorem State.bindHead_mem (s : State) (c : Cmd) : (s.bindHead c).1.mem = s.mem := by
  simp only [State.bindHead]
  (repeat' split) <;> simp

@[simp] theorem State.bindRead_mem (s : State) (a n : Nat) : (s.bindRead a n).2.mem = s.mem := by
  simp [State.bindRead]

@[simp] theorem execUnbind_mem (cmd : Nat) (s : State) : KeepsMem s (execUnbind cmd s) := by
  simp only [execUnbind]
  (repeat' split) <;> simp

/-! ### Machine/Frame.lean -/

@[simp] theorem State.leaves_mem (s : State) (p l tc bytes ready : Nat) :
    (s.leaves p l tc bytes ready).mem = s.mem := by
  simp [State.leaves]

@[simp] theorem State.sendReply_mem (s : State) (r : Reply) : (s.sendReply r).mem = s.mem := by
  unfold State.sendReply
  extract_lets t
  have ht : t.mem = s.mem := by
    simp only [t]
    split
    · exact State.leaves_mem ..
    · rfl
  exact ht

@[simp] theorem State.reply_mem (s : State) (r : Reply) : (s.reply r).mem = s.mem := by
  unfold State.reply
  split
  · exact s.sendReply_mem r
  split
  · rfl
  · extract_lets t
    have ht : t.mem = s.mem := by
      simp only [t]
      split
      · split <;> exact State.count_mem s _ _ _
      · rfl
    exact ht

@[simp] theorem State.repliesOut_mem (s : State) :
    s.repliesOut.mem = s.mem := by
  simp [State.repliesOut, foldl_keeps State.mem]

@[simp] theorem State.arpIn_mem (s : State) (l : Nat) (f : List Byte) : (s.arpIn l f).mem = s.mem := by
  simp only [State.arpIn]
  (repeat' split) <;> simp

@[simp] theorem execArpSolicit_mem (lport : Nat) (frame : List Byte) (s : State) :
    KeepsMem s (execArpSolicit lport frame s) := by simp [execArpSolicit]

/-! ### Machine/Conns.lean -/

@[simp] theorem State.sendCtrl_mem (s : State) (i sub reason : Nat) (via : Option Nat) :
    (s.sendCtrl i sub reason via).mem = s.mem := by simp [State.sendCtrl]

@[simp] theorem State.sendAck_mem (s : State) (i : Nat) : (s.sendAck i).mem = s.mem := by simp [State.sendAck]

@[simp] theorem State.twinLost_mem (s : State) (k : DirKey) : (s.twinLost k).mem = s.mem := by simp [State.twinLost]

@[simp] theorem State.ownerLost_mem (s : State) (p : Nat) : (s.ownerLost p).mem = s.mem := by
  unfold State.ownerLost
  split <;> simp

@[simp] theorem State.abandon_mem (s : State) (i : Nat) : (s.abandon i).mem = s.mem := by
  simp only [State.abandon]
  (repeat' split) <;> simp [foldl_keeps State.mem]

@[simp] theorem State.connFail_mem (s : State) (i reason : Nat) : (s.connFail i reason).mem = s.mem := by
  simp [State.connFail]

@[simp] theorem State.connIdle_mem (s : State) (i reason : Nat) : (s.connIdle i reason).mem = s.mem := by
  simp [State.connIdle]

@[simp] theorem State.connOpened_mem (s : State) (i : Nat) (x : List Byte) : (s.connOpened i x).mem = s.mem := by
  simp [State.connOpened]

@[simp] theorem State.openConn_mem (s : State) (fn : Nat) : (s.openConn fn).mem = s.mem := by simp [State.openConn]

@[simp] theorem execConnOpen_mem (fn : Nat) (s : State) : KeepsMem s (execConnOpen fn s) := by simp [execConnOpen]

@[simp] theorem execConnectRetry_mem (conn : Nat) (s : State) : KeepsMem s (execConnectRetry conn s) := by
  simp [execConnectRetry]

@[simp] theorem execConnectTimeout_mem (conn : Nat) (s : State) : KeepsMem s (execConnectTimeout conn s) := by
  simp [execConnectTimeout]

@[simp] theorem execClosingTimeout_mem (conn : Nat) (s : State) : KeepsMem s (execClosingTimeout conn s) := by
  simp [execClosingTimeout]

@[simp] theorem State.rejectPacket_mem (s : State) (a : Arrival) (tenant : Nat) (x : List Byte) (reason : Nat) :
    (s.rejectPacket a tenant x reason).mem = s.mem := by simp [State.rejectPacket]

@[simp] theorem State.connectIn_mem (s : State) (a : Arrival) (tenant : Nat) (x : List Byte) :
    (s.connectIn a tenant x).mem = s.mem := by
  unfold State.connectIn
  (repeat' split) <;> simp

@[simp] theorem execConnect_mem (tenant : Nat) (ext : List Byte) (s : State) :
    KeepsMem s (execConnect tenant ext s) := by
  simp [execConnect]

@[simp] theorem State.acceptIn_mem (s : State) (i : Nat) (x : List Byte) : (s.acceptIn i x).mem = s.mem := by
  simp [State.acceptIn]

@[simp] theorem execAccept_mem (conn : Nat) (ext : List Byte) (s : State) : KeepsMem s (execAccept conn ext s) := by
  simp [execAccept]

@[simp] theorem State.rejectIn_mem (s : State) (i : Nat) (x : List Byte) : (s.rejectIn i x).mem = s.mem := by
  simp [State.rejectIn]

@[simp] theorem execReject_mem (conn : Nat) (ext : List Byte) (s : State) : KeepsMem s (execReject conn ext s) := by
  simp [execReject]

@[simp] theorem State.closeStep_mem (s : State) (i : Nat) : (s.closeStep i).mem = s.mem := by simp [State.closeStep]

@[simp] theorem State.closing_mem (s : State) (i : Nat) : (s.closing i).mem = s.mem := by simp [State.closing]

@[simp] theorem State.closeIn_mem (s : State) (i : Nat) : (s.closeIn i).mem = s.mem := by simp [State.closeIn]

@[simp] theorem execCtrlClose_mem (conn : Nat) (s : State) : KeepsMem s (execCtrlClose conn s) := by
  simp [execCtrlClose]

@[simp] theorem State.closeAckIn_mem (s : State) (i : Nat) : (s.closeAckIn i).mem = s.mem := by simp [State.closeAckIn]

@[simp] theorem execCloseAck_mem (conn : Nat) (s : State) : KeepsMem s (execCloseAck conn s) := by simp [execCloseAck]

@[simp] theorem State.closeConn_mem (s : State) (fn : Nat) : (s.closeConn fn).mem = s.mem := by
  simp only [State.closeConn]
  (repeat' split) <;> simp

@[simp] theorem execConnClose_mem (fn : Nat) (s : State) : KeepsMem s (execConnClose fn s) := by simp [execConnClose]

@[simp] theorem State.connWindow_mem (s : State) (fn off : Nat) (bs : List Byte) :
    (s.connWindow fn off bs).mem = s.mem := by simp [State.connWindow]

@[simp] theorem execConnWindowWrite_mem (fn off : Nat) (data : List Byte) (s : State) :
    KeepsMem s (execConnWindowWrite fn off data s) := by simp [execConnWindowWrite]

/-! ### Machine/Waykeys.lean -/

@[simp] theorem State.wkLoad_mem (s : State) (fn : Nat) (v : BitVec 256) : (s.wkLoad fn v).mem = s.mem := by
  simp [State.wkLoad]

@[simp] theorem State.wkCreate_mem (s : State) (fn : Nat) : (s.wkCreate fn).mem = s.mem := by
  simp only [State.wkCreate]
  (repeat' split) <;> simp

@[simp] theorem execWaykeyCreate_mem (fn : Nat) (s : State) : KeepsMem s (execWaykeyCreate fn s) := by
  simp [execWaykeyCreate]

@[simp] theorem State.wkRevoked_mem (s : State) (i : Nat) : (s.wkRevoked i).mem = s.mem := by
  simp only [State.wkRevoked]
  (repeat' split) <;> simp

@[simp] theorem State.wkSettle_mem (s : State) (i : Nat) : (s.wkSettle i).mem = s.mem := by simp [State.wkSettle]

@[simp] theorem State.wkRevoke_mem (s : State) (fn : Nat) (v : Word) : (s.wkRevoke fn v).mem = s.mem := by
  simp [State.wkRevoke]

@[simp] theorem execWaykeyRevoke_mem (fn : Nat) (v : Word) (s : State) : KeepsMem s (execWaykeyRevoke fn v s) := by
  simp [execWaykeyRevoke]

@[simp] theorem State.wkReadOut_mem (s : State) (fn : Nat) : (s.wkReadOut fn).mem = s.mem := by simp [State.wkReadOut]

@[simp] theorem execWaykeyRead_mem (fn : Nat) (s : State) : KeepsMem s (execWaykeyRead fn s) := by simp [execWaykeyRead]

@[simp] theorem State.wkControl_mem (s : State) (fn : Nat) (v : Word) : (s.wkControl fn v).mem = s.mem := by
  unfold State.wkControl
  split <;> simp

@[simp] theorem execRevocationComplete_mem (key : Nat) (s : State) : KeepsMem s (execRevocationComplete key s) := by
  simp [execRevocationComplete]

@[simp] theorem State.readOut_mem (s : State) (a n : Nat) : (s.readOut a n).2.mem = s.mem := by
  unfold State.readOut
  split <;> simp

/-! ### Machine/Rebuild.lean -/

@[simp] theorem State.freeBytes_mem (s : State) (n : Nat) : (s.freeBytes n).2.mem = s.mem := by simp [State.freeBytes]

@[simp] theorem State.sendImage_mem (s : State) (p i key : Nat) (bs : List Byte) :
    (s.sendImage p i key bs).mem = s.mem := by simp [State.sendImage, foldl_keeps State.mem]

@[simp] theorem State.unitBytes_mem (s : State) (xs : List Slot) : (s.unitBytes xs).2.mem = s.mem := by
  induction xs generalizing s with
  | nil => rfl
  | cons x t ih => simp [State.unitBytes, ih]

@[simp] theorem State.setSender_mem (s : State) (p : Nat) (f : Rebuild → Rebuild) : (s.setSender p f).mem = s.mem := by
  simp [State.setSender]

@[simp] theorem State.rebuildNext_mem (s : State) (p : Nat) : (s.rebuildNext p).mem = s.mem := by
  simp only [State.rebuildNext]
  (repeat' split) <;> simp

@[simp] theorem State.rebuildStart_mem (s : State) (fn : Nat) : (s.rebuildStart fn).mem = s.mem := by
  simp only [State.rebuildStart]
  (repeat' split) <;> simp

@[simp] theorem execRebuildStart_mem (fn : Nat) (s : State) : KeepsMem s (execRebuildStart fn s) := by
  simp [execRebuildStart]

@[simp] theorem State.rebuildAbort_mem (s : State) (fn : Nat) : (s.rebuildAbort fn).mem = s.mem := by
  simp [State.rebuildAbort]

@[simp] theorem execRebuildAbort_mem (fn : Nat) (s : State) : KeepsMem s (execRebuildAbort fn s) := by
  simp [execRebuildAbort]

/-! ### Machine/Tx.lean -/

theorem State.pick_mem {s : State} {l : Nat} {x : Lead × State} (h : s.pick l = some x) : x.2.mem = s.mem := by
  unfold State.pick at h
  split at h
  · cases h; rfl
  extract_lets bs chosen at h
  have hc : ∀ p t, chosen p t = some x → x.2.mem = t.mem := fun p t h => by
    obtain ⟨b, -, rfl⟩ := Option.map_eq_some_iff.1 h
    rfl
  clear_value chosen bs
  split at h
  · split at h
    · exact hc _ _ h
    · cases h
  · split at h
    · simpa using hc _ _ h
    · cases h

@[simp] theorem State.emberLeft_mem (s : State) (k : NextPkt) : (s.emberLeft k).mem = s.mem := by
  unfold State.emberLeft
  (repeat' split) <;> simp

@[simp] theorem State.startPkt_mem (s : State) (x : Lead) : (s.startPkt x).mem = s.mem := by simp [State.startPkt]

@[simp] theorem State.waitsTokens_mem (s : State) (x : Lead) : (s.waitsTokens x).mem = s.mem := by
  simp [State.waitsTokens]

@[simp] theorem State.waitsSlot_mem (s : State) (x : Lead) : (s.waitsSlot x).mem = s.mem := by simp [State.waitsSlot]

@[simp] theorem State.waits_mem (s : State) (x : Lead) : (s.waits x).mem = s.mem := by simp [State.waits]

@[simp] theorem execPacketTransmit_mem (conn tc : Nat) (s : State) : KeepsMem s (execPacketTransmit conn tc s) := by
  unfold execPacketTransmit
  rw [keepsMem_next]
  split
  case h_2 => simp [foldl_keeps State.mem]
  case h_1 t h =>
    obtain ⟨x, -, hx⟩ := List.exists_of_findSome?_eq_some h
    split at hx
    case h_2 => cases hx
    case h_1 hp =>
      split at hx
      · cases hx; simpa using State.pick_mem hp
      · cases hx

@[simp] theorem State.txSettle_mem (s : State) (i : Nat) : (s.txSettle i).mem = s.mem := by
  unfold State.txSettle
  extract_lets c done t
  rw [foldl_keeps State.mem]
  · rfl
  · intro t m
    split
    · split <;> simp
    · simp
    · rfl

@[simp] theorem State.ackIn_mem (s : State) (i : Nat) (ext : List Byte) : (s.ackIn i ext).mem = s.mem := by
  simp [State.ackIn, foldl_keeps State.mem]

@[simp] theorem execAck_mem (conn : Nat) (ext : List Byte) (s : State) : KeepsMem s (execAck conn ext s) := by
  simp [execAck]

@[simp] theorem execAckDelayExpire_mem (conn : Nat) (s : State) : KeepsMem s (execAckDelayExpire conn s) := by
  simp [execAckDelayExpire]

@[simp] theorem State.rtoExpire_mem (s : State) (i psn : Nat) : (s.rtoExpire i psn).mem = s.mem := by
  simp only [State.rtoExpire]
  (repeat' split) <;> simp

@[simp] theorem execRtoExpire_mem (conn psn : Nat) (s : State) : KeepsMem s (execRtoExpire conn psn s) := by
  simp [execRtoExpire]

@[simp] theorem State.sendProbe_mem (s : State) (i p : Nat) : (s.sendProbe i p).mem = s.mem := by simp [State.sendProbe]

@[simp] theorem execProbeTimer_mem (conn path : Nat) (s : State) : KeepsMem s (execProbeTimer conn path s) := by
  simp [execProbeTimer]

@[simp] theorem execKeepaliveExpire_mem (conn path : Nat) (s : State) :
    KeepsMem s (execKeepaliveExpire conn path s) := by
  simp [execKeepaliveExpire]

@[simp] theorem execDeadTimeExpire_mem (conn : Nat) (s : State) : KeepsMem s (execDeadTimeExpire conn s) := by
  simp [execDeadTimeExpire]

/-! ### Machine/Rx.lean -/

@[simp] theorem State.ackDue_mem (s : State) (i : Nat) (now : Bool) : (s.ackDue i now).mem = s.mem := by
  simp [State.ackDue]

@[simp] theorem State.received_mem (s : State) (i psn : Nat) (o : Ort) : (s.received i psn o).mem = s.mem := by
  simp [State.received]

@[simp] theorem State.refuseDescs_mem (s : State) (i : Nat) (m : RxMsg) (b : List Byte) (n eng status : Nat) :
    (s.refuseDescs i m b n eng status).mem = s.mem := by simp [State.refuseDescs, foldl_keeps State.mem]

@[simp] theorem State.cmdVisible_mem (s : State) (i : Nat) (m : RxMsg) : (s.cmdVisible i m).mem = s.mem := by
  simp [State.cmdVisible]

@[simp] theorem State.serveRead_mem (s : State) (i : Nat) (m : RxMsg) : (s.serveRead i m).mem = s.mem := by
  simp [State.serveRead]

@[simp] theorem State.probeIn_mem (s : State) (i p : Nat) : (s.probeIn i p).mem = s.mem := by simp [State.probeIn]

@[simp] theorem State.probeAckIn_mem (s : State) (i p : Nat) : (s.probeAckIn i p).mem = s.mem := by
  simp [State.probeAckIn]

@[simp] theorem execProbe_mem (conn path : Nat) (s : State) : KeepsMem s (execProbe conn path s) := by simp [execProbe]

@[simp] theorem execProbeAck_mem (conn path : Nat) (s : State) : KeepsMem s (execProbeAck conn path s) := by
  simp [execProbeAck]

@[simp] theorem State.emberReported_mem (s : State) (e : Sent) (reason : Nat) :
    (s.emberReported e reason).mem = s.mem := by simp [State.emberReported]

@[simp] theorem State.reportIn_mem (s : State) (i : Nat) (x : List Byte) : (s.reportIn i x).mem = s.mem := by
  simp only [State.reportIn]
  (repeat' split) <;> simp [foldl_keeps State.mem]

@[simp] theorem execReport_mem (conn : Nat) (ext : List Byte) (s : State) : KeepsMem s (execReport conn ext s) := by
  simp [execReport]

@[simp] theorem State.recordIn_mem (s : State) (i : Nat) (b : List Byte) : (s.recordIn i b).mem = s.mem := by
  simp only [State.recordIn]
  (repeat' split) <;> simp

@[simp] theorem State.cplIn_mem (s : State) (i : Nat) (b : List Byte) : (s.cplIn i b).mem = s.mem := by
  simp [State.cplIn, foldl_keeps State.mem]

@[simp] theorem execCpl_mem (conn : Nat) (record : List Byte) (s : State) : KeepsMem s (execCpl conn record s) := by
  simp [execCpl]

@[simp] theorem State.tc2Done_mem (s : State) (i : Nat) (m : RxMsg) : (s.tc2Done i m).mem = s.mem := by
  simp [State.tc2Done]

@[simp] theorem State.tc0In_mem (s : State) (i : Nat) (o : Ort) : (s.tc0In i o).mem = s.mem := by
  unfold State.tc0In
  (repeat' split) <;> simp

/-! ### Machine/Ports.lean -/

@[simp] theorem State.linkOff_mem (s : State) (l : Nat) : (s.linkOff l).mem = s.mem := by simp [State.linkOff]

@[simp] theorem execLinkDown_mem (lport : Nat) (s : State) : KeepsMem s (execLinkDown lport s) := by simp [execLinkDown]

@[simp] theorem execLinkUp_mem (lport : Nat) (s : State) : KeepsMem s (execLinkUp lport s) := by simp [execLinkUp]

@[simp] theorem State.portReset_mem (s : State) (n : Nat) : (s.portReset n).mem = s.mem := by simp [State.portReset]

@[simp] theorem execPortReset_mem (n : Nat) (s : State) : KeepsMem s (execPortReset n s) := by simp [execPortReset]

@[simp] theorem State.portCfg_mem (s : State) (n : Nat) (v : Word) : (s.portCfg n v).mem = s.mem := by
  simp [State.portCfg]

@[simp] theorem execPortCfgWrite_mem (n : Nat) (v : Word) (s : State) : KeepsMem s (execPortCfgWrite n v s) := by
  simp [execPortCfgWrite]

@[simp] theorem State.portTable_mem (s : State) (off : Nat) (bs : List Byte) : (s.portTable off bs).mem = s.mem := by
  simp [State.portTable]

@[simp] theorem execPortTableWrite_mem (off : Nat) (data : List Byte) (s : State) :
    KeepsMem s (execPortTableWrite off data s) := by simp [execPortTableWrite]

/-! ### Machine/Endings.lean -/

@[simp] theorem State.refuseInq_mem (s : State) (f : InDesc → Bool) (status : Nat) :
    (s.refuseInq f status).mem = s.mem := by simp [State.refuseInq, foldl_keeps State.mem]

@[simp] theorem State.resetRegs_mem (s : State) (fn : Nat) : (s.resetRegs fn).mem = s.mem := by simp [State.resetRegs]

@[simp] theorem State.ringsOff_mem (s : State) (p : Nat) : (s.ringsOff p).mem = s.mem := by simp [State.ringsOff]

/-! ### Machine/Partitions.lean -/

@[simp] theorem State.loadBytes_mem (s : State) (fn off : Nat) (bs : List Byte) :
    (s.loadBytes fn off bs).mem = s.mem := by
  simp [State.loadBytes, foldl_keeps State.mem]

@[simp] theorem State.attestGo_mem (s : State) (fn : Nat) (v : Word) : (s.attestGo fn v).mem = s.mem := by
  simp [State.attestGo]

@[simp] theorem execAttestGo_mem (fn : Nat) (v : Word) (s : State) : KeepsMem s (execAttestGo fn v s) := by
  simp [execAttestGo]

@[simp] theorem execAttestDone_mem (fn : Nat) (s : State) : KeepsMem s (execAttestDone fn s) := by
  unfold execAttestDone
  split <;> simp

@[simp] theorem State.closeAll_mem (s : State) (p : Nat) : (s.closeAll p).mem = s.mem := by simp [State.closeAll]

@[simp] theorem State.readBack_mem (s : State) (p : Nat) : (s.readBack p).1.mem = s.mem := by
  simp [State.readBack, foldl_keeps State.mem]

@[simp] theorem State.activatePart_mem (s : State) (p : Nat) : (s.activatePart p).mem = s.mem := by
  simp [State.activatePart]

@[simp] theorem execActivate_mem (part : Nat) (s : State) : KeepsMem s (execActivate part s) := by simp [execActivate]

/-! ### Machine/Faults.lean -/

@[simp] theorem State.emberLost_mem (s : State) (id : Nat) : (s.emberLost id).mem = s.mem := by
  simp [State.emberLost, foldl_keeps State.mem]

@[simp] theorem execWdogService_mem (v : Word) (s : State) : KeepsMem s (execWdogService v s) := by
  simp [execWdogService]

@[simp] theorem execWdogWarn_mem (s : State) : KeepsMem s (execWdogWarn s) := by simp [execWdogWarn]

@[simp] theorem State.probeRefused_mem (s : State) : s.probeRefused.mem = s.mem := by simp [State.probeRefused]

@[simp] theorem State.showProbe_mem (s : State) (id : Nat) (armed session : Bool) :
    (s.showProbe id armed session).mem = s.mem := by simp [State.showProbe]

@[simp] theorem State.armPack_mem (s : State) (session : Bool) : (s.armPack session).mem = s.mem := by
  simp [State.armPack]

@[simp] theorem State.disarm_mem (s : State) : s.disarm.mem = s.mem := by
  unfold State.disarm
  split <;> simp

@[simp] theorem execProbeArm_mem (s : State) : KeepsMem s (execProbeArm s) := by simp [execProbeArm]

@[simp] theorem execProbeSession_mem (s : State) : KeepsMem s (execProbeSession s) := by simp [execProbeSession]

@[simp] theorem execProbeStop_mem (s : State) : KeepsMem s (execProbeStop s) := by simp [execProbeStop]

@[simp] theorem State.sessionEnd_mem (s : State) : s.sessionEnd.mem = s.mem := by
  unfold State.sessionEnd
  split <;> simp

@[simp] theorem State.packExpire_mem (s : State) : s.packExpire.mem = s.mem := by
  unfold State.packExpire
  split <;> simp

@[simp] theorem State.probeSlot_mem (s : State) : s.probeSlot.mem = s.mem := by
  unfold State.probeSlot
  split <;> simp [foldl_keeps State.mem]

@[simp] theorem State.probeFailed_mem (s : State) : s.probeFailed.mem = s.mem := by simp [State.probeFailed]

/-! ### Machine/Leases.lean -/

@[simp] theorem State.leaseSend_mem (s : State) (k : DirKey) (kind dst epoch endMs : Nat) :
    (s.leaseSend k kind dst epoch endMs).mem = s.mem := by
  unfold State.leaseSend
  (repeat' split) <;> simp

@[simp] theorem State.leaseLost_mem (s : State) (k : DirKey) : (s.leaseLost k).mem = s.mem := by simp [State.leaseLost]

@[simp] theorem State.setOwn_mem (s : State) (k : DirKey) (o : BitVec 128) : (s.setOwn k o).mem = s.mem := by
  simp [State.setOwn]

@[simp] theorem State.leaseSent_mem (s : State) (k : DirKey) : (s.leaseSent k).mem = s.mem := by simp [State.leaseSent]

@[simp] theorem State.grantTaken_mem (s : State) (k : DirKey) (o : BitVec 128) (m : List Byte) :
    (s.grantTaken k o m).mem = s.mem := by simp [State.grantTaken]

@[simp] theorem State.overruled_mem (s : State) (k : DirKey) (o : BitVec 128) (m : List Byte) :
    (s.overruled k o m).mem = s.mem := by simp [State.overruled]

@[simp] theorem State.leaseAct_mem (s : State) (k : DirKey) (o : BitVec 128) (m : List Byte) :
    (s.leaseAct k o m).mem = s.mem := by simp [State.leaseAct]

@[simp] theorem State.leaseIn_mem (s : State) (kind : Nat) (m : List Byte) : (s.leaseIn kind m).mem = s.mem := by
  simp only [State.leaseIn]
  (repeat' split) <;> simp

@[simp] theorem execGrant_mem (msg : List Byte) (s : State) : KeepsMem s (execGrant msg s) := by simp [execGrant]

@[simp] theorem execRenew_mem (msg : List Byte) (s : State) : KeepsMem s (execRenew msg s) := by simp [execRenew]

@[simp] theorem execFinal_mem (msg : List Byte) (s : State) : KeepsMem s (execFinal msg s) := by simp [execFinal]

@[simp] theorem execDeny_mem (msg : List Byte) (s : State) : KeepsMem s (execDeny msg s) := by simp [execDeny]

@[simp] theorem State.ownRead_mem (s : State) (k : DirKey) : (s.ownRead k).1.mem = s.mem := by
  simp only [State.ownRead]
  (repeat' split) <;> simp

@[simp] theorem State.leaseBad_mem (s : State) (fn : Nat) : (s.leaseBad fn).mem = s.mem := by simp [State.leaseBad]

@[simp] theorem State.leaseGrant_mem (s : State) (fn : Nat) : (s.leaseGrant fn).mem = s.mem := by
  unfold State.leaseGrant
  extract_lets k dst
  have h := s.ownRead_mem k
  split
  · simp
  · split
    · simp_all
    · split <;> simp_all

@[simp] theorem execLeaseGrant_mem (fn : Nat) (s : State) : KeepsMem s (execLeaseGrant fn s) := by simp [execLeaseGrant]

@[simp] theorem State.leaseTwin_mem (s : State) (fn : Nat) : (s.leaseTwin fn).mem = s.mem := by
  unfold State.leaseTwin
  extract_lets k dst
  have h := s.ownRead_mem k
  split
  · simp
  · split
    · simp_all
    · split <;> simp_all

@[simp] theorem execLeaseTwin_mem (fn : Nat) (s : State) : KeepsMem s (execLeaseTwin fn s) := by simp [execLeaseTwin]

@[simp] theorem State.leaseTake_mem (s : State) (fn : Nat) : (s.leaseTake fn).mem = s.mem := by
  unfold State.leaseTake
  extract_lets k
  have h := s.ownRead_mem k
  split
  · simp
  · split
    · simp_all
    · split <;> simp_all

@[simp] theorem execLeaseTake_mem (fn : Nat) (s : State) : KeepsMem s (execLeaseTake fn s) := by simp [execLeaseTake]

@[simp] theorem State.leaseRead_mem (s : State) (fn : Nat) : (s.leaseRead fn).mem = s.mem := by
  unfold State.leaseRead
  extract_lets k bad
  have h := s.ownRead_mem k
  split
  · simp
  · split
    · simp_all
    · split <;> simp_all

@[simp] theorem execLeaseRead_mem (fn : Nat) (s : State) : KeepsMem s (execLeaseRead fn s) := by simp [execLeaseRead]

@[simp] theorem State.ownNow_mem (s : State) (k : DirKey) : (s.ownNow k).1.mem = s.mem := by
  unfold State.ownNow
  split <;> simp

@[simp] theorem execGrantResend_mem (key : DirKey) (s : State) : KeepsMem s (execGrantResend key s) := by
  unfold execGrantResend
  rw [keepsMem_next]
  have h := s.ownNow_mem key
  split
  · rfl
  · split
    · split <;> simp_all
    · simp_all

@[simp] theorem execRenewTimer_mem (key : DirKey) (s : State) : KeepsMem s (execRenewTimer key s) := by
  unfold execRenewTimer
  rw [keepsMem_next]
  have h := s.ownNow_mem key
  split
  · rfl
  · split
    · split <;> simp_all
    · simp_all

@[simp] theorem execLeaseExpire_mem (key : DirKey) (s : State) : KeepsMem s (execLeaseExpire key s) := by
  unfold execLeaseExpire
  rw [keepsMem_next]
  have h := s.ownNow_mem key
  split
  · split <;> simp_all
  · simp_all

@[simp] theorem execLeaseReclaim_mem (key : DirKey) (s : State) : KeepsMem s (execLeaseReclaim key s) := by
  unfold execLeaseReclaim
  rw [keepsMem_next]
  have h := s.ownNow_mem key
  split
  · split <;> simp_all
  · simp_all

@[simp] theorem State.rebuildOpen_mem (s : State) (p conn epoch seq : Nat) (layers : List (Nat × Nat × Nat × Nat)) :
    (s.rebuildOpen p conn epoch seq layers).mem = s.mem := by
  unfold State.rebuildOpen
  extract_lets node good s₁ spans r
  exact foldl_keeps State.mem (fun _ _ => by rfl) good s

@[simp] theorem State.setReceiver_mem (s : State) (p : Nat) (f : Rebuild → Rebuild) :
    (s.setReceiver p f).mem = s.mem := by
  simp [State.setReceiver]

@[simp] theorem State.unitFailed_mem (s : State) (p span : Nat) : (s.unitFailed p span).mem = s.mem := by
  simp [State.unitFailed]

/-! ### Machine/Boot.lean -/

@[simp] theorem State.loadSlots_mem (s : State) (c : List Byte) : (s.loadSlots c).mem = s.mem := by
  simp [State.loadSlots, foldl_keeps State.mem]

@[simp] theorem State.lock_mem (s : State) (c : List Byte) (faulted : List Nat) : (s.lock c faulted).mem = s.mem := by
  unfold State.lock
  extract_lets es s₁ s₂ s₃ s₄ s₅ s₆ s₇ s₈
  have h₂ : s₂.mem = s.mem := by simp [s₂, s₁]
  have h₃ : s₃.mem = s₂.mem := foldl_keeps State.mem (fun t v => by simp) es s₂
  have h₅ : s₅.mem = s₃.mem := by simp [s₅, s₄]
  have h₇ : s₇.mem = s₆.mem := foldl_keeps State.mem (fun _ _ => by rfl) es s₆
  have h₈ : s₈.mem = s₇.mem := by simp only [s₈]; split <;> simp
  rw [State.setRegB_mem, h₈, h₇, ← h₂, ← h₃, ← h₅]

@[simp] theorem State.toRecovery_mem (s : State) (cause : Nat) : (s.toRecovery cause).mem = s.mem := by
  simp [State.toRecovery]

@[simp] theorem State.deriveKeys_mem (s : State) (seed : BitVec 256) : (s.deriveKeys seed).mem = s.mem := by
  simp [State.deriveKeys]

@[simp] theorem State.bootStart_mem (s : State) (env : BootEnv) : (s.bootStart env).mem = s.mem := by
  simp [State.bootStart]

/-! ### Machine/Life.lean -/

@[simp] theorem State.lifeBad_mem (s : State) : s.lifeBad.mem = s.mem := by simp [State.lifeBad]

@[simp] theorem State.toService_mem (s : State) : s.toService.mem = s.mem := by simp [State.toService]

@[simp] theorem State.toDrain_mem (s : State) : s.toDrain.mem = s.mem := by simp [State.toDrain]

@[simp] theorem State.toStandby_mem (s : State) : s.toStandby.mem = s.mem := by simp [State.toStandby]

@[simp] theorem execService_mem (s : State) : KeepsMem s (execService s) := by simp [execService]

@[simp] theorem execDrain_mem (s : State) : KeepsMem s (execDrain s) := by simp [execDrain]

@[simp] theorem execStandby_mem (s : State) : KeepsMem s (execStandby s) := by simp [execStandby]

@[simp] theorem execStandbyEnter_mem (s : State) : KeepsMem s (execStandbyEnter s) := by simp [execStandbyEnter]

@[simp] theorem State.clearJobs_mem (s : State) :
    s.clearJobs.mem = s.mem := by
  simp [State.clearJobs, foldl_keeps State.mem]

@[simp] theorem execEngineResetEnd_mem (part : Nat) (s : State) : KeepsMem s (execEngineResetEnd part s) := by
  simp [execEngineResetEnd]

@[simp] theorem State.closeHostWindows_mem (s : State) (f : Nat → Bool) : (s.closeHostWindows f).mem = s.mem := by
  unfold State.closeHostWindows
  extract_lets ks s₁
  have h₁ : s₁.mem = s.mem := foldl_keeps State.mem (fun _ _ => by rfl) ks s
  exact (foldl_keeps State.mem (fun t h => by simp) _ s₁).trans h₁

@[simp] theorem State.discardRecords_mem (s : State) (f : Nat → Bool) : (s.discardRecords f).mem = s.mem := by
  simp [State.discardRecords]

@[simp] theorem State.busyFell_mem (s : State) (before : Bool) : (s.busyFell before).mem = s.mem := by
  simp [State.busyFell]

@[simp] theorem State.retarget_mem (s : State) : s.retarget.mem = s.mem := by simp [State.retarget]

@[simp] theorem State.powerWrite_mem (s : State) (v : Word) : (s.powerWrite v).mem = s.mem := by simp [State.powerWrite]

@[simp] theorem execPowerTarget_mem (v : Word) (s : State) : KeepsMem s (execPowerTarget v s) := by
  simp [execPowerTarget]

@[simp] theorem execDStateChange_mem (d3hot : Bool) (s : State) : KeepsMem s (execDStateChange d3hot s) := by
  simp [execDStateChange]

@[simp] theorem State.applyOpp_mem (s : State) : s.applyOpp.mem = s.mem := by simp [State.applyOpp]

@[simp] theorem State.powerStep_mem (s : State) : s.powerStep.mem = s.mem := by
  unfold State.powerStep
  split <;> simp

@[simp] theorem execPowerStateChange_mem (s : State) : KeepsMem s (execPowerStateChange s) := by
  simp [execPowerStateChange]

@[simp] theorem execFireboxSaveDone_mem (s : State) : KeepsMem s (execFireboxSaveDone s) := by
  simp [execFireboxSaveDone]

@[simp] theorem State.lodgeDown_mem (s : State) :
    s.lodgeDown.mem = s.mem := by
  simp [State.lodgeDown, foldl_keeps State.mem]

@[simp] theorem execLodgeReset_mem (cause : LodgeCause) (s : State) : KeepsMem s (execLodgeReset cause s) := by
  unfold execLodgeReset
  split <;> simp

@[simp] theorem execPerstRelease_mem (s : State) : KeepsMem s (execPerstRelease s) := by simp [execPerstRelease]

@[simp] theorem execLodgeLinkUp_mem (s : State) : KeepsMem s (execLodgeLinkUp s) := by simp [execLodgeLinkUp]

@[simp] theorem State.rcvStat_mem (s : State) (st code : Nat) : (s.rcvStat st code).mem = s.mem := by
  simp [State.rcvStat]

@[simp] theorem State.commitFile_mem (s : State) (f : RcvFile) (b : List Byte) : (s.commitFile f b).mem = s.mem := by
  simp [State.commitFile]

@[simp] theorem State.commitWrite_mem (s : State) (v : Word) : (s.commitWrite v).mem = s.mem := by
  unfold State.commitWrite
  (repeat' split) <;> simp

@[simp] theorem execRecoveryCommit_mem (v : Word) (s : State) : KeepsMem s (execRecoveryCommit v s) := by
  simp [execRecoveryCommit]

@[simp] theorem execRecoveryWriteDone_mem (ok : Bool) (s : State) : KeepsMem s (execRecoveryWriteDone ok s) := by
  unfold execRecoveryWriteDone
  split <;> simp

@[simp] theorem State.tftpRefuse_mem (s : State) : s.tftpRefuse.mem = s.mem := by simp [State.tftpRefuse]

@[simp] theorem execTftpWrite_mem (file : RcvFile) (data : List Byte) (s : State) :
    KeepsMem s (execTftpWrite file data s) := by simp [execTftpWrite]

@[simp] theorem execTftpRead_mem (s : State) : KeepsMem s (execTftpRead s) := by simp [execTftpRead]

@[simp] theorem State.takeIp_mem (s : State) (port : Nat) (ip : Word) : (s.takeIp port ip).mem = s.mem := by
  simp [State.takeIp]

@[simp] theorem execDhcpTimeout_mem (port : Nat) (s : State) : KeepsMem s (execDhcpTimeout port s) := by
  simp [execDhcpTimeout]

@[simp] theorem execDhcpReply_mem (port : Nat) (ip : Word) (s : State) : KeepsMem s (execDhcpReply port ip s) := by
  simp [execDhcpReply]

@[simp] theorem State.stage_mem (s : State) (recovery : Bool) (off : Nat) (bs : List Byte) :
    (s.stage recovery off bs).mem = s.mem := by simp [State.stage]

@[simp] theorem execStagingWrite_mem (recovery : Bool) (off : Nat) (data : List Byte) (s : State) :
    KeepsMem s (execStagingWrite recovery off data s) := by simp [execStagingWrite]

@[simp] theorem execRepairRecordWrite_mem (ok : Bool) (s : State) : KeepsMem s (execRepairRecordWrite ok s) := by
  simp [execRepairRecordWrite]

/-! ### Machine/Pins.lean -/

@[simp] theorem execI3cSetdasa_mem (addr : Nat) (s : State) : KeepsMem s (execI3cSetdasa addr s) := by
  simp [execI3cSetdasa]

@[simp] theorem execI3cEnecDisec_mem (enable : Bool) (s : State) : KeepsMem s (execI3cEnecDisec enable s) := by
  simp [execI3cEnecDisec]

@[simp] theorem State.i3cIndex_mem (s : State) (i : Nat) : (s.i3cIndex i).mem = s.mem := by simp [State.i3cIndex]

@[simp] theorem execI3cPrivateWrite_mem (index : Nat) (s : State) : KeepsMem s (execI3cPrivateWrite index s) := by
  simp [execI3cPrivateWrite]

@[simp] theorem execI3cPrivateRead_mem (len : Nat) (s : State) : KeepsMem s (execI3cPrivateRead len s) := by
  simp [execI3cPrivateRead]

@[simp] theorem execTrayResetWindowExpire_mem (s : State) : KeepsMem s (execTrayResetWindowExpire s) := by
  simp [execTrayResetWindowExpire]

@[simp] theorem State.alertClear_mem (s : State) (v : Word) : (s.alertClear v).mem = s.mem := by
  simp [State.alertClear, foldl_keeps State.mem]

@[simp] theorem execAlertClear_mem (b : Byte) (s : State) : KeepsMem s (execAlertClear b s) := by simp [execAlertClear]

@[simp] theorem State.alertMask_mem (s : State) (v : Word) : (s.alertMask v).mem = s.mem := by simp [State.alertMask]

@[simp] theorem State.sensed_mem (s : State) (n : Nat) (logic dram : Nat) : (s.sensed n logic dram).mem = s.mem := by
  simp [State.sensed]

@[simp] theorem State.raiseVoltage_mem (s : State) : s.raiseVoltage.mem = s.mem := by simp [State.raiseVoltage]

@[simp] theorem State.thermalStep_mem (s : State) : s.thermalStep.mem = s.mem := by simp [State.thermalStep]

@[simp] theorem execThermalDecision_mem (s : State) : KeepsMem s (execThermalDecision s) := by
  simp [execThermalDecision]

@[simp] theorem State.thermWrite_mem (s : State) (v : Word) : (s.thermWrite v).mem = s.mem := by simp [State.thermWrite]

@[simp] theorem execPwThermWrite_mem (v : Word) (s : State) : KeepsMem s (execPwThermWrite v s) := by
  simp [execPwThermWrite]

@[simp] theorem State.rail_mem (s : State) (r : Nat) (x : Option (Nat × Nat)) : (s.rail r x).mem = s.mem := by
  unfold State.rail
  split <;> simp

@[simp] theorem State.statusWords_mem (s : State) : s.statusWords.mem = s.mem := by
  unfold State.statusWords
  split
  · exact foldl_keeps State.mem (fun _ _ => by rfl) _ s
  · rfl

@[simp] theorem execPmbusScan_mem (readings : List (Option (Nat × Nat))) (s : State) :
    KeepsMem s (execPmbusScan readings s) := by simp [execPmbusScan, foldl_keeps State.mem]

@[simp] theorem execVrAlert_mem (low : Bool) (s : State) : KeepsMem s (execVrAlert low s) := by simp [execVrAlert]

@[simp] theorem execAvsNack_mem (resendOk : Bool) (s : State) : KeepsMem s (execAvsNack resendOk s) := by
  simp [execAvsNack]

@[simp] theorem execJtagInstruction_mem (code : Nat) (s : State) : KeepsMem s (execJtagInstruction code s) := by
  simp [execJtagInstruction]

/-! ### Machine/Boundary.lean -/

@[simp] theorem State.upsetScratch_mem (s : State) (c w : Nat) (ue : Bool) : (s.upsetScratch c w ue).mem = s.mem := by
  simp [State.upsetScratch]

@[simp] theorem State.slotBoundary_mem (s : State) (n : Nat) : (s.slotBoundary n).mem = s.mem := by
  unfold State.slotBoundary
  split
  · rfl
  extract_lets s₁ s₂
  have h₁ : s₁.mem = s.mem := foldl_keeps State.mem (fun _ _ => by rfl) _ s
  have h₂ : s₂.mem = s₁.mem := by simp only [s₂]; split <;> simp
  exact h₂.trans h₁

@[simp] theorem State.scrubStores_mem (s : State) : s.scrubStores.mem = s.mem := by simp [State.scrubStores]

@[simp] theorem State.recordsSeen_mem (s : State) :
    s.recordsSeen.mem = s.mem := by
  simp [State.recordsSeen, foldl_keeps State.mem]

@[simp] theorem State.scrubEvent_mem (s : State) (from_ : Nat) : (s.scrubEvent from_).mem = s.mem := by
  simp [State.scrubEvent]

@[simp] theorem State.meterEvent_mem (s : State) : s.meterEvent.mem = s.mem := by
  unfold State.meterEvent
  exact foldl_keeps State.mem (fun _ _ => by rfl) _ s

@[simp] theorem State.reportShared_mem (s : State) :
    s.reportShared.mem = s.mem := by
  simp [State.reportShared, foldl_keeps State.mem]

/-! ### Machine/FabricTime.lean -/

@[simp] theorem execRefReturn_mem (s : State) : KeepsMem s (execRefReturn s) := by simp [execRefReturn]

@[simp] theorem execUnitGate_mem (u : GateUnit) (s : State) : KeepsMem s (execUnitGate u s) := by simp [execUnitGate]

/-! ### Machine/HostAccess.lean -/

@[simp] theorem State.barRefused_mem (s : State) (fn why : Nat) : (s.barRefused fn why).mem = s.mem := by
  unfold State.barRefused
  extract_lets t
  have ht : t.mem = s.mem := by simp only [t]; split <;> simp
  rw [State.emit_mem, State.count_mem, State.setRegB_mem, ht]

@[simp] theorem State.hostGranule_mem (s : State) (c : Nat) (x : Nat × Nat) : (s.hostGranule c x).1.mem = s.mem := by
  simp only [State.hostGranule]
  (repeat' split) <;> simp

@[simp] theorem State.hostGranule256_mem (s : State) (x : Nat × Nat) : (s.hostGranule256 x).1.mem = s.mem := by
  unfold State.hostGranule256
  extract_lets n c
  rw [foldl_fst_mem]
  · simp
  · intro acc y; simp

@[simp] theorem State.hostBytes_mem (s : State) (a n : Nat) : (s.hostBytes a n).1.mem = s.mem := by
  unfold State.hostBytes
  split
  rename_i s₁ bs heq
  have h₁ : s₁.mem = s.mem := by
    have h := foldl_fst_mem (f := fun (acc : State × List Byte) x =>
      ((acc.1.hostGranule256 x).1, acc.2 ++ (acc.1.hostGranule256 x).2))
      (fun acc x => by simp) (cutsBy 256 a n) (s.opens a n, [])
    simpa [heq] using h
  extract_lets ps ue t
  have ht : t.mem = s₁.mem := foldl_keeps State.mem (fun t x => by simp) ps s₁
  split <;> exact ht.trans h₁

@[simp] theorem State.farWrite_mem (s : State) : s.farWrite.mem = s.mem := by simp [State.farWrite]

@[simp] theorem execFarWrite_mem (s : State) : KeepsMem s (execFarWrite s) := by simp [execFarWrite]

@[simp] theorem State.farRead_mem (s : State) : s.farRead.mem = s.mem := by simp [State.farRead]

@[simp] theorem execFarRead_mem (s : State) : KeepsMem s (execFarRead s) := by simp [execFarRead]

/-! ### Machine/Registers.lean -/

@[simp] theorem State.plainWrite_mem (s : State) (fn off : Nat) (v : Word) : (s.plainWrite fn off v).mem = s.mem := by
  unfold State.plainWrite
  split <;> simp

@[simp] theorem State.writeMT_mem (s : State) (off : Nat) (v : Word) : (s.writeMT off v).mem = s.mem := by
  unfold State.writeMT
  (repeat' split) <;> simp

@[simp] theorem State.writeEngines_mem (s : State) (off : Nat) (v : Word) : (s.writeEngines off v).mem = s.mem := by
  simp [State.writeEngines]

@[simp] theorem State.ringSetup_mem (s : State) (fn off : Nat) (v : Word) : (s.ringSetup fn off v).mem = s.mem := by
  simp [State.ringSetup]

@[simp] theorem State.writeCQ_mem (s : State) (fn off : Nat) (v : Word) : (s.writeCQ fn off v).mem = s.mem := by
  simp [State.writeCQ]

@[simp] theorem State.writeRT_mem (s : State) (fn off : Nat) (v : Word) : (s.writeRT fn off v).mem = s.mem := by
  unfold State.writeRT
  (repeat' split) <;> simp

@[simp] theorem State.writeSHP_mem (s : State) (fn off : Nat) (v : Word) : (s.writeSHP fn off v).mem = s.mem := by
  unfold State.writeSHP
  (repeat' split) <;> simp

@[simp] theorem State.setMpeer_mem (s : State) (v : Word × Word) :
    (s.setMpeer v).mem = s.mem := by
  simp [State.setMpeer]

@[simp] theorem State.writeFX_mem (s : State) (fn off : Nat) (v : Word) : (s.writeFX fn off v).mem = s.mem := by
  unfold State.writeFX
  (repeat' split) <;> simp

@[simp] theorem State.bar2Read_mem (s : State) (fn off : Nat) : (s.bar2Read fn off).1.mem = s.mem := by
  unfold State.bar2Read
  (repeat' split) <;> simp

/-! ### What acts on fabric time -/

@[simp] theorem State.setNow_mem (s : State) (t : Nat) : (s.setNow t).mem = s.mem := rfl
@[simp] theorem State.slewOnce_mem (s : State) : s.slewOnce.mem = s.mem := rfl
@[simp] theorem State.endSlew_mem (s : State) : s.endSlew.mem = s.mem := rfl
@[simp] theorem State.ftTakeUp_mem (s : State) : s.ftTakeUp.mem = s.mem := rfl
@[simp] theorem State.nowRead_mem (s : State) : s.nowRead.1.mem = s.mem := rfl

@[simp] theorem State.reachNs_mem (s : State) (n : Nat) : (s.reachNs n).mem = s.mem := by
  obtain ⟨ft, h⟩ := s.reachNs_eq n
  rw [h]

@[simp] theorem State.enterAdrift_mem (s : State) : s.enterAdrift.mem = s.mem := by
  unfold State.enterAdrift
  split <;> simp

@[simp] theorem State.holdAdrift_mem (s : State) : s.holdAdrift.mem = s.mem := by
  unfold State.holdAdrift
  split <;> simp

@[simp] theorem State.holdEvent_mem (s : State) : s.holdEvent.mem = s.mem := by
  unfold State.holdEvent
  split <;> simp

@[simp] theorem State.candidate_mem (s : State) (x : Cand) : (s.candidate x).mem = s.mem := by
  simp only [State.candidate]
  (repeat' split) <;> rfl

@[simp] theorem State.select_mem (s : State) : s.select.mem = s.mem := by
  simp only [State.select]
  (repeat' split) <;> rfl

@[simp] theorem State.ftCfgWrite_mem (s : State) (v : Word) : (s.ftCfgWrite v).mem = s.mem := by
  unfold State.ftCfgWrite
  extract_lets old sel t₁ t₂ t₃ ft
  have h₃ : t₃.mem = s.mem := by
    simp only [t₃]
    split <;> simp [t₂, t₁]
  split <;> simp [h₃]

@[simp] theorem State.srcIdWrite_mem (s : State) (v : Word) : (s.srcIdWrite v).mem = s.mem := by
  simp [State.srcIdWrite]

@[simp] theorem State.regRead_mem (s : State) (fn off : Nat) : (s.regRead fn off).1.mem = s.mem := by
  unfold State.regRead
  split
  · simp
  · extract_lets t
    have ht : t.mem = s.mem := by
      simp only [t]
      (repeat' split) <;> simp
    split
    · exact ht
    · split
      · split <;> simp [ht]
      · exact ht

/-! ### The commands -/

@[simp] theorem execStallEnd_mem (s : State) : KeepsMem s (execStallEnd s) := by
  rw [execStallEnd, keepsMem_next]
  split
  · exact s.reachNs_mem 2047
  · rfl

@[simp] theorem execAdriftEnter_mem (s : State) : KeepsMem s (execAdriftEnter s) :=
  (keepsMem_next ..).2 s.holdAdrift_mem

@[simp] theorem execRefLoss_mem (s : State) : KeepsMem s (execRefLoss s) := by simp [execRefLoss]

@[simp] theorem execSlew_mem (s : State) : KeepsMem s (execSlew s) := by
  rw [execSlew, keepsMem_next]
  split
  · rfl
  extract_lets s₁
  have h₁ : s₁.mem = s.mem := by
    simp only [s₁]
    split <;> simp
  split <;> simp [h₁]

@[simp] theorem execFtSrcIdWrite_mem (v : Word) (s : State) : KeepsMem s (execFtSrcIdWrite v s) := by
  simp [execFtSrcIdWrite]

@[simp] theorem execFtNowRead_mem (s : State) : KeepsMem s (execFtNowRead s) := by simp [execFtNowRead]

@[simp] theorem execCounterRead_mem (fn bar off : Nat) (s : State) : KeepsMem s (execCounterRead fn bar off s) := by
  rw [execCounterRead, keepsMem_next]
  split
  · rfl
  split
  · exact s.emit_mem _
  extract_lets r
  rw [State.emit_mem]
  simp only [r]
  (repeat' split) <;> simp

@[simp] theorem idle_mem (s : State) : KeepsMem s (idle s) := by
  rw [idle, keepsMem_next]
  (repeat' split) <;> rfl

end Sys2Proof.Machine

/-- The commands that may store bytes. -/
def Sys2Proof.Instr.stores : Sys2Proof.Instr → Bool
  | .beacon .. | .milestoneBoundary _ | .revocationDrainLimit _ | .ftSetGo _ | .hostRead .. | .hostWrite ..
  | .objectWindowWrite .. | .haul .. | .haulTile .. | .append _ | .appendRelease _ | .pageCode _ | .flueBurstEnd ..
  | .relocateBurst _ | .mergeResultSend .. | .bind _ | .unbindClear .. | .arrayOperation .. | .readResp ..
  | .packetPlace .. | .ortPacket .. | .release _ | .releaseScrub _ | .scrubVerify .. | .partitionReset _
  | .complementReread _ | .flitCrcFail _ | .wdogExpire | .probeResult _ | .rebuildImage .. | .powerOnReset _
  | .pwrGoodLow _ | .hold | .reboot _ | .preset _ | .engineReset .. | .partitionResetEnd _ | .functionLevelReset _
  | .vfEnable .. | .tftpReboot | .trayResetCommand _ | .thermtrip | .registerWrite .. => true
  | _ => false

namespace Sys2Proof.Machine

/-- Every other command leaves memory. -/
theorem exec_keepsMem {c : Instr} (h : c.stores = false) (s : State) : KeepsMem s (exec c s) := by
  cases c <;> cases h
  all_goals
    dsimp only [exec]
    simp

end Sys2Proof.Machine
end

section
/-!
PROOFS. Memory stays in its canonical form (R41): one lemma for each function of the model that stores bytes, or calls one
that does, file by file, and the step.
-/

namespace Sys2Proof.Machine

/-- A memory in the canonical form: rising addresses, and no byte listed that reads as an unlisted one. -/
def MemWf (m : List Host.Cell) : Prop := twf memDefault m = true

theorem State.memOk_iff (s : State) : s.memOk ↔ MemWf s.mem := Iff.rfl

@[simp] theorem memWf_nil : MemWf [] := rfl

@[simp] theorem memWf_ite (c : Prop) [Decidable c] (m n : List Host.Cell) :
    MemWf (if c then m else n) ↔ (c → MemWf m) ∧ (¬ c → MemWf n) := by
  split <;> simp [*]

@[simp] theorem memWf_storeMem {m : List Host.Cell} (h : MemWf m) (a : Nat) (bs : List Byte) : MemWf (storeMem m a bs) :=
  twf_storeMem m a bs h

@[simp] theorem memWf_tkeep {m : List Host.Cell} (h : MemWf m) (p : Nat → Bool) : MemWf (tkeep p m) :=
  twf_tkeep memDefault p h

/-- A fold whose every step keeps the canonical form keeps it. -/
theorem foldl_memWf {α : Type} {f : State → α → State} (hf : ∀ s a, MemWf s.mem → MemWf (f s a).mem) {s : State}
    (h : MemWf s.mem) (l : List α) : MemWf (l.foldl f s).mem := by
  induction l generalizing s with
  | nil => exact h
  | cons a l ih => exact ih (hf s a h)

/-- The same of a fold that carries more than the state. -/
theorem foldl_fst_memWf {α β : Type} {f : State × β → α → State × β} (hf : ∀ x a, MemWf x.1.mem → MemWf (f x a).1.mem)
    {x : State × β} (h : MemWf x.1.mem) (l : List α) : MemWf (l.foldl f x).1.mem := by
  induction l generalizing x with
  | nil => exact h
  | cons a l ih => exact ih (hf x a h)

/-- The outcome of a command holds a memory in the canonical form. -/
def LeavesMemWf (o : Host.Outcome State Fault Refusal) : Prop := ∀ t, o = .next t → MemWf t.mem

@[simp] theorem leavesMemWf_next (t : State) : LeavesMemWf (.next t) ↔ MemWf t.mem :=
  ⟨fun h => h t rfl, fun h u e => by cases e; exact h⟩

theorem KeepsMem.leavesMemWf {s : State} {o : Host.Outcome State Fault Refusal} (ho : KeepsMem s o) (h : MemWf s.mem) :
    LeavesMemWf o := fun t e => ho t e ▸ h

/-! ### Machine/Ops.lean and Machine/Operands.lean -/

@[simp] theorem State.store_memWf {s : State} (hm : MemWf s.mem) (a : Nat) (bs : List Byte) :
    MemWf (s.store a bs).mem := memWf_storeMem hm a bs

@[simp] theorem State.putEngine_memWf {s : State} (hm : MemWf s.mem) (wide : Bool) (part cmd a : Nat) (bs : List Byte) :
    MemWf (s.putEngine wide part cmd a bs).mem := memWf_storeMem hm a bs

@[simp] theorem State.codedWrite_memWf {s : State} (hm : MemWf s.mem) (part cmd a : Nat) (bs : List Byte) :
    MemWf (s.codedWrite part cmd a bs).mem := by
  simp [State.codedWrite, foldl_keeps State.mem, hm]

/-! ### Machine/Pages.lean -/

@[simp] theorem State.moveBytes_memWf {s : State} (hm : MemWf s.mem) (src dst n : Nat) :
    MemWf (s.moveBytes src dst n).mem := by
  simp only [State.moveBytes]
  refine foldl_memWf (fun t k ht => ?_) ?_ _
  · simp [ht]
  · simp [hm]

@[simp] theorem State.moveSlot_memWf {s : State} (hm : MemWf s.mem) (x : Slot) (dst : Nat) :
    MemWf (s.moveSlot x dst).mem := by
  simp [State.moveSlot, hm]

@[simp] theorem State.moveOn_memWf {s : State} (hm : MemWf s.mem) (m : Move) (n : Nat) : MemWf (s.moveOn m n).mem := by
  unfold State.moveOn
  split <;> simp [hm]

@[simp] theorem State.endMoves_memWf {s : State} (hm : MemWf s.mem) : MemWf s.endMoves.mem :=
  foldl_memWf (fun _ _ ht => State.moveOn_memWf ht _ _) hm _

@[simp] theorem State.compact_memWf {s : State} (hm : MemWf s.mem) (p : Nat) (r : Region) :
    MemWf (s.compact p r).mem := by
  refine foldl_fst_memWf (fun x a hx => ?_) hm _
  split <;> simp [hx]

theorem State.takeIn_memWf {s : State} {p need : Nat} {r : Region} {x : State × Nat} (hm : MemWf s.mem)
    (h : s.takeIn p need r = some x) : MemWf x.1.mem := by
  simp only [State.takeIn] at h
  split at h
  · cases h; exact hm
  · split at h
    · cases h
    · obtain ⟨a, -, rfl⟩ := Option.map_eq_some_iff.1 h
      exact State.compact_memWf hm p r

theorem State.takeFirst_memWf {s : State} {p need : Nat} {rs : List Region} {x : State × Nat × Nat} (hm : MemWf s.mem)
    (h : s.takeFirst p need rs = some x) : MemWf x.1.mem := by
  induction rs with
  | nil => cases h
  | cons r t ih =>
    rw [State.takeFirst] at h
    split at h
    case h_1 heq => cases h; exact State.takeIn_memWf hm heq
    case h_2 => exact ih h

@[simp] theorem State.makeRoom_memWf {s : State} (hm : MemWf s.mem) (p need : Nat) (r : Region)
    (others : List Region) : MemWf (s.makeRoom p need r others).mem := by
  unfold State.makeRoom
  split
  · exact hm
  · refine foldl_memWf (fun t x ht => ?_) hm _
    split
    · exact ht
    · split
      case h_1 heq => simp [State.takeFirst_memWf ht heq]
      case h_2 => exact ht

theorem State.takeArea_memWf {s : State} {p need area : Nat} {x : State × Nat × Nat} (hm : MemWf s.mem)
    (h : s.takeArea p need area = some x) : MemWf x.1.mem := by
  simp only [State.takeArea] at h
  split at h
  case h_1 heq => cases h; exact State.takeFirst_memWf hm heq
  case h_2 =>
    split at h
    · cases h
    · obtain ⟨r, -, hr⟩ := List.mem_filterMap.1 (List.mem_of_mem_head? h)
      obtain ⟨y, hy, rfl⟩ := Option.map_eq_some_iff.1 hr
      exact State.takeIn_memWf (State.makeRoom_memWf hm ..) hy

theorem State.allocAll_memWf {s t : State} {p : Nat} {use : SlotUse} {plan : List (Need × Option Nat)}
    {got got' : List Slot} (hm : MemWf s.mem) (h : s.allocAll p use plan got = .ok (t, got')) : MemWf t.mem := by
  induction plan generalizing s got with
  | nil => cases h; exact hm
  | cons x plan ih =>
    obtain ⟨n, area⟩ := x
    simp only [State.allocAll] at h
    split at h
    · cases h
    · split at h
      · cases h
      case h_2 heq => exact ih (by exact State.takeArea_memWf hm heq) h

@[simp] theorem State.allocate_memWf {s : State} (hm : MemWf s.mem) (p : Nat) (use : SlotUse) (needs : List Need) :
    MemWf (s.allocate p use needs).state.mem := by
  unfold State.allocate
  extract_lets s' plan total q areas noCap
  have hs : MemWf s'.mem := State.endMoves_memWf hm
  split
  · simp [noCap, hs]
  · split
    · split
      case h_1 heq => simp [State.allocAll_memWf hs heq]
      case h_2 => split <;> simp [hs]
    · simp [hs]

theorem State.allocate_got_memWf {s t : State} {p : Nat} {use : SlotUse} {needs : List Need} {xs : List Slot}
    (hm : MemWf s.mem) (h : s.allocate p use needs = .got t xs) : MemWf t.mem := by
  simpa [h] using State.allocate_memWf hm p use needs

theorem State.allocate_waits_memWf {s t : State} {p : Nat} {use : SlotUse} {needs : List Need} {us : List (Nat × Nat)}
    (hm : MemWf s.mem) (h : s.allocate p use needs = .waits t us) : MemWf t.mem := by
  simpa [h] using State.allocate_memWf hm p use needs

theorem State.allocate_fails_memWf {s t : State} {p : Nat} {use : SlotUse} {needs : List Need}
    (hm : MemWf s.mem) (h : s.allocate p use needs = .fails t) : MemWf t.mem := by
  simpa [h] using State.allocate_memWf hm p use needs

@[simp] theorem State.writePage_memWf {s : State} (hm : MemWf s.mem) (cmd : Nat) (x : Slot) (v : BitVec 256)
    (kScale vScale : Word) (k : Nat) (ks vs : List (List Byte)) :
    MemWf (s.writePage cmd x v kScale vScale k ks vs).mem := by
  simp only [State.writePage, ite_mem, ite_self]
  refine State.codedWrite_memWf (State.codedWrite_memWf (State.codedWrite_memWf ?_ ..) ..) ..
  split <;> simp [hm]

/-! ### Machine/Append.lean -/

@[simp] theorem State.writeHead_memWf {s : State} (hm : MemWf s.mem) (c : Cmd) (v : BitVec 256) (kv lo hi : Nat)
    (src : List (List Byte) × List (List Byte)) : MemWf (s.writeHead c v kv lo hi src).mem := by
  simp only [State.writeHead]
  refine foldl_memWf (fun t f ht => ?_) hm _
  split <;> simp [ht]

@[simp] theorem State.appendBody_memWf {s : State} (hm : MemWf s.mem) (c : Cmd) (v : BitVec 256) (held : Bool) :
    MemWf (s.appendBody c v held).mem := by
  unfold State.appendBody
  extract_lets d k pos hi pub n dim w replay rhi s₁ inline srcUE
  have h₁ : MemWf s₁.mem := State.endMoves_memWf hm
  split
  · simp [h₁]
  · split
    rename_i src s₂ heq
    have h₂ : MemWf s₂.mem := by
      split at heq
      · cases heq; exact h₁
      · rw [← s₁.readFor_mem (apSrc d) (apLen d), heq] at h₁
        exact h₁
    extract_lets pages ranges s₃ rows
    have h₃ : MemWf s₃.mem := foldl_memWf (fun t r ht => by simp [ht]) h₂ _
    split
    · simp [h₃]
    split
    · simp [h₃]
    split
    · simp [h₃]
    split
    · simp [h₃]
    split
    · simp [h₃]
    split
    · simp [h₃]
    split
    case h_1 ha => simp [State.allocate_fails_memWf h₃ ha]
    case h_2 ha => simp [State.allocate_waits_memWf h₃ ha]
    case h_3 ha =>
      simp only [State.endAppend_mem, State.forwardAppend_mem, State.heatBuilt_mem, State.setDir_mem]
      exact foldl_memWf (fun t r ht => by simp [ht]) (State.allocate_got_memWf h₃ ha) _

@[simp] theorem State.appendStart_memWf {s : State} (hm : MemWf s.mem) (c : Cmd) (arrived : Nat) :
    MemWf (s.appendStart c arrived).mem := by
  simp [State.appendStart, hm]

@[simp] theorem execAppend_memWf (cmd : Nat) {s : State} (hm : MemWf s.mem) : LeavesMemWf (execAppend cmd s) := by
  unfold execAppend
  split <;> simp [hm]

@[simp] theorem execAppendRelease_memWf (cmd : Nat) {s : State} (hm : MemWf s.mem) :
    LeavesMemWf (execAppendRelease cmd s) := by
  simp only [execAppendRelease]
  (repeat' split) <;> simp [hm]

@[simp] theorem execPageCode_memWf (page : PageRef) {s : State} (hm : MemWf s.mem) :
    LeavesMemWf (execPageCode page s) := by
  simp only [execPageCode, leavesMemWf_next]
  split
  · split
    · split
      · exact hm
      · split
        · exact hm
        · split
          · simp [hm]
          · split
            · simp [hm]
            · split
              · simp [hm]
              case h_2 heq =>
                have ht := State.takeArea_memWf (by simp [hm]) heq
                split <;> simp [ht]
    · exact hm
  · exact hm

/-! ### Machine/Haul.lean -/

@[simp] theorem State.haulWrite_memWf {s : State} (hm : MemWf s.mem) (c : Cmd) (h : Haul) (off : Nat) (bs : List Byte) :
    MemWf (s.haulWrite c h off bs).1.mem := by
  simp only [State.haulWrite]
  (repeat' split) <;> simp -implicitDefEqProofs [hm]

@[simp] theorem State.haulMove_memWf {s : State} (hm : MemWf s.mem) (c : Cmd) (h : Haul) (n : Nat)
    (hostData : List Byte) :
    MemWf (s.haulMove c h n hostData).1.mem := by
  simp only [State.haulMove]
  (repeat' split) <;> simp -implicitDefEqProofs [hm]

@[simp] theorem execHaul_memWf (cmd : Nat) (hostData : List Byte) {s : State} (hm : MemWf s.mem) :
    LeavesMemWf (execHaul cmd hostData s) := by
  unfold execHaul
  split <;> simp -implicitDefEqProofs [hm]

@[simp] theorem execHaulTile_memWf (cmd : Nat) (hostData : List Byte) {s : State} (hm : MemWf s.mem) :
    LeavesMemWf (execHaulTile cmd hostData s) := by
  unfold execHaulTile
  split <;> simp -implicitDefEqProofs [hm]

@[simp] theorem State.haulArrive_memWf {s : State} (hm : MemWf s.mem) (i msg off : Nat) (bs : List Byte) :
    MemWf (s.haulArrive i msg off bs).mem := by
  unfold State.haulArrive
  (repeat' split) <;> simp -implicitDefEqProofs [hm]

/-! ### Machine/Flue.lean -/

@[simp] theorem State.rowOne_memWf {s : State} (hm : MemWf s.mem) (c : Cmd) (j : RowJob) (col i : Nat) :
    MemWf (s.rowOne c j col i).1.mem := by
  unfold State.rowOne
  extract_lets d srcs dst s₁ s₂ out units s₃ s₄ s₅
  have h₁ : MemWf s₁.mem := by simp [s₁, foldl_keeps State.mem, hm]
  have h₂ : MemWf s₂.mem := by
    simp only [s₂]
    split <;> simp [foldl_keeps State.mem, h₁]
  have h₃ : MemWf s₃.mem := memWf_storeMem h₂ ..
  have h₄ : MemWf s₄.mem := by
    simp only [s₄]
    split <;> simp [h₃]
  have h₅ : MemWf s₅.mem := by
    simp only [s₅]
    split <;> simp [h₄]
  split
  · simp [foldl_keeps State.mem, h₁]
  · exact h₅

@[simp] theorem State.rowBurst_memWf {s : State} (hm : MemWf s.mem) (c : Cmd) (j : RowJob) (col : Nat) :
    MemWf (s.rowBurst c j col).mem := by
  unfold State.rowBurst
  extract_lets d s₁ mine held
  have h₁ : MemWf s₁.mem := hm
  split
  · simp [h₁]
  · split
    rename_i t k hrun
    have ht : MemWf t.mem := by
      have h := foldl_fst_memWf (f := fun (acc : State × RowJob) i =>
          if acc.2.left.contains i then acc.1.rowOne c acc.2 col i else acc)
        (fun x i hx => by split <;> simp [hx]) (x := (s₁.stageRows d col mine, j)) (by simp [h₁]) mine
      rwa [hrun] at h
    split <;> simp [ht]

@[simp] theorem State.nextBurst_memWf {s : State} (hm : MemWf s.mem) (col : Nat) : MemWf (s.nextBurst col).mem := by
  unfold State.nextBurst
  (repeat' split) <;> simp -implicitDefEqProofs [hm]

@[simp] theorem execFlueBurstEnd_memWf (col waitNs : Nat) {s : State} (hm : MemWf s.mem) :
    LeavesMemWf (execFlueBurstEnd col waitNs s) := by
  simp -implicitDefEqProofs [execFlueBurstEnd, hm]

@[simp] theorem State.hostTurn_memWf {s : State} (hm : MemWf s.mem) (col : Nat) :
    MemWf (s.hostTurn col).mem := by
  simp -implicitDefEqProofs [State.hostTurn, hm]

@[simp] theorem State.hostTurns_memWf {s : State} (hm : MemWf s.mem) (a n : Nat) : MemWf (s.hostTurns a n).mem := by
  simp +contextual -implicitDefEqProofs [State.hostTurns, foldl_memWf, hm]

@[simp] theorem State.unitRaw_memWf {s : State} (hm : MemWf s.mem) (k : Nat) : MemWf (s.unitRaw k).mem := by
  unfold State.unitRaw
  split <;> simp -implicitDefEqProofs [hm]

@[simp] theorem State.rowsRaw_memWf {s : State} (hm : MemWf s.mem) (rs : List Nat) : MemWf (s.rowsRaw rs).mem := by
  simp +contextual -implicitDefEqProofs [State.rowsRaw, foldl_memWf, hm]

@[simp] theorem execRelocateBurst_memWf (col : Nat) {s : State} (hm : MemWf s.mem) :
    LeavesMemWf (execRelocateBurst col s) := by
  unfold execRelocateBurst
  (repeat' split) <;> simp -implicitDefEqProofs [hm]

/-! ### Machine/Merge.lean -/

@[simp] theorem State.sendResult_memWf {s : State} (hm : MemWf s.mem) (m : Merge)
    (status level first snapshot : Nat) (tail : Bool)
    (hs : List Head) (miss : List (Nat × Nat)) :
    MemWf (s.sendResult m status level first snapshot tail hs miss).mem := by
  simp only [State.sendResult]
  (repeat' split) <;> simp -implicitDefEqProofs [hm]

@[simp] theorem State.reportMerge_memWf {s : State} (hm : MemWf s.mem) (m : Merge) (status : Nat) (miss : List
    (Nat × Nat)) :
    MemWf (s.reportMerge m status miss).mem := by simp -implicitDefEqProofs [State.reportMerge, hm]

@[simp] theorem State.finishMerge_memWf {s : State} (hm : MemWf s.mem) (m : Merge) (dist : Nat) :
    MemWf (s.finishMerge m dist).mem := by
  simp only [State.finishMerge]
  (repeat' split) <;> simp +contextual -implicitDefEqProofs [foldl_memWf, hm]

@[simp] theorem execMergeResultSend_memWf (cmd mergeFails : Nat) {s : State} (hm : MemWf s.mem) :
    LeavesMemWf (execMergeResultSend cmd mergeFails s) := by
  unfold execMergeResultSend
  split <;> simp -implicitDefEqProofs [hm]

/-! ### Machine/Attend.lean -/

@[simp] theorem State.dispatchReq_memWf {s : State} (hm : MemWf s.mem) (r : Req) : MemWf (s.dispatchReq r).mem := by
  simp only [State.dispatchReq]
  split
  · simp [hm]
  · split
    · simp [hm]
    · split
      · simp [hm]
      · split
        · simp [hm]
        case h_2 hb =>
          rw [foldl_keeps State.mem (fun t w => by simp), foldl_keeps State.mem (fun t j => by simp)]
          split at hb
          · cases hb; simp [hm]
          · have hx := State.reserveBlks_mem hb
            simp only [State.dirSeen_mem] at hx
            simp only [State.setPlan_mem, State.setReq_mem, hx]
            exact State.endMoves_memWf hm

@[simp] theorem State.strideDispatch_memWf {s : State} (hm : MemWf s.mem) : MemWf s.strideDispatch.mem := by
  simp +contextual -implicitDefEqProofs [State.strideDispatch, foldl_memWf, hm]

/-! ### Machine/Kindle.lean -/

@[simp] theorem State.writeKindled_memWf {s : State} (hm : MemWf s.mem) (k : Kindle) (v : BitVec 256) (x : Slot) :
    MemWf (s.writeKindled k v x).1.mem := by
  simp only [State.writeKindled]
  (repeat' split) <;> simp -implicitDefEqProofs [hm]

@[simp] theorem State.writeLayer_memWf {s : State} (hm : MemWf s.mem) (k : Kindle) : MemWf (s.writeLayer k).1.mem := by
  unfold State.writeLayer
  split
  · exact hm
  rename_i v _
  extract_lets needs
  split
  · exact hm
  split
  · exact hm
  split
  case h_1 ha => exact State.allocate_fails_memWf hm ha
  case h_2 ha => exact State.allocate_waits_memWf hm ha
  case h_3 t got ha =>
    extract_lets r
    have hr : MemWf r.1.mem :=
      foldl_fst_memWf (fun x a hx => by simp [hx]) (x := (t, true)) (State.allocate_got_memWf hm ha) got
    split <;> exact hr

@[simp] theorem State.stageDone_memWf {s : State} (hm : MemWf s.mem) (m : Image) (k : Kindle) :
    MemWf (s.stageDone m k).1.mem := by
  simp only [State.stageDone]
  (repeat' split) <;> simp -implicitDefEqProofs [hm]

@[simp] theorem State.streamRows_memWf {s : State} (hm : MemWf s.mem) (m : Image) (k : Kindle)
    (call : Nat × Nat × Nat) (rows : Nat) :
    MemWf (s.streamRows m k call rows).1.mem := by
  simp only [State.streamRows]
  (repeat' split) <;> simp -implicitDefEqProofs [hm]

@[simp] theorem State.workWritten_memWf {s : State} (hm : MemWf s.mem) (k : Kindle) : MemWf (s.workWritten k).mem := by
  simp -implicitDefEqProofs [State.workWritten, hm]

@[simp] theorem execArrayOperation_memWf (part rows : Nat) {s : State} (hm : MemWf s.mem) :
    LeavesMemWf (execArrayOperation part rows s) := by
  simp only [execArrayOperation]
  (repeat' split) <;> simp -implicitDefEqProofs [hm]

/-! ### Machine/Bind.lean -/

@[simp] theorem State.bindPayload_memWf {s : State} (hm : MemWf s.mem) (c : Cmd) (img key : List Byte) :
    MemWf (s.bindPayload c img key).mem := by
  unfold State.bindPayload
  extract_lets so dO
  have h := s.bindRead_mem (objBase so + imCipherAt img) (imPayLen img)
  split
  · simp_all
  · split <;> simp_all

@[simp] theorem State.bindImage_memWf {s : State} (hm : MemWf s.mem) (c : Cmd) (n : Nat) (img : List Byte) :
    MemWf (s.bindImage c n img).mem := by
  unfold State.bindImage
  (repeat' split) <;> simp -implicitDefEqProofs [hm]

@[simp] theorem execBind_memWf (cmd : Nat) {s : State} (hm : MemWf s.mem) : LeavesMemWf (execBind cmd s) := by
  unfold execBind
  rw [leavesMemWf_next]
  split
  · exact hm
  rename_i c _
  split
  · exact hm
  extract_lets s₁
  have h₁ := s₁.bindHead_mem c
  split
  case h_2 => simp_all [s₁]
  rename_i s₂ hh
  extract_lets so n
  have h₂ := s₂.bindRead_mem (objBase so) (min n 448)
  split
  · simp_all [s₁]
  rename_i hd s₃ _
  extract_lets more
  have h₃ := s₃.bindRead_mem (objBase so) more
  split <;> simp_all [s₁]

@[simp] theorem State.unbindSlot_memWf {s : State} (hm : MemWf s.mem) (m : Image) (cmd : Nat) :
    MemWf (s.unbindSlot m cmd).mem := by
  simp -implicitDefEqProofs [State.unbindSlot, hm]

@[simp] theorem execUnbindClear_memWf (part slot : Nat) {s : State} (hm : MemWf s.mem) :
    LeavesMemWf (execUnbindClear part slot s) := by
  unfold execUnbindClear
  split <;> simp +contextual -implicitDefEqProofs [foldl_memWf, hm]

/-! ### Machine/Waykeys.lean -/

@[simp] theorem State.abandonedWrite_memWf {s : State} (hm : MemWf s.mem) (part cmd a : Nat) (bs : List Byte) :
    MemWf (s.abandonedWrite part cmd a bs).mem := by
  simp +contextual -implicitDefEqProofs [State.abandonedWrite, foldl_memWf, hm]

/-! ### Machine/Rx.lean -/

@[simp] theorem State.writeDone_memWf {s : State} (hm : MemWf s.mem) (m : RxMsg) :
    MemWf (s.writeDone m).mem := by
  simp -implicitDefEqProofs [State.writeDone, hm]

@[simp] theorem State.visible_memWf {s : State} (hm : MemWf s.mem) (i : Nat) (m : RxMsg) :
    MemWf (s.visible i m).mem := by
  unfold State.visible
  (repeat' split) <;> simp -implicitDefEqProofs [hm]

@[simp] theorem State.frontierOn_memWf {s : State} (hm : MemWf s.mem) (i n : Nat) : MemWf (s.frontierOn i n).mem := by
  induction n generalizing s with
  | zero => exact hm
  | succ n ih =>
    simp only [State.frontierOn]
    split
    · exact ih (by simp -implicitDefEqProofs [hm])
    · exact hm

@[simp] theorem State.advance_memWf {s : State} (hm : MemWf s.mem) (i : Nat) :
    MemWf (s.advance i).mem := by
  simp -implicitDefEqProofs [State.advance, hm]

@[simp] theorem State.failMsg_memWf {s : State} (hm : MemWf s.mem) (i : Nat) (o : Ort) (msg : Nat) :
    MemWf (s.failMsg i o msg).mem := by
  simp -implicitDefEqProofs [State.failMsg, hm]

@[simp] theorem State.refusePkt_memWf {s : State} (hm : MemWf s.mem) (i : Nat) (o : Ort) (psn reason : Nat) :
    MemWf (s.refusePkt i o psn reason).mem := by simp -implicitDefEqProofs [State.refusePkt, hm]

@[simp] theorem execReadResp_memWf (conn msg off : Nat) (data : List Byte) {s : State} (hm : MemWf s.mem) :
    LeavesMemWf (execReadResp conn msg off data s) := by simp -implicitDefEqProofs [execReadResp, hm]

@[simp] theorem State.placePkt_memWf {s : State} (hm : MemWf s.mem) (i : Nat) (k : Placing) :
    MemWf (s.placePkt i k).mem := by
  simp only [State.placePkt]
  (repeat' split) <;> simp -implicitDefEqProofs [hm]

@[simp] theorem execPacketPlace_memWf (conn psn : Nat) {s : State} (hm : MemWf s.mem) :
    LeavesMemWf (execPacketPlace conn psn s) := by
  unfold execPacketPlace
  split <;> simp -implicitDefEqProofs [hm]

@[simp] theorem State.wkDrain_memWf {s : State} (hm : MemWf s.mem) (i : Nat) : MemWf (s.wkDrain i).mem := by
  simp only [State.wkDrain]
  split
  · refine foldl_memWf (fun t k ht => State.advance_memWf ht k) ?_ _
    rw [State.wkRevoked_mem]
    refine foldl_memWf (fun t x ht => ?_) hm _
    rw [State.setConn_mem]
    split <;> split <;> simp -implicitDefEqProofs [ht]
  · exact hm

@[simp] theorem execRevocationDrainLimit_memWf (key : Nat) {s : State} (hm : MemWf s.mem) :
    LeavesMemWf (execRevocationDrainLimit key s) := by
  simp -implicitDefEqProofs [execRevocationDrainLimit, hm]

@[simp] theorem State.drainLimits_memWf {s : State} (hm : MemWf s.mem) :
    MemWf s.drainLimits.mem := by
  simp +contextual -implicitDefEqProofs [State.drainLimits, foldl_memWf, hm]

@[simp] theorem State.checked_memWf {s : State} (hm : MemWf s.mem) (i : Nat) (o : Ort) : MemWf (s.checked i o).mem := by
  simp -implicitDefEqProofs [State.checked, hm]

@[simp] theorem State.connPkt_memWf {s : State} (hm : MemWf s.mem) (o : Ort) (src : List Byte) (ce : Bool) :
    MemWf (s.connPkt o src ce).mem := by simp -implicitDefEqProofs [State.connPkt, hm]

@[simp] theorem State.frameIn_memWf {s : State} (hm : MemWf s.mem) (l : Nat) (f : List Byte) (fcsOk : Bool) :
    MemWf (s.frameIn l f fcsOk).mem := by
  unfold State.frameIn
  split <;> simp -implicitDefEqProofs [hm]

@[simp] theorem execOrtPacket_memWf (lport : Nat) (frame : List Byte) (fcsOk : Bool) {s : State} (hm : MemWf s.mem) :
    LeavesMemWf (execOrtPacket lport frame fcsOk s) := by simp -implicitDefEqProofs [execOrtPacket, hm]

/-! ### Machine/Endings.lean -/

@[simp] theorem State.cutCmd_memWf {s : State} (hm : MemWf s.mem) (c : Cmd) (status reason : Nat) :
    MemWf (s.cutCmd c status reason).mem := by
  simp only [State.cutCmd]
  (repeat' split) <;> simp -implicitDefEqProofs [hm]

@[simp] theorem State.cutCmds_memWf {s : State} (hm : MemWf s.mem) (f : Cmd → Bool) (status reason : Nat) :
    MemWf (s.cutCmds f status reason).mem := by simp +contextual -implicitDefEqProofs [State.cutCmds, foldl_memWf, hm]

@[simp] theorem State.enterHeld_memWf {s : State} (hm : MemWf s.mem) (cause : Nat) : MemWf (s.enterHeld cause).mem := by
  simp -implicitDefEqProofs [State.enterHeld, hm]

@[simp] theorem State.sharedFault_memWf {s : State} (hm : MemWf s.mem) (cause : Nat) :
    MemWf (s.sharedFault cause).mem := by
  simp -implicitDefEqProofs [State.sharedFault, hm]

/-! ### Machine/Partitions.lean -/

@[simp] theorem State.releaseBegin_memWf {s : State} (hm : MemWf s.mem) (p : Nat) :
    MemWf (s.releaseBegin p).mem := by
  unfold State.releaseBegin
  extract_lets src s₁ mine s₂ keys s₃
  have h₂ : MemWf s₂.mem := foldl_memWf (fun t i ht => by simp [ht]) (by exact hm) mine
  have h₃ : MemWf s₃.mem := foldl_memWf (fun t i ht => by simp [ht]) h₂ keys
  exact State.cutCmds_memWf h₃ ..

@[simp] theorem State.release_memWf {s : State} (hm : MemWf s.mem) (p : Nat) :
    MemWf (s.release p).mem := by
  simp -implicitDefEqProofs [State.release, hm]

@[simp] theorem execRelease_memWf (part : Nat) {s : State} (hm : MemWf s.mem) :
    LeavesMemWf (execRelease part s) := by
  simp -implicitDefEqProofs [execRelease, hm]

@[simp] theorem State.wipe_memWf {s : State} (hm : MemWf s.mem) (own : Nat → Bool) :
    MemWf (s.wipe own).mem := by
  simp -implicitDefEqProofs [State.wipe, hm]

@[simp] theorem State.scrubPart_memWf {s : State} (hm : MemWf s.mem) (p : Nat) :
    MemWf (s.scrubPart p).mem := by
  simp -implicitDefEqProofs [State.scrubPart, hm]

@[simp] theorem execReleaseScrub_memWf (part : Nat) {s : State} (hm : MemWf s.mem) :
    LeavesMemWf (execReleaseScrub part s) := by
  simp -implicitDefEqProofs [execReleaseScrub, hm]

@[simp] theorem execScrubVerify_memWf (part : Nat) (failed : Bool) {s : State} (hm : MemWf s.mem) :
    LeavesMemWf (execScrubVerify part failed s) := by
  unfold execScrubVerify
  rw [leavesMemWf_next]
  split
  · exact hm
  split
  rename_i s₁ dirty heq
  extract_lets s₂ mine none s₃ s₄
  have h₁ : MemWf s₁.mem := by rwa [← s.readBack_mem part, heq] at hm
  have h₂ : MemWf s₂.mem := by
    simp only [s₂]
    split <;> simp [h₁]
  have h₃ : MemWf s₃.mem := foldl_memWf (fun _ _ _ => by simpa) h₂ mine
  split <;> simp [s₄, h₃]

/-! ### Machine/Faults.lean -/

@[simp] theorem State.failedGranule_memWf {s : State} (hm : MemWf s.mem) (p a : Nat) :
    MemWf (s.failedGranule p a).mem := by
  unfold State.failedGranule
  split <;> simp -implicitDefEqProofs [hm]

@[simp] theorem State.resetPart_memWf {s : State} (hm : MemWf s.mem) (p : Nat) :
    MemWf (s.resetPart p).mem := by
  simp -implicitDefEqProofs [State.resetPart, hm]

@[simp] theorem execPartitionReset_memWf (addr : Nat) {s : State} (hm : MemWf s.mem) :
    LeavesMemWf (execPartitionReset addr s) := by
  unfold execPartitionReset
  (repeat' split) <;> simp -implicitDefEqProofs [hm]

@[simp] theorem State.entryLost_memWf {s : State} (hm : MemWf s.mem) (k : DirKey) :
    MemWf (s.entryLost k).mem := by
  simp -implicitDefEqProofs [State.entryLost, hm]

@[simp] theorem State.persists_memWf {s : State} (hm : MemWf s.mem) (r : RecRef) : MemWf (s.persists r).mem := by
  unfold State.persists
  split <;> simp -implicitDefEqProofs [hm]

@[simp] theorem execComplementReread_memWf (r : RecRef) {s : State} (hm : MemWf s.mem) :
    LeavesMemWf (execComplementReread r s) := by
  unfold execComplementReread
  split <;> simp -implicitDefEqProofs [hm]

@[simp] theorem execFlitCrcFail_memWf (link : Nat) {s : State} (hm : MemWf s.mem) :
    LeavesMemWf (execFlitCrcFail link s) := by
  simp -implicitDefEqProofs [execFlitCrcFail, hm]

@[simp] theorem execWdogExpire_memWf {s : State} (hm : MemWf s.mem) :
    LeavesMemWf (execWdogExpire s) := by
  simp -implicitDefEqProofs [execWdogExpire, hm]

@[simp] theorem State.unitFault_memWf {s : State} (hm : MemWf s.mem) (r : ProbeRun) :
    MemWf (s.unitFault r).mem := by
  simp -implicitDefEqProofs [State.unitFault, hm]

@[simp] theorem execProbeResult_memWf (output : List Byte) {s : State} (hm : MemWf s.mem) :
    LeavesMemWf (execProbeResult output s) := by
  unfold execProbeResult
  (repeat' split) <;> simp -implicitDefEqProofs [hm]

/-! ### Machine/Leases.lean -/

@[simp] theorem State.placeImage_memWf {s : State} (hm : MemWf s.mem) (x : Slot) (g : PageImage) :
    MemWf (s.placeImage x g).mem := by
  simp -implicitDefEqProofs [State.placeImage, hm]

@[simp] theorem State.mergeImage_memWf {s : State} (hm : MemWf s.mem) (x : Slot) (g : PageImage) :
    MemWf (s.mergeImage x g).mem := by
  simp -implicitDefEqProofs [State.mergeImage, hm]

@[simp] theorem State.rebuildUnit_memWf {s : State} (hm : MemWf s.mem) (p : Nat) (r : Rebuild) (span : Nat)
    (pages : List (Nat × Nat × List Byte)) : MemWf (s.rebuildUnit p r span pages).mem := by
  unfold State.rebuildUnit
  extract_lets got want all got' here new
  split
  · simp [hm]
  split
  case h_1 ha => simp [State.allocate_fails_memWf hm ha]
  case h_2 ha => simp [State.allocate_waits_memWf hm ha]
  case h_3 t _ ha =>
    extract_lets t₁ t₂ t₃
    have h₁ : MemWf t₁.mem := by
      refine foldl_memWf (fun u g hu => ?_) (State.allocate_got_memWf hm ha) got'
      split
      · exact hu
      · split <;> simp [hu]
    simp [t₃, t₂, h₁]

@[simp] theorem execRebuildImage_memWf (fn : Nat) (img : RbImage) {s : State} (hm : MemWf s.mem) :
    LeavesMemWf (execRebuildImage fn img s) := by
  simp only [execRebuildImage]
  (repeat' split) <;> simp -implicitDefEqProofs [hm]

/-! ### Machine/Boot.lean -/

@[simp] theorem State.bootScrub_memWf {s : State} (hm : MemWf s.mem) (new : List (BitVec 512)) :
    MemWf (s.bootScrub new).mem := by
  simp only [State.bootScrub]
  (repeat' split) <;> simp -implicitDefEqProofs [hm]

@[simp] theorem State.bootCharter_memWf {s : State} (hm : MemWf s.mem) (env : BootEnv) :
    MemWf (s.bootCharter env).mem := by
  simp only [State.bootCharter]
  (repeat' split) <;> simp -implicitDefEqProofs [hm]

@[simp] theorem State.bootTrain_memWf {s : State} (hm : MemWf s.mem) (env : BootEnv) : MemWf (s.bootTrain env).mem := by
  unfold State.bootTrain
  split <;> simp -implicitDefEqProofs [hm]

@[simp] theorem State.bootIdentity_memWf {s : State} (hm : MemWf s.mem) (env : BootEnv) :
    MemWf (s.bootIdentity env).mem := by
  simp -implicitDefEqProofs [State.bootIdentity, hm]

@[simp] theorem State.bootFirmware_memWf {s : State} (hm : MemWf s.mem) (env : BootEnv) :
    MemWf (s.bootFirmware env).mem := by
  simp -implicitDefEqProofs [State.bootFirmware, hm]

@[simp] theorem execPowerOnReset_memWf (env : BootEnv) {s : State} (hm : MemWf s.mem) :
    LeavesMemWf (execPowerOnReset env s) := by
  simp -implicitDefEqProofs [execPowerOnReset, hm]

/-! ### Machine/Life.lean -/

@[simp] theorem State.toHold_memWf {s : State} (hm : MemWf s.mem) :
    MemWf s.toHold.mem := by
  simp -implicitDefEqProofs [State.toHold, hm]

@[simp] theorem execHold_memWf {s : State} (hm : MemWf s.mem) :
    LeavesMemWf (execHold s) := by
  simp -implicitDefEqProofs [execHold, hm]

@[simp] theorem execPreset_memWf (part : Nat) {s : State} (hm : MemWf s.mem) :
    LeavesMemWf (execPreset part s) := by
  simp -implicitDefEqProofs [execPreset, hm]

@[simp] theorem State.engineResetWrite_memWf {s : State} (hm : MemWf s.mem) (fn : Nat) (v : Word) :
    MemWf (s.engineResetWrite fn v).mem := by
  simp -implicitDefEqProofs [State.engineResetWrite, hm]

@[simp] theorem execEngineReset_memWf (fn : Nat) (v : Word) {s : State} (hm : MemWf s.mem) :
    LeavesMemWf (execEngineReset fn v s) := by
  simp -implicitDefEqProofs [execEngineReset, hm]

@[simp] theorem execPartitionResetEnd_memWf (part : Nat) {s : State} (hm : MemWf s.mem) :
    LeavesMemWf (execPartitionResetEnd part s) := by
  simp -implicitDefEqProofs [execPartitionResetEnd, hm]

@[simp] theorem State.vfReset_memWf {s : State} (hm : MemWf s.mem) (p : Nat) :
    MemWf (s.vfReset p).mem := by
  simp -implicitDefEqProofs [State.vfReset, hm]

@[simp] theorem execFunctionLevelReset_memWf (fn : Nat) {s : State} (hm : MemWf s.mem) :
    LeavesMemWf (execFunctionLevelReset fn s) := by
  simp +contextual -implicitDefEqProofs [execFunctionLevelReset, foldl_memWf, hm]

@[simp] theorem execVfEnable_memWf (numVfs : Nat) (enable : Bool) {s : State} (hm : MemWf s.mem) :
    LeavesMemWf (execVfEnable numVfs enable s) := by
  simp +contextual -implicitDefEqProofs [execVfEnable, foldl_memWf, hm]

/-! ### Machine/Boundary.lean -/

@[simp] theorem State.upsetPair_memWf {s : State} (hm : MemWf s.mem) (r : RecRef) (copies : Nat) :
    MemWf (s.upsetPair r copies).mem := by
  unfold State.upsetPair
  (repeat' split) <;> simp -implicitDefEqProofs [hm]

@[simp] theorem State.upsetSector_memWf {s : State} (hm : MemWf s.mem) (a : Nat) (ue : Bool) :
    MemWf (s.upsetSector a ue).mem := by
  simp -implicitDefEqProofs [State.upsetSector, hm]

@[simp] theorem State.upset_memWf {s : State} (hm : MemWf s.mem) (u : Upset) : MemWf (s.upset u).mem := by
  unfold State.upset
  split <;> simp -implicitDefEqProofs [hm]

@[simp] theorem State.strideEvent_memWf {s : State} (hm : MemWf s.mem) : MemWf s.strideEvent.mem := by
  unfold State.strideEvent
  split
  · exact State.strideDispatch_memWf (by simp [foldl_keeps State.mem, hm])
  · exact hm

/-! ### Machine/HostAccess.lean -/

@[simp] theorem execHostRead_memWf (fn off len : Nat) (atomicOp : Bool) {s : State} (hm : MemWf s.mem) :
    LeavesMemWf (execHostRead fn off len atomicOp s) := by simp -implicitDefEqProofs [execHostRead, hm]

@[simp] theorem State.hostStore_memWf {s : State} (hm : MemWf s.mem) (a : Nat) (bs : List Byte) :
    MemWf (s.hostStore a bs).mem := by
  simp -implicitDefEqProofs [State.hostStore, hm]

@[simp] theorem State.hostPut_memWf {s : State} (hm : MemWf s.mem) (a : Nat) (bs : List Byte) :
    MemWf (s.hostPut a bs).mem := by
  simp +contextual -implicitDefEqProofs [State.hostPut, foldl_memWf, hm]

@[simp] theorem execHostWrite_memWf (fn off : Nat) (data : List Byte) (atomicOp : Bool) {s : State} (hm : MemWf s.mem) :
    LeavesMemWf (execHostWrite fn off data atomicOp s) := by simp -implicitDefEqProofs [execHostWrite, hm]

@[simp] theorem State.objChange_memWf {s : State} (hm : MemWf s.mem) (p i : Nat) (v : BitVec 256) :
    MemWf (s.objChange p i v).mem := by
  simp -implicitDefEqProofs [State.objChange, hm]

@[simp] theorem State.objCommit_memWf {s : State} (hm : MemWf s.mem) (p i : Nat) (v : BitVec 256) :
    MemWf (s.objCommit p i v).mem := by
  simp -implicitDefEqProofs [State.objCommit, hm]

@[simp] theorem State.objWindow_memWf {s : State} (hm : MemWf s.mem) (fn off : Nat) (bs : List Byte) :
    MemWf (s.objWindow fn off bs).mem := by
  simp -implicitDefEqProofs [State.objWindow, hm]

@[simp] theorem execObjectWindowWrite_memWf (fn off : Nat) (data : List Byte) {s : State} (hm : MemWf s.mem) :
    LeavesMemWf (execObjectWindowWrite fn off data s) := by simp -implicitDefEqProofs [execObjectWindowWrite, hm]

/-! ### Machine/Registers.lean -/

@[simp] theorem State.writePT_memWf {s : State} (hm : MemWf s.mem) (fn off : Nat) (v : Word) :
    MemWf (s.writePT fn off v).mem := by
  unfold State.writePT
  (repeat' split) <;> simp -implicitDefEqProofs [hm]

/-! ### The boundary and fabric time -/

/-- The events of a boundary (R30). -/
@[simp] theorem State.boundaryEvents_memWf {s : State} (hm : MemWf s.mem) (from_ : Nat) :
    MemWf (s.boundaryEvents from_).mem := by
  unfold State.boundaryEvents
  extract_lets s₀ s₁ s₂ s₃ s₄ s₅
  have h₁ : MemWf s₁.mem := by simp [s₁, s₀, hm]
  have h₂ : MemWf s₂.mem := by
    simp only [s₂]
    split <;> simp [h₁]
  have h₃ : MemWf s₃.mem := by
    rw [State.scrubEvent_mem]
    exact State.strideEvent_memWf (by simp [h₂])
  have h₄ : MemWf s₄.mem := by
    simp only [s₄]
    split <;> simp [h₃]
  have h₅ : MemWf s₅.mem := by
    simp only [s₅]
    split <;> simp [h₄]
  simp [h₅]

@[simp] theorem State.jump_memWf {s : State} (hm : MemWf s.mem) (t : Nat) : MemWf (s.jump t).mem := by
  simp only [State.jump]
  split
  · exact hm
  · refine State.boundaryEvents_memWf ?_ _
    exact hm

@[simp] theorem State.stepPhase_memWf {s : State} (hm : MemWf s.mem) (off : Int) : MemWf (s.stepPhase off).mem := by
  unfold State.stepPhase
  split
  · refine State.jump_memWf ?_ _
    exact hm
  · split <;> exact hm

@[simp] theorem State.correct_memWf {s : State} (hm : MemWf s.mem) (e : Int) (stepFlag : Bool) :
    MemWf (s.correct e stepFlag).1.mem := by
  unfold State.correct
  extract_lets thresh large r ft slewed s₁
  have hs : MemWf slewed.mem := hm
  have h₁ : MemWf s₁.mem := by
    simp only [s₁]
    split <;> simp [hm]
  split
  · exact hs
  split
  · split <;> simp [hs]
  split
  · exact hs
  · exact State.stepPhase_memWf h₁ r

@[simp] theorem State.acceptBeacon_memWf {s : State} (hm : MemWf s.mem) (port : Nat) (b : List Byte) :
    MemWf (s.acceptBeacon port b).mem := by
  unfold State.acceptBeacon
  extract_lets e ft s₁ s₂ s₃ s₄ r
  have h₃ : MemWf s₃.mem := by simp [s₃, s₂, s₁, hm]
  have h₄ : MemWf s₄.mem := by
    simp only [s₄]
    split <;> simp [h₃]
  rw [State.goodBeacon_mem]
  exact State.correct_memWf h₄ ..

@[simp] theorem State.beaconIn_memWf {s : State} (hm : MemWf s.mem) (port : Nat) (b : List Byte) :
    MemWf (s.beaconIn port b).mem := by
  simp only [State.beaconIn]
  (repeat' split) <;> simp -implicitDefEqProofs [hm]

@[simp] theorem State.timeSet_memWf {s : State} (hm : MemWf s.mem) (v : Word) : MemWf (s.timeSet v).mem := by
  simp only [State.timeSet]
  (repeat' split) <;> simp -implicitDefEqProofs [hm]

/-! ### Resets of the node -/

@[simp] theorem State.powerCycle_memWf {s : State} (hm : MemWf s.mem) (keep : Bool) (cause : Nat) (good : Bool) :
    MemWf (s.powerCycle keep cause good).mem := by
  simp [State.powerCycle, hm]

@[simp] theorem State.rebootNow_memWf {s : State} (hm : MemWf s.mem) (rcv : Bool) : MemWf (s.rebootNow rcv).mem :=
  State.powerCycle_memWf hm ..

/-! ### Machine/Registers.lean -/

@[simp] theorem State.writeFT_memWf {s : State} (hm : MemWf s.mem) (off : Nat) (v : Word) :
    MemWf (s.writeFT off v).mem := by
  unfold State.writeFT
  (repeat' split) <;> simp [hm]

@[simp] theorem State.lsControl_memWf {s : State} (hm : MemWf s.mem) (v : Word) : MemWf (s.lsControl v).mem := by
  unfold State.lsControl
  (repeat' split) <;> simp [hm]

@[simp] theorem State.writeLS_memWf {s : State} (hm : MemWf s.mem) (fn off : Nat) (v : Word) :
    MemWf (s.writeLS fn off v).mem := by
  unfold State.writeLS
  (repeat' split) <;> simp [hm]

@[simp] theorem State.regWrite_memWf {s : State} (hm : MemWf s.mem) (fn off : Nat) (v : Word) :
    MemWf (s.regWrite fn off v).mem := by
  unfold State.regWrite
  split <;> simp [hm]

/-! ### The commands that store -/

@[simp] theorem execBeacon_memWf (port ns tc : Nat) (gateOk : Bool) (body : List Byte) {s : State} (hm : MemWf s.mem) :
    LeavesMemWf (execBeacon port ns tc gateOk body s) := by
  simp only [execBeacon, leavesMemWf_next]
  (repeat' split) <;> simp [hm]

@[simp] theorem execMilestoneBoundary_memWf (env : Env) {s : State} (hm : MemWf s.mem) :
    LeavesMemWf (execMilestoneBoundary env s) := by
  rw [execMilestoneBoundary, leavesMemWf_next]
  split
  · exact hm
  · extract_lets from_ s₁ s₂
    have h₁ : MemWf s₁.mem := foldl_memWf (fun t u ht => State.upset_memWf ht u) (by simp [hm]) _
    exact State.boundaryEvents_memWf (by simp [s₂, h₁]) _

@[simp] theorem execFtSetGo_memWf (v : Word) {s : State} (hm : MemWf s.mem) : LeavesMemWf (execFtSetGo v s) := by
  simp [execFtSetGo, hm]

@[simp] theorem execReboot_memWf (rcv : Bool) {s : State} (hm : MemWf s.mem) : LeavesMemWf (execReboot rcv s) := by
  simp [execReboot, hm]

@[simp] theorem execTftpReboot_memWf {s : State} (hm : MemWf s.mem) : LeavesMemWf (execTftpReboot s) := by
  simp [execTftpReboot, hm]

@[simp] theorem execPwrGoodLow_memWf (ns : Nat) {s : State} (hm : MemWf s.mem) : LeavesMemWf (execPwrGoodLow ns s) := by
  simp [execPwrGoodLow, hm]

@[simp] theorem execTrayResetCommand_memWf (b : Byte) {s : State} (hm : MemWf s.mem) :
    LeavesMemWf (execTrayResetCommand b s) := by
  simp only [execTrayResetCommand, leavesMemWf_next]
  (repeat' split) <;> simp [hm]

@[simp] theorem execThermtrip_memWf {s : State} (hm : MemWf s.mem) : LeavesMemWf (execThermtrip s) := by
  simp [execThermtrip, hm]

@[simp] theorem execRegisterWrite_memWf (fn off : Nat) (v : Word) {s : State} (hm : MemWf s.mem) :
    LeavesMemWf (execRegisterWrite fn off v s) := by
  simp only [execRegisterWrite, leavesMemWf_next]
  (repeat' split) <;> simp [hm]

/-- Every command keeps the canonical form of memory. -/
theorem exec_memWf (c : Instr) {s : State} (hm : MemWf s.mem) : LeavesMemWf (exec c s) := by
  cases hc : c.stores with
  | false => exact (exec_keepsMem hc s).leavesMemWf hm
  | true =>
    cases c <;> cases hc
    all_goals
      dsimp only [exec]
      simp [hm]

/-- Settles O4: with no command waiting the pilot counts on, and every command keeps the canonical form. -/
theorem everyStepKeepsMemoryCanonical : Obligations.EveryStepKeepsMemoryCanonical := by
  intro s t hs h
  unfold step at h
  split at h
  · exact (idle_mem s).leavesMemWf hs t h
  case h_2 c rest hp => exact exec_memWf c (s := { s with pending := rest }) hs t h

/-- Settles O3: the state after reset, field by field. -/
theorem memoryCanonicalAtReset : Obligations.MemoryCanonicalAtReset :=
  ⟨memWf_nil, rfl, rfl, rfl, rfl, rfl⟩

end Sys2Proof.Machine
end

section
/-!
PROOFS. Host accesses through the apertures (R43, R46, R444, R445): what a host write stores and may store, and what a
host read answers.
-/

namespace Sys2Proof.Machine

/-! ### Bytes -/

/-- A byte depends on memory alone. -/
theorem State.byte_congr {s t : State} (h : t.mem = s.mem) (a : Nat) : t.byte a = s.byte a := by
  rw [State.byte, State.byte, h]

theorem State.bytes_congr {s t : State} (h : t.mem = s.mem) (a n : Nat) : t.bytes a n = s.bytes a n :=
  List.map_congr_left fun i _ => State.byte_congr h (a + i)

/-- The bytes of a range, address by address. -/
theorem State.bytes_eq_range' (s : State) (a n : Nat) : s.bytes a n = (List.range' a n).map s.byte := by
  rw [State.bytes, List.range'_eq_map_range, List.map_map]
  rfl

/-- The first `j` cuts of a range are its addresses below the `j`-th multiple. -/
theorem range'_of_cuts {k a n : Nat} {j : Nat} (hj : j ≤ (a + n - 1) / k - a / k + 1) (hk : 0 < k) (hn : 0 < n) :
    ((List.range j).flatMap fun i => List.range' (max a ((a / k + i) * k))
      (min (a + n) ((a / k + i + 1) * k) - max a ((a / k + i) * k))) =
      List.range' a (min (a + n) ((a / k + j) * k) - a) := by
  have hq : a / k * k ≤ a := Nat.div_mul_le_self a k
  induction j with
  | zero => simp [Nat.min_eq_right (hq.trans (Nat.le_add_right a n)), Nat.sub_eq_zero_of_le hq]
  | succ j ih =>
    have hle : (a / k + j) * k ≤ a + n - 1 :=
      (Nat.mul_le_mul_right k (by have := Nat.div_le_div_right (c := k) (by omega : a ≤ a + n - 1); omega)).trans
        (Nat.div_mul_le_self (a + n - 1) k)
    have hsucc : (a / k + j + 1) * k = (a / k + j) * k + k := Nat.succ_mul ..
    have ha : a < (a / k + j + 1) * k := by
      rw [Nat.mul_comm]
      exact (Nat.lt_mul_div_succ a hk).trans_le (Nat.mul_le_mul_left k (by omega))
    rw [List.range_succ, List.flatMap_append, ih (by omega)]
    simp only [List.flatMap_cons, List.flatMap_nil, List.append_nil]
    have hmid : max a ((a / k + j) * k) = a + (min (a + n) ((a / k + j) * k) - a) := by omega
    rw [hmid, List.range'_append_1]
    congr 1
    rw [← Nat.add_assoc (a / k) j 1]
    omega

/-- The cuts of a range, one after another, are its addresses. -/
theorem range'_of_cutsBy {k : Nat} (hk : 0 < k) (a n : Nat) :
    ((cutsBy k a n).flatMap fun x => List.range' x.1 x.2) = List.range' a n := by
  rcases Nat.eq_zero_or_pos n with rfl | hn
  · simp [cutsBy]
  · rw [cutsBy, if_neg hn.ne', List.flatMap_map, range'_of_cuts le_rfl hk hn]
    have hend : a + n - 1 < (a / k + ((a + n - 1) / k - a / k + 1)) * k := by
      have hle := Nat.div_le_div_right (c := k) (by omega : a ≤ a + n - 1)
      rw [show a / k + ((a + n - 1) / k - a / k + 1) = (a + n - 1) / k + 1 by omega, Nat.mul_comm]
      exact Nat.lt_mul_div_succ _ hk
    congr 1
    omega

/-- A range read cut by cut. -/
theorem State.bytes_of_cutsBy (s : State) {k : Nat} (hk : 0 < k) (a n : Nat) :
    ((cutsBy k a n).flatMap fun x => s.bytes x.1 x.2) = s.bytes a n := by
  simp only [State.bytes_eq_range']
  rw [← List.map_flatMap, range'_of_cutsBy hk]

/-! ### A node with no latent error -/

theorem State.hitSectors_of_clean {s : State} (h : s.ecc = []) (a n : Nat) : s.hitSectors a n = [] := by
  simp [State.hitSectors, h]

theorem State.scanned_of_clean {s : State} (h : s.ecc = []) (a n : Nat) : s.scanned a n = s := by
  simp [State.scanned, State.hitSectors_of_clean h]

theorem State.hasUE_of_clean {s : State} (h : s.ecc = []) (a n : Nat) : s.hasUE a n = false := by
  simp [State.hasUE, State.hitSectors_of_clean h]

theorem State.edgeSectors_of_clean {s : State} (h : s.ecc = []) (a n : Nat) : s.edgeSectors a n = [] := by
  simp [State.edgeSectors, State.hitSectors_of_clean h]

theorem State.merged_of_clean {s : State} (h : s.ecc = []) (a : Nat) (bs : List Byte) : s.merged a bs = bs := by
  simp [State.merged, State.edgeSectors_of_clean h]

@[simp] theorem State.merged_length (s : State) (a : Nat) (bs : List Byte) : (s.merged a bs).length = bs.length := by
  simp only [State.merged]
  split <;> simp

/-! ### Activations (R370) -/

@[simp] theorem State.activate_ecc (s : State) (r : Nat) : (s.activate r).ecc = s.ecc := by
  simp only [State.activate]
  split <;> simp

@[simp] theorem State.activate_stale (s : State) (r : Nat) : (s.activate r).stale = s.stale := by
  simp only [State.activate]
  split <;> simp

@[simp] theorem State.activate_out (s : State) (r : Nat) : (s.activate r).out = s.out := by
  simp only [State.activate]
  split <;> simp

/-- Of the registers, an activation changes the count of targeted refreshes alone. -/
theorem State.activate_reg (s : State) (r : Nat) {f off : Nat} (h : regKey f off ≠ regKey 0 Reg.FX_TRR_CNT) :
    (s.activate r).reg f off = s.reg f off := by
  simp only [State.activate]
  split
  · exact State.reg_count_other _ 1 h
  · rfl

@[simp] theorem State.opens_ecc (s : State) (a n : Nat) : (s.opens a n).ecc = s.ecc :=
  foldl_keeps State.ecc State.activate_ecc _ s

@[simp] theorem State.opens_stale (s : State) (a n : Nat) : (s.opens a n).stale = s.stale :=
  foldl_keeps State.stale State.activate_stale _ s

@[simp] theorem State.opens_out (s : State) (a n : Nat) : (s.opens a n).out = s.out :=
  foldl_keeps State.out State.activate_out _ s

theorem State.opens_reg (s : State) (a n : Nat) {f off : Nat} (h : regKey f off ≠ regKey 0 Reg.FX_TRR_CNT) :
    (s.opens a n).reg f off = s.reg f off :=
  foldl_keeps (fun t => t.reg f off) (fun t r => t.activate_reg r h) _ s

/-! ### The turns of a host access (R133) -/

theorem State.hostTurn_of_idle {s : State} {col : Nat} (h : s.burstWaits col = false) :
    ∃ g x, s.hostTurn col = { s with gated := g, arbs := x } := by
  have hw : (s.wake (.column col)).burstWaits col = false := h
  rw [State.hostTurn, hw, if_neg (by simp)]
  exact ⟨_, _, rfl⟩

/-- With no burst waiting, a host access wakes columns and counts its turns, and nothing else changes. -/
theorem State.hostTurns_of_idle {s : State} (h : ∀ col, s.burstWaits col = false) (a n : Nat) :
    ∃ g x, s.hostTurns a n = { s with gated := g, arbs := x } := by
  rw [State.hostTurns]
  generalize colsOf a n = cols
  induction cols generalizing s with
  | nil => exact ⟨s.gated, s.arbs, rfl⟩
  | cons col cols ih =>
    obtain ⟨g, x, he⟩ := State.hostTurn_of_idle (h col)
    rw [List.foldl_cons, he]
    obtain ⟨g', x', he'⟩ := ih (s := { s with gated := g, arbs := x }) h
    exact ⟨g', x', he'⟩

theorem State.hostTurns_mem_of_idle {s : State} (h : ∀ col, s.burstWaits col = false) (a n : Nat) :
    (s.hostTurns a n).mem = s.mem := by
  obtain ⟨g, x, he⟩ := State.hostTurns_of_idle h a n
  rw [he]

/-! ### The checks and the refusal of a BAR4 request (R42, R43, R444) -/

theorem State.barRefusal_eq_zero {s : State} {fn off n : Nat} {write atomicOp : Bool}
    (h : s.barRefusal fn off n write atomicOp = 0) :
    s.regB fn (Reg.BW_AP + 4 * (off / 2 ^ 30)) 31 = true ∧ atomicOp = false ∧ (cut .far (s.apAddr fn off) n).2 = 0 ∧
      s.mapped (s.apAddr fn off) n = true ∧ s.owned (fn - 1) (s.apAddr fn off) n = true ∧
      (write = true → s.inArena (s.apAddr fn off) n = false) ∧ s.inImage (s.apAddr fn off) n = false := by
  unfold State.barRefusal at h
  extract_lets a at h
  split at h
  · cases h
  split at h
  · cases h
  split at h
  · cases h
  split at h
  · cases h
  · simp_all [a]

@[simp] theorem State.barRefused_out (s : State) (fn why : Nat) :
    (s.barRefused fn why).out = .unsupported :: s.out := by
  simp only [State.barRefused, State.unmappedError, State.ownerError]
  split
  · simp [State.emit]
  · split <;> simp [State.emit]

/-- The registers of a VF and those of PF0 lie apart. -/
theorem regKey_ne_pf0 {fn off off' : Nat} (hfn : fn ≠ 0) (hoff : off' < 0x20000) : regKey fn off ≠ regKey 0 off' := by
  simp only [regKey]
  omega

theorem State.barRefused_flag (s : State) (fn why : Nat) : (s.barRefused fn why).regB fn Reg.BW_STAT 0 = true := by
  unfold State.barRefused
  extract_lets t
  have h : ((t.setRegB fn Reg.BW_STAT 0 true).count fn Reg.BW_UR_CNT 1).reg fn Reg.BW_STAT =
      setB (t.reg fn Reg.BW_STAT) 0 true := by
    rw [State.reg_count_other _ 1 (regKey_inj.not.2 (by decide)), State.reg_setRegB_same]
  exact (congrArg (getB · 0) h).trans (getB_setB_same _ _ _ (by decide))

/-- A refusal is counted once in the VF's own register. -/
theorem State.barRefused_count (s : State) {fn : Nat} (hfn : fn ≠ 0) (why : Nat) :
    ((s.barRefused fn why).reg fn Reg.BW_UR_CNT).toNat = min 0xFFFFFFFF ((s.reg fn Reg.BW_UR_CNT).toNat + 1) := by
  unfold State.barRefused
  extract_lets t
  have ht : t.reg fn Reg.BW_UR_CNT = s.reg fn Reg.BW_UR_CNT := by
    simp only [t]
    split
    · exact State.reg_count_other _ 1 (regKey_ne_pf0 hfn (by decide))
    · split
      · exact State.reg_setRegB_other _ 0 true (regKey_ne_pf0 hfn (by decide))
      · rfl
  have h := State.reg_count_same (t.setRegB fn Reg.BW_STAT 0 true) fn Reg.BW_UR_CNT 1
  rw [State.reg_setRegB_other t 0 true (regKey_inj.not.2 (by decide)), ht] at h
  exact h

/-! ### Host writes -/

theorem State.fnServed_answers {s : State} {fn : Nat} (h : s.fnServed fn = true) :
    s.lodgeAnswers = true ∧ s.fnExists fn = true := by
  simp only [State.fnServed, Bool.and_eq_true] at h
  exact h.1

/-- The memory after a host write is the memory after the store of the bytes that it leaves (R127). -/
theorem State.hostPut_mem_eq (s : State) (a : Nat) (bs : List Byte) :
    ∃ bs', bs'.length = bs.length ∧ (s.hostPut a bs).mem = storeMem s.mem a bs' := by
  simp only [State.hostPut]
  generalize hu : (s.edgeSectors a bs.length).foldl State.meetSector (s.opens a bs.length) = u
  have hmem : u.mem = s.mem := by rw [← hu, foldl_keeps State.mem State.meetSector_mem, State.opens_mem]
  refine ⟨u.merged a bs, u.merged_length a bs, ?_⟩
  rw [← hmem]
  rfl

/-- A byte that a host write changes is one of its range. -/
theorem State.hostPut_changes {s : State} {a b : Nat} {bs : List Byte} (h : (s.hostPut a bs).byte b ≠ s.byte b) :
    ∃ i < bs.length, native b = native (a + i) := by
  obtain ⟨bs', hlen, hmem⟩ := s.hostPut_mem_eq a bs
  by_contra hno
  push Not at hno
  refine h ?_
  rw [State.byte, hmem]
  exact tget_storeMem_other s.mem a bs' fun j hj => hno j (hlen ▸ hj)

/-- A host write of a node with no latent error. -/
theorem State.hostPut_of_clean {s : State} (h : s.ecc = []) (a : Nat) (bs : List Byte) :
    s.hostPut a bs = (s.opens a bs.length).hostStore a bs := by
  have hopens : (s.opens a bs.length).ecc = [] := (s.opens_ecc a bs.length).trans h
  simp only [State.hostPut, State.edgeSectors_of_clean h, List.foldl_nil, State.merged_of_clean hopens]

/-- What HOST_WRITE can do: it leaves memory, or no rule refuses it and it writes its range. -/
theorem hostWrite_cases {s t : State} {fn off : Nat} {data : List Byte} {atomicOp : Bool}
    (h : exec (.hostWrite fn off data atomicOp) s = .next t) :
    t.mem = s.mem ∨ (s.barRefusal fn off data.length true atomicOp = 0 ∧
      t = (s.hostTurns (s.apAddr fn off) data.length).hostPut (s.apAddr fn off) data) := by
  change execHostWrite fn off data atomicOp s = .next t at h
  rw [execHostWrite, Host.Outcome.next.injEq] at h
  subst h
  split
  · exact .inl rfl
  split
  · exact .inl (s.emit_mem _)
  extract_lets why
  split
  · exact .inl (s.barRefused_mem fn why)
  · exact .inr ⟨by_contra ‹_›, rfl⟩

/-- Settles O20: what HOST_WRITE can do, the bytes that the write proper changes, and the checks that it has passed. -/
theorem hostWritesStayInsideThePartition : Obligations.HostWritesStayInsideThePartition := by
  refine ⟨fun s t fn off data atomicOp b h hb hturn => ?_, fun s t fn off data atomicOp h hbad => ?_⟩
  · rcases hostWrite_cases h with hmem | ⟨hok, rfl⟩
    · exact absurd (State.byte_congr hmem b) hb
    · obtain ⟨-, -, -, hmapped, howned, -, -⟩ := State.barRefusal_eq_zero hok
      refine ⟨State.hostPut_changes (s := s.hostTurns (s.apAddr fn off) data.length) ?_, hmapped, howned⟩
      rcases hturn with hturn | hidle
      · exact hturn
      · rwa [State.byte_congr (State.hostTurns_mem_of_idle hidle _ _) b]
  · rcases hostWrite_cases h with hmem | ⟨hok, rfl⟩
    · exact hmem
    · obtain ⟨hap, hatomic, hfar, -, -, harena, himage⟩ := State.barRefusal_eq_zero hok
      rcases hbad with h | h | h | h | h
      · simp [hatomic] at h
      · exact absurd (hap.symm.trans h) (by decide)
      · exact absurd hfar h
      · simp [harena] at h
      · simp [himage] at h

/-! ### Host reads -/

/-- With no earlier image, a granule reads as stored. -/
theorem State.hostGranule_of_fresh {s : State} (h : s.stale = []) (c : Nat) (x : Nat × Nat) :
    s.hostGranule c x = (s, s.bytes x.1 x.2) := by
  simp [State.hostGranule, h, imagesAt]

/-- A fold that leaves the state and gathers a piece at each step. -/
theorem foldl_gather {α β : Type} {f : State × List β → α → State × List β} {s : State} {g : α → List β}
    (h : ∀ acc x, f (s, acc) x = (s, acc ++ g x)) (l : List α) (acc : List β) :
    l.foldl f (s, acc) = (s, acc ++ l.flatMap g) := by
  induction l generalizing acc with
  | nil => simp
  | cons a l ih => rw [List.foldl_cons, h, ih, List.flatMap_cons, List.append_assoc]

theorem State.hostGranule256_of_fresh {s : State} (h : s.stale = []) (x : Nat × Nat) :
    s.hostGranule256 x = (s, s.bytes x.1 x.2) := by
  have hn : s.unseen x.1 = 0 := by simp [State.unseen, h]
  rw [State.hostGranule256]
  simp only [hn, if_true]
  rw [foldl_gather (g := fun y => s.bytes y.1 y.2) (fun acc y => by rw [State.hostGranule_of_fresh h]),
    s.bytes_of_cutsBy (by decide), List.nil_append]

/-- With no earlier image and no latent error, a host read answers the bytes as stored, unpoisoned. -/
theorem State.hostBytes_of_fresh {s : State} (hstale : s.stale = []) (hecc : s.ecc = []) (a n : Nat) :
    s.hostBytes a n = (s.opens a n, s.bytes a n, false) := by
  have hs : (s.opens a n).stale = [] := (s.opens_stale a n).trans hstale
  have he : (s.opens a n).ecc = [] := (s.opens_ecc a n).trans hecc
  have hscan (l : List (Nat × Nat)) :
      l.foldl (fun (s : State) (x : Nat × Nat) => s.scanned x.1 x.2) (s.opens a n) = s.opens a n := by
    induction l with
    | nil => rfl
    | cons x l ih => rw [List.foldl_cons, State.scanned_of_clean he, ih]
  rw [State.hostBytes,
    foldl_gather (g := fun x => (s.opens a n).bytes x.1 x.2) (fun acc x => by rw [State.hostGranule256_of_fresh hs]),
    State.bytes_of_cutsBy _ (by decide), List.nil_append, State.bytes_congr (s.opens_mem a n)]
  have hue : (((s.opens a n).codedPieces a n).any fun x => (s.opens a n).hasUE x.1 x.2) = false :=
    List.any_eq_false.2 fun x _ => by simp [State.hasUE_of_clean he]
  simp only [hue, hscan, Bool.false_eq_true, if_false]

/-- A range that is unmapped, or that the partition does not own, is refused. -/
theorem State.barRefusal_ne_zero {s : State} {fn off n : Nat} {write atomicOp : Bool}
    (h : s.mapped (s.apAddr fn off) n = false ∨ s.owned (fn - 1) (s.apAddr fn off) n = false) :
    s.barRefusal fn off n write atomicOp ≠ 0 := by
  intro hz
  obtain ⟨-, -, -, hmapped, howned, -, -⟩ := State.barRefusal_eq_zero hz
  simp [hmapped, howned] at h

/-- HOST_WRITE of a VF that is served, within its apertures. -/
theorem execHostWrite_served {s : State} {fn off : Nat} {data : List Byte} (hfn : fn ≠ 0)
    (hserved : s.fnServed fn = true) (hlen : off + data.length ≤ 2 ^ 34) :
    exec (.hostWrite fn off data false) s = .next (
      if s.barRefusal fn off data.length true false ≠ 0 then
        s.barRefused fn (s.barRefusal fn off data.length true false)
      else (s.hostTurns (s.apAddr fn off) data.length).hostPut (s.apAddr fn off) data) := by
  obtain ⟨hanswers, hexists⟩ := State.fnServed_answers hserved
  change execHostWrite fn off data false s = _
  rw [execHostWrite, if_neg (by simp [hfn, hanswers, hexists]; omega)]
  simp [hserved]

/-- HOST_READ of a VF that is served, within its apertures. -/
theorem execHostRead_served {s : State} {fn off len : Nat} (hfn : fn ≠ 0)
    (hserved : s.fnServed fn = true) (hlen : off + len ≤ 2 ^ 34) :
    exec (.hostRead fn off len false) s = .next (
      if s.barRefusal fn off len false false ≠ 0 then s.barRefused fn (s.barRefusal fn off len false false)
      else
        let (t, bs, ue) := (s.hostTurns (s.apAddr fn off) len).hostBytes (s.apAddr fn off) len
        t.emit (.hostData bs ue)) := by
  obtain ⟨hanswers, hexists⟩ := State.fnServed_answers hserved
  change execHostRead fn off len false s = _
  rw [execHostRead, if_neg (by simp [hfn, hanswers, hexists]; omega)]
  simp [hserved]

/-- What a refused BAR4 request leaves behind. -/
theorem State.barRefused_effect (s : State) {fn : Nat} (hfn : fn ≠ 0) (why : Nat) :
    (s.barRefused fn why).mem = s.mem ∧ (s.barRefused fn why).out = .unsupported :: s.out ∧
      (s.barRefused fn why).regB fn Reg.BW_STAT 0 = true ∧
      ((s.barRefused fn why).reg fn Reg.BW_UR_CNT).toNat = min 0xFFFFFFFF ((s.reg fn Reg.BW_UR_CNT).toNat + 1) :=
  ⟨s.barRefused_mem fn why, s.barRefused_out fn why, s.barRefused_flag fn why, s.barRefused_count hfn why⟩

/-- Settles O21: the write and the read of a clean and idle node, byte by byte, and the refusal with its count. -/
theorem hostAccessesThroughApertures : Obligations.HostAccessesThroughApertures := by
  refine ⟨fun s fn off data hfn hserved hlen hok hecc hidle => ?_,
    fun s fn off len hfn hserved hlen hok hecc hstale hidle => ?_,
    fun s fn off data c hfn hserved hlen hbad hc => ?_⟩
  · rw [execHostWrite_served hfn hserved hlen, hok, if_neg (by simp)]
    obtain ⟨g, x, hturns⟩ := State.hostTurns_of_idle hidle (s.apAddr fn off) data.length
    rw [hturns, State.hostPut_of_clean (by exact hecc)]
    exact ⟨_, rfl, fun f r hne => State.opens_reg _ _ _ hne,
      fun i hi hlast => tget_storeMem_at _ _ _ hi fun j hij hj => (hlast j hij hj).symm⟩
  · rw [execHostRead_served hfn hserved hlen, hok, if_neg (by simp)]
    obtain ⟨g, x, hturns⟩ := State.hostTurns_of_idle hidle (s.apAddr fn off) len
    rw [hturns, State.hostBytes_of_fresh (by exact hstale) (by exact hecc)]
    exact ⟨_, rfl, State.opens_mem .., fun f r hne => State.opens_reg _ _ _ hne,
      congrArg (_ :: ·) (State.opens_out ..)⟩
  · have hwhy (write : Bool) : s.barRefusal fn off data.length write false ≠ 0 := State.barRefusal_ne_zero hbad
    rcases hc with rfl | rfl
    · rw [execHostWrite_served hfn hserved hlen, if_pos (hwhy true)]
      exact ⟨_, rfl, s.barRefused_effect hfn _⟩
    · rw [execHostRead_served hfn hserved hlen, if_pos (hwhy false)]
      exact ⟨_, rfl, s.barRefused_effect hfn _⟩

end Sys2Proof.Machine
end

section
/-!
PROOFS. The compatibility decoding of the hot tier (R46) and the entries of the far windows (R49, R50).
-/

namespace Sys2Proof.Machine

/-! ### The compatibility decoding -/

/-- The exclusive-or of two pseudo-channel numbers is one. -/
theorem xor_lt_32 {x y : Nat} (hx : x < 32) (hy : y < 32) : x ^^^ y < 32 := Nat.xor_lt_two_pow (n := 5) hx hy

theorem xor_xor_cancel (x y : Nat) : (x ^^^ y) ^^^ y = x := by rw [Nat.xor_assoc, Nat.xor_self, Nat.xor_zero]

/-- The high part of a number written as two parts. -/
theorem mul_add_div_right {k c : Nat} (q : Nat) (hc : c < k) : (q * k + c) / k = q := by
  rw [Nat.mul_comm, Nat.mul_add_div (by omega), Nat.div_eq_of_lt hc, Nat.add_zero]

/-- The decoding in terms of the fields of a compatibility address. -/
theorem native_of_fields {stack hi lo b : Nat} (hstack : stack < 16) (hhi : hi < 2 ^ 24) (hlo : lo < 32)
    (hb : b < 256) :
    native (0x030000000000 + stack * 2 ^ 37 + (hi * 32 + lo) * 256 + b) =
      0x010000000000 + (stack * 32 + (lo ^^^ hi % 32)) * 2 ^ 32 + (hi * 256 + b) := by
  have hoff : 0x030000000000 + stack * 2 ^ 37 + (hi * 32 + lo) * 256 + b - 0x030000000000 =
      stack * 2 ^ 37 + (hi * 32 + lo) * 256 + b := by omega
  have hs : (stack * 2 ^ 37 + (hi * 32 + lo) * 256 + b) / 2 ^ 37 = stack := by omega
  have hw : (stack * 2 ^ 37 + (hi * 32 + lo) * 256 + b) % 2 ^ 37 = (hi * 32 + lo) * 256 + b := by omega
  have hg : ((hi * 32 + lo) * 256 + b) / 256 = hi * 32 + lo := mul_add_div_right _ hb
  have hb' : ((hi * 32 + lo) * 256 + b) % 256 = b := Nat.mul_add_mod_of_lt hb
  have hl : (hi * 32 + lo) % 32 = lo := Nat.mul_add_mod_of_lt hlo
  have hh : (hi * 32 + lo) / 32 = hi := mul_add_div_right _ hlo
  rw [native, if_pos (by omega)]
  simp only [hoff, hs, hw, hg, hb', hl, hh]

/-- The inverse in terms of the fields of a native hot-tier address. -/
theorem compatOf_of_fields {stack pc hi b : Nat} (hstack : stack < 16) (hpc : pc < 32) (hhi : hi < 2 ^ 24)
    (hb : b < 256) :
    compatOf (0x010000000000 + (stack * 32 + pc) * 2 ^ 32 + (hi * 256 + b)) =
      0x030000000000 + stack * 2 ^ 37 + (hi * 32 + (pc ^^^ hi % 32)) * 256 + b := by
  have hoff : 0x010000000000 + (stack * 32 + pc) * 2 ^ 32 + (hi * 256 + b) - 0x010000000000 =
      (stack * 32 + pc) * 2 ^ 32 + (hi * 256 + b) := by omega
  have hcol : ((stack * 32 + pc) * 2 ^ 32 + (hi * 256 + b)) / 2 ^ 32 = stack * 32 + pc := by omega
  have hw : ((stack * 32 + pc) * 2 ^ 32 + (hi * 256 + b)) % 2 ^ 32 = hi * 256 + b := by omega
  have hh : (hi * 256 + b) / 256 = hi := mul_add_div_right _ hb
  have hb' : (hi * 256 + b) % 256 = b := Nat.mul_add_mod_of_lt hb
  have hs : (stack * 32 + pc) / 32 = stack := mul_add_div_right _ hpc
  have hp : (stack * 32 + pc) % 32 = pc := Nat.mul_add_mod_of_lt hpc
  rw [compatOf, if_pos (by omega)]
  simp only [hoff, hcol, hw, hh, hb', hs, hp]

/-- Every address of the compatibility window has its fields. -/
theorem exists_fields_of_compat {a : Nat} (h : 0x030000000000 ≤ a) (h' : a < 0x050000000000) :
    ∃ stack hi lo b, stack < 16 ∧ hi < 2 ^ 24 ∧ lo < 32 ∧ b < 256 ∧
      a = 0x030000000000 + stack * 2 ^ 37 + (hi * 32 + lo) * 256 + b :=
  ⟨(a - 0x030000000000) / 2 ^ 37, (a - 0x030000000000) % 2 ^ 37 / 256 / 32, (a - 0x030000000000) / 256 % 32,
    (a - 0x030000000000) % 256, by omega, by omega, by omega, by omega, by omega⟩

/-- Every native hot-tier address has its fields. -/
theorem exists_fields_of_native {b : Nat} (h : 0x010000000000 ≤ b) (h' : b < 0x030000000000) :
    ∃ stack pc hi r, stack < 16 ∧ pc < 32 ∧ hi < 2 ^ 24 ∧ r < 256 ∧
      b = 0x010000000000 + (stack * 32 + pc) * 2 ^ 32 + (hi * 256 + r) :=
  ⟨(b - 0x010000000000) / 2 ^ 37, (b - 0x010000000000) / 2 ^ 32 % 32, (b - 0x010000000000) % 2 ^ 32 / 256,
    (b - 0x010000000000) % 256, by omega, by omega, by omega, by omega, by omega⟩

/-- A decoded address lies in the native hot tier. -/
theorem native_mem_hot {a : Nat} (h : 0x030000000000 ≤ a) (h' : a < 0x050000000000) :
    0x010000000000 ≤ native a ∧ native a < 0x030000000000 := by
  obtain ⟨stack, hi, lo, b, hstack, hhi, hlo, hb, rfl⟩ := exists_fields_of_compat h h'
  have hpc := xor_lt_32 hlo (Nat.mod_lt hi (by decide : 0 < 32))
  rw [native_of_fields hstack hhi hlo hb]
  omega

/-- A native address stands for itself. -/
theorem native_native (a : Nat) : native (native a) = native a := by
  by_cases h : 0x030000000000 ≤ a ∧ a < 0x050000000000
  · obtain ⟨-, hlt⟩ := native_mem_hot h.1 h.2
    rw [native.eq_1 (native a), if_neg (by omega)]
  · have hself : native a = a := by rw [native, if_neg h]
    rw [hself, hself]

/-- A byte has one storage, whichever of its addresses names it. -/
theorem State.byte_native (s : State) (a : Nat) : s.byte (native a) = s.byte a := by
  rw [State.byte, State.byte, native_native]

theorem State.store_native (s : State) (a : Nat) (v : Byte) : s.store (native a) [v] = s.store a [v] := by
  simp only [State.store, storeMem, native_native]

/-- Settles O22: the decoding and its inverse on the fields of an address, whose pseudo-channels an exclusive-or with
the same bits exchanges. -/
theorem compatDecodingIsOneToOne : Obligations.CompatDecodingIsOneToOne := by
  refine ⟨fun a h h' => ⟨native_mem_hot h h', ?_⟩, fun b h h' => ?_, fun s a v _ _ => ?_⟩
  · obtain ⟨stack, hi, lo, b, hstack, hhi, hlo, hb, rfl⟩ := exists_fields_of_compat h h'
    have hpc := xor_lt_32 hlo (Nat.mod_lt hi (by decide : 0 < 32))
    have hg : (0x030000000000 + stack * 2 ^ 37 + (hi * 32 + lo) * 256 + b - 0x030000000000) % 2 ^ 37 / 256 =
      hi * 32 + lo := by omega
    have hl : (hi * 32 + lo) % 32 = lo := by omega
    have hh : (hi * 32 + lo) / 32 = hi := by omega
    have hcompat := compatOf_of_fields hstack hpc hhi hb
    rw [xor_xor_cancel] at hcompat
    rw [native_of_fields hstack hhi hlo hb, hg, hl, hh]
    refine ⟨hcompat, ?_⟩
    rw [Nat.add_assoc 0x010000000000, Nat.add_sub_cancel_left]
    have hcol : ((stack * 32 + (lo ^^^ hi % 32)) * 2 ^ 32 + (hi * 256 + b)) / 2 ^ 32 = stack * 32 + (lo ^^^ hi % 32) :=
      mul_add_div_right _ (by omega)
    refine ⟨by omega, by rw [hcol, Nat.mul_add_mod_of_lt hpc], ?_⟩
    rw [Nat.mul_add_mod_of_lt (by omega)]
    omega
  · obtain ⟨stack, pc, hi, r, hstack, hpc, hhi, hr, rfl⟩ := exists_fields_of_native h h'
    have hlo := xor_lt_32 hpc (Nat.mod_lt hi (by decide : 0 < 32))
    rw [compatOf_of_fields hstack hpc hhi hr, native_of_fields hstack hhi hlo hr, xor_xor_cancel]
    exact ⟨by omega, rfl⟩
  · have hbyte : (s.store a [v]).byte a = v :=
      s.byte_store_at a [v] (j := 0) (by simp) fun i hi hi' => absurd hi' (by simpa using Nat.ne_of_gt hi)
    rw [State.byte_native, State.store_native]
    exact ⟨hbyte, hbyte⟩

/-! ### Words loaded into a window -/

/-- The state after the first words of a value are loaded. -/
theorem State.loadWords_succ (s : State) (fn off n v : Nat) :
    s.loadWords fn off (n + 1) v =
      (s.loadWords fn off n v).setReg fn (off + 4 * n) (BitVec.ofNat 32 (v / 2 ^ (32 * n))) := by
  rw [State.loadWords, List.range_succ, List.foldl_append]
  rfl

/-- Loaded words leave the registers outside their window. -/
theorem State.loadWords_reg_other (s : State) {fn off n f o : Nat} (v : Nat)
    (h : ∀ i < n, regKey f o ≠ regKey fn (off + 4 * i)) : (s.loadWords fn off n v).reg f o = s.reg f o := by
  induction n with
  | zero => rfl
  | succ n ih =>
    rw [State.loadWords_succ, State.reg_setReg_other _ _ (h n (by omega)), ih fun i hi => h i (by omega)]

/-- A loaded word is read back. -/
theorem State.loadWords_reg_at (s : State) (fn off v : Nat) {n j : Nat} (hj : j < n) :
    (s.loadWords fn off n v).reg fn (off + 4 * j) = BitVec.ofNat 32 (v / 2 ^ (32 * j)) := by
  induction n with
  | zero => omega
  | succ n ih =>
    rw [State.loadWords_succ]
    by_cases h : j = n
    · rw [h, State.reg_setReg_same]
    · rw [State.reg_setReg_other _ _ (regKey_inj.not.2 (by omega)), ih (by omega)]

/-- A word of a value, as a field. -/
theorem toNat_ofNat_div_eq_getF {n : Nat} (v : BitVec n) (j : Nat) :
    (BitVec.ofNat 32 (v.toNat / 2 ^ (32 * j))).toNat = getF v (32 * j) 32 := by
  rw [BitVec.toNat_ofNat, getF, Nat.shiftRight_eq_div_pow]

/-- Words loaded change registers alone. -/
theorem State.loadWords_far (s : State) (fn off n v : Nat) : (s.loadWords fn off n v).far = s.far :=
  foldl_keeps State.far (f := fun (s : State) i => s.setReg fn (off + 4 * i) (BitVec.ofNat 32 (v / 2 ^ (32 * i))))
    (fun _ _ => rfl) (List.range n) s

/-! ### Complement faults (R65) -/

/-- A complement fault is counted once. -/
theorem State.cplFault_count (s : State) (r : RecRef) :
    ((s.cplFault r).reg 0 Reg.MT_CPL_FAULT_CNT).toNat = min 0xFFFFFFFF ((s.reg 0 Reg.MT_CPL_FAULT_CNT).toNat + 1) := by
  unfold State.cplFault
  extract_lets t
  have ht : (t.reg 0 Reg.MT_CPL_FAULT_CNT).toNat = min 0xFFFFFFFF ((s.reg 0 Reg.MT_CPL_FAULT_CNT).toNat + 1) := by
    rw [State.reg_setRegB_other _ 1 true (regKey_inj.not.2 (by decide)), State.reg_count_same]
  split
  · exact ht
  · exact ht

/-- Of the registers, a complement fault changes its count and MT_ERR_STAT. -/
theorem State.cplFault_reg_other (s : State) (r : RecRef) {f o : Nat}
    (hcnt : regKey f o ≠ regKey 0 Reg.MT_CPL_FAULT_CNT) (herr : regKey f o ≠ regKey 0 Reg.MT_ERR_STAT) :
    (s.cplFault r).reg f o = s.reg f o := by
  unfold State.cplFault
  extract_lets t
  have ht : t.reg f o = s.reg f o := by
    rw [State.reg_setRegB_other _ 1 true herr, State.reg_count_other _ 1 hcnt]
  split
  · exact ht
  · exact ht

@[simp] theorem State.cplFault_far (s : State) (r : RecRef) : (s.cplFault r).far = s.far := by
  simp only [State.cplFault]
  split <;> simp

/-! ### The far windows (R49, R50) -/

/-! While PF0's registers answer, the two commands run. -/

theorem execFarRead_of_pf0 {s : State} (h : s.pf0 = true) : exec .farRead s = .next s.farRead := by
  change execFarRead s = _
  simp [execFarRead, h]

theorem execFarWrite_of_pf0 {s : State} (h : s.pf0 = true) : exec .farWrite s = .next s.farWrite := by
  change execFarWrite s = _
  simp [execFarWrite, h]

/-- Settles O24: the refused entry, the stored pair, and the words of a window read back. -/
theorem farWindowEntries : Obligations.FarWindowEntries := by
  refine ⟨fun s hpf0 hbad => ?_, fun s hpf0 hbad => ?_, fun s j hpf0 hj hok => ?_, fun s j hpf0 hj hok => ?_⟩
  · simp only [execFarWrite_of_pf0 hpf0, State.farWrite, hbad, if_true]
  · simp only [execFarWrite_of_pf0 hpf0, State.farWrite, hbad, Bool.false_eq_true, if_false]
    exact ⟨_, rfl, rfl, rfl, State.farEntry_setFar_same .., fun k hk => State.farEntry_setFar_other _ _ hk⟩
  · simp only [execFarRead_of_pf0 hpf0, State.farRead, hok, if_true]
    refine ⟨_, rfl, State.loadWords_mem .., State.loadWords_far .., ?_⟩
    rw [State.loadWords_reg_at _ _ _ _ hj, toNat_ofNat_div_eq_getF]
  · simp only [execFarRead_of_pf0 hpf0, State.farRead, hok, Bool.false_eq_true, if_false]
    refine ⟨_, rfl, by simp, (State.loadWords_far ..).trans (State.cplFault_far ..), ?_, ?_⟩
    · rw [State.loadWords_reg_at _ _ _ _ hj]
      interval_cases j <;> rfl
    · have hout (i : Nat) (_ : i < 4) : regKey 0 Reg.MT_CPL_FAULT_CNT ≠ regKey 0 (Reg.MT_FAR_W + 4 * i) :=
        regKey_inj.not.2 (by simp only [Reg.MT_FAR_W, Reg.MT_CPL_FAULT_CNT]; omega)
      rw [State.loadWords_reg_other _ _ hout, State.cplFault_count]

end Sys2Proof.Machine
end

section
/-!
PROOFS. The waymarks as the host acts on them (R65, R265, R270, R278).
-/

namespace Sys2Proof.Machine

/-! ### Waymarks of the state -/

/-- Storing a waymark leaves the others. -/
theorem State.wm_setWm_other (s : State) {p w q v : Nat} (x : Pair 64) (hw : w < 4096) (hv : v < 4096)
    (h : (q, v) ≠ (p, w)) : (s.setWm p w x).wm q v = s.wm q v :=
  tget_tput_other _ s.wms x fun he => h (Prod.ext_iff.2 ⟨by omega, by omega⟩)

/-- A waymark depends on the table of waymarks alone. -/
theorem State.wm_congr {s t : State} (h : t.wms = s.wms) (p w : Nat) : t.wm p w = s.wm p w := by
  rw [State.wm, State.wm, h]

/-- The function that serves the partition of a VF is the VF. -/
theorem vfOf_pred {fn : Nat} (h : fn ≠ 0) : vfOf (fn - 1) = fn := Nat.sub_add_cancel (by omega)

/-! ### Interrupts and the errors of the rings -/

@[simp] theorem State.msix_regs (s : State) (fn v : Nat) : (s.msix fn v).regs = s.regs := by
  simp only [State.msix]
  split <;> rfl

@[simp] theorem State.msix_wms (s : State) (fn v : Nat) : (s.msix fn v).wms = s.wms := by
  simp only [State.msix]
  split <;> rfl

/-- A register depends on the register file alone. -/
theorem State.reg_congr {s t : State} (h : t.regs = s.regs) (f o : Nat) : t.reg f o = s.reg f o := by
  rw [State.reg, State.reg, h]

@[simp] theorem State.msix_reg (s : State) (fn v f o : Nat) : (s.msix fn v).reg f o = s.reg f o :=
  State.reg_congr (s.msix_regs fn v) f o

/-- A VF's interrupt is sent in any state of the node's life. -/
theorem State.msix_out (s : State) {fn : Nat} (v : Nat) (h : fn ≠ 0) : (s.msix fn v).out = .msix fn v :: s.out := by
  rw [State.msix, if_neg (by simp [h])]
  rfl

@[simp] theorem State.cqError_wms (s : State) (p : Nat) (bits : List Nat) : (s.cqError p bits).wms = s.wms := by
  simp only [State.cqError]
  split <;> simp

/-- Of the registers, an error of the rings changes CQ_ERR_STAT alone. -/
theorem State.cqError_reg_other (s : State) (p : Nat) (bits : List Nat) {f o : Nat}
    (h : regKey f o ≠ regKey (vfOf p) Reg.CQ_ERR_STAT) : (s.cqError p bits).reg f o = s.reg f o := by
  simp only [State.cqError]
  split <;> simp [State.reg_setReg_other s _ h]

/-- A reported error shows its bit. -/
theorem State.cqError_regB (s : State) (p : Nat) {i : Nat} (h : i < 32) :
    (s.cqError p [i]).regB (vfOf p) Reg.CQ_ERR_STAT i = true := by
  have hbit := getB_setB_same (s.reg (vfOf p) Reg.CQ_ERR_STAT) i true h
  have hreg : (s.cqError p [i]).reg (vfOf p) Reg.CQ_ERR_STAT = setB (s.reg (vfOf p) Reg.CQ_ERR_STAT) i true := by
    simp only [State.cqError]
    split <;> simp
  rw [State.regB, hreg, hbit]

@[simp] theorem State.cplFault_wms (s : State) (r : RecRef) : (s.cplFault r).wms = s.wms := by
  simp only [State.cplFault]
  split <;> simp

/-! ### The watch -/

@[simp] theorem State.watchFire_wms (s : State) (p : Nat) : (s.watchFire p).wms = s.wms := by
  simp only [State.watchFire]
  split <;> simp

/-- Of the registers, the watch changes CQ_WATCH_CTL alone. -/
theorem State.watchFire_reg_other (s : State) (p : Nat) {f o : Nat}
    (h : regKey f o ≠ regKey (vfOf p) Reg.CQ_WATCH_CTL) : (s.watchFire p).reg f o = s.reg f o := by
  simp only [State.watchFire]
  split <;> simp [State.reg_setRegB_other s _ _ h]

/-- What the watch of a VF looks for. -/
def State.watchWant (s : State) (fn : Nat) : Nat :=
  s.regF fn Reg.CQ_WATCH_HI 0 31 * 2 ^ 32 + (s.reg fn Reg.CQ_WATCH_LO).toNat

/-- An armed watch whose COUNT has been reached fires. -/
theorem State.watchFire_of_reached {s : State} {p w : Nat} (harm : s.regB (vfOf p) Reg.CQ_WATCH_CTL 31 = true)
    (hw : s.regF (vfOf p) Reg.CQ_WATCH_CTL 0 12 = w) (hok : (s.wm p w).ok = true)
    (h : s.watchWant (vfOf p) ≤ wmCount (s.wm p w).val) :
    s.watchFire p = (s.setRegB (vfOf p) Reg.CQ_WATCH_CTL 31 false).msix (vfOf p) 7 := by
  subst hw
  rw [State.watchWant] at h
  simp only [State.watchFire, harm, hok, h, decide_true, Bool.and_self, if_true]

/-- A watch whose COUNT has not been reached does nothing. -/
theorem State.watchFire_of_below {s : State} {p w : Nat} (hw : s.regF (vfOf p) Reg.CQ_WATCH_CTL 0 12 = w)
    (h : wmCount (s.wm p w).val < s.watchWant (vfOf p)) : s.watchFire p = s := by
  subst hw
  rw [State.watchWant] at h
  simp only [State.watchFire, Nat.not_le.2 h, decide_false, Bool.and_false, Bool.false_eq_true, if_false]

/-- CQ_WATCH_CTL keeps the number of its waymark through the mask of its fields. -/
theorem getF_watchCtl (v : Word) : getF (v &&& 0x80000FFF#32) 0 12 = getF v 0 12 := by
  refine Nat.eq_of_testBit_eq fun i => ?_
  rw [getF_testBit, getF_testBit]
  by_cases hi : i < 12
  · have hmask : ∀ j < 12, (0x80000FFF#32).getLsbD (0 + j) = true := by decide
    rw [BitVec.getLsbD_and, hmask i hi, Bool.and_true]
  · simp [hi]

theorem getB_watchCtl (v : Word) : getB (v &&& 0x80000FFF#32) 31 = getB v 31 := by
  rw [getB, BitVec.getLsbD_and, show (0x80000FFF#32).getLsbD 31 = true by decide, Bool.and_true, getB]

/-! ### The commands of a served VF -/

/-- An add leaves memory and the other waymarks, and the waymark holds the saturated sum. -/
theorem State.wmIncrease_wms (s : State) (p w n : Nat) (poison : Bool) :
    (s.wmIncrease p w n poison).wms = (s.setWm p w (pairOf (wmMake (min (wmCount (s.wm p w).val + n) (2 ^ 63 - 1))
      (wmPoison (s.wm p w).val || poison)))).wms := by
  simp only [State.wmIncrease, State.watchFire_wms]
  split
  · rw [State.cqError_wms]
  · rfl

/-- An add that saturates is shown in CQ_ERR_STAT. -/
theorem State.wmIncrease_sat {s : State} {p w n : Nat} (poison : Bool) (h : 2 ^ 63 - 1 < wmCount (s.wm p w).val + n) :
    (s.wmIncrease p w n poison).regB (vfOf p) Reg.CQ_ERR_STAT 5 = true := by
  simp only [State.wmIncrease, if_pos h]
  rw [State.regB, State.watchFire_reg_other _ _ (regKey_inj.not.2 (by decide))]
  exact State.cqError_regB _ p (by decide)

section
variable {s : State} {fn w : Nat} (hfn : fn ≠ 0) (hw : w < 4096) (hserved : s.fnServed fn = true)
include hfn hw hserved

theorem execWmZero_served : exec (.wmZero fn w) s = .next
    (({ s with suspects := s.suspects.filter fun (x : Suspect) => x.what != RecRef.waymark (fn - 1) w }.setWm
      (fn - 1) w (pairOf 0)).watchFire (fn - 1)) := by
  change execWmZero fn w s = _
  simp [execWmZero, State.wmZero, hfn, hw, hserved]

theorem execWmClearPoison_served : exec (.wmClearPoison fn w) s = .next
    (if (s.wm (fn - 1) w).ok then
      (s.setWm (fn - 1) w (pairOf (wmMake (wmCount (s.wm (fn - 1) w).val) false))).watchFire (fn - 1)
    else s.cplFault (.waymark (fn - 1) w)) := by
  change execWmClearPoison fn w s = _
  simp [execWmClearPoison, State.wmClearPoison, hfn, hw, hserved]

theorem execWmAdd_served (x : BitVec 64) : exec (.wmAdd fn w x) s = .next
    (if (s.wm (fn - 1) w).ok then s.wmIncrease (fn - 1) w x.toNat false
    else (s.cplFault (.waymark (fn - 1) w)).cqError (fn - 1) [4]) := by
  change execWmAdd fn w x s = _
  simp [execWmAdd, State.wmAdd, hfn, hw, hserved]

theorem execWmValueRead_served : exec (.wmValueRead fn w true) s = .next
    ((s.wmSeen fn w).emit (.regData64 (s.wmRead fn w))) := by
  change execWmValueRead fn w true s = _
  simp [execWmValueRead, hfn, Nat.not_le.2 hw, hserved]

end

@[simp] theorem State.wmSeen_wms (s : State) (fn w : Nat) : (s.wmSeen fn w).wms = s.wms := by
  simp only [State.wmSeen]
  split <;> simp

@[simp] theorem State.cplFault_out (s : State) (r : RecRef) : (s.cplFault r).out = s.out := by
  simp only [State.cplFault]
  split <;> simp

@[simp] theorem State.wmSeen_out (s : State) (fn w : Nat) : (s.wmSeen fn w).out = s.out := by
  simp only [State.wmSeen]
  split <;> simp

/-- A write of CQ_WATCH_CTL that sets EN: the watch fires at once or stays armed. -/
theorem State.watchArm_served {s : State} {fn : Nat} (v : Word) (hfn : fn ≠ 0) (hserved : s.fnServed fn = true) :
    s.watchArm fn v = (s.setReg fn Reg.CQ_WATCH_CTL (v &&& 0x80000FFF#32)).watchFire (fn - 1) := by
  simp [State.watchArm, hfn, hserved]

/-- Settles O19: each command of a served VF acts on its waymark, and the watch compares the COUNT that it names. -/
theorem waymarksFromTheHost : Obligations.WaymarksFromTheHost := by
  refine ⟨fun s fn w hfn hw hserved => ?_, fun s fn w hfn hw hserved hok => ?_, fun s fn w x hfn hw hserved hok => ?_,
    fun s fn w x c hfn hw hserved hbad hc => ?_, fun s fn w hfn hw hserved => ?_,
    fun s fn v w hfn hserved hen hw hok => ?_⟩
  · refine ⟨_, execWmZero_served hfn hw hserved, State.watchFire_mem .., ?_, fun q v hv hne => ?_⟩
    · rw [State.wm_congr (State.watchFire_wms ..), State.wm_setWm_same]
    · rw [State.wm_congr (State.watchFire_wms ..), State.wm_setWm_other _ _ hw hv hne]
      rfl
  · rw [execWmClearPoison_served hfn hw hserved, if_pos hok]
    refine ⟨_, rfl, State.watchFire_mem .., ?_, fun q v hv hne => ?_⟩
    · rw [State.wm_congr (State.watchFire_wms ..), State.wm_setWm_same]
    · rw [State.wm_congr (State.watchFire_wms ..), State.wm_setWm_other _ _ hw hv hne]
  · rw [execWmAdd_served hfn hw hserved x, if_pos hok]
    refine ⟨_, rfl, State.wmIncrease_mem .., ?_, fun hsat => ?_, fun q v hv hne => ?_⟩
    · rw [State.wm_congr (State.wmIncrease_wms ..), State.wm_setWm_same, Bool.or_false]
    · exact vfOf_pred hfn ▸ State.wmIncrease_sat false hsat
    · rw [State.wm_congr (State.wmIncrease_wms ..), State.wm_setWm_other _ _ hw hv hne]
  · rcases hc with rfl | rfl
    · rw [execWmClearPoison_served hfn hw hserved, hbad, if_neg (by decide)]
      exact ⟨_, rfl, State.cplFault_mem .., State.cplFault_wms .., State.cplFault_count ..⟩
    · rw [execWmAdd_served hfn hw hserved x, hbad, if_neg (by decide)]
      refine ⟨_, rfl, by simp, by simp, ?_⟩
      rw [State.cqError_reg_other _ _ _ (regKey_ne_pf0 (Nat.succ_ne_zero _) (by decide)).symm, State.cplFault_count]
  · refine ⟨_, execWmValueRead_served hfn hw hserved, by simp, (s.wmSeen_wms fn w), ?_⟩
    exact congrArg₂ List.cons rfl (s.wmSeen_out fn w)
  · change ∃ t, Host.Outcome.next (s.watchArm fn v) = .next t ∧ _
    rw [State.watchArm_served v hfn hserved]
    have hvf := vfOf_pred hfn
    generalize hs' : s.setReg fn Reg.CQ_WATCH_CTL (v &&& 0x80000FFF#32) = s'
    have hreg : s'.reg fn Reg.CQ_WATCH_CTL = v &&& 0x80000FFF#32 := by rw [← hs', State.reg_setReg_same]
    have hwm : s'.wm (fn - 1) (getF v 0 12) = w := by rw [hw, ← hs']; rfl
    have hnum : s'.regF (vfOf (fn - 1)) Reg.CQ_WATCH_CTL 0 12 = getF v 0 12 := by
      rw [hvf, State.regF, hreg, getF_watchCtl]
    have harm : s'.regB fn Reg.CQ_WATCH_CTL 31 = true := by rw [State.regB, hreg, getB_watchCtl, hen]
    have hwant : s'.watchWant fn = s.regF fn Reg.CQ_WATCH_HI 0 31 * 2 ^ 32 + (s.reg fn Reg.CQ_WATCH_LO).toNat := by
      rw [← hs', State.watchWant, State.regF, State.reg_setReg_other _ _ (regKey_inj.not.2 (by decide)),
        State.reg_setReg_other _ _ (regKey_inj.not.2 (by decide)), State.regF]
    refine ⟨_, rfl, by rw [State.watchFire_mem, ← hs']; rfl, by rw [State.watchFire_wms, ← hs']; rfl,
      fun hbelow => ?_, fun hreached => ?_⟩
    · rw [State.watchFire_of_below hnum (by rwa [hvf, hwm, hwant])]
      exact ⟨harm, by rw [← hs']; rfl⟩
    · rw [State.watchFire_of_reached (by rwa [hvf]) hnum (by rwa [hwm]) (by rwa [hvf, hwm, hwant]), hvf]
      refine ⟨?_, by rw [State.msix_out _ _ hfn, ← hs']; rfl⟩
      rw [State.regB, State.msix_reg]
      exact State.regB_setRegB_same _ _ _ _ _ (by decide)

end Sys2Proof.Machine
end

section
/-!
PROOFS. The object-table window (R53, R56, R447).
-/

namespace Sys2Proof.Machine

/-! ### Objects of the state -/

/-- Storing an object leaves the others. -/
theorem State.obj_setObj_other (s : State) {p i q j : Nat} (v : BitVec 256) (hi : i < 1024) (hj : j < 1024)
    (h : (q, j) ≠ (p, i)) : (s.setObj p i v).obj q j = s.obj q j :=
  tget_tput_other _ s.objs v fun he => h (Prod.ext_iff.2 ⟨by omega, by omega⟩)

/-- An object depends on the object table alone. -/
theorem State.obj_congr {s t : State} (h : t.objs = s.objs) (p i : Nat) : t.obj p i = s.obj p i := by
  rw [State.obj, State.obj, h]

@[simp] theorem State.setRegB_obj (s : State) (fn off i : Nat) (b : Bool) (p j : Nat) :
    (s.setRegB fn off i b).obj p j = s.obj p j := rfl

/-! ### Rows that become raw or coded -/

@[simp] theorem State.unitRaw_objs (s : State) (k : Nat) : (s.unitRaw k).objs = s.objs := by
  simp only [State.unitRaw]
  split
  · rfl
  · simp
  · split <;> simp

@[simp] theorem State.rowsRaw_objs (s : State) (rs : List Nat) : (s.rowsRaw rs).objs = s.objs :=
  foldl_keeps State.objs State.unitRaw_objs _ s

/-- On a node with no latent error nothing changes when rows become raw. -/
theorem State.rowsRaw_of_clean {s : State} (h : s.ecc = []) (rs : List Nat) : s.rowsRaw rs = s := by
  simp [State.rowsRaw, h]

@[simp] theorem State.recodeRows_objs (s : State) (p a n : Nat) : (s.recodeRows p a n).objs = s.objs := rfl

@[simp] theorem State.recodeRows_ecc (s : State) (p a n : Nat) : (s.recodeRows p a n).ecc = s.ecc := rfl

/-! ### Changing and committing an entry -/

/-- Of the objects, a change of an entry stores that entry alone. -/
theorem State.objChange_objs (s : State) (p i : Nat) (v : BitVec 256) :
    (s.objChange p i v).objs = (s.setObj p i v).objs := by
  unfold State.objChange
  extract_lets o s₁ s₂ s₃
  have h₂ : s₂.objs = s₁.objs := by
    simp only [s₂]
    split <;> rfl
  have h₃ : s₃.objs = s₂.objs := by
    simp only [s₃]
    split
    · exact State.rowsRaw_objs ..
    · rfl
  exact h₃.trans h₂

/-- A change of an entry leaves memory, unless it makes rows with latent errors raw. -/
theorem State.objChange_mem {s : State} (p i : Nat) {v : BitVec 256} (h : s.ecc = [] ∨ objRaw v = false) :
    (s.objChange p i v).mem = s.mem := by
  unfold State.objChange
  extract_lets o s₁ s₂ s₃
  have h₂ : s₂.mem = s.mem ∧ s₂.ecc = s.ecc := by
    simp only [s₂]
    split <;> exact ⟨rfl, rfl⟩
  obtain ⟨hmem, hecc⟩ := h₂
  refine Eq.trans ?_ hmem
  change s₃.mem = s₂.mem
  simp only [s₃]
  rcases h with h | h
  · rw [State.rowsRaw_of_clean (hecc.trans h), ite_self]
  · simp [h]

/-- What a commit does: it stores the entry, or shows why it is refused. -/
theorem State.objCommit_effect (s : State) (p : Nat) {i : Nat} (v : BitVec 256) (hi : i < 1024) :
    (s.ecc = [] ∨ objRaw v = false → (s.objCommit p i v).mem = s.mem) ∧
      (∀ q j, j < 1024 → (q, j) ≠ (p, i) → (s.objCommit p i v).obj q j = s.obj q j) ∧
      (s.boundObj p i = false → s.arenaBusy p i v = false → (s.objCommit p i v).obj p i = v) ∧
      (s.boundObj p i = true →
        (s.objCommit p i v).objs = s.objs ∧ (s.objCommit p i v).regB 0 Reg.KN_ERR_STAT 2 = true) ∧
      (s.boundObj p i = false → s.arenaBusy p i v = true →
        (s.objCommit p i v).objs = s.objs ∧ (s.objCommit p i v).regB 0 Reg.MT_ERR_STAT 2 = true) := by
  rcases hbound : s.boundObj p i with _ | _
  · rcases hbusy : s.arenaBusy p i v with _ | _
    · have hcommit : s.objCommit p i v = s.objChange p i v := by simp [State.objCommit, hbound, hbusy]
      rw [hcommit]
      refine ⟨State.objChange_mem _ _, fun q j hj hne => ?_, fun _ _ => ?_, by simp, by simp⟩
      · rw [State.obj_congr (State.objChange_objs ..), State.obj_setObj_other _ _ hi hj hne]
      · rw [State.obj_congr (State.objChange_objs ..), State.obj_setObj_same]
    · simp [State.objCommit, hbound, hbusy]
  · simp [State.objCommit, hbound]

/-- The entry that a write to the object-table window patches: the staging copy of the function, when it is of the same
entry, or the object. -/
def State.objStaged (s : State) (fn i : Nat) : BitVec 256 :=
  match s.objStage.find? fun e => e.1 == fn with
  | some (_, j, w) => if j = i then w else s.obj (fn - 1) i
  | none => s.obj (fn - 1) i

/-- The entry after a write to the object-table window. -/
def State.objPatched (s : State) (fn off : Nat) (bs : List Byte) : BitVec 256 :=
  BitVec.ofNat 256 (leNat (patch (leBytes 32 (s.objStaged fn (off / 32)).toNat) (off % 32) bs))

/-- An aligned write of a served VF inside the window commits the patched entry or stages it. -/
theorem State.objWindow_served {s : State} {fn off : Nat} {bs : List Byte} (hfn : fn ≠ 0)
    (hserved : s.fnServed fn = true) (hlen : bs.length = 4 ∨ bs.length = 8) (halign : off % bs.length = 0)
    (hend : off + bs.length ≤ 0x8000) :
    s.objWindow fn off bs =
      if off % 32 + bs.length = 32 then
        { s with objStage := s.objStage.filter fun e => e.1 != fn }.objCommit (fn - 1) (off / 32)
          (s.objPatched fn off bs)
      else
        { s with objStage := (s.objStage.filter fun e => e.1 != fn) ++ [(fn, off / 32, s.objPatched fn off bs)] } := by
  have hno : ¬(fn = 0 ∨ (!s.fnServed fn) = true ∨ 0x8000 < off + bs.length ∨
      (!(bs.length == 4 || bs.length == 8)) = true ∨ off % bs.length ≠ 0) := by
    simp only [hserved, halign, Bool.not_true, Bool.false_eq_true, Bool.not_eq_true', Bool.or_eq_false_iff,
      beq_eq_false_iff_ne, ne_eq, not_true, or_false, false_or]
    omega
  simp only [State.objWindow]
  rw [if_neg hno]
  rfl

/-- Settles O23: the write stages the patched entry or commits it, and a commit stores it or reports why not. -/
theorem objectTableWindow : Obligations.ObjectTableWindow := by
  intro s fn off bs v hfn hserved hlen halign hend hv
  have hv : s.objPatched fn off bs = v := hv.symm
  refine ⟨_, rfl, ?_⟩
  rw [State.objWindow_served hfn hserved hlen halign hend, hv]
  by_cases hlast : off % 32 + bs.length = 32
  · rw [if_pos hlast]
    obtain ⟨hmem, hothers, hstored, hbound, hbusy⟩ :=
      { s with objStage := s.objStage.filter fun e => e.1 != fn }.objCommit_effect (fn - 1) (i := off / 32) v (by omega)
    exact ⟨hmem, hothers, fun h => by omega, fun _ => hstored, fun _ => hbound, fun _ => hbusy⟩
  · rw [if_neg hlast]
    exact ⟨fun _ => rfl, fun _ _ _ _ => rfl, fun _ => ⟨rfl, by simp⟩, fun h => absurd h hlast,
      fun h => absurd h hlast, fun h => absurd h hlast⟩

end Sys2Proof.Machine
end

section
/-!
PROOFS. Waykeys (R307 to R310, R315, R343): the table from CREATE to the end of a revocation, and what awaits its
placement on the connections.
-/

namespace Sys2Proof.Machine

/-! ### The waykeys and the packets that await placement -/

/-- The packets of a connection that are past the tollgate and not placed. -/
def State.unplaced (s : State) (k : Nat) : List Placing := (s.conn k).placing

/-- The waykeys, and the packets that await placement: what messages that take effect leave. -/
def State.wkView (s : State) : List (Nat × Pair 256) × (Nat → List Placing) := (s.waykeys, s.unplaced)

/-- A waykey depends on the table alone. -/
theorem State.waykey_congr {s t : State} (h : t.waykeys = s.waykeys) (i : Nat) : t.waykey i = s.waykey i := by
  rw [State.waykey, State.waykey, h]

theorem State.waykeys_of_wkView {s t : State} (h : t.wkView = s.wkView) : t.waykeys = s.waykeys := (Prod.ext_iff.1 h).1

theorem State.unplaced_of_wkView {s t : State} (h : t.wkView = s.wkView) : t.unplaced = s.unplaced :=
  (Prod.ext_iff.1 h).2

@[simp] theorem ite_wkView (c : Prop) [Decidable c] (s t : State) :
    (if c then s else t).wkView = if c then s.wkView else t.wkView := apply_ite State.wkView c s t

@[simp] theorem State.setReg_wkView (s : State) (fn off : Nat) (v : Word) : (s.setReg fn off v).wkView = s.wkView := rfl

@[simp] theorem State.setRegB_wkView (s : State) (fn off i : Nat) (b : Bool) :
    (s.setRegB fn off i b).wkView = s.wkView := rfl

@[simp] theorem State.count_wkView (s : State) (fn off n : Nat) : (s.count fn off n).wkView = s.wkView := rfl

@[simp] theorem State.hwm_wkView (s : State) (fn off v : Nat) : (s.hwm fn off v).wkView = s.wkView := rfl

@[simp] theorem State.emit_wkView (s : State) (o : Out) : (s.emit o).wkView = s.wkView := rfl

@[simp] theorem State.drawn_wkView (s : State) : s.drawn.wkView = s.wkView := rfl

@[simp] theorem State.setEcc_wkView (s : State) (k : Nat) (e : Ecc) : (s.setEcc k e).wkView = s.wkView := rfl

@[simp] theorem State.wake_wkView (s : State) (u : GateUnit) : (s.wake u).wkView = s.wkView := rfl

@[simp] theorem State.setWm_wkView (s : State) (p w : Nat) (v : Pair 64) : (s.setWm p w v).wkView = s.wkView := rfl

@[simp] theorem State.engineWrite_wkView (s : State) (part cmd a : Nat) (bs : List Byte) :
    (s.engineWrite part cmd a bs).wkView = s.wkView := rfl

@[simp] theorem State.postedNow_wkView (s : State) (id : Nat) : (s.postedNow id).wkView = s.wkView := rfl

@[simp] theorem State.logViolation_wkView (s : State) (p : Nat) (r : List Byte) :
    (s.logViolation p r).wkView = s.wkView := rfl

@[simp] theorem State.depthMark_wkView (s : State) (p tc : Nat) : (s.depthMark p tc).wkView = s.wkView := rfl

/-- A connection entry stored with the same packets to place. -/
theorem State.setConn_wkView {s : State} {i : Nat} {c : Conn} (h : c.placing = s.unplaced i) :
    (s.setConn i c).wkView = s.wkView := by
  refine Prod.ext rfl (funext fun k => ?_)
  by_cases hk : k = i
  · subst hk
    exact (congrArg Conn.placing (State.conn_setConn_same s k c)).trans h
  · exact congrArg Conn.placing (State.conn_setConn_other s c hk)

/-! ### What leaves them -/

@[simp] theorem State.msix_wkView (s : State) (fn v : Nat) : (s.msix fn v).wkView = s.wkView := by simp [State.msix]

@[simp] theorem State.cqError_wkView (s : State) (p : Nat) (bits : List Nat) :
    (s.cqError p bits).wkView = s.wkView := by
  simp [State.cqError]

@[simp] theorem State.cplFault_wkView (s : State) (r : RecRef) : (s.cplFault r).wkView = s.wkView := by
  simp only [State.cplFault]
  split <;> rfl

@[simp] theorem State.watchFire_wkView (s : State) (p : Nat) : (s.watchFire p).wkView = s.wkView := by
  simp [State.watchFire]

@[simp] theorem State.wmIncrease_wkView (s : State) (p w n : Nat) (poison : Bool) :
    (s.wmIncrease p w n poison).wkView = s.wkView := by simp [State.wmIncrease]

@[simp] theorem State.signal_wkView (s : State) (p w : Nat) (poison : Bool) :
    (s.signal p w poison).wkView = s.wkView := by simp [State.signal]

@[simp] theorem State.activate_wkView (s : State) (r : Nat) : (s.activate r).wkView = s.wkView := by
  simp only [State.activate]
  split <;> rfl

@[simp] theorem State.opens_wkView (s : State) (a n : Nat) : (s.opens a n).wkView = s.wkView :=
  foldl_keeps State.wkView State.activate_wkView _ s

@[simp] theorem State.countEcc_wkView (s : State) (a : Nat) (ue : Bool) : (s.countEcc a ue).wkView = s.wkView := by
  simp [State.countEcc]

@[simp] theorem State.wantRemap_wkView (s : State) (r : Nat) : (s.wantRemap r).wkView = s.wkView := by
  simp only [State.wantRemap]
  split <;> rfl

@[simp] theorem State.noteCorrected_wkView (s : State) (r : Nat) : (s.noteCorrected r).wkView = s.wkView := by
  simp only [State.noteCorrected]
  split
  · exact State.wantRemap_wkView ..
  · rfl

@[simp] theorem State.meetSector_wkView (s : State) (k : Nat) : (s.meetSector k).wkView = s.wkView := by
  simp only [State.meetSector]
  split <;> simp

@[simp] theorem State.scanned_wkView (s : State) (a n : Nat) : (s.scanned a n).wkView = s.wkView :=
  foldl_keeps State.wkView State.meetSector_wkView _ s

@[simp] theorem State.codedWrite_wkView (s : State) (part cmd a : Nat) (bs : List Byte) :
    (s.codedWrite part cmd a bs).wkView = s.wkView := by
  simp only [State.codedWrite, State.engineWrite_wkView]
  rw [foldl_keeps State.wkView State.meetSector_wkView, State.opens_wkView]

@[simp] theorem State.abandonedWrite_wkView (s : State) (part cmd a : Nat) (bs : List Byte) :
    (s.abandonedWrite part cmd a bs).wkView = s.wkView := by
  rw [State.abandonedWrite, foldl_keeps State.wkView]
  intro t x
  simp

@[simp] theorem State.readOut_wkView (s : State) (a n : Nat) : (s.readOut a n).2.wkView = s.wkView := by
  simp only [State.readOut]
  split
  · exact State.scanned_wkView ..
  · exact State.scanned_wkView ..

/-! ### Sending -/

@[simp] theorem State.enqueued_wkView (s : State) (i tc : Nat) : (s.enqueued i tc).wkView = s.wkView := by
  rw [State.enqueued, foldl_keeps State.wkView, State.depthMark_wkView]
  intro t ex
  split <;> simp

@[simp] theorem State.sendMsg_wkView (s : State) (i op waykey base len : Nat) (ext data : List Byte) (owner : Owner)
    (num : Option Nat) : (s.sendMsg i op waykey base len ext data owner num).wkView = s.wkView := by
  simp only [State.sendMsg, State.enqueued_wkView]
  refine State.setConn_wkView ?_
  cases num with
  | some n => rfl
  | none =>
    simp only
    split
    · rfl
    · split <;> rfl

@[simp] theorem Conn.giveBack_placing (c : Conn) (tc n : Nat) : (c.giveBack tc n).placing = c.placing := rfl

@[simp] theorem Conn.descDone_placing (c : Conn) (msg : Nat) : (c.descDone msg).placing = c.placing := by
  simp only [Conn.descDone]
  split
  · split <;> rfl
  · rfl

@[simp] theorem Conn.egress_placing (c : Conn) (op : Nat) (payload : List Byte) :
    (c.egress op payload).placing = c.placing := by
  simp only [Conn.egress]
  split <;> rfl

@[simp] theorem State.refuse_wkView (s : State) (i op tenant psn msg waykey off reason : Nat) :
    (s.refuse i op tenant psn msg waykey off reason).wkView = s.wkView := by
  simp only [State.refuse]
  split
  · simp
  · rw [State.sendMsg_wkView, State.setConn_wkView (by rfl), State.logViolation_wkView]

@[simp] theorem State.remoteRecord_wkView (s : State)
    (i gen msg pos status eng flags part result tag detail cmd : Nat) :
    (s.remoteRecord i gen msg pos status eng flags part result tag detail cmd).wkView = s.wkView := by
  simp only [State.remoteRecord]
  split
  · rw [State.sendMsg_wkView, State.drawn_wkView, State.setConn_wkView (by exact Conn.descDone_placing ..)]
  · rfl

/-! ### Messages that take effect (R302) -/

@[simp] theorem State.refuseDescs_wkView (s : State) (i : Nat) (m : RxMsg) (b : List Byte) (n eng status : Nat) :
    (s.refuseDescs i m b n eng status).wkView = s.wkView := by
  rw [State.refuseDescs, foldl_keeps State.wkView, State.setConn_wkView (by rfl)]
  intro t k
  simp

theorem State.cmdVisible_wkView (s : State) (i : Nat) (m : RxMsg) : (s.cmdVisible i m).wkView = s.wkView := by
  unfold State.cmdVisible
  extract_lets b c p eng n units
  split
  · split
    · rw [State.refuse_wkView, State.setConn_wkView (by rfl)]
    · exact State.refuseDescs_wkView ..
  · split
    · exact State.refuseDescs_wkView ..
    · split
      · simp
      · exact State.setConn_wkView rfl

theorem State.serveRead_wkView (s : State) (i : Nat) (m : RxMsg) : (s.serveRead i m).wkView = s.wkView := by
  simp only [State.serveRead]
  split
  · rfl
  · simp

theorem State.writeDone_wkView (s : State) (m : RxMsg) : (s.writeDone m).wkView = s.wkView := by
  simp [State.writeDone]

theorem State.visible_wkView (s : State) (i : Nat) (m : RxMsg) : (s.visible i m).wkView = s.wkView := by
  simp only [State.visible]
  split
  · rfl
  · split
    · exact s.writeDone_wkView m
    · exact s.serveRead_wkView i m
    · exact s.cmdVisible_wkView i m

/-! ### The end of a revocation (R310) -/

/-- The end of a revocation leaves what the waykey view shows, but for the entry, which is REVOKED. -/
theorem State.wkRevoked_wkView (s : State) (i : Nat) :
    (s.wkRevoked i).wkView = (s.setWaykey i (pairOf (setF (s.waykey i).val 94 2 3))).wkView := by
  unfold State.wkRevoked
  extract_lets v wm s₁ s₂
  cases wm with
  | some w => exact State.signal_wkView ..
  | none => rfl

theorem State.wkRevoked_waykey_same (s : State) (i : Nat) :
    (s.wkRevoked i).waykey i = pairOf (setF (s.waykey i).val 94 2 3) := by
  rw [State.waykey_congr (State.waykeys_of_wkView (s.wkRevoked_wkView i)), State.waykey_setWaykey_same]

theorem State.wkRevoked_waykey_other (s : State) {i j : Nat} (h : j ≠ i) : (s.wkRevoked i).waykey j = s.waykey j := by
  rw [State.waykey_congr (State.waykeys_of_wkView (s.wkRevoked_wkView i)), State.waykey_setWaykey_other _ _ h]

theorem State.wkRevoked_unplaced (s : State) (i : Nat) : (s.wkRevoked i).unplaced = s.unplaced :=
  State.unplaced_of_wkView (t := s.wkRevoked i) (s := s.setWaykey i (pairOf (setF (s.waykey i).val 94 2 3)))
    (s.wkRevoked_wkView i)

/-- The entry holds a valid pair of a REVOKED key. -/
def State.wkIsRevoked (s : State) (i : Nat) : Prop := (s.waykey i).ok = true ∧ wkState (s.waykey i).val = 3

theorem wkState_setF (v : BitVec 256) (x : Nat) : wkState (setF v 94 2 x) = x % 4 := getF_setF_same v 94 2 x (by decide)

theorem State.wkRevoked_isRevoked (s : State) (i : Nat) : (s.wkRevoked i).wkIsRevoked i := by
  rw [State.wkIsRevoked, State.wkRevoked_waykey_same]
  exact ⟨pairOf_ok _, wkState_setF _ 3⟩

theorem State.wkIsRevoked_congr {s t : State} {i : Nat} (h : t.waykeys = s.waykeys) (hs : s.wkIsRevoked i) :
    t.wkIsRevoked i := by
  rwa [State.wkIsRevoked, State.waykey_congr h]

/-- A key that is not CLOSING does not settle. -/
theorem State.wkSettle_of_not_closing {s : State} {i : Nat} (h : wkState (s.waykey i).val ≠ 2 ∨ s.wkInflight i ≠ 0) :
    s.wkSettle i = s := by
  rw [State.wkSettle, if_neg]
  simp only [State.wkClosing, Bool.and_eq_true, beq_iff_eq]
  tauto

/-- A CLOSING key with nothing in flight settles. -/
theorem State.wkSettle_of_closing {s : State} {i : Nat} (hok : (s.waykey i).ok = true)
    (hst : wkState (s.waykey i).val = 2) (h : s.wkInflight i = 0) : s.wkSettle i = s.wkRevoked i := by
  simp [State.wkSettle, State.wkClosing, hok, hst, h]

theorem State.wkSettle_unplaced (s : State) (i : Nat) : (s.wkSettle i).unplaced = s.unplaced := by
  simp only [State.wkSettle]
  split
  · exact s.wkRevoked_unplaced i
  · rfl

/-- A key once REVOKED stays so while others settle. -/
theorem State.wkSettle_isRevoked {s : State} {i : Nat} (j : Nat) (h : s.wkIsRevoked i) :
    (s.wkSettle j).wkIsRevoked i := by
  rcases eq_or_ne i j with rfl | hij
  · rwa [State.wkSettle_of_not_closing (.inl (by rw [h.2]; decide))]
  · simp only [State.wkSettle]
    split
    · rwa [State.wkIsRevoked, State.wkRevoked_waykey_other _ hij]
    · exact h

/-- FRONTIER that advances leaves what awaits placement, and REVOKED keys. -/
theorem State.frontierOn_effect (s : State) (k n : Nat) :
    (s.frontierOn k n).unplaced = s.unplaced ∧ ∀ i, s.wkIsRevoked i → (s.frontierOn k n).wkIsRevoked i := by
  induction n generalizing s with
  | zero => exact ⟨rfl, fun _ h => h⟩
  | succ n ih =>
    simp only [State.frontierOn]
    split
    next m _ =>
      generalize hs₁ : s.setConn k { s.conn k with
        frontier := (s.conn k).frontier + 1, rx := (s.conn k).rx.filter fun x => x.num != m.num } = s₁
      have hview : (s₁.visible k m).wkView = s.wkView := by
        rw [State.visible_wkView, ← hs₁, State.setConn_wkView (by rfl)]
      obtain ⟨hunplaced, hrevoked⟩ := ih ((s₁.visible k m).wkSettle (m.waykey % 65536))
      refine ⟨?_, fun i hi => hrevoked i (State.wkSettle_isRevoked _ ?_)⟩
      · rw [hunplaced, State.wkSettle_unplaced, State.unplaced_of_wkView hview]
      · exact State.wkIsRevoked_congr (State.waykeys_of_wkView hview) hi
    next => exact ⟨rfl, fun _ h => h⟩

theorem State.advance_effect (s : State) (k : Nat) :
    (s.advance k).unplaced = s.unplaced ∧ ∀ i, s.wkIsRevoked i → (s.advance k).wkIsRevoked i :=
  s.frontierOn_effect k _

theorem State.foldl_advance_effect (l : List Nat) (s : State) :
    (l.foldl State.advance s).unplaced = s.unplaced ∧
      ∀ i, s.wkIsRevoked i → (l.foldl State.advance s).wkIsRevoked i := by
  induction l generalizing s with
  | nil => exact ⟨rfl, fun _ h => h⟩
  | cons k l ih =>
    obtain ⟨hunplaced, hrevoked⟩ := s.advance_effect k
    obtain ⟨hunplaced', hrevoked'⟩ := ih (s.advance k)
    exact ⟨hunplaced'.trans hunplaced, fun i hi => hrevoked' i (hrevoked i hi)⟩

/-! ### The drain limit (R310 step 4) -/

/-- The packets of a key that await placement, each with its connection. -/
def State.wkLate (s : State) (i : Nat) : List (Nat × Placing) :=
  s.conns.flatMap fun e =>
    (e.2.placing.filter fun k => (k.op == 1 || k.op == 2) && k.waykey % 65536 == i).map fun k => (e.1, k)

/-- The drain limit abandons one packet of the key of an entry. -/
def State.wkAbandon (v : BitVec 256) (s : State) (x : Nat × Placing) : State :=
  let c := s.conn x.1
  let k := x.2
  let cmd := match c.rx.find? fun m => m.num == k.msg with
    | some m => m.cmd
    | none => s.nextId
  let s : State := if cmd = s.nextId then { s with nextId := s.nextId + 1 } else s
  let s := if k.op = 1 then s.abandonedWrite (wkPart v) cmd (wkBase v + k.offset) k.data else s
  let c := { c with placing := c.placing.filter fun y => y.psn != k.psn }.egress k.op k.data
  s.setConn x.1 (if k.msg < c.frontier then c else { c with rx := addPart c.rx k cmd })

/-- The reads of a key fail on a connection. -/
def Conn.failReads (c : Conn) (i : Nat) : Conn :=
  { c with rx := c.rx.map fun m => if m.op = 2 ∧ m.waykey % 65536 = i then { m with failed := true } else m }

/-- The reads of a key fail. -/
def State.failReads (s : State) (i : Nat) : State := { s with conns := s.conns.map fun e => (e.1, e.2.failReads i) }

/-- The drain limit of a CLOSING key, 8 milestones after its REVOKE. -/
theorem State.wkDrain_of_due {s : State} {i : Nat} (hok : (s.waykey i).ok = true)
    (hst : wkState (s.waykey i).val = 2) (hms : wkMs (s.waykey i).val + 8 ≤ s.ms) :
    s.wkDrain i = ((s.wkLate i).map (·.1)).dedup.foldl State.advance
      ((((s.wkLate i).foldl (State.wkAbandon (s.waykey i).val) s).failReads i).wkRevoked i) := by
  have hdue : (s.wkClosing i && decide (wkMs (s.waykey i).val + 8 ≤ s.ms)) = true := by
    simp [State.wkClosing, hok, hst, hms]
  simp only [State.wkDrain]
  rw [if_pos hdue]
  rfl

/-- Before it, or for a key that is not CLOSING, the drain limit does nothing. -/
theorem State.wkDrain_of_not_due {s : State} {i : Nat}
    (h : wkState (s.waykey i).val ≠ 2 ∨ s.ms < wkMs (s.waykey i).val + 8) : s.wkDrain i = s := by
  have hdue : ¬(s.wkClosing i && decide (wkMs (s.waykey i).val + 8 ≤ s.ms)) = true := by
    simp only [State.wkClosing, Bool.and_eq_true, beq_iff_eq, decide_eq_true_eq]
    omega
  simp only [State.wkDrain]
  rw [if_neg hdue]

/-- An abandoned packet awaits placement no more. -/
theorem State.wkAbandon_unplaced_same (v : BitVec 256) (s : State) (x : Nat × Placing) :
    (s.wkAbandon v x).unplaced x.1 = (s.unplaced x.1).filter fun y => y.psn != x.2.psn := by
  unfold State.wkAbandon State.unplaced
  extract_lets c k cmd s₁ s₂ c'
  rw [State.conn_setConn_same]
  have hc : c'.placing = c.placing.filter fun y => y.psn != k.psn := Conn.egress_placing ..
  split
  · exact hc
  · exact hc

/-- The other connections keep what awaits placement. -/
theorem State.wkAbandon_unplaced_other (v : BitVec 256) (s : State) {x : Nat × Placing} {j : Nat} (h : j ≠ x.1) :
    (s.wkAbandon v x).unplaced j = s.unplaced j := by
  unfold State.wkAbandon
  extract_lets c k cmd s₁ s₂ c'
  refine (congrArg Conn.placing (State.conn_setConn_other _ _ h)).trans ?_
  have h₁ : s₁.wkView = s.wkView := by
    simp only [s₁]
    split <;> rfl
  have h₂ : s₂.wkView = s₁.wkView := by
    simp only [s₂]
    split
    · exact State.abandonedWrite_wkView ..
    · rfl
  exact congrFun (State.unplaced_of_wkView (h₂.trans h₁)) j

/-- What still awaits placement after packets are abandoned awaited it before, and is none of them. -/
theorem State.mem_unplaced_of_abandon {v : BitVec 256} {l : List (Nat × Placing)} {s : State} {j : Nat} {y : Placing}
    (h : y ∈ (l.foldl (State.wkAbandon v) s).unplaced j) : y ∈ s.unplaced j ∧ (j, y) ∉ l := by
  induction l generalizing s with
  | nil => exact ⟨h, List.not_mem_nil⟩
  | cons x l ih =>
    obtain ⟨hmem, hl⟩ := ih h
    rcases eq_or_ne j x.1 with rfl | hj
    · rw [State.wkAbandon_unplaced_same, List.mem_filter, bne_iff_ne] at hmem
      obtain ⟨hmem, hpsn⟩ := hmem
      refine ⟨hmem, fun hc => ?_⟩
      rcases List.mem_cons.1 hc with hx | hx
      · exact hpsn (by rw [← hx])
      · exact hl hx
    · rw [State.wkAbandon_unplaced_other _ _ hj] at hmem
      refine ⟨hmem, fun hc => ?_⟩
      rcases List.mem_cons.1 hc with hx | hx
      · exact hj (by rw [← hx])
      · exact hl hx

/-- A table whose values all change reads the changed value. -/
theorem tget_map {α : Type} (d : Nat → α) (f : α → α) (t : List (Nat × α)) (k : Nat) (h : f (d k) = d k) :
    tget d (t.map fun e => (e.1, f e.2)) k = f (tget d t k) := by
  induction t with
  | nil => exact h.symm
  | cons e t ih =>
    by_cases hk : e.1 = k
    · simp [tget, hk]
    · simpa [tget, hk] using ih

theorem State.failReads_unplaced (s : State) (i : Nat) : (s.failReads i).unplaced = s.unplaced :=
  funext fun k => by
    have hconn : (s.failReads i).conn k = (s.conn k).failReads i :=
      tget_map (fun _ => connNone) (fun c => c.failReads i) s.conns k rfl
    rw [State.unplaced, hconn]
    rfl

/-- What a table reads is its default or listed. -/
theorem mem_of_tget_ne {α : Type} {d : Nat → α} {t : List (Nat × α)} {k : Nat} (h : tget d t k ≠ d k) :
    (k, tget d t k) ∈ t := by
  induction t with
  | nil => exact absurd rfl h
  | cons e t ih =>
    by_cases hk : e.1 = k
    · rw [tget, if_pos hk]
      exact List.mem_cons.2 (.inl (Prod.ext hk.symm rfl))
    · rw [tget, if_neg hk] at h ⊢
      exact List.mem_cons.2 (.inr (ih h))

/-- A packet of a key that awaits placement is among its late ones. -/
theorem State.mem_wkLate {s : State} {i j : Nat} {y : Placing} (h : y ∈ s.unplaced j) (hop : y.op = 1 ∨ y.op = 2)
    (hkey : y.waykey % 65536 = i) : (j, y) ∈ s.wkLate i := by
  have hne : s.conn j ≠ connNone := fun hc => by
    rw [State.unplaced, hc] at h
    exact List.not_mem_nil h
  refine List.mem_flatMap.2 ⟨(j, s.conn j), mem_of_tget_ne hne, List.mem_map.2 ⟨y, List.mem_filter.2 ⟨h, ?_⟩, rfl⟩⟩
  simpa [hkey] using hop

/-- The drain limit leaves the key REVOKED and none of its packets to place. -/
theorem State.wkDrain_effect {s : State} {i : Nat} (hok : (s.waykey i).ok = true)
    (hst : wkState (s.waykey i).val = 2) (hms : wkMs (s.waykey i).val + 8 ≤ s.ms) :
    (s.wkDrain i).wkIsRevoked i ∧
      ∀ j, ∀ y ∈ (s.wkDrain i).unplaced j, (y.op = 1 ∨ y.op = 2) → y.waykey % 65536 ≠ i := by
  rw [State.wkDrain_of_due hok hst hms]
  obtain ⟨hunplaced, hrevoked⟩ := State.foldl_advance_effect ((s.wkLate i).map (·.1)).dedup
    ((((s.wkLate i).foldl (State.wkAbandon (s.waykey i).val) s).failReads i).wkRevoked i)
  refine ⟨hrevoked i (State.wkRevoked_isRevoked _ i), fun j y hy hop hkey => ?_⟩
  rw [hunplaced, State.wkRevoked_unplaced, State.failReads_unplaced] at hy
  obtain ⟨hmem, hlate⟩ := State.mem_unplaced_of_abandon hy
  exact hlate (State.mem_wkLate hmem hop hkey)

/-! ### CREATE, REVOKE and READ (R309, R310, R315) -/

/-- The entry that CREATE makes of a value. -/
def wkEntry (v : BitVec 256) (p key : Nat) : BitVec 256 := setF (setF (setF (setF v 128 6 p) 96 32 key) 94 2 1) 0 53 0

theorem wkEntry_state (v : BitVec 256) (p key : Nat) : wkState (wkEntry v p key) = 1 := by
  rw [wkState, wkEntry, getF_setF_other _ (by decide), getF_setF_same _ _ _ _ (by decide)]
  rfl

theorem wkEntry_part (v : BitVec 256) {p : Nat} (key : Nat) (hp : p < 64) : wkPart (wkEntry v p key) = p := by
  rw [wkPart, wkEntry, getF_setF_other _ (by decide), getF_setF_other _ (by decide), getF_setF_other _ (by decide),
    getF_setF_same _ _ _ _ (by decide)]
  exact Nat.mod_eq_of_lt hp

theorem wkEntry_key (v : BitVec 256) (p : Nat) {key : Nat} (hkey : key < 2 ^ 32) : wkKey (wkEntry v p key) = key := by
  rw [wkKey, wkEntry, getF_setF_other _ (by decide), getF_setF_other _ (by decide),
    getF_setF_same _ _ _ _ (by decide), Nat.mod_eq_of_lt hkey]

/-- CREATE keeps the fields of the value above its own. -/
theorem getF_wkEntry {v : BitVec 256} {p key lo w : Nat} (h : 134 ≤ lo) :
    getF (wkEntry v p key) lo w = getF v lo w := by
  rw [wkEntry, getF_setF_other _ (by omega), getF_setF_other _ (by omega), getF_setF_other _ (by omega),
    getF_setF_other _ (by omega)]

theorem getB_wkEntry {v : BitVec 256} {p key i : Nat} (h : 134 ≤ i) : getB (wkEntry v p key) i = getB v i := by
  rw [wkEntry, getB_setF_other _ (by omega), getB_setF_other _ (by omega), getB_setF_other _ (by omega),
    getB_setF_other _ (by omega)]

/-- Words loaded change registers alone. -/
theorem State.wkLoad_waykeys (s : State) (fn : Nat) (v : BitVec 256) : (s.wkLoad fn v).waykeys = s.waykeys :=
  foldl_keeps State.waykeys
    (f := fun (s : State) i => s.setReg fn (Reg.RT_WK_W + 4 * i) (BitVec.ofNat 32 (v.toNat / 2 ^ (32 * i))))
    (fun _ _ => rfl) (List.range 8) s

theorem State.wkLoad_reg_at (s : State) (fn : Nat) (v : BitVec 256) {j : Nat} (hj : j < 8) :
    (s.wkLoad fn v).reg fn (Reg.RT_WK_W + 4 * j) = BitVec.ofNat 32 (v.toNat / 2 ^ (32 * j)) :=
  State.loadWords_reg_at _ _ _ _ hj

theorem State.wkLoad_regB_stat (s : State) (fn i : Nat) (v : BitVec 256) :
    (s.wkLoad fn v).regB fn Reg.RT_WK_STAT i = s.regB fn Reg.RT_WK_STAT i := by
  have hreg : (s.wkLoad fn v).reg fn Reg.RT_WK_STAT = s.reg fn Reg.RT_WK_STAT :=
    State.loadWords_reg_other _ _ fun k hk => regKey_inj.not.2 (by simp only [Reg.RT_WK_W, Reg.RT_WK_STAT]; omega)
  rw [State.regB, hreg, State.regB]

/-- CREATE of a value that nothing refuses, in the entry taken. -/
theorem State.wkCreate_of_take {s : State} {fn i : Nat} (hfn : fn ≠ 0) (hserved : s.fnServed fn = true)
    (hbad : s.wkBad (fn - 1) (s.wkWords fn) = false)
    (hshare : s.wkOwn (fn - 1) < 16 * recField (s.entryVal (fn - 1)) 54 2) (htake : s.wkTake (fn - 1) = some i) :
    ∃ u : State, u.mem = s.mem ∧
      u.waykeys =
        (s.setWaykey i (pairOf (wkEntry (s.wkWords fn) (fn - 1) ((s.fresh 16).toNat * 65536 + i)))).waykeys ∧
      s.wkCreate fn = (u.wkLoad fn (wkEntry (s.wkWords fn) (fn - 1) ((s.fresh 16).toNat * 65536 + i))).setReg fn
        Reg.RT_WK_SEL (BitVec.ofNat 32 i) := by
  simp only [State.wkCreate, hfn, hserved, hbad, Nat.not_le.2 hshare, htake, Bool.not_true, Bool.false_eq_true, or_self,
    if_false]
  refine ⟨_, ?_, ?_, rfl⟩
  · rfl
  · rfl

/-- REVOKE of a partition's own OPEN key: it is CLOSING, and settles when nothing of it is in flight. -/
theorem State.wkRevoke_of_open {s : State} {fn i : Nat} (v : Word) (hfn : fn ≠ 0) (hserved : s.fnServed fn = true)
    (hi : i = s.regF fn Reg.RT_WK_SEL 0 16) (hok : (s.waykey i).ok = true) (hst : wkState (s.waykey i).val = 1)
    (hpart : wkPart (s.waykey i).val = fn - 1) :
    s.wkRevoke fn v = { s.setWaykey i (pairOf (setF (setF (s.waykey i).val 94 2 2) 0 53 s.ms)) with
      wkLive := (s.wkLive.filter fun (l : WkLive) => l.index != i) ++
        [(⟨i, none, if getB v 28 then some (getF v 16 12) else none⟩ : WkLive)] }.wkSettle i := by
  subst hi
  simp only [State.wkRevoke, hfn, hserved, hok, hst, hpart, Bool.not_true, Bool.false_eq_true, or_self, if_false, ne_eq,
    not_true]
  rfl

theorem State.wkSettle_waykey_other (s : State) {i j : Nat} (h : j ≠ i) : (s.wkSettle i).waykey j = s.waykey j := by
  simp only [State.wkSettle]
  split
  · exact s.wkRevoked_waykey_other h
  · rfl

/-- A key that settles keeps what its entry holds beside STATE. -/
theorem State.wkSettle_waykey_same {s : State} {i : Nat} (hok : (s.waykey i).ok = true)
    (hst : wkState (s.waykey i).val = 2) :
    (s.wkSettle i).waykey i = pairOf (setF (s.waykey i).val 94 2 (if s.wkInflight i = 0 then 3 else 2)) := by
  by_cases hin : s.wkInflight i = 0
  · rw [State.wkSettle_of_closing hok hst hin, State.wkRevoked_waykey_same, if_pos hin]
  · rw [State.wkSettle_of_not_closing (.inr hin), if_neg hin]
    have hself : setF (s.waykey i).val 94 2 2 = (s.waykey i).val := by
      refine BitVec.eq_of_getLsbD_eq fun k hk => ?_
      rw [setF_getLsbD]
      split
      next hin94 =>
        have hbit := getF_testBit (s.waykey i).val 94 2 (k - 94)
        rw [show getF (s.waykey i).val 94 2 = 2 from hst, show 94 + (k - 94) = k by omega,
          decide_eq_true (by omega : k - 94 < 2), Bool.true_and] at hbit
        exact hbit
      next => rfl
    rw [hself]
    exact Pair.eq_pairOf hok

/-- Settles O44: the entry that CREATE makes, the two ends of a revocation, and what READ shows. -/
theorem waykeysAreCreatedAndRevoked : Obligations.WaykeysAreCreatedAndRevoked := by
  refine ⟨fun s fn i hfn hle hserved hbad hshare htake hi => ?_, fun s fn hfn hserved hbad => ?_,
    fun s fn hfn hserved hbad hshare => ?_, fun s fn i v hfn hserved hi hok hst hpart => ?_,
    fun s fn i v hfn hserved hi hok hother => ?_, fun s fn i j hfn hserved hi hj => ?_,
    fun s i hok hst hin => ?_, fun s i h => ?_, fun s i hok hst hms => ?_, fun s i h => ?_⟩
  · refine ⟨_, wkEntry (s.wkWords fn) (fn - 1) ((s.fresh 16).toNat * 65536 + i), rfl, ?_⟩
    obtain ⟨u, hmem, hwk, hcreate⟩ := State.wkCreate_of_take hfn hserved hbad hshare htake
    have hwk : (s.wkCreate fn).waykeys =
        (s.setWaykey i (pairOf (wkEntry (s.wkWords fn) (fn - 1) ((s.fresh 16).toNat * 65536 + i)))).waykeys := by
      rw [hcreate, State.setReg_waykeys, State.wkLoad_waykeys, hwk]
    rw [State.waykey_congr hwk]
    have hkey : (s.fresh 16).toNat * 65536 + i < 2 ^ 32 := by have := (s.fresh 16).isLt; omega
    refine ⟨State.wkCreate_mem .., ?_, wkEntry_state .., wkEntry_part _ _ (by omega), getF_wkEntry (by decide),
      getF_wkEntry (by decide), getF_wkEntry (by decide), getB_wkEntry (by decide), getB_wkEntry (by decide), ?_, ?_,
      fun j hj => ?_⟩
    · exact State.waykey_setWaykey_same ..
    · rw [wkEntry_key _ _ hkey, Nat.mul_add_mod_of_lt hi]
    · rw [hcreate, State.reg_setReg_same, BitVec.toNat_ofNat, Nat.mod_eq_of_lt (by omega)]
    · rw [State.waykey_congr hwk, State.waykey_setWaykey_other _ _ hj]
  · change Host.Outcome.next (s.wkCreate fn) = _
    simp [State.wkCreate, hfn, hserved, hbad]
  · change Host.Outcome.next (s.wkCreate fn) = _
    simp [State.wkCreate, hfn, hserved, hbad, hshare]
  · refine ⟨_, rfl, ?_⟩
    rw [State.wkRevoke_of_open v hfn hserved hi hok hst hpart]
    generalize ht : ({ s.setWaykey i (pairOf (setF (setF (s.waykey i).val 94 2 2) 0 53 s.ms)) with
      wkLive := (s.wkLive.filter fun (l : WkLive) => l.index != i) ++
        [(⟨i, none, if getB v 28 then some (getF v 16 12) else none⟩ : WkLive)] } : State) = t
    have hmem : t.mem = s.mem := ht ▸ rfl
    have hin : t.wkInflight i = s.wkInflight i := ht ▸ rfl
    have hsame : t.waykey i = pairOf (setF (setF (s.waykey i).val 94 2 2) 0 53 s.ms) :=
      ht ▸ State.waykey_setWaykey_same ..
    have hothers (j : Nat) (hj : j ≠ i) : t.waykey j = s.waykey j := ht ▸ State.waykey_setWaykey_other _ _ hj
    have hclosing : wkState (t.waykey i).val = 2 := by
      rw [hsame, pairOf_val, wkState, getF_setF_other _ (by decide), getF_setF_same _ _ _ _ (by decide)]
      rfl
    have hsettled := State.wkSettle_waykey_same (by rw [hsame]; exact pairOf_ok _) hclosing
    rw [hin, hsame, pairOf_val] at hsettled
    refine ⟨(State.wkSettle_mem ..).trans hmem, ?_, ?_, ?_, ?_, fun j hj => ?_⟩
    · rw [hsettled, pairOf_ok]
    · rw [hsettled, pairOf_val, wkState_setF]
      split <;> rfl
    · rw [hsettled, pairOf_val, wkMs, getF_setF_other _ (by decide), getF_setF_same _ _ _ _ (by decide)]
    · rw [hsettled, pairOf_val, wkKey, getF_setF_other _ (by decide), getF_setF_other _ (by decide),
        getF_setF_other _ (by decide), wkKey]
    · rw [State.wkSettle_waykey_other _ hj, hothers j hj]
  · change Host.Outcome.next (s.wkRevoke fn v) = _
    subst hi
    simp only [State.wkRevoke, hfn, hserved, hok, hother, Bool.not_true, Bool.false_eq_true, or_self, if_false, if_true]
  · change ∃ t, Host.Outcome.next (s.wkReadOut fn) = .next t ∧ _
    subst hi
    simp only [State.wkReadOut, hfn, hserved, Bool.not_true, Bool.false_eq_true, or_self, if_false]
    generalize hi : s.regF fn Reg.RT_WK_SEL 0 16 = i
    rcases hok : (s.waykey i).ok with _ | _
    · simp only [Bool.not_false, if_true]
      refine ⟨_, rfl, by simp [State.wkLoad], ?_, by simp, by simp, fun _ => ⟨?_, ?_⟩⟩
      · rw [State.wkLoad_waykeys]
        exact State.waykeys_of_wkView (State.cplFault_wkView ..)
      · rw [State.wkLoad_reg_at _ _ _ hj]
        interval_cases j <;> rfl
      · rw [State.wkLoad_regB_stat]
        exact State.regB_setRegB_same _ _ _ _ _ (by decide)
    · simp only [Bool.not_true, Bool.false_eq_true, if_false]
      by_cases hother : wkState (s.waykey i).val = 0 ∨ wkPart (s.waykey i).val ≠ fn - 1
      · rw [if_pos hother]
        refine ⟨_, rfl, by simp [State.wkLoad], by rw [State.wkLoad_waykeys, State.setRegB_waykeys],
          fun _ hst hpart => ?_,
          fun _ _ => ⟨?_, ?_⟩, by simp⟩
        · exact absurd hother (not_or.2 ⟨hst, not_not.2 hpart⟩)
        · rw [State.wkLoad_reg_at _ _ _ hj]
          simp
        · rw [State.wkLoad_regB_stat]
          exact State.regB_setRegB_same _ _ _ _ _ (by decide)
      · rw [if_neg hother]
        refine ⟨_, rfl, by simp [State.wkLoad], by rw [State.wkLoad_waykeys], fun _ _ _ => ?_,
          fun _ h => absurd h hother, by simp⟩
        rw [State.wkLoad_reg_at _ _ _ hj, toNat_ofNat_div_eq_getF]
  · refine ⟨_, rfl, State.wkSettle_mem .., ?_⟩
    rw [State.wkSettle_of_closing hok hst hin]
    obtain ⟨hok', hst'⟩ := s.wkRevoked_isRevoked i
    exact ⟨hok', hst', fun j hj => s.wkRevoked_waykey_other hj⟩
  · exact congrArg Host.Outcome.next (State.wkSettle_of_not_closing h)
  · obtain ⟨⟨hok', hst'⟩, hunplaced⟩ := State.wkDrain_effect hok hst hms
    exact ⟨_, rfl, hok', hst', hunplaced⟩
  · exact congrArg Host.Outcome.next (State.wkDrain_of_not_due h)

end Sys2Proof.Machine
end

section
/-!
PROOFS. HAUL between objects in the node's own memory, and the end that its far side gives it (R51, R57 to R59, R262,
R264).
-/

namespace Sys2Proof.Machine

/-! ### Commands -/

/-- A command depends on the list of commands alone. -/
theorem State.cmd?_congr {s t : State} (h : t.cmds = s.cmds) (id : Nat) : t.cmd? id = s.cmd? id := by
  rw [State.cmd?, State.cmd?, h]

theorem State.id_of_cmd? {s : State} {id : Nat} {c : Cmd} (h : s.cmd? id = some c) : c.id = id := by
  simpa [State.cmd?] using List.find?_some h

/-- A body that starts is a taken command that is ready. -/
theorem State.cmd?_of_starting {s : State} {id eng : Nat} {c : Cmd} (h : s.starting? id eng = some c) :
    s.cmd? id = some c ∧ c.phase = .ready := by
  simp only [State.starting?] at h
  split at h
  next c' hc =>
    split at h
    next hready =>
      cases h
      simp only [State.bodyReady, Bool.and_eq_true, beq_iff_eq] at hready
      exact ⟨hc, hready.1.1.1.1.1⟩
    next => cases h
  next => cases h

/-- The command of a body that starts is running. -/
theorem State.cmd?_runCmd {s : State} {id : Nat} {c : Cmd} (h : s.cmd? id = some c) :
    (s.runCmd id).cmd? id = some { c with phase := .running } := by
  rw [State.runCmd, State.cmd_setCmd _ _ _ _ (by exact fun _ => rfl), State.cmd?_congr (State.served_cmds ..), h,
    Option.map_some, if_pos (State.id_of_cmd? h)]

/-- A command that ends has ended. -/
theorem State.endCmd_endedWith {s : State} {id : Nat} {c : Cmd} (h : s.cmd? id = some c) (hc : c.phase ≠ .ended)
    (status : Nat) (result : Word) : (s.endCmd id status result).endedWith id status :=
  ⟨_, State.cmd_endCmd s h hc, rfl, rfl⟩

/-! ### The checks and the end of a HAUL -/

/-- Of the commands, a complement fault changes none. -/
@[simp] theorem State.cplFault_cmds (s : State) (r : RecRef) : (s.cplFault r).cmds = s.cmds := by
  simp only [State.cplFault]
  split <;> simp

@[simp] theorem State.ownCheck_cmds (s : State) (p a n : Nat) : (s.ownCheck p a n).1.cmds = s.cmds := by
  simp only [State.ownCheck]
  split
  · exact State.cplFault_cmds ..
  · split
    · exact State.cplFault_cmds ..
    · split <;> simp [State.ownerError]

theorem State.haulCheck_cmds (s : State) (c : Cmd) : (s.haulCheck c).1.cmds = s.cmds := by
  unfold State.haulCheck
  extract_lets d so dO tile room mode sa da dn r r'
  have hr : r'.1.cmds = s.cmds := by
    simp only [r']
    split <;> exact State.ownCheck_cmds ..
  split
  · rfl
  split
  · rfl
  split
  · exact hr
  split
  · rfl
  split
  · rfl
  split
  · rfl
  split
  · exact State.cplFault_cmds ..
  · rfl

/-- The body of a HAUL that passes its checks names a length. -/
theorem haLen_pos_of_haulOk {d : BitVec 512} (h : haulOk d = true) : 0 < haLen d := by
  simp only [haulOk, Bool.and_eq_true, decide_eq_true_eq] at h
  omega

/-- A HAUL that passes its checks leaves the state as it was. -/
theorem State.haulCheck_eq_zero {s u : State} {c : Cmd} (h : s.haulCheck c = (u, 0)) : u = s ∧ 0 < haLen c.desc := by
  unfold State.haulCheck at h
  extract_lets d so dO tile room mode sa da dn r r' at h
  split at h
  · cases h
  next hok =>
  split at h
  · cases h
  split at h
  next hown => exact absurd (Prod.ext_iff.1 h).2 hown
  split at h
  · cases h
  split at h
  · cases h
  split at h
  · cases h
  split at h
  · cases h
  · refine ⟨(Prod.ext_iff.1 h).1.symm, haLen_pos_of_haulOk ?_⟩
    by_contra hbad
    exact hok (.inl (by simpa using hbad))

/-- The command of a HAUL that ends: its status, its DETAIL and its RESULT. -/
theorem State.cmd?_endHaul {s : State} {h : Haul} {c : Cmd} (hc : s.cmd? h.cmd = some c) (hphase : c.phase ≠ .ended)
    (status : Nat) :
    (s.endHaul h status).cmd? h.cmd = some { c with
      phase := .ended, status := status, detail := BitVec.ofNat 64 h.moved,
      result := BitVec.ofNat 32 ((if h.moved = 0 then 0 else if h.tile then 2 else 1) * 2 ^ 30 +
        if h.tile then min h.tiles 0x3FFFFFFF else 0) } := by
  simp only [State.endHaul]
  refine State.cmd_endCmd _ (c := { c with detail := BitVec.ofNat 64 h.moved }) ?_ hphase
  rw [State.cmd_setCmd _ _ _ _ (by exact fun _ => rfl)]
  change (s.cmd? h.cmd).map _ = _
  rw [hc, Option.map_some, if_pos (State.id_of_cmd? hc)]

/-- A HAUL that ends is carried no more. -/
theorem State.haul?_endHaul (s : State) (h : Haul) (status : Nat) : (s.endHaul h status).haul? h.cmd = none := by
  have hhauls : (s.endHaul h status).hauls = s.hauls.filter (·.cmd != h.cmd) := State.endCmd_hauls ..
  rw [State.haul?, hhauls, List.find?_eq_none]
  intro x hx
  have hne := (List.mem_filter.1 hx).2
  simpa using hne

theorem State.cmd_of_haul? {s : State} {id : Nat} {h : Haul} (hh : s.haul? id = some h) : h.cmd = id := by
  simpa [State.haul?] using List.find?_some hh

/-! ### Moving bytes within the node's own memory -/

@[simp] theorem State.activate_cmds (s : State) (r : Nat) : (s.activate r).cmds = s.cmds := by
  simp only [State.activate]
  split <;> simp

@[simp] theorem State.opens_cmds (s : State) (a n : Nat) : (s.opens a n).cmds = s.cmds :=
  foldl_keeps State.cmds State.activate_cmds _ s

/-- With no latent error every byte of a source is good. -/
theorem State.goodBytes_of_clean {s : State} (h : s.ecc = []) (a n : Nat) : s.goodBytes a n = n := by
  rw [State.goodBytes, List.find?_eq_none.2 fun i _ => by simp [State.hasUE_of_clean h]]

@[simp] theorem State.bytes_length (s : State) (a n : Nat) : (s.bytes a n).length = n := by simp [State.bytes]

/-- A range that no far window holds needs none. -/
theorem State.farOf_of_local {s : State} {a n : Nat} (h : (cut .far a n).2 = 0) : s.farOf a n = [] := by
  rw [State.farOf, if_pos h]

/-- A move within the node's own memory stores the next bytes at their place and goes on. -/
theorem State.haulMove_of_local {s : State} {c : Cmd} {h : Haul} {n : Nat} (data : List Byte) (hsrc : h.srcFar = [])
    (hdst : h.dstFar = []) (hecc : s.ecc = []) (hn : 0 < n) :
    ∃ t, s.haulMove c h n data = (t, { h with started := h.started + n, moved := h.moved + n }, 0) ∧
      t.mem = (s.store (haulDst c.desc h h.started) (s.bytes (objBase h.src + haSrcOff c.desc + h.started) n)).mem ∧
      t.cmds = s.cmds := by
  have hspan : haulSpan c.desc h n = n := by simp [haulSpan, hsrc, hdst, farAt]
  have hpiece (bs : List Byte) : haulPiece c.desc h bs = bs := by simp [haulPiece, hdst, farAt]
  simp only [State.haulMove, hspan, hsrc, farAt, List.find?_nil, Option.map_none, State.goodBytes_of_clean hecc, hpiece,
    State.bytes_length, Nat.lt_irrefl, and_false, decide_false, Bool.false_eq_true, if_false]
  generalize objBase h.src + haSrcOff c.desc + h.started = a
  have hopens : (s.opens a n).ecc = [] := (s.opens_ecc a n).trans hecc
  have hne : (s.bytes a n).isEmpty = false := by
    rw [List.isEmpty_eq_false_iff_exists_mem, ← List.length_pos_iff_exists_mem, State.bytes_length]
    exact hn
  simp only [State.scanned_of_clean hopens, State.haulWrite, hne, hdst, farAt, List.find?_nil, Option.map_none,
    Bool.false_eq_true, if_false, State.bytes_length, Bool.not_true]
  refine ⟨_, rfl, ?_, ?_⟩
  · change storeMem ((s.opens a n).opens _ n).mem _ _ = storeMem s.mem _ _
    rw [State.opens_mem, State.opens_mem]
    rfl
  · change ((s.opens a n).opens _ n).cmds = s.cmds
    rw [State.opens_cmds, State.opens_cmds]

/-- A HAUL in whole mode that has moved its length ends with OK. -/
theorem State.haulStep_of_whole {s : State} {c : Cmd} {h : Haul} (htile : h.tile = false)
    (hmoved : h.moved = haLen c.desc) : s.haulStep c h 0 = s.endHaul h 0 := by
  simp [State.haulStep, htile, hmoved]

/-! ### The commands -/

/-- What a HAUL that passes its checks carries. -/
def State.haulNew (s : State) (c : Cmd) (id : Nat) : Haul :=
  let d := c.desc
  let so := s.obj c.part (haSrcObj d)
  let dO := s.obj c.part (haDstObj d)
  let room := objSize dO - haDstOff d
  { cmd := id, src := so, dst := dO, srcFar := s.farOf (objBase so + haSrcOff d) (haLen d),
    dstFar := s.farOf (objBase dO + haDstOff d) (min room (haLen d)),
    tile := haulMode (haMode d) (haBufs d) (tileSize so) room (haLen d) == 2, tileBytes := tileSize so,
    started := 0, moved := 0, tiles := 0, baseFree := wmCount (s.wm c.part (haFree d)).val, reads := [], writes := [] }

section
variable {s u : State} {id : Nat} {c : Cmd} (data : List Byte) (hc : s.starting? id 4 = some c)
  (hawake : s.awake = true)
include hc hawake

/-- A HAUL that fails a check ends with the status of the check. -/
theorem execHaul_of_failed {st : Nat} (hcheck : (s.runCmd id).haulCheck c = (u, st)) (hst : st ≠ 0) :
    exec (.haul id data) s = .next (u.endCmd id st 0) := by
  change execHaul id data s = _
  simp only [execHaul, hc, hawake, hcheck, hst, Bool.not_true, Bool.false_eq_true, if_false, ne_eq, not_false_eq_true,
    if_true]

/-- A HAUL in whole mode moves its bytes at once. -/
theorem execHaul_of_whole (hcheck : (s.runCmd id).haulCheck c = (u, 0))
    (hmode : haulMode (haMode c.desc) (haBufs c.desc) (tileSize (u.obj c.part (haSrcObj c.desc)))
      (objSize (u.obj c.part (haDstObj c.desc)) - haDstOff c.desc) (haLen c.desc) = 1) :
    exec (.haul id data) s = .next ((u.haulMove c (u.haulNew c id) (haLen c.desc) data).1.haulStep c
      (u.haulMove c (u.haulNew c id) (haLen c.desc) data).2.1
      (u.haulMove c (u.haulNew c id) (haLen c.desc) data).2.2) := by
  change execHaul id data s = _
  simp only [execHaul, hc, hawake, hcheck, hmode, State.haulNew, Bool.not_true, Bool.false_eq_true, if_false, ne_eq,
    not_true, OfNat.one_ne_ofNat, false_and]

/-- A HAUL in tile mode waits for its first tile. -/
theorem execHaul_of_tile (hcheck : (s.runCmd id).haulCheck c = (u, 0))
    (hmode : haulMode (haMode c.desc) (haBufs c.desc) (tileSize (u.obj c.part (haSrcObj c.desc)))
      (objSize (u.obj c.part (haDstObj c.desc)) - haDstOff c.desc) (haLen c.desc) = 2) :
    ∃ t h, exec (.haul id data) s = .next t ∧ t.mem = u.mem ∧ t.hauls = u.hauls ++ [h] ∧ h.cmd = id ∧ h.tile = true ∧
      h.started = 0 ∧ h.moved = 0 ∧ h.tileBytes = tileSize (u.obj c.part (haSrcObj c.desc)) := by
  change ∃ t h, execHaul id data s = .next t ∧ _
  simp only [execHaul, hc, hawake, hcheck, hmode, Bool.not_true, Bool.false_eq_true, if_false, ne_eq, not_true,
    true_and, if_true]
  split
  · exact ⟨_, _, rfl, rfl, rfl, rfl, rfl, rfl, rfl, rfl⟩
  · exact ⟨_, _, rfl, rfl, rfl, rfl, rfl, rfl, rfl, rfl⟩

end

/-- The next tile of a HAUL, at a tile boundary that FREE_WM allows, in the node's own memory. -/
theorem execHaulTile_of_allowed {s : State} {id : Nat} {c : Cmd} {h : Haul} (data : List Byte)
    (hh : s.haul? id = some h) (hc : s.cmd? id = some c) (htile : h.tile = true) (hrest : h.started < haLen c.desc)
    (hreads : h.reads = []) (hwrites : h.writes = []) (hbound : h.started % h.tileBytes = 0)
    (hok : (s.wm c.part (haFree c.desc)).ok = true)
    (hfree : h.baseFree + h.started / h.tileBytes + 1 ≤ wmCount (s.wm c.part (haFree c.desc)).val + haBufs c.desc) :
    exec (.haulTile id data) s = .next
      ((s.haulMove c h (min (haLen c.desc - h.started) h.tileBytes) data).1.haulStep c
        (s.haulMove c h (min (haLen c.desc - h.started) h.tileBytes) data).2.1
        (s.haulMove c h (min (haLen c.desc - h.started) h.tileBytes) data).2.2) := by
  have hne : ¬(haLen c.desc - h.started = 0 ∨ (!h.reads.isEmpty) = true ∨ (!h.writes.isEmpty) = true) := by
    simp [hreads, hwrites]
    omega
  change execHaulTile id data s = _
  simp only [execHaulTile, hh, hc]
  rw [if_neg hne]
  simp only [htile, hok, hbound, Nat.not_lt.2 hfree, Bool.not_true, Bool.false_eq_true, if_false, and_false,
    Nat.sub_zero]

/-- A tile that FREE_WM does not yet allow waits. -/
theorem execHaulTile_of_waiting {s : State} {id : Nat} {c : Cmd} {h : Haul} (data : List Byte)
    (hh : s.haul? id = some h) (hc : s.cmd? id = some c) (htile : h.tile = true)
    (hbound : h.started % h.tileBytes = 0) (hok : (s.wm c.part (haFree c.desc)).ok = true)
    (hfree : wmCount (s.wm c.part (haFree c.desc)).val + haBufs c.desc < h.baseFree + h.started / h.tileBytes + 1) :
    exec (.haulTile id data) s = .next s := by
  change execHaulTile id data s = _
  simp only [execHaulTile, hh, hc, htile, hok, hbound, hfree, Bool.not_true, Bool.false_eq_true, if_false, and_self,
    if_true, ite_self]

/-- Settles O28: the check, the one move of a HAUL in whole mode, its tiles, and the end that its far side gives it. -/
theorem haulMovesBytes : Obligations.HaulMovesBytes := by
  refine ⟨fun s u id c data so dO hc hawake hecc hcheck hso hdO hmode hsrc hdst => ?_,
    fun s u id c data st hc hawake hcheck hst => ?_, fun s u id c data so dO hc hawake hcheck hso hdO hmode => ?_,
    fun s id c h data hh hc htile hrest hreads hwrites hsrc hdst hbound htb hecc hok hfree => ?_,
    fun s id c h data hh hc htile hbound hok hfree => execHaulTile_of_waiting data hh hc htile hbound hok hfree,
    fun s id c h e hh hc hphase hfar => ?_⟩
  · obtain ⟨hu, hlen⟩ := State.haulCheck_eq_zero hcheck
    obtain ⟨hid, -⟩ := State.cmd?_of_starting hc
    have hobj (i : Nat) : s.obj c.part i = u.obj c.part i :=
      (State.obj_congr (hu ▸ State.runCmd_objs s id) c.part i).symm
    have hcmd : u.cmd? id = some { c with phase := .running } := hu ▸ State.cmd?_runCmd hid
    have humem : u.mem = s.mem := hu ▸ State.runCmd_mem s id
    have huecc : u.ecc = [] := (congrArg State.ecc hu).trans ((State.runCmd_ecc s id).trans hecc)
    subst hso hdO
    simp only [hobj] at hmode hsrc hdst ⊢
    obtain ⟨t, hmove, hmem, hcmds⟩ := State.haulMove_of_local (h := u.haulNew c id) (c := c) data
      (State.farOf_of_local hsrc) (State.farOf_of_local hdst) huecc hlen
    have htile : (u.haulNew c id).tile = false := by simp [State.haulNew, hmode]
    have hmoved : (u.haulNew c id).moved + haLen c.desc = haLen c.desc := Nat.zero_add _
    rw [execHaul_of_whole data hc hawake hcheck hmode, hmove,
      State.haulStep_of_whole (by exact htile) (by exact hmoved)]
    refine ⟨_, _, rfl, State.cmd?_endHaul ((State.cmd?_congr hcmds id).trans hcmd) (by simp) 0, rfl, rfl, ?_, ?_, ?_⟩
    · exact congrArg (BitVec.ofNat 64) hmoved
    · simp only [hmoved, htile, if_neg hlen.ne', Bool.false_eq_true, if_false]
      rfl
    · rw [State.endHaul_mem, hmem, State.bytes_congr humem]
      simp only [State.store, humem, haulDst, htile, Bool.false_eq_true, if_false]
      rfl
  · obtain ⟨hid, -⟩ := State.cmd?_of_starting hc
    have hu : u = ((s.runCmd id).haulCheck c).1 := by rw [hcheck]
    have hcmd : u.cmd? id = some { c with phase := .running } := by
      rw [hu, State.cmd?_congr (State.haulCheck_cmds ..), State.cmd?_runCmd hid]
    rw [execHaul_of_failed data hc hawake hcheck hst]
    exact ⟨_, rfl, by rw [State.endCmd_mem, hu, State.haulCheck_mem, State.runCmd_mem],
      State.endCmd_endedWith hcmd (by simp) st 0⟩
  · obtain ⟨hu, -⟩ := State.haulCheck_eq_zero hcheck
    have hobj (i : Nat) : s.obj c.part i = u.obj c.part i :=
      (State.obj_congr (hu ▸ State.runCmd_objs s id) c.part i).symm
    subst hso hdO
    simp only [hobj] at hmode ⊢
    obtain ⟨t, h, hexec, hmem, hhauls, hrest⟩ := execHaul_of_tile data hc hawake hcheck hmode
    exact ⟨t, h, hexec, hmem.trans (hu ▸ State.runCmd_mem s id), hhauls.trans (hu ▸ by rw [State.runCmd_hauls]), hrest⟩
  · have hn : 0 < min (haLen c.desc - h.started) h.tileBytes := by omega
    obtain ⟨t, hmove, hmem, -⟩ := State.haulMove_of_local (c := c) data hsrc hdst hecc hn
    rw [execHaulTile_of_allowed data hh hc htile hrest hreads hwrites hbound hok hfree, hmove]
    refine ⟨_, rfl, ?_⟩
    rw [State.haulStep_mem, hmem]
    simp only [haulDst, htile, hbound, if_true, Nat.add_zero]
  · change ∃ t, execHaulFarError id e s = .next t ∧ _
    have hfar' : ¬(h.srcFar.isEmpty = true ∧ h.dstFar.isEmpty = true) := by
      simp only [List.isEmpty_iff]
      tauto
    simp only [execHaulFarError, hh]
    rw [if_neg hfar']
    obtain rfl := State.cmd_of_haul? hh
    exact ⟨_, rfl, State.endHaul_mem .., s.haul?_endHaul h _, _, State.cmd?_endHaul hc hphase _, rfl, rfl⟩

end Sys2Proof.Machine
end

section
/-!
PROOFS. Embers and verdicts that arrive (R65, R177, R182, R185, R189, R190, R196, R360).
-/

namespace Sys2Proof.Machine

/-! ### Reservations of the ember buffer -/

/-- A changed reservation, in a list in which no other has its EMBER_ID. -/
theorem map_setRecv_append {l : List Recv} {x : Recv} {f : Recv → Recv} (h : ∀ r ∈ l, r.id ≠ x.id) :
    ((l ++ [x]).map fun r => if r.id = x.id ∧ r.conn = x.conn then f r else r) = l ++ [f x] := by
  rw [List.map_append, List.map_singleton, if_pos ⟨rfl, rfl⟩]
  refine congrArg (· ++ _) ?_
  exact (List.map_congr_left (g := id) fun r hr => if_neg fun hc : _ ∧ _ => h r hr hc.1).trans (List.map_id l)

/-- The first element that satisfies a test is the last of a list in which no other does. -/
theorem eraseFirst_append_last {α : Type} {p : α → Bool} {l : List α} {x : α} (h : ∀ a ∈ l, p a = false)
    (hx : p x = true) : eraseFirst p (l ++ [x]) = l := by
  induction l with
  | nil => simp [eraseFirst, hx]
  | cons a l ih =>
    rw [List.cons_append, eraseFirst, h a (List.mem_cons_self ..), if_neg (by decide),
      ih fun b hb => h b (List.mem_cons_of_mem _ hb)]

/-- No reservation is found where none has the EMBER_ID. -/
theorem State.recv?_eq_none {s : State} {id : Nat} (cn : Option Nat) (h : ∀ r ∈ s.recv, r.id ≠ id) :
    s.recv? cn id = none := by
  rw [State.recv?, List.find?_eq_none]
  intro r hr
  simp [h r hr]

/-- A reservation that is found has the EMBER_ID and the connection asked for. -/
theorem State.id_conn_of_recv? {s : State} {cn : Option Nat} {id : Nat} {r : Recv} (h : s.recv? cn id = some r) :
    r.id = id ∧ r.conn = cn := by
  simpa [State.recv?] using List.find?_some h

/-- Each reservation of an EMBER_ID and connection after it is changed is a changed one. -/
theorem State.of_mem_setRecv {s : State} {cn : Option Nat} {id : Nat} {f : Recv → Recv} {x : Recv}
    (hx : x ∈ (s.setRecv cn id f).recv) (hid : x.id = id)
    (hconn : x.conn = cn) : ∃ r ∈ s.recv, x = f r := by
  obtain ⟨r, hr, rfl⟩ := List.mem_map.1 hx
  refine ⟨r, hr, if_pos ?_⟩
  by_cases hc : r.id = id ∧ r.conn = cn
  · exact hc
  · rw [if_neg hc] at hid hconn
    exact ⟨hid, hconn⟩

/-- The pair of a header and its complement is valid. -/
theorem header_pair_ok (h : BitVec 256) : (⟨h, ~~~h⟩ : Pair 256).ok = true := pairOf_ok h

/-! ### An ember of a new EMBER_ID (R185, R189, R196) -/

/-- What a new ember leaves in its reservation. -/
def emberRecv (cn : Option Nat) (h : BitVec 256) (body : List Byte) (ms : Nat) : Recv :=
  { recvNew cn h ms with
    hdr := some (pairOf h)
    body := body
    recalled := !(crc64 body == ehDigest h && body.length == ehLen h) || !residueOk body (ehLen h) || ehVerdict h == 2 }

/-- A new ember is recalled exactly when a check fails or it says so. -/
theorem emberRecv_recalled (cn : Option Nat) (h : BitVec 256) (body : List Byte) (ms : Nat) :
    (emberRecv cn h body ms).recalled = true ↔ crc64 body ≠ ehDigest h ∨ body.length ≠ ehLen h ∨
      residueOk body (ehLen h) = false ∨ ehVerdict h = 2 := by
  simp only [emberRecv, Bool.or_eq_true, Bool.not_eq_true', Bool.and_eq_false_iff, beq_eq_false_iff_ne, beq_iff_eq,
    ne_eq, or_assoc]

/-- An ember sealed when sent awaits no verdict. -/
theorem emberRecv_awaits {cn : Option Nat} {h : BitVec 256} {body : List Byte} {ms : Nat} (hv : ehVerdict h = 3) :
    (emberRecv cn h body ms).awaits = false := by
  simp [Recv.awaits, Recv.header?, emberRecv, hv]

/-- A fault of a body that is counted and shown leaves the count of orphans. -/
theorem State.reg_of_fault (s : State) {cnt i f o : Nat}
    (h : regKey f o ≠ regKey 0 cnt ∧ regKey f o ≠ regKey 0 Reg.MG_ERR_STAT) :
    ((s.count 0 cnt 1).setRegB 0 Reg.MG_ERR_STAT i true).reg f o = s.reg f o := by
  rw [State.reg_setRegB_other _ _ _ h.2, State.reg_count_other _ _ h.1]

/-- A new ember fills a reservation of its own; when a MERGE of its tag has completed it is discarded. -/
theorem State.placeEmber_new {s : State} {cn : Option Nat} {h : BitVec 256} {body : List Byte} (f : Nat)
    (hnew : ∀ r ∈ s.recv, r.id ≠ ehId h) (hfor : s.mergeFor (ehTenant h) (ebTag body) = none) :
    ∃ t : State, t.mem = s.mem ∧ t.recv = s.recv ++ [emberRecv cn h body s.ms] ∧ t.merges = s.merges ∧
      t.reg 0 Reg.MG_ORPHAN_CNT = s.reg 0 Reg.MG_ORPHAN_CNT ∧
      { s with recv := s.recv ++ [recvNew cn h s.ms] }.placeEmber cn h body f (recvNew cn h s.ms) =
        if s.mergesDone.contains (ehTenant h, ebTag body) then
          (t.count 0 Reg.MG_ORPHAN_CNT 1).dropRecv (emberRecv cn h body s.ms)
        else t := by
  unfold State.placeEmber
  extract_lets digestOk resOk s₁ wrong s₂ r s₃
  have h₁ : (∃ g, s₁ = { s with recv := s.recv ++ [recvNew cn h s.ms], regs := g }) ∧
      s₁.reg 0 Reg.MG_ORPHAN_CNT = s.reg 0 Reg.MG_ORPHAN_CNT := by
    simp only [s₁]
    split
    · exact ⟨⟨_, rfl⟩, State.reg_of_fault _ (by decide)⟩
    · split
      · exact ⟨⟨_, rfl⟩, State.reg_of_fault _ (by decide)⟩
      · exact ⟨⟨_, rfl⟩, rfl⟩
  have h₂ : s₂ = s₁ := if_neg fun hc => by simp [recvNew] at hc
  rw [← h₂] at h₁
  obtain ⟨⟨g, hg⟩, hreg⟩ := h₁
  have hms : s₂.ms = s.ms := by rw [hg]; rfl
  have hr : r = emberRecv cn h body s.ms := by
    simp [r, hms, emberRecv, recvNew, wrong, digestOk, resOk]
  have hrecv : s₃.recv = s.recv ++ [emberRecv cn h body s.ms] := by
    change (s₂.recv.map _) = _
    rw [hg, ← hr]
    exact map_setRecv_append (x := recvNew cn h s.ms) hnew
  have hmem : s₃.mem = s.mem := (congrArg State.mem hg :)
  have hmerges : s₃.merges = s.merges := (congrArg State.merges hg :)
  refine ⟨s₃, hmem, hrecv, hmerges, (State.reg_hwm_other _ _ (regKey_inj.not.2 (by decide))).trans hreg, ?_⟩
  have hfor' : s₃.mergeFor (ehTenant h) (ebTag body) = none :=
    (congrArg (fun u : State => u.mergeFor (ehTenant h) (ebTag body)) hg).trans hfor
  have hdone : s₃.mergesDone = s.mergesDone := (congrArg State.mergesDone hg :)
  rw [hfor', hr, hdone]

/-- EMBER_RECEIVED of a valid header of its tenant, with a new EMBER_ID. -/
theorem execEmberReceived_new {s : State} {cn : Option Nat} {tn f : Nat} {h : BitVec 256} {body : List Byte}
    (hlife : s.life ≠ .held) (htenant : ehTenant h = tn) (hkind : ehKind h = 1 ∨ ehKind h = 2) (hv : ehVerdict h ≤ 3)
    (hnew : ∀ r ∈ s.recv, r.id ≠ ehId h) :
    exec (.emberReceived cn tn h (~~~h) body f) s = .next
      ({ s with recv := s.recv ++ [recvNew cn h s.ms] }.placeEmber cn h body f (recvNew cn h s.ms)) := by
  have hno : ¬(ehTenant h ≠ tn ∨ (ehKind h ≠ 1 ∧ ehKind h ≠ 2) ∨ 3 < ehVerdict h) := by omega
  change Host.Outcome.next (s.emberIn cn tn h (~~~h) body f) = _
  simp only [State.emberIn, header_pair_ok, hlife, Bool.not_true, Bool.false_eq_true, if_false]
  rw [if_neg hno, State.recv?_eq_none cn hnew]

/-- A discarded ember whose EMBER_ID no other has leaves the reservations as they were. -/
theorem State.freeRecv_recv_of_last {s : State} {l : List Recv} {r : Recv} (hs : s.recv = l ++ [r])
    (h : ∀ x ∈ l, x.id ≠ r.id) : (s.freeRecv r).recv = l := by
  have hfree : (s.freeRecv r).recv = eraseFirst (fun x => x.id == r.id && x.conn == r.conn) s.recv := by
    simp only [State.freeRecv]
    split <;> rfl
  rw [hfree, hs, eraseFirst_append_last (fun x hx => by simp [h x hx]) (by simp)]

/-- Giving a reservation back leaves the registers and the MERGEs. -/
theorem State.freeRecv_regs (s : State) (r : Recv) : (s.freeRecv r).regs = s.regs := by
  simp only [State.freeRecv]
  split <;> rfl

theorem State.freeRecv_merges (s : State) (r : Recv) : (s.freeRecv r).merges = s.merges := by
  simp only [State.freeRecv]
  split <;> rfl

theorem State.dropRecv_regs (s : State) (r : Recv) : (s.dropRecv r).regs = s.regs := by
  simp only [State.dropRecv]
  split
  · rfl
  · exact s.freeRecv_regs r

/-- An event counted by one. -/
theorem counted_count (s : State) (fn off : Nat) : counted s (s.count fn off 1) fn off 1 :=
  State.reg_count_same s fn off 1

/-- A count depends on the register alone. -/
theorem counted_congr {s t u : State} {fn off n : Nat} (h : u.reg fn off = t.reg fn off) (hc : counted s t fn off n) :
    counted s u fn off n := by
  rwa [counted, h]

/-! ### Verdicts (R189, R190) -/

/-- VERDICT_RECEIVED of a valid header of its tenant, whose reservation holds no ember yet. -/
theorem execVerdictReceived_new {s : State} {cn : Option Nat} {tn : Nat} {h : BitVec 256} (hlife : s.life ≠ .held)
    (htenant : ehTenant h = tn) (hkind : ehKind h = 3) (hv : ehVerdict h = 1 ∨ ehVerdict h = 2)
    (hrecv : s.recv? cn (ehId h) = none) :
    exec (.verdictReceived cn tn h (~~~h)) s = .next
      { s with
        recv := s.recv ++ [{ recvNew cn h s.ms with verdict := some (ehVerdict h, ehDigest h) }] }.unitsMark := by
  have hno : ¬(ehTenant h ≠ tn ∨ ehKind h ≠ 3 ∨ (ehVerdict h ≠ 1 ∧ ehVerdict h ≠ 2)) := by omega
  change Host.Outcome.next (s.verdictIn cn tn h (~~~h)) = _
  simp only [State.verdictIn, header_pair_ok, hlife, Bool.not_true, Bool.false_eq_true, if_false]
  rw [if_neg hno, hrecv]

/-- A verdict that is late recalls the ember that waited for it. -/
theorem State.verdictLate_of_kept {s : State} {r : Recv} (h : r.recalled = false) :
    s.verdictLate r = ((s.count 0 Reg.MG_VERDICT_LATE_CNT 1).setRegB 0 Reg.MG_ERR_STAT 4 true).recallInput r := by
  simp [State.verdictLate, h]

@[simp] theorem State.recallInput_regs (s : State) (r : Recv) : (s.recallInput r).regs = s.regs := by
  simp only [State.recallInput]
  split <;> rfl

@[simp] theorem State.recallInput_recv (s : State) (r : Recv) :
    (s.recallInput r).recv = (s.setRecv r.conn r.id fun x => { x with recalled := true }).recv := by
  simp only [State.recallInput]
  split <;> rfl

section
variable {s : State} {r : Recv} (hrecalled : r.recalled = false)
include hrecalled

/-- It is counted late, and shown. -/
theorem State.verdictLate_counted : counted s (s.verdictLate r) 0 Reg.MG_VERDICT_LATE_CNT 1 := by
  refine counted_congr ?_ (counted_count s 0 Reg.MG_VERDICT_LATE_CNT)
  rw [State.verdictLate_of_kept hrecalled, State.reg_congr (State.recallInput_regs ..),
    State.reg_setRegB_other _ _ _ (regKey_inj.not.2 (by decide))]

theorem State.verdictLate_shown : (s.verdictLate r).regB 0 Reg.MG_ERR_STAT 4 = true := by
  rw [State.verdictLate_of_kept hrecalled, State.regB, State.reg_congr (State.recallInput_regs ..)]
  exact State.regB_setRegB_same _ _ _ _ _ (by decide)

/-- Its reservation is recalled. -/
theorem State.verdictLate_recalled {x : Recv} (hx : x ∈ (s.verdictLate r).recv) (hid : x.id = r.id)
    (hconn : x.conn = r.conn) : x.recalled = true := by
  rw [State.verdictLate_of_kept hrecalled, State.recallInput_recv] at hx
  obtain ⟨y, -, rfl⟩ := State.of_mem_setRecv hx hid hconn
  rfl

/-- The end of the wait stays where it was. -/
theorem State.verdictLate_waitOver (x : Recv) : (s.verdictLate r).waitOver x = s.waitOver x := by
  have hcfg : (s.verdictLate r).reg 0 Reg.MG_CFG = s.reg 0 Reg.MG_CFG := by
    rw [State.verdictLate_of_kept hrecalled, State.reg_congr (State.recallInput_regs ..),
      State.reg_setRegB_other _ _ _ (regKey_inj.not.2 (by decide)),
      State.reg_count_other _ _ (regKey_inj.not.2 (by decide))]
  have hms : (s.verdictLate r).ms = s.ms := by
    rw [State.verdictLate_of_kept hrecalled, State.ms, State.recallInput_ft]
    rfl
  rw [State.waitOver, State.waitOver, State.regF, hcfg, hms, State.regF]

end

/-- VERDICT_RECEIVED of a SEAL for an early ember without a verdict, kept and not discarded. -/
theorem State.verdictIn_seal {s : State} {cn : Option Nat} {tn : Nat} {h g : BitVec 256} {r : Recv}
    (hlife : s.life ≠ .held) (htenant : ehTenant h = tn) (hkind : ehKind h = 3) (hv : ehVerdict h = 1)
    (hrecv : s.recv? cn (ehId h) = some r) (hg : r.header? = some g) (hearly : ehVerdict g = 0)
    (hverdict : r.verdict = none) (hrecalled : r.recalled = false) (hdiscarded : r.discarded = false)
    (hstands : s.waitOver r = true ∨ ehDigest g = ehDigest h) :
    s.verdictIn cn tn h (~~~h) = (if s.waitOver r then s.verdictLate r else s).setRecv cn r.id
      fun x => { x with verdict := some (1, ehDigest h) } := by
  have hno : ¬(ehTenant h ≠ tn ∨ ehKind h ≠ 3 ∨ (ehVerdict h ≠ 1 ∧ ehVerdict h ≠ 2)) := by omega
  have hsome : ¬(r.hdr.isNone = true ∨ r.verdict.isSome = true) := by
    rcases hhdr : r.hdr with _ | p
    · simp [Recv.header?, hhdr] at hg
    · simp [hverdict]
  simp only [State.verdictIn, header_pair_ok, hlife, Bool.not_true, Bool.false_eq_true, if_false]
  rw [if_neg hno, hrecv]
  simp only [if_neg hsome, hg, hearly, hdiscarded, hv, Bool.false_eq_true, if_false, OfNat.zero_ne_ofNat]
  refine if_pos ?_
  rcases hstands with hover | hdigest
  · refine .inr (.inl ?_)
    rw [hover, if_pos rfl]
    exact (State.verdictLate_waitOver hrecalled r).trans hover
  · exact .inr (.inr (by rw [hdigest]))

/-! ### Orphans (R196) -/

/-- An orphan leaves, or waits for its verdict. -/
theorem State.dropRecv_of_awaits {s : State} {r : Recv} (h : r.awaits = true) :
    s.dropRecv r = s.setRecv r.conn r.id fun x => { x with discarded := true, merge := none } := by
  simp [State.dropRecv, h]

theorem State.dropRecv_of_not_awaits {s : State} {r : Recv} (h : r.awaits = false) : s.dropRecv r = s.freeRecv r := by
  simp [State.dropRecv, h]

theorem State.freeRecv_recv (s : State) (r : Recv) :
    (s.freeRecv r).recv = eraseFirst (fun x => x.id == r.id && x.conn == r.conn) s.recv := by
  simp only [State.freeRecv]
  split <;> rfl

/-- Settles O33: where an ember, a verdict and the end of a wait leave the reservation. -/
theorem embersAndVerdictsArrive : Obligations.EmbersAndVerdictsArrive := by
  refine ⟨fun s cn tn f h body hlife htenant hkind hv hnew hfor hdone => ?_,
    fun s cn tn f h body hlife htenant hkind hv hnew hfor hdone => ?_, fun s cn tn f h c body hbad => ?_,
    fun s cn tn h hlife htenant hkind hv hrecv => ?_,
    fun s cn tn h g r hlife htenant hkind hv hrecv hg hearly hdigest hverdict hrecalled hdiscarded hover => ?_,
    fun s cn tn h g r hlife htenant hkind hv hrecv hg hearly hverdict hrecalled hdiscarded hover => ?_,
    fun s n r hfind => ?_, fun s n r hfind => ?_⟩
  · obtain ⟨t, hmem, hrecv, -, -, hplace⟩ := State.placeEmber_new (cn := cn) f hnew hfor
    rw [execEmberReceived_new hlife htenant hkind hv hnew, hplace, if_neg (by simpa using hdone)]
    exact ⟨t, _, rfl, hmem, hrecv, rfl, rfl, rfl, rfl, rfl, rfl, rfl, emberRecv_recalled ..⟩
  · obtain ⟨t, hmem, hrecv, hmerges, hcnt, hplace⟩ := State.placeEmber_new (cn := cn) f hnew hfor
    rw [execEmberReceived_new hlife htenant hkind hv.le hnew, hplace, if_pos (by simpa using hdone),
      State.dropRecv_of_not_awaits (emberRecv_awaits hv)]
    refine ⟨_, rfl, by simpa using hmem, State.freeRecv_recv_of_last hrecv hnew, ?_, ?_⟩
    · exact (State.freeRecv_merges ..).trans hmerges
    · rw [counted, State.reg_congr (State.freeRecv_regs ..), State.reg_count_same, hcnt]
  · refine ⟨s.headerFault, ?_, ?_, rfl, rfl, ?_⟩
    · change Host.Outcome.next (s.emberIn cn tn h c body f) = _
      simp [State.emberIn, hbad]
    · change Host.Outcome.next (s.verdictIn cn tn h c) = _
      simp [State.verdictIn, hbad]
    · exact counted_congr (State.reg_setRegB_other _ _ _ (regKey_inj.not.2 (by decide))) (counted_count ..)
  · rw [execVerdictReceived_new hlife htenant hkind hv hrecv]
    exact ⟨_, _, rfl, rfl, rfl, rfl, rfl, rfl, rfl⟩
  · obtain ⟨-, hconn⟩ := State.id_conn_of_recv? hrecv
    refine ⟨_, congrArg Host.Outcome.next (State.verdictIn_seal hlife htenant hkind hv hrecv hg hearly hverdict
      hrecalled hdiscarded (.inr hdigest)), ?_⟩
    rw [hover, if_neg (by decide), hconn]
    exact ⟨rfl, rfl, rfl⟩
  · obtain ⟨-, hconn⟩ := State.id_conn_of_recv? hrecv
    refine ⟨_, congrArg Host.Outcome.next (State.verdictIn_seal hlife htenant hkind hv hrecv hg hearly hverdict
      hrecalled hdiscarded (.inl hover)), ?_⟩
    rw [hover, if_pos rfl]
    refine ⟨by simp, State.verdictLate_counted hrecalled, fun x hx hid hconn' => ?_⟩
    obtain ⟨y, hy, rfl⟩ := State.of_mem_setRecv hx hid (hconn'.trans hconn)
    exact State.verdictLate_recalled hrecalled (x := y) hy hid hconn'
  · have hr := List.find?_some hfind
    have hrecalled : r.recalled = false := by simp_all
    refine ⟨s.verdictLate r, ?_, by simp, State.verdictLate_counted hrecalled, State.verdictLate_shown hrecalled,
      fun x => State.verdictLate_recalled hrecalled⟩
    change execVerdictTimeout n s = _
    rw [execVerdictTimeout, hfind]
  · refine ⟨s.orphanGone r, ?_, by simp, ?_, fun haw => ?_, fun haw x hx hid hconn => ?_⟩
    · have hfind' : (s.recv.find? fun r => r.id == n && s.orphaned r) = some r := by
        simpa only [State.orphaned, Bool.and_assoc] using hfind
      change execOrphanExpire n s = _
      rw [execOrphanExpire, hfind']
    · exact counted_congr (State.reg_congr (State.dropRecv_regs ..) ..) (counted_count ..)
    · rw [State.orphanGone, State.dropRecv_of_not_awaits haw, State.freeRecv_recv]
      rfl
    · rw [State.orphanGone, State.dropRecv_of_awaits haw] at hx
      obtain ⟨y, -, rfl⟩ := State.of_mem_setRecv hx hid hconn
      rfl

end Sys2Proof.Machine
end

section
/-!
PROOFS. Sequences: what OPEN, CLOSE and the freeing of an entry leave (R81 to R84, R88, R95, R376).
-/

namespace Sys2Proof.Machine

/-! ### Entries of the directory -/

/-- An entry depends on the directory alone. -/
theorem State.dir?_congr {s t : State} (h : t.dir = s.dir) (k : DirKey) : t.dir? k = s.dir? k := by
  rw [State.dir?, State.dir?, h]

/-- So does PUBLISHED. -/
theorem State.pubOf_congr {s t : State} (h : t.dir = s.dir) (k : DirKey) : t.pubOf k = s.pubOf k := by
  rw [State.pubOf, State.pubOf, State.dir?_congr h]

theorem State.key_of_dir? {s : State} {k : DirKey} {d : Dir} (h : s.dir? k = some d) : d.key = k := by
  simpa [State.dir?] using List.find?_some h

@[simp] theorem Dir.val?_write (d : Dir) (v : BitVec 256) : (d.write v).val? = some v := by simp [Dir.val?, Dir.write]

/-- An entry in STATE 1 is readable. -/
theorem State.dir?_of_openEntry {s : State} {k : DirKey} {v : BitVec 256} (h : s.openEntry k = some v) :
    ∃ d, s.dir? k = some d ∧ d.val? = some v ∧ deState v = 1 := by
  simp only [State.openEntry] at h
  split at h
  next d hd =>
    split at h
    next w hw =>
      split at h
      next hst => cases h; exact ⟨d, hd, hw, hst⟩
      next => cases h
    next => cases h
  next => cases h

theorem State.openEntry_of_dir? {s : State} {k : DirKey} {d : Dir} {v : BitVec 256} (hd : s.dir? k = some d)
    (hv : d.val? = some v) (hst : deState v = 1) : s.openEntry k = some v := by
  simp [State.openEntry, hd, hv, hst]

/-- The entry of a key that is changed. -/
theorem State.dir?_setDir_same {s : State} {k : DirKey} {d : Dir} {f : Dir → Dir} (hf : ∀ e, (f e).key = e.key)
    (h : s.dir? k = some d) : (s.setDir k f).dir? k = some (f d) := by
  rw [State.dir_setDir s k k f hf, h, Option.map_some, if_pos (State.key_of_dir? h)]

@[simp] theorem State.cplFault_dir (s : State) (r : RecRef) : (s.cplFault r).dir = s.dir := by
  simp only [State.cplFault]
  split <;> simp

/-- A key that has an entry has one after the entry is read. -/
theorem State.dirSeen_entry {s : State} {k : DirKey} {d : Dir} (h : s.dir? k = some d) :
    ∃ e, (s.dirSeen k).dir? k = some e := by
  simp only [State.dirSeen, h]
  split
  · exact ⟨d, h⟩
  · split
    · exact ⟨_, State.dir?_setDir_same (fun _ => rfl) ((State.dir?_congr (by simp) k).trans h)⟩
    · exact ⟨d, (State.dir?_congr (State.cplFault_dir ..) k).trans h⟩

/-- A read of an entry both of whose copies are valid finds nothing to mend. -/
theorem State.dirSeen_of_ok {s : State} {k : DirKey} {d : Dir} (h : s.dir? k = some d) (ha : d.a.ok = true)
    (hb : d.b.ok = true) : s.dirSeen k = s := by
  simp [State.dirSeen, h, ha, hb]

/-! ### The end of an APPEND, OPEN or CLOSE (R95) -/

@[simp] theorem State.endAppend_dir (s : State) (c : Cmd) (status : Nat) (replay held : Bool) :
    (s.endAppend c status replay held).dir = s.dir := by
  simp only [State.endAppend, State.endCmd_dir]
  split <;> simp

/-- It ends the body of its command. -/
theorem State.endAppend_endedWith {s : State} {c c' : Cmd} (h : s.cmd? c.id = some c') (hc : c'.phase ≠ .ended)
    (status : Nat) (replay held : Bool) : (s.endAppend c status replay held).endedWith c.id status := by
  refine State.endCmd_endedWith (c := c') ?_ hc status _
  split
  · exact (State.cmd?_congr (State.count_cmds ..) c.id).trans h
  · exact h

/-- Where no rows were compared nothing is counted. -/
theorem State.endAppend_of_fresh (s : State) (c : Cmd) (status : Nat) (held : Bool) : ∃ r,
    s.endAppend c status false held = s.endCmd c.id status r := ⟨_, rfl⟩

/-- The start of a command changes the commands and the turns of the queues alone (R249, R252). -/
theorem State.runCmd_eq (s : State) (id : Nat) : ∃ cs ts, s.runCmd id = { s with cmds := cs, turns := ts } := by
  obtain ⟨ts, h⟩ := s.served_turns id
  exact ⟨_, ts, by rw [State.runCmd, h]; rfl⟩

/-! ### OPEN (R83, R88) -/

/-- The value of the entry that OPEN adds. -/
def State.openValue (s : State) (c : Cmd) : BitVec 256 :=
  let d := c.desc
  let ext0 := apPos d / 1024
  deMake (apSeq d) (apLayer d) (apKvFirst d) (apKvCount d) c.part 1 (s.classFor c.part (apClass d)) (apFmt d % 8)
    (apFmt d / 8) (1024 * ext0) ext0 (if apCount d = 0 then 4095 else ext0 + apCount d - 1) s.dirGen.toNat
    (s.fresh 64).toNat

/-- Its ownership record: none, or this node's own for good (R376). -/
def State.openOwn (s : State) (d : BitVec 512) : BitVec 128 :=
  if apFlags d = 2 then owMake 0 0 0 0 noEnd 0 else owMake 1 s.nodeId s.nodeId 0 noEnd 1

/-- The entry that OPEN adds. -/
def State.openDir (s : State) (c : Cmd) : Dir :=
  { key := c.key, a := pairOf (s.openValue c), b := pairOf (s.openValue c), oa := pairOf (s.openOwn c.desc),
    ob := pairOf (s.openOwn c.desc), dropped := [], closer := none, sentAt := 0, final := false, twin := none }

/-- The fields of an entry value. -/
theorem deState_deMake (seq layer kvFirst kvCount part state cls fmt dim pub ext0 ext1 gen map : Nat) :
    deState (deMake seq layer kvFirst kvCount part state cls fmt dim pub ext0 ext1 gen map) = state % 4 := by
  simp (disch := decide) only [deState, deMake, getF_setF_other, getF_setF_same, Nat.reducePow]

theorem dePub_deMake (seq layer kvFirst kvCount part state cls fmt dim pub ext0 ext1 gen map : Nat) :
    dePub (deMake seq layer kvFirst kvCount part state cls fmt dim pub ext0 ext1 gen map) = pub % 2 ^ 24 := by
  simp (disch := decide) only [dePub, deMake, getF_setF_other, getF_setF_same]

theorem deKvFirst_deMake (seq layer kvFirst kvCount part state cls fmt dim pub ext0 ext1 gen map : Nat) :
    deKvFirst (deMake seq layer kvFirst kvCount part state cls fmt dim pub ext0 ext1 gen map) = kvFirst % 2 ^ 8 := by
  simp (disch := decide) only [deKvFirst, deMake, getF_setF_other, getF_setF_same]

theorem deKvCount_deMake (seq layer kvFirst kvCount part state cls fmt dim pub ext0 ext1 gen map : Nat) :
    deKvCount (deMake seq layer kvFirst kvCount part state cls fmt dim pub ext0 ext1 gen map) = kvCount % 2 ^ 8 := by
  simp (disch := decide) only [deKvCount, deMake, getF_setF_other, getF_setF_same]

/-- A record of this node's own without an end is a lease that it holds (R376). -/
theorem State.holdsOwn_owMake (s : State) (epoch holder grantor twin : Nat) :
    s.holdsOwn (owMake epoch holder grantor twin noEnd 1) = true := by
  have hst : owState (owMake epoch holder grantor twin noEnd 1) = 1 := getF_setF_same _ 0 3 1 (by decide)
  have hend : owEnd (owMake epoch holder grantor twin noEnd 1) = noEnd := by
    simp (disch := decide) only [owEnd, owMake, getF_setF_other, getF_setF_same]
    decide
  simp [State.holdsOwn, hst, hend]

/-- An entry is added to the directory. -/
def State.withEntry (s : State) (d : Dir) : State := { s with dir := s.dir ++ [d] }

section
variable {s : State} {c : Cmd} (hok : openOk c.desc = true)
include hok

/-- An OPEN that passes its checks adds the entry of its key. -/
theorem State.openBody_of_new (hadrift : s.adrift = false) (hpos : apPos c.desc < 4194304)
    (hext : apPos c.desc / 1024 + apCount c.desc ≤ 4096) (hnew : s.dir? c.key = none)
    (hclass : s.classAllowed c.part (s.classFor c.part (apClass c.desc)) = true)
    (hpart : s.resident (some c.part) < 16 * recField (s.entryVal c.part) 56 2) (hnode : s.resident none < 65536) :
    s.openBody c = (s.drawn.withEntry (s.openDir c)).endAppend c 0 false false := by
  have hfull : ¬(16 * recField (s.entryVal c.part) 56 2 ≤ s.resident (some c.part) ∨ 65536 ≤ s.resident none) := by omega
  simp only [State.openBody, hok, hadrift, hnew, hclass, hfull, Nat.not_le.2 hpos, Nat.not_lt.2 hext, Bool.not_true,
    Bool.false_eq_true, if_false, or_self, and_false]
  rfl

/-- While Adrift nothing opens (R20). -/
theorem State.openBody_of_adrift (hadrift : s.adrift = true) : s.openBody c = s.endAppend c 0x10 false false := by
  simp only [State.openBody, hok, hadrift, Bool.not_true, Bool.false_eq_true, if_false, if_true]

/-- A well-formed OPEN begins at a multiple of 1,024. -/
theorem apPos_of_openOk : apPos c.desc % 1024 = 0 := by
  simp only [openOk, Bool.and_eq_true, beq_iff_eq] at hok
  obtain ⟨⟨⟨-, hpos⟩, -⟩, -⟩ := hok
  exact hpos

/-- The entry added is in STATE 1, with the fields of the descriptor. -/
theorem State.openValue_fields (s : State) (hpos : apPos c.desc < 4194304) :
    deState (s.openValue c) = 1 ∧ dePub (s.openValue c) = apPos c.desc ∧
      deKvFirst (s.openValue c) = apKvFirst c.desc ∧ deKvCount (s.openValue c) = apKvCount c.desc := by
  have hmul := apPos_of_openOk hok
  refine ⟨deState_deMake .., (dePub_deMake ..).trans ?_, (deKvFirst_deMake ..).trans ?_, (deKvCount_deMake ..).trans ?_⟩
  · omega
  · exact Nat.mod_eq_of_lt (getF_lt c.desc _ _)
  · exact Nat.mod_eq_of_lt (getF_lt c.desc _ _)

end

/-- The entry added is the one of its key. -/
theorem State.dir?_append_of_new {s t : State} {e : Dir} (hdir : t.dir = s.dir ++ [e]) (hnew : s.dir? e.key = none) :
    t.dir? e.key = some e := by
  rw [State.dir?, hdir, List.find?_append, show s.dir.find? (fun d => d.key == e.key) = none from hnew]
  simp

/-- OPEN runs its checks on the started command. -/
theorem execOpenSeq_of_starting {s : State} {id : Nat} {c : Cmd} (hc : s.starting? id 1 = some c) (hop : dOp c.desc = 1)
    (hawake : s.awake = true) : exec (.openSeq id) s = .next ((s.runCmd id).openBody c) := by
  change execOpenSeq id s = _
  simp only [execOpenSeq, hc, hop, hawake, and_self, if_true]

/-! ### CLOSE and the freeing of its entry (R84, R88) -/

/-- With no APPEND of the key pending, none ends. -/
theorem State.endPending_of_none {s : State} {k : DirKey} (h : ∀ x ∈ s.holds, x.key ≠ k) (status : Nat) :
    s.endPending k status = { s with holds := s.holds.filter fun x => x.key != k } := by
  have hnone : s.holds.filter (fun x => x.key == k) = [] := List.filter_eq_nil_iff.2 fun x hx => by simp [h x hx]
  rw [State.endPending, hnone, List.foldl_nil]

/-- With no KINDLE, none ends. -/
theorem State.endKindles_of_none {s : State} (h : s.kindles = []) (f : Kindle → Bool) (status : Nat) :
    s.endKindles f status = s := by
  simp [State.endKindles, h]

@[simp] theorem State.cplFault_holds (s : State) (r : RecRef) : (s.cplFault r).holds = s.holds := by
  simp only [State.cplFault]
  split <;> simp

@[simp] theorem State.cplFault_kindles (s : State) (r : RecRef) : (s.cplFault r).kindles = s.kindles := by
  simp only [State.cplFault]
  split <;> simp

@[simp] theorem State.dirSeen_holds (s : State) (k : DirKey) : (s.dirSeen k).holds = s.holds := by
  unfold State.dirSeen
  (repeat' split) <;> simp

@[simp] theorem State.dirSeen_kindles (s : State) (k : DirKey) : (s.dirSeen k).kindles = s.kindles := by
  unfold State.dirSeen
  (repeat' split) <;> simp

/-- What CLOSE makes of the entry (R84). -/
def Dir.closed (d : Dir) (v : BitVec 256) (id : Nat) : Dir := { d.write (setF v 160 2 2) with closer := some id }

/-- A CLOSE of an open entry whose key nothing waits for marks the entry. -/
theorem execCloseSeq_of_open {s : State} {id : Nat} {c : Cmd} {v : BitVec 256} (hc : s.starting? id 1 = some c)
    (hop : dOp c.desc = 2) (hawake : s.awake = true) (hok : closeOk c.desc = true) (hzeros : apZeros c.desc = true)
    (hadrift : s.adrift = false) (hopen : s.openEntry c.key = some v) (hholds : ∀ h ∈ s.holds, h.key ≠ c.key)
    (hkindles : s.kindles = []) : ∃ hs, exec (.closeSeq id) s = .next
      { ((s.runCmd id).dirSeen c.key).setDir c.key fun d => d.closed v id with holds := hs } := by
  obtain ⟨cs, ts, hrun⟩ := s.runCmd_eq id
  obtain ⟨d, hd, hv, hst⟩ := State.dir?_of_openEntry hopen
  have hd' : (s.runCmd id).dir? c.key = some d := (State.dir?_congr (State.runCmd_dir ..) c.key).trans hd
  have hadrift' : (s.runCmd id).adrift = false := by rw [hrun]; exact hadrift
  change ∃ _, execCloseSeq id s = _
  simp only [execCloseSeq, hc, hop, hawake, hok, hzeros, hadrift', hd', hv, hst, Bool.not_true, Bool.false_eq_true,
    ne_eq, not_true, or_self, if_false, OfNat.one_ne_ofNat]
  rw [State.endPending_of_none (by simpa using hholds), State.endKindles_of_none (by simpa using hkindles)]
  exact ⟨_, rfl⟩

/-- CLOSE_FREE waits for the dispatched work. -/
theorem execCloseFree_of_busy {s : State} {k : DirKey} (h : s.keyBusy k = true) : exec (.closeFree k) s = .next s := by
  change execCloseFree k s = _
  simp only [execCloseFree, h, or_true, if_true]
  split <;> rfl

/-- CLOSE_FREE of a closing entry without dispatched work frees the entry and ends its CLOSE. -/
theorem execCloseFree_of_closing {s : State} {k : DirKey} {d : Dir} {v : BitVec 256} {id : Nat} {c : Cmd}
    (hd : s.dir? k = some d) (hv : d.val? = some v) (hst : deState v = 2) (hcloser : d.closer = some id)
    (hc : s.cmd? id = some c) (hbusy : s.keyBusy k = false) :
    exec (.closeFree k) s = .next ((s.freeEntry k).endAppend c 0 false false) := by
  have hc' : (s.freeEntry k).cmd? id = some c := hc
  change execCloseFree k s = _
  simp only [execCloseFree, hd, hv, hst, hcloser, hbusy, hc', BEq.rfl, Bool.not_true, Bool.false_eq_true, or_self,
    if_false]

/-- A freed key has no entry. -/
theorem State.dir?_freeEntry (s : State) (k : DirKey) : (s.freeEntry k).dir? k = none := by
  rw [State.dir?, List.find?_eq_none]
  intro d hd
  simpa [State.freeEntry] using (List.mem_filter.1 hd).2

/-- What such an OPEN leaves: its command ended, and the entry of its key. -/
theorem State.openBody_effect {s : State} {c c' : Cmd} (hcmd : s.cmd? c.id = some c') (hphase : c'.phase ≠ .ended)
    (hok : openOk c.desc = true) (hpos : apPos c.desc < 4194304) (hnew : s.dir? c.key = none)
    (hbody : s.openBody c = (s.drawn.withEntry (s.openDir c)).endAppend c 0 false false) :
    ∃ v, (s.openBody c).endedWith c.id 0 ∧ (s.openBody c).openEntry c.key = some v ∧ dePub v = apPos c.desc ∧
      deKvFirst v = apKvFirst c.desc ∧ deKvCount v = apKvCount c.desc ∧
      (s.openBody c).dir.length = s.dir.length + 1 ∧
      (apFlags c.desc ≠ 2 → ∀ d, (s.openBody c).dir? c.key = some d → (s.openBody c).holdsLease d = true) := by
  have hdir : (s.openBody c).dir = s.dir ++ [s.openDir c] := hbody ▸ State.endAppend_dir ..
  have hentry : (s.openBody c).dir? c.key = some (s.openDir c) := State.dir?_append_of_new hdir hnew
  obtain ⟨hst, hpub, hfirst, hcount⟩ := State.openValue_fields hok s hpos
  refine ⟨s.openValue c, ?_, State.openEntry_of_dir? hentry (by simp [Dir.val?, State.openDir]) hst, hpub, hfirst, hcount,
    by simp [hdir], fun hflags d hd => ?_⟩
  · rw [hbody]
    exact State.endAppend_endedWith (s := s.drawn.withEntry (s.openDir c)) hcmd hphase 0 _ _
  · obtain rfl : s.openDir c = d := Option.some.inj (hentry.symm.trans hd)
    simp [State.holdsLease, Dir.own?, State.openDir, State.openOwn, hflags, State.holdsOwn_owMake]

/-- Settles O25: the entry that OPEN adds, the state that CLOSE writes into it, and what its freeing takes along. -/
theorem sequencesOpenAndClose : Obligations.SequencesOpenAndClose := by
  refine ⟨fun s id c hc hop hawake hok hadrift hpos hext hnew hclass hpart hnode => ?_,
    fun s id c hc hop hawake hok hadrift => ?_,
    fun s id c v hc hop hawake hok hzeros hadrift hopen hholds hkindles => ?_,
    fun s k d v id c hd hv hst hcloser hc hphase hbusy => ?_, fun s k hbusy => execCloseFree_of_busy hbusy⟩
  · obtain ⟨hcmd, -⟩ := State.cmd?_of_starting hc
    obtain ⟨cs, ts, heq⟩ := s.runCmd_eq id
    have hnew' : (s.runCmd id).dir? c.key = none := heq ▸ hnew
    have hbody := State.openBody_of_new hok (heq ▸ hadrift) hpos hext hnew' (heq ▸ hclass) (heq ▸ hpart) (heq ▸ hnode)
    obtain rfl := State.id_of_cmd? hcmd
    obtain ⟨v, hended, hopen, hpub, hfirst, hcount, hlen, hlease⟩ :=
      State.openBody_effect (State.cmd?_runCmd hcmd) (by simp) hok hpos hnew' hbody
    exact ⟨_, v, execOpenSeq_of_starting hc hop hawake, by simp, hended, hopen, hpub, hfirst, hcount,
      by rw [hlen, State.runCmd_dir], hlease⟩
  · obtain ⟨hcmd, -⟩ := State.cmd?_of_starting hc
    obtain ⟨cs, ts, heq⟩ := s.runCmd_eq id
    have hadrift' : (s.runCmd id).adrift = true := by rw [heq]; exact hadrift
    obtain rfl := State.id_of_cmd? hcmd
    rw [execOpenSeq_of_starting hc hop hawake, State.openBody_of_adrift hok hadrift']
    exact ⟨_, rfl, by simp, by simp, State.endAppend_endedWith (State.cmd?_runCmd hcmd) (by simp) _ _ _⟩
  · obtain ⟨hs, hexec⟩ := execCloseSeq_of_open hc hop hawake hok hzeros hadrift hopen hholds hkindles
    obtain ⟨d, hd, -, -⟩ := State.dir?_of_openEntry hopen
    obtain ⟨e, he⟩ := State.dirSeen_entry ((State.dir?_congr (State.runCmd_dir s id) c.key).trans hd)
    exact ⟨_, e.closed v id, setF v 160 2 2, hexec, execCloseSeq_mem id s _ hexec,
      State.dir?_setDir_same (fun _ => rfl) he, (e.val?_write _ :), getF_setF_same v 160 2 2 (by decide), rfl⟩
  · rw [execCloseFree_of_closing hd hv hst hcloser hc hbusy]
    obtain rfl := State.id_of_cmd? hc
    refine ⟨_, rfl, by simp, ?_, ?_, State.endAppend_endedWith (s := s.freeEntry k) hc hphase 0 _ _, ?_⟩
    · exact (State.dir?_congr (State.endAppend_dir ..) k).trans (s.dir?_freeEntry k)
    · obtain ⟨r, hr⟩ := (s.freeEntry k).endAppend_of_fresh c 0 false
      rw [hr, State.endCmd_dirGen]
      rfl
    · obtain ⟨r, hr⟩ := (s.freeEntry k).endAppend_of_fresh c 0 false
      rw [hr, State.endCmd_slots]
      rfl

end Sys2Proof.Machine
end

section
/-!
PROOFS. What reading, moving, allocating and writing pages leave: the taken commands and the directory (R89, R91, R229,
R384).
-/

namespace Sys2Proof.Machine

/-- The taken commands and the directory. -/
def State.seqView (s : State) : List Cmd × List Dir := (s.cmds, s.dir)

theorem State.cmds_of_seqView {s t : State} (h : t.seqView = s.seqView) : t.cmds = s.cmds := congrArg Prod.fst h

theorem State.dir_of_seqView {s t : State} (h : t.seqView = s.seqView) : t.dir = s.dir := congrArg Prod.snd h

@[simp] theorem ite_seqView (c : Prop) [Decidable c] (s t : State) :
    (if c then s else t).seqView = if c then s.seqView else t.seqView := apply_ite State.seqView c s t

theorem ite_slots_seqView (c : Prop) [Decidable c] (s : State) (xs : List Slot) :
    (if c then { s with slots := xs } else s).seqView = s.seqView := by
  split <;> rfl

/-- A fold that carries more than the state, whose every step leaves what `g` reads of the state, leaves it. -/
theorem foldl_fst_keeps {α β γ : Type} (g : State → γ) {f : State × β → α → State × β}
    (h : ∀ x a, g (f x a).1 = g x.1) (l : List α) (x : State × β) : g (l.foldl f x).1 = g x.1 := by
  induction l generalizing x with
  | nil => rfl
  | cons a l ih => rw [List.foldl_cons, ih, h]

/-! ### The operations of a state -/

@[simp] theorem State.setReg_seqView (s : State) (fn off : Nat) (v : Word) : (s.setReg fn off v).seqView = s.seqView :=
  Prod.ext (s.setReg_cmds fn off v) (s.setReg_dir fn off v)

@[simp] theorem State.setRegB_seqView (s : State) (fn off i : Nat) (b : Bool) :
    (s.setRegB fn off i b).seqView = s.seqView := State.setReg_seqView ..

@[simp] theorem State.count_seqView (s : State) (fn off n : Nat) : (s.count fn off n).seqView = s.seqView :=
  State.setReg_seqView ..

@[simp] theorem State.hwm_seqView (s : State) (fn off v : Nat) : (s.hwm fn off v).seqView = s.seqView :=
  State.setReg_seqView ..

@[simp] theorem State.setEcc_seqView (s : State) (k : Nat) (e : Ecc) : (s.setEcc k e).seqView = s.seqView := rfl
@[simp] theorem State.store_seqView (s : State) (a : Nat) (bs : List Byte) : (s.store a bs).seqView = s.seqView := rfl
@[simp] theorem State.clearEcc_seqView (s : State) (a n : Nat) : (s.clearEcc a n).seqView = s.seqView := rfl
@[simp] theorem State.wake_seqView (s : State) (u : GateUnit) : (s.wake u).seqView = s.seqView := rfl
@[simp] theorem State.setConn_seqView (s : State) (i : Nat) (c : Conn) : (s.setConn i c).seqView = s.seqView := rfl

@[simp] theorem State.engineWrite_seqView (s : State) (part cmd a : Nat) (bs : List Byte) :
    (s.engineWrite part cmd a bs).seqView = s.seqView := rfl

/-! ### Reading (R128, R370) -/

@[simp] theorem State.countEcc_seqView (s : State) (a : Nat) (ue : Bool) : (s.countEcc a ue).seqView = s.seqView := by
  simp [State.countEcc]

@[simp] theorem State.wantRemap_seqView (s : State) (r : Nat) : (s.wantRemap r).seqView = s.seqView := by
  simp only [State.wantRemap]
  split <;> rfl

@[simp] theorem State.noteCorrected_seqView (s : State) (r : Nat) : (s.noteCorrected r).seqView = s.seqView := by
  simp only [State.noteCorrected]
  split
  · exact State.wantRemap_seqView ..
  · rfl

@[simp] theorem State.meetSector_seqView (s : State) (k : Nat) : (s.meetSector k).seqView = s.seqView := by
  simp only [State.meetSector]
  split <;> simp

@[simp] theorem State.scanned_seqView (s : State) (a n : Nat) : (s.scanned a n).seqView = s.seqView :=
  foldl_keeps State.seqView State.meetSector_seqView _ s

@[simp] theorem State.activate_seqView (s : State) (r : Nat) : (s.activate r).seqView = s.seqView := by
  simp only [State.activate]
  split
  · exact State.count_seqView ..
  · rfl

@[simp] theorem State.opens_seqView (s : State) (a n : Nat) : (s.opens a n).seqView = s.seqView :=
  foldl_keeps State.seqView State.activate_seqView _ s

/-! ### Moving (R229) -/

@[simp] theorem State.moveBytes_seqView (s : State) (src dst n : Nat) : (s.moveBytes src dst n).seqView = s.seqView := by
  simp only [State.moveBytes]
  rw [foldl_keeps State.seqView fun t k => t.setEcc_seqView k .uncorrectable]
  simp

@[simp] theorem State.redirect_seqView (s : State) (src dst obj : Nat) : (s.redirect src dst obj).seqView = s.seqView :=
  rfl

@[simp] theorem State.moveSlot_seqView (s : State) (x : Slot) (dst : Nat) : (s.moveSlot x dst).seqView = s.seqView := by
  simp [State.moveSlot]

@[simp] theorem State.moveOn_seqView (s : State) (m : Move) (n : Nat) : (s.moveOn m n).seqView = s.seqView := by
  unfold State.moveOn
  split
  · rfl
  · extract_lets k t
    have ht : t.seqView = s.seqView := s.moveBytes_seqView ..
    split
    · exact ht
    · exact ht

@[simp] theorem State.endMoves_seqView (s : State) : s.endMoves.seqView = s.seqView :=
  foldl_keeps State.seqView (fun t m => t.moveOn_seqView m _) _ s

@[simp] theorem State.compact_seqView (s : State) (p : Nat) (r : Region) : (s.compact p r).seqView = s.seqView := by
  rw [State.compact, foldl_fst_keeps State.seqView]
  intro x a
  split <;> simp

/-! ### Allocating (R229, R236) -/

theorem State.takeIn_seqView {s : State} {p need : Nat} {r : Region} {x : State × Nat}
    (h : s.takeIn p need r = some x) : x.1.seqView = s.seqView := by
  simp only [State.takeIn] at h
  split at h
  · cases h; rfl
  · split at h
    · cases h
    · obtain ⟨a, -, rfl⟩ := Option.map_eq_some_iff.1 h
      exact s.compact_seqView p r

theorem State.takeFirst_seqView {s : State} {p need : Nat} {rs : List Region} {x : State × Nat × Nat}
    (h : s.takeFirst p need rs = some x) : x.1.seqView = s.seqView := by
  induction rs with
  | nil => cases h
  | cons r t ih =>
    rw [State.takeFirst] at h
    split at h
    next heq => cases h; exact State.takeIn_seqView heq
    next => exact ih h

@[simp] theorem State.makeRoom_seqView (s : State) (p need : Nat) (r : Region) (others : List Region) :
    (s.makeRoom p need r others).seqView = s.seqView := by
  unfold State.makeRoom
  split
  · rfl
  · rw [foldl_keeps State.seqView]
    intro t x
    split
    · rfl
    · split
      next heq =>
        rw [State.redirect_seqView, State.moveBytes_seqView]
        exact State.takeFirst_seqView heq
      next => rfl

theorem State.takeArea_seqView {s : State} {p need area : Nat} {x : State × Nat × Nat}
    (h : s.takeArea p need area = some x) : x.1.seqView = s.seqView := by
  simp only [State.takeArea] at h
  split at h
  next heq => cases h; exact State.takeFirst_seqView heq
  next =>
    split at h
    · cases h
    · obtain ⟨r, -, hr⟩ := List.mem_filterMap.1 (List.mem_of_mem_head? h)
      obtain ⟨y, hy, rfl⟩ := Option.map_eq_some_iff.1 hr
      exact (State.takeIn_seqView hy).trans (State.makeRoom_seqView ..)

theorem State.allocAll_seqView {s t : State} {p : Nat} {use : SlotUse} {plan : List (Need × Option Nat)}
    {got got' : List Slot} (h : s.allocAll p use plan got = .ok (t, got')) : t.seqView = s.seqView := by
  induction plan generalizing s got with
  | nil => cases h; rfl
  | cons x plan ih =>
    obtain ⟨n, area⟩ := x
    simp only [State.allocAll] at h
    split at h
    · cases h
    · split at h
      · cases h
      next heq => exact (ih h).trans (State.takeArea_seqView heq)

/-- Foreground dropping allocates nothing at once. -/
theorem State.dropFor_ne_got (s t : State) (p q : Nat) (areas : List (Nat × Nat)) (xs : List Slot) :
    s.dropFor p q areas ≠ .got t xs := by
  unfold State.dropFor
  split <;> exact nofun

/-- An allocation that answers slots has taken them one after another. -/
theorem State.allocate_got_seqView {s t : State} {p : Nat} {use : SlotUse} {needs : List Need} {xs : List Slot}
    (h : s.allocate p use needs = .got t xs) : t.seqView = s.seqView := by
  unfold State.allocate at h
  extract_lets u plan total q areas noCap at h
  split at h
  · cases h
  split at h
  · split at h
    next heq =>
      cases h
      exact (State.hwm_seqView ..).trans ((State.allocAll_seqView heq).trans s.endMoves_seqView)
    next =>
      split at h
      · cases h
      · exact absurd h (State.dropFor_ne_got _ _ _ _ _ _)
  · exact absurd h (State.dropFor_ne_got _ _ _ _ _ _)

/-! ### Writing and publishing (R91, R234, R384) -/

@[simp] theorem State.codedWrite_seqView (s : State) (part cmd a : Nat) (bs : List Byte) :
    (s.codedWrite part cmd a bs).seqView = s.seqView := by
  simp only [State.codedWrite, State.engineWrite_seqView]
  rw [foldl_keeps State.seqView State.meetSector_seqView, State.opens_seqView]

@[simp] theorem State.writePage_seqView (s : State) (cmd : Nat) (x : Slot) (v : BitVec 256) (kScale vScale : Word)
    (k : Nat) (ks vs : List (List Byte)) : (s.writePage cmd x v kScale vScale k ks vs).seqView = s.seqView := by
  simp only [State.writePage]
  refine (ite_slots_seqView _ _ _).trans ?_
  simp

@[simp] theorem State.writeHead_seqView (s : State) (c : Cmd) (v : BitVec 256) (kv lo hi : Nat)
    (src : List (List Byte) × List (List Byte)) : (s.writeHead c v kv lo hi src).seqView = s.seqView := by
  simp only [State.writeHead]
  rw [foldl_keeps State.seqView]
  intro t f
  split <;> simp

@[simp] theorem State.heatBuilt_seqView (s : State) (p seq lo hi : Nat) :
    (s.heatBuilt p seq lo hi).seqView = s.seqView := by
  rw [State.heatBuilt, foldl_keeps State.seqView]
  intro t f
  split <;> rfl

@[simp] theorem State.enqueued_seqView (s : State) (i tc : Nat) : (s.enqueued i tc).seqView = s.seqView := by
  rw [State.enqueued, foldl_keeps State.seqView]
  · exact State.hwm_seqView ..
  · intro t ex
    split <;> simp

@[simp] theorem State.sendMsg_seqView (s : State) (i op waykey base len : Nat) (ext data : List Byte) (owner : Owner)
    (num : Option Nat) : (s.sendMsg i op waykey base len ext data owner num).seqView = s.seqView := by
  simp only [State.sendMsg, State.enqueued_seqView, State.setConn_seqView]

@[simp] theorem State.sendMsg_cmds (s : State) (i op waykey base len : Nat) (ext data : List Byte) (owner : Owner)
    (num : Option Nat) : (s.sendMsg i op waykey base len ext data owner num).cmds = s.cmds :=
  State.cmds_of_seqView (State.sendMsg_seqView ..)

@[simp] theorem State.sendMsg_dir (s : State) (i op waykey base len : Nat) (ext data : List Byte) (owner : Owner)
    (num : Option Nat) : (s.sendMsg i op waykey base len ext data owner num).dir = s.dir :=
  State.dir_of_seqView (State.sendMsg_seqView ..)

/-- Forwarding an APPEND leaves the commands. -/
@[simp] theorem State.forwardAppend_cmds (s : State) (c : Cmd) (src : List Byte) :
    (s.forwardAppend c src).cmds = s.cmds := by
  unfold State.forwardAppend
  (repeat' split) <;> simp

end Sys2Proof.Machine
end

section
/-!
PROOFS. APPEND: its checks, its turn in the hold queue, and the publication of its rows (R87, R90, R91, R95, R243, R384).
-/

namespace Sys2Proof.Machine

/-! ### What the checks before the body leave (R87) -/

/-- The taken commands, the pending APPENDs and the relocations under way. -/
def State.headView (s : State) : List Cmd × List Hold × List Move := (s.cmds, s.holds, s.moves)

@[simp] theorem State.setReg_headView (s : State) (fn off : Nat) (v : Word) :
    (s.setReg fn off v).headView = s.headView :=
  Prod.ext (s.setReg_cmds fn off v) (Prod.ext (s.setReg_holds fn off v) (s.setReg_moves fn off v))

@[simp] theorem State.setRegB_headView (s : State) (fn off i : Nat) (b : Bool) :
    (s.setRegB fn off i b).headView = s.headView := State.setReg_headView ..

@[simp] theorem State.count_headView (s : State) (fn off n : Nat) : (s.count fn off n).headView = s.headView :=
  State.setReg_headView ..

@[simp] theorem State.setDir_headView (s : State) (k : DirKey) (f : Dir → Dir) :
    (s.setDir k f).headView = s.headView := rfl

@[simp] theorem State.cplFault_headView (s : State) (r : RecRef) : (s.cplFault r).headView = s.headView := by
  unfold State.cplFault
  extract_lets t
  have ht : t.headView = s.headView := by simp [t]
  split
  · exact ht
  · exact ht

@[simp] theorem State.dirSeen_headView (s : State) (k : DirKey) : (s.dirSeen k).headView = s.headView := by
  unfold State.dirSeen
  (repeat' split) <;> simp

@[simp] theorem State.ownSeen_headView (s : State) (k : DirKey) : (s.ownSeen k).headView = s.headView := by
  unfold State.ownSeen
  (repeat' split) <;> simp

@[simp] theorem State.unmappedError_headView (s : State) : s.unmappedError.headView = s.headView := by
  simp [State.unmappedError]

@[simp] theorem State.ownCheck_headView (s : State) (p a n : Nat) : (s.ownCheck p a n).1.headView = s.headView := by
  unfold State.ownCheck
  (repeat' split) <;> simp [State.ownerError]

@[simp] theorem State.appendHead_headView (s : State) (c : Cmd) : (s.appendHead c).1.headView = s.headView := by
  simp only [State.appendHead]
  (repeat' split) <;> simp

@[simp] theorem State.ownCheck_dir (s : State) (p a n : Nat) : (s.ownCheck p a n).1.dir = s.dir := by
  unfold State.ownCheck
  (repeat' split) <;> simp [State.ownerError]

/-- A key that has an entry has one after its ownership record is read. -/
theorem State.ownSeen_entry {s : State} {k : DirKey} {d : Dir} (h : s.dir? k = some d) :
    ∃ e, (s.ownSeen k).dir? k = some e := by
  simp only [State.ownSeen, h]
  split
  · exact ⟨d, h⟩
  · split
    · exact ⟨_, State.dir?_setDir_same (fun _ => rfl) ((State.dir?_congr (by simp) k).trans h)⟩
    · exact ⟨d, (State.dir?_congr (State.cplFault_dir ..) k).trans h⟩

/-- An APPEND that passes checks 1 to 8 names a key with an entry. -/
theorem State.appendHead_entry {s u : State} {c : Cmd} {v : BitVec 256} (h : s.appendHead c = (u, 0, v)) :
    ∃ d, u.dir? c.key = some d := by
  unfold State.appendHead at h
  extract_lets d inline s₁ s₂ r at h
  have h₁ {e : Dir} (he : s.dir? c.key = some e) : ∃ e', s₁.dir? c.key = some e' := State.dirSeen_entry he
  have h₂ {e : Dir} (he : s₁.dir? c.key = some e) : ∃ e', s₂.dir? c.key = some e' := State.ownSeen_entry he
  have hr : r.1.dir = s₂.dir := State.ownCheck_dir ..
  clear_value s₁ s₂ r
  split at h
  · cases h
  split at h
  · cases h
  split at h
  · cases h
  split at h
  · cases h
  next e hd =>
  split at h
  · cases h
  split at h
  · cases h
  split at h
  · cases h
  split at h
  · cases h
  split at h
  · cases h
  split at h
  · cases h
  obtain ⟨d₁, hd₁⟩ := h₁ hd
  obtain ⟨d₂, hd₂⟩ := h₂ hd₁
  split at h
  · cases h
    exact ⟨d₂, hd₂⟩
  · obtain rfl : r.1 = u := congrArg Prod.fst h
    exact ⟨d₂, (State.dir?_congr hr c.key).trans hd₂⟩

/-- Check 1 of R87. -/
theorem State.appendHead_of_bad {s : State} {c : Cmd} (h : apOk c = false) : s.appendHead c = (s, 0x0C, 0) := by
  simp [State.appendHead, h]

/-- Check 2 of R87, of a descriptor whose source lies in its payload. -/
theorem State.appendHead_of_adrift {s : State} {c : Cmd} (hok : apOk c = true) (hflags : apFlags c.desc = 1)
    (h : s.adrift = true) : s.appendHead c = (s, 0x10, 0) := by
  simp [State.appendHead, hok, hflags, h]

/-! ### The outcome of the checks (R90) -/

/-- An APPEND that no other of its key precedes begins its checks. -/
theorem execAppend_of_first {s : State} {id : Nat} {c : Cmd} (hc : s.starting? id 1 = some c) (hop : dOp c.desc = 0)
    (hawake : s.awake = true) (hholds : ∀ h ∈ s.holds, h.key ≠ c.key) :
    exec (.append id) s = .next ((s.runCmd id).appendStart c (s.runCmd id).ms) := by
  have hnone : ((s.runCmd id).holds.any fun h => h.key == c.key && (!h.queued || (s.runCmd id).holdDue h)) = false := by
    rw [List.any_eq_false, State.runCmd_holds]
    intro h hh
    simp [hholds h hh]
  change execAppend id s = _
  simp only [execAppend, hc, hop, hawake, hnone, Bool.not_true, Bool.false_eq_true, OfNat.zero_ne_ofNat,
    zero_ne_one, or_self, if_false]

section
variable {s u : State} {c : Cmd} {v : BitVec 256} (arrived : Nat)

/-- One that fails a check ends with its status. -/
theorem State.appendStart_of_failed {st : Nat} (h : s.appendHead c = (u, st, v)) (hst : st ≠ 0) :
    s.appendStart c arrived = u.endAppend c st false false := by
  simp only [State.appendStart, h, hst, ne_eq, not_false_eq_true, if_true]

variable (h : s.appendHead c = (u, 0, v))
include h

/-- One beyond PUBLISHED waits in the hold queue. -/
theorem State.appendStart_of_early (hpub : dePub v < apPos c.desc) (hholds : ∀ x ∈ u.holds, x.key ≠ c.key) :
    s.appendStart c arrived =
      { u with holds := u.holds ++ [⟨c.id, c.key, apPos c.desc, arrived, true, [], false, true, false⟩] } := by
  have hnone : u.holds.filter (fun x => x.key == c.key && x.queued) = [] :=
    List.filter_eq_nil_iff.2 fun x hx => by simp [hholds x hx]
  have hroom : ¬16 ≤ ([] : List Hold).length := by decide
  simp only [State.appendStart, h, hpub, hnone, hroom, ne_eq, not_true, if_false, if_true]

/-- One at or before PUBLISHED goes on. -/
theorem State.appendStart_of_due (hpub : apPos c.desc ≤ dePub v) : s.appendStart c arrived = u.appendBody c v false := by
  simp only [State.appendStart, h, Nat.not_lt.2 hpub, ne_eq, not_true, if_false]

end

/-! ### The body (R87 checks 10 to 13, R91) -/

/-- A dropped span depends on the directory alone. -/
theorem State.droppedIn_congr {s t : State} (h : t.dir = s.dir) (k : DirKey) (span : Nat) :
    t.droppedIn k span = s.droppedIn k span := by
  rw [State.droppedIn, State.droppedIn, State.dir?_congr h]

/-- A dropped span ends it with KINDLING (R243). -/
theorem State.appendBody_of_dropped {s : State} {c : Cmd} (v : BitVec 256) (held : Bool)
    (h : ∃ f ∈ pagesOf 1024 (apPos c.desc) (apPos c.desc + apCount c.desc), s.droppedIn c.key (f / 1024) = true) :
    s.appendBody c v held = s.endMoves.endAppend c 2 false held := by
  have hany : ((pagesOf 1024 (apPos c.desc) (apPos c.desc + apCount c.desc)).any fun f =>
      s.endMoves.droppedIn c.key (f / 1024)) = true := by
    rw [List.any_eq_true]
    obtain ⟨f, hf, hdrop⟩ := h
    exact ⟨f, hf, (State.droppedIn_congr (State.dir_of_seqView s.endMoves_seqView) ..).trans hdrop⟩
  simp only [State.appendBody, hany, if_true]

/-- A fold of reads that meet no latent error. -/
theorem State.foldl_scanned_of_clean {s : State} (h : s.ecc = []) (rs : List (Nat × Nat)) :
    rs.foldl (fun (s : State) r => s.scanned r.1 r.2) s = s := by
  induction rs with
  | nil => rfl
  | cons r rs ih => rw [List.foldl_cons, State.scanned_of_clean h, ih]

/-- The directory and the heat once rows up to `hi` are published, and the rows forwarded to the twin (R91, R234,
R384). -/
def State.publish (s : State) (c : Cmd) (v : BitVec 256) (hi : Nat) (src : List Byte) : State :=
  ((s.setDir c.key fun e => e.write (setF v 120 24 hi)).heatBuilt c.part c.key.seq (apPos c.desc) hi).forwardAppend c src

/-- Rows that fit are written and published, once the relocations under way have ended. -/
theorem State.appendBody_of_fits {s : State} {c : Cmd} {v : BitVec 256} (held : Bool) (h : s.endMoves.appendFits c v) :
    ∃ (u : State) (src : List Byte), u.seqView = s.seqView ∧
      s.appendBody c v held = (u.publish c v (apPos c.desc + apCount c.desc) src).endAppend c 0 false held := by
  obtain ⟨hflags, hpub, hecc, hdrop, hk, hv, hfinite, hscales, hequal, hcount, -, t, xs, halloc⟩ := h
  have hdrop' : ((pagesOf 1024 (apPos c.desc) (apPos c.desc + apCount c.desc)).any fun f =>
      s.endMoves.droppedIn c.key (f / 1024)) = false := by
    rw [List.any_eq_false]
    exact fun f hf => by simp [hdrop f hf]
  unfold State.appendBody
  extract_lets d k pos hi pub n dim w replay rhi s₁ inline srcUE lo
  have hlo : lo = pos := by simp only [lo, show pub = pos from hpub, max_self]
  have hrhi : rhi = pos := by simp only [rhi, hi, show pub = pos from hpub]; omega
  have hreplay : replay = false := by simp [replay, show pub = pos from hpub]
  rw [if_neg (by simpa [s₁] using hdrop')]
  split
  rename_i src s₂ heq
  rw [if_pos hflags] at heq
  obtain ⟨rfl, rfl⟩ := Prod.mk.inj heq
  extract_lets pages ranges s₃ rows
  have hs : s₃ = s₁ := State.foldl_scanned_of_clean hecc ranges
  clear_value s₃
  subst hs
  have hUE : ¬(srcUE = true ∨ (ranges.any fun r => s₁.hasUE r.1 r.2) = true) := by
    have hclean (a n : Nat) : s₁.hasUE a n = false := State.hasUE_of_clean hecc a n
    simp [srcUE, hclean]
  have hrows : (rows.all fun h => (h.1 ++ h.2).all (rowFinite (deFmt v) dim)) = true := by
    simp only [List.all_eq_true]
    exact hfinite
  have heq : (pages.all fun x => s₁.rowsEqual x n dim w pos pos rhi (rows.getD (x.kv - deKvFirst v) ([], []))) = true := by
    rw [List.all_eq_true, hrhi]
    exact hequal
  have hbeyond : ¬hi ≤ pub := by
    rw [show pub = pos from hpub]
    exact Nat.not_le.2 (Nat.lt_add_of_pos_right hcount)
  have halloc' : s₁.allocate c.part .live (s₁.appendNeeds k v lo hi) = .got t xs := by
    rw [hlo]
    exact halloc
  rw [if_neg hUE, if_neg (by simp [d, hk, hv]), if_neg (by rw [hrows]; decide)]
  split
  next hscale =>
    obtain ⟨x, hx, hbad⟩ := List.any_eq_true.1 hscale
    obtain ⟨t, ht, hkt, hvt⟩ := hscales x hx
    simp only [s₁, ht, hkt, hvt, d, bne_self_eq_false, Bool.or_self] at hbad
    cases hbad
  rw [if_neg (by rw [heq]; decide), halloc', hreplay, hlo]
  refine ⟨_, _, ?_, rfl⟩
  rw [foldl_keeps State.seqView fun t r => t.writeHead_seqView .., State.allocate_got_seqView halloc,
    State.endMoves_seqView]

/-- PUBLISHED of a readable entry. -/
theorem State.pubOf_of_dir? {s : State} {k : DirKey} {d : Dir} {v : BitVec 256} (hd : s.dir? k = some d)
    (hv : d.val? = some v) : s.pubOf k = dePub v := by
  simp [State.pubOf, hd, hv]

/-- Forwarding an APPEND leaves PUBLISHED. -/
theorem State.forwardAppend_pubOf (s : State) (c : Cmd) (src : List Byte) :
    (s.forwardAppend c src).pubOf c.key = s.pubOf c.key := by
  unfold State.forwardAppend
  split
  · rfl
  next d hd =>
  split
  · rfl
  next o _ =>
  split
  · rfl
  split
  · exact State.pubOf_congr (by simp) c.key
  · have hd' := State.dir?_setDir_same (s := s) (f := fun d => { d.writeOwn (setF o 48 16 0) with twin := none })
      (fun _ => rfl) hd
    rw [State.pubOf_congr (State.setRegB_dir ..), State.pubOf, hd', State.pubOf, hd]
    rfl

/-- Rows published up to a position. -/
theorem State.publish_pubOf {s : State} {c : Cmd} {d : Dir} (hd : s.dir? c.key = some d) (v : BitVec 256) {hi : Nat}
    (hhi : hi < 2 ^ 24) (src : List Byte) : (s.publish c v hi src).pubOf c.key = hi := by
  have hd' := State.dir?_setDir_same (s := s) (f := fun e => e.write (setF v 120 24 hi)) (fun _ => rfl) hd
  rw [State.publish, State.forwardAppend_pubOf, State.pubOf_congr (State.dir_of_seqView (State.heatBuilt_seqView ..)),
    State.pubOf_of_dir? hd' (d.val?_write _)]
  exact (getF_setF_same v 120 24 hi (by decide)).trans (Nat.mod_eq_of_lt hhi)

@[simp] theorem State.publish_cmds (s : State) (c : Cmd) (v : BitVec 256) (hi : Nat) (src : List Byte) :
    (s.publish c v hi src).cmds = s.cmds := by
  rw [State.publish, State.forwardAppend_cmds, State.cmds_of_seqView (State.heatBuilt_seqView ..), State.setDir_cmds]

/-- An APPEND whose rows fit ends with OK and has published them. -/
theorem State.appendBody_publishes {s : State} {c c' : Cmd} {v : BitVec 256} {d : Dir} (held : Bool)
    (hfits : s.endMoves.appendFits c v) (hcmd : s.cmd? c.id = some c') (hphase : c'.phase ≠ .ended)
    (hd : s.dir? c.key = some d) : (s.appendBody c v held).endedWith c.id 0 ∧
      (s.appendBody c v held).pubOf c.key = apPos c.desc + apCount c.desc := by
  obtain ⟨u, src, hview, hbody⟩ := State.appendBody_of_fits held hfits
  obtain ⟨-, -, -, -, -, -, -, -, -, -, hhi, -⟩ := hfits
  rw [hbody]
  refine ⟨State.endAppend_endedWith (c' := c') ?_ hphase 0 _ _, ?_⟩
  · rw [State.cmd?_congr (State.publish_cmds ..), State.cmd?_congr (State.cmds_of_seqView hview), hcmd]
  · rw [State.pubOf_congr (State.endAppend_dir ..)]
    exact State.publish_pubOf ((State.dir?_congr (State.dir_of_seqView hview) _).trans hd) v (by omega) src

/-! ### The hold queue (R90) -/

/-- A held APPEND whose turn has not come stays. -/
theorem execAppendRelease_of_held {s : State} {id : Nat} {c : Cmd} {h : Hold}
    (hh : s.holds.find? (fun h => h.cmd == id) = some h) (hc : s.cmd? id = some c) (hmay : s.mayRelease h = false) :
    exec (.appendRelease id) s = .next s := by
  change execAppendRelease id s = _
  simp only [execAppendRelease, hh, hc, hmay, Bool.false_and, Bool.false_eq_true, if_false]

/-- One whose turn has come, and whose checks were made, goes on with its body. -/
theorem execAppendRelease_of_due {s : State} {id : Nat} {c : Cmd} {h : Hold} {d : Dir}
    (hh : s.holds.find? (fun h => h.cmd == id) = some h) (hc : s.cmd? id = some c) (hkey : h.key = c.key)
    (hbehind : h.behind = false) (hmay : s.mayRelease h = true) (hawake : s.awake = true)
    (hd : s.dir? c.key = some d) (ha : d.a.ok = true) (hb : d.b.ok = true) (hst : deState d.a.val = 1) :
    exec (.appendRelease id) s = .next
      (State.appendBody { s with holds := s.holds.filter (·.cmd != id) } c d.a.val h.held) := by
  have hseen : State.dirSeen { s with holds := s.holds.filter (·.cmd != id) } c.key =
      { s with holds := s.holds.filter (·.cmd != id) } := State.dirSeen_of_ok (d := d) hd ha hb
  have hopen : State.openEntry { s with holds := s.holds.filter (·.cmd != id) } c.key = some d.a.val :=
    State.openEntry_of_dir? (d := d) hd (if_pos ha) hst
  change execAppendRelease id s = _
  simp only [execAppendRelease, hh, hc, hmay, hawake, hbehind, hkey, hseen, hopen, Bool.and_self, Bool.false_eq_true,
    if_false, if_true]

/-- One that has waited for 64 milestones ends with TIMEOUT. -/
theorem execAppendHoldTimeout_of_due {s : State} {id : Nat} {c : Cmd} {h : Hold}
    (hh : s.holds.find? (fun h => h.cmd == id) = some h) (hc : s.cmd? id = some c) (hqueued : h.queued = true)
    (hdue : h.arrived + 64 ≤ s.ms) : exec (.appendHoldTimeout id) s = .next
      (((State.setRegB { s with holds := s.holds.filter (·.cmd != id) } 0 Reg.PG_ERR_STAT 1 true).count 0
        Reg.PG_HOLD_TIMEOUT_CNT 1).endAppend c 0x0B false true) := by
  change execAppendHoldTimeout id s = _
  simp only [execAppendHoldTimeout, hh, hc, hqueued, hdue, and_self, if_true]

/-! ### The statement -/

section
variable {s u : State} {id : Nat} {c : Cmd} {st : Nat} {v : BitVec 256} (hc : s.starting? id 1 = some c)
  (hhead : (s.runCmd id).appendHead c = (u, st, v))
include hhead

/-- What the checks of a starting APPEND leave of what its end needs. -/
theorem State.appendHead_kept : u.mem = s.mem ∧ u.holds = s.holds ∧ u.moves = s.moves := by
  have hview := (s.runCmd id).appendHead_headView c
  have hmem := (s.runCmd id).appendHead_mem c
  rw [hhead] at hview hmem
  obtain ⟨-, hholds, hmoves⟩ : u.cmds = _ ∧ u.holds = _ ∧ u.moves = _ := by
    simpa only [State.headView, Prod.mk.injEq] using hview
  exact ⟨hmem.trans (State.runCmd_mem ..), hholds.trans (State.runCmd_holds ..), hmoves.trans (State.runCmd_moves ..)⟩

include hc

/-- The checks leave the APPEND running. -/
theorem State.cmd?_appendHead : u.cmd? c.id = some { c with phase := .running } := by
  obtain ⟨hcmd, -⟩ := State.cmd?_of_starting hc
  have hview := (s.runCmd id).appendHead_headView c
  rw [hhead] at hview
  obtain rfl := State.id_of_cmd? hcmd
  rw [State.cmd?_congr (congrArg Prod.fst hview), State.cmd?_runCmd hcmd]

end

/-- An APPEND that fails a check which leaves the state ends with its status. -/
theorem execAppend_of_failed {s : State} {id : Nat} {c : Cmd} {st : Nat} {v : BitVec 256}
    (hc : s.starting? id 1 = some c) (hop : dOp c.desc = 0) (hawake : s.awake = true)
    (hholds : ∀ h ∈ s.holds, h.key ≠ c.key) (hhead : (s.runCmd id).appendHead c = (s.runCmd id, st, v)) (hst : st ≠ 0) :
    ∃ t, exec (.append id) s = .next t ∧ t.mem = s.mem ∧ t.dir = s.dir ∧ t.endedWith id st := by
  obtain ⟨hcmd, -⟩ := State.cmd?_of_starting hc
  rw [execAppend_of_first hc hop hawake hholds, State.appendStart_of_failed _ hhead hst]
  obtain rfl := State.id_of_cmd? hcmd
  exact ⟨_, rfl, by simp, by simp, State.endAppend_endedWith (State.cmd?_runCmd hcmd) (by simp) ..⟩

/-- Settles O26: which APPENDs are written, wait, or end with a status, and when. -/
theorem appendsPublishInOrder : Obligations.AppendsPublishInOrder := by
  refine ⟨fun s u id c v hc hop hawake hholds hhead hfits => ?_,
    fun s u id c v hc hop hawake hholds hhead hpub => ?_,
    fun s u id c v hc hop hawake hholds hhead hpub hdrop => ?_,
    fun s id c hc hop hawake hholds hbad =>
      execAppend_of_failed hc hop hawake hholds (State.appendHead_of_bad hbad) (by decide),
    fun s id c hc hop hawake hholds hok hflags hadrift => ?_,
    fun s id c h d v hh hcmd hid hkey hqueued hbehind hmay hawake hphase hd ha hb hv hst hfits => ?_,
    fun s id c h hh hcmd hmay => execAppendRelease_of_held hh hcmd hmay,
    fun s id c h hh hcmd hphase hqueued hdue => ?_⟩
  · have ⟨_, hpub, _⟩ := hfits
    obtain ⟨d, hd⟩ := State.appendHead_entry hhead
    rw [execAppend_of_first hc hop hawake hholds, State.appendStart_of_due _ hhead hpub.ge]
    obtain ⟨hended, hpos⟩ := State.appendBody_publishes false hfits (State.cmd?_appendHead hc hhead) (by simp) hd
    exact ⟨_, rfl, State.id_of_cmd? (State.cmd?_of_starting hc).1 ▸ hended, hpos⟩
  · obtain ⟨hmem, hkept, -⟩ := State.appendHead_kept hhead
    rw [execAppend_of_first hc hop hawake hholds, State.appendStart_of_early _ hhead hpub (hkept ▸ hholds), hkept,
      State.id_of_cmd? (State.cmd?_of_starting hc).1, State.ms, State.runCmd_ft]
    exact ⟨_, rfl, hmem, rfl⟩
  · obtain ⟨hmem, -, hmoves⟩ := State.appendHead_kept hhead
    have hview := u.endMoves_seqView
    rw [execAppend_of_first hc hop hawake hholds, State.appendStart_of_due _ hhead hpub,
      State.appendBody_of_dropped _ _ hdrop]
    refine ⟨_, rfl, fun hnone => ?_, (State.endAppend_dir ..).trans (State.dir_of_seqView hview),
      State.id_of_cmd? (State.cmd?_of_starting hc).1 ▸ State.endAppend_endedWith
        ((State.cmd?_congr (State.cmds_of_seqView hview) _).trans (State.cmd?_appendHead hc hhead)) (by simp) ..⟩
    rw [State.endAppend_mem, State.endMoves, hmoves, hnone]
    exact hmem
  · obtain ⟨cs, ts, heq⟩ := s.runCmd_eq id
    exact execAppend_of_failed hc hop hawake hholds (State.appendHead_of_adrift hok hflags (heq ▸ hadrift)) (by decide)
  · subst hid hv
    rw [execAppendRelease_of_due hh hcmd hkey hbehind hmay hawake hd ha hb hst]
    obtain ⟨hended, hpos⟩ := State.appendBody_publishes (c' := c) (d := d) h.held hfits hcmd (by simp [hphase]) hd
    exact ⟨_, rfl, hended, hpos⟩
  · rw [execAppendHoldTimeout_of_due hh hcmd hqueued hdue]
    obtain rfl := State.id_of_cmd? hcmd
    refine ⟨_, rfl, by simp, by simp, State.endAppend_endedWith (c' := c) ?_ (by simp [hphase]) .., ?_, ?_, ?_⟩
    · exact (State.cmd?_congr (by simp) _).trans hcmd
    all_goals
      obtain ⟨r, hr⟩ := State.endAppend_of_fresh _ c 0x0B true
      rw [hr]
    · simp
    · refine counted_congr (State.reg_congr (State.endCmd_regs ..) ..) ?_
      rw [counted, State.reg_count_same, State.reg_setRegB_other _ _ _ (regKey_inj.not.2 (by decide))]
      rfl
    · rw [State.regB, State.reg_congr (State.endCmd_regs ..), State.reg_count_other _ _ (regKey_inj.not.2 (by decide))]
      exact State.regB_setRegB_same _ _ _ _ _ (by decide)

end Sys2Proof.Machine
end

section
/-!
PROOFS. Pages: coding into a new slot, the freeing of old and condemned slots, background dropping, and the directory
lookup (R103, R104, R231, R232, R237).
-/

namespace Sys2Proof.Machine

/-! ### What opening rows leaves (R370) -/

/-- An activation changes the activation counts, the queue of targeted refreshes and the registers alone. -/
theorem State.activate_eq (s : State) (r : Nat) :
    ∃ acts trr regs, s.activate r = { s with acts := acts, trr := trr, regs := regs } := by
  simp only [State.activate]
  split
  · exact ⟨_, _, _, rfl⟩
  · exact ⟨_, _, _, rfl⟩

/-- So does a run of activations. -/
theorem State.opens_eq (s : State) (a n : Nat) :
    ∃ acts trr regs, s.opens a n = { s with acts := acts, trr := trr, regs := regs } := by
  unfold State.opens
  induction rowsOf a n generalizing s with
  | nil => exact ⟨_, _, _, rfl⟩
  | cons r rs ih =>
    obtain ⟨acts, trr, regs, h⟩ := s.activate_eq r
    obtain ⟨acts', trr', regs', h'⟩ := ih (s.activate r)
    exact ⟨acts', trr', regs', by rw [List.foldl_cons, h', h]⟩

/-- A count lowers no register. -/
theorem State.reg_le_count (s : State) (fn off n f o : Nat) : (s.reg f o).toNat ≤ ((s.count fn off n).reg f o).toNat := by
  by_cases h : regKey f o = regKey fn off
  · have hreg (t : State) : t.reg f o = t.reg fn off := by rw [State.reg, State.reg, h]
    rw [hreg, hreg, State.reg_count_same]
    have := (s.reg fn off).isLt
    omega
  · rw [State.reg_count_other _ n h]

/-- Opening rows lowers no register. -/
theorem State.reg_le_opens (s : State) (a n f o : Nat) : (s.reg f o).toNat ≤ ((s.opens a n).reg f o).toNat := by
  unfold State.opens
  induction rowsOf a n generalizing s with
  | nil => exact le_rfl
  | cons r rs ih =>
    rw [List.foldl_cons]
    refine le_trans ?_ (ih _)
    simp only [State.activate]
    split
    · exact State.reg_le_count _ 0 Reg.FX_TRR_CNT 1 f o
    · exact le_rfl

/-- Opening rows lowers no quota. -/
theorem State.quota_le_opens (s : State) (a n p : Nat) : s.quota p ≤ (s.opens a n).quota p :=
  Nat.mul_le_mul_right 65536 (s.reg_le_opens a n 0 (Reg.PR_QUOTA + 4 * p))

/-! ### Coding (R103) -/

/-- The bytes of a page are coded into a new slot, and the page's slot stays as an old one. -/
def State.recoded (s : State) (x : Slot) (a size o : Nat) (img : List Byte) : State :=
  let t := ((s.opens a size).clearEcc a size).store a img
  { t with slots := (t.slots.map fun y => if y = x then { y with use := .old, full := some t.ms } else y) ++
      [{ x with addr := a, size := size, obj := o, full := none }] }

section
variable (s : State) (x : Slot) (a size o : Nat) (img : List Byte)

theorem State.recoded_dir : (s.recoded x a size o img).dir = s.dir := by
  obtain ⟨acts, trr, regs, h⟩ := s.opens_eq a size
  simp [State.recoded, h, State.store, State.clearEcc]

theorem State.recoded_slots : (s.recoded x a size o img).slots =
    (s.slots.map fun y => if y = x then { y with use := .old, full := some s.ms } else y) ++
      [{ x with addr := a, size := size, obj := o, full := none }] := by
  obtain ⟨acts, trr, regs, h⟩ := s.opens_eq a size
  rw [State.recoded, h]
  rfl

theorem State.recoded_reg {f off : Nat} (h : regKey f off ≠ regKey 0 Reg.FX_TRR_CNT) :
    (s.recoded x a size o img).reg f off = s.reg f off := by
  have hregs : (s.recoded x a size o img).regs = (s.opens a size).regs := by simp [State.recoded, State.clearEcc]
  rw [State.reg_congr hregs, s.opens_reg a size h]

theorem State.recoded_byte {b : Nat} (h : ∀ i < img.length, native b ≠ native (a + i)) :
    (s.recoded x a size o img).byte b = s.byte b := by
  calc (s.recoded x a size o img).byte b
      = (((s.opens a size).clearEcc a size).store a img).byte b := State.byte_congr rfl b
    _ = ((s.opens a size).clearEcc a size).byte b := State.byte_store_other _ _ _ h
    _ = s.byte b := State.byte_congr (s.opens_mem a size) b

end

/-- The image of a coded page fills its slot. -/
theorem codedImage_length (str band tail : List Byte) (tr : Trailer) (gran : Nat) (htail : tail.length = 480) :
    (sliceB str 0 (256 * gran) ++ band ++ tr.bytes ++ tail).length = 256 * gran + band.length + 512 := by
  simp [Trailer.bytes, htail]
  omega

section
variable {s : State} {p : PageRef} {x : Slot} {v : BitVec 256} {m : Nat} {tr : Trailer}
  (hlive : s.liveSlot p.part p.seq p.layer p.kv p.firstPos = some x)
  (hopen : s.openEntry ⟨p.part, p.seq, p.layer⟩ = some v) (hfull : x.full = some m) (htr : s.trailer x = some tr)
  (hraw : tr.coded = false) (hawake : s.awake = true)
include hlive hopen hfull htr hraw hawake

/-- With coding disabled a full page stays raw. -/
theorem execPageCode_of_disabled (hoff : s.regB 0 Reg.PG_CINDER_CFG 0 = false) : exec (.pageCode p) s =
    .next { s with slots := s.slots.map fun y => if y = x then { y with full := none } else y } := by
  change execPageCode p s = _
  simp only [execPageCode, hlive, hopen, hfull, htr, hraw, hawake, hoff, Bool.not_true, Bool.not_false,
    Bool.false_eq_true, or_self, if_false, if_true]

/-- A page whose stream saves enough, and fits its quota and its area, is recoded. -/
theorem execPageCode_of_fits {a o n d w : Nat} {str : List Byte} (hon : s.regB 0 Reg.PG_CINDER_CFG 0 = true)
    (hecc : s.ecc = []) (hn : n = classTokens (deClass v)) (hd : d = headDim (deDim v)) (hw : w = rowBytes (deFmt v) d)
    (hstr : str = cinderBuilt 0 (s.bytes x.addr (2 * n * w)))
    (hsaves : ceilDiv str.length 256 + s.regF 0 Reg.PG_CINDER_CFG 8 8 ≤ dataRaw n w / 256)
    (hquota : s.usage p.part + (256 * ceilDiv str.length 256 + bandBytes n d + 512) ≤ s.quota p.part)
    (hmoves : s.moves = []) (hfree : s.slotBusy x = false)
    (harea : (s.opens x.addr x.size).takeArea p.part (256 * ceilDiv str.length 256 + bandBytes n d + 512)
      (areaOf x.addr) = some (s.opens x.addr x.size, a, o)) :
    ∃ img used, img.length = 256 * ceilDiv str.length 256 + bandBytes n d + 512 ∧ exec (.pageCode p) s = .next
      ((((s.opens x.addr x.size).recoded x a (256 * ceilDiv str.length 256 + bandBytes n d + 512) o img).hwm 0
        (Reg.PR_USED_HWM + 4 * p.part) used).count 0 Reg.PG_CODED_CNT 1) := by
  have hend : s.endMoves = s := by rw [State.endMoves, hmoves, List.foldl_nil]
  have hclean : (s.opens x.addr x.size).ecc = [] := (s.opens_ecc ..).trans hecc
  have hscan : (s.opens x.addr x.size).scanned x.addr x.size = s.opens x.addr x.size := State.scanned_of_clean hclean ..
  have hUE : (s.opens x.addr x.size).hasUE x.addr x.size = false := State.hasUE_of_clean hclean ..
  have hcfg : (s.opens x.addr x.size).regF 0 Reg.PG_CINDER_CFG 8 8 = s.regF 0 Reg.PG_CINDER_CFG 8 8 := by
    rw [State.regF, State.opens_reg s _ _ (regKey_inj.not.2 (by decide)), State.regF]
  have hgrown := s.quota_le_opens x.addr x.size p.part
  obtain ⟨acts, trr, regs, heq⟩ := s.opens_eq x.addr x.size
  have husage : (s.opens x.addr x.size).usage p.part = s.usage p.part := by rw [heq]; rfl
  have hlive' : (s.opens x.addr x.size).liveSlot p.part p.seq p.layer p.kv p.firstPos = some x := by rw [heq]; exact hlive
  clear heq
  generalize hu : s.opens x.addr x.size = u at *
  have hkept : ¬dataRaw n w / 256 < ceilDiv str.length 256 + s.regF 0 Reg.PG_CINDER_CFG 8 8 := Nat.not_lt.2 hsaves
  have hroom : ¬u.quota p.part < s.usage p.part + (256 * ceilDiv str.length 256 + bandBytes n d + 512) :=
    Nat.not_lt.2 (hquota.trans hgrown)
  subst hn hd hw hstr
  change ∃ _ _, _ ∧ execPageCode p s = _
  simp only [execPageCode, hlive, hopen, hfull, htr, hraw, hawake, hon, hend, hfree, hu, hscan, hUE, hcfg, husage, harea,
    hlive', Bool.not_true, Bool.false_eq_true, or_self, if_false, hkept, hroom]
  refine ⟨_, _, ?_, rfl⟩
  rw [codedImage_length _ _ _ _ _ (by rw [List.length_drop, State.bytes_length]), State.bytes_length]

end

/-! ### Freeing (R103, R232) -/

/-- The old slots of a page whose sequence no dispatched span-job reads are freed. -/
theorem execCodedOldSlotFree_of_free {s : State} {p : PageRef}
    (h : ∀ x ∈ s.slots, x.part = p.part → x.seq = p.seq → x.use = .old → s.slotBusy x = false) :
    exec (.codedOldSlotFree p) s = .next { s with slots := s.slots.filter fun x => !(x.part == p.part &&
      x.seq == p.seq && x.layer == p.layer && x.kv == p.kv && x.firstPos == p.firstPos && x.use == .old) } := by
  have hany : (s.slots.any fun x => (x.part == p.part && x.seq == p.seq && x.layer == p.layer && x.kv == p.kv &&
      x.firstPos == p.firstPos && x.use == .old) && s.slotBusy x) = false := by
    rw [List.any_eq_false]
    intro x hx hbad
    simp only [Bool.and_eq_true, beq_iff_eq] at hbad
    obtain ⟨⟨⟨⟨⟨⟨hpart, hseq⟩, -⟩, -⟩, -⟩, huse⟩, hbusy⟩ := hbad
    simp [h x hx hpart hseq huse] at hbusy
  change execCodedOldSlotFree p s = _
  simp only [execCodedOldSlotFree, hany, Bool.false_eq_true, if_false]

/-- The condemned slots of a unit that no dispatched span-job reads are freed. -/
theorem execUnitFree_of_free {s : State} {p q : Nat} (n : Nat)
    (h : ∀ x ∈ s.slots, x.part = p → x.seq = q → x.use = .condemned → s.slotBusy x = false) :
    exec (.unitFree p q n) s = .next { s with slots := s.slots.filter fun x => !(x.part == p && x.seq == q &&
      x.firstPos / 1024 == n && x.use == .condemned) } := by
  have hany : (s.slots.any fun x => (x.part == p && x.seq == q && x.firstPos / 1024 == n && x.use == .condemned) &&
      s.slotBusy x) = false := by
    rw [List.any_eq_false]
    intro x hx hbad
    simp only [Bool.and_eq_true, beq_iff_eq] at hbad
    obtain ⟨⟨⟨⟨hpart, hseq⟩, -⟩, huse⟩, hbusy⟩ := hbad
    simp [h x hx hpart hseq huse] at hbusy
  change execUnitFree p q n s = _
  simp only [execUnitFree, hany, Bool.false_eq_true, if_false]

/-- While one is read, the unit stays. -/
theorem execUnitFree_of_busy {s : State} {p q n : Nat} {x : Slot} (hx : x ∈ s.slots) (hpart : x.part = p)
    (hseq : x.seq = q) (hspan : x.firstPos / 1024 = n) (huse : x.use = .condemned) (hbusy : s.slotBusy x = true) :
    exec (.unitFree p q n) s = .next s := by
  have hany : (s.slots.any fun x => (x.part == p && x.seq == q && x.firstPos / 1024 == n && x.use == .condemned) &&
      s.slotBusy x) = true :=
    List.any_eq_true.2 ⟨x, hx, by simp [hpart, hseq, hspan, huse, hbusy]⟩
  change execUnitFree p q n s = _
  simp only [execUnitFree, hany, if_true]

/-! ### Reading the records of the candidates leaves the slots (R235) -/

@[simp] theorem State.countEcc_slots (s : State) (a : Nat) (ue : Bool) : (s.countEcc a ue).slots = s.slots := by
  simp only [State.countEcc]
  (repeat' split) <;> simp

@[simp] theorem State.wantRemap_slots (s : State) (r : Nat) : (s.wantRemap r).slots = s.slots := by
  simp only [State.wantRemap]
  split <;> rfl

@[simp] theorem State.noteCorrected_slots (s : State) (r : Nat) : (s.noteCorrected r).slots = s.slots := by
  simp only [State.noteCorrected]
  split
  · exact State.wantRemap_slots ..
  · rfl

@[simp] theorem State.meetSector_slots (s : State) (k : Nat) : (s.meetSector k).slots = s.slots := by
  simp only [State.meetSector]
  (repeat' split) <;> simp

@[simp] theorem State.scanned_slots (s : State) (a n : Nat) : (s.scanned a n).slots = s.slots :=
  foldl_keeps State.slots State.meetSector_slots _ s

@[simp] theorem State.opens_slots (s : State) (a n : Nat) : (s.opens a n).slots = s.slots := by
  obtain ⟨acts, trr, regs, h⟩ := s.opens_eq a n
  rw [h]

@[simp] theorem State.recordRead_slots (s : State) (p seq span : Nat) : (s.recordRead p seq span).slots = s.slots := by
  unfold State.recordRead
  split
  · rfl
  · split
    · extract_lets
      split <;> rfl
    · simp

@[simp] theorem State.ranked_slots (s : State) (p : Nat) : (s.ranked p).slots = s.slots := by
  rw [State.ranked, foldl_keeps State.slots]
  exact fun t u => t.recordRead_slots p u.1 u.2

/-! ### Condemning (R232) -/

/-- A slot of a condemned unit. -/
def Slot.condemn (x : Slot) (p q n ms : Nat) : Slot :=
  if x.part = p ∧ x.seq = q ∧ x.firstPos / 1024 = n ∧ (x.use = .live ∨ x.use = .old) then
    { x with use := .condemned, full := some ms }
  else x

theorem State.condemn_slots (s : State) (p q n : Nat) (fg damaged : Bool) :
    (s.condemn p q n fg damaged).slots = s.slots.map fun x => x.condemn p q n s.ms := by
  cases fg <;> simp [State.condemn, Slot.condemn]

/-- The page of a slot stays where it is when its unit is condemned. -/
theorem Slot.condemn_place (x : Slot) (p q n ms : Nat) : (x.condemn p q n ms).addr = x.addr ∧
    (x.condemn p q n ms).part = x.part ∧ (x.condemn p q n ms).seq = x.seq ∧ (x.condemn p q n ms).firstPos = x.firstPos := by
  unfold Slot.condemn
  split <;> exact ⟨rfl, rfl, rfl, rfl⟩

/-- Condemning makes no slot live. -/
theorem Slot.use_of_condemn_live {x : Slot} {p q n ms : Nat} (h : (x.condemn p q n ms).use = .live) : x.use = .live := by
  unfold Slot.condemn at h
  split at h
  · cases h
  · exact h

/-- A slot of the condemned unit is live no more. -/
theorem Slot.condemn_use_ne_live {x : Slot} {p q n : Nat} (ms : Nat) (hpart : x.part = p) (hseq : x.seq = q)
    (hspan : x.firstPos / 1024 = n) : (x.condemn p q n ms).use ≠ .live := by
  intro h
  rw [Slot.condemn, if_pos ⟨hpart, hseq, hspan, .inl (Slot.use_of_condemn_live h)⟩] at h
  cases h

/-- No slot of a unit is live. -/
def State.unitGone (s : State) (p q n : Nat) : Prop :=
  ∀ x ∈ s.slots, x.part = p → x.seq = q → x.firstPos / 1024 = n → x.use ≠ .live

theorem State.condemn_unitGone (s : State) (p q n : Nat) (fg damaged : Bool) :
    (s.condemn p q n fg damaged).unitGone p q n := by
  intro y hy
  rw [State.condemn_slots] at hy
  obtain ⟨x, -, rfl⟩ := List.mem_map.1 hy
  obtain ⟨-, hpart, hseq, hfirst⟩ := x.condemn_place p q n s.ms
  rw [hpart, hseq, hfirst]
  exact Slot.condemn_use_ne_live s.ms

/-- Condemning another unit keeps it so. -/
theorem State.unitGone.condemn {s : State} {p q n : Nat} (h : s.unitGone p q n) (p' q' n' : Nat) (fg damaged : Bool) :
    (s.condemn p' q' n' fg damaged).unitGone p q n := by
  intro y hy
  rw [State.condemn_slots] at hy
  obtain ⟨x, hx, rfl⟩ := List.mem_map.1 hy
  obtain ⟨-, hpart, hseq, hfirst⟩ := x.condemn_place p' q' n' s.ms
  rw [hpart, hseq, hfirst]
  exact fun hp hq hn hlive => h x hx hp hq hn (Slot.use_of_condemn_live hlive)

/-- The units that background dropping condemns, in order. -/
def State.condemnAll (s : State) (p : Nat) (us : List Unit') : State :=
  us.foldl (fun s u => s.condemn p u.seq u.span false false) s

theorem State.condemnAll_cons (s : State) (p : Nat) (u : Unit') (us : List Unit') :
    s.condemnAll p (u :: us) = (s.condemn p u.seq u.span false false).condemnAll p us := List.foldl_cons ..

theorem State.condemnAll_mem (s : State) (p : Nat) (us : List Unit') : (s.condemnAll p us).mem = s.mem := by
  rw [State.condemnAll, foldl_keeps State.mem]
  exact fun t u => t.condemn_mem p u.seq u.span false false

theorem State.condemnAll_addrs (s : State) (p : Nat) (us : List Unit') :
    (s.condemnAll p us).slots.map Slot.addr = s.slots.map Slot.addr := by
  refine foldl_keeps (fun t => t.slots.map Slot.addr) (fun t u => ?_) us s
  rw [State.condemn_slots, List.map_map]
  exact List.map_congr_left fun x _ => (x.condemn_place ..).1

theorem State.unitGone.condemnAll {s : State} {p q n : Nat} (h : s.unitGone p q n) (p' : Nat) (us : List Unit') :
    (s.condemnAll p' us).unitGone p q n := by
  induction us generalizing s with
  | nil => exact h
  | cons u us ih =>
    rw [State.condemnAll_cons]
    exact ih (h.condemn p' u.seq u.span false false)

/-- The first of them is gone. -/
theorem State.condemnAll_unitGone (s : State) (p : Nat) (u : Unit') (us : List Unit') :
    (s.condemnAll p (u :: us)).unitGone p u.seq u.span := by
  rw [State.condemnAll_cons]
  exact (s.condemn_unitGone p u.seq u.span false false).condemnAll p us

/-! ### Background dropping (R237) -/

/-- The first candidate is dropped while usage is above the low mark. -/
theorem bgUnits_cons {low k used : Nat} (u : Unit') (us : List Unit') (hk : 0 < k) (h : low < used * 256) :
    ∃ rest, bgUnits low k used (u :: us) = u :: rest := by
  cases k with
  | zero => omega
  | succ k => exact ⟨_, by rw [bgUnits, if_neg (by omega)]⟩

/-- At or below the high mark, or with DROP_MAX 0, nothing starts. -/
theorem execBackgroundDropping_of_idle {s : State} {p : Nat} (hbg : s.bg = [])
    (h : s.usage p * 256 ≤ s.quota p * s.regF 0 Reg.PR_CFG 24 8 ∨ s.regF 0 Reg.PR_CFG 8 8 = 0) :
    exec (.backgroundDropping p) s = .next s := by
  change execBackgroundDropping p s = _
  simp only [State.regF] at h
  simp only [execBackgroundDropping, hbg, List.find?_nil, Option.map_none, Option.getD_none, Bool.not_false,
    Bool.true_and, decide_eq_true_eq]
  obtain hlow | hmax := h
  · simp only [hlow, if_true, ite_self]
  · simp only [hmax, if_true]

/-- Above it, the first candidate is condemned, and perhaps others after it. -/
theorem execBackgroundDropping_of_high {s : State} {p : Nat} {u : Unit'} {us : List Unit'} (hbg : s.bg = [])
    (hmax : 0 < s.regF 0 Reg.PR_CFG 8 8) (hhigh : s.quota p * s.regF 0 Reg.PR_CFG 24 8 < s.usage p * 256)
    (hlow : s.quota p * s.regF 0 Reg.PR_CFG 16 8 < s.usageKept p * 256) (hcands : s.candidates p = u :: us) :
    ∃ rest bg, exec (.backgroundDropping p) s = .next { (s.ranked p).condemnAll p (u :: rest) with bg := bg } := by
  obtain ⟨rest, hrest⟩ := bgUnits_cons u us hmax hlow
  simp only [State.regF] at hmax hhigh hrest
  change ∃ _ _, execBackgroundDropping p s = _
  simp only [execBackgroundDropping, hbg, List.find?_nil, Option.map_none, Option.getD_none, Bool.not_false,
    Bool.true_and, decide_eq_true_eq, hmax.ne', Nat.not_le.2 hhigh, if_false, Nat.sub_zero, hcands, hrest]
  exact ⟨_, _, rfl⟩

/-! ### The directory lookup (R104) -/

/-- A word loaded among others. -/
theorem State.setWords_reg_at (s : State) (fn off v : Nat) {n j : Nat} (hj : j < n) :
    (s.setWords fn off n v).reg fn (off + 4 * j) = BitVec.ofNat 32 (v / 2 ^ (32 * j)) :=
  s.loadWords_reg_at fn off v hj

theorem State.setWords_dir (s : State) (fn off n v : Nat) : (s.setWords fn off n v).dir = s.dir := by
  rw [State.setWords, foldl_keeps State.dir]
  exact fun t i => State.setReg_dir ..

theorem State.setWords_lookup (s : State) (fn off n v : Nat) : (s.setWords fn off n v).lookup = s.lookup := by
  rw [State.setWords, foldl_keeps State.lookup]
  exact fun t i => State.setReg_lookup ..

/-- What the end of a lookup shows: eight words, and the status. -/
def State.lookedUp (s : State) (v : Nat) (stat : Word) : State :=
  (State.setWords { s with lookup := none } 0 Reg.PG_DIR_W 8 v).setReg 0 Reg.PG_DIR_STAT stat

section
variable (s : State) (v : Nat) (stat : Word)

theorem State.lookedUp_kept : (s.lookedUp v stat).mem = s.mem ∧ (s.lookedUp v stat).dir = s.dir ∧
    (s.lookedUp v stat).lookup = none := by
  refine ⟨?_, ?_, ?_⟩
  · rw [State.lookedUp, State.setReg_mem, State.setWords_mem]
  · rw [State.lookedUp, State.setReg_dir, State.setWords_dir]
  · rw [State.lookedUp, State.setReg_lookup, State.setWords_lookup]

theorem State.lookedUp_stat : (s.lookedUp v stat).reg 0 Reg.PG_DIR_STAT = stat := State.reg_setReg_same ..

theorem State.lookedUp_word {j : Nat} (hj : j < 8) :
    (s.lookedUp v stat).reg 0 (Reg.PG_DIR_W + 4 * j) = BitVec.ofNat 32 (v / 2 ^ (32 * j)) := by
  rw [State.lookedUp, State.reg_setReg_other _ _ (regKey_inj.not.2 (by unfold Reg.PG_DIR_W Reg.PG_DIR_STAT; omega)),
    State.setWords_reg_at _ _ _ _ hj]

end

/-- A readable entry is shown with FOUND. -/
theorem execDirLookupDone_of_found {s : State} {k : DirKey} {d : Dir} (hl : s.lookup = some ⟨k⟩)
    (hd : s.dir? k = some d) (ha : d.a.ok = true) (hb : d.b.ok = true) :
    exec .dirLookupDone s = .next (s.lookedUp d.a.val.toNat 1) := by
  have hd' : State.dir? { s with lookup := none } k = some d := hd
  have hv : d.val? = some d.a.val := if_pos ha
  change execDirLookupDone s = _
  simp only [execDirLookupDone, hl, hd', hv, State.dirSeen_of_ok hd' ha hb]
  rfl

/-- A key with no entry shows zeros. -/
theorem execDirLookupDone_of_none {s : State} {k : DirKey} (hl : s.lookup = some ⟨k⟩) (hd : s.dir? k = none) :
    exec .dirLookupDone s = .next (s.lookedUp 0 0) := by
  have hd' : State.dir? { s with lookup := none } k = none := hd
  change execDirLookupDone s = _
  simp only [execDirLookupDone, hl, hd']
  rfl

/-! ### The statement -/

/-- Settles O27: the pages that are coded, freed and dropped, and the lookup of an entry. -/
theorem pagesAreCodedFreedAndDropped : Obligations.PagesAreCodedFreedAndDropped := by
  refine ⟨fun s p x v tr m hlive hopen hfull htr hraw hawake hoff =>
      execPageCode_of_disabled hlive hopen hfull htr hraw hawake hoff,
    fun s p x v tr m a o str n d w hlive hopen hfull htr hraw hawake hon hecc hn hd hw hstr hsaves hquota hmoves hfree
      harea => ?_,
    fun s p h => execCodedOldSlotFree_of_free h, fun s p q n h => execUnitFree_of_free n h,
    fun s p q n x hx hpart hseq hspan huse hbusy => execUnitFree_of_busy hx hpart hseq hspan huse hbusy,
    fun s p hbg h => execBackgroundDropping_of_idle hbg h,
    fun s p u us hbg hmax hhigh hlow hcands => ?_, fun s hpf0 => ?_,
    fun s k d j hl hd ha hb hj => ?_, fun s k j hl hd hj => ?_⟩
  · obtain ⟨img, used, hlen, hexec⟩ := execPageCode_of_fits hlive hopen hfull htr hraw hawake hon hecc hn hd hw hstr
      hsaves hquota hmoves hfree harea
    obtain ⟨acts, trr, regs, heq⟩ := s.opens_eq x.addr x.size
    have hms : (s.opens x.addr x.size).ms = s.ms := by rw [heq]; rfl
    have hmem : x ∈ s.slots := List.mem_of_find?_eq_some hlive
    refine ⟨_, hexec, ?_, ?_, ?_, ?_, fun b hb => ?_⟩
    · have hother : regKey 0 Reg.PG_CODED_CNT ≠ regKey 0 (Reg.PR_USED_HWM + 4 * p.part) :=
        regKey_inj.not.2 (by unfold Reg.PG_CODED_CNT Reg.PR_USED_HWM; omega)
      have htrr : regKey 0 Reg.PG_CODED_CNT ≠ regKey 0 Reg.FX_TRR_CNT := regKey_inj.not.2 (by decide)
      rw [counted, State.reg_count_same, State.reg_hwm_other _ _ hother, State.recoded_reg _ _ _ _ _ _ htrr,
        State.opens_reg _ _ _ htrr]
    · rw [State.count_dir, State.hwm_dir, State.recoded_dir, heq]
    · rw [State.count_slots, State.hwm_slots, State.recoded_slots, State.opens_slots, hms, List.mem_append, List.mem_map]
      exact .inl ⟨x, hmem, if_pos rfl⟩
    · rw [State.count_slots, State.hwm_slots, State.recoded_slots, List.mem_append]
      exact .inr (List.mem_singleton_self _)
    · have hsame := State.recoded_byte (s.opens x.addr x.size) x a
        (256 * ceilDiv str.length 256 + bandBytes n d + 512) o img (b := b) (by rwa [hlen])
      rw [State.byte_congr (State.count_mem ..), State.byte_congr (State.hwm_mem ..), hsame,
        State.byte_congr (s.opens_mem ..)]
  · obtain ⟨rest, bg, hexec⟩ := execBackgroundDropping_of_high hbg hmax hhigh hlow hcands
    refine ⟨_, hexec, (State.condemnAll_mem ..).trans (s.ranked_mem p), ?_, (s.ranked p).condemnAll_unitGone p u rest⟩
    exact (State.condemnAll_addrs ..).trans (by rw [State.ranked_slots])
  · change execDirLookup s = _
    rw [execDirLookup, if_pos hpf0]
    rfl
  · obtain ⟨hmem, hdir, hlookup⟩ := s.lookedUp_kept d.a.val.toNat 1
    refine ⟨_, execDirLookupDone_of_found hl hd ha hb, hmem, hdir, hlookup, State.lookedUp_stat .., ?_⟩
    rw [State.lookedUp_word _ _ _ hj, toNat_ofNat_div_eq_getF]
  · obtain ⟨hmem, -, hlookup⟩ := s.lookedUp_kept 0 0
    refine ⟨_, execDirLookupDone_of_none hl hd, hmem, hlookup, State.lookedUp_stat .., ?_⟩
    rw [State.lookedUp_word _ _ _ hj, Nat.zero_div]
    rfl

end Sys2Proof.Machine
end

section
/-!
PROOFS. The Flue columns: the check and the end of a ROW, the turns of the bursts of a column, and re-encoding,
write-back, scrubbing and relocation (R106, R107, R117 to R119, R123, R128, R133, R229, R369, R370).
-/

namespace Sys2Proof.Machine

/-! ### What an activation leaves (R370) -/

@[simp] theorem State.activate_rows (s : State) (r : Nat) : (s.activate r).rows = s.rows := by
  obtain ⟨acts, trr, regs, h⟩ := s.activate_eq r
  rw [h]

@[simp] theorem State.activate_recode (s : State) (r : Nat) : (s.activate r).recode = s.recode := by
  obtain ⟨acts, trr, regs, h⟩ := s.activate_eq r
  rw [h]

@[simp] theorem State.activate_scrub (s : State) (r : Nat) : (s.activate r).scrub = s.scrub := by
  obtain ⟨acts, trr, regs, h⟩ := s.activate_eq r
  rw [h]

@[simp] theorem State.opens_rows (s : State) (a n : Nat) : (s.opens a n).rows = s.rows :=
  foldl_keeps State.rows State.activate_rows _ s

/-! ### What a ROW works on -/

/-- What a ROW works on: memory with its latent errors, the taken commands, and the ROWs on the columns. -/
def State.rowView (s : State) : List Host.Cell × List (Nat × Ecc) × List Cmd × List RowJob :=
  (s.mem, s.ecc, s.cmds, s.rows)

/-- States with one view agree in each part of it. -/
theorem State.rowView_eq_iff {s t : State} :
    t.rowView = s.rowView ↔ t.mem = s.mem ∧ t.ecc = s.ecc ∧ t.cmds = s.cmds ∧ t.rows = s.rows := by
  simp only [State.rowView, Prod.mk.injEq]

@[simp] theorem ite_rowView (c : Prop) [Decidable c] (s t : State) :
    (if c then s else t).rowView = if c then s.rowView else t.rowView := apply_ite State.rowView c s t

@[simp] theorem State.setReg_rowView (s : State) (fn off : Nat) (v : Word) : (s.setReg fn off v).rowView = s.rowView :=
  State.rowView_eq_iff.2 ⟨State.setReg_mem .., State.setReg_ecc .., State.setReg_cmds .., State.setReg_rows ..⟩

@[simp] theorem State.setRegB_rowView (s : State) (fn off i : Nat) (b : Bool) :
    (s.setRegB fn off i b).rowView = s.rowView := State.setReg_rowView ..

@[simp] theorem State.count_rowView (s : State) (fn off n : Nat) : (s.count fn off n).rowView = s.rowView :=
  State.setReg_rowView ..

@[simp] theorem State.hwm_rowView (s : State) (fn off v : Nat) : (s.hwm fn off v).rowView = s.rowView :=
  State.setReg_rowView ..

@[simp] theorem State.wake_rowView (s : State) (u : GateUnit) : (s.wake u).rowView = s.rowView := rfl

@[simp] theorem State.activate_rowView (s : State) (r : Nat) : (s.activate r).rowView = s.rowView :=
  State.rowView_eq_iff.2 ⟨State.activate_mem .., State.activate_ecc .., State.activate_cmds .., State.activate_rows ..⟩

@[simp] theorem State.cplFault_rowView (s : State) (r : RecRef) : (s.cplFault r).rowView = s.rowView := by
  unfold State.cplFault
  extract_lets t
  have ht : t.rowView = s.rowView := (State.setRegB_rowView ..).trans (State.count_rowView ..)
  split
  · exact ht
  · exact ht

@[simp] theorem State.ownCheck_rowView (s : State) (p a n : Nat) : (s.ownCheck p a n).1.rowView = s.rowView := by
  unfold State.ownCheck
  split
  · exact State.cplFault_rowView ..
  split
  · exact State.cplFault_rowView ..
  split
  · rfl
  · exact State.setRegB_rowView ..

@[simp] theorem State.stageRows_rowView (s : State) (d : BitVec 512) (col : Nat) (rows : List Nat) :
    (s.stageRows d col rows).rowView = s.rowView := by
  unfold State.stageRows
  split <;> rfl

/-! ### The checks of a ROW (R118) -/

theorem State.rowCheck_rowView (s : State) (c : Cmd) : (s.rowCheck c).1.rowView = s.rowView := by
  unfold State.rowCheck
  extract_lets d n ops crcN crcA r r'
  have hr : r.1.rowView = s.rowView :=
    foldl_fst_keeps State.rowView (fun x a => by split <;> simp) ops (s, 0)
  have hr' : r'.1.rowView = s.rowView := by
    simp only [r']
    split
    · exact (State.ownCheck_rowView ..).trans hr
    · exact hr
  split
  · rfl
  split
  · exact State.count_rowView ..
  split
  · rfl
  split
  · exact hr'
  split
  · rfl
  split
  · rfl
  split
  · rfl
  split
  · exact State.setRegB_rowView ..
  · rfl

section
variable {s u : State} {id : Nat} {c : Cmd} (hstart : s.starting? id 5 = some c) (hawake : s.awake = true)
include hstart hawake

/-- A ROW that fails a check ends with the status of the check, and changes neither memory nor the queued ROWs. -/
theorem execRow_of_fails {st : Nat} (hcheck : s.rowCheck c = (u, st)) (hst : st ≠ 0) :
    ∃ t, exec (.row id) s = .next t ∧ t.mem = s.mem ∧ t.rows = s.rows ∧ t.endedWith id st := by
  have hexec : exec (.row id) s = .next ((u.runCmd id).endCmd id st 0) := by
    change execRow id s = _
    simp only [execRow, hstart, hawake, hcheck, hst, Bool.not_true, Bool.false_eq_true, if_false, ne_eq,
      not_false_eq_true, if_true]
  have hview := s.rowCheck_rowView c
  rw [hcheck] at hview
  obtain ⟨hmem, -, hcmds, hrows⟩ := State.rowView_eq_iff.1 hview
  have hcmd : u.cmd? id = some c := (State.cmd?_congr hcmds id).trans (State.cmd?_of_starting hstart).1
  refine ⟨_, hexec, ?_, ?_, State.endCmd_endedWith (State.cmd?_runCmd hcmd) (by simp) ..⟩
  · rw [State.endCmd_mem, State.runCmd_mem, hmem]
  · rw [State.endCmd_rows, State.runCmd_rows, hrows]

/-- A ROW that passes its checks is queued, and its columns wake. -/
theorem execRow_of_passes (hcheck : s.rowCheck c = (u, 0)) (hwaits : s.rowWaits c.desc = false) :
    exec (.row id) s = .next { (s.runCmd id).wakeRange (roDst c.desc) (1024 * roCount c.desc) with
      rows := s.rows ++ [⟨id, List.range (roCount c.desc), 0, false, false⟩] } := by
  change execRow id s = _
  simp only [execRow, hstart, hawake, hcheck, hwaits, Bool.not_true, Bool.false_eq_true, if_false, ne_eq,
    not_true_eq_false]

end

/-! ### The burst of a ROW (R117, R119) -/

/-- The result of a row depends on memory alone. -/
theorem State.rowResult_congr {s t : State} (h : t.mem = s.mem) (d : BitVec 512) (i : Nat) :
    t.rowResult d i = s.rowResult d i := by
  simp only [State.rowResult, State.bytes_congr h]

/-- With no latent error, a row of a coded ROW without CRC is written. -/
theorem State.rowOne_of_clean {s : State} {c : Cmd} (hecc : s.ecc = []) (hraw : roRaw c.desc = false)
    (hcrc : roCrc c.desc = false) (j : RowJob) (col i : Nat) :
    ∃ t units, s.rowOne c j col i =
        (t, { j with written := j.written + 1, left := j.left.filter (· != i), chimney := j.chimney || units != 0 }) ∧
      t.mem = (s.store (roDst c.desc + 1024 * i) (s.rowResult c.desc i)).mem ∧ t.cmds = s.cmds ∧ t.rows = s.rows := by
  unfold State.rowOne
  extract_lets d srcs dst s₁ s₂ out units s₃ s₄ s₅
  obtain ⟨hmem, hclean, hcmds, hrows⟩ : s₁.mem = s.mem ∧ s₁.ecc = s.ecc ∧ s₁.cmds = s.cmds ∧ s₁.rows = s.rows :=
    State.rowView_eq_iff.1 (foldl_keeps State.rowView State.activate_rowView _ s)
  rw [hecc] at hclean
  have hgood : (!roRaw d && srcs.any fun a => s₁.hasUE a 1024) = false := by
    simp [State.hasUE_of_clean hclean]
  have h₂ : s₂ = s₁ := by
    simp only [s₂]
    rw [if_neg (by simp [d, hraw])]
    exact List.foldl_fixed' (State.scanned_of_clean hclean · 1024) srcs
  have h₄ : s₄ = s₁.engineWrite c.part c.id dst (s.rowResult c.desc i) := by
    simp only [s₄, s₃, out, h₂, State.rowResult_congr hmem]
    exact if_neg (by simp [d, hcrc])
  have h₅ : s₅.rowView = s₄.rowView := by
    simp only [s₅, ite_rowView, State.count_rowView, ite_self]
  obtain ⟨hmem₅, -, hcmds₅, hrows₅⟩ := State.rowView_eq_iff.1 h₅
  rw [hgood, if_neg (by simp)]
  refine ⟨s₅, units, rfl, ?_, ?_, ?_⟩
  · rw [hmem₅, h₄, State.engineWrite_mem, hmem]
    rfl
  · rw [hcmds₅, h₄, State.engineWrite_cmds, hcmds]
  · rw [hrows₅, h₄, State.engineWrite_rows, hrows]

/-- A burst holds at least one row. -/
theorem burstRows_pos (d : BitVec 512) : 0 < burstRows d := by
  unfold burstRows
  (repeat' split) <;> decide

/-- The burst that writes the last row of the only ROW ends it. -/
theorem State.rowBurst_of_last {s : State} {c : Cmd} {j : RowJob} {col i : Nat} (hrows : s.rows = [j])
    (hcmd : s.cmd? j.cmd = some c) (hphase : c.phase = .running) (hleft : j.left = [i])
    (hcol : homeColumn (roDst c.desc + 1024 * i) = col) (hraw : roRaw c.desc = false) (hcrc : roCrc c.desc = false)
    (hgood : j.failed = false) (hecc : s.ecc = []) :
    (s.rowBurst c j col).endedWith c.id 0 ∧ (s.rowBurst c j col).rows = [] ∧
      (s.rowBurst c j col).mem = (s.store (roDst c.desc + 1024 * i) (s.rowResult c.desc i)).mem := by
  have hid : c.id = j.cmd := State.id_of_cmd? hcmd
  have hmine : (j.left.filter fun k => homeColumn (roDst c.desc + 1024 * k) == col).take (burstRows c.desc) = [i] := by
    rw [hleft, List.filter_cons_of_pos (by simpa using hcol), List.filter_nil]
    exact List.take_of_length_le (burstRows_pos c.desc)
  have hview : ((s.wake (.column col)).stageRows c.desc col [i]).rowView = s.rowView :=
    (State.stageRows_rowView ..).trans (State.wake_rowView ..)
  obtain ⟨hmem₁, hecc₁, hcmds₁, hrows₁⟩ := State.rowView_eq_iff.1 hview
  obtain ⟨t, units, hone, hmem, hcmds, hrows'⟩ := State.rowOne_of_clean (hecc₁.trans hecc) hraw hcrc j col i
  have hcont : j.left.contains i = true := by simp [hleft]
  have hdone : (j.left.filter (· != i)).isEmpty = true := by simp [hleft]
  have hlist : t.rows.filter (·.cmd != c.id) = [] := by simp [hrows', hrows₁, hrows, hid]
  have hcmd' : State.cmd? { t with rows := t.rows.filter (·.cmd != c.id) } c.id = some c :=
    (State.cmd?_congr (hcmds.trans hcmds₁) c.id).trans (hid ▸ hcmd)
  simp only [State.rowBurst, hmine, hraw, Bool.false_and, Bool.false_eq_true, if_false, List.foldl_cons, List.foldl_nil,
    hcont, if_true, hone, hdone, hgood]
  refine ⟨State.endCmd_endedWith hcmd' (by simp [hphase]) .., ?_, ?_⟩
  · rw [State.endCmd_rows]
    exact hlist
  · rw [State.endCmd_mem]
    refine hmem.trans ?_
    rw [State.rowResult_congr hmem₁]
    change storeMem (State.stageRows _ _ _ _).mem _ _ = storeMem s.mem _ _
    rw [hmem₁]

/-! ### Write-back (R128) -/

@[simp] theorem State.writeBack_rows (s : State) (col k : Nat) : (s.writeBack col k).rows = s.rows := s.opens_rows ..

/-- A write-back ends the wait of its sector and leaves the others. -/
theorem State.eccAt_writeBack (s : State) (col k x : Nat) :
    (s.writeBack col k).eccAt x = if x = k then .clean else s.eccAt x := by
  refine (tget_tput (fun _ => Ecc.clean) (s.opens (unitAddr k) 32).ecc k x .clean).trans ?_
  rw [State.opens_ecc, State.eccAt]

/-- A write-back leaves memory and the ROWs, ends the wait of its sector, and leaves the other latent errors. -/
theorem State.writeBack_leaves (s : State) (col k : Nat) :
    (s.writeBack col k).mem = s.mem ∧ (s.writeBack col k).rows = s.rows ∧ (s.writeBack col k).eccAt k = .clean ∧
      ∀ x, x ≠ k → (s.writeBack col k).eccAt x = s.eccAt x :=
  ⟨s.writeBack_mem .., s.writeBack_rows .., by rw [State.eccAt_writeBack, if_pos rfl],
    fun x hx => by rw [State.eccAt_writeBack, if_neg hx]⟩

theorem execWriteBackBurst_of_awaiting {s : State} {col k : Nat} (hawake : s.awake = true)
    (hwait : s.awaitingOn col = some k) : exec (.writeBackBurst col) s = .next (s.writeBack col k) := by
  change execWriteBackBurst col s = _
  simp only [execWriteBackBurst, hawake, hwait, Bool.not_true, Bool.false_eq_true, if_false]

/-! ### The turns of the bursts (R106, R128, R133) -/

section
variable (s : State) (fn off v col : Nat)

@[simp] theorem State.awake_hwm : (s.hwm fn off v).awake = s.awake := by
  simp only [State.awake, State.hwm_power]

@[simp] theorem State.awaitingOn_hwm : (s.hwm fn off v).awaitingOn col = s.awaitingOn col := by
  simp only [State.awaitingOn, State.hwm_ecc]

@[simp] theorem State.rowOn_hwm : (s.hwm fn off v).rowOn col = s.rowOn col := by
  simp only [State.rowOn, State.hwm_rows, State.cmd?, State.hwm_cmds]

@[simp] theorem State.attendOn_hwm : (s.hwm fn off v).attendOn col = s.attendOn col := by
  simp only [State.attendOn, State.hwm_reqs]

@[simp] theorem State.burstWaits_hwm : (s.hwm fn off v).burstWaits col = s.burstWaits col := by
  simp only [State.burstWaits, State.awaitingOn_hwm, State.rowOn_hwm, State.attendOn_hwm]

@[simp] theorem State.arb_hwm : (s.hwm fn off v).arb col = s.arb col := by
  simp only [State.arb, State.hwm_arbs]

/-- The host-wait mark gives no turn and takes none. -/
@[simp] theorem State.rowTurn_hostWait : (s.hwm 0 Reg.FL_HOST_WAIT_HWM v).rowTurn col = s.rowTurn col := by
  have hcfg : (s.hwm 0 Reg.FL_HOST_WAIT_HWM v).regF 0 Reg.FL_ARB 8 8 = s.regF 0 Reg.FL_ARB 8 8 := by
    rw [State.regF, State.reg_hwm_other s v (regKey_inj.not.2 (by decide)), State.regF]
  rw [State.rowTurn, State.awaitingOn_hwm, State.attendOn_hwm, State.arb_hwm, hcfg, State.rowTurn]

end

@[simp] theorem State.setArb_rows (s : State) (col : Nat) (x : Arb) : (s.setArb col x).rows = s.rows := rfl

/-- The turns of a column, once set. -/
@[simp] theorem State.arb_setArb (s : State) (col : Nat) (x : Arb) : (s.setArb col x).arb col = x :=
  tget_tput_same _ s.arbs col x

section
variable {s : State} {col : Nat}

theorem State.awaitingOn_of_rowTurn (h : s.rowTurn col = true) : s.awaitingOn col = none := by
  simp only [State.rowTurn, Bool.and_eq_true, Option.isNone_iff_eq_none] at h
  exact h.1

theorem State.nextBurst_of_awaiting {k : Nat} (h : s.awaitingOn col = some k) : s.nextBurst col = s.writeBack col k := by
  simp only [State.nextBurst, h]

theorem State.nextBurst_of_attend {j : RowJob} (hwait : s.awaitingOn col = none) (hrow : s.rowOn col = some j)
    (hturn : s.rowTurn col = false) : s.nextBurst col = s.setArb col ⟨0, (s.arb col).run + 1⟩ := by
  simp only [State.nextBurst, hwait, hrow, hturn, Bool.not_false, if_true]

theorem State.nextBurst_of_row {j : RowJob} {c : Cmd} (hrow : s.rowOn col = some j) (hturn : s.rowTurn col = true)
    (hcmd : s.cmd? j.cmd = some c) : s.nextBurst col = (s.rowBurst c j col).rowRan col := by
  simp only [State.nextBurst, State.awaitingOn_of_rowTurn hturn, hrow, hturn, hcmd, Bool.not_true, Bool.false_eq_true,
    if_false]

theorem State.nextBurst_of_idle (h : s.burstWaits col = false) : s.nextBurst col = s := by
  simp only [State.burstWaits, Bool.or_eq_false_iff, Option.isSome_eq_false_iff, Option.isNone_iff_eq_none] at h
  obtain ⟨⟨hwait, hrow⟩, hattend⟩ := h
  simp only [State.nextBurst, hwait, hrow, hattend, Bool.false_eq_true, if_false]

/-- A running ROW that is alone on the columns is the first on the column of any row it has left. -/
theorem State.rowOn_of_alone {j : RowJob} {c : Cmd} {i : Nat} (hrows : s.rows = [j]) (hcmd : s.cmd? j.cmd = some c)
    (hphase : c.phase = .running) (hleft : i ∈ j.left) (hcol : homeColumn (roDst c.desc + 1024 * i) = col) :
    s.rowOn col = some j := by
  have hany : (j.left.any fun k => homeColumn (roDst c.desc + 1024 * k) == col) = true :=
    List.any_eq_true.2 ⟨i, hleft, by simpa using hcol⟩
  simp only [State.rowOn, hrows, List.find?_singleton, hcmd, hphase, hany, BEq.rfl, Bool.and_self, if_true]

section
variable (hawake : s.awake = true) (ns : Nat)
include hawake

/-- On an awake node a burst end marks the wait that it added and runs the column's next burst. -/
theorem execFlueBurstEnd_of_awake :
    exec (.flueBurstEnd col ns) s = .next ((s.hwm 0 Reg.FL_HOST_WAIT_HWM ns).nextBurst col) := by
  change execFlueBurstEnd col ns s = _
  simp only [execFlueBurstEnd, State.awake_hwm, hawake, if_true]

/-- A sector that awaits write-back goes before the ROWs. -/
theorem execFlueBurstEnd_of_awaiting {k : Nat} (hwait : s.awaitingOn col = some k) :
    ∃ t, exec (.flueBurstEnd col ns) s = .next t ∧ t.mem = s.mem ∧ t.rows = s.rows ∧ t.eccAt k = .clean ∧
      ∀ x, x ≠ k → t.eccAt x = s.eccAt x := by
  obtain ⟨hmem, hecc, -, hrows⟩ := State.rowView_eq_iff.1 (s.hwm_rowView 0 Reg.FL_HOST_WAIT_HWM ns)
  obtain ⟨hmem', hrows', hclean, hothers⟩ := (s.hwm 0 Reg.FL_HOST_WAIT_HWM ns).writeBack_leaves col k
  refine ⟨_, by rw [execFlueBurstEnd_of_awake hawake, State.nextBurst_of_awaiting ((s.awaitingOn_hwm ..).trans hwait)],
    hmem'.trans hmem, hrows'.trans hrows, hclean, fun x hx => ?_⟩
  rw [hothers x hx, State.eccAt, hecc, State.eccAt]

/-- While ATTEND bursts keep the turn a ROW waits, and the turn is counted. -/
theorem execFlueBurstEnd_of_attend {j : RowJob} (hwait : s.awaitingOn col = none) (hrow : s.rowOn col = some j)
    (hturn : s.rowTurn col = false) :
    ∃ t, exec (.flueBurstEnd col ns) s = .next t ∧ t.mem = s.mem ∧ t.rows = s.rows ∧
      t.arb col = ⟨0, (s.arb col).run + 1⟩ := by
  obtain ⟨hmem, -, -, hrows⟩ := State.rowView_eq_iff.1 (s.hwm_rowView 0 Reg.FL_HOST_WAIT_HWM ns)
  refine ⟨_, by rw [execFlueBurstEnd_of_awake hawake, State.nextBurst_of_attend ((s.awaitingOn_hwm ..).trans hwait)
    ((s.rowOn_hwm ..).trans hrow) ((s.rowTurn_hostWait ..).trans hturn)], ?_, ?_, ?_⟩
  · rw [State.setArb_mem, hmem]
  · rw [State.setArb_rows, hrows]
  · rw [State.arb_setArb, State.arb_hwm]

/-- In its turn on the column, the last row of the only ROW is written and ends it. -/
theorem execFlueBurstEnd_of_last {j : RowJob} {c : Cmd} {i : Nat} (hrows : s.rows = [j])
    (hcmd : s.cmd? j.cmd = some c) (hphase : c.phase = .running) (hleft : j.left = [i])
    (hcol : homeColumn (roDst c.desc + 1024 * i) = col) (hraw : roRaw c.desc = false) (hcrc : roCrc c.desc = false)
    (hgood : j.failed = false) (hecc : s.ecc = []) (hturn : s.rowTurn col = true) :
    ∃ t, exec (.flueBurstEnd col ns) s = .next t ∧ t.endedWith c.id 0 ∧ t.rows = [] ∧
      t.mem = (s.store (roDst c.desc + 1024 * i) (s.rowResult c.desc i)).mem := by
  obtain ⟨hmem, hecc', hcmds, hrows'⟩ := State.rowView_eq_iff.1 (s.hwm_rowView 0 Reg.FL_HOST_WAIT_HWM ns)
  have hrow : s.rowOn col = some j := State.rowOn_of_alone hrows hcmd hphase (by simp [hleft]) hcol
  have hcmd' := (State.cmd?_congr hcmds j.cmd).trans hcmd
  obtain ⟨hended, hempty, hstored⟩ :=
    State.rowBurst_of_last (hrows'.trans hrows) hcmd' hphase hleft hcol hraw hcrc hgood (hecc'.trans hecc)
  have hnext := State.nextBurst_of_row ((s.rowOn_hwm ..).trans hrow) ((s.rowTurn_hostWait ..).trans hturn) hcmd'
  refine ⟨_, execFlueBurstEnd_of_awake hawake ns, ?_⟩
  rw [hnext]
  refine ⟨hended, hempty, ?_⟩
  rw [State.rowRan_mem, hstored, State.rowResult_congr hmem]
  exact congrArg (storeMem · _ _) hmem

end

/-- With no Flue work waiting it only marks the wait. -/
theorem execFlueBurstEnd_of_idle (h : s.burstWaits col = false) (ns : Nat) :
    exec (.flueBurstEnd col ns) s = .next (s.hwm 0 Reg.FL_HOST_WAIT_HWM ns) := by
  change execFlueBurstEnd col ns s = _
  simp only [execFlueBurstEnd, State.nextBurst_of_idle ((s.burstWaits_hwm ..).trans h), ite_self]

end

/-! ### Re-encoding (R123) -/

/-- The rows that the next re-encoding burst of a column takes: the eight lowest that wait. -/
def State.recodeNext (s : State) (col : Nat) : List Nat :=
  (sortNat (s.recode.filter fun r => rowColumn r == col)).take 8

/-- A re-encoding burst in its turn on an idle column takes its rows off the list, which is shown, and stores nothing. -/
theorem execReencodeBurst_of_turn {s : State} {col : Nat} (hawake : s.awake = true) (hplan : s.planEmpty col = true)
    (hturn : s.rowTurn col = true) :
    ∃ t, exec (.reencodeBurst col) s = .next t ∧ t.mem = s.mem ∧
      t.recode = s.recode.filter (fun r => !(s.recodeNext col).contains r) ∧
      t.reg 0 Reg.FL_RECODE_LEFT = BitVec.ofNat 32 t.recode.length := by
  have hmem := foldl_keeps State.mem State.activate_mem (s.recodeNext col) s
  have hrecode := foldl_keeps State.recode State.activate_recode (s.recodeNext col) s
  change ∃ t, execReencodeBurst col s = _ ∧ _
  simp only [execReencodeBurst, hawake, hplan, hturn, Bool.not_true, Bool.or_self, Bool.false_eq_true, if_false]
  refine ⟨_, rfl, (State.showRecode_mem _).trans hmem, ?_, ?_⟩
  · exact (State.setReg_recode ..).trans (congrArg (List.filter _) hrecode)
  · rw [State.showRecode, State.reg_setReg_same, State.setReg_recode]

/-- Without the turn, or on a column with a plan, it changes nothing. -/
theorem execReencodeBurst_of_wait {s : State} {col : Nat} (h : s.planEmpty col = false ∨ s.rowTurn col = false) :
    exec (.reencodeBurst col) s = .next s := by
  have hskip : (!s.awake || !s.planEmpty col || !s.rowTurn col) = true := by
    rcases h with h | h <;> simp [h]
  change execReencodeBurst col s = _
  rw [execReencodeBurst, if_pos hskip]

/-! ### Scrubbing (R369) -/

/-- With no latent error a scrubbed row is opened at most. -/
theorem State.scrubRow_of_clean {s : State} (h : s.ecc = []) (r : Nat) :
    s.scrubRow r = if s.rawRow r then s else s.activate r := by
  rw [State.scrubRow, State.scanned_of_clean ((s.activate_ecc r).trans h)]

/-- With no latent error, scrubbed rows leave memory, the places of the scrub and its count of passes. -/
theorem State.scrubRows_of_clean {s : State} (h : s.ecc = []) (base : Nat) (l : List Nat) :
    let t := l.foldl (fun s i => s.scrubRow (base + i)) s
    t.mem = s.mem ∧ t.scrub = s.scrub ∧ t.reg 0 Reg.FX_SCRUB_PASS_CNT = s.reg 0 Reg.FX_SCRUB_PASS_CNT := by
  induction l generalizing s with
  | nil => exact ⟨rfl, rfl, rfl⟩
  | cons i l ih =>
    rw [List.foldl_cons, State.scrubRow_of_clean h]
    split
    · exact ih h
    · obtain ⟨hmem, hscrub, hreg⟩ := ih ((s.activate_ecc (base + i)).trans h)
      exact ⟨hmem.trans (s.activate_mem _), hscrub.trans (s.activate_scrub _),
        hreg.trans (s.activate_reg _ (regKey_inj.not.2 (by decide)))⟩

/-- The row of a scrub whose pair is valid. -/
theorem Scrub.next_of_ok {b : Scrub} (h : b.row.ok = true) : b.next = b.row.val.toNat := by
  simp only [Scrub.next, Pair.get?, h, if_true]

/-- The row of a scrub that stands at a number. -/
theorem Scrub.next_pairOf (n left : Nat) : (⟨pairOf (BitVec.ofNat 64 n), left⟩ : Scrub).next = n % 2 ^ 64 := by
  simp only [Scrub.next, pairOf_get, BitVec.toNat_ofNat]

/-- A scrub burst in its turn and in an open slot, with no row waiting for a spare, passes eight rows, and counts the pass
that it ends. -/
theorem execScrubBurst_of_turn {s : State} {col : Nat} {b : Scrub} (hawake : s.awake = true)
    (hfind : s.scrub.find? (fun x => x.1 == col) = some (col, b)) (hleft : 0 < b.left) (hfence : s.fenced col = false)
    (hok : b.row.ok = true) (hdue : s.remapDue = []) (hecc : s.ecc = []) (hturn : s.rowTurn col = true) :
    ∃ t, exec (.scrubBurst col) s = .next t ∧ t.mem = s.mem ∧
      t.scrub = s.scrub.map (fun x => if x.1 = col then (col, ⟨pairOf (BitVec.ofNat 64 (b.next + 8)), b.left - 1⟩) else x) ∧
      ((b.next + 8) % 4194304 = 0 → counted s t 0 Reg.FX_SCRUB_PASS_CNT 1) := by
  have hgo : ¬(b.left = 0 ∨ (!s.awake) = true ∨ s.fenced col = true ∨ (!s.rowTurn col) = true) := by
    simp [hleft.ne', hawake, hfence, hturn]
  have hpassed : (b.next + 8) % 4194304 = 0 →
      (⟨pairOf (BitVec.ofNat 64 (b.next + 8)), b.left - 1⟩ : Scrub).next % 4194304 = 0 := by
    rw [Scrub.next_pairOf]
    omega
  have hrows := State.scrubRows_of_clean (s := s.rowRan col) hecc (col * 4194304 + b.next % 4194304) (List.range 8)
  change ∃ t, execScrubBurst col s = _ ∧ _
  simp only [execScrubBurst, hfind, if_neg hgo, hok, Bool.not_true, Bool.false_eq_true, if_false, hdue, List.filter_nil,
    List.foldl_nil]
  generalize (List.range 8).foldl _ (s.rowRan col) = t at *
  obtain ⟨hmem, hscrub, hreg⟩ := hrows
  refine ⟨_, rfl, ?_, ?_, fun hend => ?_⟩
  · split
    · exact (State.count_mem ..).trans (hmem.trans (s.rowRan_mem col))
    · exact hmem.trans (s.rowRan_mem col)
  · split
    · exact (State.count_scrub ..).trans (congrArg (List.map _) hscrub)
    · exact congrArg (List.map _) hscrub
  · rw [if_pos (hpassed hend), counted, State.reg_count_same]
    exact congrArg (fun r : Word => min 0xFFFFFFFF (r.toNat + 1)) hreg

/-! ### Relocation (R229) -/

/-- A relocation that is found begins with no byte moved. -/
theorem firstMove_done {busy : Slot → Bool} {col cur : Nat} {xs : List Slot} {m : Move}
    (h : firstMove busy col cur xs = some m) : m.done = 0 := by
  induction xs generalizing cur with
  | nil => cases h
  | cons x t ih =>
    rw [firstMove] at h
    split at h
    · cases h
      rfl
    · exact ih h

/-- So does the relocation that a column starts next. -/
theorem State.nextMove_done {s : State} {col : Nat} {m : Move} (h : s.nextMove col = some m) : m.done = 0 := by
  obtain ⟨p, -, hp⟩ := List.mem_flatMap.1 (List.mem_of_mem_head? h)
  obtain ⟨r, -, hr⟩ := List.mem_filterMap.1 hp
  exact firstMove_done hr

/-- With no latent error, bytes that move are stored where they go, and nothing else changes but the latent errors there
and the activations. -/
theorem State.moveBytes_of_clean {s : State} (h : s.ecc = []) (src dst n : Nat) :
    ∃ acts trr regs ecc, s.moveBytes src dst n = { s with
      acts := acts, trr := trr, regs := regs, ecc := ecc, mem := (s.store dst (s.bytes src n)).mem } := by
  obtain ⟨acts, trr, regs, hsrc⟩ := s.opens_eq src n
  obtain ⟨acts', trr', regs', hdst⟩ := (s.opens src n).opens_eq dst n
  have hclean : ((s.opens src n).opens dst n).ecc = [] := by rw [State.opens_ecc, State.opens_ecc, h]
  simp only [State.moveBytes, State.hitSectors_of_clean h, State.scanned_of_clean hclean, List.filter_nil, List.map_nil,
    List.foldl_nil]
  rw [hdst, hsrc]
  exact ⟨_, _, _, _, rfl⟩

section
variable {s : State} {m : Move} {x : Slot} {n : Nat} (hecc : s.ecc = []) (hslot : s.moveOf m = some x)
include hecc hslot

/-- The last bytes of a relocation: its slot stands at the new address, and it is under way no more. -/
theorem State.moveOn_last (hdone : m.done ≤ x.size) (hlast : x.size ≤ m.done + n) :
    (s.moveOn m n).moves = s.moves.filter (· != m) ∧
      (s.moveOn m n).slots = s.slots.map (fun y => if y.addr = m.src then { y with addr := m.dst, obj := x.obj } else y) ∧
      (s.moveOn m n).mem = (s.store (m.dst + m.done) (s.bytes (m.src + m.done) (x.size - m.done))).mem := by
  have hmin : min n (x.size - m.done) = x.size - m.done := by omega
  obtain ⟨acts, trr, regs, ecc, hmoved⟩ :=
    State.moveBytes_of_clean hecc (m.src + m.done) (m.dst + m.done) (x.size - m.done)
  simp only [State.moveOn, hslot, hmin, hmoved, if_pos (by omega : m.done + (x.size - m.done) = x.size)]
  exact ⟨rfl, rfl, State.redirect_mem ..⟩

/-- A burst of a relocation that is not its last moves its bytes alone. -/
theorem State.moveOn_next (hnext : m.done + n < x.size) :
    (s.moveOn m n).moves = s.moves.map (fun y => if y = m then { m with done := m.done + n } else y) ∧
      (s.moveOn m n).slots = s.slots ∧
      (s.moveOn m n).mem = (s.store (m.dst + m.done) (s.bytes (m.src + m.done) n)).mem := by
  have hmin : min n (x.size - m.done) = n := by omega
  obtain ⟨acts, trr, regs, ecc, hmoved⟩ := State.moveBytes_of_clean hecc (m.src + m.done) (m.dst + m.done) n
  simp only [State.moveOn, hslot, hmin, hmoved, if_neg hnext.ne, and_self]

end

/-- The relocation under way on a column, or the one that it starts, goes on by one burst. -/
theorem execRelocateBurst_of_turn {s : State} {col : Nat} {m : Move} (hawake : s.awake = true)
    (hturn : s.rowTurn col = true) (hmove : s.moves.find? (fun m => m.col == col) = some m ∨
      s.moves.find? (fun m => m.col == col) = none ∧ s.nextMove col = some m) :
    ∃ ms, m ∈ ms ∧ exec (.relocateBurst col) s =
      .next ((({ s with moves := ms } : State).moveOn m (moveLimit (m.src + m.done))).rowRan col) := by
  change ∃ ms, _ ∧ execRelocateBurst col s = _
  rcases hmove with hunder | ⟨hnone, hnext⟩
  · refine ⟨s.moves, List.mem_of_find?_eq_some hunder, ?_⟩
    simp only [execRelocateBurst, hawake, hturn, hunder, Bool.not_true, Bool.or_self, Bool.false_eq_true, if_false]
  · refine ⟨s.moves ++ [m], List.mem_append_right _ (List.mem_singleton_self m), ?_⟩
    simp only [execRelocateBurst, hawake, hturn, hnone, hnext, State.nextMove_done hnext, Nat.add_zero, Bool.not_true,
      Bool.or_self, Bool.false_eq_true, if_false]

section
variable {s : State} {col : Nat} {m : Move} {x : Slot} (hawake : s.awake = true) (hturn : s.rowTurn col = true)
  (hecc : s.ecc = []) (hmove : s.moves.find? (fun m => m.col == col) = some m ∨
    s.moves.find? (fun m => m.col == col) = none ∧ s.nextMove col = some m) (hslot : s.moveOf m = some x)
include hawake hturn hecc hmove hslot

theorem execRelocateBurst_of_last (hdone : m.done ≤ x.size) (hlast : x.size ≤ m.done + moveLimit (m.src + m.done)) :
    ∃ t, exec (.relocateBurst col) s = .next t ∧ t.dir = s.dir ∧ m ∉ t.moves ∧
      t.slots = s.slots.map (fun y => if y.addr = m.src then { y with addr := m.dst, obj := x.obj } else y) ∧
      t.mem = (s.store (m.dst + m.done) (s.bytes (m.src + m.done) (x.size - m.done))).mem := by
  obtain ⟨ms, -, hexec⟩ := execRelocateBurst_of_turn hawake hturn hmove
  obtain ⟨hmoves, hslots, hmem⟩ := State.moveOn_last (s := { s with moves := ms }) hecc hslot hdone hlast
  have hgone : m ∉ ms.filter (· != m) := by simp
  exact ⟨_, hexec, State.dir_of_seqView (State.moveOn_seqView ..), hmoves ▸ hgone, hslots,
    (State.rowRan_mem ..).trans hmem⟩

theorem execRelocateBurst_of_next (hnext : m.done + moveLimit (m.src + m.done) < x.size) :
    ∃ t, exec (.relocateBurst col) s = .next t ∧ t.dir = s.dir ∧ t.slots = s.slots ∧
      { m with done := m.done + moveLimit (m.src + m.done) } ∈ t.moves ∧
      t.mem = (s.store (m.dst + m.done) (s.bytes (m.src + m.done) (moveLimit (m.src + m.done)))).mem := by
  obtain ⟨ms, hms, hexec⟩ := execRelocateBurst_of_turn hawake hturn hmove
  obtain ⟨hmoves, hslots, hmem⟩ := State.moveOn_next (s := { s with moves := ms }) hecc hslot hnext
  exact ⟨_, hexec, State.dir_of_seqView (State.moveOn_seqView ..), hslots,
    hmoves.symm ▸ List.mem_map.2 ⟨m, hms, if_pos rfl⟩, (State.rowRan_mem ..).trans hmem⟩

end

/-- Without the turn a relocation does not go on. -/
theorem execRelocateBurst_of_wait {s : State} {col : Nat} (h : s.rowTurn col = false) :
    exec (.relocateBurst col) s = .next s := by
  change execRelocateBurst col s = _
  simp only [execRelocateBurst, h, Bool.not_false, Bool.or_true, if_true]

/-! ### The statement -/

/-- Settles O29: a ROW from its checks to its end, the turns of a column's bursts, and its maintenance bursts. -/
theorem rowsAndBurstsOfTheColumns : Obligations.RowsAndBurstsOfTheColumns := by
  refine ⟨fun s u id c st hstart hawake => execRow_of_fails hstart hawake,
    fun s u id c hstart hawake => execRow_of_passes hstart hawake,
    fun s col ns i j c hawake => execFlueBurstEnd_of_last hawake ns,
    fun s col ns k hawake => execFlueBurstEnd_of_awaiting hawake ns,
    fun s col ns j hawake => execFlueBurstEnd_of_attend hawake ns,
    fun s col ns hidle => execFlueBurstEnd_of_idle hidle ns,
    fun s col hawake => execReencodeBurst_of_turn hawake,
    fun s col => execReencodeBurst_of_wait,
    fun s col => rfl, fun s => rfl,
    fun s col k hawake hwait => ?_,
    fun s col b hawake hfind hleft hfence hok => ?_,
    fun s col m x hawake hturn hecc => execRelocateBurst_of_last hawake hturn hecc,
    fun s col m x hawake hturn hecc => execRelocateBurst_of_next hawake hturn hecc,
    fun s col => execRelocateBurst_of_wait⟩
  · obtain ⟨hmem, -, hclean, hothers⟩ := s.writeBack_leaves col k
    exact ⟨_, execWriteBackBurst_of_awaiting hawake hwait, hmem, hclean, hothers⟩
  · rw [← Scrub.next_of_ok hok]
    exact execScrubBurst_of_turn hawake hfind hleft hfence hok

end Sys2Proof.Machine
end

section
/-!
PROOFS. ATTEND: what its checks leave, its acceptance, and the answer of its request (R140, R141, R166, R167).
-/

namespace Sys2Proof.Machine

/-! ### What the checks of an ATTEND leave (R140) -/

/-- Memory, the requests in flight and the taken commands. -/
def State.reqView (s : State) : List Host.Cell × List Req × List Cmd := (s.mem, s.reqs, s.cmds)

theorem State.reqView_eq_iff {s t : State} :
    t.reqView = s.reqView ↔ t.mem = s.mem ∧ t.reqs = s.reqs ∧ t.cmds = s.cmds := by
  simp only [State.reqView, Prod.mk.injEq]

theorem State.setReg_reqView (s : State) (fn off : Nat) (v : Word) : (s.setReg fn off v).reqView = s.reqView :=
  State.reqView_eq_iff.2 ⟨State.setReg_mem .., State.setReg_reqs .., State.setReg_cmds ..⟩

@[simp] theorem State.setRegB_reqView (s : State) (fn off i : Nat) (b : Bool) :
    (s.setRegB fn off i b).reqView = s.reqView := State.setReg_reqView ..

@[simp] theorem State.count_reqView (s : State) (fn off n : Nat) : (s.count fn off n).reqView = s.reqView :=
  State.setReg_reqView ..

@[simp] theorem State.setDir_reqView (s : State) (k : DirKey) (f : Dir → Dir) :
    (s.setDir k f).reqView = s.reqView := rfl

@[simp] theorem State.cplFault_reqView (s : State) (r : RecRef) : (s.cplFault r).reqView = s.reqView := by
  unfold State.cplFault
  extract_lets t
  have ht : t.reqView = s.reqView := (State.setRegB_reqView ..).trans (State.count_reqView ..)
  split
  · exact ht
  · exact ht

@[simp] theorem State.ownCheck_reqView (s : State) (p a n : Nat) : (s.ownCheck p a n).1.reqView = s.reqView := by
  unfold State.ownCheck
  split
  · exact State.cplFault_reqView ..
  split
  · exact State.cplFault_reqView ..
  split
  · rfl
  · exact State.setRegB_reqView ..

@[simp] theorem State.dirSeen_reqView (s : State) (k : DirKey) : (s.dirSeen k).reqView = s.reqView := by
  unfold State.dirSeen
  split
  · split
    · rfl
    split
    · rw [State.setDir_reqView, State.setRegB_reqView, State.count_reqView]
    · exact State.cplFault_reqView ..
  · rfl

/-- The checks on the key's entry read it, and change nothing else. -/
theorem State.attendEntry_reqView (s : State) (k : DirKey) (fmt kv first last : Nat) (scale : Word) :
    (s.attendEntry k fmt kv first last scale).1.reqView = s.reqView := by
  unfold State.attendEntry
  split
  · rfl
  split
  · rfl
  extract_lets t
  have ht : t.reqView = s.reqView := State.dirSeen_reqView ..
  split
  · exact ht
  (repeat' split) <;> exact ht

/-- The checks of an ATTEND count and flag what they meet, and mend the directory. -/
theorem State.attendCheck_reqView (s : State) (c : Cmd) : (s.attendCheck c).1.reqView = s.reqView := by
  unfold State.attendCheck
  extract_lets d inline
  split
  · rfl
  split
  · exact State.count_reqView ..
  split
  · rfl
  split
  · rfl
  split
  · rfl
  have hentry := s.attendEntry_reqView ⟨c.part, atSeq d, atLayer d⟩ (atFmt d) (atKv d) (atFirst d) (atLast d)
    (atScale d)
  split
  next u status hu =>
    rw [hu] at hentry
    split
    · exact hentry
    extract_lets mode
    split
    · exact (State.ownCheck_reqView ..).trans hentry
    split
    · exact hentry
    · exact hentry

/-! ### ATTEND (R140, R141) -/

/-- The request of an ATTEND whose queries came with its descriptor (R138, R141): in flight, and not yet of a stride. -/
def State.attendReq (s : State) (c : Cmd) (id : Nat) : Req :=
  { id := id, kindle := none, part := c.part, seq := atSeq c.desc, layer := atLayer c.desc, kv := atKv c.desc,
    g := atGroup c.desc, fmt := atFmt c.desc, posFirst := atFirst c.desc, posLast := atLast c.desc,
    scale := atScale c.desc,
    queries := cutRows (queryWidth (atFmt c.desc)) (atGroup c.desc) (sliceB c.payload (atAddr c.desc) (atLen c.desc)),
    tag := atTag c.desc, repro := atFlags c.desc / 2 % 2 == 1, isSealed := atFlags c.desc / 4 % 2 == 1, bare := false,
    conn := (s.route c (atDest c.desc)).1, unreachable := (s.route c (atDest c.desc)).2, stride := none,
    accepted := s.ms, deferred := false, retried := false, tailExcluded := false, missingAny := false, snapshot := 0,
    extFirst := 0, extLast := 0, jobs := [], missing := [], blks := [], emitted := 0, outcome := 8 }

/-- A running ATTEND that ends has the status and the result given, and keeps its DETAIL. -/
theorem State.endAttend_ends {s : State} {id : Nat} {c k : Cmd} (hid : c.id = id) (hcmd : s.cmd? id = some k)
    (hphase : k.phase ≠ .ended) (status result : Nat) :
    ∃ k', (s.endAttend c status result).cmd? id = some k' ∧ k'.phase = .ended ∧ k'.status = status ∧
      k'.result = BitVec.ofNat 32 result ∧ k'.detail = k.detail := by
  rw [State.endAttend, hid]
  exact ⟨_, State.cmd_endCmd s hcmd hphase, rfl, rfl, rfl, rfl⟩

section
variable {s u : State} {id : Nat} {c : Cmd} (hstart : s.starting? id 0 = some c)
include hstart

theorem State.runCmd_attendCheck {st : Nat} (hcheck : (s.runCmd id).attendCheck c = (u, st)) :
    u.mem = s.mem ∧ u.reqs = s.reqs ∧ u.cmd? id = some { c with phase := .running } := by
  have hview := (s.runCmd id).attendCheck_reqView c
  rw [hcheck] at hview
  obtain ⟨hmem, hreqs, hcmds⟩ := State.reqView_eq_iff.1 hview
  exact ⟨hmem.trans (State.runCmd_mem ..), hreqs.trans (State.runCmd_reqs ..),
    (State.cmd?_congr hcmds id).trans (State.cmd?_runCmd (State.cmd?_of_starting hstart).1)⟩

theorem execAttend_of_fails {st : Nat} (hcheck : (s.runCmd id).attendCheck c = (u, st)) (hst : st ≠ 0) :
    ∃ t k, exec (.attend id) s = .next t ∧ t.mem = s.mem ∧ t.reqs = s.reqs ∧ t.cmd? id = some k ∧ k.phase = .ended ∧
      k.status = st ∧ k.detail = c.detail := by
  have hexec : exec (.attend id) s = .next (u.endAttend c st 0) := by
    change execAttend id s = _
    simp only [execAttend, hstart, hcheck, hst, ne_eq, not_false_eq_true, if_true]
  obtain ⟨hmem, hreqs, hcmd⟩ := State.runCmd_attendCheck hstart hcheck
  have hid : c.id = id := State.id_of_cmd? (State.cmd?_of_starting hstart).1
  obtain ⟨k, hk, hended, hstatus, -, hdetail⟩ := State.endAttend_ends hid hcmd (by simp) st 0
  exact ⟨_, k, hexec, (State.endCmd_mem ..).trans hmem, (State.endCmd_reqs ..).trans hreqs, hk, hended, hstatus,
    hdetail⟩

theorem execAttend_of_passes (hcheck : (s.runCmd id).attendCheck c = (u, 0)) (hinline : atFlags c.desc % 2 = 1)
    (hfinite : ∀ q ∈ (u.attendReq c id).queries,
      rowFinite (queryFmt (atFmt c.desc % 8)) (headDim (atFmt c.desc / 8)) q = true) :
    exec (.attend id) s = .next (State.hwm { u with reqs := u.reqs ++ [u.attendReq c id] } 0 Reg.AT_INFLIGHT_HWM
      (u.reqs ++ [u.attendReq c id]).length) := by
  have hall : (cutRows (queryWidth (atFmt c.desc)) (atGroup c.desc)
      (sliceB c.payload (atAddr c.desc) (atLen c.desc))).all
      (rowFinite (queryFmt (atFmt c.desc % 8)) (headDim (atFmt c.desc / 8))) = true := List.all_eq_true.2 hfinite
  change execAttend id s = _
  simp only [execAttend, hstart, hcheck, hinline, ne_eq, not_true_eq_false, decide_true, Bool.not_true, Bool.false_and,
    Bool.false_eq_true, if_false, if_true, hall]
  rfl

end

/-! ### ATTEND_COMPLETE (R166, R167) -/

theorem State.dropBlks_cmds (s : State) (r : Req) : (s.dropBlks r).cmds = s.cmds := by
  rw [State.dropBlks, foldl_keeps State.cmds]
  intro t b
  unfold State.dropPlace
  split <;> rfl

theorem execAttendComplete_of_done {s : State} {id : Nat} {r : Req} {c : Cmd} (hreq : s.req? id = some r)
    (hcmd : s.cmd? id = some c) (hkindle : r.kindle = none) (hphase : c.phase = .running) (hdone : s.reqDone r = true) :
    ∃ t k, exec (.attendComplete id) s = .next t ∧ t.mem = s.mem ∧ t.cmd? id = some k ∧ k.phase = .ended ∧
      k.status = attendStatus r.finalOutcome ∧ k.result = BitVec.ofNat 32 r.result ∧ k.detail = c.detail := by
  have hexec : exec (.attendComplete id) s = .next (State.endAttend
      { s.dropBlks r with sent := (s.dropBlks r).sent.filter fun e => e.req != id } c (attendStatus r.finalOutcome)
      r.result) := by
    change execAttendComplete id s = _
    simp only [execAttendComplete, hreq, hcmd, hkindle, hphase, hdone, Option.isNone_none, and_self, if_true]
  have hid : c.id = id := State.id_of_cmd? hcmd
  have hcmd' : State.cmd? { s.dropBlks r with sent := (s.dropBlks r).sent.filter fun e => e.req != id } id = some c :=
    (State.cmd?_congr (s.dropBlks_cmds r) id).trans hcmd
  obtain ⟨k, hk, hanswer⟩ := State.endAttend_ends hid hcmd' (by simp [hphase]) (attendStatus r.finalOutcome) r.result
  exact ⟨_, k, hexec, (State.endCmd_mem ..).trans (s.dropBlks_mem r), hk, hanswer⟩

theorem execAttendComplete_of_owing {s : State} {id : Nat} {r : Req} (hreq : s.req? id = some r)
    (hdone : s.reqDone r = false) : exec (.attendComplete id) s = .next s := by
  change execAttendComplete id s = _
  cases hcmd : s.cmd? id with
  | none => simp only [execAttendComplete, hreq, hcmd]
  | some c => simp only [execAttendComplete, hreq, hcmd, hdone, Bool.false_eq_true, and_false, if_false]

/-! ### The statement -/

/-- Settles O30: an ATTEND from its checks to the answer of its request. -/
theorem attendIsAcceptedAndAnswered : Obligations.AttendIsAcceptedAndAnswered := by
  refine ⟨fun s u id c st hstart hcheck hst => execAttend_of_fails hstart hcheck hst,
    fun s u id c hstart hcheck hinline hfinite => ?_,
    fun s id r c hreq hcmd _ hkindle hphase hdone => execAttendComplete_of_done hreq hcmd hkindle hphase hdone,
    fun s id r hreq hdone => execAttendComplete_of_owing hreq hdone⟩
  obtain ⟨hmem, hreqs, -⟩ := State.runCmd_attendCheck hstart hcheck
  refine ⟨_, u.attendReq c id, execAttend_of_passes hstart hcheck hinline hfinite, (State.hwm_mem ..).trans hmem, ?_,
    rfl, rfl, rfl, rfl, rfl, rfl, rfl, rfl, rfl, rfl⟩
  rw [State.hwm_reqs, hreqs]

end Sys2Proof.Machine
end

section
/-!
PROOFS. The start of a span-job, and what it counts (R114, R128, R137, R148, R171).
-/

namespace Sys2Proof.Machine

/-! ### The registers at the start of a span-job (R114, R148) -/

theorem State.putCtx_regs (s : State) (c i : Nat) (v : JobCtx) : (s.putCtx c i v).regs = s.regs := rfl

theorem State.scratchWrite_regs (s : State) (c lo hi : Nat) : (s.scratchWrite c lo hi).regs = s.regs := rfl

theorem State.setJob_regs (s : State) (id span : Nat) (f : Job → Job) : (s.setJob id span f).regs = s.regs := rfl

theorem State.loadNext_regs (s : State) (c : Nat) : (s.loadNext c).regs = s.regs := by
  unfold State.loadNext
  extract_lets x
  split
  · split
    · exact State.putCtx_regs ..
    split
    · exact State.putCtx_regs ..
    · rfl
  · rfl

/-- With no latent error in scratch, reading it changes nothing. -/
theorem State.scratchRead_of_clean {s : State} (h : s.scratchEcc = []) (c lo hi : Nat) : s.scratchRead c lo hi = s := by
  rw [State.scratchRead, h]
  rfl

theorem State.scratchUE_of_clean {s : State} (h : s.scratchEcc = []) (c lo hi : Nat) : s.scratchUE c lo hi = false := by
  rw [State.scratchUE, h]
  rfl

/-- Units that the passes of a span-job move over the Chimney bus (R130, R148). -/
def State.busOf (s : State) (r : Req) (j : Job) : Nat :=
  (s.jobUnits r j.col j.pages).1 + (s.jobUnits r j.col j.pages).2 * (if 9 ≤ r.g then 2 else 1)

/-- The state once a span-job is counted, and the units that it moves over the bus are added to the counter of the stack
of its column (R137, R171). -/
def State.jobCounted (s : State) (j : Job) (units : Nat) : State :=
  if units = 0 then s.count 0 Reg.AT_SPANJOB_CNT 1
  else (s.count 0 Reg.AT_SPANJOB_CNT 1).count 0 (Reg.FL_CHIMNEY_CNT + 4 * (j.col / 32)) units

@[simp] theorem State.opens_scratchEcc (s : State) (a n : Nat) : (s.opens a n).scratchEcc = s.scratchEcc := by
  obtain ⟨acts, trr, regs, h⟩ := s.opens_eq a n
  rw [h]

/-- Counting depends on the registers alone. -/
theorem State.count_regs_congr {s t : State} (h : t.regs = s.regs) (fn off n : Nat) :
    (t.count fn off n).regs = (s.count fn off n).regs := by
  simp only [State.count, State.setReg, State.reg, h]

/-- Reading ranges of a node with no latent error opens their rows (R128, R370). -/
theorem State.foldl_opens_scanned_of_clean {s : State} (hecc : s.ecc = []) (rs : List (Nat × Nat)) :
    rs.foldl (fun (s : State) a => (s.opens a.1 a.2).scanned a.1 a.2) s =
      rs.foldl (fun (s : State) a => s.opens a.1 a.2) s := by
  induction rs generalizing s with
  | nil => rfl
  | cons a rs ih =>
    have hopen : (s.opens a.1 a.2).ecc = [] := (State.opens_ecc ..).trans hecc
    rw [List.foldl_cons, List.foldl_cons, State.scanned_of_clean hopen, ih hopen]

/-- A span-job is loaded with its query vectors: no register, no latent error of the tiers, and no unit on the bus. -/
theorem State.loadJob_leaves (s : State) (r : Req) (j : Job) (i : Nat) :
    (s.loadJob r j i).regs = s.regs ∧ (s.loadJob r j i).ecc = s.ecc ∧ (s.loadJob r j i).busOf r j = s.busOf r j :=
  ⟨rfl, rfl, rfl⟩

theorem State.loadJob_scratchEcc {s : State} (h : s.scratchEcc = []) (r : Req) (j : Job) (i : Nat) :
    (s.loadJob r j i).scratchEcc = [] := by
  simp [State.loadJob, State.putCtx, State.scratchWrite, h, tkeep]

/-- With no latent error a span-job starts by being counted. -/
theorem State.startJob_regs {s : State} (r : Req) (j : Job) (hecc : s.ecc = []) (hscratch : s.scratchEcc = []) :
    ∃ u : State, u.reg 0 Reg.AT_SPANJOB_CNT = s.reg 0 Reg.AT_SPANJOB_CNT ∧
      (s.startJob r j).regs = (u.jobCounted j (s.busOf r j)).regs := by
  unfold State.startJob
  extract_lets ctx s₁ ranges bus ue s₂ s₃ s₄ mt s₅ units s₆ v pages open_ w s₇ x s₈
  obtain ⟨hregs₁, hecc₁, hclean₁, hunits⟩ :
      s₁.regs = s.regs ∧ s₁.ecc = [] ∧ s₁.scratchEcc = [] ∧ units = s.busOf r j := by
    simp only [units, bus, s₁]
    split
    · exact ⟨rfl, hecc, hscratch, rfl⟩
    · obtain ⟨hregs, hecc', hbus⟩ := s.loadJob_leaves r j ctx
      exact ⟨hregs, hecc'.trans hecc, State.loadJob_scratchEcc hscratch .., hbus⟩
  have hue : ue = false := by
    simp [ue, State.scratchUE_of_clean hclean₁, State.hasUE_of_clean hecc₁]
  have h₂ : s₂ = ranges.foldl (fun (s : State) a => s.opens a.1 a.2) s₁ := State.foldl_opens_scanned_of_clean hecc₁ _
  have hclean₂ : s₂.scratchEcc = [] := by
    rw [h₂, foldl_keeps State.scratchEcc fun s (a : Nat × Nat) => State.opens_scratchEcc s a.1 a.2, hclean₁]
  have hreg₂ : s₂.reg 0 Reg.AT_SPANJOB_CNT = s.reg 0 Reg.AT_SPANJOB_CNT := by
    rw [h₂, foldl_keeps (fun t => t.reg 0 Reg.AT_SPANJOB_CNT) fun t (a : Nat × Nat) =>
      State.opens_reg t a.1 a.2 (regKey_inj.not.2 (by decide))]
    exact State.reg_congr hregs₁ ..
  have h₃ : s₃ = s₂ := State.scratchRead_of_clean hclean₂ ..
  have h₆ : s₆.regs = (s₂.jobCounted j (s.busOf r j)).regs := by
    have h₅ : s₅.regs = (s₂.count 0 Reg.AT_SPANJOB_CNT 1).regs := by rw [← h₃]; rfl
    simp only [s₆, hunits, State.jobCounted]
    split
    · exact h₅
    · exact State.count_regs_congr h₅ ..
  refine ⟨s₂, hreg₂, ?_⟩
  rw [hue, if_neg (by decide), State.loadNext_regs, State.setJob_regs, State.scratchWrite_regs, State.setScratch_regs,
    State.putCtx_regs]
  exact h₆

/-- A planned span-job whose time has come starts on a column that is ready for it (R148). -/
theorem execSpanJob_of_ready {s : State} {id span : Nat} {r : Req} {j : Job} (hreq : s.req? id = some r)
    (hjob : r.job? span = some j) (hawake : s.awake = true) (hstride : r.stride.isSome = true)
    (hphase : j.phase = .planned) (htime : j.notBefore ≤ s.ms) (hready : s.columnReady r j = true) :
    exec (.spanJob id span) s = .next (s.startJob r j) := by
  change execSpanJob id span s = _
  simp only [execSpanJob, hreq, hjob, hawake, hstride, hphase, htime, hready, and_self, if_true]

/-- A column whose bus counter would stand at the place of AT_SPANJOB_CNT (30,880 to 30,911, beyond the columns of a
node) has the units of the bus counted there too. -/
theorem State.startJob_reg_of_overlap {s : State} {r : Req} {j : Job} (hecc : s.ecc = []) (hscratch : s.scratchEcc = [])
    (hover : Reg.FL_CHIMNEY_CNT + 4 * (j.col / 32) = Reg.AT_SPANJOB_CNT) (hunits : s.busOf r j ≠ 0) :
    ((s.startJob r j).reg 0 Reg.AT_SPANJOB_CNT).toNat =
      min 0xFFFFFFFF (min 0xFFFFFFFF ((s.reg 0 Reg.AT_SPANJOB_CNT).toNat + 1) + s.busOf r j) := by
  obtain ⟨u, hu, hregs⟩ := State.startJob_regs r j hecc hscratch
  rw [State.reg_congr hregs, State.jobCounted, if_neg hunits, hover, State.reg_count_same, State.reg_count_same, hu]

/-! ### A span-job on a column that no node has -/

/-- A planned span-job on a column of number 30,880, which no node has, with one page. -/
def strayJob : Job :=
  { span := 0, col := 30880,
    pages := [{ part := 0, seq := 0, layer := 0, kv := 0, firstPos := 0, addr := 0x030000000000, size := 1024, obj := 0,
                use := .live, full := none }],
    planEnd := 0, phase := .planned, res := ⟨[], none⟩, scoreOk := false, valueOk := false, weightOk := false,
    rerun := false, notBefore := 0, overrun := false }

/-- A dispatched request whose one span-job stands on that column. -/
def strayReq : Req :=
  { id := 1, kindle := none, part := 0, seq := 0, layer := 0, kv := 0, g := 0, fmt := 0, posFirst := 0, posLast := 0,
    scale := 0, queries := [], tag := 0, repro := false, isSealed := false, bare := false, conn := none,
    unreachable := false, stride := some 0, accepted := 0, deferred := false, retried := false, tailExcluded := false,
    missingAny := false, snapshot := 0, extFirst := 0, extLast := 0, jobs := [strayJob], missing := [], blks := [],
    emitted := 0, outcome := 8 }

/-- The node after reset, with that request in flight. -/
def strayState : State := { State.reset with reqs := [strayReq] }

/-- Its score pass moves eight units over the bus, and it has no value pass. -/
theorem strayState_busOf : strayState.busOf strayReq strayJob = 8 := by decide +kernel

/-- Refutes O31: nothing in a state bounds the column of a span-job. The start of one on column 30,880 counts its eight
units of the Chimney bus at the address of FL_CHIMNEY_CNT0 plus 4 x 965, which is that of AT_SPANJOB_CNT, so that this
register goes from 0 to 9 and not to 1. -/
theorem not_spanJobsRunAndAreChecked : ¬ Obligations.SpanJobsRunAndAreChecked := by
  rintro ⟨h, -⟩
  have hready : strayState.columnReady strayReq strayJob = true := by decide
  obtain ⟨t, r', j', hexec, -, -, -, -, hcount⟩ :=
    h strayState 1 0 strayReq strayJob rfl rfl rfl rfl rfl (Nat.zero_le _) hready rfl rfl
  have ht : t = strayState.startJob strayReq strayJob :=
    Host.Outcome.next.inj (hexec.symm.trans (execSpanJob_of_ready rfl rfl rfl rfl rfl (Nat.zero_le _) hready))
  have hreg : strayState.reg 0 Reg.AT_SPANJOB_CNT = 0 := by decide
  have hbus : strayState.busOf strayReq strayJob ≠ 0 := by simp [strayState_busOf]
  rw [counted, ht, State.startJob_reg_of_overlap rfl rfl rfl hbus, strayState_busOf, hreg] at hcount
  exact absurd hcount (by decide)

end Sys2Proof.Machine
end

section
/-!
PROOFS. Embers that leave, and the verdicts that seal them (R162, R164, R177, R178, R187, R188).
-/

namespace Sys2Proof.Machine

/-! ### Requests -/

theorem State.id_of_req? {s : State} {id : Nat} {r : Req} (h : s.req? id = some r) : r.id = id := by
  simpa [State.req?] using List.find?_some h

/-- The request of a number after a change that keeps numbers. -/
theorem State.req_setReq {s : State} {id : Nat} {r : Req} (h : s.req? id = some r) (f : Req → Req)
    (hf : ∀ r, (f r).id = r.id) : (s.setReq id f).req? id = some (f r) := by
  have hmap : (s.setReq id f).req? id = (s.req? id).map fun r => if r.id = id then f r else r :=
    find_map_of s.reqs _ _ fun r => by by_cases hr : r.id = id <;> simp [hr, hf]
  rw [hmap, h, Option.map_some, if_pos (State.id_of_req? h)]

/-! ### A message of an ember is queued (R286, R297) -/

/-- An enqueue marks a depth and wakes ports: what neither changes stands. -/
theorem State.enqueued_keeps {β : Type} (g : State → β) (hwake : ∀ s u, g (State.wake s u) = g s)
    (hmark : ∀ s p tc, g (State.depthMark s p tc) = g s) (s : State) (i tc : Nat) : g (s.enqueued i tc) = g s := by
  rw [State.enqueued, foldl_keeps g]
  · exact hmark ..
  · intro t ex
    split
    · exact hwake ..
    · rfl

/-- The register of a function of its own holds the mark of a partition's queue depth (R332). -/
theorem State.depthMark_reg (s : State) (p tc : Nat) {off : Nat} (h : off < 0x20000) :
    (s.depthMark p tc).reg 0 off = s.reg 0 off :=
  State.reg_hwm_other _ _ (by simp only [regKey, vfOf]; omega)

/-- The message that carries an ember or a verdict of `id` over a connection. -/
def State.emberMsg (s : State) (i off id : Nat) (bs : List Byte) : TxMsg :=
  { num := (s.conn i).nextMsg2, op := 5, tc := 2, waykey := 0, base := off, len := bs.length, ext := [], data := bs,
    cut := 0, owner := .ember id, failed := false, charged := false, via := none, ready := s.ft.now.toNat }

theorem State.sendEmber_eq (s : State) (i off id : Nat) (bs : List Byte) :
    s.sendEmber i off id bs = (s.setConn i { s.conn i with
      tx := (s.conn i).tx ++ [s.emberMsg i off id bs], nextMsg2 := (s.conn i).nextMsg2 + 1 }).enqueued i 2 := rfl

theorem State.sendEmber_tx (s : State) (i off id : Nat) (bs : List Byte) :
    ((s.sendEmber i off id bs).conn i).tx = (s.conn i).tx ++ [s.emberMsg i off id bs] := by
  rw [State.sendEmber_eq, State.enqueued_keeps (fun t => (t.conn i).tx) (fun _ _ => rfl)
    (fun t p tc => by simp only [State.conn, State.depthMark, State.hwm_conns]), State.conn_setConn_same]

theorem State.sendEmber_reqs (s : State) (i off id : Nat) (bs : List Byte) :
    (s.sendEmber i off id bs).reqs = s.reqs := by
  rw [State.sendEmber_eq, State.enqueued_keeps State.reqs (fun _ _ => rfl) (fun _ _ _ => State.hwm_reqs ..)]
  rfl

theorem State.sendEmber_reg (s : State) (i off id : Nat) (bs : List Byte) {o : Nat} (h : o < 0x20000) :
    (s.sendEmber i off id bs).reg 0 o = s.reg 0 o := by
  rw [State.sendEmber_eq, State.enqueued_keeps (fun t => t.reg 0 o) (fun _ _ => rfl)
    (fun t p tc => t.depthMark_reg p tc h)]
  rfl

/-! ### An ember leaves (R162, R164, R177, R178) -/

/-- EMBER_ID of a header. -/
theorem ehId_ehMake (id digest dest tenant slot units len status kind verdict reason : Nat) :
    ehId (ehMake id digest dest tenant slot units len status kind verdict reason) = id % 2 ^ 64 := by
  unfold ehId ehMake
  simp (disch := omega) only [getF_setF_other, getF_setF_same]

/-- A request of which block `i` has left. -/
def Req.leave (r : Req) (i : Nat) : Req :=
  { r with emitted := r.emitted + 1, blks := r.blks.mapIdx fun k x => if k = i then { x with sent := true } else x }

theorem Req.leave_blks {r : Req} {i : Nat} {b : Blk} (h : r.blks[i]? = some b) :
    (r.leave i).blks[i]? = some { b with sent := true } := by
  simp [Req.leave, List.getElem?_mapIdx, h]

/-- A block of a request with a connection leaves as one ember: remembered, and sent to the block's place. -/
theorem State.emit1_of_conn (s : State) {r : Req} {k : Nat} (hconn : r.conn = some k) (i : Nat) (b : Blk)
    (hs : List Head) : ∃ e bs, s.emit1 r i b hs =
      State.sendEmber { s.setReq r.id fun r => r.leave i with sent := s.sent ++ [e] } k (b.slot * 256) e.id bs ∧
      e.req = r.id ∧ e.id = s.emberIdOf r b.num % 2 ^ 64 := by
  unfold State.emit1
  extract_lets miss flags body dest hdr e t
  refine ⟨e, pairBytes hdr ++ body, ?_, rfl, ehId_ehMake ..⟩
  simp only [hconn]
  rfl

/-- A check of merges that none disturbs and that ends well counts nothing (R176). -/
theorem MOut.settle_of_passed {x : MOut} (h : (x.settle 0).2 = 0) : x.settle 0 = (0, 0) := by
  unfold MOut.settle at h ⊢
  split at h
  · cases h
  split at h
  · cases h
  · rw [if_neg ‹_›, if_neg ‹_›, if_pos (.inr rfl)]

section
variable {s : State} {id i k f : Nat} {r : Req} {b : Blk} (hreq : s.req? id = some r) (hblk : r.blks[i]? = some b)
include hreq hblk

/-- EMBER_EMIT of a block that may leave. -/
theorem execEmberEmit_of_ready (hsent : b.sent = false) (houtcome : r.outcome = 8) (hstride : r.stride.isSome = true)
    (hspans : b.spans.all r.spanReady = true) (hconn : r.conn = some k) (hopen : (s.conn k).st = .opened)
    (hvalue : ((r.blockValue b s.draws).settle 0).2 = 0) :
    ∃ d hs, exec (.emberEmit id i 0) s = .next (State.emit1 { s with draws := d } r i b hs) := by
  change ∃ d hs, execEmberEmit id i 0 s = _
  have hnone : r.stride.isNone = false := by rw [← Option.not_isSome, hstride, Bool.not_true]
  simp only [execEmberEmit, hreq, hblk, hconn, hopen, hsent, houtcome, hnone, hspans,
    MOut.settle_of_passed hvalue, bne_self_eq_false, Bool.false_eq_true, Bool.not_true, ne_eq, not_true_eq_false,
    or_self, if_false, State.mergeCounted, if_true, OfNat.zero_ne_ofNat]
  split
  · exact ⟨s.draws + 1, _, rfl⟩
  · exact ⟨s.draws, _, rfl⟩

/-- A block that has left, or a span of which is not ready, stays. -/
theorem execEmberEmit_of_wait (h : b.sent = true ∨ b.spans.all r.spanReady = false) :
    exec (.emberEmit id i f) s = .next s := by
  change execEmberEmit id i f s = _
  simp only [execEmberEmit, hreq, hblk]
  rw [if_pos]
  rcases h with h | h
  · exact .inl h
  · exact .inr (.inr (.inr (by rw [h]; rfl)))

end

/-- An ember leaves. -/
theorem State.emit1_leaves {s : State} {r : Req} {k : Nat} {b : Blk} {i : Nat} (hreq : s.req? r.id = some r)
    (hblk : r.blks[i]? = some b) (hconn : r.conn = some k) (hs : List Head) :
    ∃ r' e m, (s.emit1 r i b hs).mem = s.mem ∧ (s.emit1 r i b hs).req? r.id = some r' ∧
      r'.blks[i]? = some { b with sent := true } ∧ r'.emitted = r.emitted + 1 ∧
      (s.emit1 r i b hs).sent = s.sent ++ [e] ∧ e.req = r.id ∧ e.id = s.emberIdOf r b.num % 2 ^ 64 ∧
      ((s.emit1 r i b hs).conn k).tx = (s.conn k).tx ++ [m] ∧ m.op = 5 ∧ m.tc = 2 ∧ m.base = b.slot * 256 ∧
      m.num = (s.conn k).nextMsg2 := by
  obtain ⟨e, bs, heq, hreq', hid⟩ := s.emit1_of_conn hconn i b hs
  refine ⟨r.leave i, e, s.emberMsg k (b.slot * 256) e.id bs, ?_, ?_, Req.leave_blks hblk, rfl, ?_, hreq', hid, ?_, rfl,
    rfl, rfl, rfl⟩
  · rw [heq, State.sendEmber_mem]
    rfl
  · rw [heq, State.req?, State.sendEmber_reqs]
    exact State.req_setReq hreq (fun r => r.leave i) fun _ => rfl
  · rw [heq, State.sendEmber_sent]
  · rw [heq, State.sendEmber_tx]
    rfl

/-! ### Verdicts (R187, R188) -/

theorem pairBytes_length (h : BitVec 256) : (pairBytes h).length = 64 := by simp [pairBytes]

/-- The embers sent, with the verdict of one noted. -/
def notedVerdict (l : List Sent) (e : Sent) (v : Nat) : List Sent :=
  l.map fun x => if x.id = e.id ∧ x.req = e.req then { x with verdict := some v } else x

theorem verdict_of_noted {l : List Sent} {e x : Sent} {v : Nat} (hx : x ∈ notedVerdict l e v) (hid : x.id = e.id)
    (hreq : x.req = e.req) : x.verdict = some v := by
  obtain ⟨y, -, rfl⟩ := List.mem_map.1 hx
  by_cases hy : y.id = e.id ∧ y.req = e.req
  · rw [if_pos hy]
  · rw [if_neg hy] at hid hreq
    exact absurd ⟨hid, hreq⟩ hy

/-- The verdict SEAL of an ember with a valid header, on its connection. -/
theorem State.sendVerdict_seal (s : State) {e : Sent} {k : Nat} (hconn : e.conn = some k) (hok : e.hdr.ok = true) :
    ∃ off h, s.sendVerdict e 1 0 =
      (State.count { s with sent := notedVerdict s.sent e 1 } 0 Reg.MG_SEAL_CNT 1).sendEmber k off e.id (pairBytes h) := by
  have hget : e.hdr.get? = some e.hdr.val := by rw [Pair.get?, if_pos hok]
  simp only [State.sendVerdict, hget, hconn, if_true]
  exact ⟨_, _, rfl⟩

/-- The checks behind an early ember have all passed on their first run (R188). -/
def Req.sealable (r : Req) (e : Sent) : Bool :=
  e.spans.all fun t => match r.job? t with
    | some j => j.phase == .done && !j.rerun && j.scoreOk && j.valueOk && j.weightOk
    | none => false

section
variable {s : State} {n : Nat} {e : Sent} {r : Req}
  (hfind : s.sent.find? (fun e => e.id == n && e.early && e.verdict.isNone) = some e) (hreq : s.req? e.req = some r)
include hfind hreq

theorem execSealEmber_of_sealable (hseal : r.sealable e = true) (htime : s.ms < e.left + 2) (hok : e.hdr.ok = true) :
    exec (.sealEmber n) s = .next (s.sendVerdict e 1 0) := by
  change execSealEmber n s = _
  simp only [execSealEmber, hfind, hreq]
  rw [if_pos ⟨hseal, htime⟩, if_pos hok]

theorem execSealEmber_of_not_sealable (hseal : r.sealable e = false) : exec (.sealEmber n) s = .next s := by
  change execSealEmber n s = _
  simp only [execSealEmber, hfind, hreq]
  rw [if_neg fun hc => absurd (hseal.symm.trans hc.1) (by decide)]

end

/-! ### The statement -/

/-- Settles O32: when an ember leaves, and when the checks behind an early one seal it. -/
theorem embersLeaveAndAreSealed : Obligations.EmbersLeaveAndAreSealed := by
  refine ⟨fun s id i k r b hreq hblk hsent houtcome hstride hspans hconn hopen hvalue => ?_,
    fun s id i f r b hreq hblk => execEmberEmit_of_wait hreq hblk,
    fun s n e r k hfind hreq hjobs htime hconn hok => ?_, fun s n e r j hfind hreq hjob => ?_⟩
  · obtain ⟨d, hs, hexec⟩ := execEmberEmit_of_ready hreq hblk hsent houtcome hstride hspans hconn hopen hvalue
    have hid : r.id = id := State.id_of_req? hreq
    subst hid
    obtain ⟨r', e, m, hmem, hr', hblks, hemitted, hsent', hereq, heid, htx, hm⟩ :=
      State.emit1_leaves (s := { s with draws := d }) hreq hblk hconn hs
    obtain ⟨ms, hms⟩ := Option.isSome_iff_exists.1 hstride
    have hid : State.emberIdOf { s with draws := d } r b.num = emberId s.nodeId (r.stride.getD 0) r.part b.num := by
      rw [State.emberIdOf, hms]
      rfl
    exact ⟨_, r', e, m, hexec, hmem, hr', hblks, hemitted, hsent', hereq, hid ▸ heid, htx, hm⟩
  · have hseal : r.sealable e = true := by
      refine List.all_eq_true.2 fun t ht => ?_
      obtain ⟨j, hj, hphase, hrerun, hscore, hvalue, hweight⟩ := hjobs t ht
      simp only [hj, hphase, hrerun, hscore, hvalue, hweight, beq_self_eq_true, Bool.not_false, Bool.and_self]
    obtain ⟨off, h, hsend⟩ := s.sendVerdict_seal hconn hok
    refine ⟨_, State.emberMsg s k off e.id (pairBytes h), execSealEmber_of_sealable hfind hreq hseal htime hok,
      ?_, ?_, ?_, ?_, rfl, pairBytes_length h⟩
    · rw [hsend, State.sendEmber_mem, State.count_mem]
    · rw [hsend]
      exact counted_congr (State.sendEmber_reg _ _ _ _ _ (by decide)) (counted_count { s with sent := _ } _ _)
    · rw [hsend, State.sendEmber_sent, State.count_sent]
      exact fun x hx => verdict_of_noted hx
    · rw [hsend, State.sendEmber_tx]
      simp only [State.conn, State.emberMsg, State.count_conns, State.count_ft]
  · obtain ⟨t, ht, hj, hfails⟩ := hjob
    refine execSealEmber_of_not_sealable hfind hreq (List.all_eq_false.2 ⟨t, ht, ?_⟩)
    rw [hj]
    rcases hfails with h | h | h <;> simp [h]

end Sys2Proof.Machine
end

section
/-!
PROOFS. A MERGE: its checks, its acceptance, the end of its wait, and its result (R182, R194, R195, R199, R200, R201,
R202, R296).
-/

namespace Sys2Proof.Machine

/-! ### The checks of a MERGE (R195) -/

@[simp] theorem State.cplFault_merges (s : State) (r : RecRef) : (s.cplFault r).merges = s.merges := by
  simp only [State.cplFault]
  split <;> simp

@[simp] theorem State.ownCheck_merges (s : State) (p a n : Nat) : (s.ownCheck p a n).1.merges = s.merges := by
  simp only [State.ownCheck]
  split
  · exact State.cplFault_merges ..
  · split
    · exact State.cplFault_merges ..
    · split <;> simp [State.ownerError]

/-- The checks of a MERGE count an unmapped address or do what the check of ownership does: what neither changes
stands. -/
theorem State.mergeCheck_keeps {β : Type} (g : State → β) {s : State} (hmapped : g s.unmappedError = g s)
    (hown : ∀ p a n, g (s.ownCheck p a n).1 = g s) (c : Cmd) : g (s.mergeCheck c).1 = g s := by
  unfold State.mergeCheck
  extract_lets d n
  split
  · rfl
  split
  · exact hmapped
  split
  · rfl
  split
  · rfl
  split
  · rfl
  split
  · rfl
  split
  · exact hown ..
  split <;> rfl

/-- A MERGE that passes its checks leaves the state as it was. -/
theorem State.mergeCheck_eq_zero {s u : State} {c : Cmd} (h : s.mergeCheck c = (u, 0)) : u = s := by
  unfold State.mergeCheck at h
  extract_lets d n at h
  split at h
  · cases h
  split at h
  · cases h
  split at h
  · cases h
  split at h
  · cases h
  split at h
  · cases h
  split at h
  · cases h
  split at h
  next hown => exact absurd (Prod.ext_iff.1 h).2 hown.2
  split at h
  · cases h
  · exact (Prod.ext_iff.1 h).1.symm

/-! ### MERGE (R194, R195) -/

/-- The way of the result of a MERGE: none when it goes to the node's own memory (R194, R296). -/
def State.mergeRoute (s : State) (c : Cmd) : Option Nat × Bool :=
  if c.resHere then (none, false) else s.route c (mgDest c.desc)

/-- The MERGE of a descriptor, before its result is reserved, with the way of its result. -/
def mergeOf (id : Nat) (c : Cmd) (rt : Option Nat × Bool) : Merge :=
  { id := id, kindle := none, part := c.part, repro := mgFlags c.desc == 1, g := mgGroup c.desc, fmt := mgFmt c.desc,
    sources := mgSources c.desc, wait := mgWait c.desc, posFirst := mgFirst c.desc, posLast := mgLast c.desc,
    conn := rt.1, unreachable := rt.2, resAddr := mgAddr c.desc, toHost := c.resHere, tag := mgTag c.desc,
    accepted := none, num := 0, slot := 0, units := emberUnits (mgRoom c.desc), inputs := [], values := [],
    missing := [], dedup := false, retried := false, outcome := 8 }

/-- A MERGE is taken, and its tag is no longer that of a completed one (R196). -/
def State.addMerge (s : State) (m : Merge) : State :=
  { s with merges := s.merges ++ [m]
           mergesDone := s.mergesDone.filter (· != (s.tenant m.part, m.tag.toNat)) }

theorem State.merge?_addMerge {s : State} {m : Merge} (h : ∀ x ∈ s.merges, x.id ≠ m.id) :
    (s.addMerge m).merge? m.id = some m := by
  have hnone : s.merges.find? (fun x => x.id == m.id) = none := List.find?_eq_none.2 fun x hx => by simp [h x hx]
  simp [State.merge?, State.addMerge, List.find?_append, hnone]

theorem State.runCmd_mergeRoute (s : State) (id : Nat) (c : Cmd) : (s.runCmd id).mergeRoute c = s.mergeRoute c := by
  obtain ⟨cs, ts, hrun⟩ := s.runCmd_eq id
  rw [hrun]
  rfl

section
variable {s u : State} {id : Nat} {c : Cmd} (hstart : s.starting? id 2 = some c)
include hstart

/-- The checks of a MERGE that starts leave memory, the MERGEs and its running command. -/
theorem State.runCmd_mergeCheck {st : Nat} (hcheck : (s.runCmd id).mergeCheck c = (u, st)) :
    u.mem = s.mem ∧ u.merges = s.merges ∧ u.cmd? id = some { c with phase := .running } := by
  have hmem := State.mergeCheck_keeps State.mem (State.unmappedError_mem _) (State.ownCheck_mem (s.runCmd id)) c
  have hmerges := State.mergeCheck_keeps State.merges (State.count_merges ..) (State.ownCheck_merges (s.runCmd id)) c
  have hcmds := State.mergeCheck_keeps State.cmds (State.count_cmds ..) (State.ownCheck_cmds (s.runCmd id)) c
  rw [hcheck] at hmem hmerges hcmds
  exact ⟨hmem.trans (State.runCmd_mem ..), hmerges.trans (State.runCmd_merges ..),
    (State.cmd?_congr hcmds id).trans (State.cmd?_runCmd (State.cmd?_of_starting hstart).1)⟩

theorem execMerge_of_fails {st : Nat} (hcheck : (s.runCmd id).mergeCheck c = (u, st)) (hst : st ≠ 0) :
    ∃ t k, exec (.merge id) s = .next t ∧ t.mem = s.mem ∧ t.merges = s.merges ∧ t.cmd? id = some k ∧
      k.phase = .ended ∧ k.status = st ∧ k.detail = c.detail := by
  have hexec : exec (.merge id) s = .next (u.endCmd id st 0) := by
    change execMerge id s = _
    simp only [execMerge, hstart, hcheck, hst, ne_eq, not_false_eq_true, if_true]
  obtain ⟨hmem, hmerges, hcmd⟩ := State.runCmd_mergeCheck hstart hcheck
  exact ⟨_, _, hexec, (State.endCmd_mem ..).trans hmem, (State.endCmd_merges ..).trans hmerges,
    State.cmd_endCmd u hcmd (by simp), rfl, rfl, rfl⟩

theorem execMerge_of_passes (hcheck : (s.runCmd id).mergeCheck c = (u, 0)) :
    exec (.merge id) s = .next (((s.runCmd id).addMerge (mergeOf id c (s.mergeRoute c))).mergeReserve id) := by
  have hu : u = s.runCmd id := State.mergeCheck_eq_zero hcheck
  subst hu
  change execMerge id s = _
  simp only [execMerge, hstart, hcheck, ne_eq, not_true_eq_false, if_false]
  rw [← s.runCmd_mergeRoute id c]
  rfl

end

/-! ### The end of a MERGE (R182, R201, R202) -/

theorem State.freeRecv_cmds (s : State) (r : Recv) : (s.freeRecv r).cmds = s.cmds := by
  simp only [State.freeRecv]
  split <;> rfl

theorem State.dropRecv_cmds (s : State) (r : Recv) : (s.dropRecv r).cmds = s.cmds := by
  simp only [State.dropRecv]
  split
  · rfl
  · exact s.freeRecv_cmds r

/-- Returned credits wait beside the messages of a connection. -/
theorem State.freeRecv_tx (s : State) (r : Recv) (k : Nat) : ((s.freeRecv r).conn k).tx = (s.conn k).tx := by
  simp only [State.freeRecv]
  split
  next i hi =>
    by_cases hk : k = i
    · subst hk
      rw [State.conn_setConn_same]
      rfl
    · rw [State.conn_setConn_other _ _ hk]
      rfl
  · rfl

theorem State.dropRecv_tx (s : State) (r : Recv) (k : Nat) : ((s.dropRecv r).conn k).tx = (s.conn k).tx := by
  simp only [State.dropRecv]
  split
  · rfl
  · exact s.freeRecv_tx r k

/-- A completed MERGE drops its inputs and notes its tag: what a dropped input leaves, and is not that note, stands. -/
theorem State.mergePast_keeps {β : Type} (g : State → β) (hdrop : ∀ s r, g (State.dropRecv s r) = g s)
    (hdone : ∀ s l, g { s with mergesDone := l } = g s) (s : State) (m : Merge) : g (s.mergePast m) = g s :=
  (hdone ..).trans (foldl_keeps g hdrop ..)

theorem State.endMerge_endedWith {s : State} {m : Merge} {c : Cmd} (hcmd : s.cmd? m.id = some c)
    (hphase : c.phase ≠ .ended) (status : Nat) : (s.endMerge m status).endedWith m.id status := by
  refine State.endCmd_endedWith (c := c) ?_ hphase status _
  split
  · exact (State.cmd?_congr (State.mergePast_keeps State.cmds State.dropRecv_cmds (fun _ _ => rfl) s m) _).trans hcmd
  · exact hcmd

theorem State.endMerge_tx (s : State) (m : Merge) (status k : Nat) :
    ((s.endMerge m status).conn k).tx = (s.conn k).tx := by
  simp only [State.endMerge, State.conn, State.endCmd_conns]
  split
  · exact State.mergePast_keeps (fun t => (t.conn k).tx) (fun t r => t.dropRecv_tx r k) (fun _ _ => rfl) s m
  · rfl

/-! ### The reservation of the result (R178, R181, R195, R196) -/

theorem State.takeNums_of_left {s : State} {p ms : Nat} (h : s.numsUsed p ms < 16384) :
    ∃ l, s.takeNums p ms 1 = some ({ s with emberNums := l }, s.numsUsed p ms) := by
  simp only [State.takeNums]
  rw [if_neg (by omega)]
  exact ⟨_, rfl⟩

theorem State.id_of_merge? {s : State} {id : Nat} {m : Merge} (h : s.merge? id = some m) : m.id = id := by
  simpa [State.merge?] using List.find?_some h

/-- The MERGE of a number after a change that keeps numbers. -/
theorem State.merge?_setMerge {s : State} {id : Nat} {m : Merge} (h : s.merge? id = some m) (f : Merge → Merge)
    (hf : ∀ m, (f m).id = m.id) : (s.setMerge id f).merge? id = some (f m) := by
  have hmap : (s.setMerge id f).merge? id = (s.merge? id).map fun m => if m.id = id then f m else m :=
    find_map_of s.merges _ _ fun m => by by_cases hm : m.id = id <;> simp [hm, hf]
  rw [hmap, h, Option.map_some, if_pos (State.id_of_merge? h)]

/-- The place of the result of a MERGE: the node's own memory needs none (R181, R194). -/
def State.resultPlace (s : State) (m : Merge) (ember : Nat) : Option (State × List Nat) :=
  if m.toHost then some (s, [0]) else s.takePlaces m.part m.conn [(ember, m.units)]

/-- A result for the node's own memory, or for a connection that holds its units, gets its place. -/
theorem State.resultPlace_of_place (s : State) {m : Merge} (ember : Nat)
    (hplace : m.toHost = true ∨ ∃ k x, m.conn = some k ∧ (s.conn k).takeUnits [m.units] [] = some x) :
    ∃ t slots, s.resultPlace m ember = some (t, slots) ∧ t.merges = s.merges ∧ t.recv = s.recv := by
  by_cases hhost : m.toHost = true
  · exact ⟨s, [0], if_pos hhost, rfl, rfl⟩
  · obtain ⟨k, x, hconn, hx⟩ := hplace.resolve_left hhost
    refine ⟨s.setConn k x.1, x.2, ?_, rfl, rfl⟩
    simp only [State.resultPlace, hhost, hconn, State.takePlaces, List.map_cons, List.map_nil, hx]
    rfl

section
variable {s : State} {id : Nat} {m : Merge} (hm : s.merge? id = some m) (hnew : m.accepted = none)
include hm hnew

/-- Without an OPEN connection to its destination a MERGE ends (R296). -/
theorem State.mergeReserve_of_unreachable (hway : m.unreachable = true) : s.mergeReserve id = s.endMerge m 0x0B := by
  simp only [State.mergeReserve, hm, hnew, hway, Option.isSome_none, Bool.false_eq_true, if_false, if_true]

/-- With a number left, a place for its result and no ember held for it, a MERGE is accepted. -/
theorem State.mergeReserve_accepts (hway : m.unreachable = false) (hnums : s.numsUsed m.part s.ms < 16384)
    (hrecv : s.recv = [])
    (hplace : m.toHost = true ∨ ∃ k x, m.conn = some k ∧ (s.conn k).takeUnits [m.units] [] = some x) :
    ∃ num slot, (s.mergeReserve id).merge? id = some { m with accepted := some s.ms, num := num, slot := slot } := by
  obtain ⟨l, hl⟩ := State.takeNums_of_left hnums
  obtain ⟨t, slots, hgot, hmerges, hrecv'⟩ := State.resultPlace_of_place { s with emberNums := l }
    (emberId s.nodeId s.ms m.part (s.numsUsed m.part s.ms)) hplace
  have hreserve : s.mergeReserve id = t.setMerge id fun x =>
      { x with accepted := some s.ms, num := s.numsUsed m.part s.ms, slot := slots.headD 0 } := by
    rw [State.resultPlace] at hgot
    simp only [State.mergeReserve, hm, hnew, hway, hl, hgot, State.setMerge_recv, hrecv'.trans hrecv,
      Option.isSome_none, Bool.false_eq_true, if_false, List.filter_nil, List.foldl_nil]
  have hm' : t.merge? id = some m := by
    rw [State.merge?, hmerges]
    exact hm
  rw [hreserve]
  exact ⟨_, _, State.merge?_setMerge hm' _ fun _ => rfl⟩

end

/-- The MERGE of a command that starts, before its result is reserved. -/
theorem State.merge?_start {s : State} {id : Nat} (hnew : ∀ m ∈ s.merges, m.id ≠ id) (c : Cmd)
    (rt : Option Nat × Bool) : ((s.runCmd id).addMerge (mergeOf id c rt)).merge? id = some (mergeOf id c rt) := by
  refine State.merge?_addMerge (m := mergeOf id c rt) ?_
  rw [State.runCmd_merges]
  exact hnew

section
variable {s u : State} {id : Nat} {c : Cmd} (hstart : s.starting? id 2 = some c)
  (hcheck : (s.runCmd id).mergeCheck c = (u, 0)) (hnew : ∀ m ∈ s.merges, m.id ≠ id)
include hstart hcheck hnew

theorem execMerge_accepts (hnums : s.numsUsed c.part s.ms < 16384) (hrecv : s.recv = [])
    (hway : (s.mergeRoute c).2 = false) (hplace : c.resHere = true ∨ ∃ k x, (s.mergeRoute c).1 = some k ∧
      (s.conn k).takeUnits [emberUnits (mgRoom c.desc)] [] = some x) :
    ∃ t num slot, exec (.merge id) s = .next t ∧ t.mem = s.mem ∧
      t.merge? id = some { mergeOf id c (s.mergeRoute c) with accepted := some s.ms, num := num, slot := slot } := by
  have hstarted := State.merge?_start hnew c (s.mergeRoute c)
  have hexec := execMerge_of_passes hstart hcheck
  obtain ⟨cs, ts, hrun⟩ := s.runCmd_eq id
  rw [hrun] at hstarted hexec
  obtain ⟨num, slot, hm⟩ := State.mergeReserve_accepts hstarted rfl hway hnums hrecv hplace
  exact ⟨_, num, slot, hexec, State.mergeReserve_mem .., hm⟩

theorem execMerge_of_unreachable (hway : (s.mergeRoute c).2 = true) :
    ∃ t, exec (.merge id) s = .next t ∧ t.mem = s.mem ∧ t.endedWith id 0x0B := by
  have hstarted := State.merge?_start hnew c (s.mergeRoute c)
  have hexec := execMerge_of_passes hstart hcheck
  rw [State.mergeReserve_of_unreachable hstarted rfl hway] at hexec
  have hcmd : ((s.runCmd id).addMerge (mergeOf id c (s.mergeRoute c))).cmd? id = some { c with phase := .running } :=
    State.cmd?_runCmd (State.cmd?_of_starting hstart).1
  exact ⟨_, hexec, (State.endMerge_mem ..).trans (State.runCmd_mem ..),
    State.endMerge_endedWith (m := mergeOf id c (s.mergeRoute c)) hcmd (by simp) 0x0B⟩

end

/-! ### The wait for the inputs (R199, R201) -/

/-- The MERGE of a command is open while its command runs. -/
theorem State.cmd_of_mergeOpen {s : State} {m : Merge} (hopen : s.mergeOpen m = true) (hkindle : m.kindle = none) :
    m.accepted.isSome = true ∧ ∃ c, s.cmd? m.id = some c ∧ c.phase ≠ .ended := by
  simp only [State.mergeOpen, hkindle, Option.isSome_none, Bool.false_or, Bool.and_eq_true] at hopen
  refine ⟨hopen.1, ?_⟩
  cases hcmd : s.cmd? m.id with
  | none => simp [hcmd] at hopen
  | some c =>
    simp only [hcmd, beq_iff_eq] at hopen
    exact ⟨c, rfl, by simp [hopen.2]⟩

theorem State.waitExpired_iff {s : State} {m : Merge} {a : Nat} (h : m.accepted = some a) :
    s.waitExpired m = true ↔ m.kindle = none ∧ hasInputs m (s.inputsOf m) = false ∧ a + m.wait ≤ s.ms := by
  simp only [State.waitExpired, h, Bool.and_eq_true, Option.isNone_iff_eq_none, Bool.not_eq_true', decide_eq_true_eq,
    and_assoc]

section
variable {s : State} {id : Nat} {m : Merge} (hm : s.merge? id = some m)
include hm

theorem execMergeWaitTimeout_of_expired (hopen : s.mergeOpen m = true) (h : s.waitExpired m = true) :
    exec (.mergeWaitTimeout id) s = .next (s.mergeOutcome id 5) := by
  change execMergeWaitTimeout id s = _
  simp only [execMergeWaitTimeout, hm]
  rw [if_pos ⟨hopen, h⟩]

theorem execMergeWaitTimeout_of_not_expired (h : s.waitExpired m = false) :
    exec (.mergeWaitTimeout id) s = .next s := by
  change execMergeWaitTimeout id s = _
  simp only [execMergeWaitTimeout, hm, h, Bool.false_eq_true, and_false, if_false]

end

/-! ### The result of a MERGE (R199 to R202) -/

section
variable {s : State} {id : Nat} {m : Merge} (hm : s.merge? id = some m)
include hm

theorem execMergeResultSend_of_decided {f : Nat} (hkindle : m.kindle = none) (hopen : s.mergeOpen m = true)
    (h : m.outcome < 6 ∨ hasInputs m (s.inputsOf m) = true ∧ ∀ r ∈ s.inputsOf m, r.sealedOk = true) :
    exec (.mergeResultSend id f) s = .next (s.finishMerge m f) := by
  have hready : m.outcome < 6 ∨ hasInputs m (s.inputsOf m) ∧
      (s.inputsOf m).all (fun r => r.sealedOk || r.header?.isNone) := by
    refine h.imp_right fun ⟨hin, hall⟩ => ⟨hin, List.all_eq_true.2 fun r hr => ?_⟩
    rw [hall r hr, Bool.true_or]
  change execMergeResultSend id f s = _
  simp only [execMergeResultSend, hm, hkindle, hopen, Option.isSome_none, Bool.false_eq_true, Bool.not_true, or_self,
    if_false]
  rw [if_pos hready]

theorem execMergeResultSend_of_waiting {f : Nat} (houtcome : 6 ≤ m.outcome)
    (hin : hasInputs m (s.inputsOf m) = false) : exec (.mergeResultSend id f) s = .next s := by
  change execMergeResultSend id f s = _
  simp only [execMergeResultSend, hm, hin, Bool.false_eq_true, false_and, or_false, Nat.not_lt.2 houtcome, if_false,
    ite_self]

end

/-- Only an ember with a valid header is sealed (R65, R191). -/
theorem Recv.header?_of_sealedOk {r : Recv} (h : r.sealedOk = true) : r.header?.isNone = false := by
  cases hh : r.header? with
  | none => simp [Recv.sealedOk, hh] at h
  | some g => rfl

/-- The result of a MERGE has gone over a connection as one message, and its command has ended with a status. -/
def State.answered (s t : State) (id k status : Nat) : Prop :=
  ∃ x, t.mem = s.mem ∧ t.endedWith id status ∧ (t.conn k).tx = (s.conn k).tx ++ [x] ∧ x.op = 5

theorem State.sendEmber_cmds (s : State) (i off id : Nat) (bs : List Byte) :
    (s.sendEmber i off id bs).cmds = s.cmds := by
  rw [State.sendEmber_eq, State.enqueued_keeps State.cmds (fun _ _ => rfl) (fun _ _ _ => State.hwm_cmds ..)]
  rfl

section
variable {m : Merge} {k : Nat} (hhost : m.toHost = false) (hconn : m.conn = some k)
include hhost hconn

/-- The result of a MERGE with a connection leaves as one ember. -/
theorem State.sendResult_of_conn (s : State) (status level first snapshot : Nat) (tail : Bool) (hs : List Head)
    (miss : List (Nat × Nat)) : ∃ off n bs,
      s.sendResult m status level first snapshot tail hs miss = s.sendEmber k off n bs := by
  simp only [State.sendResult, hhost, hconn, Bool.false_eq_true, if_false]
  exact ⟨_, _, _, rfl⟩

/-- Sending the result of a MERGE over its connection and ending the MERGE answers its command. -/
theorem State.answered_of_sendResult {s : State} {c : Cmd} (hcmd : s.cmd? m.id = some c) (hphase : c.phase ≠ .ended)
    (ember level first snapshot : Nat) (tail : Bool) (hs : List Head) (miss : List (Nat × Nat)) (status : Nat) :
    s.answered ((s.sendResult m ember level first snapshot tail hs miss).endMerge m status) m.id k status := by
  obtain ⟨off, n, bs, hsend⟩ := State.sendResult_of_conn hhost hconn s ember level first snapshot tail hs miss
  rw [hsend]
  refine ⟨s.emberMsg k off n bs, ?_, ?_, ?_, rfl⟩
  · rw [State.endMerge_mem, State.sendEmber_mem]
  · exact State.endMerge_endedWith ((State.cmd?_congr (s.sendEmber_cmds ..) _).trans hcmd) hphase status
  · rw [State.endMerge_tx, State.sendEmber_tx]

section
variable {s : State} (hopen : s.mergeOpen m = true) (hkindle : m.kindle = none)
include hopen hkindle

/-- A decided MERGE without inputs reports its outcome. -/
theorem State.finishMerge_of_decided (houtcome : m.outcome < 6) (hinputs : m.inputs = []) (f : Nat) :
    s.answered (s.finishMerge m f) m.id k (mergeStatus m.outcome) := by
  obtain ⟨haccepted, c, hcmd, hphase⟩ := State.cmd_of_mergeOpen hopen hkindle
  have hin : s.inputsOf m = [] := by rw [State.inputsOf, hinputs]; rfl
  have hfinish : s.finishMerge m f = s.reportMerge m (mergeStatus m.outcome) [] := by
    simp only [State.finishMerge, hin, List.filter_nil, List.isEmpty_nil, Bool.not_true, Bool.false_eq_true, if_false,
      houtcome, if_true]
  rw [hfinish, State.reportMerge]
  simp only [haccepted, if_true]
  exact State.answered_of_sendResult hhost hconn hcmd hphase ..

/-- A MERGE whose inputs are sealed, cover its range and give a value sends that value. -/
theorem State.finishMerge_of_value {hs : List Head} (houtcome : 6 ≤ m.outcome)
    (hsealed : ∀ r ∈ s.inputsOf m, r.sealedOk = true) (hmissing : (mergeMissing m (s.inputsOf m)).1 = [])
    (hgaps : (mergeMissing m (s.inputsOf m)).2 = []) (hvalue : ((mergeFinal m (s.inputsOf m)).1.settle 0).2 = 0)
    (hheads : (mergeFinal m (s.inputsOf m)).1.val = some hs) :
    s.answered (s.finishMerge m 0) m.id k (if mergeTail (s.inputsOf m) then 1 else 0) := by
  obtain ⟨-, c, hcmd, hphase⟩ := State.cmd_of_mergeOpen hopen hkindle
  have hbad : (s.inputsOf m).filter (fun r => r.header?.isNone) = [] :=
    List.filter_eq_nil_iff.2 fun r hr => by simp [Recv.header?_of_sealedOk (hsealed r hr)]
  have hstatus : mergeStatus (if mergeTail (s.inputsOf m) then 7 else 8) =
      if mergeTail (s.inputsOf m) then 1 else 0 := by split <;> rfl
  have hlost : sortNat ([] ++ []) = [] := rfl
  have hfinish : s.finishMerge m 0 = (s.sendResult m (mergeStatus (if mergeTail (s.inputsOf m) then 7 else 8))
      (mergeFinal m (s.inputsOf m)).2.1 (mergeFinal m (s.inputsOf m)).2.2
      ((s.inputsOf m).foldl (fun a r => max a (ebSnapshot r.body)) 0) (mergeTail (s.inputsOf m)) hs []).endMerge m
      (mergeStatus (if mergeTail (s.inputsOf m) then 7 else 8)) := by
    simp only [State.finishMerge, hbad, List.isEmpty_nil, Bool.not_true, Bool.false_eq_true, if_false,
      Nat.not_lt.2 houtcome, hmissing, hgaps, hlost, MOut.settle_of_passed hvalue, State.mergeCounted, hheads,
      if_true, OfNat.zero_ne_ofNat, ne_eq, not_true_eq_false, beq_self_eq_true, Bool.and_true, Bool.or_false,
      Nat.reduceBEq]
  rw [hfinish, hstatus]
  exact State.answered_of_sendResult hhost hconn hcmd hphase ..

end

end

/-! ### The statement -/

/-- Settles O34: a MERGE from its checks to its result. -/
theorem mergesAreAcceptedAndFinish : Obligations.MergesAreAcceptedAndFinish := by
  refine ⟨fun s u id c st hstart hcheck hst => execMerge_of_fails hstart hcheck hst,
    fun s u id c hstart hcheck hhere hnew hnums hrecv => ?_,
    fun s u id k c x hstart hcheck hhere hroute hunits hnew hnums hrecv => ?_,
    fun s u id c hstart hcheck hhere hroute hnew => ?_, fun s id m a hm haccepted hkindle hopen hwait hin => ?_,
    fun s id m a hm haccepted hwait => ?_, fun s id f k m hm hkindle hopen houtcome hinputs hhost hconn => ?_,
    fun s id k m ins hs hm hkindle hopen houtcome hins hin hsealed hmissing hgaps hvalue hheads hhost hconn => ?_,
    fun s id f m hm houtcome hin => execMergeResultSend_of_waiting hm houtcome hin⟩
  · have hway : s.mergeRoute c = (none, false) := if_pos hhere
    obtain ⟨t, num, slot, hexec, hmem, hm⟩ :=
      execMerge_accepts hstart hcheck hnew hnums hrecv (by rw [hway]) (.inl hhere)
    exact ⟨t, _, hexec, hmem, hm, rfl, rfl, rfl, rfl, rfl, rfl, rfl, hhere⟩
  · have hway : s.mergeRoute c = (some k, false) := (if_neg (by simp [hhere])).trans hroute
    obtain ⟨t, num, slot, hexec, hmem, hm⟩ := execMerge_accepts hstart hcheck hnew hnums hrecv (by rw [hway])
      (.inr ⟨k, x, by rw [hway], hunits⟩)
    exact ⟨t, _, hexec, hmem, hm, rfl, rfl, rfl, rfl, rfl, rfl, congrArg Prod.fst hway, hhere⟩
  · have hway : s.mergeRoute c = s.route c (mgDest c.desc) := if_neg (by simp [hhere])
    exact execMerge_of_unreachable hstart hcheck hnew (by rw [hway, hroute])
  · exact ⟨_, _, execMergeWaitTimeout_of_expired hm hopen ((State.waitExpired_iff haccepted).2 ⟨hkindle, hin, hwait⟩),
      State.mergeOutcome_mem .., State.setMerge_regs .., State.merge?_setMerge hm _ fun _ => rfl, rfl⟩
  · refine execMergeWaitTimeout_of_not_expired hm (Bool.eq_false_iff.2 fun h => ?_)
    obtain ⟨-, -, hover⟩ := (State.waitExpired_iff haccepted).1 h
    omega
  · obtain ⟨x, hanswered⟩ := State.finishMerge_of_decided hhost hconn hopen hkindle houtcome hinputs f
    rw [State.id_of_merge? hm] at hanswered
    exact ⟨_, x, execMergeResultSend_of_decided hm hkindle hopen (.inl houtcome), hanswered⟩
  · subst hins
    obtain ⟨x, hanswered⟩ :=
      State.finishMerge_of_value hhost hconn hopen hkindle houtcome hsealed hmissing hgaps hvalue hheads
    rw [State.id_of_merge? hm] at hanswered
    exact ⟨_, x, execMergeResultSend_of_decided hm hkindle hopen (.inr ⟨hin, hsealed⟩), hanswered⟩

end Sys2Proof.Machine
end

section
/-!
PROOFS. What the reads of an engine leave (R128, R370, R458), whatever latent errors they meet.
-/

namespace Sys2Proof.Machine

/-- The registers in which a read counts and flags the latent errors and the activations that it meets. -/
def readRegs : List Nat :=
  [Reg.FL_CE_CNT, Reg.FL_UE_CNT, Reg.FL_ERR_STAT, Reg.FX_WARM_CE_CNT, Reg.FX_WARM_UE_CNT, Reg.FX_SRAM_CE_CNT,
    Reg.FX_SRAM_UE_CNT, Reg.FX_ERR_STAT, Reg.FX_TRR_CNT]

/-- The second state is the first after reads: they change what is known of the storage, the draws of free values, and
the registers of a read. -/
structure State.ReadTo (s t : State) : Prop where
  frame : ∃ acts trr corrected due ecc draws regs, t = { s with
    acts := acts, trr := trr, corrected := corrected, remapDue := due, ecc := ecc, draws := draws, regs := regs }
  reg : ∀ {fn off : Nat}, (∀ x ∈ readRegs, regKey fn off ≠ regKey 0 x) → t.reg fn off = s.reg fn off

namespace State.ReadTo

theorem refl (s : State) : s.ReadTo s := ⟨⟨_, _, _, _, _, _, _, rfl⟩, fun _ => rfl⟩

theorem trans {s t u : State} (h : s.ReadTo t) (h' : t.ReadTo u) : s.ReadTo u := by
  refine ⟨?_, fun hx => (h'.reg hx).trans (h.reg hx)⟩
  obtain ⟨_, _, _, _, _, _, _, rfl⟩ := h.frame
  obtain ⟨_, _, _, _, _, _, _, rfl⟩ := h'.frame
  exact ⟨_, _, _, _, _, _, _, rfl⟩

/-- A fold whose every step reads is a read. -/
theorem foldl {α : Type} {f : State → α → State} (h : ∀ (s : State) a, s.ReadTo (f s a)) (l : List α) (s : State) :
    s.ReadTo (l.foldl f s) := by
  induction l generalizing s with
  | nil => exact refl s
  | cons a l ih => exact (h s a).trans (ih _)

theorem setReg (s : State) {off : Nat} (v : Word) (h : off ∈ readRegs) : s.ReadTo (s.setReg 0 off v) :=
  ⟨⟨_, _, _, _, _, _, _, rfl⟩, fun hx => State.reg_setReg_other s v (hx off h)⟩

/-- What reads leave of a state is read off from the record. -/
theorem keeps {β : Type} {s t : State} (h : s.ReadTo t) (g : State → β)
    (hg : ∀ acts trr corrected due ecc draws regs, g s = g { s with
      acts := acts, trr := trr, corrected := corrected, remapDue := due, ecc := ecc, draws := draws, regs := regs }) :
    g t = g s := by
  obtain ⟨_, _, _, _, _, _, _, rfl⟩ := h.frame
  exact (hg ..).symm

section
variable {s t : State} (h : s.ReadTo t)
include h

theorem mem : t.mem = s.mem := h.keeps State.mem fun _ _ _ _ _ _ _ => rfl
theorem cmds : t.cmds = s.cmds := h.keeps State.cmds fun _ _ _ _ _ _ _ => rfl
theorem kindles : t.kindles = s.kindles := h.keeps State.kindles fun _ _ _ _ _ _ _ => rfl
theorem slots : t.slots = s.slots := h.keeps State.slots fun _ _ _ _ _ _ _ => rfl
theorem dir : t.dir = s.dir := h.keeps State.dir fun _ _ _ _ _ _ _ => rfl
theorem objs : t.objs = s.objs := h.keeps State.objs fun _ _ _ _ _ _ _ => rfl
theorem images : t.images = s.images := h.keeps State.images fun _ _ _ _ _ _ _ => rfl
theorem identity : t.identity = s.identity := h.keeps State.identity fun _ _ _ _ _ _ _ => rfl
theorem chart : t.chart = s.chart := h.keeps State.chart fun _ _ _ _ _ _ _ => rfl
theorem arrayUsed : t.arrayUsed = s.arrayUsed := h.keeps State.arrayUsed fun _ _ _ _ _ _ _ => rfl

end

end State.ReadTo

theorem State.countEcc_readTo (s : State) (a : Nat) (ue : Bool) : s.ReadTo (s.countEcc a ue) := by
  have hflag {cnt stat : Nat} (i : Nat) (hcnt : cnt ∈ readRegs) (hstat : stat ∈ readRegs) :
      s.ReadTo ((s.count 0 cnt 1).setRegB 0 stat i true) := (ReadTo.setReg s _ hcnt).trans (ReadTo.setReg _ _ hstat)
  simp only [State.countEcc]
  (repeat' split) <;> exact hflag _ (by decide) (by decide)

theorem State.wantRemap_readTo (s : State) (r : Nat) : s.ReadTo (s.wantRemap r) := by
  simp only [State.wantRemap]
  split
  · exact .refl s
  · exact ⟨⟨_, _, _, _, _, _, _, rfl⟩, fun _ => rfl⟩

theorem State.noteCorrected_readTo (s : State) (r : Nat) : s.ReadTo (s.noteCorrected r) := by
  have hnote (l : List (Nat × Nat)) : s.ReadTo { s with corrected := l } := ⟨⟨_, _, _, _, _, _, _, rfl⟩, fun _ => rfl⟩
  simp only [State.noteCorrected]
  split
  · exact (hnote _).trans (State.wantRemap_readTo ..)
  · exact hnote _

theorem State.meetSector_readTo (s : State) (k : Nat) : s.ReadTo (s.meetSector k) := by
  have hecc (t : State) (e : Ecc) : t.ReadTo (t.setEcc k e) := ⟨⟨_, _, _, _, _, _, _, rfl⟩, fun _ => rfl⟩
  simp only [State.meetSector]
  split
  · split
    · exact (s.countEcc_readTo ..).trans ((hecc ..).trans (State.noteCorrected_readTo ..))
    · exact (s.countEcc_readTo ..).trans (hecc ..)
  · split
    · exact (s.countEcc_readTo ..).trans (State.wantRemap_readTo ..)
    · exact s.countEcc_readTo ..
  · exact .refl s

theorem State.scanned_readTo (s : State) (a n : Nat) : s.ReadTo (s.scanned a n) :=
  ReadTo.foldl State.meetSector_readTo _ s

theorem State.activate_readTo (s : State) (r : Nat) : s.ReadTo (s.activate r) := by
  obtain ⟨_, _, _, heq⟩ := s.activate_eq r
  exact ⟨⟨_, _, _, _, _, _, _, heq⟩, fun hx => s.activate_reg r (hx _ (by decide))⟩

theorem State.opens_readTo (s : State) (a n : Nat) : s.ReadTo (s.opens a n) := ReadTo.foldl State.activate_readTo _ s

theorem State.readFor_readTo (s : State) (a n : Nat) : s.ReadTo (s.readFor a n).2 := by
  simp only [State.readFor]
  split
  · exact ⟨⟨_, _, _, _, _, _, _, rfl⟩, fun _ => rfl⟩
  · exact (s.opens_readTo a n).trans (State.scanned_readTo ..)

theorem State.imgRead_readTo (s : State) (m : Image) (off n : Nat) : s.ReadTo (s.imgRead m off n).1 :=
  (s.opens_readTo ..).trans (State.scanned_readTo ..)

end Sys2Proof.Machine
end

section
/-!
PROOFS. The ends and the starts of KINDLEs (R218, R219, R224): what of a state they leave, how a KINDLE that is let go
ends, and what the next of its partition becomes.
-/

namespace Sys2Proof.Machine

/-! ### KINDLEs of the state -/

theorem State.cmd_of_kindle? {s : State} {id : Nat} {k : Kindle} (h : s.kindle? id = some k) : k.cmd = id := by
  simpa [State.kindle?] using List.find?_some h

/-- A KINDLE that is stored over one of its command is read back. -/
theorem State.kindle?_putKindle {s : State} {k j : Kindle} (hj : j ∈ s.kindles) (hcmd : j.cmd = k.cmd) :
    (s.putKindle k).kindle? k.cmd = some k := by
  have hfound : ∃ x, s.kindles.find? (fun x => x.cmd == k.cmd) = some x :=
    Option.isSome_iff_exists.1 (List.find?_isSome.2 ⟨j, hj, by simp [hcmd]⟩)
  obtain ⟨x, hx⟩ := hfound
  have hxcmd : x.cmd = k.cmd := by simpa using List.find?_some hx
  rw [State.kindle?, State.putKindle, State.setKindle, find_map_of _ _ _ (fun y => ?_), hx, Option.map_some,
    if_pos hxcmd]
  by_cases hy : y.cmd = k.cmd <;> simp [hy]

/-! ### What reading the image leaves (R209) -/

theorem State.normRows_readTo (s : State) (m : Image) (tensor : Nat) (x : List (List Word)) :
    s.ReadTo (s.normRows m tensor x).1 := by
  simp only [State.normRows]
  split <;> exact s.imgRead_readTo ..

theorem State.embedRows_readTo (s : State) (m : Image) (ts : List Nat) : s.ReadTo (s.embedRows m ts).1 := by
  induction ts generalizing s with
  | nil => exact .refl s
  | cons t ts ih =>
    simp only [State.embedRows]
    split
    · exact s.imgRead_readTo ..
    split
    · exact s.imgRead_readTo ..
    · exact (s.imgRead_readTo ..).trans (ih _)

theorem State.layerStart_readTo (s : State) (m : Image) (k : Kindle) : s.ReadTo (s.layerStart m k).1 :=
  s.normRows_readTo ..

theorem State.beginKindle_readTo (s : State) (k : Kindle) : s.ReadTo (s.beginKindle k).1 := by
  simp only [State.beginKindle]
  split
  · exact .refl s
  split
  · exact s.embedRows_readTo ..
  · exact (s.embedRows_readTo ..).trans (State.layerStart_readTo ..)

/-- A KINDLE that begins executes, and stands before the K projection of its first layer. -/
theorem State.beginKindle_of_ok {s t : State} {k k' : Kindle} (h : s.beginKindle k = (t, .ok k')) :
    k'.cmd = k.cmd ∧ k'.executing = true ∧ k'.layer = 0 ∧ k'.stage = .k := by
  simp only [State.beginKindle] at h
  split at h
  · cases h
  split at h
  · cases h
  · obtain ⟨-, h⟩ := Prod.ext_iff.1 h
    simp only [State.layerStart] at h
    cases hrows : (State.normRows ..).2 with
    | error e => rw [hrows] at h; cases h
    | ok a => rw [hrows] at h; cases h; exact ⟨rfl, rfl, rfl, rfl⟩

/-! ### What is left of a state in which KINDLEs end and start -/

/-- A command that has ended keeps its status. -/
theorem State.endedWith.endCmd {s : State} {id st : Nat} (h : s.endedWith id st) (id' st' : Nat) (r : Word) :
    (s.endCmd id' st' r).endedWith id st := by
  obtain ⟨c, hc, hphase, hst⟩ := h
  refine ⟨c, ?_, hphase, hst⟩
  rw [State.endCmd, State.cmd_setCmd _ _ _ _ (fun c => by split <;> rfl), State.cmd?_congr (State.served_cmds ..), hc]
  simp [hphase]

theorem State.endedWith_congr {s t : State} (h : t.cmds = s.cmds) {id st : Nat} :
    t.endedWith id st ↔ s.endedWith id st := by
  rw [State.endedWith, State.endedWith, State.cmd?_congr h]

/-- The second state is the first after KINDLEs ended or started in it: ended commands stay ended, no command has become
that of a KINDLE, no slot is new, and the directory and the count of rekindled units stand. -/
structure State.KindlesMoved (s t : State) : Prop where
  ended : ∀ {id st : Nat}, s.endedWith id st → t.endedWith id st
  kindle : ∀ k ∈ t.kindles, ∃ j ∈ s.kindles, j.cmd = k.cmd
  slot : ∀ x ∈ t.slots, x ∈ s.slots
  dir : t.dir = s.dir
  reg : t.reg 0 Reg.PR_REKINDLE_CNT = s.reg 0 Reg.PR_REKINDLE_CNT

namespace State.KindlesMoved

theorem of_eq {s t : State} (hcmds : t.cmds = s.cmds) (hkindles : t.kindles = s.kindles) (hslots : t.slots = s.slots)
    (hdir : t.dir = s.dir) (hreg : t.reg 0 Reg.PR_REKINDLE_CNT = s.reg 0 Reg.PR_REKINDLE_CNT) : s.KindlesMoved t :=
  ⟨(State.endedWith_congr hcmds).2, fun k hk => ⟨k, hkindles ▸ hk, rfl⟩, fun _ hx => hslots ▸ hx, hdir, hreg⟩

theorem refl (s : State) : s.KindlesMoved s := of_eq rfl rfl rfl rfl rfl

theorem trans {s t u : State} (h : s.KindlesMoved t) (h' : t.KindlesMoved u) : s.KindlesMoved u where
  ended he := h'.ended (h.ended he)
  kindle k hk := by
    obtain ⟨j, hj, hjk⟩ := h'.kindle k hk
    obtain ⟨i, hi, hij⟩ := h.kindle j hj
    exact ⟨i, hi, hij.trans hjk⟩
  slot x hx := h.slot x (h'.slot x hx)
  dir := h'.dir.trans h.dir
  reg := h'.reg.trans h.reg

theorem foldl {α : Type} {f : State → α → State} (h : ∀ (s : State) a, s.KindlesMoved (f s a)) (l : List α)
    (s : State) : s.KindlesMoved (l.foldl f s) := by
  induction l generalizing s with
  | nil => exact refl s
  | cons a l ih => exact (h s a).trans (ih _)

theorem endCmd (s : State) (id st : Nat) (r : Word) : s.KindlesMoved (s.endCmd id st r) :=
  ⟨fun h => h.endCmd .., fun k hk => ⟨k, by simpa using hk, rfl⟩, by simp, by simp, State.reg_congr (by simp) ..⟩

end State.KindlesMoved

theorem State.ReadTo.moved {s t : State} (h : s.ReadTo t) : s.KindlesMoved t :=
  .of_eq h.cmds h.kindles h.slots h.dir (h.reg (by decide))

theorem State.putKindle_moved (s : State) (k : Kindle) : s.KindlesMoved (s.putKindle k) where
  ended h := h
  kindle x hx := by
    obtain ⟨j, hj, rfl⟩ := List.mem_map.1 hx
    exact ⟨j, hj, by split <;> simp_all⟩
  slot _ hx := hx
  dir := rfl
  reg := rfl

@[simp] theorem State.nonfinite_cmds (s : State) (status : Nat) : (s.nonfinite status).cmds = s.cmds := by
  unfold State.nonfinite
  split <;> simp

theorem State.nonfinite_moved (s : State) (status : Nat) : s.KindlesMoved (s.nonfinite status) := by
  unfold State.nonfinite
  split
  · exact .of_eq (by simp) (by simp) (by simp) (by simp) (State.reg_setRegB_other _ _ _ (by decide))
  · exact .refl s

/-! ### A KINDLE is let go (R224, R226) -/

/-- What letting the requests, embers and MERGEs of a KINDLE go leaves. -/
def State.kindleView (s : State) : List Cmd × List Kindle × List Slot × List Dir × List (Nat × Word) :=
  (s.cmds, s.kindles, s.slots, s.dir, s.regs)

theorem State.dropBlks_kindleView (s : State) (r : Req) : (s.dropBlks r).kindleView = s.kindleView := by
  rw [State.dropBlks, foldl_keeps State.kindleView]
  intro t b
  unfold State.dropPlace
  split <;> rfl

theorem State.dropRecv_kindleView (s : State) (r : Recv) : (s.dropRecv r).kindleView = s.kindleView := by
  simp only [State.dropRecv, State.freeRecv]
  (repeat' split) <;> rfl

theorem State.mergePast_kindleView (s : State) (m : Merge) : (s.mergePast m).kindleView = s.kindleView :=
  State.mergePast_keeps State.kindleView State.dropRecv_kindleView (fun _ _ => rfl) s m

/-- The KINDLE of the command and the slots that it holds are gone; commands, directory and registers stand. -/
theorem State.dropKindle_leaves (s : State) (id : Nat) :
    (s.dropKindle id).cmds = s.cmds ∧ (s.dropKindle id).kindles = s.kindles.filter (·.cmd != id) ∧
    (s.dropKindle id).slots = s.slots.filter (·.use != .kindle id) ∧ (s.dropKindle id).dir = s.dir ∧
    (s.dropKindle id).regs = s.regs := by
  have hview : ∀ (rs : List Req) (ms : List Merge),
      (ms.foldl State.mergePast (rs.foldl State.dropBlks s)).kindleView = s.kindleView := fun rs ms =>
    (foldl_keeps State.kindleView State.mergePast_kindleView ..).trans
      (foldl_keeps State.kindleView State.dropBlks_kindleView ..)
  simp only [State.kindleView, Prod.mk.injEq] at hview
  simp only [State.dropKindle]
  obtain ⟨hcmds, hkindles, hslots, hdir, hregs⟩ := hview (s.reqs.filter fun r => r.kindle == some id)
    (((s.reqs.filter fun r => r.kindle == some id).foldl State.dropBlks s).merges.filter fun m => m.kindle == some id)
  exact ⟨hcmds, by rw [hkindles], by rw [hslots], hdir, hregs⟩

theorem State.dropKindle_moved (s : State) (id : Nat) : s.KindlesMoved (s.dropKindle id) := by
  obtain ⟨hcmds, hkindles, hslots, hdir, hregs⟩ := s.dropKindle_leaves id
  refine ⟨(State.endedWith_congr hcmds).2, fun k hk => ?_, fun x hx => ?_, hdir, State.reg_congr hregs ..⟩
  · rw [hkindles] at hk
    exact ⟨k, (List.mem_filter.1 hk).1, rfl⟩
  · rw [hslots] at hx
    exact (List.mem_filter.1 hx).1

/-- The KINDLE of the command has ended, and holds nothing. -/
def State.kindleGone (s : State) (id : Nat) : Prop :=
  (∀ k ∈ s.kindles, k.cmd ≠ id) ∧ ∀ x ∈ s.slots, x.use ≠ .kindle id

theorem State.kindleGone.moved {s t : State} {id : Nat} (h : s.kindleGone id) (hm : s.KindlesMoved t) :
    t.kindleGone id := by
  refine ⟨fun k hk => ?_, fun x hx => h.2 x (hm.slot x hx)⟩
  obtain ⟨j, hj, hjk⟩ := hm.kindle k hk
  exact hjk ▸ h.1 j hj

theorem State.dropKindle_gone (s : State) (id : Nat) : (s.dropKindle id).kindleGone id := by
  obtain ⟨-, hkindles, hslots, -, -⟩ := s.dropKindle_leaves id
  rw [State.kindleGone, hkindles, hslots]
  simp

/-- The end of a KINDLE that joined another (R218). -/
def State.endJoined (s : State) (status : Nat) (x : Kindle) : State :=
  { s with kindles := s.kindles.filter fun y => y.cmd != x.cmd }.endCmd x.cmd status
    (BitVec.ofNat 32 (kindleResult false true false none 0))

theorem State.endJoined_moved (s : State) (status : Nat) (x : Kindle) : s.KindlesMoved (s.endJoined status x) := by
  refine State.KindlesMoved.trans (t := { s with kindles := s.kindles.filter fun y => y.cmd != x.cmd }) ?_ (.endCmd ..)
  exact ⟨id, fun k hk => ⟨k, (List.mem_filter.1 hk).1, rfl⟩, fun _ hx => hx, rfl, rfl⟩

section
variable (s : State) (k : Kindle) (status : Nat) (already : Bool) (missing : Option Nat)

/-- A KINDLE is let go, its command ends, and then the KINDLEs that joined it end. -/
theorem State.finishKindle_eq : s.finishKindle k status already missing =
    (s.kindles.filter fun x => x.joins == some k.cmd).foldl (fun s x => s.endJoined status x)
      ((s.dropKindle k.cmd).endCmd k.cmd status
        (BitVec.ofNat 32 (kindleResult already false k.resent missing k.published))) := rfl

theorem State.finishKindle_moved : s.KindlesMoved (s.finishKindle k status already missing) := by
  rw [State.finishKindle_eq]
  exact (s.dropKindle_moved k.cmd).trans ((State.KindlesMoved.endCmd ..).trans
    (.foldl (fun s x => s.endJoined_moved status x) ..))

theorem State.finishKindle_gone : (s.finishKindle k status already missing).kindleGone k.cmd := by
  rw [State.finishKindle_eq]
  exact ((s.dropKindle_gone k.cmd).moved (.endCmd ..)).moved (.foldl (fun s x => s.endJoined_moved status x) ..)

theorem State.finishKindle_endedWith {c : Cmd} (hc : s.cmd? k.cmd = some c) (hphase : c.phase ≠ .ended) :
    (s.finishKindle k status already missing).endedWith k.cmd status := by
  have hdrop : (s.dropKindle k.cmd).cmd? k.cmd = some c := (State.cmd?_congr (s.dropKindle_leaves k.cmd).1 _).trans hc
  rw [State.finishKindle_eq]
  exact (State.KindlesMoved.foldl (fun s x => s.endJoined_moved status x) ..).ended
    (State.endCmd_endedWith hdrop hphase status _)

end

/-! ### The next KINDLE of a partition (R219) -/

theorem State.startNext_moved (s : State) (p n : Nat) : s.KindlesMoved (s.startNext p n) := by
  induction n generalizing s with
  | zero => exact .refl s
  | succ n ih =>
    unfold State.startNext
    split
    · exact .refl s
    split
    · exact .refl s
    split
    · exact (s.finishKindle_moved ..).trans (ih _)
    extract_lets k
    split
    · exact (s.finishKindle_moved ..).trans (ih _)
    have hbegin := (s.beginKindle_readTo k).moved
    split
    next t k' hk => rw [hk] at hbegin; exact hbegin.trans (State.putKindle_moved ..)
    next t e hk =>
      rw [hk] at hbegin
      exact hbegin.trans ((State.nonfinite_moved ..).trans ((State.finishKindle_moved ..).trans (ih _)))

/-- While a KINDLE of the partition executes, no other starts. -/
theorem State.startNext_of_executing {s : State} {p : Nat} {k : Kindle} (hk : k ∈ s.kindles) (hpart : k.part = p)
    (hexec : k.executing = true) (n : Nat) : s.startNext p n = s := by
  cases n with
  | zero => rfl
  | succ n => exact if_pos (List.any_eq_true.2 ⟨k, hk, by simp [hpart, hexec]⟩)

/-- A KINDLE of a partition that executes none begins, or ends with what its beginning met. -/
theorem State.startNext_of_idle {s : State} {p : Nat} {k : Kindle} {c : Cmd}
    (hidle : ∀ x ∈ s.kindles, x.part = p → x.executing = false)
    (hfirst : s.kindles.find? (fun x => x.part == p && x.joins.isNone) = some k) (hc : s.cmd? k.cmd = some c)
    (hphase : c.phase ≠ .ended) (n : Nat) :
    (∃ k', (s.startNext p (n + 1)).kindle? k.cmd = some k' ∧ k'.executing = true ∧ k'.layer = 0 ∧ k'.stage = .k) ∨
      ∃ st, (s.startNext p (n + 1)).endedWith k.cmd st := by
  have hnone : (s.kindles.any fun x => x.part == p && x.executing) = false := by
    simpa [List.any_eq_false] using hidle
  simp only [State.startNext, hnone, Bool.false_eq_true, if_false, hfirst]
  split
  · exact .inr ⟨_, (State.startNext_moved ..).ended (s.finishKindle_endedWith _ _ _ _ hc hphase)⟩
  next m hm =>
    split
    · exact .inr ⟨_, (State.startNext_moved ..).ended (s.finishKindle_endedWith (s.kindleSpans ..) _ _ _ hc hphase)⟩
    have hread := s.beginKindle_readTo (s.kindleSpans k (imLayers m.hdr) k.bySpan)
    split
    next t k' hbegin =>
      obtain ⟨hcmd, hexec, hlayer, hstage⟩ := State.beginKindle_of_ok hbegin
      rw [hbegin] at hread
      replace hcmd : k'.cmd = k.cmd := hcmd
      refine .inl ⟨k', ?_, hexec, hlayer, hstage⟩
      rw [← hcmd]
      exact State.kindle?_putKindle (hread.kindles ▸ List.mem_of_find?_eq_some hfirst) hcmd.symm
    next t e hbegin =>
      rw [hbegin] at hread
      have hcmds : (t.nonfinite e).cmds = s.cmds := (t.nonfinite_cmds e).trans hread.cmds
      exact .inr ⟨_, (State.startNext_moved ..).ended (State.finishKindle_endedWith _ (s.kindleSpans ..) _ _ _
        ((State.cmd?_congr hcmds _).trans hc) hphase)⟩

/-! ### The end of a KINDLE by R224 -/

section
variable {s : State} {k : Kindle} (status : Nat) (missing : Option Nat)

theorem State.endKindle_gone : (s.endKindle k status missing).kindleGone k.cmd :=
  (State.finishKindle_gone ..).moved (State.startNext_moved ..)

theorem State.endKindle_endedWith {c : Cmd} (hc : s.cmd? k.cmd = some c) (hphase : c.phase ≠ .ended) :
    (s.endKindle k status missing).endedWith k.cmd status := by
  exact (State.startNext_moved ..).ended
    (State.finishKindle_endedWith _ k _ _ _ ((State.cmd?_congr (s.nonfinite_cmds status) _).trans hc) hphase)

end

end Sys2Proof.Machine
end

section
/-!
PROOFS. A KINDLE from its checks to the publication of its units (R207, R208, R218, R219, R224, R225, R244).
-/

namespace Sys2Proof.Machine

/-! ### What the checks of a KINDLE leave (R218) -/

/-- The taken commands and the KINDLEs. -/
def State.checkView (s : State) : List Cmd × List Kindle := (s.cmds, s.kindles)

@[simp] theorem State.ownSeen_kindles (s : State) (k : DirKey) : (s.ownSeen k).kindles = s.kindles := by
  simp only [State.ownSeen]
  (repeat' split) <;> simp

@[simp] theorem State.ownCheck_kindles (s : State) (p a n : Nat) : (s.ownCheck p a n).1.kindles = s.kindles := by
  simp only [State.ownCheck]
  split
  · exact State.cplFault_kindles ..
  · split
    · exact State.cplFault_kindles ..
    · split <;> simp [State.ownerError]

@[simp] theorem State.unmappedError_checkView (s : State) : s.unmappedError.checkView = s.checkView := by
  simp [State.checkView, State.unmappedError]

@[simp] theorem State.readFor_checkView (s : State) (a n : Nat) : (s.readFor a n).2.checkView = s.checkView :=
  Prod.ext (s.readFor_readTo a n).cmds (s.readFor_readTo a n).kindles

@[simp] theorem State.dirSeen_checkView (s : State) (k : DirKey) : (s.dirSeen k).checkView = s.checkView :=
  Prod.ext (Prod.ext_iff.1 (s.dirSeen_headView k)).1 (s.dirSeen_kindles k)

@[simp] theorem State.ownSeen_checkView (s : State) (k : DirKey) : (s.ownSeen k).checkView = s.checkView :=
  Prod.ext (Prod.ext_iff.1 (s.ownSeen_headView k)).1 (s.ownSeen_kindles k)

@[simp] theorem State.ownCheck_checkView (s : State) (p a n : Nat) : (s.ownCheck p a n).1.checkView = s.checkView :=
  Prod.ext (s.ownCheck_cmds p a n) (s.ownCheck_kindles p a n)

@[simp] theorem State.layersCheck_checkView (s : State) (p seq : Nat) (spans ls : List Nat) :
    (s.layersCheck p seq spans ls).1.checkView = s.checkView := by
  induction ls generalizing s with
  | nil => rfl
  | cons l t ih =>
    simp only [State.layersCheck]
    (repeat' split) <;> simp [ih]

@[simp] theorem State.leasesCheck_checkView (s : State) (p seq : Nat) (ls : List Nat) :
    (s.leasesCheck p seq ls).1.checkView = s.checkView := by
  induction ls generalizing s with
  | nil => rfl
  | cons l t ih =>
    simp only [State.leasesCheck]
    (repeat' split) <;> simp [ih]

/-- The ownership checks of the objects of a KINDLE, up to the first that fails. -/
theorem State.ownChecks_checkView (s : State) (p : Nat) (rs : List (Nat × Nat)) :
    (rs.foldl (fun (x : State × Nat) (r : Nat × Nat) => if x.2 ≠ 0 then x else x.1.ownCheck p r.1 r.2)
      (s, 0)).1.checkView = s.checkView :=
  foldl_fst_keeps State.checkView (fun x r => by split <;> simp) rs (s, 0)

theorem State.kindleCheck_checkView (s : State) (c : Cmd) : (s.kindleCheck c).1.checkView = s.checkView := by
  fun_cases State.kindleCheck
  case case13 => exact (State.ownChecks_checkView ..).trans (by grind [State.readFor_checkView,
    State.layersCheck_checkView, State.leasesCheck_checkView])
  all_goals grind [State.readFor_checkView, State.layersCheck_checkView, State.leasesCheck_checkView,
    State.unmappedError_checkView]

/-! ### KINDLE (R216, R218, R219) -/

/-- The KINDLE of a command, as it is accepted while no KINDLE of its sequence executes. -/
def kindleOf (id : Nat) (c : Cmd) (work : BitVec 256) (toks : List (Nat × List Nat)) (ctx : List (Nat × Nat × Nat)) :
    Kindle :=
  { cmd := id, part := c.part, seq := kdSeq c.desc, slot := kdImage c.desc, first := kdFirst c.desc,
    count := kdSpans c.desc, spans := toks.map (·.1), layersOf := [], ctx := ctx, tokens := toks.flatMap (·.2),
    work := work, tagBase := kdTag c.desc, joins := none, executing := false, layer := 0, stage := .k, tile := 0,
    rowDone := 0, x := [], a := [], kOut := [], qOut := [], gOut := [], y := [], todo := [], internals := [],
    counter := 0, gathered := [], waitsSlots := false, waitUnits := [], resent := false, published := 0 }

/-- A KINDLE is taken, behind those taken before it. -/
def State.addKindle (s : State) (k : Kindle) : State := { s with kindles := s.kindles ++ [k] }

/-- The only KINDLE of a partition begins, or ends with what its beginning met. -/
theorem State.startNext_of_only {s : State} {k : Kindle} {c : Cmd} (honly : ∀ x ∈ s.kindles, x.part ≠ k.part)
    (hjoins : k.joins = none) (hwaits : k.executing = false) (hc : s.cmd? k.cmd = some c) (hphase : c.phase ≠ .ended)
    (n : Nat) :
    (∃ k', ((s.addKindle k).startNext k.part (n + 1)).kindle? k.cmd = some k' ∧ k'.executing = true ∧ k'.layer = 0 ∧
      k'.stage = .k) ∨ ∃ st, ((s.addKindle k).startNext k.part (n + 1)).endedWith k.cmd st := by
  have hnone : s.kindles.find? (fun x => x.part == k.part && x.joins.isNone) = none :=
    List.find?_eq_none.2 fun x hx => by simp [honly x hx]
  refine State.startNext_of_idle (s := s.addKindle k) (fun x hx hpart => ?_) ?_ hc hphase n
  · obtain hx | hx := List.mem_append.1 hx
    · exact absurd hpart (honly x hx)
    · rw [List.mem_singleton.1 hx, hwaits]
  · simp [State.addKindle, List.find?_append, hnone, hjoins]

section
variable {s u : State} {id : Nat} {c : Cmd} (hstart : s.starting? id 3 = some c)
include hstart

theorem State.runCmd_kindleCheck {r : KCheck} (hcheck : (s.runCmd id).kindleCheck c = (u, r)) :
    u.mem = s.mem ∧ u.kindles = s.kindles ∧ u.cmd? id = some { c with phase := .running } := by
  have hmem := (s.runCmd id).kindleCheck_mem c
  obtain ⟨hcmds, hkindles⟩ := Prod.ext_iff.1 ((s.runCmd id).kindleCheck_checkView c)
  rw [hcheck] at hmem hcmds hkindles
  exact ⟨hmem.trans (s.runCmd_mem id), hkindles.trans (s.runCmd_kindles id),
    (State.cmd?_congr hcmds id).trans (State.cmd?_runCmd (State.cmd?_of_starting hstart).1)⟩

variable (hop : dOp c.desc = 0)
include hop

theorem execKindle_of_refused {e : Nat} (hcheck : (s.runCmd id).kindleCheck c = (u, .refused e)) :
    exec (.kindle id) s = .next (u.endCmd id e 0) := by
  change execKindle id s = _
  simp only [execKindle, hstart, hop, hcheck, ne_eq, not_true_eq_false, if_false]

theorem execKindle_of_already (hcheck : (s.runCmd id).kindleCheck c = (u, .already)) :
    exec (.kindle id) s = .next (u.endCmd id 0 0x80000000) := by
  change execKindle id s = _
  simp only [execKindle, hstart, hop, hcheck, ne_eq, not_true_eq_false, if_false]
  rfl

theorem execKindle_of_accepted {spans : List Nat} {toks : List (Nat × List Nat)} {ctx : List (Nat × Nat × Nat)}
    (hcheck : (s.runCmd id).kindleCheck c = (u, .accepted spans toks ctx))
    (hbusy : ∀ k ∈ s.kindles, k.part = c.part → k.seq = kdSeq c.desc → k.executing = false) :
    exec (.kindle id) s = .next ((u.addKindle (kindleOf id c (u.obj c.part (kdWork c.desc)) toks ctx)).startNext c.part
      (u.kindles.length + 1)) := by
  obtain ⟨-, hkindles, -⟩ := State.runCmd_kindleCheck hstart hcheck
  have hnone : u.kindles.find? (fun k => k.part == c.part && k.seq == kdSeq c.desc && k.executing) = none :=
    List.find?_eq_none.2 fun k hk => by
      rw [hkindles] at hk
      simpa using hbusy k hk
  change execKindle id s = _
  simp only [execKindle, hstart, hop, hcheck, hnone, ne_eq, not_true_eq_false, if_false, Option.map_none,
    Option.getD_none, List.contains_nil, Bool.not_false, List.filter_true, ite_self, List.length_append,
    List.length_singleton]
  rfl

end

/-! ### Array operations (R207, R208) -/

/-- While rows of the operation remain after those streamed, streaming reads the weights, and fails or moves the rows
done forward. -/
theorem State.streamRows_of_more {s : State} {m : Image} {k : Kindle} {call : Nat × Nat × Nat} {rows : Nat}
    (hmore : k.rowDone + rows < k.rows) : ∃ t, s.ReadTo t ∧ ((∃ e, s.streamRows m k call rows = (t, .error e)) ∨
      ∃ y, s.streamRows m k call rows = (t, .ok { k with y := y, rowDone := k.rowDone + rows })) := by
  unfold State.streamRows
  extract_lets h c K kTiles kt n0 nn w r y stop xs
  have hstop : stop = k.rowDone + rows := Nat.min_eq_right hmore.le
  refine ⟨r.1, s.imgRead_readTo .., ?_⟩
  split
  · exact .inl ⟨_, rfl⟩
  extract_lets ws wq y' k'
  split
  · exact .inl ⟨_, rfl⟩
  split
  · exact .inl ⟨_, rfl⟩
  · rw [hstop, if_pos hmore]
    exact .inr ⟨_, rfl⟩

theorem State.workWritten_kindles (s : State) (k : Kindle) : (s.workWritten k).kindles = s.kindles := rfl

theorem State.arrayBusy_kindles (s : State) (p hclk : Nat) : (s.arrayBusy p hclk).kindles = s.kindles := by
  simp [State.arrayBusy]

theorem execArrayOperation_of_slot {s : State} {p rows : Nat} {k : Kindle} {m : Image} {call : Nat × Nat × Nat}
    (hk : s.kindles.find? (fun k => k.part == p && k.executing) = some k) (hm : s.image? p k.slot = some m)
    (hwaits : k.waitsSlots = false) (hcall : stageCall m.hdr k.stage = some call) (hrows : 0 < rows)
    (hlit : s.power = .lit) (howner : s.arrayOwner s.ms = p) (hclean : s.ecc = []) {t : State} {k' : Kindle}
    (hstream : ((s.arrayBusy p (if k.rowDone = 0 then max k.rows 1024 + 160 else 1024)).workWritten k).streamRows m k
      call rows = (t, .ok k')) : exec (.arrayOperation p rows) s = .next (t.putKindle k') := by
  change execArrayOperation p rows s = _
  simp only [execArrayOperation, hk, hm, hwaits, hcall, hlit, howner, State.hasUE_of_clean hclean, hstream, ne_eq,
    not_true_eq_false, or_false, Bool.false_eq_true, if_false]
  rw [if_neg (by omega)]

/-- Outside the partition's own slot in Lit no row streams. -/
theorem execArrayOperation_of_stopped {s : State} {p rows : Nat} (hstop : s.power ≠ .lit ∨ s.arrayOwner s.ms ≠ p)
    (hwaits : ∀ k ∈ s.kindles, k.waitsSlots = false) : exec (.arrayOperation p rows) s = .next s := by
  change execArrayOperation p rows s = _
  simp only [execArrayOperation]
  split
  · rfl
  next k hk =>
    split
    · rfl
    rw [hwaits k (List.mem_of_find?_eq_some hk), if_neg Bool.false_ne_true]
    split
    · rfl
    · rw [if_pos (.inr hstop)]

/-! ### Internal requests (R221, R224, R225) -/

theorem State.dropInternal_kindles (s : State) (k : Kindle) (e : Internal) :
    (s.dropInternal k e).kindles = s.kindles := by
  have hblks (rs : List Req) : (rs.foldl State.dropBlks s).kindles = s.kindles :=
    (Prod.ext_iff.1 (Prod.ext_iff.1 (foldl_keeps State.kindleView State.dropBlks_kindleView rs s)).2).1
  simp only [State.dropInternal]
  split
  · exact (Prod.ext_iff.1 (Prod.ext_iff.1 (State.mergePast_kindleView ..)).2).1.trans (hblks _)
  · exact hblks _

/-- A KINDLE that has nothing to issue issues nothing. -/
theorem State.issueAll_of_none (s : State) {k : Kindle} (htodo : k.todo = []) (h : List Byte) (n : Nat) :
    s.issueAll k h n = (s, .ok k) := by
  cases n with
  | zero => rfl
  | succ n => simp only [State.issueAll, htodo]

/-- A KINDLE without an internal request that is done, and with its values. -/
def Kindle.gather (k : Kindle) (e : Internal) (vals : List (Nat × Nat × List TreeVal)) : Kindle :=
  { k with internals := k.internals.filter (fun x => x.count != e.count), gathered := k.gathered ++ vals }

section
variable {s : State} {id tag st : Nat} {k : Kindle} {e : Internal} {m : Image} (hk : s.kindle? id = some k)
  (he : k.internals.find? (fun e => (k.tag e.count).toNat == tag) = some e) (hm : s.image? k.part k.slot = some m)
include hk he hm

/-- A request that is done, of a layer that waits for others and issues no more. -/
theorem execInternalRequestDone_of_done {vals : List (Nat × Nat × List TreeVal)}
    (hdone : s.internalState k (imGroup m.hdr) e st = some (0, none, vals)) (htodo : k.todo = [])
    (hothers : k.internals.filter (fun x => x.count != e.count) ≠ []) :
    exec (.internalRequestDone id tag st) s = .next ((s.dropInternal k e).putKindle (k.gather e vals)) := by
  have hothers : (k.internals.filter (fun x => x.count != e.count)).isEmpty = false := by simpa using hothers
  have hidle := fun t n => State.issueAll_of_none (k := k.gather e vals) t htodo m.hdr n
  change Host.Outcome.next (s.internalDone id tag st) = _
  simp only [Kindle.gather] at hidle ⊢
  simp only [State.internalDone, hk, he, hm, hdone, hidle, hothers, Bool.false_and, Bool.false_eq_true, if_false,
    true_or, if_true]

theorem execInternalRequestDone_of_pending (hpending : s.internalState k (imGroup m.hdr) e st = none) :
    exec (.internalRequestDone id tag st) s = .next s := by
  change Host.Outcome.next (s.internalDone id tag st) = _
  simp only [State.internalDone, hk, he, hm, hpending]

end

section
variable {s : State} {id : Nat} {k : Kindle} (hk : s.kindle? id = some k)
include hk

theorem execKindleCollectTimeout_of_late
    (hlate : ∃ e ∈ k.internals, e.remote = true ∧ e.first + s.regF 0 Reg.KN_CFG 16 8 ≤ s.ms) :
    exec (.kindleCollectTimeout id) s = .next (s.endKindle k 0x0B none) := by
  change execKindleCollectTimeout id s = _
  simp only [execKindleCollectTimeout, hk]
  rw [if_pos (List.any_eq_true.2 (by simpa using hlate))]

theorem execKindleCollectTimeout_of_early
    (hearly : ∀ e ∈ k.internals, s.ms < e.first + s.regF 0 Reg.KN_CFG 16 8) :
    exec (.kindleCollectTimeout id) s = .next s := by
  change execKindleCollectTimeout id s = _
  simp only [execKindleCollectTimeout, hk]
  rw [if_neg fun h => ?_]
  obtain ⟨e, he, hlate⟩ := List.any_eq_true.1 h
  have hnow := hearly e he
  simp only [Bool.and_eq_true, decide_eq_true_eq] at hlate
  omega

end

/-! ### Publication (R244, R459) -/

section
variable (s : State) (k : Kindle) (span : Nat)

theorem State.publishUnit_kindles : (s.publishUnit k span).kindles = s.kindles := by simp [State.publishUnit]

theorem State.publishUnit_cmds : (s.publishUnit k span).cmds = s.cmds := by simp [State.publishUnit]

/-- No slot of the unit stays private. -/
theorem State.publishUnit_slot : ∀ x ∈ (s.publishUnit k span).slots, x.firstPos / 1024 = span →
    x.use ≠ .kindle k.cmd := by
  intro x hx hspan
  simp only [State.publishUnit, State.count_slots, List.mem_map] at hx
  obtain ⟨y, -, rfl⟩ := hx
  split
  · simp
  next h =>
    rw [if_neg h] at hspan
    exact fun hy => h ⟨hy, hspan⟩

/-- The span is no longer dropped in the layers that the KINDLE wrote. -/
theorem State.publishUnit_dropped : ∀ d ∈ (s.publishUnit k span).dir, d.key.part = k.part → d.key.seq = k.seq →
    (∃ e ∈ k.layersOf, e.1 = span ∧ d.key.layer ∈ e.2) → span ∉ d.dropped := by
  intro d hd hpart hseq hlayer
  simp only [State.publishUnit, State.count_dir, List.mem_map] at hd
  obtain ⟨e, -, rfl⟩ := hd
  split
  · simp
  next h =>
    rw [if_neg h] at hpart hseq hlayer
    exact absurd ⟨hpart, hseq, List.any_eq_true.2 (by simpa using hlayer)⟩ h

theorem State.publishUnit_counted : counted s (s.publishUnit k span) 0 Reg.PR_REKINDLE_CNT 1 :=
  counted_congr (State.reg_count_other _ 1 (by decide)) (State.reg_count_same ..)

variable {s k span} {id : Nat} (hk : s.kindle? id = some k) (hstage : k.stage = .written)
  (hexec : k.executing = true) (hspan : k.spans[k.published]? = some span)
include hk hstage hexec hspan

theorem execKindlePublish_of_more (hmore : k.published + 1 < k.spans.length) : exec (.kindlePublish id) s =
    .next ((s.publishUnit k span).putKindle { k with published := k.published + 1 }) := by
  change execKindlePublish id s = _
  simp only [execKindlePublish, hk, hstage, hexec, hspan, hmore, ne_eq, not_true_eq_false, Bool.not_true,
    Bool.false_eq_true, or_self, if_false, if_true]

theorem execKindlePublish_of_last (hlast : ¬ k.published + 1 < k.spans.length) : ∃ n, exec (.kindlePublish id) s =
    .next (((s.publishUnit k span).finishKindle { k with published := k.published + 1 } 0 false none).startNext k.part
      n) := by
  refine ⟨((s.publishUnit k span).finishKindle { k with published := k.published + 1 } 0 false none).kindles.length, ?_⟩
  change execKindlePublish id s = _
  simp only [execKindlePublish, hk, hstage, hexec, hspan, hlast, ne_eq, not_true_eq_false, Bool.not_true,
    Bool.false_eq_true, or_self, if_false]

/-- KINDLE_PUBLISH makes the unit present, and then stores, ends or starts KINDLEs alone. -/
theorem execKindlePublish_moved : ∃ t, exec (.kindlePublish id) s = .next t ∧ (s.publishUnit k span).KindlesMoved t ∧
    (k.published + 1 < k.spans.length → t.kindle? id = some { k with published := k.published + 1 }) ∧
    (k.published + 1 = k.spans.length → ∀ c, s.cmd? id = some c → c.phase = .running → t.endedWith id 0) := by
  have hid : k.cmd = id := State.cmd_of_kindle? hk
  by_cases hmore : k.published + 1 < k.spans.length
  · refine ⟨_, execKindlePublish_of_more hk hstage hexec hspan hmore, State.putKindle_moved .., fun _ => ?_,
      fun h => ?_⟩
    · rw [← hid]
      exact State.kindle?_putKindle (j := k)
        ((s.publishUnit_kindles k span).symm ▸ List.mem_of_find?_eq_some hk) rfl
    · omega
  · obtain ⟨n, hnext⟩ := execKindlePublish_of_last hk hstage hexec hspan hmore
    refine ⟨_, hnext, (State.finishKindle_moved ..).trans (State.startNext_moved ..), fun h => absurd h hmore,
      fun _ c hc hphase => (State.startNext_moved ..).ended ?_⟩
    have hcmd := (State.cmd?_congr (s.publishUnit_cmds k span) id).trans hc
    rw [← hid] at hcmd ⊢
    exact State.finishKindle_endedWith (s.publishUnit k span) { k with published := k.published + 1 } _ _ _ hcmd
      (by simp [hphase])

end

/-! ### The statement -/

/-- Settles O35: a KINDLE from its checks to the publication of its last unit. -/
theorem kindleRunsAndPublishes : Obligations.KindleRunsAndPublishes := by
  refine ⟨fun s u id c e hstart hop hcheck => ?_, fun s u id c hstart hop hcheck => ?_,
    fun s u id c spans toks ctx hstart hop hcheck hexec hseq => ?_,
    fun s u id c spans toks ctx hstart hop hcheck hpart => ?_,
    fun s p rows k k' m call hk hm hwaits hcall hrows hlit howner hclean hmore hstream => ?_,
    fun s p rows hstop hwaits => execArrayOperation_of_stopped hstop hwaits,
    fun s id tag st k e m vals hk hid he hm hdone htodo hothers => ?_,
    fun s id tag st k e m hk he hm hpending => execInternalRequestDone_of_pending hk he hm hpending,
    fun s id k c hk hid hc hphase hlate => ?_,
    fun s id k hk hearly => execKindleCollectTimeout_of_early hk hearly,
    fun s id span k hk hid hstage hexec hspan => ?_⟩
  · obtain ⟨hmem, hkindles, hcmd⟩ := State.runCmd_kindleCheck hstart hcheck
    exact ⟨_, execKindle_of_refused hstart hop hcheck, (u.endCmd_mem ..).trans hmem,
      (u.endCmd_kindles ..).trans hkindles, State.endCmd_endedWith hcmd (by simp) ..⟩
  · obtain ⟨hmem, hkindles, hcmd⟩ := State.runCmd_kindleCheck hstart hcheck
    exact ⟨_, _, execKindle_of_already hstart hop hcheck, (u.endCmd_mem ..).trans hmem,
      (u.endCmd_kindles ..).trans hkindles, State.cmd_endCmd u hcmd (by simp), rfl, rfl, rfl⟩
  · obtain ⟨hmem, hkindles, -⟩ := State.runCmd_kindleCheck hstart hcheck
    obtain ⟨j, hj, hjpart, hjexec⟩ := hexec
    have hadd := execKindle_of_accepted hstart hop hcheck fun k hk _ h => absurd h (hseq k hk)
    rw [State.startNext_of_executing (k := j) (List.mem_append_left _ (hkindles ▸ hj)) hjpart hjexec] at hadd
    exact ⟨_, _, hadd, hmem, congrArg (· ++ _) hkindles, rfl, rfl, rfl, rfl, rfl, rfl⟩
  · obtain ⟨-, hkindles, hcmd⟩ := State.runCmd_kindleCheck hstart hcheck
    have hadd := execKindle_of_accepted hstart hop hcheck fun k hk h => absurd h (hpart k hk)
    have hmem := execKindle_mem id s _ hadd
    rw [← hkindles] at hpart
    exact ⟨_, hadd, hmem, State.startNext_of_only (k := kindleOf id c (u.obj c.part (kdWork c.desc)) toks ctx) hpart rfl
      rfl hcmd (by simp) _⟩
  · obtain ⟨t, hread, ⟨e, hstreamed⟩ | ⟨y, hstreamed⟩⟩ := State.streamRows_of_more
      (s := (s.arrayBusy p (if k.rowDone = 0 then max k.rows 1024 + 160 else 1024)).workWritten k) (m := m)
      (call := call) hmore
    · rw [hstreamed] at hstream
      cases hstream
    · rw [hstreamed] at hstream
      cases hstream
      have hkindles := hread.kindles
      rw [State.workWritten_kindles, State.arrayBusy_kindles] at hkindles
      exact ⟨_, execArrayOperation_of_slot hk hm hwaits hcall hrows hlit howner hclean hstreamed,
        State.kindle?_putKindle (j := k) (hkindles ▸ List.mem_of_find?_eq_some hk) rfl, rfl, rfl, rfl,
        hread.arrayUsed⟩
  · refine ⟨_, k.gather e vals, execInternalRequestDone_of_done hk he hm hdone htodo hothers, by simp, ?_, rfl, rfl⟩
    rw [← hid]
    exact State.kindle?_putKindle (j := k) ((s.dropInternal_kindles k e).symm ▸ List.mem_of_find?_eq_some hk) rfl
  · subst hid
    refine ⟨_, execKindleCollectTimeout_of_late hk hlate, State.endKindle_mem .., State.endKindle_endedWith _ _ hc
      (by simp [hphase]), List.find?_eq_none.2 fun x hx => ?_⟩
    simpa using (State.endKindle_gone 0x0B none).1 x hx
  · obtain ⟨t, hnext, hmoved, hmore, hlast⟩ := execKindlePublish_moved hk hstage hexec hspan
    subst hid
    exact ⟨t, hnext, execKindlePublish_mem k.cmd s t hnext, fun x hx => s.publishUnit_slot k span x (hmoved.slot x hx),
      hmoved.dir ▸ s.publishUnit_dropped k span, counted_congr hmoved.reg (s.publishUnit_counted k span), hmore, hlast⟩

end Sys2Proof.Machine
end

section
/-!
PROOFS. BIND and UNBIND: the reads of a source object, the judgement of its image, and the clearing of a slot (R214,
R215, R227).
-/

namespace Sys2Proof.Machine

/-! ### The checks and the reads of a BIND (R128, R214) -/

theorem State.runCmd_chart (s : State) (id : Nat) : (s.runCmd id).chart = s.chart := by
  rw [State.chart, State.runCmd_charter, State.chart]

/-- A BIND that passes checks 1 to 3 leaves the state as it was. -/
theorem State.bindHead_eq_zero {s u : State} {c : Cmd} (h : s.bindHead c = (u, 0)) : u = s := by
  unfold State.bindHead at h
  extract_lets d so dO at h
  split at h
  · cases h
  split at h
  · cases h
  split at h
  · cases h
  split at h
  next hown => exact absurd (Prod.ext_iff.1 h).2 hown
  split at h
  next hown => exact absurd (Prod.ext_iff.1 h).2 hown
  split at h
  · cases h
  · exact (Prod.ext_iff.1 h).1.symm

/-- A read of the node's own memory without latent errors yields its bytes. -/
theorem State.bindRead_of_clean {s : State} (hclean : s.ecc = []) {a : Nat} (hnear : tierOf a ≠ some .far) (n : Nat) :
    ∃ t, s.bindRead a n = (some (s.bytes a n), t) ∧ s.ReadTo t ∧ t.ecc = [] := by
  refine ⟨s.opens a n, ?_, s.opens_readTo a n, (s.opens_ecc a n).trans hclean⟩
  simp only [State.bindRead, State.hasUE_of_clean hclean, State.readFor, hnear, if_false, Bool.false_eq_true]
  rw [State.scanned_of_clean (by simpa using hclean)]

section
variable {s u : State} {id : Nat} {c : Cmd} {so : BitVec 256} {h img : List Byte}
  (hstart : s.starting? id 3 = some c) (hop : dOp c.desc = 1) (hawake : s.awake = true)
  (hhead : (s.runCmd id).bindHead c = (u, 0)) (hso : so = s.obj c.part (bdSrc c.desc)) (hclean : s.ecc = [])
  (hnear : tierOf (objBase so) ≠ some .far) (hh : h = s.bytes (objBase so) 448) (hdevices : imDevices h ≤ 256)
  (hsize : 448 ≤ objSize so) (hcipher : imCipherAt h ≤ objSize so)
  (himg : img = s.bytes (objBase so) (imCipherAt h))
include hstart hop hawake hhead hso hclean hnear hh hdevices hsize hcipher himg

/-- Past checks 1 to 3 the header is read, then the device list and the signature, and the image is judged. -/
theorem execBind_of_head : ∃ t, (s.runCmd id).ReadTo t ∧ t.ecc = [] ∧
    exec (.bind id) s = .next (t.bindImage c (objSize so) img) := by
  obtain rfl := State.bindHead_eq_zero hhead
  obtain ⟨t₁, hfirst, hread₁, hclean₁⟩ := State.bindRead_of_clean ((s.runCmd_ecc id).trans hclean) hnear 448
  obtain ⟨t₂, hsecond, hread₂, hclean₂⟩ := State.bindRead_of_clean hclean₁ hnear (imCipherAt h)
  rw [State.bytes_congr (s.runCmd_mem id), ← hh] at hfirst
  rw [State.bytes_congr (hread₁.mem.trans (s.runCmd_mem id)), ← himg] at hsecond
  have hobj : (s.runCmd id).obj c.part (bdSrc c.desc) = so := (State.obj_congr (s.runCmd_objs id) ..).trans hso.symm
  refine ⟨t₂, hread₁.trans hread₂, hclean₂, ?_⟩
  change execBind id s = _
  simp only [execBind, hstart, hop, hawake, hhead, hobj, Nat.min_eq_right hsize, hfirst, hdevices, if_true,
    Nat.min_eq_right hcipher, hsecond, ne_eq, not_true_eq_false, Bool.not_true, Bool.false_eq_true, or_self, if_false]

end

/-! ### The judgement of an image (R214, R227) -/

section
variable {s : State} {c : Cmd} {n : Nat} {img : List Byte} (hlen : 512 ≤ img.length) (hshape : imageShapeOk img = true)
  (hfits : imCipherAt img + imPayLen img ≤ n)
include hlen hshape hfits

theorem State.bindImage_of_bad_signature
    (hbad : Config.edVerify (imSigner img) (Config.sha512 (img.take (imBody img))) (sliceB img (imBody img) 64) =
      false) :
    s.bindImage c n img = s.bindFails c.id 0x04 := by
  rw [State.bindImage, if_neg (by simp [hshape]; omega), if_pos (by simp [hbad])]

variable (hsigner : (chSignerKeys s.chart).contains (imSigner img) = true)
  (hgood : Config.edVerify (imSigner img) (Config.sha512 (img.take (imBody img))) (sliceB img (imBody img) 64) = true)
  {key : List Byte} (hkey : unwrapKey img s.deviceKey (Config.x25519Public s.deviceKey) = some key)
  (hroom : imPlainLen img ≤ objSize (s.obj c.part (bdDst c.desc)))
include hsigner hgood hkey hroom

theorem State.bindImage_of_authentic : s.bindImage c n img = s.bindPayload c img key := by
  rw [State.bindImage, if_neg (by simp [hshape]; omega), if_neg (by simp only [hsigner, hgood]; decide), hkey]
  exact if_neg (by omega)

end

/-- The image that a BIND binds. -/
def imageOf (c : Cmd) (img : List Byte) : Image :=
  { part := c.part, slot := kdImage c.desc, obj := bdDst c.desc, unbinders := [], hdr := img.take 448 }

/-- The payload of a BIND stored at its destination, and the slot bound and shown. -/
def State.bound (s : State) (c : Cmd) (img plain : List Byte) : State :=
  let t := s.engineWrite c.part c.id (objBase (s.obj c.part (bdDst c.desc))) plain
  { t with images := s.images ++ [imageOf c img] }.showImages c.part

theorem State.bound_reg (s : State) (c : Cmd) (img plain : List Byte) :
    (s.bound c img plain).reg 0 Reg.KN_BIND_CNT = s.reg 0 Reg.KN_BIND_CNT :=
  State.reg_setReg_other _ _ fun h => by
    have := regKey_inj.1 h
    simp only [Reg.KN_BIND_CNT, Reg.KN_IMG] at this
    omega

theorem State.bound_mem (s : State) (c : Cmd) (img plain : List Byte) :
    (s.bound c img plain).mem = (s.store (objBase (s.obj c.part (bdDst c.desc))) plain).mem := State.showImages_mem ..

theorem State.bound_cmds (s : State) (c : Cmd) (img plain : List Byte) : (s.bound c img plain).cmds = s.cmds :=
  State.setReg_cmds ..

theorem State.bound_images (s : State) (c : Cmd) (img plain : List Byte) :
    (s.bound c img plain).images = s.images ++ [imageOf c img] := State.setReg_images ..

/-- A payload that opens is stored, and the slot is bound, counted and done. -/
theorem State.bindPayload_of_opened {s : State} {c k : Cmd} {img ct key plain : List Byte} (hclean : s.ecc = [])
    (hcmd : s.cmd? c.id = some k) (hphase : k.phase ≠ .ended)
    (hnear : tierOf (objBase (s.obj c.part (bdSrc c.desc)) + imCipherAt img) ≠ some .far)
    (hct : ct = s.bytes (objBase (s.obj c.part (bdSrc c.desc)) + imCipherAt img) (imPayLen img))
    (hplain : openPayload (img ++ ct) key = some plain) :
    (s.bindPayload c img key).mem = (s.store (objBase (s.obj c.part (bdDst c.desc))) plain).mem ∧
    (s.bindPayload c img key).endedWith c.id 0 ∧ counted s (s.bindPayload c img key) 0 Reg.KN_BIND_CNT 1 ∧
    (s.bindPayload c img key).images = s.images ++ [imageOf c img] := by
  obtain ⟨t, hbytes, hread, -⟩ := State.bindRead_of_clean hclean hnear (imPayLen img)
  rw [← hct] at hbytes
  have hopens := hread.trans (t.opens_readTo (objBase (s.obj c.part (bdDst c.desc))) plain.length)
  generalize hv : t.opens (objBase (s.obj c.part (bdDst c.desc))) plain.length = v at hopens
  have hdst := State.obj_congr hopens.objs c.part (bdDst c.desc)
  have hpayload : s.bindPayload c img key = ((v.bound c img plain).count 0 Reg.KN_BIND_CNT 1).endCmd c.id 0 0 := by
    simp only [State.bindPayload, hbytes, hplain, hv, State.bound, hdst]
    rfl
  have hcmds : ((v.bound c img plain).count 0 Reg.KN_BIND_CNT 1).cmds = s.cmds :=
    (State.count_cmds ..).trans ((v.bound_cmds c img plain).trans hopens.cmds)
  have hreg : (v.bound c img plain).reg 0 Reg.KN_BIND_CNT = s.reg 0 Reg.KN_BIND_CNT :=
    (v.bound_reg c img plain).trans (hopens.reg (by decide))
  rw [hpayload]
  refine ⟨?_, State.endCmd_endedWith ((State.cmd?_congr hcmds _).trans hcmd) hphase .., ?_, ?_⟩
  · rw [State.endCmd_mem, State.count_mem, State.bound_mem, hdst]
    exact congrArg (storeMem · _ plain) hopens.mem
  · rw [counted, ← hreg, State.reg_congr (State.endCmd_regs ..)]
    exact State.reg_count_same ..
  · rw [State.endCmd_images, State.count_images, State.bound_images, hopens.images]

theorem State.bindFails_ends {s : State} {id : Nat} {c : Cmd} (hc : s.cmd? id = some c) (hphase : c.phase ≠ .ended)
    (status : Nat) : (s.bindFails id status).images = s.images ∧ (s.bindFails id status).endedWith id status ∧
      counted s (s.bindFails id status) 0 Reg.KN_BIND_FAIL_CNT 1 := by
  refine ⟨by simp [State.bindFails], State.endCmd_endedWith ((State.cmd?_congr (by simp) id).trans hc) hphase .., ?_⟩
  refine counted_congr ?_ (counted_count s 0 Reg.KN_BIND_FAIL_CNT)
  exact (State.reg_congr (State.endCmd_regs ..) ..).trans (State.reg_setRegB_other _ _ _ (by decide))

/-! ### UNBIND (R215) -/

theorem State.runCmd_adrift (s : State) (id : Nat) : (s.runCmd id).adrift = s.adrift :=
  congrArg (getB · 2) (State.reg_congr (s.runCmd_regs id) 0 Reg.FT_STAT)

theorem State.runCmd_image? (s : State) (id p slot : Nat) : (s.runCmd id).image? p slot = s.image? p slot := by
  rw [State.image?, State.image?, s.runCmd_images id]

/-- An UNBIND waits for the clearing of a bound slot. -/
def State.awaitUnbind (s : State) (p slot id : Nat) : State :=
  { s with images := s.images.map fun m =>
      if m.part = p ∧ m.slot = slot then { m with unbinders := m.unbinders ++ [id] } else m }

theorem State.image?_awaitUnbind {s : State} {p slot : Nat} {m : Image} (hm : s.image? p slot = some m) (id : Nat) :
    (s.awaitUnbind p slot id).image? p slot = some { m with unbinders := m.unbinders ++ [id] } := by
  have hplace : m.part = p ∧ m.slot = slot := by simpa using List.find?_some hm
  rw [State.image?, State.awaitUnbind, find_map_of _ _ _ (fun x => by split <;> rfl)]
  exact (congrArg (Option.map _) hm).trans (congrArg some (if_pos hplace))

section
variable {s : State} {id : Nat} {c : Cmd} (hstart : s.starting? id 3 = some c) (hop : dOp c.desc = 2)
  (hawake : s.awake = true) (hok : bindOk c.desc = true) (hadrift : s.adrift = false)
include hstart hop hawake hok hadrift

theorem execUnbind_of_free (hfree : s.image? c.part (kdImage c.desc) = none) :
    exec (.unbind id) s = .next ((s.runCmd id).endCmd id 0 0) := by
  change execUnbind id s = _
  simp only [execUnbind, hstart, hop, hawake, hok, State.runCmd_adrift, hadrift, State.runCmd_image?, hfree, ne_eq,
    not_true_eq_false, Bool.not_true, Bool.false_eq_true, or_self, if_false]

theorem execUnbind_of_bound {m : Image} (hbound : s.image? c.part (kdImage c.desc) = some m) :
    exec (.unbind id) s = .next ((s.runCmd id).awaitUnbind c.part (kdImage c.desc) id) := by
  change execUnbind id s = _
  simp only [execUnbind, hstart, hop, hawake, hok, State.runCmd_adrift, hadrift, State.runCmd_image?, hbound, ne_eq,
    not_true_eq_false, Bool.not_true, Bool.false_eq_true, or_self, if_false]
  rfl

end

/-! ### UNBIND_CLEAR (R215) -/

/-- While a KINDLE executes on the slot nothing changes. -/
theorem execUnbindClear_of_executing {s : State} {p slot : Nat} {k : Kindle} (hk : k ∈ s.kindles) (hpart : k.part = p)
    (hslot : k.slot = slot) (hexec : k.executing = true) : exec (.unbindClear p slot) s = .next s := by
  have hany : (s.kindles.any fun k => k.part == p && k.slot == slot && k.executing) = true :=
    List.any_eq_true.2 ⟨k, hk, by simp [hpart, hslot, hexec]⟩
  change execUnbindClear p slot s = _
  simp only [execUnbindClear]
  split
  · rw [if_pos (.inr hany)]
  · rfl

theorem execUnbindClear_of_idle {s : State} {p slot id : Nat} {m : Image} (hm : s.image? p slot = some m)
    (hone : m.unbinders = [id]) (hidle : ∀ k ∈ s.kindles, k.part = p → k.slot = slot → k.executing = false) :
    exec (.unbindClear p slot) s = .next ((s.unbindSlot m id).endCmd id 0 0) := by
  have hany : (s.kindles.any fun k => k.part == p && k.slot == slot && k.executing) = false := by
    simpa [List.any_eq_false] using hidle
  change execUnbindClear p slot s = _
  simp only [execUnbindClear, hm, hany, hone, List.isEmpty_cons, Bool.false_eq_true, or_self, if_false,
    List.foldl_cons, List.foldl_nil, List.headD_cons]

/-- An unbound slot is free, and its object is zero. -/
theorem State.unbindSlot_leaves (s : State) (m : Image) (id : Nat) :
    (s.unbindSlot m id).image? m.part m.slot = none ∧ (s.unbindSlot m id).cmds = s.cmds ∧ (s.unbindSlot m id).mem =
      (s.store (objBase (s.obj m.part m.obj)) (List.replicate (objSize (s.obj m.part m.obj)) 0)).mem := by
  refine ⟨?_, State.setReg_cmds .., State.showImages_mem ..⟩
  have himages : (s.unbindSlot m id).images = s.images.filter fun x => !(x.part == m.part && x.slot == m.slot) :=
    State.setReg_images ..
  rw [State.image?, himages]
  exact List.find?_eq_none.2 fun x hx => by
    simpa only [Bool.not_eq_true, Bool.not_eq_true'] using (List.mem_filter.1 hx).2

/-! ### The statement -/

/-- Settles O36: BIND of an authentic image and of one whose signature fails, UNBIND, and the clearing of its slot. -/
theorem imagesAreBoundAndUnbound : Obligations.ImagesAreBoundAndUnbound := by
  refine ⟨fun s u id c so dO h img ct hstart hop hawake hhead hso hdO hclean hnear hnearCt hh hdevices hsize hcipher
      himg hlen hshape hfits hroom hct => ?_,
    fun s id c hstart hop hawake hok hadrift hfree => ?_, fun s id c m hstart hop hawake hok hadrift hbound => ?_,
    fun s p slot id m c hm hpart hslot hone hc hphase hidle => ?_, fun s p slot k hk hpart hslot hexec => ?_⟩
  · obtain ⟨t, hread, hecc, hexec⟩ := execBind_of_head hstart hop hawake hhead hso hclean hnear hh hdevices hsize
      hcipher himg
    obtain ⟨hcmd, -⟩ := State.cmd?_of_starting hstart
    obtain rfl := State.id_of_cmd? hcmd
    have hrun := (State.cmd?_congr hread.cmds c.id).trans (State.cmd?_runCmd hcmd)
    have hobj := fun i => State.obj_congr (hread.objs.trans (s.runCmd_objs c.id)) c.part i
    have hmem := hread.mem.trans (s.runCmd_mem c.id)
    have hreg {off : Nat} (hoff : ∀ x ∈ readRegs, regKey 0 off ≠ regKey 0 x) : t.reg 0 off = s.reg 0 off :=
      (hread.reg hoff).trans (State.reg_congr (s.runCmd_regs c.id) ..)
    refine ⟨_, hexec, fun hsigner hgood key plain hkey hplain => ?_, fun hbad => ?_⟩
    · rw [← hread.chart.trans (s.runCmd_chart c.id)] at hsigner
      rw [State.deviceKey, ← hread.identity.trans (s.runCmd_identity c.id)] at hkey
      rw [hso, ← hobj] at hnearCt hct
      rw [← State.bytes_congr hmem] at hct
      rw [hdO, ← hobj] at hroom
      obtain ⟨hstored, hended, hcounted, himages⟩ := State.bindPayload_of_opened hecc hrun (by simp) hnearCt hct hplain
      rw [State.bindImage_of_authentic hlen hshape hfits hsigner hgood hkey hroom]
      refine ⟨?_, hended, ?_, imageOf c img, by simp [himages], rfl, rfl, rfl, rfl⟩
      · rw [hstored, hobj, ← hdO]
        exact congrArg (storeMem · _ plain) hmem
      · rwa [counted, hreg (by decide)] at hcounted
    · rw [State.bindImage_of_bad_signature hlen hshape hfits hbad]
      obtain ⟨himages, hended, hcounted⟩ := State.bindFails_ends hrun (by simp) 0x04
      rw [counted, hreg (by decide)] at hcounted
      exact ⟨(State.bindFails_mem ..).trans hmem, himages.trans (hread.images.trans (s.runCmd_images c.id)), hended,
        hcounted⟩
  · exact ⟨_, execUnbind_of_free hstart hop hawake hok hadrift hfree, by simp, by simp,
      State.endCmd_endedWith (State.cmd?_runCmd (State.cmd?_of_starting hstart).1) (by simp) ..⟩
  · exact ⟨_, _, execUnbind_of_bound hstart hop hawake hok hadrift hbound, s.runCmd_mem id,
      State.image?_awaitUnbind ((s.runCmd_image? id ..).trans hbound) id, rfl⟩
  · subst hpart hslot
    obtain ⟨himage, hcmds, hmem⟩ := s.unbindSlot_leaves m id
    exact ⟨_, execUnbindClear_of_idle hm hone hidle, by simpa only [State.image?, State.endCmd_images] using himage,
      State.endCmd_endedWith ((State.cmd?_congr hcmds id).trans hc) (by simp [hphase]) ..,
      (State.endCmd_mem ..).trans hmem⟩
  · exact execUnbindClear_of_executing hk hpart hslot hexec

end Sys2Proof.Machine
end

section
/-!
PROOFS. The rings of a VF: doorbells, ENABLE, and what stops a ring (R254, R256, R258).
-/

namespace Sys2Proof.Machine

/-! ### Rings of the state -/

/-- A ring depends on the table of rings alone. -/
theorem State.ring_congr {s t : State} (h : t.rings = s.rings) (p e : Nat) : t.ring p e = s.ring p e := by
  rw [State.ring, State.ring, h]

/-- A ring of another partition or engine stands. -/
theorem State.ring_setRing_ne (s : State) {p e p' e' : Nat} (r : Ring) (he : e < 8) (he' : e' < 8)
    (h : (p', e') ≠ (p, e)) : (s.setRing p e r).ring p' e' = s.ring p' e' :=
  s.ring_setRing_other r fun hkey => h (Prod.ext_iff.2 ⟨by omega, by omega⟩)

@[simp] theorem State.msix_cmds (s : State) (fn v : Nat) : (s.msix fn v).cmds = s.cmds := by
  simp only [State.msix]
  split <;> rfl

@[simp] theorem State.msix_rings (s : State) (fn v : Nat) : (s.msix fn v).rings = s.rings := by
  simp only [State.msix]
  split <;> rfl

/-! ### Rings that an event stops (R256, R258) -/

/-- A ring as an event that stops it leaves it: one that is not ACTIVE keeps its state. -/
def Ring.stop (r : Ring) : Ring := { r with st := if r.st = .active then .stopped else r.st }

theorem Ring.stop_of_active {r : Ring} (h : r.st = .active) : r.stop = { r with st := .stopped } := by
  rw [Ring.stop, if_pos h]

theorem Ring.stop_of_not_active {r : Ring} (h : r.st ≠ .active) : r.stop = r := by rw [Ring.stop, if_neg h]

theorem State.stopRing_ring (s : State) (p e : Nat) : (s.stopRing p e).ring p e = (s.ring p e).stop := by
  simp only [State.stopRing]
  split
  next hactive => rw [State.ring_setRing_same, Ring.stop_of_active hactive]
  next hother => rw [Ring.stop_of_not_active hother]

theorem State.stopRing_rings_of_not_active {s : State} {p e : Nat} (h : (s.ring p e).st ≠ .active) :
    (s.stopRing p e).rings = s.rings := by simp only [State.stopRing, if_neg h]

@[simp] theorem State.stopRing_regs (s : State) (p e : Nat) : (s.stopRing p e).regs = s.regs := by
  simp only [State.stopRing]
  split <;> simp

@[simp] theorem State.stopRing_cmds (s : State) (p e : Nat) : (s.stopRing p e).cmds = s.cmds := by
  simp only [State.stopRing]
  split <;> simp

section
variable (s : State) (p e i : Nat)

/-- An event of one ring stops it and shows its bit, with or without an interrupt. -/
theorem State.ringFault_of_one :
    s.ringFault p [e] [i] = (s.stopRing p e).setRegB (vfOf p) Reg.CQ_ERR_STAT i true ∨
      s.ringFault p [e] [i] = ((s.stopRing p e).setRegB (vfOf p) Reg.CQ_ERR_STAT i true).msix (vfOf p) 6 := by
  have hreg := State.reg_congr (s.stopRing_regs p e) (vfOf p) Reg.CQ_ERR_STAT
  rw [State.setRegB, hreg]
  unfold State.ringFault
  extract_lets stopped v v' t
  by_cases h : stopped = true ∨ v' ≠ v
  · exact .inr (if_pos h)
  · exact .inl (if_neg h)

theorem State.ringFault_ring : (s.ringFault p [e] [i]).ring p e = (s.ring p e).stop := by
  refine (State.ring_congr ?_ p e).trans (s.stopRing_ring p e)
  obtain h | h := s.ringFault_of_one p e i <;> simp [h]

theorem State.ringFault_rings_of_not_active (h : (s.ring p e).st ≠ .active) :
    (s.ringFault p [e] [i]).rings = s.rings := by
  obtain hf | hf := s.ringFault_of_one p e i <;> simp [hf, State.stopRing_rings_of_not_active h]

@[simp] theorem State.ringFault_cmds : (s.ringFault p [e] [i]).cmds = s.cmds := by
  obtain h | h := s.ringFault_of_one p e i <;> simp [h]

theorem State.ringFault_regB (hi : i < 32) : (s.ringFault p [e] [i]).regB (vfOf p) Reg.CQ_ERR_STAT i = true := by
  obtain h | h := s.ringFault_of_one p e i
  · rw [h, State.regB_setRegB_same _ _ _ _ _ hi]
  · rw [h, State.regB, State.msix_reg, State.reg_setRegB_same, getB_setB_same _ _ _ hi]

end

/-! ### Doorbells (R254) -/

/-- A function that is served, or that does not exist, answers an access with no Unsupported Request. -/
theorem State.unserved_of_served {s : State} {fn : Nat} (h : s.fnServed fn = true) : s.unserved fn = s := by
  simp [State.unserved, h]

/-- A function that exists and is not served answers with an Unsupported Request. -/
theorem State.unserved_of_answers {s : State} {fn : Nat} (h : s.fnServed fn = false) (hbar : s.barAnswers fn = true) :
    s.unserved fn = s.emit .unsupported := by
  simp [State.unserved, h, hbar]

section
variable {s : State} {fn e : Nat} {v : Word} (hfn : fn ≠ 0) (he : e < 6) (hserved : s.fnServed fn = true)
  (hring : (s.ring (fn - 1) e).st ≠ .disabled)
include hfn he hserved hring

theorem execDoorbellSub_served : exec (.doorbellSub fn e v) s =
    .next (if (v - (s.ring (fn - 1) e).subHead).toNat ≤ 2 ^ s.regF fn (Reg.CQ_RING_CFG + 0x40 * e) 0 5 then
        s.setRing (fn - 1) e { s.ring (fn - 1) e with subTail := v }
      else s.badDoorbell (fn - 1) e) := by
  have hno : ¬(fn = 0 ∨ 6 ≤ e ∨ (!s.fnServed fn) = true ∨ (s.ring (fn - 1) e).st = .disabled) := by
    simp [hfn, hserved, hring, he]
  change execDoorbellSub fn e v s = _
  simp only [execDoorbellSub, State.subLog, vfOf_pred hfn, cqReg]
  rw [if_neg hno]

theorem execDoorbellCpl_served : exec (.doorbellCpl fn e v) s =
    .next (if (v - (s.ring (fn - 1) e).cplHead).toNat ≤
          ((s.ring (fn - 1) e).cplTail - (s.ring (fn - 1) e).cplHead).toNat then
        s.setRing (fn - 1) e { s.ring (fn - 1) e with cplHead := v }
      else s.badDoorbell (fn - 1) e) := by
  have hno : ¬(fn = 0 ∨ 6 ≤ e ∨ (!s.fnServed fn) = true ∨ (s.ring (fn - 1) e).st = .disabled) := by
    simp [hfn, hserved, hring, he]
  change execDoorbellCpl fn e v s = _
  simp only [execDoorbellCpl]
  rw [if_neg hno]

end

/-- Doorbells that no ring takes are answered for the function alone. -/
theorem execDoorbell_unserved {s : State} {fn e : Nat} (v : Word)
    (h : s.fnServed fn = false ∨ (s.ring (fn - 1) e).st = .disabled) :
    exec (.doorbellSub fn e v) s = .next (s.unserved fn) ∧ exec (.doorbellCpl fn e v) s = .next (s.unserved fn) := by
  have hno : fn = 0 ∨ 6 ≤ e ∨ (!s.fnServed fn) = true ∨ (s.ring (fn - 1) e).st = .disabled := by
    rw [Bool.not_eq_true']
    tauto
  exact ⟨congrArg Host.Outcome.next (if_pos hno), congrArg Host.Outcome.next (if_pos hno)⟩

/-- A doorbell that is not valid stops its ring and shows DOORBELL. -/
theorem State.badDoorbell_leaves (s : State) {fn : Nat} (hfn : fn ≠ 0) (e : Nat) :
    (s.badDoorbell (fn - 1) e).regB fn Reg.CQ_ERR_STAT 0 = true ∧ (s.badDoorbell (fn - 1) e).mem = s.mem ∧
      (s.badDoorbell (fn - 1) e).ring (fn - 1) e = (s.ring (fn - 1) e).stop := by
  have hbit := s.ringFault_regB (fn - 1) e 0 (by decide)
  rw [vfOf_pred hfn] at hbit
  exact ⟨hbit, s.badDoorbell_mem .., s.ringFault_ring ..⟩

/-- Settles O14: a doorbell of a ring that is not DISABLED by the comparison that validates it, and the others by what
the function answers. -/
theorem doorbellsAreValidated : Obligations.DoorbellsAreValidated := by
  refine ⟨fun s fn e v hfn he hserved hring hvalid => ?_, fun s fn e v hfn he hserved hring hvalid => ?_,
    fun s fn e v c hfn he hserved hring hbad => ?_, fun s fn e v hserved hring => ?_,
    fun s fn e v hserved hbar => ?_⟩
  · rw [execDoorbellSub_served hfn he hserved hring, if_pos hvalid]
  · rw [execDoorbellCpl_served hfn he hserved hring, if_pos hvalid]
  · refine ⟨s.badDoorbell (fn - 1) e, ?_, s.badDoorbell_leaves hfn e⟩
    obtain ⟨rfl, hsub⟩ | ⟨rfl, hcpl⟩ := hbad
    · rw [execDoorbellSub_served hfn he hserved hring, if_neg hsub.not_ge]
    · rw [execDoorbellCpl_served hfn he hserved hring, if_neg hcpl.not_ge]
  · simpa only [State.unserved_of_served hserved] using execDoorbell_unserved v (.inr hring)
  · simpa only [State.unserved_of_answers hserved hbar] using execDoorbell_unserved v (.inl hserved)

/-! ### ENABLE (R256) -/

/-- A DRAINING ring without a taken descriptor becomes DISABLED, and keeps its indexes. -/
theorem State.drainRing_ring (s : State) (p e : Nat) : (s.drainRing p e).ring p e =
    { s.ring p e with
      st := if (s.ring p e).st = .draining ∧ s.takenFrom p e = 0 then .disabled else (s.ring p e).st } := by
  simp only [State.drainRing]
  split
  · exact State.ring_setRing_same ..
  · rfl

/-- Draining a ring changes no more than rings and links. -/
theorem State.drainRing_frame (s : State) (p e : Nat) :
    ∃ rings links, s.drainRing p e = { s with rings := rings, links := links } := by
  simp only [State.drainRing]
  split
  · exact ⟨_, _, rfl⟩
  · exact ⟨_, _, rfl⟩

theorem State.drainRing_ring_ne (s : State) {p e p' e' : Nat} (he : e < 8) (he' : e' < 8) (h : (p', e') ≠ (p, e)) :
    (s.drainRing p e).ring p' e' = s.ring p' e' := by
  simp only [State.drainRing]
  split
  · exact s.ring_setRing_ne _ he he' h
  · rfl

theorem State.ring_setReg (s : State) (fn off : Nat) (v : Word) (p e : Nat) :
    (s.setReg fn off v).ring p e = s.ring p e := State.ring_congr (State.setReg_rings ..) p e

section
variable {s : State} {fn e : Nat} (hfn : fn ≠ 0) (hserved : s.fnServed fn = true)
include hfn hserved

/-- ENABLE written 1: a DISABLED ring becomes ACTIVE and empty. -/
theorem State.ringEnable_rings : (s.ringEnable fn e).rings =
    if (s.ring (fn - 1) e).st = .disabled then (s.setRing (fn - 1) e ⟨.active, 0, 0, 0, 0⟩).rings else s.rings := by
  have hring := s.ring_setReg fn (cqReg Reg.CQ_RING_CTL e) 1 (fn - 1) e
  have hrings := s.setReg_rings fn (cqReg Reg.CQ_RING_CTL e) 1
  unfold State.ringEnable
  rw [if_neg (by simp [hfn, hserved])]
  extract_lets t
  rw [hring]
  split
  · change (t.setRing (fn - 1) e ⟨.active, 0, 0, 0, 0⟩).rings = _
    simp only [State.setRing, hrings, t]
  · exact hrings

/-- ENABLE written 0: an ACTIVE or STOPPED ring drains. -/
theorem State.ringDisable_of_running (h : (s.ring (fn - 1) e).st = .active ∨ (s.ring (fn - 1) e).st = .stopped) :
    s.ringDisable fn e = ((s.setReg fn (cqReg Reg.CQ_RING_CTL e) 0).setRing (fn - 1) e
      { s.ring (fn - 1) e with st := .draining }).drainRing (fn - 1) e := by
  unfold State.ringDisable
  rw [if_neg (by simp [hfn, hserved])]
  exact if_pos h

theorem State.ringDisable_of_not_running
    (h : ¬((s.ring (fn - 1) e).st = .active ∨ (s.ring (fn - 1) e).st = .stopped)) :
    s.ringDisable fn e = s.setReg fn (cqReg Reg.CQ_RING_CTL e) 0 := by
  unfold State.ringDisable
  rw [if_neg (by simp [hfn, hserved])]
  exact if_neg h

end

/-- Settles O15: ENABLE written 1 and 0, by the state of the ring. -/
theorem ringStatesFollowEnable : Obligations.RingStatesFollowEnable := by
  refine ⟨fun s fn e hfn he hserved => ?_, fun s fn e hfn he hserved => ?_⟩
  · refine ⟨s.ringEnable fn e, congrArg Host.Outcome.next (if_pos he), s.ringEnable_mem fn e, ?_⟩
    have hrings := State.ringEnable_rings (e := e) hfn hserved
    split
    next hoff =>
      rw [if_pos hoff] at hrings
      refine ⟨(State.ring_congr hrings ..).trans (s.ring_setRing_same ..), fun p' e' he' hne => ?_⟩
      exact (State.ring_congr hrings ..).trans (s.ring_setRing_ne _ (by omega) he' hne)
    next hon =>
      rw [if_neg hon] at hrings
      exact ⟨State.ring_congr hrings .., fun p' e' _ _ => State.ring_congr hrings ..⟩
  · refine ⟨s.ringDisable fn e, congrArg Host.Outcome.next (if_pos he), s.ringDisable_mem fn e, ?_⟩
    split
    next hrun =>
      rw [State.ringDisable_of_running hfn hserved hrun]
      refine ⟨?_, fun p' e' he' hne => ?_⟩
      · rw [State.drainRing_ring, State.ring_setRing_same]
        simp [State.takenFrom]
      · rw [State.drainRing_ring_ne _ (by omega) he' hne, State.ring_setRing_ne _ _ (by omega) he' hne,
          State.ring_setReg]
    next hrest =>
      rw [State.ringDisable_of_not_running hfn hserved hrest]
      exact ⟨s.ring_setReg .., fun p' e' _ _ => s.ring_setReg ..⟩

end Sys2Proof.Machine
end

section
/-!
PROOFS. A command from its descriptor to the start of its body (R251, R252, R255, R257, R260, R266, R269): what its
first steps leave, the taking of a descriptor, and the end of a WAIT.
-/

namespace Sys2Proof.Machine

/-! ### The first two steps of a command (R252) -/

/-- What a command keeps of its descriptor and its queue while it waits and starts. -/
def Cmd.taken (c : Cmd) : Nat × Queue × BitVec 32 × Nat × Nat × BitVec 512 × List Byte × BitVec 64 :=
  (c.id, c.q, c.index, c.part, c.eng, c.desc, c.payload, c.detail)

theorem Cmd.taken_eq {c : Cmd} {id : Nat} {q : Queue} {index : BitVec 32} {part eng : Nat} {d : BitVec 512}
    {payload : List Byte} {detail : BitVec 64} :
    c.taken = (id, q, index, part, eng, d, payload, detail) ↔ c.id = id ∧ c.q = q ∧ c.index = index ∧ c.part = part ∧
      c.eng = eng ∧ c.desc = d ∧ c.payload = payload ∧ c.detail = detail := by
  simp only [Cmd.taken, Prod.mk.injEq]

theorem Cmd.id_of_taken {c c' : Cmd} (h : c.taken = c'.taken) : c.id = c'.id := congrArg Prod.fst h

/-- The second state is the first after commands passed their first two steps: they stay the commands that were taken, and
of the registers the counts of aborted commands alone change. -/
structure State.Advances (s t : State) : Prop where
  frame : ∃ cmds turns links regs, t = { s with cmds := cmds, turns := turns, links := links, regs := regs }
  taken : t.cmds.map Cmd.taken = s.cmds.map Cmd.taken
  reg : ∀ {fn off : Nat}, (∀ p, regKey fn off ≠ regKey (vfOf p) Reg.CQ_ABORT_CNT) → t.reg fn off = s.reg fn off

namespace State.Advances

theorem refl (s : State) : s.Advances s := ⟨⟨_, _, _, _, rfl⟩, rfl, fun _ => rfl⟩

theorem trans {s t u : State} (h : s.Advances t) (h' : t.Advances u) : s.Advances u := by
  refine ⟨?_, h'.taken.trans h.taken, fun hx => (h'.reg hx).trans (h.reg hx)⟩
  obtain ⟨_, _, _, _, rfl⟩ := h.frame
  obtain ⟨_, _, _, _, rfl⟩ := h'.frame
  exact ⟨_, _, _, _, rfl⟩

theorem foldl {α : Type} {f : State → α → State} (h : ∀ (s : State) a, s.Advances (f s a)) (l : List α) (s : State) :
    s.Advances (l.foldl f s) := by
  induction l generalizing s with
  | nil => exact refl s
  | cons a l ih => exact (h s a).trans (ih _)

/-- What the first steps leave of a state is read off from the record. -/
theorem keeps {β : Type} {s t : State} (h : s.Advances t) (g : State → β)
    (hg : ∀ cmds turns links regs, g s = g { s with cmds := cmds, turns := turns, links := links, regs := regs }) :
    g t = g s := by
  obtain ⟨_, _, _, _, rfl⟩ := h.frame
  exact (hg ..).symm

theorem setCmd (s : State) (id : Nat) {f : Cmd → Cmd} (h : ∀ c, (f c).taken = c.taken) :
    s.Advances (s.setCmd id f) := by
  refine ⟨⟨_, _, _, _, rfl⟩, ?_, fun _ => rfl⟩
  rw [State.setCmd, List.map_map]
  refine List.map_congr_left fun c _ => ?_
  rw [Function.comp_apply, apply_ite Cmd.taken, h, ite_self]

theorem links (s : State) (l : List (Nat × Link)) : s.Advances { s with links := l } :=
  ⟨⟨_, _, _, _, rfl⟩, rfl, fun _ => rfl⟩

theorem queueReady (s : State) (k : Nat) : s.Advances (s.queueReady k) := ⟨⟨_, _, _, _, rfl⟩, rfl, fun _ => rfl⟩

theorem abortCount (s : State) (p : Nat) : s.Advances (s.count (vfOf p) Reg.CQ_ABORT_CNT 1) :=
  ⟨⟨_, _, _, _, rfl⟩, congrArg (List.map _) (State.count_cmds ..), fun hx => State.reg_count_other _ _ (hx p)⟩

section
variable {s t : State} (h : s.Advances t)
include h

theorem rings : t.rings = s.rings := h.keeps State.rings fun _ _ _ _ => rfl
theorem out : t.out = s.out := h.keeps State.out fun _ _ _ _ => rfl
theorem inq : t.inq = s.inq := h.keeps State.inq fun _ _ _ _ => rfl
theorem nextId : t.nextId = s.nextId := h.keeps State.nextId fun _ _ _ _ => rfl
theorem posted : t.posted = s.posted := h.keeps State.posted fun _ _ _ _ => rfl
theorem stale : t.stale = s.stale := h.keeps State.stale fun _ _ _ _ => rfl

/-- A command that was taken stays so, whatever becomes of its phase. -/
theorem exists_cmd {c : Cmd} (hc : c ∈ s.cmds) : ∃ c' ∈ t.cmds, c'.taken = c.taken := by
  have hmem : c.taken ∈ t.cmds.map Cmd.taken := h.taken ▸ List.mem_map_of_mem hc
  exact List.mem_map.1 hmem

/-- No command is taken in these steps. -/
theorem cmd?_eq_none {id : Nat} (hnone : s.cmd? id = none) : t.cmd? id = none := by
  refine List.find?_eq_none.2 fun c hc => ?_
  have hmem : c.taken ∈ s.cmds.map Cmd.taken := h.taken ▸ List.mem_map_of_mem hc
  obtain ⟨c', hc', htaken⟩ := List.mem_map.1 hmem
  rw [← Cmd.id_of_taken htaken]
  exact List.find?_eq_none.1 hnone c' hc'

end

end State.Advances

theorem State.enterBody_advances (s : State) (id : Nat) : s.Advances (s.enterBody id) := by
  unfold State.enterBody
  extract_lets t
  have ht : s.Advances t := by
    simp only [t]
    split
    · split
      · exact .refl s
      · exact .queueReady ..
    · exact .refl s
  refine ht.trans (.setCmd _ _ fun c => ?_)
  extract_lets c'
  split <;> rfl

theorem State.enterWait_advances (s : State) (id : Nat) : s.Advances (s.enterWait id) := by
  unfold State.enterWait
  split
  · split
    · exact .setCmd _ _ fun _ => rfl
    · exact s.enterBody_advances id
  · exact .refl s

theorem State.abortLinked_advances (s : State) (id : Nat) : s.Advances (s.abortLinked id) := by
  unfold State.abortLinked
  split
  · refine Advances.trans ?_ (.abortCount ..)
    exact .setCmd _ _ fun _ => rfl
  · exact .refl s

theorem State.releaseLinks_advances (s : State) (id : Nat) (failed : Bool) : s.Advances (s.releaseLinks id failed) := by
  refine (Advances.links s _).trans (.foldl (fun t c => ?_) _ _)
  split
  · exact t.abortLinked_advances c.id
  · exact t.enterWait_advances c.id

/-! ### The taking of a descriptor (R251, R255, R260) -/

/-- The command that a descriptor becomes. It has ended with FORMAT until its header passes R251. -/
def State.takenCmd (s : State) (q : Queue) (eng part msg gen : Nat) (index : BitVec 32) (last : Bool) (d : BitVec 512)
    (payload : List Byte) : Cmd :=
  { id := s.nextId, q := q, index := index, msg := msg, gen := gen, part := part, eng := eng, desc := d,
    payload := payload, phase := .ended, status := 0x0C, result := s.unbegun eng part d, detail := dTag eng d,
    linkAbort := false, poisoned := false, waited := false, fences := headerOk eng last d,
    refused := s.refuses eng (dOp d) (dNop d), discard := false, waitFrom := s.ms, started := s.posted }

section
variable (s : State) (q : Queue) (eng part msg gen : Nat) (index : BitVec 32) (last : Bool) (d : BitVec 512)
  (payload : List Byte)

/-- A taken descriptor is the newest command, and passes its first steps when its header is good. -/
theorem State.take_advances : ∃ links,
    Advances { s with nextId := s.nextId + 1, links := links,
                      cmds := s.cmds ++ [s.takenCmd q eng part msg gen index last d payload] }
      (s.take q eng part msg gen index last d payload) := by
  unfold State.take
  extract_lets id good lnk c carries t
  refine ⟨_, (?_ : Advances t _)⟩
  clear_value lnk
  split
  · split
    · exact t.abortLinked_advances id
    · exact .setCmd _ _ fun _ => rfl
    · exact t.enterWait_advances id
  · exact .refl t

/-- The command that a taken descriptor has become; one whose header fails R251 has ended. -/
theorem State.take_cmd : ∃ c ∈ (s.take q eng part msg gen index last d payload).cmds,
    c.taken = (s.nextId, q, index, part, eng, d, payload, dTag eng d) ∧
      (headerOk eng last d = false → c.phase = .ended ∧ c.status = 0x0C) := by
  have hnew : ∀ l, s.takenCmd q eng part msg gen index last d payload ∈
      l ++ [s.takenCmd q eng part msg gen index last d payload] := fun l =>
    List.mem_append_right l (List.mem_singleton_self _)
  by_cases hgood : headerOk eng last d = true
  · obtain ⟨links, hadv⟩ := s.take_advances q eng part msg gen index last d payload
    obtain ⟨c, hc, htaken⟩ := hadv.exists_cmd (hnew s.cmds)
    exact ⟨c, hc, htaken, fun hbad => absurd hgood (by simp [hbad])⟩
  · have hcmds : (s.take q eng part msg gen index last d payload).cmds =
        s.cmds ++ [s.takenCmd q eng part msg gen index last d payload] := by
      unfold State.take
      extract_lets id good lnk c carries t
      rw [if_neg hgood]
      rfl
    exact ⟨_, hcmds ▸ hnew s.cmds, rfl, fun _ => ⟨rfl, rfl⟩⟩

end

/-- A take from a host ring that has one to take: the read of the entry at the head, which moves on. -/
def State.headRead (s : State) (p e : Nat) : State :=
  (s.emit (.hostRead (vfOf p) (s.subAddr p e (s.ring p e).subHead.toNat) 64)).setRing p e
    { s.ring p e with subHead := (s.ring p e).subHead + 1 }

theorem execDescriptorTake_of_ready {s : State} {p e : Nat} (d : BitVec 512) (hactive : (s.ring p e).st = .active)
    (hsome : (s.ring p e).subHead ≠ (s.ring p e).subTail)
    (hroom : s.takenFrom p e + ((s.ring p e).cplTail - (s.ring p e).cplHead).toNat < 2 ^ s.cplLog p e)
    (htaking : s.taking p e = true) (hfree : s.queueBusy (.host p e) = false) (hlimit : s.engineFull p e = false) :
    exec (.descriptorTake (.host p e) d) s =
      .next ((s.headRead p e).take (.host p e) e p 0 0 (s.ring p e).subHead false d []) :=
  congrArg Host.Outcome.next (if_pos ⟨hactive, hsome, hroom, htaking, by simp [hfree], by simp [hlimit]⟩)

/-- A partition that is not ACTIVE takes nothing. -/
theorem State.taking_of_not_active {s : State} {p : Nat} (h : s.part p ≠ .active) (e : Nat) : s.taking p e = false := by
  simp [State.taking, h]

theorem execDescriptorTake_of_none {s : State} {p e : Nat} (d : BitVec 512)
    (h : (s.ring p e).st ≠ .active ∨ (s.ring p e).subHead = (s.ring p e).subTail ∨ s.part p ≠ .active) :
    exec (.descriptorTake (.host p e) d) s = .next s := by
  refine congrArg Host.Outcome.next (if_neg fun ⟨hactive, hsome, _, htaking, _⟩ => ?_)
  obtain h | h | h := h
  · exact h hactive
  · exact hsome h
  · exact absurd htaking (by simp [State.taking_of_not_active h])

theorem execDescriptorTake_inbound {s : State} {i e : Nat} (d : BitVec 512) {x : InDesc}
    (hx : s.inq.find? (fun d => d.conn == i && d.eng == e) = some x) (htaking : s.taking x.part e = true)
    (hfree : s.queueBusy (.inbound i e) = false) (hlimit : s.engineFull x.part e = false) :
    exec (.descriptorTake (.inbound i e) d) s =
      .next (State.take { s with inq := eraseFirst (fun d => d.conn == i && d.eng == e) s.inq } (.inbound i e) e x.part
        x.msg (s.conn i).gen (BitVec.ofNat 32 (x.msg % 2 ^ 28 * 16 + x.pos)) x.last x.desc x.payload) := by
  change Host.Outcome.next (s.takeInbound i e) = _
  simp only [State.takeInbound, hx, htaking, hfree, hlimit, Bool.not_false, and_self, if_true]

/-- A read that fails while its ring has an entry to take, or is not ACTIVE any more, stops the ring. -/
theorem execDescriptorReadFail_of_fault {s : State} {p e : Nat} (err : HostErr) (he : e < 6)
    (h : (s.ring p e).st = .active → (s.ring p e).subHead ≠ (s.ring p e).subTail) :
    exec (.descriptorReadFail p e err) s =
      .next ((if (s.ring p e).st = .active then
        s.emit (.hostRead (vfOf p) (s.subAddr p e (s.ring p e).subHead.toNat) 64) else s).ringFault p [e] [2]) := by
  refine congrArg Host.Outcome.next (if_neg ?_)
  rintro (hbig | ⟨hactive, hempty⟩)
  · omega
  · exact h hactive hempty

/-- Settles O16: the takes from a host ring and from an inbound queue, and the read that fails. -/
theorem descriptorsAreTakenInOrder : Obligations.DescriptorsAreTakenInOrder := by
  refine ⟨fun s p e d hactive hsome hroom htaking hfree hlimit => ?_, fun s p e d h => execDescriptorTake_of_none d h,
    fun s i e d x hx htaking hfree hlimit => ?_, fun s p e err he hactive hsome => ?_,
    fun s p e err he hactive => ?_⟩
  · obtain ⟨links, hadv⟩ := (s.headRead p e).take_advances (.host p e) e p 0 0 (s.ring p e).subHead false d []
    refine ⟨_, execDescriptorTake_of_ready d hactive hsome hroom htaking hfree hlimit, by simp [State.headRead],
      hadv.nextId, ?_, ?_, ?_⟩
    · exact (State.ring_congr hadv.rings p e).trans (State.ring_setRing_same ..)
    · rw [hadv.out]
      exact List.mem_cons_self
    · obtain ⟨c, hc, htaken, hbad⟩ := (s.headRead p e).take_cmd (.host p e) e p 0 0 (s.ring p e).subHead false d []
      obtain ⟨hid, hq, hindex, hpart, heng, hdesc, -, hdetail⟩ := Cmd.taken_eq.1 htaken
      exact ⟨c, hc, hid, hq, hindex, hpart, heng, hdesc, fun h => hdetail.trans (by rw [h]; rfl),
        fun h => hdetail.trans (by rw [h]; rfl), hbad⟩
  · obtain ⟨links, hadv⟩ := State.take_advances { s with inq := eraseFirst (fun d => d.conn == i && d.eng == e) s.inq }
      (.inbound i e) e x.part x.msg (s.conn i).gen (BitVec.ofNat 32 (x.msg % 2 ^ 28 * 16 + x.pos)) x.last x.desc
      x.payload
    obtain ⟨c, hc, htaken, -⟩ := State.take_cmd { s with inq := eraseFirst (fun d => d.conn == i && d.eng == e) s.inq }
      (.inbound i e) e x.part x.msg (s.conn i).gen (BitVec.ofNat 32 (x.msg % 2 ^ 28 * 16 + x.pos)) x.last x.desc
      x.payload
    obtain ⟨hid, hq, -, hpart, heng, hdesc, hpayload, -⟩ := Cmd.taken_eq.1 htaken
    exact ⟨_, execDescriptorTake_inbound d hx htaking hfree hlimit, State.take_mem .., hadv.inq, c, hc, hid, hq, hpart,
      heng, hdesc, hpayload⟩
  · rw [execDescriptorReadFail_of_fault err he fun _ => hsome, if_pos hactive]
    exact ⟨_, rfl, State.ringFault_mem .., State.ringFault_cmds .., (State.ringFault_ring ..).trans
      (Ring.stop_of_active hactive), State.ringFault_regB _ p e 2 (by decide)⟩
  · rw [execDescriptorReadFail_of_fault err he fun h => absurd h hactive, if_neg hactive]
    exact ⟨_, rfl, State.ringFault_mem .., s.ringFault_cmds .., s.ringFault_rings_of_not_active p e 2 hactive,
      s.ringFault_regB p e 2 (by decide)⟩

/-! ### The end of a WAIT, and NOP (R266, R269) -/

/-- The command of a number after a change that keeps numbers. -/
theorem State.cmd?_setCmd_same {s : State} {id : Nat} {c : Cmd} (hc : s.cmd? id = some c) {f : Cmd → Cmd}
    (hf : ∀ c, (f c).id = c.id) : (s.setCmd id f).cmd? id = some (f c) := by
  rw [State.cmd_setCmd _ _ _ _ hf, hc, Option.map_some, if_pos (State.id_of_cmd? hc)]

@[simp] theorem State.cplFault_posted (s : State) (r : RecRef) : (s.cplFault r).posted = s.posted := by
  simp only [State.cplFault]
  split <;> simp

/-- A complement fault is counted (R65). -/
theorem State.cplFault_counted (s : State) (r : RecRef) : counted s (s.cplFault r) 0 Reg.MT_CPL_FAULT_CNT 1 := by
  have hreg : (s.cplFault r).reg 0 Reg.MT_CPL_FAULT_CNT = (s.count 0 Reg.MT_CPL_FAULT_CNT 1).reg 0 Reg.MT_CPL_FAULT_CNT := by
    rw [← State.reg_setRegB_other (s.count 0 Reg.MT_CPL_FAULT_CNT 1) (fn := 0) (off := Reg.MT_ERR_STAT) 1 true (by decide)]
    simp only [State.cplFault]
    split <;> rfl
  exact counted_congr hreg (counted_count ..)

/-- A command that no state refuses is ready when it leaves its first steps. -/
theorem State.cmd?_enterBody {s : State} {id : Nat} {c : Cmd} (hc : s.cmd? id = some c) (hrefused : c.refused = false) :
    ∃ c', (s.enterBody id).cmd? id = some c' ∧ c'.phase = .ready := by
  unfold State.enterBody
  extract_lets t
  have ht : t.cmd? id = some c := by
    refine (State.cmd?_congr ?_ id).trans hc
    simp only [t, hc]
    split <;> rfl
  refine ⟨_, State.cmd?_setCmd_same ht fun c => ?_, ?_⟩
  · extract_lets c'
    split <;> rfl
  · simp [hrefused]

section
variable {s : State} {id : Nat} {c : Cmd} (hc : s.cmd? id = some c) (hwait : c.phase = .waiting)
include hc hwait

theorem execWaitSatisfied_below (hok : (s.wm c.part (dWaitWm c.desc)).ok = true)
    (hbelow : wmCount (s.wm c.part (dWaitWm c.desc)).val < dWaitValue c.desc) : exec (.waitSatisfied id) s = .next s := by
  change execWaitSatisfied id s = _
  simp only [execWaitSatisfied, hc, hwait, hok, hbelow, ne_eq, not_true_eq_false, Bool.not_true, Bool.false_eq_true,
    if_false, if_true]

theorem execWaitSatisfied_reached (hok : (s.wm c.part (dWaitWm c.desc)).ok = true)
    (hreached : dWaitValue c.desc ≤ wmCount (s.wm c.part (dWaitWm c.desc)).val)
    (hclean : wmPoison (s.wm c.part (dWaitWm c.desc)).val = false) :
    exec (.waitSatisfied id) s = .next (s.enterBody id) := by
  change execWaitSatisfied id s = _
  simp only [execWaitSatisfied, hc, hwait, hok, hreached.not_gt, hclean, ne_eq, not_true_eq_false, Bool.not_true,
    Bool.false_eq_true, if_false]

theorem execWaitSatisfied_poisoned (hok : (s.wm c.part (dWaitWm c.desc)).ok = true)
    (hreached : dWaitValue c.desc ≤ wmCount (s.wm c.part (dWaitWm c.desc)).val)
    (hpoison : wmPoison (s.wm c.part (dWaitWm c.desc)).val = true) :
    ∃ t c', exec (.waitSatisfied id) s = .next t ∧ t.mem = s.mem ∧ t.cmd? id = some c' ∧ c'.phase = .ended ∧
      c'.status = 0x0A ∧ c'.poisoned = true := by
  change ∃ t c', execWaitSatisfied id s = .next t ∧ _
  simp only [execWaitSatisfied, hc, hwait, hok, hreached.not_gt, hpoison, ne_eq, not_true_eq_false, Bool.not_true,
    Bool.false_eq_true, if_false, if_true]
  exact ⟨_, _, rfl, by simp, (State.cmd?_congr (State.count_cmds ..) id).trans
    (State.cmd?_setCmd_same hc fun _ => rfl), rfl, rfl, rfl⟩

theorem execWaitSatisfied_fault (hbad : (s.wm c.part (dWaitWm c.desc)).ok = false) :
    ∃ t c', exec (.waitSatisfied id) s = .next t ∧ t.mem = s.mem ∧ t.cmd? id = some c' ∧ c'.phase = .ended ∧
      c'.status = 0x0E ∧ counted s t 0 Reg.MT_CPL_FAULT_CNT 1 := by
  have hc' := (State.cmd?_congr (s.cplFault_cmds (.waymark c.part (dWaitWm c.desc))) id).trans hc
  change ∃ t c', execWaitSatisfied id s = .next t ∧ _
  simp only [execWaitSatisfied, hc, hwait, hbad, ne_eq, not_true_eq_false, Bool.not_false, if_false, if_true]
  exact ⟨_, _, rfl, by simp, State.cmd?_setCmd_same hc' fun _ => rfl, rfl, rfl, s.cplFault_counted _⟩

theorem execWaitTimeout_expired (hok : (s.wm c.part (dWaitWm c.desc)).ok = true)
    (hbelow : wmCount (s.wm c.part (dWaitWm c.desc)).val < dWaitValue c.desc)
    (hlimit : s.regF (vfOf c.part) Reg.CQ_CFG 0 16 ≠ 0)
    (hlate : c.waitFrom + s.regF (vfOf c.part) Reg.CQ_CFG 0 16 ≤ s.ms) :
    ∃ t c', exec (.waitTimeout id) s = .next t ∧ t.mem = s.mem ∧ t.cmd? id = some c' ∧ c'.phase = .ended ∧
      c'.status = 0x0B ∧ counted s t (vfOf c.part) Reg.CQ_TIMEOUT_CNT 1 := by
  change ∃ t c', execWaitTimeout id s = .next t ∧ _
  simp only [execWaitTimeout, hc]
  rw [if_pos ⟨hwait, hlimit, hlate, hok, hbelow⟩]
  exact ⟨_, _, rfl, by simp, (State.cmd?_congr (State.count_cmds ..) id).trans
    (State.cmd?_setCmd_same hc fun _ => rfl), rfl, rfl, counted_count ..⟩

end

theorem execNop_of_ready {s : State} {id : Nat} {c : Cmd} (hc : s.cmd? id = some c) (hready : s.bodyReady c = true)
    (hnop : dNop c.desc = true) : exec (.nop id) s = .next (s.endCmd id 0 0) := by
  change execNop id s = _
  simp only [execNop, hc, hready, hnop, Bool.and_self, if_true]

theorem State.phase_of_bodyReady {s : State} {c : Cmd} (h : s.bodyReady c = true) : c.phase = .ready := by
  simp only [State.bodyReady, Bool.and_eq_true, beq_iff_eq] at h
  exact h.1.1.1

/-- Settles O17: the ends of a WAIT by its pair, its COUNT and its limit, and the body of a NOP. -/
theorem waitsEndAsR266Says : Obligations.WaitsEndAsR266Says := by
  refine ⟨fun s id c hc hwait hok hbelow => execWaitSatisfied_below hc hwait hok hbelow,
    fun s id c hc hwait hok hreached hclean hrefused => ?_,
    fun s id c hc hwait hok hreached hpoison => execWaitSatisfied_poisoned hc hwait hok hreached hpoison,
    fun s id c hc hwait hbad => execWaitSatisfied_fault hc hwait hbad,
    fun s id c hc hwait hok hbelow hlimit hlate => execWaitTimeout_expired hc hwait hok hbelow hlimit hlate,
    fun s id c hc hready hnop => ?_⟩
  · obtain ⟨c', hc', hphase⟩ := State.cmd?_enterBody hc hrefused
    exact ⟨_, c', execWaitSatisfied_reached hc hwait hok hreached hclean, State.enterBody_mem .., hc', hphase⟩
  · exact ⟨_, _, execNop_of_ready hc hready hnop, State.endCmd_mem .., State.endCmd_regs ..,
      State.cmd_endCmd s hc (by simp [State.phase_of_bodyReady hready]), rfl, rfl, rfl⟩

end Sys2Proof.Machine
end

section
/-!
PROOFS. The completion of a descriptor (R252 steps 4 to 7, R257, R262, R263, R267, R268): its fence, its record, and what
goes with it.
-/

namespace Sys2Proof.Machine

/-! ### The fence (R267, R268) -/

/-- Places of the register file whose offsets differ within a block of 64 bytes differ, whatever their functions. -/
theorem regKey_ne_of_mod {fn fn' off off' : Nat} (h : off % 64 ≠ off' % 64) : regKey fn off ≠ regKey fn' off' := by
  intro heq
  simp only [regKey] at heq
  omega

theorem cqReg_mod (off e : Nat) : cqReg off e % 64 = off % 64 := by
  simp only [cqReg]
  omega

/-- A register depends on its place alone. -/
theorem State.reg_of_regKey (s : State) {fn off fn' off' : Nat} (h : regKey fn off = regKey fn' off') :
    s.reg fn off = s.reg fn' off' := by rw [State.reg, State.reg, h]

/-- What the fence of a command leaves of the rings and of what their records need: no image is new, and the registers of the
rings, whose offsets lie apart from those of the errors and the watch, stand. -/
structure State.FenceTo (s t : State) : Prop where
  rings : t.rings = s.rings
  posted : t.posted = s.posted
  stale : ∀ x ∈ t.stale, x ∈ s.stale
  ft : t.ft = s.ft
  reg : ∀ {fn off : Nat}, off % 64 ≠ 4 → off % 64 ≠ 16 → t.reg fn off = s.reg fn off
  regF : ∀ {fn off lo w : Nat}, off % 64 ≠ 4 → lo + w ≤ 31 → t.regF fn off lo w = s.regF fn off lo w

namespace State.FenceTo

theorem of_regs {s t : State} (hrings : t.rings = s.rings) (hposted : t.posted = s.posted) (hstale : t.stale = s.stale)
    (hft : t.ft = s.ft) (hreg : ∀ {fn off : Nat}, off % 64 ≠ 4 → t.reg fn off = s.reg fn off) : s.FenceTo t :=
  ⟨hrings, hposted, fun _ hx => hstale ▸ hx, hft, fun h _ => hreg h, fun h _ => congrArg (getF · _ _) (hreg h)⟩

theorem refl (s : State) : s.FenceTo s := of_regs rfl rfl rfl rfl fun _ => rfl

theorem trans {s t u : State} (h : s.FenceTo t) (h' : t.FenceTo u) : s.FenceTo u :=
  ⟨h'.rings.trans h.rings, h'.posted.trans h.posted, fun x hx => h.stale x (h'.stale x hx), h'.ft.trans h.ft,
    fun h4 h16 => (h'.reg h4 h16).trans (h.reg h4 h16), fun h4 hw => (h'.regF h4 hw).trans (h.regF h4 hw)⟩

theorem msix (s : State) (fn v : Nat) : s.FenceTo (s.msix fn v) := by
  refine of_regs (s.msix_rings fn v) ?_ ?_ (s.msix_ft fn v) fun _ => s.msix_reg ..
  all_goals
    simp only [State.msix]
    split <;> rfl

theorem setReg (s : State) (fn : Nat) {off : Nat} (v : Word) (h : off % 64 = 4) : s.FenceTo (s.setReg fn off v) :=
  of_regs (State.setReg_rings ..) (State.setReg_posted ..) (State.setReg_stale ..) (State.setReg_ft ..) fun h4 =>
    s.reg_setReg_other v (regKey_ne_of_mod (by omega))

theorem cqError (s : State) (p : Nat) (bits : List Nat) : s.FenceTo (s.cqError p bits) := by
  simp only [State.cqError]
  split
  · exact setReg s _ _ rfl
  · exact (setReg s _ _ rfl).trans (msix ..)

theorem cplFault (s : State) (r : RecRef) : s.FenceTo (s.cplFault r) := by
  unfold State.cplFault
  extract_lets t
  have ht : s.FenceTo t := (setReg s 0 _ rfl).trans (setReg _ 0 _ rfl)
  split
  · exact ht
  · exact ht.trans (of_regs rfl rfl rfl rfl fun _ => rfl)

/-- A watch that fires clears its EN, bit 31 of its register. -/
theorem disarm (s : State) (fn : Nat) : s.FenceTo (s.setRegB fn Reg.CQ_WATCH_CTL 31 false) := by
  refine ⟨State.setRegB_rings .., State.setRegB_posted .., fun _ hx => by simpa using hx, State.setRegB_ft ..,
    fun _ h16 => s.reg_setRegB_other _ _ (regKey_ne_of_mod h16), fun {f o lo w} _ hw => ?_⟩
  by_cases hkey : regKey f o = regKey fn Reg.CQ_WATCH_CTL
  · rw [State.regF, State.regF, State.reg_of_regKey _ hkey, State.reg_of_regKey _ hkey, State.reg_setRegB_same,
      getF_setB_other _ _ (.inr hw)]
  · exact congrArg (getF · _ _) (s.reg_setRegB_other _ _ hkey)

theorem watchFire (s : State) (p : Nat) : s.FenceTo (s.watchFire p) := by
  simp only [State.watchFire]
  split
  · exact (disarm ..).trans (msix ..)
  · exact refl s

theorem signal (s : State) (p w : Nat) (poison : Bool) : s.FenceTo (s.signal p w poison) := by
  have hwm (v : Pair 64) : s.FenceTo (s.setWm p w v) := of_regs rfl rfl rfl rfl fun _ => rfl
  simp only [State.signal]
  split
  · simp only [State.wmIncrease]
    split
    · exact (hwm _).trans ((cqError ..).trans (watchFire ..))
    · exact (hwm _).trans (watchFire ..)
  · exact (cplFault ..).trans (cqError ..)

end State.FenceTo

section
variable (s : State) (c : Cmd)

theorem State.flush_to : s.FenceTo (s.flush c) :=
  ⟨rfl, rfl, fun _ hx => (List.mem_filter.1 hx).1, rfl, fun _ _ => rfl, fun _ _ => rfl⟩

theorem State.fence_to : s.FenceTo (s.fence c) := by
  unfold State.fence
  split
  · extract_lets t
    have ht : s.FenceTo t := by
      simp only [t]
      split
      · exact s.flush_to c
      · exact .refl s
    split
    · exact ht.trans (.signal ..)
    · exact ht
  · exact .refl s

/-- A FLUSH leaves no earlier image of a write of its command. -/
theorem State.stale_of_fence (hflush : dFlush c.desc = true) (hfences : c.fences = true) {x : Stale}
    (hx : x ∈ (s.fence c).stale) : x.cmd ≠ c.id := by
  have hto : (s.flush c).FenceTo (s.fence c) := by
    simp only [State.fence, hflush, hfences, if_true]
    split
    · exact .signal ..
    · exact .refl _
  intro heq
  simpa [heq] using (List.mem_filter.1 (hto.stale x hx)).2

end

/-- The place of a completion record stands while its command is fenced. -/
theorem State.FenceTo.cplPlace {s t : State} (h : s.FenceTo t) (p e : Nat) : t.cplLog p e = s.cplLog p e ∧
    t.reg64 (vfOf p) (cqReg Reg.CQ_CPL_BASE_LO e) (cqReg Reg.CQ_CPL_BASE_HI e) =
      s.reg64 (vfOf p) (cqReg Reg.CQ_CPL_BASE_LO e) (cqReg Reg.CQ_CPL_BASE_HI e) := by
  refine ⟨h.regF (by rw [cqReg_mod]; decide) (by decide), ?_⟩
  rw [State.reg64, State.reg64, h.reg, h.reg] <;> (rw [cqReg_mod]; decide)

/-! ### What goes with the record (R252) -/

/-- The second state is the first with counters of PF0 gone up. -/
structure State.CountsTo (s t : State) : Prop where
  frame : ∃ regs, t = { s with regs := regs }
  reg : ∀ {fn off : Nat}, fn ≠ 0 → t.reg fn off = s.reg fn off

theorem State.CountsTo.refl (s : State) : s.CountsTo s := ⟨⟨_, rfl⟩, fun _ => rfl⟩

theorem State.CountsTo.trans {s t u : State} (h : s.CountsTo t) (h' : t.CountsTo u) : s.CountsTo u := by
  refine ⟨?_, fun hfn => (h'.reg hfn).trans (h.reg hfn)⟩
  obtain ⟨_, rfl⟩ := h.frame
  obtain ⟨_, rfl⟩ := h'.frame
  exact ⟨_, rfl⟩

theorem State.CountsTo.count (s : State) {off : Nat} (hoff : off < 0x20000) (n : Nat) : s.CountsTo (s.count 0 off n) :=
  ⟨⟨_, rfl⟩, fun hfn => s.reg_count_other n (regKey_ne_pf0 hfn hoff)⟩

theorem State.countDone_to (s : State) (c : Cmd) : s.CountsTo (s.countDone c) := by
  unfold State.countDone
  split
  · exact .refl s
  extract_lets t
  have ht : s.CountsTo t := by
    simp only [t]
    split
    · exact .count s (by decide) 1
    · split
      · exact .count s (by decide) 1
      · exact .refl s
    · exact .count s (by decide) 1
    · split
      · exact .count s (by decide) 1
      · exact .refl s
    · exact .count s (by decide) 1
    · exact .refl s
  split
  · exact ht.trans (.count t (by decide) 1)
  · exact ht

/-- A command once its record is posted: numbered, counted and dropped, with what waits for its LINK let go. -/
def State.retire (s : State) (c : Cmd) : State :=
  (((s.postedNow c.id).countDone c).dropCmd c.id).releaseLinks c.id (!succeeded c.status)

theorem State.complete_host (s : State) {c : Cmd} {p e : Nat} (hq : c.q = .host p e) (lost : Bool) :
    s.complete c lost = (((s.fence c).post c lost).retire c).drainRing p e := by
  simp only [State.complete, State.retire, hq]

section
variable (s : State) (c : Cmd)

/-- What is left of the rings, the records and the images once a command is gone. -/
theorem State.retire_leaves : (s.retire c).rings = s.rings ∧ (s.retire c).out = s.out ∧
    (s.retire c).posted = s.posted + 1 ∧ (s.retire c).cmd? c.id = none ∧
    ∀ x ∈ (s.retire c).stale, ∃ y ∈ s.stale, y.cmd = x.cmd := by
  have hadv := ((((s.postedNow c.id).countDone c).dropCmd c.id)).releaseLinks_advances c.id (!succeeded c.status)
  obtain ⟨regs, hcount⟩ := ((s.postedNow c.id).countDone_to c).frame
  refine ⟨hadv.rings.trans (congrArg State.rings hcount :), hadv.out.trans (congrArg State.out hcount :),
    hadv.posted.trans (congrArg State.posted hcount :), hadv.cmd?_eq_none ?_, fun x hx => ?_⟩
  · refine List.find?_eq_none.2 fun x hx => ?_
    simpa using (List.mem_filter.1 hx).2
  · have hstale : (s.retire c).stale = (s.postedNow c.id).stale := hadv.stale.trans (congrArg State.stale hcount :)
    rw [hstale] at hx
    obtain ⟨y, hy, rfl⟩ := List.mem_map.1 hx
    exact ⟨y, hy, by split <;> rfl⟩

theorem State.retire_mem : (s.retire c).mem = s.mem := by simp [State.retire]

/-- The errors that a VF shows stand. -/
theorem State.retire_errors (p : Nat) :
    (s.retire c).reg (vfOf p) Reg.CQ_ERR_STAT = s.reg (vfOf p) Reg.CQ_ERR_STAT := by
  have hadv := ((((s.postedNow c.id).countDone c).dropCmd c.id)).releaseLinks_advances c.id (!succeeded c.status)
  exact (hadv.reg fun q => regKey_ne_of_mod (by decide)).trans
    (((s.postedNow c.id).countDone_to c).reg (Nat.succ_ne_zero p))

end

/-! ### Completion (R252) -/

theorem State.cmd?_of_done? {s : State} {id : Nat} {c : Cmd} (h : s.done? id = some c) : s.cmd? id = some c := by
  simp only [State.done?] at h
  split at h
  next c' hc =>
    split at h
    · cases h; exact hc
    · cases h
  next => cases h

section
variable {s : State} {c : Cmd} {p e : Nat} (hq : c.q = .host p e) (hkeep : c.discard = false)
include hq hkeep

/-- The record of a command of a host ring, with its interrupt. -/
theorem State.post_record : ∃ more, s.post c false =
    { s.postHost c p e with out := more ++ (s.postHost c p e).out } := by
  simp only [State.post, hq, hkeep, Bool.false_eq_true, if_false]
  split
  · exact ⟨[_], if_neg fun h => Nat.succ_ne_zero p h.1⟩
  · exact ⟨[], rfl⟩

theorem State.post_lost : s.post c true =
    (s.setRing p e { s.ring p e with cplTail := (s.ring p e).cplTail + 1 }).ringFault p [e] [3] := by
  simp only [State.post, hq, hkeep, Bool.false_eq_true, if_false, if_true]

end

/-- The record that a command of a host ring posts. -/
def State.recordOf (s : State) (c : Cmd) (p e flags : Nat) : Out :=
  .record (p + 1)
    (s.reg64 (p + 1) (Reg.CQ_CPL_BASE_LO + 0x40 * e) (Reg.CQ_CPL_BASE_HI + 0x40 * e) +
      32 * ((s.ring p e).cplTail.toNat % 2 ^ s.cplLog p e))
    (Machine.recordBytes c.index.toNat c.status c.eng flags c.part c.result.toNat (dUserTag c.desc) c.detail.toNat
      s.ft.now.toNat)

/-- A fenced command posts the record of the state that it was fenced in. -/
theorem State.FenceTo.recordOf {s t : State} (h : s.FenceTo t) (c : Cmd) (p e flags : Nat) :
    t.recordOf c p e flags = s.recordOf c p e flags := by
  obtain ⟨hlog, hbase⟩ := h.cplPlace p e
  simp only [vfOf, cqReg] at hbase
  rw [State.recordOf, State.recordOf, hlog, hbase, State.ring_congr h.rings, h.ft]

theorem State.postHost_leaves (s : State) (c : Cmd) (p e : Nat) :
    (s.postHost c p e).posted = s.posted ∧ (s.postHost c p e).stale = s.stale ∧
      (s.postHost c p e).ring p e = { s.ring p e with cplTail := (s.ring p e).cplTail + 1 } ∧
      ∃ flags, s.recordOf c p e flags ∈ (s.postHost c p e).out :=
  ⟨rfl, rfl, State.ring_setRing_same .., _, List.mem_cons_of_mem _ List.mem_cons_self⟩

/-- Settles O18: the fence, the record and the retirement of a command of a host ring, and those of one whose record is
lost. -/
theorem completionPostsTheRecord : Obligations.CompletionPostsTheRecord := by
  refine ⟨fun s id c p e hdone hq hkeep => ?_, fun s id c p e err hdone hq hkeep => ?_⟩
  · have hc := State.cmd?_of_done? hdone
    obtain rfl := State.id_of_cmd? hc
    have hfence := s.fence_to c
    obtain ⟨more, hpost⟩ := (State.post_record (s := s.fence c) hq hkeep)
    obtain ⟨hposted, hstale, hring, flags, hrecord⟩ := (s.fence c).postHost_leaves c p e
    obtain ⟨hrings', hout', hposted', hgone, hstale'⟩ := ((s.fence c).post c false).retire_leaves c
    obtain ⟨rings, links, hdrain⟩ := (((s.fence c).post c false).retire c).drainRing_frame p e
    refine ⟨s.complete c false, ?_, s.complete_mem c false, ?_, ?_, ?_, ⟨flags, ?_⟩, fun hflush hfences x hx => ?_⟩
    · change execDescriptorComplete c.id s = _
      simp only [execDescriptorComplete, hdone]
    · rw [s.complete_host hq, hdrain]
      exact hgone
    · rw [s.complete_host hq, hdrain]
      refine hposted'.trans (congrArg (· + 1) ?_)
      rw [hpost]
      exact hposted.trans hfence.posted
    · rw [s.complete_host hq, State.drainRing_ring, State.ring_congr hrings', hpost]
      exact (congrArg Ring.cplTail hring).trans (by rw [State.ring_congr hfence.rings])
    · change s.recordOf c p e flags ∈ _
      rw [← hfence.recordOf, s.complete_host hq, hdrain]
      refine hout' ▸ ?_
      rw [hpost]
      exact List.mem_append_right _ hrecord
    · rw [s.complete_host hq, hdrain] at hx
      obtain ⟨y, hy, hyx⟩ := hstale' x hx
      rw [hpost] at hy
      exact hyx ▸ s.stale_of_fence c hflush hfences (hstale ▸ hy)
  · have hc := State.cmd?_of_done? hdone
    obtain rfl := State.id_of_cmd? hc
    have hring := State.ring_congr (s.fence_to c).rings p e
    have hlost := State.post_lost (s := s.fence c) hq hkeep
    obtain ⟨hrings', -, -, hgone, -⟩ := ((s.fence c).post c true).retire_leaves c
    obtain ⟨rings, links, hdrain⟩ := (((s.fence c).post c true).retire c).drainRing_frame p e
    have hring' : (((s.fence c).post c true).retire c).ring p e =
        Ring.stop { s.ring p e with cplTail := (s.ring p e).cplTail + 1 } := by
      rw [State.ring_congr hrings', hlost, State.ringFault_ring, State.ring_setRing_same, hring]
    refine ⟨s.complete c true, ?_, s.complete_mem c true, ?_, ?_, fun hactive => ?_, ?_⟩
    · change execCplWriteFail c.id err s = _
      simp only [execCplWriteFail, hdone, hq]
    · rw [s.complete_host hq, hdrain]
      exact hgone
    · rw [s.complete_host hq, State.drainRing_ring, hring']
      rfl
    · rw [s.complete_host hq, State.drainRing_ring, hring']
      simp [Ring.stop, hactive]
    · rw [s.complete_host hq, hdrain]
      refine (congrArg (getB · 3) (State.retire_errors ..)).trans ?_
      rw [hlost]
      exact State.ringFault_regB _ p e 3 (by decide)

end Sys2Proof.Machine
end

section
/-!
PROOFS. What is left of a state in which commands, requests, MERGEs and KINDLEs end and messages about them leave (R95,
R166, R187, R201, R224, R264, R297): the rings, the Lodge and the violation logs stand, ended commands stay ended, and
without a MERGE that reports into the node's own memory none comes to be.
-/

namespace Sys2Proof.Machine

/-- The second state is the first after commands ended in it and messages about them left. -/
structure State.EndsTo (s t : State) : Prop where
  rings : t.rings = s.rings
  lodge : t.lodge = s.lodge
  vioLog : t.vioLog = s.vioLog
  vioHead : ∀ p, t.reg (vfOf p) Reg.RT_VIO_HEAD = s.reg (vfOf p) Reg.RT_VIO_HEAD
  ended : ∀ {id st : Nat}, s.endedWith id st → t.endedWith id st
  own : s.noOwnResult → t.noOwnResult

/-- Places of the register file of different offsets differ, whatever their functions. -/
theorem regKey_ne_of_lt {fn fn' off off' : Nat} (h : off < 0x20000) (h' : off' < 0x20000) (hne : off ≠ off') :
    regKey fn off ≠ regKey fn' off' := by
  intro heq
  simp only [regKey] at heq
  omega

theorem opTc_le (op : Nat) : opTc op ≤ 3 := by
  unfold opTc
  (repeat' split) <;> decide

theorem State.endedWith_setCmd {s : State} {id : Nat} {f : Cmd → Cmd} (hid : ∀ c, (f c).id = c.id)
    (hphase : ∀ c, c.phase = .ended → (f c).phase = .ended) (hstatus : ∀ c, (f c).status = c.status) {k st : Nat}
    (h : s.endedWith k st) : (s.setCmd id f).endedWith k st := by
  obtain ⟨c, hc, hended, hst⟩ := h
  refine ⟨if c.id = id then f c else c, ?_, ?_, ?_⟩
  · rw [State.cmd_setCmd _ _ _ _ hid, hc, Option.map_some]
  · split
    · exact hphase c hended
    · exact hended
  · split
    · exact (hstatus c).trans hst
    · exact hst

namespace State.EndsTo

theorem same {s t : State} (hrings : t.rings = s.rings) (hlodge : t.lodge = s.lodge) (hlog : t.vioLog = s.vioLog)
    (hregs : t.regs = s.regs) (hcmds : t.cmds = s.cmds) (hmerges : t.merges = s.merges) : s.EndsTo t :=
  ⟨hrings, hlodge, hlog, fun _ => State.reg_congr hregs .., (State.endedWith_congr hcmds).2, fun h m hm =>
    h m (hmerges ▸ hm)⟩

theorem refl (s : State) : s.EndsTo s := same rfl rfl rfl rfl rfl rfl

theorem trans {s t u : State} (h : s.EndsTo t) (h' : t.EndsTo u) : s.EndsTo u :=
  ⟨h'.rings.trans h.rings, h'.lodge.trans h.lodge, h'.vioLog.trans h.vioLog,
    fun p => (h'.vioHead p).trans (h.vioHead p), fun he => h'.ended (h.ended he), fun ho => h'.own (h.own ho)⟩

theorem foldl {α : Type} {f : State → α → State} (h : ∀ (s : State) a, s.EndsTo (f s a)) (l : List α) (s : State) :
    s.EndsTo (l.foldl f s) := by
  induction l generalizing s with
  | nil => exact refl s
  | cons a l ih => exact (h s a).trans (ih _)

theorem ite {c : Prop} [Decidable c] {s t u : State} (ht : s.EndsTo t) (hu : s.EndsTo u) :
    s.EndsTo (if c then t else u) := by
  split
  · exact ht
  · exact hu

theorem setReg (s : State) (fn : Nat) {off : Nat} (v : Word) (hoff : off < 0x20000) (hne : off ≠ Reg.RT_VIO_HEAD) :
    s.EndsTo (s.setReg fn off v) where
  rings := State.setReg_rings ..
  lodge := State.setReg_lodge ..
  vioLog := State.setReg_vioLog ..
  vioHead _ := s.reg_setReg_other v (regKey_ne_of_lt (by decide) hoff hne.symm)
  ended := (State.endedWith_congr (State.setReg_cmds ..)).2
  own h m hm := h m (by rwa [State.setReg_merges] at hm)

theorem count (s : State) (fn : Nat) {off : Nat} (n : Nat) (hoff : off < 0x20000) (hne : off ≠ Reg.RT_VIO_HEAD) :
    s.EndsTo (s.count fn off n) := setReg s fn _ hoff hne

theorem setRegB (s : State) (fn : Nat) {off : Nat} (i : Nat) (b : Bool) (hoff : off < 0x20000)
    (hne : off ≠ Reg.RT_VIO_HEAD) : s.EndsTo (s.setRegB fn off i b) := setReg s fn _ hoff hne

/-- An error that is counted and flagged. -/
theorem fault (s : State) {cnt stat : Nat} (n i : Nat) (hcnt : cnt < 0x20000 ∧ cnt ≠ Reg.RT_VIO_HEAD)
    (hstat : stat < 0x20000 ∧ stat ≠ Reg.RT_VIO_HEAD) :
    s.EndsTo ((s.count 0 cnt n).setRegB 0 stat i true) :=
  (count s 0 n hcnt.1 hcnt.2).trans (setRegB _ 0 i true hstat.1 hstat.2)

theorem setCmd (s : State) (id : Nat) {f : Cmd → Cmd} (hid : ∀ c, (f c).id = c.id)
    (hphase : ∀ c, c.phase = .ended → (f c).phase = .ended) (hstatus : ∀ c, (f c).status = c.status) :
    s.EndsTo (s.setCmd id f) :=
  ⟨rfl, rfl, rfl, fun _ => rfl, State.endedWith_setCmd hid hphase hstatus, fun h => h⟩

theorem setMerge (s : State) (id : Nat) {f : Merge → Merge} (hf : ∀ m, (f m).toHost = m.toHost) :
    s.EndsTo (s.setMerge id f) := by
  refine ⟨rfl, rfl, rfl, fun _ => rfl, fun h => h, fun h m hm => ?_⟩
  obtain ⟨x, hx, rfl⟩ := List.mem_map.1 hm
  rw [apply_ite Merge.toHost, hf, ite_self]
  exact h x hx

/-- Fewer MERGEs, and nothing else that matters here. -/
theorem fewerMerges {s t : State} (hrings : t.rings = s.rings) (hlodge : t.lodge = s.lodge)
    (hlog : t.vioLog = s.vioLog) (hregs : t.regs = s.regs) (hcmds : t.cmds = s.cmds)
    (hmerges : ∀ m ∈ t.merges, m ∈ s.merges) : s.EndsTo t :=
  ⟨hrings, hlodge, hlog, fun _ => State.reg_congr hregs .., (State.endedWith_congr hcmds).2, fun h m hm =>
    h m (hmerges m hm)⟩

theorem endCmd (s : State) (id st : Nat) (r : Word) : s.EndsTo (s.endCmd id st r) :=
  ⟨by simp, by simp, by simp, fun _ => State.reg_congr (by simp) .., fun h => h.endCmd .., fun h m hm =>
    h m (by simpa using hm)⟩

theorem setConn (s : State) (i : Nat) (c : Conn) : s.EndsTo (s.setConn i c) := same rfl rfl rfl rfl rfl rfl

theorem setReq (s : State) (id : Nat) (f : Req → Req) : s.EndsTo (s.setReq id f) := same rfl rfl rfl rfl rfl rfl

end State.EndsTo

theorem State.ReadTo.endsTo {s t : State} (h : s.ReadTo t) : s.EndsTo t where
  rings := h.keeps State.rings fun _ _ _ _ _ _ _ => rfl
  lodge := h.keeps State.lodge fun _ _ _ _ _ _ _ => rfl
  vioLog := h.keeps State.vioLog fun _ _ _ _ _ _ _ => rfl
  vioHead _ := h.reg fun x hx => regKey_ne_of_lt (by decide) (by revert x; decide) (by revert x; decide)
  ended := (State.endedWith_congr h.cmds).2
  own ho m hm := ho m (by rwa [h.keeps State.merges fun _ _ _ _ _ _ _ => rfl] at hm)

/-! ### Errors and messages -/

theorem State.cplFault_endsTo (s : State) (r : RecRef) : s.EndsTo (s.cplFault r) := by
  unfold State.cplFault
  extract_lets t
  have ht : s.EndsTo t := EndsTo.fault s _ _ (by decide) (by decide)
  split
  · exact ht
  · exact ht.trans (.same rfl rfl rfl rfl rfl rfl)

theorem State.msix_endsTo (s : State) (fn v : Nat) : s.EndsTo (s.msix fn v) := by
  simp only [State.msix]
  split
  · exact .refl s
  · exact .same rfl rfl rfl rfl rfl rfl

theorem State.cqError_endsTo (s : State) (p : Nat) (bits : List Nat) : s.EndsTo (s.cqError p bits) := by
  simp only [State.cqError]
  split
  · exact .setReg s _ _ (by decide) (by decide)
  · exact (EndsTo.setReg s _ _ (by decide) (by decide)).trans (State.msix_endsTo ..)

theorem State.watchFire_endsTo (s : State) (p : Nat) : s.EndsTo (s.watchFire p) := by
  simp only [State.watchFire]
  split
  · exact (EndsTo.setReg s _ _ (by decide) (by decide)).trans (State.msix_endsTo ..)
  · exact .refl s

theorem State.signal_endsTo (s : State) (p w : Nat) (poison : Bool) : s.EndsTo (s.signal p w poison) := by
  have hwm (v : Pair 64) : s.EndsTo (s.setWm p w v) := .same rfl rfl rfl rfl rfl rfl
  simp only [State.signal]
  split
  · simp only [State.wmIncrease]
    split
    · exact (hwm _).trans ((State.cqError_endsTo ..).trans (State.watchFire_endsTo ..))
    · exact (hwm _).trans (State.watchFire_endsTo ..)
  · exact (s.cplFault_endsTo _).trans (State.cqError_endsTo ..)

theorem State.enqueued_endsTo (s : State) (i : Nat) {tc : Nat} (htc : tc ≤ 3) : s.EndsTo (s.enqueued i tc) := by
  have hoff : Reg.SHP_QDEPTH_HWM_TC + 4 * tc < 0x20000 ∧ Reg.SHP_QDEPTH_HWM_TC + 4 * tc ≠ Reg.RT_VIO_HEAD := by
    simp only [Reg.SHP_QDEPTH_HWM_TC, Reg.RT_VIO_HEAD]
    omega
  refine (EndsTo.setReg s _ _ hoff.1 hoff.2).trans (.foldl (fun t ex => ?_) ..)
  split
  · exact .same rfl rfl rfl rfl rfl rfl
  · exact .refl t

theorem State.sendMsg_endsTo (s : State) (i op waykey base len : Nat) (ext data : List Byte) (owner : Owner)
    (num : Option Nat) : s.EndsTo (s.sendMsg i op waykey base len ext data owner num) := by
  simp only [State.sendMsg]
  exact (EndsTo.setConn ..).trans (State.enqueued_endsTo _ i (opTc_le op))

theorem State.sendEmber_endsTo (s : State) (i off id : Nat) (bs : List Byte) : s.EndsTo (s.sendEmber i off id bs) :=
  s.sendMsg_endsTo ..

/-! ### Reservations, verdicts and requests (R182, R187, R190) -/

theorem State.freeRecv_endsTo (s : State) (r : Recv) : s.EndsTo (s.freeRecv r) := by
  simp only [State.freeRecv]
  split <;> exact .same rfl rfl rfl rfl rfl rfl

theorem State.setRecv_endsTo (s : State) (conn : Option Nat) (id : Nat) (f : Recv → Recv) :
    s.EndsTo (s.setRecv conn id f) := .same rfl rfl rfl rfl rfl rfl

theorem State.dropRecv_endsTo (s : State) (r : Recv) : s.EndsTo (s.dropRecv r) := by
  simp only [State.dropRecv]
  split
  · exact s.setRecv_endsTo ..
  · exact s.freeRecv_endsTo r

theorem State.mergeOutcome_endsTo (s : State) (id n : Nat) : s.EndsTo (s.mergeOutcome id n) := .setMerge s id fun _ => rfl

theorem State.headerFault_endsTo (s : State) : s.EndsTo s.headerFault :=
  EndsTo.fault s _ _ (by decide) (by decide)

theorem State.recallInput_endsTo (s : State) (r : Recv) : s.EndsTo (s.recallInput r) := by
  simp only [State.recallInput]
  split
  · exact (s.setRecv_endsTo ..).trans (State.mergeOutcome_endsTo ..)
  · exact s.setRecv_endsTo ..

theorem State.verdictLate_endsTo (s : State) (r : Recv) : s.EndsTo (s.verdictLate r) := by
  simp only [State.verdictLate]
  split
  · exact .refl s
  · exact (EndsTo.fault s _ _ (by decide) (by decide)).trans (State.recallInput_endsTo ..)

theorem State.headerLost_endsTo (s : State) (r : Recv) : s.EndsTo (s.headerLost r) := by
  simp only [State.headerLost]
  split
  · exact (s.cplFault_endsTo _).trans (State.mergeOutcome_endsTo ..)
  · exact s.cplFault_endsTo _

theorem State.unitsMark_endsTo (s : State) : s.EndsTo s.unitsMark := .setReg s 0 _ (by decide) (by decide)

/-- An ember or verdict of the node's own brings no packet to refuse. -/
theorem State.emberRefused_none (s : State) (tenant : Nat) (h : BitVec 256) : s.emberRefused none tenant h = s := rfl

theorem State.verdictIn_endsTo (s : State) (tenant : Nat) (hdr cmp : BitVec 256) :
    s.EndsTo (s.verdictIn none tenant hdr cmp) := by
  unfold State.verdictIn
  split
  · exact s.headerFault_endsTo
  split
  · exact .setReg s 0 _ (by decide) (by decide)
  split
  · exact .refl s
  extract_lets v
  split
  · refine EndsTo.trans ?_ (State.unitsMark_endsTo _)
    exact .same rfl rfl rfl rfl rfl rfl
  split
  · exact .refl s
  split
  · exact (s.headerLost_endsTo _).trans (State.setRecv_endsTo ..)
  split
  · exact .setReg s 0 _ (by decide) (by decide)
  extract_lets t u
  have hu : s.EndsTo u := by
    refine EndsTo.trans ?_ (State.setRecv_endsTo t ..)
    exact .ite (s.verdictLate_endsTo _) (.refl s)
  split
  · exact hu.trans (State.freeRecv_endsTo ..)
  split
  · exact hu
  · exact hu.trans (State.recallInput_endsTo ..)

theorem State.sendVerdict_endsTo (s : State) (e : Sent) (v reason : Nat) : s.EndsTo (s.sendVerdict e v reason) := by
  unfold State.sendVerdict
  extract_lets t u
  have ht : s.EndsTo t := .same rfl rfl rfl rfl rfl rfl
  have hu : s.EndsTo u := by
    refine ht.trans (.setReg t 0 _ ?_ ?_) <;> split <;> decide
  split
  · exact ht.trans ((State.cplFault_endsTo ..).trans (.setReq ..))
  split
  · exact hu.trans (State.sendEmber_endsTo ..)
  · exact hu.trans (State.verdictIn_endsTo ..)

theorem State.failReq_endsTo (s : State) (id order reason : Nat) (spans : Option (List Nat)) :
    s.EndsTo (s.failReq id order reason spans) :=
  (EndsTo.setReq s id _).trans (.foldl (fun t e => t.sendVerdict_endsTo e 2 _) ..)

theorem State.dropBlks_endsTo (s : State) (r : Req) : s.EndsTo (s.dropBlks r) := by
  refine .foldl (fun t b => ?_) _ s
  unfold State.dropPlace
  split <;> exact .same rfl rfl rfl rfl rfl rfl

theorem State.mergePast_endsTo (s : State) (m : Merge) : s.EndsTo (s.mergePast m) :=
  (EndsTo.foldl State.dropRecv_endsTo (s.inputsOf m) s).trans (.same rfl rfl rfl rfl rfl rfl)

/-! ### KINDLEs (R219, R224) -/

theorem State.dropKindle_endsTo (s : State) (id : Nat) : s.EndsTo (s.dropKindle id) := by
  unfold State.dropKindle
  extract_lets ids t u
  have ht : s.EndsTo t := .foldl State.dropBlks_endsTo ..
  have hu : t.EndsTo u := .foldl State.mergePast_endsTo ..
  exact ht.trans (hu.trans (.fewerMerges rfl rfl rfl rfl rfl fun _ hm => (List.mem_filter.1 hm).1))

theorem State.finishKindle_endsTo (s : State) (k : Kindle) (status : Nat) (already : Bool) (missing : Option Nat) :
    s.EndsTo (s.finishKindle k status already missing) := by
  rw [State.finishKindle_eq]
  refine (s.dropKindle_endsTo k.cmd).trans ((EndsTo.endCmd ..).trans (.foldl (fun t x => ?_) ..))
  refine EndsTo.trans ?_ (.endCmd ..)
  exact .same rfl rfl rfl rfl rfl rfl

theorem State.nonfinite_endsTo (s : State) (status : Nat) : s.EndsTo (s.nonfinite status) := by
  unfold State.nonfinite
  split
  · exact .setReg s 0 _ (by decide) (by decide)
  · exact .refl s

theorem State.putKindle_endsTo (s : State) (k : Kindle) : s.EndsTo (s.putKindle k) := .same rfl rfl rfl rfl rfl rfl

theorem State.startNext_endsTo (s : State) (p n : Nat) : s.EndsTo (s.startNext p n) := by
  induction n generalizing s with
  | zero => exact .refl s
  | succ n ih =>
    unfold State.startNext
    split
    · exact .refl s
    split
    · exact .refl s
    split
    · exact (s.finishKindle_endsTo ..).trans (ih _)
    rename_i k _ m _
    extract_lets k'
    have h := (s.beginKindle_readTo k').endsTo
    split
    · exact (s.finishKindle_endsTo ..).trans (ih _)
    split
    next t k'' heq => rw [heq] at h; exact h.trans (State.putKindle_endsTo ..)
    next t e heq =>
      rw [heq] at h
      exact h.trans ((State.nonfinite_endsTo ..).trans ((State.finishKindle_endsTo ..).trans (ih _)))

theorem State.endKindles_endsTo (s : State) (f : Kindle → Bool) (status : Nat) : s.EndsTo (s.endKindles f status) := by
  refine (EndsTo.foldl (fun t k => ?_) ..).trans (.foldl (fun t p => t.startNext_endsTo p _) ..)
  split
  · exact t.finishKindle_endsTo ..
  · exact .refl t

/-! ### HAULs and embers of the node's own (R185, R196 to R198, R264) -/

theorem State.endHaul_endsTo (s : State) (h : Haul) (status : Nat) : s.EndsTo (s.endHaul h status) := by
  simp only [State.endHaul]
  refine EndsTo.trans ?_ (.endCmd ..)
  refine EndsTo.trans ?_ (.setCmd _ _ (fun _ => rfl) (fun _ h => h) fun _ => rfl)
  exact .same rfl rfl rfl rfl rfl rfl

theorem State.sinkHeld_endsTo (s : State) (conn : Option Nat) (units : Nat) : s.EndsTo (s.sinkHeld conn units) := by
  have hcount : s.EndsTo (s.count 0 Reg.MG_ORPHAN_CNT 1) := .count s 0 1 (by decide) (by decide)
  simp only [State.sinkHeld]
  split
  · exact hcount.trans (.setConn ..)
  · exact hcount

theorem State.dedup_endsTo (s : State) (m : Merge) (r : Recv) : s.EndsTo (s.dedup m r) := by
  simp only [State.dedup]
  refine EndsTo.trans ?_ (State.dropRecv_endsTo ..)
  refine EndsTo.trans ?_ (.count _ 0 1 (by decide) (by decide))
  exact .setMerge s _ fun _ => rfl

theorem State.mergeCounted_endsTo (s : State) (r : Nat × Nat) : s.EndsTo (s.mergeCounted r) := by
  unfold State.mergeCounted
  extract_lets t
  have ht : s.EndsTo t := by
    simp only [t]
    split
    · exact .refl s
    · exact .fault s _ _ (by decide) (by decide)
  split
  · exact ht.trans (.setRegB t 0 6 true (by decide) (by decide))
  · exact ht

theorem State.mergeValue_endsTo (s : State) (m : Merge) (b : List Byte) (dist : Nat) :
    s.EndsTo (s.mergeValue m b dist) := by
  unfold State.mergeValue
  split
  · extract_lets k r t
    have ht : s.EndsTo t := by
      refine EndsTo.trans ?_ (State.mergeCounted_endsTo ..)
      exact .setMerge s _ fun _ => rfl
    split
    · exact ht
    · exact ht.trans (State.mergeOutcome_endsTo ..)
  · exact .refl s

theorem State.accept_endsTo (s : State) (m : Merge) (r : Recv) : s.EndsTo (s.accept m r) :=
  (s.setRecv_endsTo ..).trans (.setMerge _ _ fun _ => rfl)

theorem State.offer_endsTo (s : State) (m : Merge) (r : Recv) (dist : Nat) : s.EndsTo (s.offer m r dist) := by
  unfold State.offer
  extract_lets t b ins again u
  have ht : s.EndsTo t := .ite (State.mergeOutcome_endsTo ..) (.refl s)
  have hu : s.EndsTo u := ht.trans (State.accept_endsTo ..)
  split
  · exact ht.trans (State.dedup_endsTo ..)
  split
  · exact .ite (ht.trans (State.dedup_endsTo ..)) (hu.trans (State.mergeOutcome_endsTo ..))
  split
  · exact ht.trans ((EndsTo.setRegB t 0 5 true (by decide) (by decide)).trans
      ((State.mergeOutcome_endsTo ..).trans (State.dropRecv_endsTo ..)))
  split
  · exact ht.trans (State.dedup_endsTo ..)
  split
  · exact hu.trans (State.mergeValue_endsTo ..)
  · exact hu

theorem State.placeEmber_endsTo (s : State) (conn : Option Nat) (hdr : BitVec 256) (body : List Byte) (dist : Nat)
    (r : Recv) : s.EndsTo (s.placeEmber conn hdr body dist r) := by
  unfold State.placeEmber
  extract_lets digestOk resOk t wrong u r' v
  have ht : s.EndsTo t := by
    simp only [t]
    split
    · exact .fault s _ _ (by decide) (by decide)
    split
    · exact .fault s _ _ (by decide) (by decide)
    · exact .refl s
  have hu : s.EndsTo u := by
    simp only [u]
    split
    · exact ht.trans (.count t 0 1 (by decide) (by decide))
    · exact ht
  have hv : s.EndsTo v := hu.trans ((u.setRecv_endsTo ..).trans (State.unitsMark_endsTo _))
  split
  · exact hv.trans (State.offer_endsTo ..)
  split
  · exact hv.trans ((EndsTo.count v 0 1 (by decide) (by decide)).trans (State.dropRecv_endsTo ..))
  · exact hv

theorem State.emberIn_endsTo (s : State) (tenant : Nat) (hdr cmp : BitVec 256) (body : List Byte) (dist : Nat) :
    s.EndsTo (s.emberIn none tenant hdr cmp body dist) := by
  unfold State.emberIn
  split
  · exact s.headerFault_endsTo
  split
  · exact s.sinkHeld_endsTo ..
  split
  · exact .refl s
  split
  · split
    · extract_lets t u
      have ht : s.EndsTo t := .count s 0 1 (by decide) (by decide)
      have hu : s.EndsTo u := by
        simp only [u]
        split
        · exact ht.trans (.setMerge t _ fun _ => rfl)
        · exact ht
      exact .ite hu hu
    · exact s.placeEmber_endsTo ..
  · refine EndsTo.trans ?_ (State.placeEmber_endsTo ..)
    exact .same rfl rfl rfl rfl rfl rfl

/-! ### Commands that are cut (R349, R365, R397, R398) -/

theorem State.codedWrite_endsTo (s : State) (part cmd a : Nat) (bs : List Byte) :
    s.EndsTo (s.codedWrite part cmd a bs) := by
  simp only [State.codedWrite]
  have hread := (s.opens_readTo a bs.length).trans (.foldl State.meetSector_readTo (s.edgeSectors a bs.length) _)
  refine hread.endsTo.trans ?_
  exact .same rfl rfl rfl rfl rfl rfl

theorem State.endAppend_endsTo (s : State) (c : Cmd) (status : Nat) (replay held : Bool) :
    s.EndsTo (s.endAppend c status replay held) := by
  simp only [State.endAppend]
  exact EndsTo.trans (.ite (.setReg s 0 _ (by decide) (by decide)) (.refl s)) (.endCmd ..)

theorem State.endMerge_endsTo (s : State) (m : Merge) (status : Nat) : s.EndsTo (s.endMerge m status) := by
  simp only [State.endMerge]
  exact EndsTo.trans (.ite (s.mergePast_endsTo m) (.refl s)) (.endCmd ..)

theorem State.sendResult_endsTo (s : State) (m : Merge) (status level first snapshot : Nat) (tail : Bool)
    (hs : List Head) (miss : List (Nat × Nat)) :
    s.EndsTo (s.sendResult m status level first snapshot tail hs miss) := by
  unfold State.sendResult
  extract_lets flags body dest hdr
  split
  · exact s.codedWrite_endsTo ..
  split
  · exact s.sendEmber_endsTo ..
  · exact s.emberIn_endsTo ..

theorem State.reportMerge_endsTo (s : State) (m : Merge) (status : Nat) (miss : List (Nat × Nat)) :
    s.EndsTo (s.reportMerge m status miss) := by
  simp only [State.reportMerge]
  exact EndsTo.trans (.ite (s.sendResult_endsTo ..) (.refl s)) (State.endMerge_endsTo ..)

theorem State.cutCmd_endsTo (s : State) (c : Cmd) (status reason : Nat) : s.EndsTo (s.cutCmd c status reason) := by
  unfold State.cutCmd
  extract_lets written t u
  have hu : s.EndsTo u := by
    refine EndsTo.trans (t := t) (.setCmd s _ (fun _ => rfl) (fun _ h => h) fun _ => rfl) ?_
    exact .same rfl rfl rfl rfl rfl rfl
  split
  next r _ =>
    have hreq := (u.failReq_endsTo c.id (cutOrder status) reason none).trans (State.dropBlks_endsTo _ r)
    refine hu.trans (hreq.trans ?_)
    refine EndsTo.trans ?_ (.endCmd ..)
    exact .same rfl rfl rfl rfl rfl rfl
  next m _ _ =>
    refine hu.trans ((u.reportMerge_endsTo m status []).trans ?_)
    exact .fewerMerges rfl rfl rfl rfl rfl fun _ hm => (List.mem_filter.1 hm).1
  next h _ _ _ => exact hu.trans (u.endHaul_endsTo h status)
  next h _ _ _ _ =>
    refine hu.trans (EndsTo.trans ?_ (State.endAppend_endsTo ..))
    exact .same rfl rfl rfl rfl rfl rfl
  next => exact .ite (hu.trans (u.endAppend_endsTo ..)) (hu.trans (.endCmd ..))

theorem State.cutCmds_endsTo (s : State) (f : Cmd → Bool) (status reason : Nat) :
    s.EndsTo (s.cutCmds f status reason) :=
  (s.endKindles_endsTo _ status).trans (.foldl (fun t c => t.cutCmd_endsTo c status reason) ..)

/-- A MERGE without a result for the node's own memory reports elsewhere. -/
theorem State.sendResult_mem {s : State} {m : Merge} (h : m.toHost = false) (status level first snapshot : Nat)
    (tail : Bool) (hs : List Head) (miss : List (Nat × Nat)) :
    (s.sendResult m status level first snapshot tail hs miss).mem = s.mem := by
  simp only [State.sendResult, h, Bool.false_eq_true, if_false]
  split <;> simp

theorem State.reportMerge_mem {s : State} {m : Merge} (h : m.toHost = false) (status : Nat) (miss : List (Nat × Nat)) :
    (s.reportMerge m status miss).mem = s.mem := by
  simp only [State.reportMerge, State.endMerge_mem]
  split
  · exact State.sendResult_mem h ..
  · rfl

theorem State.mem_of_merge? {s : State} {id : Nat} {m : Merge} (h : s.merge? id = some m) : m ∈ s.merges :=
  List.mem_of_find?_eq_some h

/-- Commands are cut without a byte stored, where no MERGE has its result to write into the node's own memory. -/
theorem State.cutCmd_mem {s : State} (h : s.noOwnResult) (c : Cmd) (status reason : Nat) :
    (s.cutCmd c status reason).mem = s.mem := by
  unfold State.cutCmd
  extract_lets written t u
  have hu : u.mem = s.mem := rfl
  split
  · simp [hu]
  next m _ hm => exact (State.reportMerge_mem (h m (State.mem_of_merge? (s := u) hm)) status []).trans hu
  · simp [hu]
  · simp [hu]
  · simp [hu]

theorem foldl_mem_of_noOwnResult {α : Type} {f : State → α → State} (hends : ∀ (s : State) a, s.EndsTo (f s a))
    (hmem : ∀ (s : State) a, s.noOwnResult → (f s a).mem = s.mem) (l : List α) {s : State} (h : s.noOwnResult) :
    (l.foldl f s).mem = s.mem := by
  induction l generalizing s with
  | nil => rfl
  | cons a l ih => rw [List.foldl_cons, ih ((hends s a).own h), hmem s a h]

theorem State.cutCmds_mem {s : State} (h : s.noOwnResult) (f : Cmd → Bool) (status reason : Nat) :
    (s.cutCmds f status reason).mem = s.mem := by
  rw [State.cutCmds, foldl_mem_of_noOwnResult (fun t c => t.cutCmd_endsTo c status reason)
    (fun t c ht => State.cutCmd_mem ht c status reason) _ ((s.endKindles_endsTo _ status).own h), State.endKindles_mem]

end Sys2Proof.Machine
end

section
/-!
PROOFS. The Lodge: its resets, link training, VF Enable and the FLR of a VF (R256, R396, R397, R405, R409, R439).
-/

namespace Sys2Proof.Machine

/-! ### What ends with a function -/

theorem State.closeHostWindows_endsTo (s : State) (f : Nat → Bool) : s.EndsTo (s.closeHostWindows f) := by
  simp only [State.closeHostWindows]
  refine EndsTo.trans ?_ (.foldl (fun t h => t.endHaul_endsTo h 0x0A) ..)
  exact .foldl (f := fun t k => t.setFar k _) (fun t k => .same rfl rfl rfl rfl rfl rfl) ..

theorem State.ring_ringsOff (s : State) (p q : Nat) {e : Nat} (he : e < 8) :
    (s.ringsOff p).ring q e = if q = p then ⟨.disabled, 0, 0, 0, 0⟩ else s.ring q e := by
  have hq : (q * 8 + e) / 8 = q := by omega
  have hkeep := tget_tkeep (d := fun _ => (⟨.disabled, 0, 0, 0, 0⟩ : Ring)) (fun k => k / 8 != p) s.rings (q * 8 + e)
  simp only [hq, bne_iff_ne, ne_eq, ite_not] at hkeep
  exact hkeep

/-! ### FLR (R397) -/

/-- The FLR of a VF disables the rings of its partition and no other. -/
theorem State.vfReset_ring (s : State) (p q : Nat) {e : Nat} (he : e < 8) :
    (s.vfReset p).ring q e = if q = p then ⟨.disabled, 0, 0, 0, 0⟩ else s.ring q e := by
  have hcut := (s.discardRecords (· == p)).cutCmds_endsTo (fun c => c.fromHost p) 0x0A 4
  rw [State.vfReset, State.ring_congr (State.closeHostWindows_endsTo ..).rings]
  refine (State.ring_ringsOff _ p q he).trans (if_congr Iff.rfl rfl ?_)
  exact State.ring_congr hcut.rings q e

theorem State.vfReset_lodge (s : State) (p : Nat) : (s.vfReset p).lodge = s.lodge :=
  (State.closeHostWindows_endsTo ..).lodge.trans
    ((s.discardRecords (· == p)).cutCmds_endsTo (fun c => c.fromHost p) 0x0A 4).lodge

theorem State.vfReset_mem {s : State} (h : s.noOwnResult) (p : Nat) : (s.vfReset p).mem = s.mem := by
  simp only [State.vfReset, State.closeHostWindows_mem, State.resetRegs_mem, State.ringsOff_mem]
  exact State.cutCmds_mem (s := s.discardRecords (· == p)) h ..

/-! ### Lodge reset (R396) -/

theorem State.resetRegs_fold (l : List Nat) (s : State) :
    (l.foldl State.resetRegs s).lodge = s.lodge ∧ (l.foldl State.resetRegs s).rings = s.rings := by
  induction l generalizing s with
  | nil => exact ⟨rfl, rfl⟩
  | cons fn l ih => exact ih (s.resetRegs fn)

@[simp] theorem State.retarget_rings (s : State) : s.retarget.rings = s.rings := by
  simp only [State.retarget, State.busyFell]
  split <;> simp

@[simp] theorem State.retarget_lodge (s : State) : s.retarget.lodge = s.lodge := by
  simp only [State.retarget, State.busyFell]
  split
  · exact (State.msix_endsTo ..).lodge
  · rfl

/-- A Lodge reset leaves no link, no VF and no ring. -/
theorem State.lodgeDown_leaves (s : State) : s.lodgeDown.rings = [] ∧
    s.lodgeDown.lodge = { s.lodge with linkUp := false, numVfs := 0, vfEnable := false, d3hot := false } := by
  simp only [State.lodgeDown, State.count_rings, State.count_lodge, State.retarget_rings, State.retarget_lodge,
    (State.closeHostWindows_endsTo ..).rings, (State.closeHostWindows_endsTo ..).lodge, (State.resetRegs_fold ..).1]
  exact ⟨trivial, rfl⟩

/-- A cause that acts takes the Lodge down; PERST# stays asserted. -/
theorem execLodgeReset_acts {s : State} {c : LodgeCause} (hup : c ≠ .perst → s.lodge.linkUp = true)
    (hperst : c = .perst → s.lodge.perst = false) :
    exec (.lodgeReset c) s =
      .next (if c = .perst then { s with lodge := { s.lodge with perst := true } } else s).lodgeDown := by
  refine congrArg Host.Outcome.next ?_
  cases c with
  | perst => exact if_neg (by simp [hperst rfl])
  | hotReset => exact if_pos (hup (by decide))
  | linkDown => exact if_pos (hup (by decide))

/-! ### VF Enable (R439) -/

/-- With VF Enable clear no VF exists that could cease to. -/
theorem State.fnExists_vf {s : State} (h : s.lodge.vfEnable = false) (p : Nat) : s.fnExists (p + 1) = false := by
  simp [State.fnExists, h]

/-- Settles O56: what a Lodge reset leaves, link training and VF Enable by their conditions, and an FLR by the rings
that it disables. -/
theorem lodgeAndFunctions : Obligations.LodgeAndFunctions := by
  refine ⟨fun s c hup hperst => ?_, fun s => rfl, fun s hpwr hperst hstrap => ?_, fun s hoff => ?_,
    fun s n b hans hn hvf => ?_, fun s fn hans hfn h0 => ?_⟩
  · obtain ⟨hrings, hlodge⟩ :=
      (if c = .perst then { s with lodge := { s.lodge with perst := true } } else s : State).lodgeDown_leaves
    refine ⟨_, execLodgeReset_acts hup hperst, ?_, hrings, ?_⟩
    · rw [State.lodgeDown_mem]
      split <;> rfl
    · rw [hlodge]
      exact ⟨rfl, rfl, rfl, fun hc => by simp [hc]⟩
  · exact congrArg Host.Outcome.next (if_pos ⟨hpwr, by simp [hperst], hstrap⟩)
  · refine congrArg Host.Outcome.next (if_neg ?_)
    rintro ⟨-, hperst, hstrap⟩
    obtain h | h := hoff
    · exact hstrap h
    · simp [h] at hperst
  · refine congrArg Host.Outcome.next ((if_neg ?_).trans ?_)
    · simp [hans, hn]
    · simp [State.fnExists_vf hvf]
  · have hcount := State.EndsTo.count s 0 (off := Reg.LS_FLR_CNT) 1 (by decide) (by decide)
    have hexec : exec (.functionLevelReset fn) s = .next ((s.count 0 Reg.LS_FLR_CNT 1).vfReset (fn - 1)) :=
      congrArg Host.Outcome.next ((if_neg (by simp [hans, hfn])).trans (if_neg h0))
    refine ⟨_, hexec, fun hown => ?_, ?_, fun p e he => ?_⟩
    · rw [State.vfReset_mem (hcount.own hown), State.count_mem]
    · rw [State.vfReset_lodge, State.count_lodge]
    · rw [State.vfReset_ring _ _ _ he, State.ring_congr hcount.rings]

end Sys2Proof.Machine
end

section
/-!
PROOFS. Answers from far nodes: READ_RESP bytes, completion records and REPORTs (R261, R289, R311 to R314, R384).
-/

namespace Sys2Proof.Machine

/-! ### Storage of a short range (R46) -/

/-- The decoding of R46 takes the first stack's addresses into its columns. -/
theorem native_lt_of_low {a : Nat} (h : 0x030000000000 ≤ a) (h' : a < 0x030000000000 + 2 ^ 37) :
    native a < 0x010000000000 + 2 ^ 37 := by
  obtain ⟨stack, hi, lo, b, hstack, hhi, hlo, hb, rfl⟩ := exists_fields_of_compat h (by omega)
  have hpc := xor_lt_32 hlo (Nat.mod_lt hi (by decide : 0 < 32))
  rw [native_of_fields hstack hhi hlo hb]
  omega

/-- An address outside the window of R46 that is near one inside it names other storage. -/
theorem native_ne_of_outside {a b : Nat} (ha : 0x030000000000 ≤ a) (ha' : a < 0x050000000000)
    (hb : ¬(0x030000000000 ≤ b ∧ b < 0x050000000000)) (hnear : a < b + 2 ^ 25) : native a ≠ native b := by
  obtain ⟨hge, hlt⟩ := native_mem_hot ha ha'
  have hself : native b = b := by rw [native, if_neg hb]
  intro heq
  have hlow := native_lt_of_low ha (by omega)
  omega

/-- Within 32 MiB different addresses name different storage. -/
theorem native_inj_of_near {a b : Nat} (hab : a < b + 2 ^ 25) (hba : b < a + 2 ^ 25) (h : native a = native b) :
    a = b := by
  by_cases ha : 0x030000000000 ≤ a ∧ a < 0x050000000000
  · by_cases hb : 0x030000000000 ≤ b ∧ b < 0x050000000000
    · obtain ⟨-, hback, -⟩ := compatDecodingIsOneToOne.1 a ha.1 ha.2
      obtain ⟨-, hback', -⟩ := compatDecodingIsOneToOne.1 b hb.1 hb.2
      rw [← hback, h, hback']
    · exact absurd h (native_ne_of_outside ha.1 ha.2 hb hab)
  · by_cases hb : 0x030000000000 ≤ b ∧ b < 0x050000000000
    · exact absurd h.symm (native_ne_of_outside hb.1 hb.2 ha hba)
    · rwa [native, if_neg ha, native, if_neg hb] at h

/-- A store of at most 32 MiB is read back. -/
theorem State.byte_store_near (s : State) (a : Nat) {bs : List Byte} (hlen : bs.length ≤ 2 ^ 25) {j : Nat}
    (hj : j < bs.length) : (s.store a bs).byte (a + j) = bs.getD j 0 := by
  refine s.byte_store_at a bs hj fun i hji hi heq => ?_
  have := native_inj_of_near (by omega) (by omega) heq
  omega

/-! ### READ_RESP (R314, R384) -/

/-- The bytes of a read of a HAUL in whole mode that come for the node's own memory are stored at their place. -/
theorem State.haulWrite_own_mem (s : State) (c : Cmd) {h : Haul} (hdst : h.dstFar = []) (htile : h.tile = false)
    (off : Nat) (bs : List Byte) :
    (s.haulWrite c h off bs).1.mem = (s.store (objBase h.dst + haDstOff c.desc + off) bs).mem := by
  simp only [State.haulWrite, hdst, farAt, List.find?_nil, Option.map_none]
  split
  next hempty =>
    rw [List.isEmpty_iff.1 hempty]
    rfl
  · change storeMem (State.opens ..).mem _ _ = _
    simp only [State.opens_mem, haulDst, htile, Bool.false_eq_true, if_false]
    rfl

section
variable {s : State} {i msg : Nat} {h : Haul} {c : Cmd} {r : HaulMsg} (off : Nat) (bs : List Byte)
  (hh : s.hauls.find? (fun h => h.reads.any fun r => r.conn == i && r.msg == msg) = some h)
  (hc : s.cmd? h.cmd = some c) (hr : h.reads.find? (fun r => r.conn == i && r.msg == msg) = some r)
include hh hc hr

/-- Until all bytes of a read have come, those that came are kept with it. -/
theorem State.haulArrive_part (hshort : (storedForm (joinParts 0 (insertPart (off, bs) r.parts))).length < r.len) :
    (s.haulArrive i msg off bs).mem = s.mem ∧ (s.haulArrive i msg off bs).cmds = s.cmds := by
  simp only [State.haulArrive, hh, hc, hr, if_pos hshort]
  exact ⟨rfl, rfl⟩

/-- A read whose bytes have all come moves them to their place. -/
theorem State.haulArrive_whole_mem (hdst : h.dstFar = []) (htile : h.tile = false)
    (hall : r.len ≤ (storedForm (joinParts 0 (insertPart (off, bs) r.parts))).length) :
    (s.haulArrive i msg off bs).mem = (s.store (objBase h.dst + haDstOff c.desc + r.off)
      ((storedForm (joinParts 0 (insertPart (off, bs) r.parts))).take r.len)).mem := by
  simp only [State.haulArrive, hh, hc, hr, if_neg (Nat.not_lt.2 hall), State.haulStep_mem]
  exact s.haulWrite_own_mem c (by exact hdst) (by exact htile) ..

end

/-- Bytes that no HAUL waits for change nothing. -/
theorem State.haulArrive_of_none {s : State} {i msg : Nat}
    (h : ∀ h ∈ s.hauls, ∀ r ∈ h.reads, r.conn ≠ i ∨ r.msg ≠ msg) (off : Nat) (bs : List Byte) :
    s.haulArrive i msg off bs = s := by
  have hnone : s.hauls.find? (fun h => h.reads.any fun r => r.conn == i && r.msg == msg) = none := by
    refine List.find?_eq_none.2 fun x hx => ?_
    rw [List.any_eq_true]
    rintro ⟨r, hr, heq⟩
    have := h x hx r hr
    simp only [Bool.and_eq_true, beq_iff_eq] at heq
    tauto
  simp only [State.haulArrive, hnone]

/-! ### Completion records (R261) -/

/-- Records on an OPEN or CLOSING connection, one 32-byte record at a time. -/
theorem State.cplIn_of_record {s : State} {i : Nat} {b : List Byte}
    (hst : (s.conn i).st = .opened ∨ (s.conn i).st = .closing) (hlen : b.length = 32) : s.cplIn i b = s.recordIn i b := by
  have hall : sliceB b (32 * 0) 32 = b := by simp [sliceB, ← hlen]
  have hone : List.range (b.length / 32) = [0] := by rw [hlen]; rfl
  rw [State.cplIn, if_pos hst, hone, List.foldl_cons, List.foldl_nil, hall]

/-- The connection with one descriptor of engine `e` given back, whose CMD message was number `n`. -/
def Conn.credited (c : Conn) (n e : Nat) : Conn :=
  { c with
    descs := listSet c.descs e (c.descs.getD e 0 - 1)
    cmdSent := (c.cmdSent.map fun x => if x.1 = n then (x.1, x.2.1, x.2.2 - 1) else x).filter fun x => x.2.2 != 0 }

/-- A record that no forwarded APPEND and no KINDLE waits for gives back its credit. -/
theorem State.recordIn_of_credit {s : State} {i n e left : Nat} {b : List Byte} (hforwards : s.forwards = [])
    (hkindles : s.kindles = [])
    (hsent : (s.conn i).cmdSent.find? (fun t => t.1 % 2 ^ 28 == leAt b 0 4 / 16) = some (n, e, left)) :
    s.recordIn i b = s.setConn i ((s.conn i).credited n e) := by
  simp only [State.recordIn, hsent, State.setConn, hforwards, hkindles, List.find?_nil]
  rfl

/-- The record of a forwarded APPEND that failed far away: the APPEND is forwarded no more, and its twin is lost. -/
theorem State.recordIn_of_lost {s : State} {i : Nat} {b : List Byte} {f : Forward}
    (hf : s.forwards.find? (fun g => g.conn == i && g.msg % 2 ^ 28 == leAt b 0 4 / 16) = some f)
    (hstatus : leAt b 4 1 ≠ 0) :
    (s.recordIn i b).forwards = s.forwards.filter (fun g => !(g.conn == i && g.msg == f.msg)) ∧
      (s.recordIn i b).regB 0 Reg.FX_ERR_STAT 2 = true := by
  unfold State.recordIn
  extract_lets c msg status t
  have ht : t.forwards = s.forwards := by
    simp only [t]
    split <;> rfl
  rw [ht, hf]
  have hlost : status ≠ 0 := hstatus
  simp only [if_neg hlost]
  exact ⟨State.setReg_forwards .., State.regB_setRegB_same _ _ _ _ _ (by decide)⟩

/-! ### What is left of a state in which a REPORT came (R289, R313) -/

theorem State.twinLost_endsTo (s : State) (k : DirKey) : s.EndsTo (s.twinLost k) := by
  refine EndsTo.trans ?_ (.setRegB _ 0 2 true (by decide) (by decide))
  exact .same rfl rfl rfl rfl rfl rfl

theorem State.emberReported_endsTo (s : State) (e : Sent) (reason : Nat) : s.EndsTo (s.emberReported e reason) := by
  unfold State.emberReported
  extract_lets t u
  have ht : s.EndsTo t := .same rfl rfl rfl rfl rfl rfl
  have hu : s.EndsTo u := ht.trans (t.failReq_endsTo ..)
  split
  · exact hu
  · exact hu.trans (.endCmd ..)

theorem State.haulStep_endsTo (s : State) (c : Cmd) (h : Haul) (ended : Nat) : s.EndsTo (s.haulStep c h ended) := by
  unfold State.haulStep
  extract_lets len full filled h' t
  have ht : s.EndsTo t := by
    refine .ite (EndsTo.trans ?_ (State.signal_endsTo ..)) (.refl s)
    exact .same rfl rfl rfl rfl rfl rfl
  split
  · exact s.endHaul_endsTo ..
  split
  · exact ht.trans (t.endHaul_endsTo ..)
  · exact ht.trans (.same rfl rfl rfl rfl rfl rfl)

theorem State.haulWritten_endsTo (s : State) (cmd i msg : Nat) : s.EndsTo (s.haulWritten cmd i msg) := by
  unfold State.haulWritten
  split
  · split
    · exact s.haulStep_endsTo ..
    · exact .refl s
  · exact .refl s

theorem State.setSender_endsTo (s : State) (p : Nat) (f : Rebuild → Rebuild) : s.EndsTo (s.setSender p f) :=
  .same rfl rfl rfl rfl rfl rfl

theorem State.readOut_endsTo (s : State) (a n : Nat) : s.EndsTo (s.readOut a n).2 := by
  unfold State.readOut
  split
  · exact (s.scanned_readTo a n).endsTo.trans (.same rfl rfl rfl rfl rfl rfl)
  · exact (s.scanned_readTo a n).endsTo

theorem State.unitBytes_endsTo (s : State) (xs : List Slot) : s.EndsTo (s.unitBytes xs).2 := by
  induction xs generalizing s with
  | nil => exact .refl s
  | cons x xs ih => exact (s.readOut_endsTo x.addr x.size).trans (ih _)

theorem State.sendImage_endsTo (s : State) (p i key : Nat) (bs : List Byte) : s.EndsTo (s.sendImage p i key bs) :=
  .foldl (fun t _ => t.sendMsg_endsTo ..) ..

theorem State.freeBytes_endsTo (s : State) (n : Nat) : s.EndsTo (s.freeBytes n).2 := .same rfl rfl rfl rfl rfl rfl

theorem State.rebuildNext_endsTo (s : State) (p : Nat) : s.EndsTo (s.rebuildNext p) := by
  unfold State.rebuildNext
  split
  · exact .refl s
  split
  · exact .refl s
  split
  · exact .refl s
  split
  · exact .refl s
  extract_lets key t
  have ht : s.EndsTo t := s.setSender_endsTo ..
  split
  · extract_lets u
    refine ht.trans ((t.setSender_endsTo ..).trans ((u.freeBytes_endsTo 64).trans ?_))
    exact (State.unitBytes_endsTo ..).trans (State.sendImage_endsTo ..)
  split
  · exact ht.trans (t.setSender_endsTo ..)
  · exact ht.trans ((t.setSender_endsTo ..).trans ((State.freeBytes_endsTo _ 64).trans (State.sendImage_endsTo ..)))

theorem State.txSettle_endsTo (s : State) (i : Nat) : s.EndsTo (s.txSettle i) := by
  simp only [State.txSettle]
  refine (EndsTo.setConn ..).trans (.foldl (fun t m => ?_) ..)
  split
  · exact .ite (t.haulWritten_endsTo ..) (.refl t)
  · exact t.rebuildNext_endsTo ..
  · exact .refl t

/-! ### REPORT (R289, R311, R312) -/

/-- The violation record that a REPORT gives. -/
def State.reportRecord (s : State) (i : Nat) (x : List Byte) : List Byte :=
  vioRecord s.ft.now.toNat (leAt x 0 1) 1 (leAt x 1 1) (s.conn i).peerNode (beAt x 4 2) (connId i (s.conn i).gen)
    (beAt x 16 4) (beAt x 12 4) (beAt x 20 6)

/-- The HAULs whose WRITE or READ_REQ a REPORT names. -/
def State.reportedHauls (s : State) (i op msg : Nat) : List Haul :=
  s.hauls.filter fun h => (op == 1 && h.writes.any fun w => w.conn == i && w.msg == msg) ||
    (op == 2 && h.reads.any fun r => r.conn == i && r.msg == msg)

/-- A REPORT is logged, ends the HAULs that it names, and leaves what ended. -/
theorem State.reportIn_ends {s : State} {i : Nat} (x : List Byte)
    (hst : (s.conn i).st = .opened ∨ (s.conn i).st = .closing) :
    ∃ t msg, (s.logViolation ((s.conn i).owner.getD 0) (s.reportRecord i x)).EndsTo t ∧
      (leAt x 1 1 / 16 = 1 → t.cmds = s.cmds ∧ t.hauls = s.hauls ∧
        msg = unwrap32 (s.conn i).nextMsg (beAt x 12 4)) ∧
      ((t.reportedHauls i (leAt x 1 1 / 16) msg).foldl (fun u h => u.endHaul h (reasonStatus (leAt x 0 1))) t).EndsTo
        (s.reportIn i x) := by
  have hopen : ¬((s.conn i).st ≠ .opened ∧ (s.conn i).st ≠ .closing) := by tauto
  unfold State.reportIn
  extract_lets c reason op msg p logged back marked t hauls u v
  rw [if_neg hopen]
  have hmarked : logged.EndsTo marked := .setConn ..
  refine ⟨t, msg, hmarked.trans (.ite (marked.endKindles_endsTo ..) (.refl _)), fun hop => ?_, ?_⟩
  · have hop' : op = 1 := hop
    have ht : t = marked := if_neg (by rw [hop']; decide)
    have hmsg : msg = unwrap32 (s.conn i).nextMsg (beAt x 12 4) := if_neg (by rw [hop']; decide)
    have hcmds : logged.cmds = s.cmds := by simp [logged, State.logViolation]
    have hhauls : logged.hauls = s.hauls := by simp [logged, State.logViolation]
    exact ⟨ht ▸ hcmds, ht ▸ hhauls, hmsg⟩
  · have hv : u.EndsTo v := by
      simp only [v]
      split
      · exact u.emberReported_endsTo ..
      · exact .refl u
    refine hv.trans ?_
    split
    · refine EndsTo.trans ?_ (State.twinLost_endsTo ..)
      exact .same rfl rfl rfl rfl rfl rfl
    · exact v.txSettle_endsTo i

/-- A REPORT's record is the next entry of the log. -/
theorem State.logViolation_leaves (s : State) (p : Nat) (r : List Byte) :
    (s.logViolation p r).reg (vfOf p) Reg.RT_VIO_HEAD = s.reg (vfOf p) Reg.RT_VIO_HEAD + 1 ∧
      tget (fun _ => List.replicate 32 0) (s.logViolation p r).vioLog
        (p * 64 + (s.reg (vfOf p) Reg.RT_VIO_HEAD).toNat % 64) = r := by
  simp only [State.logViolation, State.reg_setReg_same, State.setReg_vioLog, tget_tput_same, and_self]

/-- A command that runs is not ended by a HAUL of another. -/
theorem State.cmd?_endHaul_ne {s : State} {h : Haul} {id : Nat} (hne : id ≠ h.cmd) (status : Nat) :
    (s.endHaul h status).cmd? id = s.cmd? id := by
  simp only [State.endHaul, State.endCmd]
  rw [State.cmd_setCmd _ _ _ _ (fun c => by split <;> rfl), State.cmd?_congr (State.served_cmds ..),
    State.cmd_setCmd _ _ _ _ (by exact fun _ => rfl)]
  change ((s.cmd? id).map _).map _ = _
  cases hc : s.cmd? id with
  | none => rfl
  | some c =>
    have hid : c.id ≠ h.cmd := State.id_of_cmd? hc ▸ hne
    simp only [Option.map_some, if_neg hid]

/-- Of HAULs that end with one status, each of a running command ends it with that status. -/
theorem State.endHauls_endedWith {hs : List Haul} {h : Haul} (hmem : h ∈ hs) {s : State} {c : Cmd}
    (hc : s.cmd? h.cmd = some c) (hphase : c.phase ≠ .ended) (status : Nat) :
    (hs.foldl (fun u h => u.endHaul h status) s).endedWith h.cmd status := by
  induction hs generalizing s with
  | nil => exact absurd hmem List.not_mem_nil
  | cons x hs ih =>
    by_cases hx : h.cmd = x.cmd
    · have hended : (s.endHaul x status).endedWith h.cmd status :=
        hx ▸ ⟨_, State.cmd?_endHaul (hx ▸ hc) hphase status, rfl, rfl⟩
      exact (EndsTo.foldl (fun u y => u.endHaul_endsTo y status) hs _).ended hended
    · refine ih ?_ ((State.cmd?_endHaul_ne hx status).trans hc)
      obtain rfl | hmem := List.mem_cons.1 hmem
      · exact absurd rfl hx
      · exact hmem

/-- Settles O42: the bytes of a read by the store that they become, the records by the credit and the twin, and a REPORT
by its record and the HAULs that it ends. -/
theorem answersReachTheirCommands : Obligations.AnswersReachTheirCommands := by
  refine ⟨fun s i msg off bs body h c r hawake hh hc hr hbody => ⟨fun hshort => ?_, fun hdst htile hall hmax => ?_⟩,
    fun s i msg off bs hnone => ?_, fun s i n e left b hst hlen hforwards hkindles hsent he => ?_,
    fun s i b f hst hlen hforwards hconn hmsg hstatus => ?_, fun s i p x hst hp => ?_,
    fun s i msg x h c w hst hop hmsg hh hw hwconn hwmsg hc _ hphase => ?_, fun s i x hopened hclosing => ?_⟩
  · obtain ⟨hmem, hcmds⟩ := State.haulArrive_part off bs hh hc hr (hbody ▸ hshort)
    exact ⟨_, congrArg Host.Outcome.next (if_pos hawake), hmem, hcmds⟩
  · have hmem := State.haulArrive_whole_mem off bs hh hc hr hdst htile (hbody ▸ hall)
    rw [← hbody] at hmem
    have hbyte (a : Nat) := State.byte_congr hmem a
    have hlen : (body.take r.len).length = r.len := List.length_take_of_le hall
    refine ⟨_, congrArg Host.Outcome.next (if_pos hawake), fun j hj => ?_, fun a ha => ?_⟩
    · rw [hbyte, State.byte_store_near _ _ (by omega) (by omega)]
      simp [List.getD_eq_getElem?_getD, List.getElem?_take_of_lt hj]
    · rw [hbyte]
      exact State.byte_store_other s _ _ fun j hj => ha j (by omega)
  · refine congrArg Host.Outcome.next ?_
    split
    · exact State.haulArrive_of_none hnone off bs
    · rfl
  · refine ⟨(s.conn i).credited n e, congrArg Host.Outcome.next ?_, ?_, ?_, rfl⟩
    · rw [State.cplIn_of_record hst hlen, State.recordIn_of_credit hforwards hkindles hsent]
    · simp [Conn.credited, listSet, List.getD_eq_getElem?_getD, he]
    · intro k hk
      simp [Conn.credited, listSet, List.getD_eq_getElem?_getD, List.getElem?_set_ne hk.symm]
  · have hfound : s.forwards.find? (fun g => g.conn == i && g.msg % 2 ^ 28 == leAt b 0 4 / 16) = some f := by
      rw [hforwards, List.find?_cons_of_pos (by simp only [hconn, hmsg, beq_self_eq_true, Bool.and_self])]
    obtain ⟨hforw, hbit⟩ := State.recordIn_of_lost hfound hstatus
    rw [hforwards] at hforw
    exact ⟨_, congrArg Host.Outcome.next (State.cplIn_of_record hst hlen), s.recordIn_mem i b,
      by simpa [hconn] using hforw, hbit⟩
  · obtain ⟨t, msg, ht, -, hrest⟩ := State.reportIn_ends x hst
    have hends := ht.trans ((State.EndsTo.foldl (fun u h => u.endHaul_endsTo h _) ..).trans hrest)
    obtain ⟨hhead, hlog⟩ := s.logViolation_leaves p (s.reportRecord i x)
    refine ⟨_, rfl, s.reportIn_mem i x, ?_, ?_⟩
    · rw [hends.vioHead, ← hp, hhead]
    · rw [hends.vioLog, ← hp]
      exact hlog
  · obtain ⟨t, msg', ht, hone, hrest⟩ := State.reportIn_ends x hst
    obtain ⟨hcmds, hhauls, hmsg'⟩ := hone hop
    refine ⟨_, rfl, hrest.ended (State.endHauls_endedWith ?_ ((State.cmd?_congr hcmds _).trans hc) (by simp [hphase]) _)⟩
    refine List.mem_filter.2 ⟨hhauls ▸ hh, ?_⟩
    rw [hop, hmsg', ← hmsg]
    simp only [beq_self_eq_true, Bool.true_and, Bool.or_eq_true, List.any_eq_true]
    exact .inl ⟨w, hw, by simp [hwconn, hwmsg]⟩
  · exact ⟨congrArg Host.Outcome.next (if_pos ⟨hopened, hclosing⟩),
      congrArg Host.Outcome.next (if_neg (by tauto))⟩

end Sys2Proof.Machine
end
